-- ==== Sys2Proof/Word.lean ====
section
/-!
DEFINITION. The word types of the PL-9600 and their plainest arithmetic (spec/00 R1, R2).
-/
namespace Sys2Proof

/-- A byte of a memory, a frame or a record. -/
abbrev Byte := BitVec 8

/-- A control register, an error code, a binary32 bit pattern (R1). -/
abbrev Word := BitVec 32

/-- A byte string: a frame's payload, a descriptor, a record. -/
abbrev Bytes := List (BitVec 8)

end Sys2Proof
end

