-- ==== Sys2Proof/Syntax.lean ====
section
/-!
DEFINITION. The commands of the PL-9600: one constructor per row of spec/opcode_table.json.
The operands of a strand's opcode stand in the strand's 128-bit instruction word (R261), which State holds, so such
a row carries only the number of its unit. A message row carries the fields of its message; a happening carries what
the outside world settles about it (waited cycles, a physical fault, a measured value).
-/
namespace Sys2Proof

/-- What the Kennel's checkers find of a request's control parity (R445): even, odd in the Tether command, or odd in the
register access that it makes. -/
inductive Parity where
  | even | command | access
  deriving DecidableEq, Repr

/-- What every request over the Tether carries: its link, its REQ_ID (Table 11-1), its control parity, and how many requests
are outstanding on the link as it arrives (R399; log 5). -/
structure Req where
  link   : Fin 2
  id     : BitVec 32
  parity : Parity
  ahead  : Nat := 0
  deriving DecidableEq, Repr

/-- The launch frame of Table 11-5. -/
structure LaunchFrame where
  kind     : BitVec 8
  depth    : BitVec 8
  plan     : BitVec 16
  armId    : BitVec 32
  jobId    : BitVec 64
  time     : BitVec 64
  reserved : BitVec 64
  auth     : BitVec 128
  deriving DecidableEq, Repr

/-- The fields of RU_ARMACK, RU_READY and RU_COMMITACK (R409). -/
structure RuReport where
  sender : BitVec 24
  jobId  : BitVec 64
  armId  : BitVec 32
  auth   : BitVec 128
  deriving DecidableEq, Repr

/-- An operator certificate, Table 15-3; `sigOk`: its SIGNATURE verifies under the enrolled owner key (log 7). -/
structure OpCert where
  magic     : BitVec 32
  serial    : BitVec 32
  scope     : BitVec 32
  reserved  : BitVec 32
  key       : BitVec 512
  sigOk     : Bool
  deriving DecidableEq, Repr

/-- A grant, Table 15-4; whether OWNER_SIG and VENDOR_SIG verify, and whether VENDOR_SIG is zero (log 7). -/
structure Grant where
  magic     : BitVec 32
  action    : BitVec 32
  device    : BitVec 256
  challenge : BitVec 128
  address   : BitVec 32
  value     : BitVec 32
  ownerOk   : Bool
  vendorOk  : Bool
  vendorZero : Bool
  deriving DecidableEq, Repr

/-- How a frame arrives on a lead (Table 9-4): the lead, its SEQ and its GEN; its HCRC, FEC and tag hold (LEAD_FRAME_REJECT is a
frame of which one fails). -/
structure Arrival where
  lead : Fin 8
  seq  : BitVec 64
  gen  : BitVec 8
  deriving DecidableEq, Repr

/-- The fields of a DATA frame that stay with it from lead to lead (Table 9-4, R337). -/
structure LeadFrame where
  dest     : BitVec 24
  src      : BitVec 24
  hopLimit : BitVec 16
  stream   : BitVec 32
  /-- CHECK, as the frame carries it. -/
  check    : BitVec 32
  payload  : Bytes
  deriving DecidableEq, Repr

/-- What a COLL frame carries between neighbours (R352, R353, R355): the header frame, or a run of the vector of one pass over
the plan, toward the root or back (`down`); `more` frames of the vector follow it (R335; log 13). -/
inductive CollMsg where
  | header (kind rop ecode : BitVec 4) (count root : BitVec 32)
  | quanta (down more : Bool) (q : List (BitVec 10))
  | elems (down more : Bool) (v : List (BitVec 64))
  | parts (down more : Bool) (v : List (Nat × List (BitVec 64)))
  deriving DecidableEq, Repr

/-- A physical fault in a pass (log 11): as row `row` of tile `tile` (its place in the row group) passes the bead at physical
row `prow` and physical column `pcol`, that bead changes the carry by `flip` (R443: the device does not hold a wrong value
back). -/
structure CarryFault where
  tile : Nat
  row  : Nat
  prow : Nat
  pcol : Nat
  flip : BitVec 48
  deriving DecidableEq, Repr

/-- A discovery report of a peer, R329. -/
structure PeerReport where
  id    : BitVec 24
  port  : BitVec 3
  lanes : BitVec 5
  delay : BitVec 16
  deriving DecidableEq, Repr

/-- One end's view of a time exchange (R382): the child's, with the four times and whether its parent is initialised, or the
parent's, whose neighbour's request has come on a lead. -/
inductive TimeExchange where
  | child (t1 t2 t3 t4 : BitVec 48) (parentInit : Bool)
  | parent (lead : Fin 8)
  deriving DecidableEq, Repr

/-- A grain that waits for energy credits, R587, R591: its unit's strand number (63 for the Tether), its cost class, its
factor (powered strips of a Frame row, else 1), its rank of Table 16-2, and its waited cycles. -/
structure Grain where
  strand : Nat
  cls    : Nat
  factor : Nat
  rank   : Nat
  waited : Nat
  deriving DecidableEq, Repr

/-- A clock island, Table 18-9. -/
inductive Island where
  | frame | edge | rods (p : Fin 8) | board | fetch | phy (s : Fin 8) | leadGroup (g : Fin 4)
  | tether | timeGov | kennel
  deriving DecidableEq, Repr

/-- Where a code is detected that no other row raises by itself (R430): the Kennel's own memories, the Board and HBM
in-line corrections. -/
inductive Detected where
  /-- A raised code that is on its way to the Kennel. -/
  | inFlight
  /-- Board SEC-DED corrected an error (R287). -/
  | boardCorrected
  /-- Board SEC-DED met an uncorrectable error; the unit that read the bytes is the strand's (R287). -/
  | boardUncorrectable (strand : Fin 43)
  /-- A stack's on-die ECC corrected an error (R297). -/
  | onDieCorrected
  /-- HBM SEC-DED corrected a single-bit error on a pseudo-channel (R296). -/
  | hbmCorrected (stack : Fin 8) (pc : Fin 32) (page : BitVec 32)
  /-- Kennel SRAM corrected (Table 12-13). -/
  | kennelCorrected
  /-- Kennel SRAM uncorrectable (Table 12-13). -/
  | kennelUncorrectable
  deriving DecidableEq, Repr

/-- The commands. -/
inductive Instr where
  -- Strand events
  | instructionDecode (n : Fin 43)
  | tokenWaitSatisfied (n : Fin 43)
  /-- The strands that complete an instruction in this cycle, each with whether its token signal's parity holds (R220, R445). -/
  | instructionComplete (done : List (Fin 43 × Bool))
  | nop (n : Fin 43)
  | stepMarker (n : Fin 43)
  | endStrand (n : Fin 43)
  -- Frame
  | matmul
  | seatChunk (waited : Nat)
  | rowGroupBegin (waited : Nat)
  | passBegin (feedWait seatWait throttle : Nat) (faults : List CarryFault)
  | recountWindowEnd
  | stepBackReplay (throttle : Nat) (faults : List CarryFault)
  | recountReplay (throttle : Nat) (faults : List CarryFault)
  /-- `beadCycles` is the time the bead test of a permanent verdict takes (R438, R440). -/
  | classificationReplay (beadCycles : Nat) (faults2 faults3 : List CarryFault) (failed : List (Fin 1040 × Fin 1040))
  | beadTest (failed : List (Fin 1040 × Fin 1040))
  | spareSubstitution
  | stripWake (s : Fin 16)
  -- Edge
  | drain
  | drainSlotReady
  | drainLastRow (outWait throttle : Nat)
  | sweep (throttle : Nat)
  -- Fetch
  | copy (f : Fin 16)
  | feed (f : Fin 16)
  | writeout (f : Fin 16)
  -- Rods
  | load (c : Fin 16)
  | store (c : Fin 16)
  | gather (c : Fin 16)
  | scatter (c : Fin 16)
  | scatterAdd (c : Fin 16)
  | tpose (c : Fin 16)
  | add (c : Fin 16)
  | sub (c : Fin 16)
  | mul (c : Fin 16)
  | adds (c : Fin 16)
  | subs (c : Fin 16)
  | neg (c : Fin 16)
  | iabs (c : Fin 16)
  | and (c : Fin 16)
  | or (c : Fin 16)
  | xor (c : Fin 16)
  | not (c : Fin 16)
  | shl (c : Fin 16)
  | shr (c : Fin 16)
  | sar (c : Fin 16)
  | cmpeq (c : Fin 16)
  | cmpne (c : Fin 16)
  | cmplt (c : Fin 16)
  | cmple (c : Fin 16)
  | sel (c : Fin 16)
  | fadd (c : Fin 16)
  | fsub (c : Fin 16)
  | fmul (c : Fin 16)
  | fma (c : Fin 16)
  | fmin (c : Fin 16)
  | fmax (c : Fin 16)
  | fabs (c : Fin 16)
  | fneg (c : Fin 16)
  | fdiv (c : Fin 16)
  | fsqrt (c : Fin 16)
  | cvt (c : Fin 16)
  | map (c : Fin 16)
  | exp (c : Fin 16)
  | exp2 (c : Fin 16)
  | log (c : Fin 16)
  | log2 (c : Fin 16)
  | rsqrt (c : Fin 16)
  | erf (c : Fin 16)
  | sigmoid (c : Fin 16)
  | tanh (c : Fin 16)
  | softplus (c : Fin 16)
  | elu (c : Fin 16)
  | gelu (c : Fin 16)
  | silu (c : Fin 16)
  | gelud (c : Fin 16)
  | silud (c : Fin 16)
  | sort (c : Fin 16)
  | hash64 (c : Fin 16)
  | hashstr (c : Fin 16)
  | minhash (c : Fin 16)
  | edit (c : Fin 16)
  | jw (c : Fin 16)
  | norm (c : Fin 16)
  | normrd (c : Fin 16)
  | normclr (c : Fin 16)
  | opt (c : Fin 16)
  -- Collectives
  | collReduce (e : Fin 8)
  | collAllreduce (e : Fin 8)
  | collAllgather (e : Fin 8)
  | collBroadcast (e : Fin 8)
  | collFrameReceived (a : Arrival) (plan seq : BitVec 16) (m : CollMsg)
  | neighbourTimeout (e : Fin 8)
  -- Snapshots
  | snap
  | snapFence
  /-- A write to the 256 KiB page at hand; `us` is how long the writer was held while the reserve was full. -/
  | pagePush (page : BitVec 32) (us : Nat)
  | snapPageSend
  /-- `us` is how long step 5 was held (R478). -/
  | endOfCopying (us : Nat)
  | mirrorBegin (a : Arrival) (marker jobId bytes : BitVec 64) (position : BitVec 32)
  /-- One DATA frame of the mirror (R486). -/
  | mirrorPage (a : Arrival) (f : LeadFrame)
  /-- The mirrored shard that is complete, and its pages: how the partner learns them the spec does not say (log 28). -/
  | relayShard (shard pages : Nat)
  | relayDone (a : Arrival) (digests : List (Nat × BitVec 256))
  /-- Storage's answers carry the context generation of what they answer (R244). -/
  | shardStored (ctx : BitVec 8) (shard : Nat) (relayed : Bool)
  | manifestStored (ctx : BitVec 8)
  | storageFailed (ctx : BitVec 8)
  | ckptTimeout
  -- Markers, job end and teardown
  | markerCommit
  | jobEnd
  | codeCollected (d : Detected)
  | teardownDrained
  | teardownDrainTimeout
  | contextResetDone
  | contextResetOverrun
  | hbmScrubComplete
  -- Kennel
  | hangCheck
  | hangThreshold
  | heartbeat (missing : List Island)
  /-- `stopFailed`: the island did not stop within 10 us when told to (R449). -/
  | islandStall (i : Island) (stopFailed : Bool)
  | islandReset (i : Island)
  | deviceReset
  | bandRise (tempC : BitVec 8)
  | bandFall (tempC : BitVec 8)
  | telemetrySample (values : Vector (BitVec 24) 16)
  /-- The sensor: 0 the Frame junction, 1 + s stack s (R533, R638). -/
  | thermalTrip (sensor : Fin 9)
  | thermalRelease
  -- Governor
  | govTick
  | grainGrant (arrived : List Grain)
  | grainAged (strand : Nat)
  | feedbackPeriod (measured : Nat)
  | driftWindow
  | deferAdjust
  | calibrationDone (values : Vector (BitVec 32) 20)
  -- Status and registers
  | statusRead (r : Req)
  /-- `more`: the words of the read after its first (Table 11-2). -/
  | regRead (r : Req) (addr : BitVec 32) (more : Fin 64)
  | regWrite (r : Req) (addr value : BitVec 32)
  | timNowRead (r : Req)
  | tallyHeadRead (r : Req)
  | tallyNextRead (r : Req)
  | shpTimeRead (r : Req)
  | strTokSignal (r : Req) (value : BitVec 32)
  | strDisable (r : Req) (value : BitVec 32)
  /-- Bit number of the unit in STR_DISABLED (Table 6-16). -/
  | unitDrainDone (unit : Fin 32)
  | knlResetContext (r : Req)
  | knlResetDevice (r : Req)
  | escalateClear (g : Grant) (r : Req)
  | epochWrite (r : Req) (hi : BitVec 32)
  | tallyFlush
  | tallyFlushDone
  | tallyAgeTimeout
  | tallyBufferThreshold
  | tallyClear (g : Grant) (r : Req)
  | packageReset (g : Grant) (r : Req)
  | sampleRelease (g : Grant) (r : Req)
  | measure (r : Req)
  | restoreFactory (r : Req)
  | adopt (g : Grant) (r : Req)
  | govUcalWrite (g : Grant) (r : Req)
  -- Loading
  | loadBegin (r : Req) (jobId imageBytes : BitVec 64)
  | loadData (link : Fin 2) (offset : BitVec 64) (bytes : Bytes)
  | loadEnd (r : Req)
  | loadCheck
  -- Launch and round-up
  | launchArm (r : Req) (f : LaunchFrame)
  | launchCommit (r : Req) (f : LaunchFrame)
  | launchCancel (r : Req) (f : LaunchFrame)
  | ruArm (a : Arrival) (f : LaunchFrame)
  | ruArmack (a : Arrival) (m : RuReport)
  | ruReady (a : Arrival) (m : RuReport)
  | ruCommit (a : Arrival) (f : LaunchFrame)
  | ruCommitack (a : Arrival) (m : RuReport)
  | ruCancel (a : Arrival) (f : LaunchFrame)
  | ruAckTimeout (lead : Fin 8)
  | armDeadline
  | launchTimeReached
  | tetherAbort (r : Req) (cls : BitVec 8)
  -- Secrecy
  | hello (r : Req) (shepherd : Bool) (cert : OpCert) (key : BitVec 512) (nonce : BitVec 128)
  | finish (r : Req) (shepherd : Bool) (sigOk : Bool)
  | jobEphemeral (r : Req) (jobId : BitVec 64)
  | ephemeralExpiry
  /-- `node`: the node's ephemeral key; `wrapped`, `tag`: the wrapped master key. -/
  | jobKey (r : Req) (jobId : BitVec 64) (node : BitVec 512) (wrapped : BitVec 256) (tag : BitVec 128) (epochW epochR : BitVec 32)
  | jobDrop (r : Req) (jobId : BitVec 64)
  /-- `chains`: the certificate chains to the vendor device-CA (log 7). -/
  | peerCert (r : Req) (signer : BitVec 24) (cert : Bytes) (bind : BitVec 128) (chains : Bool)
  | attest (r : Req) (nonce : BitVec 128)
  | grantRegWrite (r : Req) (g : Grant)
  | grantDebugUnlock (r : Req) (g : Grant)
  | debugUnlock
  | enroll (r : Req) (key : BitVec 512) (voucherOk : Bool)
  | certRead (r : Req)
  /-- `kind`: the kind of firmware, 0 Shepherd or 1 Kerrin (R566). -/
  | fwData (r : Req) (kind : Fin 2) (offset : BitVec 32) (bytes : Bytes)
  /-- `svn`: the staged image's SVN, if its vendor signature verifies (log 7). -/
  | fwCommit (r : Req) (kind : Fin 2) (svn : Option (BitVec 32))
  | side (r : Req) (write : Bool) (addr value : BitVec 32)
  -- Restore
  /-- `sigOk`: the manifest's SIGNATURE verifies under the key that R572 names for its SIGNER (log 7). -/
  | restoreManifest (r : Req) (offset : BitVec 32) (last : Bool) (bytes : Bytes) (sigOk : Bool)
  | restorePage (link : Fin 2) (marker : BitVec 64) (position shard page offset : BitVec 32) (bytes : Bytes)
  | restoreEnd (r : Req)
  -- Tether links; `shp`: the frame belongs to the Shepherd session of the link, not the compute die's
  | reservedMessage (r : Req) (type : BitVec 8)
  | tetherFrameReject (link : Fin 2) (shp : Bool) (seq : BitVec 64) (tagFailed : Bool)
  | tetherNak (link : Fin 2) (shp : Bool) (seq : BitVec 64)
  | tetherAckTimeout (link : Fin 2) (shp : Bool)
  | tetherLinkLost (link : Fin 2)
  | tetherRetrain (link : Fin 2) (comesUp : Bool)
  | bothLinksLost
  -- Leads
  | dataFrameReceived (a : Arrival) (f : LeadFrame)
  /-- Why the frame is dropped: 0 FEC, HCRC, TYPE, LENGTH or GEN; 1 tag; 2 CHECK; and the lane on which the errors lie, if known. -/
  | leadFrameReject (lead : Fin 8) (seq : BitVec 64) (cause : Fin 3) (lane : Option (Fin 32))
  | leadNak (a : Arrival) (seq : BitVec 64)
  | leadAckTimeout (lead : Fin 8)
  | creditReturn (a : Arrival) (cls : Fin 4) (count : Nat)
  | creditStall (lead : Fin 8) (cls : Fin 4)
  | keyConfirm (a : Arrival) (ok : Bool)
  | abortFrameReceived (a : Arrival) (origin : BitVec 24) (cls hops : BitVec 8)
  | laneFailure (lane : Fin 32)
  | relaneComplete (lead : Fin 8)
  | leadLost (lead : Fin 8)
  | discoveryMgmt (lead : Fin 8) (p : PeerReport)
  | discoveryEnd
  -- Time
  /-- `interval`: ns of reference time since the edge before (R379). -/
  | frameMarkerEdge (interval : Nat)
  | refClockAbsent
  | timeAdvert (heard : List (Fin 8 × BitVec 24 × BitVec 8))
  | timeExchange (x : TimeExchange)
  | timeCounterWrap
  -- Memory happenings
  | hbmEccReread (stack : Fin 8) (pc : Fin 32) (page : BitVec 32) (strand : Fin 43) (ok : Bool)
  /-- `row`: the block row of the pseudo-channel (R292). -/
  | checkValueReread (stack : Fin 8) (pc : Fin 32) (row : BitVec 32) (strand : Fin 43) (ok : Bool)
  /-- A parity error on a pseudo-channel (R310). -/
  | pcRetrain (stack : Fin 8) (pc : Fin 32)
  | pcRetrainDone (stack : Fin 8) (pc : Fin 32) (ok : Bool)
  -- Drills
  | drillInject
  | drillSkip
  -- Start-up, rails and power
  /-- The straps sampled at standby power-up, and the SVN of every firmware and table image whose vendor signature verifies
  (R516, R566): Shepherd slot A, B, Kerrin slot A, B, the factory calibration. -/
  | standbyPowerGood (pos : BitVec 2) (leashEn : Bool) (images : Vector (Option (BitVec 32)) 5)
  | computeDieRelease
  | domainPowerGood (d : Fin 50)
  | domainPgTimeout (d : Fin 50)
  | hbmTrainingDone (failed : List (Fin 8 × Fin 32))
  | bootExit
  | startupTimeout
  | railsLate
  | railOrderFault (step : BitVec 32)
  | railOutOfRange (rail : BitVec 32) (mv : BitVec 32)
  | powerFail
  | powerFailRelease
  | vstbyLoss
  -- Shepherd
  | shepherdTimeSave
  | shepherdWatchdog
  | leashToggle
  | leashSelfFence
  | leashLapse
  | roleRequest
  | getacccr
  | claimTimeout
  | leashYield
  | actuatorRefused
  | trayBusParity (resendFails : Bool)
  /-- `others`: the tech pages that the holder has read at the other positions. -/
  | techPoll (toolAnswers : Bool) (others : List (BitVec 32))
  -- The later rows of the table
  | lastCarryWritten
  | leadAck (a : Arrival) (seq : BitVec 64)
  | tetherAck (link : Fin 2) (shp : Bool) (seq : BitVec 64)
  | shepherdServing
  | kerrinFirmwareServing
  | tetherLinkUp (link : Fin 2)
  | markerEdgeMissing
  /-- `interval`: ns since the peer's edge before; `epochSeen`: the highest epoch an EPOCH broadcast carried since (R519). -/
  | leashPeerEdge (interval : Nat) (epochSeen : BitVec 32)
  | mirrorBeginRefused (a : Arrival)
  deriving DecidableEq, Repr

end Sys2Proof
end

