-- ==== Sys2Proof/Decode.lean ====
section
/-!
DEFINITION. The decoder of the rows of spec/opcode_table.json that give bits. No row gives any: a command of the PL-9600 is a
message or a happening, and a strand's opcode stands in its own 128-bit word, which State holds.
-/
namespace Sys2Proof

/-- The command that a word spells by the table's bits: none, since no row of the table has bits. -/
def decodeTableWord (nbits w : Nat) : Option Instr :=
  match nbits, w with
  | _, _ => none

end Sys2Proof
end

