-- ==== Sys2Proof/Machine/Bits.lean ====
section
/-!
DEFINITION. Bit fields, little-endian byte strings and sparse maps (spec/00 R1, R2, R4).
-/
namespace Sys2Proof.Machine

/-- Bits [hi:lo] of a number. -/
def field (x hi lo : Nat) : Nat := x / 2 ^ lo % 2 ^ (hi + 1 - lo)

/-- Bit i of a number. -/
def bitOf (x i : Nat) : Bool := x / 2 ^ i % 2 == 1

/-- A flag as a number, for placing it in a register. -/
def b2n (b : Bool) : Nat := if b then 1 else 0

/-- The ones of the bits [hi:lo], counted. -/
def onesIn (x lo : Nat) : Nat → Nat
  | 0 => 0
  | k + 1 => b2n (bitOf x (lo + k)) + onesIn x lo k

/-- A two's-complement reading of the low `w` bits. -/
def toSigned (w x : Nat) : Int :=
  let y := x % 2 ^ w
  if 2 ^ w ≤ 2 * y then (y : Int) - (2 ^ w : Nat) else y

/-- The low `w` bits of an integer, two's complement. -/
def ofSigned (w : Nat) (i : Int) : Nat := (i % ((2 ^ w : Nat) : Int)).toNat

/-- A little-endian number of a byte string (R2). -/
def leNat : Bytes → Nat
  | [] => 0
  | b :: bs => b.toNat + 256 * leNat bs

/-- `len` bytes, little-endian, of a number (R2). -/
def natLE : (len x : Nat) → Bytes
  | 0, _ => []
  | k + 1, x => BitVec.ofNat 8 x :: natLE k (x / 256)

/-- A byte string of zeros. -/
def zeros (n : Nat) : Bytes := List.replicate n 0

/-- The bytes of a string from an offset, zero beyond its end. -/
def slice (b : Bytes) (off len : Nat) : Bytes := ((b.drop off).take len) ++ zeros (len - ((b.drop off).take len).length)

/-- A little-endian field of a record: `len` bytes at `off`, zero beyond the record's end. -/
def fld (b : Bytes) (off len : Nat) : Nat := leNat ((b.drop off).take len)

/-- Do all bytes of a range read zero? -/
def allZero (b : Bytes) (off len : Nat) : Bool := ((b.drop off).take len).all (· == 0)

/-- The first offset in a range whose byte is nonzero. -/
def firstNonzero (b : Bytes) (off : Nat) : Nat → Option Nat
  | 0 => none
  | k + 1 => if ((b.drop off).headD 0) == 0 then firstNonzero b (off + 1) k else some off

/-- A counter that holds at its largest value (`2^w - 1`). -/
def satAdd (w a b : Nat) : Nat := min (a + b) (2 ^ w - 1)

/-- A 32-bit counter that holds at 0xFFFF_FFFF. -/
def satAdd32 (a : Word) (b : Nat) : Word := BitVec.ofNat 32 (satAdd 32 a.toNat b)

/-- `⌈a / b⌉`. -/
def ceilDiv (a b : Nat) : Nat := (a + b - 1) / b

/-- `a` rounded up to a multiple of `b`. -/
def roundUpTo (a b : Nat) : Nat := ceilDiv a b * b

/-- `⌈log2 k⌉` for k at least 1 (R27's ceil_log2). -/
def ceilLog2 (k : Nat) : Nat := if k ≤ 1 then 0 else Nat.log2 (k - 1) + 1

/-- The first position below `n` at which `p` holds. -/
def firstBelow (p : Nat → Bool) : (n : Nat) → Option Nat
  | 0 => none
  | k + 1 => match firstBelow p k with
    | some i => some i
    | none => if p k then some k else none

/-- Is every element different from every later one? -/
def noDups [DecidableEq α] : List α → Bool
  | [] => true
  | x :: xs => !xs.contains x && noDups xs

/-- A sparse map: keys strictly rising, one entry each. -/
abbrev SMap (α : Type) := List (Nat × α)

/-- The entry of a key. -/
def sget? (m : SMap α) (k : Nat) : Option α :=
  match m with
  | [] => none
  | (k', v) :: rest => if k = k' then some v else sget? rest k

/-- The entry of a key, or a default. -/
def sgetD (m : SMap α) (k : Nat) (d : α) : α := (sget? m k).getD d

/-- Set the entry of a key. -/
def sset (m : SMap α) (k : Nat) (v : α) : SMap α :=
  match m with
  | [] => [(k, v)]
  | (k', v') :: rest =>
    if k < k' then (k, v) :: (k', v') :: rest
    else if k = k' then (k, v) :: rest
    else (k', v') :: sset rest k v

/-- Remove the entry of a key. -/
def serase (m : SMap α) (k : Nat) : SMap α :=
  match m with
  | [] => []
  | (k', v') :: rest => if k = k' then rest else (k', v') :: serase rest k

/-- Set an entry, dropping it where it equals the map's default (so that equal maps are equal data). -/
def ssetD [DecidableEq α] (d : α) (m : SMap α) (k : Nat) (v : α) : SMap α :=
  if v = d then serase m k else sset m k v

/-- Keys strictly rising from above `lo`. -/
def srising (lo : Nat) : SMap α → Bool
  | [] => true
  | (k, _) :: rest => decide (lo ≤ k) && srising (k + 1) rest

/-- A rising list of the numbers below n at which p holds. -/
def indicesWhere (n : Nat) (p : Nat → Bool) : List Nat := (List.range n).filter p

/-- An element of a vector, or a default beyond its end. -/
def vget (v : Vector α n) (i : Nat) (d : α) : α := v.toList.getD i d

/-- A vector with one element replaced; unchanged for an index beyond its end. -/
def vset (v : Vector α n) (i : Nat) (x : α) : Vector α n := v.setIfInBounds i x

/-- A vector with one element changed by a function. -/
def vmodify (v : Vector α n) (i : Nat) (f : α → α) : Vector α n :=
  if h : i < n then v.set i (f v[i]) else v

end Sys2Proof.Machine
end

