-- ==== Sys2Proof/Machine/Float.lean ====
section
/-!
DEFINITION. The numbers of spec/01: the formats of Table 1-1, exact values, rounding to nearest with ties to even
(R24, R39), conversion by R39 to R41, and the binary32 operations of R34, R110 and R172.
-/
namespace Sys2Proof.Machine

/-- A number as the arithmetic meets it: a NaN, an infinity, or the finite value (-1)^neg * m * 2^e. -/
inductive Fv where
  | nan
  | inf (neg : Bool)
  | fin (neg : Bool) (m : Nat) (e : Int)
  deriving DecidableEq, Repr

/-- An exact value m * 2^e. -/
structure Dy where
  m : Int
  e : Int
  deriving DecidableEq, Repr

/-- 2 to a power that may be negative: none below 0. -/
def pow2 (e : Int) : Nat := 2 ^ e.toNat

/-- The mantissa of `x` at a smaller exponent `e`. -/
def Dy.at (x : Dy) (e : Int) : Int := x.m * pow2 (x.e - e)

/-- The exact sum. -/
def Dy.add (x y : Dy) : Dy := let e := min x.e y.e; ⟨x.at e + y.at e, e⟩

/-- The exact product. -/
def Dy.mul (x y : Dy) : Dy := ⟨x.m * y.m, x.e + y.e⟩

/-- Ordering of exact values. -/
def Dy.lt (x y : Dy) : Bool := let e := min x.e y.e; decide (x.at e < y.at e)

/-- Is the value 0? -/
def Dy.isZero (x : Dy) : Bool := decide (x.m = 0)

/-- The magnitude. -/
def Dy.abs (x : Dy) : Dy := ⟨x.m.natAbs, x.e⟩

/-- m / 2^s to the nearest integer, ties to even (R24). -/
def rneShift (m : Int) (s : Nat) : Int :=
  let d : Int := (2 ^ s : Nat)
  let q := m / d
  let r := m - q * d
  if 2 * r < d then q else if d < 2 * r then q + 1 else if q % 2 = 0 then q else q + 1

/-- n / d to the nearest integer, ties to even (d positive). -/
def rneDiv (n : Int) (d : Nat) : Int :=
  let q := n / (d : Int)
  let r := n - q * d
  if 2 * r < d then q else if (d : Int) < 2 * r then q + 1 else if q % 2 = 0 then q else q + 1

/-- x / 2^q to the nearest integer, ties to even (R24, R45). -/
def Dy.align (x : Dy) (q : Int) : Int :=
  if q ≤ x.e then x.m * pow2 (x.e - q) else rneShift x.m (q - x.e).toNat

/-- The exact value of a finite number (0 for a NaN or an infinity, which no caller asks of). -/
def Fv.dy : Fv → Dy
  | .fin neg m e => ⟨if neg then -(m : Int) else m, e⟩
  | _ => ⟨0, 0⟩

/-- Is the number finite? -/
def Fv.isFin : Fv → Bool
  | .fin _ _ _ => true
  | _ => false

/-- Is the number a NaN? -/
def Fv.isNan : Fv → Bool
  | .nan => true
  | _ => false

/-- The sign of a number (of a NaN: plus). -/
def Fv.sign : Fv → Bool
  | .nan => false
  | .inf n => n
  | .fin n _ _ => n

/-- A finite number of an exact value; zero takes the sign given. -/
def Fv.ofDy (x : Dy) (zeroNeg : Bool) : Fv :=
  if x.m = 0 then .fin zeroNeg 0 x.e else .fin (decide (x.m < 0)) x.m.natAbs x.e

/-- The smallest e with |x| ≤ 2^e, of a nonzero value; -512 of zero (01, exponent ceilings). -/
def Dy.ceiling (x : Dy) : Int :=
  if x.m = 0 then -512 else (ceilLog2 x.m.natAbs : Int) + x.e

/-- The exponent ceiling of a set of numbers: non-finite values take no part, none nonzero gives -512. -/
def ceilingOf (vs : List Fv) : Int :=
  vs.foldl (fun c v => if v.isFin then max c v.dy.ceiling else c) (-512)

/-- A binary floating-point format of Table 1-1: mantissa bits, the exponent of the smallest subnormal, the code of the
largest finite magnitude, of infinity where there is one, and of the NaN that conversion writes (Table 1-5); the width. -/
structure FFmt where
  mb   : Nat
  emin : Int
  maxC : Nat
  inf  : Option Nat
  nan  : Nat
  w    : Nat
  deriving DecidableEq, Repr

/-- The floating-point formats by code (Table 1-1); codes 0x0, 0x8 and 0xC are integer formats. -/
def ffmt (code : Nat) : FFmt :=
  match code with
  | 0x1 | 0x3 => ⟨3, -9, 0x7E, none, 0x7F, 8⟩
  | 0x2 | 0x4 => ⟨2, -16, 0x7B, some 0x7C, 0x7F, 8⟩
  | 0x5 => ⟨3, -3, 0x1F, none, 0, 6⟩
  | 0x6 => ⟨2, -4, 0x1F, none, 0, 6⟩
  | 0x7 => ⟨1, -1, 0x7, none, 0, 4⟩
  | 0x9 => ⟨7, -133, 0x7F7F, some 0x7F80, 0x7FC0, 16⟩
  | 0xA => ⟨10, -24, 0x7BFF, some 0x7C00, 0x7E00, 16⟩
  | _ => ⟨23, -149, 0x7F7FFFFF, some 0x7F800000, 0x7FC00000, 32⟩

/-- Bits of one element by format code (Table 1-1). -/
def fmtBits (code : Nat) : Nat :=
  match code with
  | 0x5 | 0x6 => 6
  | 0x7 => 4
  | 0x9 | 0xA => 16
  | 0xB | 0xC => 32
  | 0xD => 64
  | _ => 8

/-- Is the code an MX format (0x3 to 0x8)? -/
def isMx (code : Nat) : Bool := decide (3 ≤ code ∧ code ≤ 8)

/-- Is the code an FP8 format with a tensor scale (0x1, 0x2)? -/
def isFp8 (code : Nat) : Bool := decide (code = 1 ∨ code = 2)

/-- A number from the magnitude and sign of a floating-point format. -/
def FFmt.decode (f : FFmt) (x : Nat) : Fv :=
  let neg := bitOf x (f.w - 1)
  let mag := x % 2 ^ (f.w - 1)
  if f.maxC < mag then (match f.inf with | some i => if mag = i then .inf neg else .nan | none => .nan)
  else if mag < 2 ^ f.mb then .fin neg mag f.emin
  else .fin neg (mag % 2 ^ f.mb + 2 ^ f.mb) (f.emin + ((mag / 2 ^ f.mb : Nat) : Int) - 1)

/-- The element value of a stored code (R11, R12, R14), without block or tensor scale. -/
def decodeFmt (code x : Nat) : Fv :=
  match code with
  | 0x0 => let i := toSigned 8 x; .fin (decide (i < 0)) i.natAbs 0
  | 0x8 => let i := toSigned 8 x; .fin (decide (i < 0)) i.natAbs (-6)
  | 0xC => let i := toSigned 32 x; .fin (decide (i < 0)) i.natAbs 0
  | _ => (ffmt code).decode x

/-- The code of a positive magnitude m * 2^e rounded once to nearest even with the exponent range unbounded above and
subnormal below (R39): it may lie beyond the format's largest finite code. `sticky` says that a part below m was dropped. -/
def FFmt.round (f : FFmt) (m : Nat) (e : Int) : Nat :=
  if m = 0 then 0 else
    let lsb := max ((Nat.log2 m : Int) + e - f.mb) f.emin
    let r := (Dy.mk m e).align lsb
    ((lsb - f.emin).toNat * 2 ^ f.mb) + r.toNat

/-- The sign bit of a format. -/
def FFmt.signBit (f : FFmt) (neg : Bool) : Nat := if neg then 2 ^ (f.w - 1) else 0

/-- What a conversion gives: the code, and whether it counts as saturated, infinite or a NaN written as integer 0. -/
structure Conv where
  code  : Nat
  sat   : Bool := false
  inf   : Bool := false
  nanInt : Bool := false
  deriving DecidableEq, Repr

/-- Conversion to a floating-point format by R39 to R41; `infPolicy` is INFINITY. -/
def FFmt.conv (f : FFmt) (infPolicy : Bool) : Fv → Conv
  | .nan => { code := f.nan }
  | .inf neg =>
    match infPolicy, f.inf with
    | true, some i => { code := f.signBit neg + i, inf := true }
    | _, _ => { code := f.signBit neg + f.maxC, sat := true }
  | .fin neg m e =>
    let c := f.round m e
    if c ≤ f.maxC then { code := f.signBit neg + c }
    else match infPolicy, f.inf with
      | true, some i => { code := f.signBit neg + i, inf := true }
      | _, _ => { code := f.signBit neg + f.maxC, sat := true }

/-- Conversion to a two's-complement integer between `lo` and `hi` of `w` bits, of x * 2^s rounded once (R39 to R41). -/
def convInt (w : Nat) (lo hi : Int) (s : Int) : Fv → Conv
  | .nan => { code := 0, nanInt := true }
  | .inf neg => { code := ofSigned w (if neg then lo else hi), sat := true }
  | .fin neg m e =>
    let i := (Fv.fin neg m (e + s)).dy.align 0
    if i < lo then { code := ofSigned w lo, sat := true }
    else if hi < i then { code := ofSigned w hi, sat := true }
    else { code := ofSigned w i }

/-- Conversion of a number to an output code under an overflow policy (R39 to R41; MXINT8 is symmetric, R44). -/
def convFmt (code : Nat) (infPolicy : Bool) (v : Fv) : Conv :=
  match code with
  | 0x0 => convInt 8 (-128) 127 0 v
  | 0x8 => convInt 8 (-127) 127 6 v
  | 0xC => convInt 32 (-2147483648) 2147483647 0 v
  | _ => (ffmt code).conv infPolicy v

/-! ## binary32 -/

/-- The format of binary32. -/
def fmt32 : FFmt := ffmt 0xB

/-- A number of a binary32 pattern. -/
def f32 (x : Word) : Fv := fmt32.decode x.toNat

/-- The binary32 pattern of a number rounded to nearest even; overflow gives an infinity; the canonical NaN (R37). -/
def toF32 (v : Fv) : Word := BitVec.ofNat 32 (fmt32.conv true v).code

/-- The sum (IEEE 754 addition, exact, before rounding). -/
def fvAdd (x y : Fv) : Fv :=
  match x, y with
  | .nan, _ | _, .nan => .nan
  | .inf a, .inf b => if a = b then .inf a else .nan
  | .inf a, _ => .inf a
  | _, .inf b => .inf b
  | .fin a _ _, .fin b _ _ => .ofDy (x.dy.add y.dy) (a && b)

/-- The product (IEEE 754 multiplication, exact, before rounding). -/
def fvMul (x y : Fv) : Fv :=
  match x, y with
  | .nan, _ | _, .nan => .nan
  | .inf a, .inf b => .inf (a != b)
  | .inf a, .fin b m _ => if m = 0 then .nan else .inf (a != b)
  | .fin a m _, .inf b => if m = 0 then .nan else .inf (a != b)
  | .fin a m e, .fin b n f => .fin (a != b) (m * n) (e + f)

/-- The negated number. -/
def fvNeg : Fv → Fv
  | .nan => .nan
  | .inf n => .inf (!n)
  | .fin n m e => .fin (!n) m e

/-- n / d as a mantissa of at least 30 bits with a sticky last bit, and its exponent. -/
def stickyDiv (n d : Nat) : Nat × Int :=
  let s := Nat.log2 d + 32
  let q := n * 2 ^ s / d
  let r := n * 2 ^ s % d
  (2 * q + (if r = 0 then 0 else 1), -(s : Int) - 1)

/-- The quotient (before rounding; its mantissa carries a sticky bit far below a binary32 result). -/
def fvDiv (x y : Fv) : Fv :=
  match x, y with
  | .nan, _ | _, .nan => .nan
  | .inf _, .inf _ => .nan
  | .inf a, .fin b _ _ => .inf (a != b)
  | .fin a _ _, .inf b => .fin (a != b) 0 0
  | .fin a m e, .fin b n f =>
    if n = 0 then (if m = 0 then .nan else .inf (a != b))
    else let (q, s) := stickyDiv m n; .fin (a != b) q (e - f + s)

/-- Integer square root by binary search over `k` bits. -/
def isqrtBits (n : Nat) : (k : Nat) → Nat
  | 0 => 0
  | k + 1 =>
    let r := 2 * isqrtBits (n / 4) k
    if (r + 1) * (r + 1) ≤ n then r + 1 else r

/-- The floor of the square root. -/
def isqrt (n : Nat) : Nat := isqrtBits n (Nat.log2 n / 2 + 1)

/-- The square root (before rounding, with a sticky bit). -/
def fvSqrt : Fv → Fv
  | .nan => .nan
  | .inf neg => if neg then .nan else .inf false
  | .fin neg m e =>
    if m = 0 then .fin neg 0 0
    else if neg then .nan
    else
      let s : Nat := 64 + (e % 2).toNat
      let n := m * 2 ^ s
      let r := isqrt n
      .fin false (2 * r + (if r * r = n then 0 else 1)) ((e - s) / 2 - 1)

/-- Binary32 addition, rounded once. -/
def fAdd (a b : Word) : Word := toF32 (fvAdd (f32 a) (f32 b))
/-- Binary32 subtraction, rounded once. -/
def fSub (a b : Word) : Word := toF32 (fvAdd (f32 a) (fvNeg (f32 b)))
/-- Binary32 multiplication, rounded once. -/
def fMul (a b : Word) : Word := toF32 (fvMul (f32 a) (f32 b))
/-- Binary32 fused multiply-add, rounded once. -/
def fFma (a b c : Word) : Word := toF32 (fvAdd (fvMul (f32 a) (f32 b)) (f32 c))
/-- Binary32 division, rounded once. -/
def fDiv (a b : Word) : Word := toF32 (fvDiv (f32 a) (f32 b))
/-- Binary32 square root, rounded once. -/
def fSqrt (a : Word) : Word := toF32 (fvSqrt (f32 a))

/-- Is a binary32 pattern infinite? -/
def isInf32 (x : Word) : Bool := x &&& 0x7FFFFFFF#32 = 0x7F800000#32

/-- Is a binary32 pattern finite? -/
def isFin32 (x : Word) : Bool := (f32 x).isFin

/-- Is a binary32 pattern a NaN? -/
def isNan32 (a : Word) : Bool := (f32 a).isNan

/-- a < b, an ordered comparison: false where either is a NaN (R112, R174). -/
def fvLt (x y : Fv) : Bool :=
  match x, y with
  | .nan, _ | _, .nan => false
  | .inf a, .inf b => a && !b
  | .inf a, _ => a
  | _, .inf b => !b
  | .fin _ _ _, .fin _ _ _ => x.dy.lt y.dy

/-- a = b, an ordered comparison: the zeros are equal, a NaN equals nothing. -/
def fvEq (x y : Fv) : Bool :=
  match x, y with
  | .nan, _ | _, .nan => false
  | .inf a, .inf b => a == b
  | .inf _, _ | _, .inf _ => false
  | .fin _ _ _, .fin _ _ _ => !x.dy.lt y.dy && !y.dy.lt x.dy

/-- A total order of numbers that puts −0 below +0 (R114, Table 5-2): no NaN is asked about. -/
def fvTotLt (x y : Fv) : Bool := fvLt x y || (fvEq x y && x.sign && !y.sign)

/-- A rational n / d rounded once to binary32, beyond the range an infinity (R116). -/
def ratToF32 (n : Int) (d : Nat) (e : Int) : Fv :=
  if d = 0 then .nan
  else if n = 0 then .fin false 0 0
  else let (q, s) := stickyDiv n.natAbs d
       f32 (toF32 (.fin (decide (n < 0)) q (e + s)))

end Sys2Proof.Machine
end

