-- ==== Sys2Proof/Config.lean ====
section
/-!
DEFINITION. What an implementation fixes and what the spec leaves open: opaque constants, which no proof can evaluate
(log 1, 7, 8).
-/
namespace Sys2Proof.Config

/-- The functions that the spec gives with a stated error (spec/03 Tables 3-3, 3-4; spec/05 Table 5-3). -/
inductive Fn where
  | exp | exp2 | log | log2 | rsqrt | erf | sigmoid | tanh | softplus | elu | gelu | silu
  /-- The derivative results d of GELUD and SILUD. -/
  | dgelu | dsilu
  /-- e^(−y) of the softplus gate (Table 3-4). -/
  | expNeg
  deriving DecidableEq, Repr

/-- The word that picks the binary32 result of a function for a finite nonspecial binary32 input among those within the stated
error: the same on every PL-9600 (R111, R177), open beyond that (log 8). -/
opaque fn : Fn → Word → Word

/-- DIE_REV of SYS_ID (R8). -/
opaque dieRev : BitVec 8
/-- PKG_REV of SYS_ID (R8). -/
opaque pkgRev : BitVec 8

/-- The n-th draw of the device's random generator (log 7). -/
opaque draw : Nat → BitVec 512

/-- Whether an offset that ends in half a nanosecond reads as the larger whole number (R382, R392; log 22). -/
opaque halfUp : Int → Bool

/-- The public identity key, x then y (R564; log 7). -/
opaque identityKey : BitVec 512

/-- Entry c of the factory table of Table 16-1, measured for this die (R600; log 23). -/
opaque factory : Nat → Word

/-- STR_LOAD_DETAIL where a token count disagrees and every token is declared, so that Table 6-8 names none (log 25). -/
opaque openDetail : Nat → Word

/-- GOV_DRIFT.RATIO of a window in which ΣE_p is 0, for a ΣE_m (R598 states no ratio there; log 31). -/
opaque driftOpen : Nat → BitVec 16

/-- Byte `i` of a signature, a ciphertext, a tag, a shared secret or a digest of an image that the device holds or makes (log 7):
`what` names it, `ins` the bytes that it depends on. -/
opaque madeByte : (what : String) → (ins : List (BitVec 8)) → (i : Nat) → BitVec 8

/-- The bytes of such a value, of the length that the spec gives it. -/
def made (what : String) (ins : List (BitVec 8)) (len : Nat) : List (BitVec 8) := (List.range len).map (madeByte what ins)

/-- The length of a frame payload whose layout the spec does not give (log 54). -/
opaque payloadLen : String → Nat

/-- The reason byte of a NOTIFY (R405; log 54). -/
opaque reason : String → BitVec 8

/-- The identity certificate and the vendor device-CA certificate (R564; log 7). -/
opaque certificates : List (BitVec 8)

/-- The 10 SEC-DED check bits over the 256 ciphertext bits of an access (R296; log 10). -/
opaque secded : BitVec 256 → BitVec 10

/-- The byte offset of a pseudo-channel at which its check region begins (R292; log 30). -/
opaque checkBase : Nat

/-- The binary32 word of a largest magnitude m·2^e that binary32 cannot hold (R119, R124; log 46). -/
opaque absOpen : (m : Nat) → (e : Int) → Word

end Sys2Proof.Config
end

