-- ==== Sys2Proof/Machine/Crc.lean ====
section
/-!
DEFINITION. CRC-32C (spec/08 R298), SHA-256 (FIPS 180-4), HMAC-SHA-256 and the SP 800-108 counter derivation over it
that spec/15 names.
-/
namespace Sys2Proof.Machine

/-- One bit of the reflected CRC-32C, polynomial 0x1EDC_6F41 (reflected 0x82F6_3B78). -/
def crcBit (c : BitVec 32) : BitVec 32 :=
  if c &&& 1#32 = 1#32 then (c >>> 1) ^^^ 0x82F63B78#32 else c >>> 1

/-- One byte of the CRC. -/
def crcByte (c : BitVec 32) (b : Byte) : BitVec 32 :=
  crcBit (crcBit (crcBit (crcBit (crcBit (crcBit (crcBit (crcBit (c ^^^ b.setWidth 32))))))))

/-- CRC-32C with the parameters of R298. -/
def crc32c (bs : Bytes) : Word := (bs.foldl crcByte 0xFFFFFFFF#32) ^^^ 0xFFFFFFFF#32

/-- The bitwise difference of two byte strings. -/
def xorBytes (a b : Bytes) : Bytes := List.zipWith (· ^^^ ·) a b

/-! ## SHA-256 (FIPS 180-4) -/

/-- The largest r below 2^k times the present one whose p-th power is at most n, found bit by bit from the top. -/
def rootBits (p n : Nat) : (k r : Nat) → Nat
  | 0, r => r
  | k + 1, r => rootBits p n k (if (r + 2 ^ k) ^ p ≤ n then r + 2 ^ k else r)

/-- The first 32 bits of the fraction of the p-th root of a small prime. -/
def rootFraction (p q : Nat) : Word := BitVec.ofNat 32 (rootBits p (q * 2 ^ (32 * p)) 37 0)

/-- The first 64 primes. -/
def shaPrimes : List Nat := (List.range 312).filter fun q => decide (2 ≤ q) && (List.range q).all fun d => decide (d < 2) || q % d != 0

/-- The constant of each round: from the cube root of its prime. -/
def shaK : List Word := shaPrimes.map (rootFraction 3)

/-- The eight working words. -/
structure Sha where
  a : Word
  b : Word
  c : Word
  d : Word
  e : Word
  f : Word
  g : Word
  h : Word
  deriving DecidableEq, Repr

/-- The initial words: from the square roots of the first eight primes. -/
def shaInit : Sha :=
  let r := rootFraction 2
  ⟨r 2, r 3, r 5, r 7, r 11, r 13, r 17, r 19⟩

/-- A big-endian number of a byte string. -/
def beNat (bs : Bytes) : Nat := bs.foldl (fun a b => a * 256 + b.toNat) 0

/-- `len` bytes, big-endian. -/
def natBE (len x : Nat) : Bytes := (natLE len x).reverse

/-- The padded message: 0x80, zeros, the bit length in 8 bytes, to a multiple of 64 bytes. -/
def shaPad (m : Bytes) : Bytes :=
  m ++ [0x80] ++ zeros ((119 - m.length % 64) % 64) ++ natBE 8 (8 * m.length)

/-- Three rotations of a word, added bitwise. -/
def rot3 (x : Word) (i j k : Nat) : Word := x.rotateRight i ^^^ x.rotateRight j ^^^ x.rotateRight k

/-- The next word of the schedule from the sixteen before it, oldest first. -/
def shaNext (win : List Word) : Word :=
  let p := win.getD 1 0
  let q := win.getD 14 0
  win.headD 0 + win.getD 9 0 + (p.rotateRight 7 ^^^ p.rotateRight 18 ^^^ p >>> 3) +
    (q.rotateRight 17 ^^^ q.rotateRight 19 ^^^ q >>> 10)

/-- A round takes the oldest word of the window, and the window moves on by one word. -/
def shaRound (x : Sha × List Word) (k : Word) : Sha × List Word :=
  let (v, win) := x
  let choice := ((v.f ^^^ v.g) &&& v.e) ^^^ v.g
  let major := (v.a &&& v.b) ||| ((v.a ||| v.b) &&& v.c)
  let t := win.headD 0 + k + v.h + choice + rot3 v.e 6 11 25
  (⟨t + major + rot3 v.a 2 13 22, v.a, v.b, v.c, v.d + t, v.e, v.f, v.g⟩, win.drop 1 ++ [shaNext win])

/-- Word i of a block. -/
def shaWord (blk : Bytes) (i : Nat) : Word := BitVec.ofNat 32 (beNat ((blk.drop (4 * i)).take 4))

/-- The compression of one 64-byte block. -/
def shaBlock (v : Sha) (blk : Bytes) : Sha :=
  let r := (shaK.foldl shaRound (v, (List.range 16).map (shaWord blk))).1
  ⟨v.a + r.a, v.b + r.b, v.c + r.c, v.d + r.d, v.e + r.e, v.f + r.f, v.g + r.g, v.h + r.h⟩

/-- The compression of `n` blocks. -/
def shaBlocks : (n : Nat) → Sha → Bytes → Sha
  | 0, v, _ => v
  | n + 1, v, m => shaBlocks n (shaBlock v (m.take 64)) (m.drop 64)

/-- SHA-256 of a byte string, 32 bytes. -/
def sha256 (m : Bytes) : Bytes :=
  let p := shaPad m
  let v := shaBlocks (p.length / 64) shaInit p
  [v.a, v.b, v.c, v.d, v.e, v.f, v.g, v.h].flatMap fun w => natBE 4 w.toNat

/-- SHA-256 as a number whose byte 0 is the digest's first byte (R2's order of a byte string). -/
def sha256v (m : Bytes) : BitVec 256 := BitVec.ofNat 256 (leNat (sha256 m))

/-- HMAC-SHA-256. -/
def hmac (key m : Bytes) : Bytes :=
  let k := if key.length ≤ 64 then key ++ zeros (64 - key.length) else sha256 key ++ zeros 32
  let ipad := k.map (· ^^^ 0x36#8)
  let opad := k.map (· ^^^ 0x5c#8)
  sha256 (opad ++ sha256 (ipad ++ m))

/-- The bytes of a label. -/
def ascii (s : String) : Bytes := s.toList.map fun c => BitVec.ofNat 8 c.toNat

end Sys2Proof.Machine
end

