-- ==== Sys2Proof/Machine/Cipher.lean ====
section
/-!
DEFINITION. AES-256, AES-256-XTS over 32-byte data units and AES-256-GCM: the ciphers that spec/08 R295, spec/09 R336, spec/11
R396, spec/13 R488 and spec/15 R557, R571, R576 name.
-/
namespace Sys2Proof.Machine

/-! ## AES-256 -/

/-- A byte of the AES field times x. -/
def timesX (b : Byte) : Byte := if b.msb then b <<< 1 ^^^ 0x1B#8 else b <<< 1

/-- A product in the AES field: the multiples of `a` that the low `n` bits of `b` select. -/
def fieldMul : (n : Nat) → Byte → Byte → Byte
  | 0, _, _ => 0
  | n + 1, a, b => (if b.getLsbD 0 then a else 0) ^^^ fieldMul n (timesX a) (b >>> 1)

/-- A byte of the AES field to the power 2^(n+1) − 2; with n = 7 that is its inverse, zero for zero. -/
def fieldPow : (n : Nat) → Byte → Byte
  | 0, _ => 1
  | n + 1, b => let q := fieldMul 8 b b; fieldMul 8 q (fieldPow n q)

/-- The byte substitution: the inverse, then the affine map. -/
def subByte (b : Byte) : Byte :=
  let v := fieldPow 7 b
  [1, 2, 3, 4].foldl (fun a k => a ^^^ v.rotateLeft k) (v ^^^ 0x63#8)

/-- The next four bytes of the key schedule, number i, from the eight groups before them, oldest first. -/
def keyNext (win : List Bytes) (i : Nat) : Bytes :=
  let t := win.getLastD []
  let u := if i % 8 = 0 then xorBytes ((t.drop 1 ++ t.take 1).map subByte) ((i / 8 - 1).repeat timesX 1 :: zeros 3)
    else if i % 8 = 4 then t.map subByte else t
  xorBytes (win.headD []) u

/-- `n` groups of the key schedule from number i on. -/
def keyGroups : (n i : Nat) → List Bytes → List Bytes
  | 0, _, _ => []
  | n + 1, i, win => win.headD [] :: keyGroups n (i + 1) (win.drop 1 ++ [keyNext win i])

/-- A byte string in pieces of k bytes, n of them. -/
def pieces (k : Nat) : (n : Nat) → Bytes → List Bytes
  | 0, _ => []
  | n + 1, b => b.take k :: pieces k n (b.drop k)

/-- The fifteen round keys of a 32-byte key. -/
def roundKeys (key : Bytes) : List Bytes := pieces 16 15 (keyGroups 60 8 (pieces 4 8 key)).flatten

/-- Substitution of a block's bytes and rotation of its rows; the bytes stand column after column. -/
def subShift (b : Bytes) : Bytes := (List.range 16).map fun i => subByte (b.getD (5 * i % 16) 0)

/-- One column mixed. -/
def mixColumn (c : Bytes) : Bytes :=
  (List.range 4).map fun r =>
    let at_ := fun k => c.getD ((r + k) % 4) 0
    timesX (at_ 0 ^^^ at_ 1) ^^^ at_ 1 ^^^ at_ 2 ^^^ at_ 3

/-- The rounds of a block; the last mixes no column. -/
def aesRounds : List Bytes → Bytes → Bytes
  | [], b => b
  | [k], b => xorBytes (subShift b) k
  | k :: ks, b => aesRounds ks (xorBytes ((pieces 4 4 (subShift b)).flatMap mixColumn) k)

/-- AES-256 of a 16-byte block under its round keys. -/
def aesBlock (ks : List Bytes) (b : Bytes) : Bytes := aesRounds (ks.drop 1) (xorBytes b (ks.headD []))

/-! ## XTS (R295) -/

/-- The tweak of the next block of a data unit. -/
def nextTweak (t : Bytes) : Bytes :=
  let v := leNat t
  natLE 16 (2 * v % 2 ^ 128 ^^^ (if 2 ^ 127 ≤ v then 0x87 else 0))

/-- The blocks of a data unit, each under its tweak. -/
def xtsBlocks (ks : List Bytes) : (n : Nat) → (t : Bytes) → Bytes → Bytes
  | 0, _, _ => []
  | n + 1, t, b => xorBytes (aesBlock ks (xorBytes (b.take 16) t)) t ++ xtsBlocks ks n (nextTweak t) (b.drop 16)

/-- AES-256-XTS of a 32-byte data unit: the first half of the 64-byte key encrypts the data, the second the unit's number. -/
def xtsUnit (key : Bytes) (unit : Nat) (b : Bytes) : Bytes :=
  xtsBlocks (roundKeys (key.take 32)) 2 (aesBlock (roundKeys (key.drop 32)) (natLE 16 unit)) b

/-! ## GCM -/

/-- A product in GCM's field, whose bit 0 is the most significant: the multiples of `v` that the bits of `x` select from bit n
down. -/
def ghashMul (x : BitVec 128) : (n : Nat) → (v : BitVec 128) → BitVec 128
  | 0, _ => 0
  | n + 1, v => (if x.getLsbD n then v else 0) ^^^
      ghashMul x n (if v.getLsbD 0 then v >>> 1 ^^^ 0xE1#128 <<< 120 else v >>> 1)

/-- A block taken into the hash under the subkey h. -/
def ghashStep (h y : BitVec 128) (b : Bytes) : BitVec 128 := ghashMul (y ^^^ BitVec.ofNat 128 (beNat b)) 128 h

/-- A byte string filled with zeros to whole blocks. -/
def fill16 (b : Bytes) : Bytes := b ++ zeros ((16 - b.length % 16) % 16)

/-- The tag over additional data and ciphertext. -/
def gcmTag (ks : List Bytes) (nonce aad ct : Bytes) : Bytes :=
  let m := fill16 aad ++ fill16 ct ++ natBE 8 (8 * aad.length) ++ natBE 8 (8 * ct.length)
  let h := BitVec.ofNat 128 (beNat (aesBlock ks (zeros 16)))
  xorBytes (natBE 16 ((pieces 16 (m.length / 16) m).foldl (ghashStep h) 0).toNat) (aesBlock ks (nonce ++ natBE 4 1))

/-- `n` bytes of key stream. -/
def gcmStream (ks : List Bytes) (nonce : Bytes) (n : Nat) : Bytes :=
  let b := (List.range ((n + 15) / 16)).flatMap fun i => aesBlock ks (nonce ++ natBE 4 (i + 2))
  b.take n ++ zeros (n - b.length)

/-- Encryption and decryption: the text under the key stream. -/
def gcmText (ks : List Bytes) (nonce b : Bytes) : Bytes := xorBytes b (gcmStream ks nonce b.length)

/-- The ciphertext, with its 16-byte tag after it, under a 32-byte key and a 12-byte nonce. -/
def gcmSeal (key nonce aad b : Bytes) : Bytes :=
  let ks := roundKeys key
  let ct := gcmText ks nonce b
  ct ++ gcmTag ks nonce aad ct

/-- What ciphertext and tag open to, if the tag verifies. -/
def gcmOpen (key nonce aad c : Bytes) : Option Bytes :=
  let ks := roundKeys key
  let ct := c.take (c.length - 16)
  if c.drop (c.length - 16) = gcmTag ks nonce aad ct then some (gcmText ks nonce ct) else none

end Sys2Proof.Machine
end

