-- ==== Sys2Proof/Machine/StateCore.lean ====
section
/-!
DEFINITION. The state of the compute die's working units: SYS, the Kennel, the Frame, the Edge, the Rods, the strands, the
Board and HBM (spec/00, 02 to 08, 12). Plain data.
-/
namespace Sys2Proof.Machine

/-- A byte-addressed memory: cells at strictly rising addresses, none zero; an unlisted byte reads 0 (log 6). -/
abbrev Mem := List (Nat × BitVec 8)

/-! ## SYS (00) -/

/-- The device states of Table 0-3 (R10). -/
inductive DevState where
  | off | boot | holding | armed | running | draining | faulted | withdrawn
  deriving DecidableEq, Repr

/-- SYS_STATE (R9): the state, its flags and the change counter. -/
structure Sys where
  seq      : BitVec 16 := 0
  st       : DevState := .boot
  replace  : Bool := false
  drill    : Bool := false
  degraded : Bool := false
  deriving DecidableEq, Repr

/-- Whether the compute die is unpowered, released, or released with its firmware serving (R7, R612). -/
inductive Die where
  | off | released | serving
  deriving DecidableEq, Repr

/-! ## Kennel (12) -/

/-- The effects of Table 12-3. `device counted` ends in a device reset; `counted` says whether it is fault-started. -/
inductive Effect where
  | count | event | absorbed | absorbedNoRecord | refused | refusedTally | jobEnding
  | device (counted : Bool)
  deriving DecidableEq, Repr

/-- A code on its way to the Kennel (R430). -/
structure Raised where
  code   : Word
  eff    : Effect
  detail : Bytes
  drill  : Bool
  deriving DecidableEq, Repr

/-- The Kennel (R433, R435, R442, R447, R449, R450, R455, R459, R464 to R474). -/
structure Knl where
  inflight   : List Raised := []
  event      : Word := 0
  cause      : Word := 0
  lastCode   : Word := 0
  preReset   : Word := 0
  hangCfg    : BitVec 14 := 100
  rcDone     : Word := 0
  rcMismatch : Word := 0
  absorbed   : Word := 0
  detSet     : Bool := false
  detMarker  : BitVec 64 := 0
  clean      : BitVec 64 := 0
  detOpnum   : Word := 0
  detVerdict : BitVec 4 := 0
  detTile    : BitVec 28 := 0
  detCol     : BitVec 11 := 0x7FF
  detRow     : BitVec 11 := 0x7FF
  -- R433: the recount selector
  t          : BitVec 64 := 0
  win        : BitVec 64 := 0
  winStart   : BitVec 64 := 0
  n          : Word := 512
  pick       : Word := 0
  d          : BitVec 2 := 0
  band       : BitVec 2 := 0
  temp       : BitVec 8 := 0
  classify   : Bool := false
  waitCond   : Bool := false
  waitUs     : Nat := 0
  resetPending : Bool := false
  -- whether the device reset that is being prepared is counted (R450, R459)
  resetCounted : Bool := false
  stripKept  : Vector (BitVec 64) 16 := Vector.replicate 16 0
  -- R449: consecutive missed heartbeats, and islands that stalled and wait for their reset
  missed     : List (Island × Nat) := []
  stalled    : List Island := []
  -- MRAM: escalation (R459, R470), the sample (R456, R472)
  resets     : List (BitVec 64) := []
  withdrawn  : Bool := false
  limit      : BitVec 4 := 3
  windowH    : BitVec 8 := 24
  prcSample  : Bool := false
  prcLine    : BitVec 15 := 0
  -- R471: an optional lead is lost, a Tether link is lost or not up, since device start-up
  repLead    : Bool := false
  repTether  : Bool := false
  -- no width class or no live pseudo-channel: WITHDRAWN at the end of teardown (R81)
  withdrawAtEnd : Bool := false
  -- the island that stalled and whose job-context reset is under way (R449)
  stallReset : Option Island := none
  deriving DecidableEq, Repr

/-! ## Frame (02) -/

/-- A carry slot (R67, R96) and what it hands to the Edge (03, the drain). -/
structure Slot where
  st        : BitVec 2 := 0
  tag       : BitVec 8 := 0
  q         : BitVec 10 := 0
  seqf      : Bool := false
  nonfinite : Bool := false
  stepped   : Bool := false
  /-- The carry cells, rows of columns; a cell not listed holds 0. -/
  cells     : List (List (BitVec 48)) := []
  ti        : Nat := 0
  tj        : Nat := 0
  m         : Nat := 0
  n         : Nat := 0
  afmt      : Nat := 0
  bfmt      : Nat := 0
  sa        : Word := 0x3F800000
  sb        : Word := 0x3F800000
  deriving DecidableEq, Repr

/-- A tile of the row group in execution (R27 to R30, R72, R433). -/
structure TileRun where
  idx      : Nat
  ti       : Nat
  tj       : Nat
  slot     : Nat
  q        : Int
  qg       : Int
  stopped  : Bool := false
  nonfinite : Bool := false
  seqOvf   : Bool := false
  sel      : Bool := false
  deriving DecidableEq, Repr

/-- A tile selected for recount, with the digest of its original pass (R436). -/
structure SelTile where
  idx : Nat
  ti  : Nat
  tj  : Nat
  q   : Int
  nonfinite : Bool := false
  seqOvf : Bool := false
  d0  : List Word := []
  d1  : List Word := []
  deriving DecidableEq, Repr

/-- What a begun pass leaves to be written when its last carry lands (R62, R67): the tiles that are then finished. -/
structure Landing where
  slots : List Nat
  deriving DecidableEq, Repr

/-- A Frame operation issued and not complete (R55 to R78). -/
structure FrameOp where
  num    : Word
  index  : Nat
  word   : BitVec 128
  desc   : Bytes
  width  : Nat
  /-- The next pass to begin, counted over the operation (R55). -/
  pass   : Nat := 0
  /-- The seated weight chunk of the next pass (R56): the segment's rows and scale lines. -/
  seat   : Option Bytes := none
  /-- The active weight chunk of the pass that streams now, and the tiles of that pass that have streamed (R55, R56, R63). -/
  active : Option Bytes := none
  pos    : Nat := 0
  /-- The row group that has begun, and the group's number (R69). -/
  group  : Option (List TileRun) := none
  landing : List Landing := []
  sel    : List SelTile := []
  /-- The recount that did not match and waits for its classification replays (R437). -/
  mismatch : Option SelTile := none
  /-- Rows times c of the last pass begun, its row group, and whether it was a replay (R66). -/
  last   : Option (Nat × Nat) := none
  cyc    : Nat := 0
  stepbacks : Nat := 0
  replayCyc : Nat := 0
  recountCyc : Nat := 0
  feedWait : Nat := 0
  seatWait : Nat := 0
  carryWait : Nat := 0
  throttle : Nat := 0
  anyNonfinite : Bool := false
  anySeqOvf : Bool := false
  /-- The operation has stopped on a fault (R18, R27) and never completes. -/
  dead   : Bool := false
  deriving DecidableEq, Repr

/-- A spare substitution decided and not yet in effect (R82). -/
structure Subst where
  /-- 0 a band's row, 1 a strip's column. -/
  kind   : Nat
  unit   : Nat
  offset : Nat
  step   : Nat
  deriving DecidableEq, Repr

/-- The last completed operation's registers (R93 to R95). -/
structure FrmLast where
  cycles : BitVec 64 := 0
  util   : BitVec 14 := 0
  strips : BitVec 5 := 0
  stepbacks : Word := 0
  feedWait : Word := 0
  seatWait : Word := 0
  carryWait : Word := 0
  throttle : Word := 0
  deriving DecidableEq, Repr

/-- The Frame (R52, R67, R80 to R83, R88 to R97). -/
structure Frm where
  -- the bead map, MRAM (R79, R97); 0x7F is none; `subst` entries are not yet in effect (R82)
  rowFail   : Vector (BitVec 7) 16 := Vector.replicate 16 0x7F
  colFail   : Vector (BitVec 7) 16 := Vector.replicate 16 0x7F
  retired   : Option (Fin 16) := none
  noWidth   : Bool := false
  subst     : List Subst := []
  -- the mapping in effect
  rowMap    : Vector (BitVec 7) 16 := Vector.replicate 16 0x7F
  colMap    : Vector (BitVec 7) 16 := Vector.replicate 16 0x7F
  rotated   : Bool := false
  replay    : Bool := false
  hold      : Bool := false
  event     : Word := 0
  issued    : Word := 0
  opnum     : Word := 0xFFFFFFFF
  stepbacks : Word := 0
  last      : FrmLast := {}
  slots     : Vector Slot 16 := Vector.replicate 16 {}
  ops       : List FrameOp := []
  deriving DecidableEq, Repr

/-! ## Edge (03) -/

/-- The phase of an Edge instruction. -/
inductive EdgePhase where
  | slotWait | rows | tail
  deriving DecidableEq, Repr

/-- An Edge instruction issued and not complete (R106, R129). -/
structure EdgeOp where
  num    : Word
  index  : Nat
  word   : BitVec 128
  desc   : Bytes
  sweep  : Bool
  phase  : EdgePhase
  /-- Stopped by a job-ending severity (R122): it never completes. -/
  dead   : Bool := false
  /-- The segment the instruction produces at completion (R226, R304): bytes of its rows and of its ceiling block. -/
  prod   : Option (Nat × Nat) := none
  deriving DecidableEq, Repr

/-- The Edge (R132 to R135). -/
structure Edg where
  ops       : List EdgeOp := []
  issued    : Word := 0
  instnum   : Word := 0xFFFFFFFF
  throttle  : Bool := false
  outWait   : Bool := false
  event     : Word := 0
  jobSat    : Word := 0
  jobNonfinite : Word := 0
  jobRange  : Word := 0
  deriving DecidableEq, Repr

/-! ## Rods (05) and the ratio watch (04) -/

/-- A norm-store entry (R195) with the ratio watch's change bit, non-finite mark and update mark (R155, R156). -/
structure NormEntry where
  s1      : BitVec 672 := 0
  s2      : BitVec 672 := 0
  terms   : BitVec 64 := 0
  nf      : BitVec 64 := 0
  changed : Bool := false
  updated : Bool := false
  deriving DecidableEq, Repr

/-- The Rods (R167, R195, R203 to R207). -/
structure Rod where
  mem     : Vector Mem 16 := Vector.replicate 16 []
  instnum : Vector Word 16 := Vector.replicate 16 0xFFFFFFFF
  throttle : BitVec 16 := 0
  event   : Word := 0
  jobNonfinite : Word := 0
  norm    : SMap NormEntry := []
  deriving DecidableEq, Repr

/-! ## Strands (06, 07) -/

/-- Where a strand stands with its next instruction (R210, R211, R268). -/
inductive Phase where
  | fetch | waiting | begun
  deriving DecidableEq, Repr

/-- A strand: STR_STRAND and STR_WAIT (R258, R259; the holds 3, 4 and 5 of STATE are `hold` and the grains that wait), its current word, and its issued instructions that have not
completed, oldest first. -/
structure Strand where
  index    : BitVec 20 := 0
  st       : BitVec 4 := 0
  /-- What an instruction in execution, or the next to issue, is held on: 3 a ring, 4 a carry slot, 0 neither (R258). -/
  hold     : BitVec 4 := 0
  phase    : Phase := .fetch
  word     : BitVec 128 := 0
  inflight : List (Nat × BitVec 128) := []
  /-- Its oldest instruction in flight has stopped on a fault and never completes (R87, R296, R301). -/
  dead     : Bool := false
  /-- The descriptor that a Fetch instruction in flight read at issue (R277). -/
  desc     : Bytes := []
  deriving DecidableEq, Repr

/-- What a producer placed in a ring segment (R304): of a feed segment ROWS, ROW_BYTES, AUX_BYTES; of an output segment the
bytes of its rows and of its ceiling block. -/
structure SegLayout where
  rows : Nat
  rowBytes : Nat
  aux  : Nat
  deriving DecidableEq, Repr

/-- A ring (R226, R304, R307): producer and consumer counts, the WRITEOUT cursor, the layouts of the produced segments,
oldest first. -/
structure Ring where
  p      : Nat := 0
  c      : Nat := 0
  cursor : Nat := 0
  segs   : List SegLayout := []
  deriving DecidableEq, Repr

/-- Where a teardown stands (Table 6-9). -/
inductive TdStage where
  | none | draining | scrubbed
  deriving DecidableEq, Repr

/-- The strands, tokens and rings (R208, R225, R226, R233 to R260) and the loaded program. -/
structure Str where
  image    : Option Bytes := none
  job      : BitVec 64 := 0
  strands  : Vector Strand 43 := Vector.replicate 43 {}
  tok      : SMap (BitVec 16) := []
  markerTok : SMap (BitVec 16) := []
  rings    : Vector Ring 64 := Vector.replicate 64 {}
  gen      : BitVec 8 := 0
  marker   : BitVec 64 := 0
  loadResult : Word := 0
  loadDetail : Word := 0
  disable  : Word := 0
  disabled : Word := 0
  scrub    : Bool := false
  teardown : TdStage := .none
  deriving DecidableEq, Repr

/-- The load in progress (R239, R406): the bytes that have arrived, by offset. -/
structure Load where
  active : Bool := false
  ended  : Bool := false
  job    : BitVec 64 := 0
  bytes  : BitVec 64 := 0
  data   : SMap Byte := []
  /-- A stray LOAD_DATA has been recorded since the last load result (R406). -/
  stray  : Bool := false
  deriving DecidableEq, Repr

/-! ## Memory (08) -/

/-- The HBM subsystem and its registers (R290, R291, R310 to R319). -/
structure MemS where
  hbm      : Mem := []
  /-- The check values of the blocks of the job address space (R298); an unlisted block has that of a block of zeros. -/
  check    : SMap Word := []
  live     : Vector (BitVec 32) 8 := Vector.replicate 8 0xFFFFFFFF
  qualified : BitVec 8 := 0
  extRate  : Bool := false
  extActive : Bool := false
  retraining : List (Fin 8 × Fin 32) := []
  event    : Word := 0
  cntCorr  : Word := 0
  cntOdecc : Word := 0
  cntCheck : Word := 0
  cntRetrain : Word := 0
  /-- Occurrences of 0x0606_0001 by pseudo-channel since device start-up (R314). -/
  pcCorr   : SMap Nat := []
  /-- When the last accesses of each pseudo-channel were corrected, until it is retrained (R310). -/
  pcTimes  : SMap (List (BitVec 64)) := []
  /-- Shepherd times of retrains and of uncorrectable errors by pseudo-channel (R311). -/
  pcRetrains : SMap (List (BitVec 64)) := []
  pcUncorr : SMap (List (BitVec 64)) := []
  deriving DecidableEq, Repr

/-- The Board and its registers (R285, R320 to R322). -/
structure Brd where
  mem     : Mem := []
  /-- The check store (R298); an unlisted block has the value of a block of zeros. -/
  check   : SMap Word := []
  event   : Word := 0
  cntCorr : Word := 0
  scrub   : Bool := false
  tposeReq : BitVec 16 := 0
  deriving DecidableEq, Repr

end Sys2Proof.Machine
end

