-- ==== Sys2Proof/Machine/StateUnits.lean ====
section
/-!
DEFINITION. The state of the leads, the collectives, time, the Tether, the snapshot engine, the governor, secrecy, the
Shepherd and the Tally (spec/09 to 11, 13 to 18). Plain data.
-/
namespace Sys2Proof.Machine

/-! ## Leads (09) -/

/-- The six kinds of round-up frame (R409). -/
inductive RuKind where
  | arm | armack | ready | commit | commitack | cancel
  deriving DecidableEq, Repr

/-- What a LINK frame carries (Table 9-5, R338, R339): an acknowledgement of every frame up to a SEQ, a NAK of a SEQ, or `n`
buffers of a class that are free again. -/
inductive LinkMsg where
  | ack (seq : BitVec 64)
  | nak (seq : BitVec 64)
  | credit (cls n : Nat)
  deriving DecidableEq, Repr

/-- What a frame on a lead carries (Tables 9-4, 9-5; R336, R338, R409, R485, R487). -/
inductive TxBody where
  | link (m : LinkMsg)
  /-- A DATA frame; `page` marks the last frame of that page of the generation being mirrored (R486). -/
  | data (f : LeadFrame) (page : Option Nat)
  /-- A COLL frame; an element takes `size` bytes. -/
  | coll (plan seq : BitVec 16) (size : Nat) (m : CollMsg)
  | abort (origin : BitVec 24) (cls hops : BitVec 8)
  | ruFrame (k : RuKind) (f : LaunchFrame)
  | ruReport (k : RuKind) (m : RuReport)
  | keyConfirm
  | mirrorBegin (marker jobId bytes : BitVec 64) (position : BitVec 32)
  | mirrorRefused
  | relayDone (digests : List (Nat × BitVec 256))
  | discovery (r : PeerReport)
  /-- A re-lane frame: the lanes that the lead goes on with (Table 9-6). -/
  | relane (lanes : BitVec 32)
  | timeAdvert (source : BitVec 24) (hops : BitVec 8)
  | timeRequest
  /-- The reply to a neighbour's request, with t2, t3, and whether the sender's counter is initialised (R382, R384). -/
  | timeReply (t2 t3 : BitVec 48) (init : Bool)
  deriving DecidableEq, Repr

/-- One configured lead in service. -/
structure Lead where
  up       : Bool := false
  keyed    : Bool := false
  /-- The lead key of the present arm (Table 15-8), while it exists. -/
  key      : Option (BitVec 256) := none
  delay    : BitVec 16 := 0
  /-- The lanes in use (R341). -/
  lanes    : BitVec 32 := 0
  relaning : Bool := false
  /-- SEQ of the next frame sent, and of the next frame that may be accepted. -/
  tx       : BitVec 64 := 0
  rx       : BitVec 64 := 0
  /-- Frames sent and not acknowledged, oldest first, with their SEQ and class (R338). -/
  sent     : List (BitVec 64 × Nat × TxBody) := []
  /-- Frames of the numbering before the lead's key that are not acknowledged, oldest first (R412; log 50). -/
  old      : List (BitVec 64 × Nat × TxBody) := []
  /-- Frames that wait for a credit, with their class (R339). -/
  waiting  : List (Nat × TxBody) := []
  credit   : Vector Nat 4 := Vector.replicate 4 0
  /-- VC2 is served before VC1 next (R339). -/
  turn     : Bool := false
  /-- VC0 buffers that LINK frames have freed and whose credits have not been returned (log 19). -/
  owed     : Nat := 0
  /-- The dropped frame that the receiver waits for, and how often it has failed (R338). -/
  nak      : Option (BitVec 64 × Nat) := none
  /-- The frame from which the sender is sending again (R338). -/
  resend   : Option (BitVec 64) := none
  deriving DecidableEq, Repr

/-- The leads (R326 to R349, R362 to R367). -/
structure LeadS where
  event    : Word := 0
  -- MRAM: the lead plan (R326, R362, R365)
  selfId   : BitVec 24 := 0xFFFFFF
  plan     : Vector Word 8 := Vector.replicate 8 0
  expect   : Vector (BitVec 24) 8 := Vector.replicate 8 0xFFFFFF
  -- what the last start-up read
  activeId : BitVec 24 := 0xFFFFFF
  planUse  : Vector Word 8 := Vector.replicate 8 0
  expectUse : Vector (BitVec 24) 8 := Vector.replicate 8 0xFFFFFF
  swap     : BitVec 8 := 0
  reqFail  : BitVec 8 := 0
  result   : BitVec 3 := 0
  found    : Vector (BitVec 4) 8 := Vector.replicate 8 0
  /-- The discovery exchanges completed (R329). -/
  peer     : Vector (Option PeerReport) 8 := Vector.replicate 8 none
  discovering : Bool := false
  discovered  : Bool := false
  lead     : Vector Lead 8 := Vector.replicate 8 {}
  cntRetry : Vector Word 8 := Vector.replicate 8 0
  cntRelane : Word := 0
  /-- An ABORT of this job has been received, and one has been sent (R358). -/
  abortSeen : Bool := false
  abortSent : Bool := false
  /-- DATA frames delivered to this device and not consumed by the snapshot engine (R348 step 1). -/
  delivered : List LeadFrame := []
  deriving DecidableEq, Repr

/-! ## Collective engines (09) -/

/-- A collective in execution on an engine (R351 to R356). -/
structure CollOp where
  index : Nat
  plan  : Nat
  seq   : BitVec 16
  kind  : Nat
  rop   : Nat
  ecode : Nat
  count : Nat
  root  : Nat
  dst   : Nat
  /-- The elements of SRC, each as its bits. -/
  src   : List (BitVec 64)
  /-- Leads whose header has not come (R352). -/
  headers : List Nat
  /-- The pass over the plan: 0 quanta, 1 elements; and the leads whose contribution to the upward pass is missing. -/
  pass  : Nat
  missing : List Nat
  quanta : List (BitVec 10) := []
  acc   : List (BitVec 64) := []
  parts : List (Nat × List (BitVec 64)) := []
  /-- The downward result is awaited. -/
  awaitDown : Bool := false
  done  : Bool := false
  dead  : Bool := false
  deriving DecidableEq, Repr

/-- COLL frames that have arrived and not been used: their lead, plan, plan sequence and content, and how many there are (R339). -/
structure CollIn where
  lead : Nat
  plan : Nat
  seq  : BitVec 16
  msg  : CollMsg
  frames : Nat
  deriving DecidableEq, Repr

/-- The collective engines (R351, R352, R370 to R374). -/
structure Col where
  event     : Word := 0
  timeoutUs : BitVec 20 := 10000
  lastHops  : BitVec 8 := 0
  lastOrigin : BitVec 24 := 0xFFFFFF
  instnum   : Vector Word 8 := Vector.replicate 8 0xFFFFFFFF
  eng       : Vector (Option CollOp) 8 := Vector.replicate 8 none
  /-- The engine bound to each plan (R351). -/
  bound     : SMap Nat := []
  /-- COLLs issued on each plan (R352). -/
  planSeq   : SMap Nat := []
  inbox     : List CollIn := []
  deriving DecidableEq, Repr

/-! ## Time (10) -/

/-- The time counter and its disciplines (R375 to R394). -/
structure Tim where
  event    : Word := 0
  counter  : BitVec 48 := 0
  frac     : BitVec 32 := 0
  capture  : BitVec 48 := 0
  valid    : Bool := false
  mode     : BitVec 3 := 0
  marks    : BitVec 16 := 0
  /-- Consecutive good marker edges (R379). -/
  goodEdges : Nat := 0
  refLock  : Bool := false
  markLock : Bool := false
  rackBits : BitVec 4 := 6
  forceLead : Bool := false
  /-- The correction c in units of 0.01 ppm (R380, R392). -/
  slew     : Int := 0
  err      : Int := 0
  source   : BitVec 24 := 0xFFFFFF
  hops     : BitVec 8 := 0
  isSource : Bool := false
  parent   : Option Nat := none
  epochLo  : Word := 0
  epochPending : Option (BitVec 16 × BitVec 48) := none
  offsetRun : Nat := 0
  deriving DecidableEq, Repr

/-! ## Tether and round-up (11) -/

/-- Why a NOTIFY is sent (R405, R413, R418, Table 13-4). -/
inductive Reason where
  | stateChange | loadResult | jobEnd | ready | cancelled | restoreResult
  deriving DecidableEq, Repr

/-- What a Tether frame toward the node carries (Tables 11-2, 13-4); a checkpoint's frames carry the job's context generation
(R244). -/
inductive TBody where
  | response (type status : BitVec 8) (reqId : BitVec 32) (payload : Bytes)
  | notify (r : Reason) (code : Word) (snapshot : Bytes)
  | page (ctx : BitVec 8) (marker : BitVec 64) (position shard page offset : BitVec 32) (piece : Bytes)
  | shardEnd (ctx : BitVec 8) (marker : BitVec 64) (position shard pages : BitVec 32) (digest : BitVec 256)
  | manifest (ctx : BitVec 8) (offset : BitVec 32) (last : Bool) (piece : Bytes)
  deriving DecidableEq, Repr

/-- A handshake between HELLO and FINISH (R557). -/
structure Handshake where
  serial : Word
  opKey  : BitVec 512
  peer   : BitVec 512
  draw   : Nat
  hash   : BitVec 256
  deriving DecidableEq, Repr

/-- One session of a link, toward the compute die or toward the Shepherd (R557, R558). -/
structure Sess where
  isOpen : Bool := false
  serial : Word := 0
  key    : BitVec 256 := 0
  hs     : Option Handshake := none
  seq    : BitVec 64 := 0
  /-- Frames sent in this session and not acknowledged, oldest first (R396). -/
  sent   : List (BitVec 64 × TBody) := []
  /-- The frame from which the device is sending again (R396). -/
  resend : Option (BitVec 64) := none
  /-- Bulk frames that wait for their turn (R400). -/
  bulk   : List TBody := []
  /-- Frames accepted in this session, and the frame that the device last dropped and NAKed, until the next is accepted (R396). -/
  rx     : BitVec 64 := 0
  nakSent : Option (BitVec 64) := none
  /-- How often each received frame has failed, and each sent frame has been NAKed (R397). -/
  fails  : SMap Nat := []
  naks   : SMap Nat := []
  deriving DecidableEq, Repr

/-- A Tether link (R395 to R397). -/
structure TLink where
  up    : Bool := false
  lost  : Bool := false
  die   : Sess := {}
  shp   : Sess := {}
  retry : Word := 0
  deriving DecidableEq, Repr

/-- PHASE of TET_RU (Table 11-8). -/
inductive RuPhase where
  | idle | armed | ready | committed
  deriving DecidableEq, Repr

/-- The Tether and the round-up (R395 to R427). -/
structure Tet where
  event    : Word := 0
  link     : Vector TLink 2 := Vector.replicate 2 {}
  /-- The newest notification of each reason, in the order made, while none can be sent (R405). -/
  held     : List (Reason × Word × Bytes) := []
  -- R403: SNAP_SEQ
  period   : BitVec 16 := 0
  serial   : BitVec 48 := 0
  -- R408: the Shepherd's copies, MRAM
  shpMarker : BitVec 64 := 0
  shpJob   : BitVec 64 := 0
  -- the round-up (R409 to R425)
  phase    : RuPhase := .idle
  root     : Bool := false
  plan     : BitVec 16 := 0xFFFF
  depth    : BitVec 8 := 0
  children : BitVec 8 := 0
  /-- Children that have sent RU_READY for this arm (R413). -/
  childReady : BitVec 8 := 0
  readySent : Bool := false
  armedOnce : Bool := false
  armId    : Word := 0
  deadline : BitVec 48 := 0
  launch   : BitVec 48 := 0
  timeoutUs : BitVec 14 := 200
  deriving DecidableEq, Repr

/-! ## Snapshots, partners and restart (13) -/

/-- A shard: its job address (none for the capture page) and its pages (R488). -/
structure Shard where
  addr  : Option Nat
  pages : Nat
  deriving DecidableEq, Repr

/-- PHASE of a generation (Table 13-8). -/
inductive GenPhase where
  | copying | awaitRelay | manifestSent
  deriving DecidableEq, Repr

/-- The generation in progress (R475 to R491). Pages are numbered over all shards in order, 0 being the capture page. -/
structure Gen where
  marker  : BitVec 64
  position : BitVec 32
  target  : Nat
  /-- The target in use (Table 13-2): 1 where the partner cannot serve (R485). -/
  route   : Nat
  shards  : List Shard
  phase   : GenPhase := .copying
  /-- The context generation that its transactions carry (R244). -/
  ctx     : BitVec 8 := 0
  /-- R483: the end of copying has been reached. -/
  ended   : Bool := false
  capture : Bytes
  /-- Pages copied into the engine or pushed (R481). -/
  copied  : List Nat := []
  /-- Pages pushed to the reserve and not yet sent, with what they held. -/
  saved   : SMap Bytes := []
  /-- What the pages held that went to the partner, while it can still refuse (log 27). -/
  kept    : SMap Bytes := []
  /-- Pages sent, and those of them that the partner lead has acknowledged. -/
  sent    : List Nat := []
  acked   : List Nat := []
  /-- What storage received, by page, of shards not yet ended. -/
  stored  : SMap Bytes := []
  digests : SMap (BitVec 256) := []
  /-- Shards whose SHARD_END storage has answered. -/
  answered : List Nat := []
  manifest : Bytes := []
  deriving DecidableEq, Repr

/-- A mirror that this device holds for its partner, and its relay (R485 to R487). -/
structure Mirror where
  lead     : Nat
  marker   : BitVec 64
  jobId    : BitVec 64
  bytes    : BitVec 64
  position : BitVec 32
  /-- The context generation that its relay carries (R244). -/
  ctx      : BitVec 8 := 0
  /-- Bytes that have arrived. -/
  got      : Nat := 0
  data     : Mem := []
  /-- Pages relayed. -/
  taken    : Nat := 0
  /-- The relayed shards, with their digests, and those that storage has answered. -/
  relayed  : List (Nat × BitVec 256) := []
  answered : List Nat := []
  deriving DecidableEq, Repr

/-- A restore in progress (R496 to R498). -/
structure Restore where
  manifest : Bytes := []
  accepted : Bool := false
  /-- Pieces of pages by (shard, page): stored bytes by offset. -/
  pieces   : SMap (SMap Byte) := []
  /-- Pages that are whole and whose tag verified, by page number, with their stored bytes. -/
  whole    : SMap Bytes := []
  tagFail  : Bool := false
  outside  : Option (Nat × Nat) := none
  capture  : Bytes := []
  deriving DecidableEq, Repr

/-- The snapshot engine, restore and the drills (R475 to R512). -/
structure Snp where
  event    : Word := 0
  gen      : Option Gen := none
  /-- Earlier generations past the end of copying that are not durable, oldest first. -/
  older    : List Gen := []
  /-- Step 5 of R234 stands before the SNAP that follows the snapshot strand's STEP (R476). -/
  step5    : Bool := false
  genMarker : BitVec 64 := 0
  durable  : BitVec 64 := 0
  peak     : Word := 0
  cntStall : Word := 0
  cntHold  : Word := 0
  hold     : Bool := false
  stall    : Bool := false
  partnerValid : Bool := false
  partnerLead : BitVec 3 := 0
  timeoutS : BitVec 12 := 60
  mirror   : Option Mirror := none
  restore  : Option Restore := none
  restored : Bool := false
  /-- The capture page of the restored generation, for the launch that follows (R499). -/
  restoredPage : Bytes := []
  /-- The SNAP that follows the restored marker's STEP completes without copying (R499). -/
  skipSnap : Bool := false
  /-- Markers taken by a SNAP of this job (R284). -/
  lastTaken : Option (BitVec 64) := none
  -- drills, MRAM (R501, R511, R512)
  drillEnable : BitVec 8 := 0
  drillPeriod : BitVec 8 := 24
  drillTime  : BitVec 64 := 0
  drillKind  : BitVec 3 := 0
  drillValid : Bool := false
  cntDrill : Word := 0
  cntSkip  : Word := 0
  drillActive : Option Nat := none
  /-- The kind that was last injected or skipped, MRAM (R502, R503). -/
  drillLast : Option Nat := none
  deriving DecidableEq, Repr

/-! ## Power governor (16) -/

/-- The governor (R586 to R610). Energies are in units of 2^-8 nJ. -/
structure Gov where
  event    : Word := 0
  pool     : Int := 0
  short    : Bool := false
  cntShort : Word := 0
  clamp    : Bool := false
  budget   : BitVec 11 := 1200
  derate   : Word := 0x46555F64
  /-- Grains that wait, and the strands whose waiting grain has aged to rank 0. -/
  waiting  : List Grain := []
  aged     : List Nat := []
  /-- Credits granted in the present microsecond, and granted plus static in the present feedback period. -/
  grantedUs : Nat := 0
  staticUs  : Nat := 0
  periodE  : Nat := 0
  sumM     : Nat := 0
  sumP     : Nat := 0
  driftCount : BitVec 16 := 0
  driftRatio : BitVec 16 := 0
  /-- When the last Tally record of a drift window and of a clamp was made (R598, R599). -/
  driftRec : Option (BitVec 64) := none
  clampRec : Option (BitVec 64) := none
  meas     : Vector Word 20 := Vector.replicate 20 0
  measValid : Bool := false
  measBand : BitVec 2 := 0
  measuring : Bool := false
  -- MRAM
  ucal     : Vector Word 20 := Vector.replicate 20 0
  ucalEnable : Bool := false
  deriving DecidableEq, Repr

/-! ## Secrecy (15) -/

/-- A job ephemeral key that is kept (R568). -/
structure JobEph where
  jobId : BitVec 64
  nonce : BitVec 128
  draw  : Nat
  deriving DecidableEq, Repr

/-- An installed job key (R568, R584). -/
structure JobKey where
  jobId  : BitVec 64
  master : BitVec 256
  nonce  : BitVec 128
  epochW : Word
  epochR : Word
  deriving DecidableEq, Repr

/-- A firmware slot: the image staged in it, if FW_DATA has written it since manufacture, and the SVN of the image if its
vendor signature verifies (R566, R567). -/
structure FwSlot where
  image : Option (SMap Byte) := none
  svn   : Option Word := none
  deriving DecidableEq, Repr

/-- Secrecy (R554 to R585). -/
structure Sec where
  event    : Word := 0
  -- MRAM
  owner    : Option (BitVec 512) := none
  lock     : BitVec 4 := 0
  samplePermit : Bool := false
  telemCoarse : Bool := false
  quiet    : Bool := false
  opcertMin : Word := 0
  svn      : Vector Word 3 := Vector.replicate 3 0
  /-- Slots A and B of the Shepherd firmware, then of the Kerrin firmware; which of each is selected, and which runs. -/
  fw       : Vector FwSlot 4 := Vector.replicate 4 {}
  fwSel    : Vector Bool 2 := Vector.replicate 2 false
  fwRun    : Vector Bool 2 := Vector.replicate 2 false
  /-- The SVN of the factory calibration tables, if their vendor signature verifies. -/
  calSvn   : Option Word := none
  /-- The SVN of the images found valid at the last boot: Shepherd, Kerrin, calibration. -/
  bootSvn  : Vector Word 3 := Vector.replicate 3 0
  challenge : BitVec 128 := 0
  debug    : Bool := false
  debugPending : Bool := false
  eph      : Option JobEph := none
  job      : Option JobKey := none
  peers    : List (BitVec 24 × Bytes) := []
  /-- The draw that the idle memory key comes from; the job's memory key is in use while a job key is installed (R573). -/
  idleKey  : Nat := 0
  deriving DecidableEq, Repr

/-! ## Shepherd (14, 17, 18) -/

/-- STATE of SHP_LEASH (Table 14-10). -/
inductive Leash where
  | ineligible | standby | watch | claiming | active
  deriving DecidableEq, Repr

/-- The Shepherd (R513 to R533, R545 to R550, R611 to R634). -/
structure Shp where
  event    : Word := 0
  standby  : Bool := false
  /-- The firmware serves; the ROM serves in its place (R566); a restart is under way (R515). -/
  serving  : Bool := false
  rom      : Bool := false
  restarting : Bool := false
  /-- The factory calibration has verified, and no release since the package start-up found both Kerrin slots refused. -/
  calOk    : Bool := false
  kerrinOk : Bool := false
  -- Shepherd time, MRAM (R514)
  time     : BitVec 64 := 0
  saved    : BitVec 64 := 0
  timeCap  : BitVec 64 := 0
  -- straps (R516)
  pos      : BitVec 2 := 0
  leashEn  : Bool := false
  -- the leash (R517 to R525)
  leash    : Leash := .ineligible
  leashO   : Bool := false
  drivers  : Bool := false
  peerOk   : Nat := 0
  lastReclaim : Option (BitVec 64) := none
  roleRequested : Bool := false
  epoch    : Word := 0
  epochSeen : Word := 0
  stale    : Bool := false
  /-- Actuator and EPOCH broadcasts sent on the tray bus (R519). -/
  broadcast : Option (Word × BitVec 2) := none
  busParity : Word := 0
  -- power (R530, R531, R549)
  on       : BitVec 50 := 0
  requested : BitVec 50 := 0
  ramping  : BitVec 50 := 0
  telem    : Vector (BitVec 24) 16 := Vector.replicate 16 0
  sample   : BitVec 8 := 0
  /-- Sums and count of the 100 ms window of TELEM_COARSE (R578), for indices 0 to 3. -/
  coarse   : List Int := [0, 0, 0, 0]
  coarseN  : Nat := 0
  -- the technician's view, MRAM (R529, R550)
  tech     : List Word := []
  tool     : List Word := []
  replace  : Bool := false
  /-- Last value of SYS_STATE (R545). -/
  mirror   : Word := 0
  vid      : BitVec 7 := 40
  thermalHold : Option (Fin 9) := none
  pwrFail  : Bool := false
  railFault : Bool := false
  railsLate : Bool := false
  -- the scratchpad sample, MRAM (R456, R457, R549)
  held     : Option Bytes := none
  deriving DecidableEq, Repr

/-- A start-up's stages that are complete (R616). -/
structure Boot where
  beadTest : Bool := false
  trained  : Bool := false
  overwrite : Bool := false
  noPc     : Bool := false
  deriving DecidableEq, Repr

/-! ## Tally (14) -/

/-- A Tally record (Table 14-5); its CRC is derived. -/
structure TRec where
  seq    : BitVec 64
  time   : BitVec 48
  flags  : BitVec 16
  unit   : BitVec 8
  code   : Word
  detail : Bytes
  temp   : BitVec 8
  deriving DecidableEq, Repr

/-- What a read of TALLY_HEAD_LO and of TALLY_NEXT_LO captures (R541, R552), and a view's cursor. -/
structure TView where
  cursor : BitVec 19 := 0
  head   : BitVec 64 := 0
  first  : BitVec 64 := 0
  count  : BitVec 19 := 0
  next   : BitVec 64 := 0
  deriving DecidableEq, Repr

/-- The Tally (R534 to R543, R551 to R553). -/
structure Tly where
  buffer   : List TRec := []
  store    : List TRec := []
  next     : BitVec 64 := 1
  full     : Bool := false
  overflow : Word := 0
  dropped  : Word := 0
  droppedSince : Word := 0
  flushing : Bool := false
  /-- Sequence number that the last flush left to the Shepherd (R535). -/
  passed   : BitVec 64 := 1
  die      : TView := {}
  side     : TView := {}
  deriving DecidableEq, Repr

end Sys2Proof.Machine
end

