-- ==== Sys2Proof/Machine/State.lean ====
section
/-!
DEFINITION. The state of the PL-9600, its reset value, and the ways a command can stop.
-/
namespace Sys2Proof.Machine

/-- The whole machine, and the queue of the commands that wait, first in, first out. -/
structure State where
  sys : Sys := {}
  die : Die := .off
  knl : Knl := {}
  frm : Frm := {}
  edg : Edg := {}
  rod : Rod := {}
  str : Str := {}
  ld  : Load := {}
  mem : MemS := {}
  brd : Brd := {}
  lead : LeadS := {}
  col : Col := {}
  tim : Tim := {}
  tet : Tet := {}
  snp : Snp := {}
  gov : Gov := {}
  sec : Sec := {}
  shp : Shp := {}
  tly : Tly := {}
  boot : Boot := {}
  /-- MODEL's own: how many free values have been drawn (log 7). No statement rests on its value at reset. -/
  free : Nat := 0
  pending : List Instr := []
  deriving DecidableEq, Repr

/-- Why the machine can stop with a fault: no command of the PL-9600 does (every error is a code, R428). -/
inductive Fault where
  /-- Raised by no meaning; safe. -/
  | none
  deriving DecidableEq, Repr

/-- Why a command can be refused. -/
inductive Refusal where
  /-- The command has no meaning yet (exec's arms); safe. -/
  | notModelled (mnemonic : String)
  deriving DecidableEq, Repr

/-- The package as it is manufactured, unpowered (R7, Table 0-8; log 1, 2, 6). -/
def State.reset : State := {}

end Sys2Proof.Machine
end

