-- ==== Sys2Proof/Machine/Ops.lean ====
section
/-!
DEFINITION. The named operations over memory, the program image, the strands and their tokens (spec/06 to 08).
-/
namespace Sys2Proof.Machine

/-! ## Memory -/

/-- One byte of a memory; a byte not listed reads 0 (log 6). -/
def mget (m : Mem) (a : Nat) : Byte := sgetD m a 0

/-- One byte written, keeping the canonical form. -/
def mset (m : Mem) (a : Nat) (b : Byte) : Mem := ssetD 0 m a b

/-- `n` bytes from an address, in address order. -/
def mread (m : Mem) (a : Nat) : (n : Nat) → Bytes
  | 0 => []
  | k + 1 => mget m a :: mread m (a + 1) k

/-- A byte string written at an address. -/
def mwrite (m : Mem) (a : Nat) : Bytes → Mem
  | [] => m
  | b :: bs => mwrite (mset m a b) (a + 1) bs

/-- A little-endian number of `n` bytes. -/
def mnat (m : Mem) (a n : Nat) : Nat := leNat (mread m a n)

/-- A little-endian number written in `n` bytes. -/
def mputNat (m : Mem) (a n x : Nat) : Mem := mwrite m a (natLE n x)

/-- The canonical form of a memory: addresses strictly rising, no byte listed that reads as an unlisted one. -/
def Mem.wf (m : Mem) : Bool := srising 0 m && m.all fun c => c.2 != 0

/-- The size of the Board, its replay area (R286) and of a cluster's local memory (R167). -/
def boardBytes : Nat := 0x10000000
/-- The start of the Frame replay area (R74, R286). -/
def replayBase : Nat := 0x0F200000
/-- The bytes of one cluster's local memory (R167). -/
def localBytes : Nat := 0x200000

/-! ## Block check values (R298, R299) -/

/-- The bytes of a block. -/
def blockBytes : Nat := 2048

/-- The check value of a block of zeros. -/
def zeroCheck : Word := crc32c (zeros blockBytes)

/-- The check value that stands for block k of a memory. -/
def checkAt (c : SMap Word) (k : Nat) : Word := sgetD c k zeroCheck

/-- Does block k verify against its check value (R300)? -/
def blockVerifies (m : Mem) (c : SMap Word) (k : Nat) : Bool := checkAt c k == crc32c (mread m (blockBytes * k) blockBytes)

/-- Does every block that `n` bytes at an address touch verify? -/
def rangeVerifies (m : Mem) (c : SMap Word) (a n : Nat) : Bool :=
  decide (n = 0) || (List.range ((a + n - 1) / blockBytes - a / blockBytes + 1)).all fun i => blockVerifies m c (a / blockBytes + i)

/-- R299: the check value of a block of which the bytes from offset `o` change from `old` to `new`: from the data alone when
they are the whole block, else old value ⊕ CRC-32C(Δ) ⊕ CRC-32C(0). -/
def newCheck (value : Word) (o : Nat) (old new : Bytes) : Word :=
  if new.length = blockBytes then crc32c new
  else
    let delta := zeros o ++ xorBytes old new ++ zeros (blockBytes - o - new.length)
    value ^^^ crc32c delta ^^^ zeroCheck

/-- The check values after `b` has been written at address `a` of the memory `m`, over `n` blocks from block `k` (R299). -/
def checkWrite (m : Mem) (a : Nat) (b : Bytes) : (n k : Nat) → SMap Word → SMap Word
  | 0, _, c => c
  | n + 1, k, c =>
    let lo := max a (blockBytes * k)
    let new := (b.drop (lo - a)).take (blockBytes * (k + 1) - lo)
    let v := newCheck (checkAt c k) (lo - blockBytes * k) (mread m lo new.length) new
    checkWrite m a b n (k + 1) (ssetD zeroCheck c k v)

/-- The check values of every block that a write touches. -/
def checksAfter (m : Mem) (c : SMap Word) (a : Nat) (b : Bytes) : SMap Word :=
  if b.isEmpty then c else checkWrite m a b ((a + b.length - 1) / blockBytes - a / blockBytes + 1) (a / blockBytes) c

/-- Cluster c's local memory. -/
def lmem (s : State) (c : Nat) : Mem := vget s.rod.mem c []

/-- Cluster c's local memory replaced. -/
def setLmem (s : State) (c : Nat) (m : Mem) : State := { s with rod := { s.rod with mem := vset s.rod.mem c m } }

/-- A byte string written to the Board, with the check values of its blocks (R299). -/
def boardWrite (s : State) (a : Nat) (b : Bytes) : State :=
  { s with brd := { s.brd with mem := mwrite s.brd.mem a b, check := checksAfter s.brd.mem s.brd.check a b } }

/-- A byte string written to the job address space, with the check values of its blocks (R299). -/
def jobWrite (s : State) (a : Nat) (b : Bytes) : State :=
  { s with mem := { s.mem with hbm := mwrite s.mem.hbm a b, check := checksAfter s.mem.hbm s.mem.check a b } }

/-- The whole of HBM is overwritten with zeros (R245, R573). -/
def clearHbm (s : State) : State := { s with mem := { s.mem with hbm := [], check := [] } }

/-! ## The program image (R212 to R217) -/

/-- The loaded image, empty when no program is loaded. -/
def img (s : State) : Bytes := s.str.image.getD []

/-- Is a program loaded? -/
def loaded (s : State) : Bool := s.str.image.isSome

/-- Section i's offset (0 manifest, 1 directory, 2 tokens, 3 rings, 4 weights, 5 routing), Table 6-3. -/
def secOff (im : Bytes) (i : Nat) : Nat := fld im (0x18 + 8 * i) 4

/-- Section i's size. -/
def secSize (im : Bytes) (i : Nat) : Nat := fld im (0x1C + 8 * i) 4

/-- A field of the resource manifest (Table 6-4). -/
def manFld (im : Bytes) (off len : Nat) : Nat := fld im (secOff im 0 + off) len

/-- HBM_FOOTPRINT. -/
def hbmFootprint (im : Bytes) : Nat := manFld im 0x00 8
/-- SNAP_RESERVE. -/
def snapReserve (im : Bytes) : Nat := manFld im 0x08 8
/-- MIRROR_REGION. -/
def mirrorRegion (im : Bytes) : Nat := manFld im 0x10 8
/-- RATIO_TABLE. -/
def ratioTable (im : Bytes) : Nat := manFld im 0x18 8
/-- BOARD_FOOTPRINT. -/
def boardFootprint (im : Bytes) : Nat := manFld im 0x20 4
/-- WEIGHT_ENTRIES. -/
def weightEntries (im : Bytes) : Nat := manFld im 0x26 2
/-- WIDTH of the header: the class in columns. -/
def imageWidth (im : Bytes) : Nat := if fld im 0x06 1 = 1 then 960 else 1024
/-- Columns of a ceiling map's line (R293). -/
def mapCols (im : Bytes) : Nat := if fld im 0x06 1 = 1 then 15 else 16
/-- JOB_DEVICES and POSITION. -/
def jobDevices (im : Bytes) : Nat := fld im 0x10 4
/-- POSITION of the header. -/
def imagePosition (im : Bytes) : Nat := fld im 0x14 4

/-- CODE_OFFSET of strand n (Table 6-5). -/
def codeOffset (im : Bytes) (n : Nat) : Nat := fld im (secOff im 1 + 16 * n) 4
/-- CODE_COUNT of strand n. -/
def codeCount (im : Bytes) (n : Nat) : Nat := fld im (secOff im 1 + 16 * n + 4) 4
/-- CODE_CRC of strand n. -/
def codeCrc (im : Bytes) (n : Nat) : Nat := fld im (secOff im 1 + 16 * n + 8) 4
/-- Instruction i of strand n's code section (R262). -/
def codeWord (im : Bytes) (n i : Nat) : BitVec 128 := BitVec.ofNat 128 (fld im (codeOffset im n + 16 * i) 16)

/-- Token table entry i (Table 6-6), zero where the table is absent (R212). -/
def tokEntry (im : Bytes) (i : Nat) : Nat := if secSize im 2 = 0 then 0 else fld im (secOff im 2 + 4 * i) 4
/-- DECLARED. -/
def tokDeclared (im : Bytes) (i : Nat) : Bool := bitOf (tokEntry im i) 23
/-- HOST. -/
def tokHost (im : Bytes) (i : Nat) : Bool := bitOf (tokEntry im i) 22
/-- WAITER. -/
def tokWaiter (im : Bytes) (i : Nat) : Nat := field (tokEntry im i) 21 16
/-- INIT. -/
def tokInit (im : Bytes) (i : Nat) : Nat := field (tokEntry im i) 15 0

/-- A field of ring table entry r (Table 6-7), zero where the table is absent. -/
def ringFld (im : Bytes) (r off len : Nat) : Nat := if secSize im 3 = 0 then 0 else fld im (secOff im 3 + 32 * r + off) len
/-- KIND of ring r. -/
def ringKind (im : Bytes) (r : Nat) : Nat := ringFld im r 0 1
/-- PRODUCER of ring r. -/
def ringProducer (im : Bytes) (r : Nat) : Nat := ringFld im r 1 1
/-- CONSUMER of ring r. -/
def ringConsumer (im : Bytes) (r : Nat) : Nat := ringFld im r 2 1
/-- BASE of ring r. -/
def ringBase (im : Bytes) (r : Nat) : Nat := ringFld im r 4 4
/-- SEG_BYTES of ring r. -/
def ringSegBytes (im : Bytes) (r : Nat) : Nat := ringFld im r 8 4
/-- SEG_COUNT of ring r. -/
def ringSegCount (im : Bytes) (r : Nat) : Nat := ringFld im r 12 4

/-- Does strand n participate (R209)? -/
def participates (s : State) (n : Nat) : Bool := loaded s && decide (0 < codeCount (img s) n)

/-! ## Power domains (R530, R531, Table 14-3) -/

/-- A mask of domains. -/
def domMask (ds : List Nat) : BitVec 50 := ds.foldl (fun m d => m ||| BitVec.ofNat 50 (2 ^ d)) 0

/-- The domains, in ascending order. -/
def allDomains : List Nat := List.range 50

/-- Does domain d ramp with at most 8 at once? -/
def rampLimited (d : Nat) : Bool := decide (16 ≤ d ∧ d ≤ 47)

/-- How many limited domains ramp. -/
def rampCount (m : BitVec 50) : Nat := (allDomains.filter fun d => rampLimited d && m.getLsbD d).length

/-- Requested domains begin to ramp in ascending order, at most 8 limited ones at once (R531). -/
def startRamps (s : State) : State :=
  { s with shp := { s.shp with
      ramping := allDomains.foldl (fun m d =>
        if s.shp.requested.getLsbD d && !m.getLsbD d && (!rampLimited d || decide (rampCount m < 8)) then m ||| domMask [d] else m)
        s.shp.ramping } }

/-- Domains are requested; those that are on stay on. -/
def requestDomains (s : State) (m : BitVec 50) : State :=
  startRamps { s with shp := { s.shp with requested := s.shp.requested ||| (m &&& ~~~s.shp.on) } }

/-- Domains are gated. -/
def gateDomains (s : State) (m : BitVec 50) : State :=
  startRamps { s with shp := { s.shp with
    on := s.shp.on &&& ~~~m, requested := s.shp.requested &&& ~~~m, ramping := s.shp.ramping &&& ~~~m } }

/-- STRIPS_ON: the powered Frame strips, domains 0 to 15. -/
def stripsOn (s : State) : BitVec 16 := s.shp.on.setWidth 16

/-- The powered Frame strips replaced. -/
def setStrips (s : State) (m : BitVec 16) : State :=
  { s with shp := { s.shp with on := (s.shp.on &&& ~~~0xFFFF) ||| m.setWidth 50 } }

/-- Does the loaded program need Rods pair p (spec/05, R206)? -/
def pairNeeded (s : State) (p : Nat) : Bool := participates s (18 + 2 * p) || participates s (19 + 2 * p)

/-- The domains of the Rods pairs at which f holds. -/
def pairDomains (f : Nat → Bool) : BitVec 50 := domMask (((List.range 8).filter f).map (22 + ·))

/-! ## Locations (R272) -/

/-- The value that means "none". -/
def locNone : Nat := 0xFFFFFFFFFFFFFFFF

/-- Is a location on the Board? -/
def locBoard (l : Nat) : Bool := bitOf l 63
/-- ADDR of a location. -/
def locAddr (l : Nat) : Nat := field l 39 0

/-- Does a region of `len` bytes at a location lie inside its space (R272, R286, R291)? -/
def locValid (s : State) (l len : Nat) : Bool :=
  decide (field l 62 40 = 0) &&
    if locBoard l then decide (locAddr l + len ≤ replayBase)
    else decide (locAddr l + len ≤ hbmFootprint (img s))

/-- `n` bytes from a location. -/
def locRead (s : State) (l n : Nat) : Bytes :=
  if locBoard l then mread s.brd.mem (locAddr l) n else mread s.mem.hbm (locAddr l) n

/-! ## Copy-before-write (R481) -/

/-- The bytes of a page. -/
def pageBytes : Nat := 0x40000

/-- The number, over all shards, of the generation page that holds job address `a`; `k` counts the pages before. -/
def genPage : (shards : List Shard) → (k a : Nat) → Option Nat
  | [], _, _ => none
  | sh :: rest, k, a =>
    match sh.addr with
    | some x => if x ≤ a ∧ a < x + sh.pages * pageBytes then some (k + (a - x) / pageBytes) else genPage rest (k + sh.pages) a
    | none => genPage rest (k + sh.pages) a

/-- The job address of generation page p (none for the capture page). -/
def genPageAddr : (shards : List Shard) → (p : Nat) → Option Nat
  | [], _ => none
  | sh :: rest, p =>
    if p < sh.pages then sh.addr.map fun x => x + p * pageBytes else genPageAddr rest (p - sh.pages)

/-- before_write: a protected page that is not yet copied moves to the reserve (R481). The hold of a full reserve changes
timing only (R482) and is PAGE_PUSH's (log 21). -/
def protectPage (s : State) (a : Nat) : State :=
  match s.snp.gen with
  | none => s
  | some g =>
    if g.ended then s
    else match genPage g.shards 0 a with
      | none => s
      | some p =>
        if g.copied.contains p then s
        else
          let saved := sset g.saved p (mread s.mem.hbm (a / pageBytes * pageBytes) pageBytes)
          { s with snp := { s.snp with
              gen := some { g with copied := p :: g.copied, saved := saved }
              peak := BitVec.ofNat 32 (max s.snp.peak.toNat saved.length) } }

/-- Every page that a write of `len` bytes at job address `a` covers is protected. -/
def protect (s : State) (a len : Nat) : State :=
  if len = 0 then s
  else (List.range ((a + len - 1) / pageBytes - a / pageBytes + 1)).foldl
    (fun s i => protectPage s ((a / pageBytes + i) * pageBytes)) s

/-- A byte string written at a job address of HBM, past the copied bitmap. -/
def hbmWrite (s : State) (a : Nat) (b : Bytes) : State :=
  jobWrite (protect s a b.length) a b

/-- A byte string written at a location. -/
def locWrite (s : State) (l : Nat) (b : Bytes) : State :=
  if locBoard l then boardWrite s (locAddr l) b else hbmWrite s (locAddr l) b

/-- Does every block that a read of `n` bytes at a location touches verify (R300)? -/
def locVerifies (s : State) (l n : Nat) : Bool :=
  if locBoard l then rangeVerifies s.brd.mem s.brd.check (locAddr l) n
  else rangeVerifies s.mem.hbm s.mem.check (locAddr l) n

/-- A location moved on by `n` bytes. -/
def locAdd (l n : Nat) : Nat := l + n

/-- Does every block that a region of rows touches verify (R300)? -/
def rowsVerify (s : State) (loc pitch row rows : Nat) : Bool :=
  (List.range rows).all fun r => locVerifies s (locAdd loc (r * pitch)) row

/-! ## The instruction word (R261) -/

/-- OP. -/
def wOp (w : BitVec 128) : Nat := field w.toNat 127 120
/-- W_EN. -/
def wWen (w : BitVec 128) : Bool := bitOf w.toNat 119
/-- W_TOK. -/
def wWtok (w : BitVec 128) : Nat := field w.toNat 118 109
/-- W_CNT. -/
def wWcnt (w : BitVec 128) : Nat := field w.toNat 108 97
/-- S_EN. -/
def wSen (w : BitVec 128) : Bool := bitOf w.toNat 96
/-- S_TOK. -/
def wStok (w : BitVec 128) : Nat := field w.toNat 95 86
/-- S_INC. -/
def wSinc (w : BitVec 128) : Nat := field w.toNat 85 82
/-- A field of the operand bits [79:0]. -/
def wFld (w : BitVec 128) (hi lo : Nat) : Nat := field w.toNat hi lo

/-! ## Strands -/

/-- Strand n. -/
def strand (s : State) (n : Nat) : Strand := vget s.str.strands n {}

/-- Strand n replaced. -/
def setStrand (s : State) (n : Nat) (x : Strand) : State :=
  { s with str := { s.str with strands := vset s.str.strands n x } }

/-- Strand n's STATE (R258). -/
def setStrandSt (s : State) (n : Nat) (st : BitVec 4) : State :=
  setStrand s n { strand s n with st := st }

/-- What strand n's unit is held on (R227, R69, R70): 3 a ring, 4 a carry slot, 0 neither. -/
def setHold (s : State) (n : Nat) (h : BitVec 4) : State := setStrand s n { strand s n with hold := h }

/-- A grain of strand n waits for energy credits (R587): its unit is held until the grain is granted. -/
def creditHeld (s : State) (n : Nat) : Bool := s.gov.waiting.any fun g => g.strand == n

/-- STATE of STR_STRAND[n] (Table 6-17): a hold shows while the strand would otherwise be issuing or executing. -/
def strandState (s : State) (n : Nat) : BitVec 4 :=
  let x := strand s n
  if x.st ≠ 1 then x.st else if x.hold ≠ 0 then x.hold else if creditHeld s n then 5 else 1

/-- The device executes a job: RUNNING, and its die serves. -/
def running (s : State) : Bool := decide (s.sys.st = .running) && decide (s.die = .serving)

/-- Is strand n stopped or ended, so that it issues nothing further? -/
def halted (s : State) (n : Nat) : Bool :=
  decide ((strand s n).st = 0 ∨ (strand s n).st = 7 ∨ (strand s n).st = 8)

/-- Strand n has begun an instruction with opcode `op` that has not issued (R210, R211), and no grain of its unit waits for
energy credits (a common opcode draws none). -/
def begun (s : State) (n op : Nat) : Bool :=
  running s && !halted s n && decide ((strand s n).phase = .begun) && decide (wOp (strand s n).word = op) &&
  (decide (op ≤ 2) || !creditHeld s n)

/-- Every earlier instruction of strand n has completed. -/
def idle (s : State) (n : Nat) : Bool := (strand s n).inflight.isEmpty

/-- Strand n issues its current instruction: it joins the instructions in flight, and the next word is fetched (R210). -/
def issueStrand (s : State) (n : Nat) : State :=
  let x := strand s n
  setStrand s n { x with inflight := x.inflight ++ [(x.index.toNat, x.word)], index := x.index + 1, phase := .fetch, st := 1, hold := 0 }

/-- Stop strand n by a fault or a refusal (R71). -/
def stopStrand (s : State) (n : Nat) : State := setStrandSt s n 8

/-- The present count of a token. -/
def token (s : State) (i : Nat) : Nat := (sgetD s.str.tok i 0).toNat

/-- A token's count replaced. -/
def setToken (s : State) (i x : Nat) : State :=
  { s with str := { s.str with tok := ssetD 0 s.str.tok i (BitVec.ofNat 16 x) } }

/-- Ring r. -/
def ring (s : State) (r : Nat) : Ring := vget s.str.rings r {}

/-- Ring r replaced. -/
def setRing (s : State) (r : Nat) (x : Ring) : State :=
  { s with str := { s.str with rings := vset s.str.rings r x } }

/-- The Board address of segment number k of ring r (R226). -/
def segAddr (s : State) (r k : Nat) : Nat :=
  ringBase (img s) r + (k % ringSegCount (img s) r) * ringSegBytes (img s) r

/-- The layout of the consumer's present segment (R304). -/
def segNow (s : State) (r : Nat) : SegLayout := ((ring s r).segs.head?).getD ⟨0, 0, 0⟩

/-- May ring r's producer write its next segment (R226)? -/
def ringFree (s : State) (r : Nat) : Bool := decide ((ring s r).p - (ring s r).c < ringSegCount (img s) r)

/-- May ring r's consumer read its present segment (R226)? -/
def ringReady (s : State) (r : Nat) : Bool := decide ((ring s r).c < (ring s r).p)

/-- A segment is produced (R226). -/
def produce (s : State) (r : Nat) (l : SegLayout) : State :=
  let x := ring s r
  setRing s r { x with p := x.p + 1, segs := x.segs ++ [l] }

/-- The present segment is released (R226, R307). -/
def release (s : State) (r : Nat) : State :=
  let x := ring s r
  setRing s r { x with c := x.c + 1, cursor := 0, segs := x.segs.drop 1 }

/-- A free value is drawn (log 7): the number of the draw, and the state that has drawn it. -/
def draw (s : State) : Nat × State := (s.free, { s with free := s.free + 1 })

/-- Carry slot k. -/
def slot (s : State) (k : Nat) : Slot := vget s.frm.slots k {}

/-- Carry slot k replaced. -/
def setSlot (s : State) (k : Nat) (x : Slot) : State :=
  { s with frm := { s.frm with slots := vset s.frm.slots k x } }

/-- The Frame's width in columns (R51, R83). -/
def frmWidth (s : State) : Nat := if s.frm.retired.isSome then 960 else 1024

end Sys2Proof.Machine
end

