-- ==== Sys2Proof/Machine/Status.lean ====
section
/-!
DEFINITION. The status words that a snapshot carries (Table 11-4), the snapshot itself (R403, R408), and sending over the
Tether (R395, R396, R405).
-/
namespace Sys2Proof.Machine

/-- A word of fields, each shifted to its place. -/
def packFields (fs : List (Nat × Nat)) : Nat := fs.foldl (fun a f => a + f.1 * 2 ^ f.2) 0

/-- STATE encodings (Table 0-9). -/
def stateCode : DevState → Nat
  | .off => 0
  | .boot => 1
  | .holding => 2
  | .armed => 3
  | .running => 4
  | .draining => 5
  | .faulted => 6
  | .withdrawn => 7

/-- SYS_STATE (Table 0-8). -/
def sysWord (s : State) : Nat :=
  packFields [(s.sys.seq.toNat, 16), (b2n s.sys.replace, 6), (b2n s.sys.drill, 5), (b2n s.sys.degraded, 4),
    (stateCode s.sys.st, 0)]

/-- SHP_STATE (Table 14-8): the mirror of SYS_STATE; STATE reads 0x0 while the compute die is off. -/
def mirrorWord (s : State) : Nat :=
  if s.die = .off then s.shp.mirror.toNat / 16 * 16 else sysWord s

/-- Has strand n begun an instruction of its unit's own that has not issued? -/
def unitBegun (s : State) (n : Nat) : Bool :=
  decide ((strand s n).phase = .begun) && !halted s n && decide (2 < wOp (strand s n).word)

/-- Does strand n's unit execute an instruction, from its token wait's satisfaction to completion (Table 2-6, BUSY)? -/
def strandBusy (s : State) (n : Nat) : Bool := !(strand s n).inflight.isEmpty || unitBegun s n

/-- WIDTH of FRM_STATUS. -/
def widthCode (s : State) : Nat := if s.frm.noWidth then 2 else if s.frm.retired.isSome then 1 else 0

/-- FRM_STATUS (Table 2-6). -/
def frmStatus (s : State) : Nat :=
  packFields [((stripsOn s).toNat, 16), (widthCode s, 8), ((s.frm.retired.map Fin.val).getD 0, 4),
    (b2n s.frm.rotated, 3), (b2n s.frm.replay, 2), (b2n s.frm.hold, 1), (b2n (strandBusy s 0), 0)]

/-- Strands at STEP. -/
def atStep (s : State) : Nat := (s.str.strands.toList.filter fun x => x.st == 6).length

/-- Participating strands. -/
def participating (s : State) : List Nat := (List.range 43).filter (participates s)

/-- STR_STATUS (Table 6-11). -/
def strStatus (s : State) : Nat :=
  packFields [(atStep s, 24), ((participating s).length, 16), (b2n (s.str.teardown != .none), 4), (b2n s.str.scrub, 3),
    (b2n (atStep s != 0), 2), (b2n (s.sys.st == .armed || s.sys.st == .running), 1), (b2n (loaded s), 0)]

/-- Live pseudo-channels P. -/
def livePcs (s : State) : Nat := (s.mem.live.toList.map fun w => onesIn w.toNat 0 32).foldl (· + ·) 0

/-- MEM_STATUS (Table 8-5). -/
def memStatus (s : State) : Nat :=
  packFields [(s.mem.qualified.toNat, 24), (b2n !s.mem.retraining.isEmpty, 18), (b2n s.mem.extActive, 16), (livePcs s, 0)]

/-- Lead i. -/
def leadAt (s : State) (i : Nat) : Lead := vget s.lead.lead i {}

/-- Lead i replaced. -/
def setLead (s : State) (i : Nat) (x : Lead) : State :=
  { s with lead := { s.lead with lead := vset s.lead.lead i x } }

/-- The leads that are up, as a mask. -/
def leadsUp (s : State) : Nat := (List.range 8).foldl (fun a i => a + b2n (leadAt s i).up * 2 ^ i) 0

/-- LEAD_CHECK (Table 9-13). -/
def leadCheck (s : State) : Nat :=
  packFields [(s.lead.swap.toNat, 24), (s.lead.reqFail.toNat, 16), (leadsUp s, 8), (s.lead.result.toNat, 0)]

/-- TIM_STATUS (Table 10-3). -/
def timStatus (s : State) : Nat :=
  packFields [(s.tim.marks.toNat, 16), (b2n s.tim.isSource, 7), (b2n (s.tim.slew != 0), 6), (b2n s.tim.markLock, 5),
    (b2n s.tim.refLock, 4), (s.tim.mode.toNat, 1), (b2n s.tim.valid, 0)]

/-- Link l of the Tether. -/
def linkAt (s : State) (l : Nat) : TLink := vget s.tet.link l {}

/-- Link l replaced. -/
def setLink (s : State) (l : Nat) (x : TLink) : State :=
  { s with tet := { s.tet with link := vset s.tet.link l x } }

/-- Two flags, one a link, as two bits. -/
def perLink (s : State) (f : TLink → Bool) : Nat := b2n (f (linkAt s 0)) + 2 * b2n (f (linkAt s 1))

/-- TET_STATUS (Table 11-7). -/
def tetStatus (s : State) : Nat :=
  packFields [(perLink s TLink.lost, 6), (perLink s (fun l => l.die.isOpen || l.shp.isOpen), 4),
    (b2n (s.shp.serving || s.shp.rom), 3), (perLink s TLink.up, 0)]

/-- PHASE encodings (Table 11-8). -/
def phaseCode : RuPhase → Nat
  | .idle => 0
  | .armed => 1
  | .ready => 2
  | .committed => 3

/-- TET_RU (Table 11-8). -/
def tetRu (s : State) : Nat :=
  packFields [(s.tet.plan.toNat, 16), (s.tet.children.toNat, 8), (b2n s.tet.armedOnce, 4), (b2n s.tet.root, 3),
    (phaseCode s.tet.phase, 0)]

/-- HEAD of the Tally store (R541). -/
def tallyHead (s : State) : Nat := ((s.tly.store.getLast?).map fun r => r.seq.toNat).getD 0

/-- SNAP_SEQ of the next snapshot, and the state that has served it (R403). -/
def takeSnapSeq (s : State) : Nat × State :=
  let q := s.tet.period.toNat * 2 ^ 48 + s.tet.serial.toNat
  let t := if s.tet.serial = 0xFFFFFFFFFFFF then { s.tet with period := s.tet.period + 1, serial := 0 }
    else { s.tet with serial := s.tet.serial + 1 }
  (q, { s with tet := t })

/-- A status snapshot (Table 11-4), served by the compute die or, while it cannot answer, by the Shepherd (R408). -/
def snapshot (s : State) : Bytes × State :=
  let (q, s') := takeSnapSeq s
  let b :=
    if s.die = .serving then
      natLE 8 q ++ natLE 4 (sysWord s) ++ natLE 4 (timStatus s) ++ natLE 8 s.tim.counter.toNat ++
      natLE 8 s.tet.shpMarker.toNat ++ natLE 8 (if loaded s then s.str.job.toNat else 0) ++
      natLE 4 s.tet.armId.toNat ++ natLE 4 s.knl.lastCode.toNat ++ natLE 8 (tallyHead s) ++ natLE 8 s.tet.launch.toNat ++
      natLE 4 (leadCheck s) ++ natLE 4 (tetStatus s) ++ natLE 4 (tetRu s) ++ natLE 4 (memStatus s) ++
      natLE 4 (frmStatus s) ++ natLE 4 (strStatus s) ++ zeros 40
    else
      natLE 8 q ++ natLE 4 (mirrorWord s) ++ zeros 4 ++ natLE 8 (s.shp.time.toNat % 2 ^ 48) ++
      natLE 8 s.tet.shpMarker.toNat ++ natLE 8 s.tet.shpJob.toNat ++ zeros 8 ++ natLE 8 (tallyHead s) ++ zeros 32 ++
      [1] ++ zeros 39
  (b, s')

/-- The session of link l toward the Shepherd or toward the compute die. -/
def sess (s : State) (l : Nat) (shp : Bool) : Sess := if shp then (linkAt s l).shp else (linkAt s l).die

/-- That session replaced. -/
def setSess (s : State) (l : Nat) (shp : Bool) (x : Sess) : State :=
  setLink s l (if shp then { linkAt s l with shp := x } else { linkAt s l with die := x })

/-- A frame is sent on a link in a session and waits for its acknowledgement (R396). -/
def tetSend (s : State) (l : Nat) (shp : Bool) (b : TBody) : State :=
  let x := sess s l shp
  setSess s l shp { x with seq := x.seq + 1, sent := x.sent ++ [(x.seq, b)] }

/-- A bulk frame waits behind the status-class and control-class frames of its link (R400). -/
def tetBulk (s : State) (l : Nat) (b : TBody) : State :=
  let x := sess s l false
  setSess s l false { x with bulk := x.bulk ++ [b] }

/-- Up to `n` waiting bulk frames of link l leave, no other frame waiting (R400; log 4). -/
def sendBulk (s : State) (n l : Nat) : State :=
  let x := sess s l false
  if (linkAt s l).up && x.isOpen then
    (x.bulk.take n).foldl (fun s b => tetSend s l false b) (setSess s l false { x with bulk := x.bulk.drop n })
  else s

/-- The lowest link that is up with an open compute-die session. -/
def dieLink (s : State) : Option Nat :=
  (List.range 2).find? fun l => (linkAt s l).up && (linkAt s l).die.isOpen

/-- A response to a request, on the link on which it arrived (R395); TYPE has bit 7 set. -/
def respond (s : State) (r : Req) (shp : Bool) (type status : Nat) (payload : Bytes) : State :=
  tetSend s r.link shp (.response (BitVec.ofNat 8 (type + 0x80)) (BitVec.ofNat 8 status) r.id payload)

/-- A response that refuses with a code (Table 11-1). -/
def respondCode (s : State) (r : Req) (shp : Bool) (type code : Nat) : State := respond s r shp type 1 (natLE 4 code)

/-- A NOTIFY with a snapshot (R405): sent on an open compute-die session, else held, the newest of each reason kept. -/
def notify (s : State) (reason : Reason) (code : Nat) : State :=
  let (b, s) := snapshot s
  let c := BitVec.ofNat 32 code
  match dieLink s with
  | some l => tetSend s l false (.notify reason c b)
  | none => { s with tet := { s.tet with held := s.tet.held.filter (fun h => h.1 != reason) ++ [(reason, c, b)] } }

/-- The held notifications are sent in the order in which they were made (R405). -/
def sendHeld (s : State) : State :=
  match dieLink s with
  | some l =>
    let hs := s.tet.held
    hs.foldl (fun s h => tetSend s l false (.notify h.1 h.2.1 h.2.2)) { s with tet := { s.tet with held := [] } }
  | none => s

end Sys2Proof.Machine
end

