-- ==== Sys2Proof/Machine/Flags.lean ====
section
/-!
DEFINITION. Event bits, counters and SYS_STATE (spec/00 R9; spec/12 R428 to R430, R464 to R474; the EVENT tables of every
chapter): what a code sets the moment it is raised. What the Kennel does with it is CODE_COLLECTED's.
-/
namespace Sys2Proof.Machine

/-- The EVENT registers. -/
inductive EvUnit where
  | knl | frm | edg | rod | mem | brd | lead | col | tim | tet | snp | gov | sec | shp
  deriving DecidableEq, Repr

/-- The EVENT bits of the leads and collectives, of time, of the Tether and of the snapshot engine (Tables 9-14, 9-22,
10-7, 11-12, 13-13). -/
def eventBitMid (code : Nat) : Option (EvUnit × Nat) :=
  match code with
  | 0x07080001 => some (.lead, 0)
  | 0x0A080001 => some (.lead, 1)
  | 0x07080002 => some (.lead, 2)
  | 0x07080003 => some (.lead, 3)
  | 0x07080004 | 0x0708000B => some (.lead, 4)
  | 0x07080005 => some (.lead, 5)
  | 0x07080006 => some (.lead, 6)
  | 0x07080007 => some (.lead, 7)
  | 0x07080008 => some (.lead, 8)
  | 0x07080009 => some (.lead, 9)
  | 0x0708000A => some (.lead, 10)
  | 0x0A080002 => some (.lead, 11)
  | 0x03080001 => some (.lead, 12)
  | 0x07090001 => some (.col, 0)
  | 0x07090002 => some (.col, 2)
  | 0x0B090001 => some (.col, 3)
  | 0x01090001 => some (.col, 4)
  | 0x0C0A0001 => some (.tim, 0)
  | 0x0C0A0002 => some (.tim, 1)
  | 0x0C0A0003 => some (.tim, 2)
  | 0x0C0A0004 => some (.tim, 3)
  | 0x0C0A0005 => some (.tim, 4)
  | 0x080B0002 | 0x0A0B0002 => some (.tet, 0)
  | 0x080B0001 => some (.tet, 1)
  | 0x080B0003 => some (.tet, 2)
  | 0x080B0004 | 0x080B0005 | 0x080B0009 => some (.tet, 3)
  | 0x080B0006 => some (.tet, 4)
  | 0x080B0007 => some (.tet, 5)
  | 0x080B0008 => some (.tet, 6)
  | 0x0A0B0001 => some (.tet, 7)
  | 0x080C0001 => some (.snp, 1)
  | 0x070C0001 => some (.snp, 2)
  | 0x070C0002 => some (.snp, 3)
  | 0x0B0C0003 => some (.snp, 4)
  | 0x0A0C0001 => some (.snp, 5)
  | 0x0B0C0002 | 0x030C0001 => some (.snp, 6)
  | 0x0E0C0001 => some (.snp, 7)
  | _ => none

/-- The EVENT bits of the governor, of secrecy and of the Shepherd (Tables 16-8, 15-16, 14-11), else those of `eventBitMid`. -/
def eventBitLate (code : Nat) : Option (EvUnit × Nat) :=
  match code with
  | 0x090D0001 => some (.gov, 0)
  | 0x090D0003 => some (.gov, 1)
  | 0x090D0004 => some (.gov, 2)
  | 0x090D0005 => some (.gov, 3)
  | 0x090D0006 => some (.gov, 4)
  | 0x0A0E0001 => some (.sec, 0)
  | 0x0A0E0002 => some (.sec, 1)
  | 0x0A0E0003 => some (.sec, 2)
  | 0x0A0E0004 => some (.sec, 3)
  | 0x0A0E0005 => some (.sec, 4)
  | 0x0A0E0006 => some (.sec, 5)
  | 0x0A0E0007 => some (.sec, 6)
  | 0x0A0E0008 => some (.sec, 7)
  | 0x0A0E0009 => some (.sec, 8)
  | 0x0D0F0001 => some (.shp, 0)
  | 0x0D0F0002 => some (.shp, 1)
  | 0x0D0F0003 => some (.shp, 2)
  | 0x0D0F0004 => some (.shp, 3)
  | 0x0D0F0006 => some (.shp, 4)
  | 0x0D0F0007 => some (.shp, 5)
  | 0x090F0001 => some (.shp, 6)
  | 0x090F0002 => some (.shp, 7)
  | _ => eventBitMid code

/-- The EVENT bit that names a code (Tables 2-8, 3-12, 5-6, 8-6, 8-10, 12-24, else those of `eventBitLate`). -/
def eventBit (code : Nat) : Option (EvUnit × Nat) :=
  match code with
  | 0x02010001 => some (.knl, 0)
  | 0x02010002 => some (.knl, 1)
  | 0x02010003 | 0x02010004 => some (.knl, 2)
  | 0x02010005 => some (.knl, 3)
  | 0x04010001 | 0x04010002 | 0x04010003 => some (.knl, 4)
  | 0x05010001 => some (.knl, 5)
  | 0x05010002 => some (.knl, 6)
  | 0x05010003 => some (.knl, 7)
  | 0x06010002 => some (.knl, 8)
  | 0x0D010001 | 0x0D010002 | 0x0D010003 => some (.knl, 9)
  | 0x0E010001 => some (.knl, 10)
  | 0x01020002 => some (.frm, 1)
  | 0x01020001 => some (.frm, 2)
  | 0x01020003 => some (.frm, 3)
  | 0x01020005 => some (.frm, 5)
  | 0x01020006 => some (.frm, 6)
  | 0x01020004 => some (.frm, 7)
  | 0x01020007 => some (.frm, 8)
  | 0x01030001 => some (.edg, 0)
  | 0x01030002 => some (.edg, 1)
  | 0x01030003 => some (.edg, 2)
  | 0x01030004 => some (.edg, 3)
  | 0x01030005 => some (.edg, 4)
  | 0x01030006 => some (.edg, 5)
  | 0x01030007 => some (.edg, 8)
  | 0x01040001 => some (.rod, 0)
  | 0x01040002 => some (.rod, 1)
  | 0x01040003 => some (.rod, 2)
  | 0x01040105 => some (.rod, 4)
  | 0x01040101 | 0x01040102 | 0x01040103 => some (.rod, 5)
  | 0x01040104 => some (.rod, 6)
  | 0x06060001 => some (.mem, 0)
  | 0x06060002 => some (.mem, 1)
  | 0x03060001 => some (.mem, 2)
  | 0x03060002 => some (.mem, 3)
  | 0x06060005 => some (.mem, 4)
  | 0x06060006 => some (.mem, 5)
  | 0x06060007 => some (.mem, 6)
  | 0x06070001 => some (.brd, 0)
  | 0x06070002 => some (.brd, 1)
  | _ => eventBitLate code

/-- A bit of a register set. -/
def orBit (w : Word) (b : Nat) : Word := w ||| BitVec.ofNat 32 (2 ^ b)

/-- Set an EVENT bit. -/
def setEvent (s : State) (u : EvUnit) (b : Nat) : State :=
  match u with
  | .knl => { s with knl := { s.knl with event := orBit s.knl.event b } }
  | .frm => { s with frm := { s.frm with event := orBit s.frm.event b } }
  | .edg => { s with edg := { s.edg with event := orBit s.edg.event b } }
  | .rod => { s with rod := { s.rod with event := orBit s.rod.event b } }
  | .mem => { s with mem := { s.mem with event := orBit s.mem.event b } }
  | .brd => { s with brd := { s.brd with event := orBit s.brd.event b } }
  | .lead => { s with lead := { s.lead with event := orBit s.lead.event b } }
  | .col => { s with col := { s.col with event := orBit s.col.event b } }
  | .tim => { s with tim := { s.tim with event := orBit s.tim.event b } }
  | .tet => { s with tet := { s.tet with event := orBit s.tet.event b } }
  | .snp => { s with snp := { s.snp with event := orBit s.snp.event b } }
  | .gov => { s with gov := { s.gov with event := orBit s.gov.event b } }
  | .sec => { s with sec := { s.sec with event := orBit s.sec.event b } }
  | .shp => { s with shp := { s.shp with event := orBit s.shp.event b } }

/-- The counter named for a code (R287, R314, R319, R322). -/
def countCode (s : State) (code : Nat) : State :=
  match code with
  | 0x06070001 => { s with brd := { s.brd with cntCorr := satAdd32 s.brd.cntCorr 1 } }
  | 0x06060001 => { s with mem := { s.mem with cntCorr := satAdd32 s.mem.cntCorr 1 } }
  | 0x06060003 => { s with mem := { s.mem with cntOdecc := satAdd32 s.mem.cntOdecc 1 } }
  | 0x03060001 | 0x03060002 => { s with mem := { s.mem with cntCheck := satAdd32 s.mem.cntCheck 1 } }
  | 0x06060005 => { s with mem := { s.mem with cntRetrain := satAdd32 s.mem.cntRetrain 1 } }
  | _ => s

/-! ## Tally records (R534 to R539) -/

/-- FLAGS of a record. -/
def recFlags (valid shpTime drill : Bool) (band : Nat) (temp : Bool) : BitVec 16 :=
  BitVec.ofNat 16 (packFields [(b2n valid, 0), (b2n shpTime, 1), (b2n drill, 2), (band, 3), (b2n temp, 5)])

/-- A record of the Kennel, on the time counter (R386, R431). -/
def kennelRec (s : State) (code : Word) (detail : Bytes) (drill : Bool) : TRec :=
  { seq := s.tly.next, time := s.tim.counter, flags := recFlags s.tim.valid false drill s.knl.band.toNat true,
    unit := code.extractLsb' 16 8, code := code, detail := slice detail 0 24, temp := s.knl.temp }

/-- A record of the Shepherd, on Shepherd time (R535). -/
def shepherdRec (s : State) (code : Word) (detail : Bytes) : TRec :=
  { seq := s.tly.next, time := s.shp.time.setWidth 48, flags := recFlags false true false 0 false,
    unit := code.extractLsb' 16 8, code := code, detail := slice detail 0 24, temp := 0 }

/-- The slots of the store (R536). -/
def storeSlots : Nat := 393088

/-- One record arrives at the store (R539): kept, or the store becomes full, or the record is discarded and counted. -/
def storeRec (s : State) (r : TRec) : State :=
  if s.tly.full then { s with tly := { s.tly with overflow := satAdd32 s.tly.overflow 1 } }
  else if s.tly.store.length + 1 = storeSlots then
    let r' := { r with code := 0x0D100002, unit := 0x10, detail := slice (natLE 4 r.code.toNat) 0 24 }
    { s with tly := { s.tly with store := s.tly.store ++ [r'], full := true } }
  else { s with tly := { s.tly with store := s.tly.store ++ [r] } }

/-- The tech page's last 8 codes (R529). -/
def techCode (s : State) (code : Word) : State :=
  { s with shp := { s.shp with tech := (code :: s.shp.tech).take 8 } }

/-- Does a code with this effect write a Tally record of itself (Table 12-3)? -/
def effRecord : Effect → Bool
  | .count | .refused | .absorbedNoRecord => false
  | _ => true

/-- While the compute die is not released, the Shepherd numbers and stores the record itself (R535). -/
def shepherdRecord (s : State) (code : Nat) (eff : Effect) (detail : Bytes) : State :=
  let c := BitVec.ofNat 32 code
  let s := techCode s c
  if effRecord eff then
    let s := storeRec s (shepherdRec s c detail)
    { s with tly := { s.tly with next := s.tly.next + 1, passed := s.tly.next + 1 } }
  else s

/-- A code is raised (R429, R430): its EVENT bit and its counter at once; it is on its way to the Kennel, or, with the
compute die not released, the Shepherd records it (R535). -/
def raise (s : State) (code : Nat) (eff : Effect) (detail : Bytes := []) : State :=
  let s := match eventBit code with
    | some (u, b) => setEvent s u b
    | none => s
  let s := countCode s code
  if s.die = .off then shepherdRecord s code eff detail
  else { s with knl := { s.knl with inflight := s.knl.inflight ++ [⟨BitVec.ofNat 32 code, eff, detail, s.sys.drill⟩] } }

/-- A code is raised with a severity of R122: count only leaves it to the counters that the raising rule names. -/
def raiseSev (s : State) (code sev : Nat) (detail : Bytes := []) : State :=
  match sev with
  | 0 => s
  | 1 => raise s code .event detail
  | _ => raise s code .jobEnding detail

/-- A list of codes raised in one command, in the order given. -/
def raiseAll (s : State) (cs : List (Nat × Effect × Bytes)) : State :=
  cs.foldl (fun s c => raise s c.1 c.2.1 c.2.2) s

/-- The unit's ISSUE_FAULT bit (R91, R134, R204, R372). -/
def issueFault (s : State) (n : Nat) : State :=
  if n = 0 then setEvent s .frm 4
  else if n = 1 then setEvent s .edg 7
  else if 18 ≤ n ∧ n ≤ 33 then setEvent s .rod 3
  else if 34 ≤ n ∧ n ≤ 41 then setEvent s .col 5
  else s

/-- An instruction of strand n is refused at issue or as it begins (R71, R269): its strand stops, job-ending. -/
def refuse (s : State) (n code : Nat) : State :=
  raise (issueFault (stopStrand s n) n) code .jobEnding

/-- STATE, DEGRADED, DRILL and REPLACE change together, STATE_SEQ counts one change (R9), and the device notifies it
(R405). -/
def sysChange (s : State) (st : DevState) (degraded drill replace : Bool) : State :=
  if s.sys.st = st ∧ s.sys.degraded = degraded ∧ s.sys.drill = drill ∧ s.sys.replace = replace then s
  else
    notify { s with
      sys := { seq := s.sys.seq + 1, st := st, degraded := degraded, drill := drill, replace := replace }
      shp := { s.shp with replace := replace } } .stateChange s.knl.lastCode.toNat

/-- The device goes to a state with the replace request that goes with it (R9, R462). -/
def goState (s : State) (st : DevState) : State :=
  sysChange s st s.sys.degraded s.sys.drill (s.sys.degraded || decide (st = .withdrawn))

/-- A drill of kind k is in progress (R501). -/
def drilling (s : State) (k : Nat) : Bool := s.snp.drillActive == some k

/-- DRILL is cleared: the handling of the injected fault has ended (R502). -/
def endDrill (s : State) : State :=
  sysChange { s with snp := { s.snp with drillActive := none } } s.sys.st s.sys.degraded false s.sys.replace

/-- The drill of kind k, if it is in progress, has been handled. -/
def drillHandled (s : State) (k : Nat) : State := if drilling s k then endDrill s else s

/-- A detail item of four bytes and of eight (R534). -/
def d4 (x : Nat) : Bytes := natLE 4 x
/-- A detail item of eight bytes (R534). -/
def d8 (x : Nat) : Bytes := natLE 8 x

/-- Rods pair p is on its way back into service: its STR_DISABLE bit is clear and its STR_DISABLED bit is not (R249). -/
def pairReturns (s : State) (p : Nat) : Bool := s.str.disabled.getLsbD p && !s.str.disable.getLsbD p

/-- The program is discarded: no program is loaded, what belongs to it is cleared, and the Rods pairs are gated, but for those
that are on their way back into service. -/
def discardProgram (s : State) : State :=
  { gateDomains s (pairDomains fun p => !pairReturns s p) with
    str := { s.str with image := none, strands := Vector.replicate 43 {}, tok := [], rings := Vector.replicate 64 {} }
    tet := { s.tet with armId := 0, armedOnce := false }
    snp := { s.snp with restored := false, restoredPage := [], restore := none, skipSnap := false } }

/-- The result of a load is set and reported. -/
def loadResult (s : State) (code detail : Nat) : State :=
  let s := { s with ld := {}, str := { s.str with loadResult := BitVec.ofNat 32 code, loadDetail := BitVec.ofNat 32 detail } }
  let s := if code = 0 then s else raise s code .refused (d4 detail)
  notify s .loadResult code

/-- A load in progress fails (R406). -/
def failLoad (s : State) : State := if s.ld.active then loadResult s 0x080B0009 0 else s

end Sys2Proof.Machine
end

