-- ==== Sys2Proof/Machine/Strands.lean ====
section
/-!
DEFINITION. Decode, token waits, signals and the common opcodes (spec/06 R210, R218 to R223, R232; spec/07 R261 to R268,
R278, R281).
-/
namespace Sys2Proof.Machine

/-! ## Decode checks (Table 7-3) -/

/-- Check 1: both parity halves are even (R263). -/
def parityEven (w : BitVec 128) : Bool :=
  onesIn w.toNat 81 47 % 2 == 0 && onesIn w.toNat 0 81 % 2 == 0

/-- Rods opcodes of Table 7-14. -/
def rodsOps : List Nat :=
  [0x10, 0x11, 0x12, 0x13, 0x14, 0x15, 0x20, 0x21, 0x22, 0x23, 0x24, 0x25, 0x26] ++
  [0x28, 0x29, 0x2A, 0x2B, 0x2C, 0x2D, 0x2E, 0x30, 0x31, 0x32, 0x33, 0x34] ++
  [0x40, 0x41, 0x42, 0x43, 0x44, 0x45, 0x46, 0x47, 0x48, 0x49, 0x4C, 0x4D] ++
  [0x50, 0x51, 0x52, 0x53, 0x54, 0x55, 0x56, 0x57, 0x58, 0x59, 0x5A, 0x5B, 0x5C, 0x5D] ++
  [0x60, 0x61, 0x62, 0x63, 0x64, 0x65, 0x70, 0x71, 0x72, 0x78]

/-- The opcodes that strand n's own table assigns (Tables 7-6, 7-9, 7-10, 7-14, 7-17, 7-20). -/
def unitOps (n : Nat) : List Nat :=
  if n = 0 then [0x10]
  else if n = 1 then [0x10, 0x11]
  else if n ≤ 17 then [0x10, 0x11, 0x12]
  else if n ≤ 33 then rodsOps
  else if n ≤ 41 then [0x10]
  else [0x10, 0x11]

/-- Check 2: the opcode is assigned in the strand's space (R265). -/
def opAssigned (n op : Nat) : Bool := decide (op ≤ 2) || (unitOps n).contains op

/-- Check 3: the W and S fields are zero while disabled (R264). -/
def wsZero (w : BitVec 128) : Bool :=
  (wWen w || (decide (wWtok w = 0) && decide (wWcnt w = 0))) &&
  (wSen w || (decide (wStok w = 0) && decide (wSinc w = 0)))

/-- Check 4: the counts are nonzero while enabled (R223). -/
def countsNonzero (w : BitVec 128) : Bool :=
  (!wWen w || decide (wWcnt w ≠ 0)) && (!wSen w || decide (wSinc w ≠ 0))

/-- Is a field of the operand bits zero? -/
def fz (w : BitVec 128) (hi lo : Nat) : Bool := decide (wFld w hi lo = 0)

/-- Format V's C field is zero. -/
def cZero (w : BitVec 128) : Bool := fz w 34 20
/-- Format V's B and C fields are zero. -/
def bcZero (w : BitVec 128) : Bool := fz w 49 20
/-- Layout F is well formed: FTYPE is not 0b11. -/
def ftypeOk (w : BitVec 128) : Bool := decide (wFld w 3 2 ≠ 3)

/-- Check 5 for a Rods opcode (R278, Tables 7-12 to 7-15). -/
def rodsFieldsOk (op : Nat) (w : BitVec 128) : Bool :=
  match op with
  | 0x10 => fz w 6 0 && (if wFld w 8 8 = 1 then decide (wFld w 64 64 = 1) else fz w 14 9 && fz w 7 7)
  | 0x11 => fz w 14 0
  | 0x12 | 0x13 | 0x14 => fz w 34 20 && fz w 3 0
  | 0x15 => fz w 64 0
  | 0x25 | 0x26 | 0x2B => bcZero w && fz w 0 0
  | 0x34 => fz w 0 0
  | 0x43 => ftypeOk w
  | 0x46 | 0x47 | 0x49 => bcZero w && ftypeOk w
  | 0x40 | 0x41 | 0x42 | 0x44 | 0x45 | 0x48 => cZero w && ftypeOk w
  | 0x4C => fz w 45 20
  | 0x4D => fz w 49 35 && fz w 0 0
  | 0x5C | 0x5D => fz w 49 35 && ftypeOk w
  | 0x60 => fz w 49 20 && fz w 0 0
  | 0x61 => fz w 49 35 && fz w 3 0
  | 0x62 | 0x63 => fz w 3 0
  | 0x64 | 0x65 => bcZero w && fz w 3 0
  | 0x70 => fz w 79 65 && fz w 36 20 && ftypeOk w && fz w 1 0
  | 0x71 => fz w 64 50 && fz w 36 0
  | 0x72 => fz w 79 50 && fz w 36 0
  | 0x78 => fz w 8 0
  | _ =>
    if 0x20 ≤ op ∧ op ≤ 0x33 then cZero w && fz w 0 0
    else if 0x50 ≤ op ∧ op ≤ 0x5B then bcZero w && ftypeOk w
    else true

/-- The admitted combinations of KIND, ROP and ECODE (Table 7-18). -/
def collAdmitted (kind rop ecode : Nat) : Bool :=
  if kind ≤ 1 then (rop == 1 && ecode == 0xD) || ((rop == 2 || rop == 3) && (ecode == 0xB || ecode == 0xC))
  else if kind ≤ 3 then rop == 0 && [0x0, 0x9, 0xA, 0xB, 0xC, 0xD].contains ecode
  else false

/-- Check 5: reserved operand bits are zero and coded fields hold listed values. -/
def fieldsOk (n op : Nat) (w : BitVec 128) : Bool :=
  if op ≤ 2 then fz w 79 0
  else if n = 0 then fz w 23 0
  else if n = 1 then (if op = 0x10 then fz w 41 0 else fz w 55 0)
  else if n ≤ 17 then (if op = 0x10 then fz w 57 0 else if op = 0x11 then fz w 51 0 else fz w 50 0)
  else if n ≤ 33 then rodsFieldsOk op w
  else if n ≤ 41 then fz w 45 0 && collAdmitted (wFld w 79 76) (wFld w 75 72) (wFld w 71 68)
  else (if op = 0x10 then fz w 55 0 && decide (wFld w 79 78 ≠ 0) else fz w 79 0)

/-- Check 6: the unit checks that the operand bits alone decide (R278, R179, R198); the code on failure. -/
def unitCheck (n op : Nat) (w : BitVec 128) : Option Nat :=
  if op ≤ 2 ∨ n < 18 ∨ 33 < n then none
  else
    let t := wFld w 3 1
    let intT := t == 2 || t == 3 || t == 4
    let infBad := decide (wFld w 3 2 = 0 ∧ wFld w 1 1 = 1)
    if 0x20 ≤ op ∧ op ≤ 0x2E then (if intT then none else some 0x0B040002)
    else if 0x30 ≤ op ∧ op ≤ 0x34 then (if 2 ≤ t then none else some 0x0B040002)
    else if op = 0x4C then
      (if wFld w 46 46 = 1 ∧ ¬(wFld w 49 47 = 5 ∨ wFld w 49 47 = 6) then some 0x0B040002 else none)
    else if op = 0x4D then (if t = 0 then none else some 0x0B040002)
    else if 0x40 ≤ op ∧ op ≤ 0x5D then (if infBad then some 0x0B040002 else none)
    else if op = 0x60 then (if 2048 < wFld w 19 4 + 1 then some 0x0B040005 else none)
    else if op = 0x70 ∨ op = 0x71 ∨ op = 0x72 then
      (if 4096 ≤ wFld w 49 37 ∧ wFld w 49 37 ≤ 4351 then none else some 0x0B040004)
    else if op = 0x78 then (if wFld w 51 31 = 0 then some 0x0B040102 else none)
    else none

/-- The first check of Table 7-3 that a word fails, as its code. -/
def decodeCheck (n : Nat) (w : BitVec 128) : Option Nat :=
  let op := wOp w
  if !parityEven w then some (0x04050100 + n)
  else if !opAssigned n op then some 0x0B050301
  else if !wsZero w then some 0x0B050303
  else if !countsNonzero w then some 0x0B050205
  else if !fieldsOk n op w then some 0x0B050302
  else unitCheck n op w

/-- May strand n take its next word now? It runs, has a word left, and its last word has issued (R210). -/
def canDecode (s : State) (n : Nat) : Bool :=
  running s && participates s n && !halted s n && decide ((strand s n).st ≠ 6) &&
  decide ((strand s n).phase = .fetch) && decide ((strand s n).index.toNat < codeCount (img s) n)

/-- Does the refusal of a word at decode set its unit's ISSUE_FAULT? Tables 3-12, 5-6 and 9-22 name every refusal of the unit's
own instructions, Table 2-8 those at issue alone; a parity mismatch refuses no instruction (log 49). -/
def decodeFault (s : State) (n op code : Nat) : State :=
  if n = 0 ∨ ¬ (unitOps n).contains op ∨ code / 2 ^ 24 ≠ 0x0B then s else issueFault s n

/-- R268: the next word is checked; a word that fails stops its strand, one that passes waits or begins. -/
def instructionDecode (s : State) (n : Nat) : State :=
  if canDecode s n then
    let x := strand s n
    let w := codeWord (img s) n x.index.toNat
    match decodeCheck n w with
    | some code => raise (decodeFault (stopStrand s n) n (wOp w) code) code .jobEnding (d4 n ++ d4 x.index.toNat)
    | none =>
      setStrand s n { x with word := w, phase := if wWen w then .waiting else .begun, st := if wWen w then 2 else 1 }
  else s

/-- R268. -/
def execInstructionDecode (n : Fin 43) (s : State) : Host.Outcome State Fault Refusal := .next (instructionDecode s n)

/-- R218: the token holds W_CNT; it is subtracted and the instruction begins. -/
def tokenWaitSatisfied (s : State) (n : Nat) : State :=
  let x := strand s n
  if running s ∧ ¬ halted s n ∧ x.phase = .waiting ∧ wWcnt x.word ≤ token s (wWtok x.word) then
    let s := setToken s (wWtok x.word) (token s (wWtok x.word) - wWcnt x.word)
    setStrand s n { x with phase := .begun, st := 1 }
  else s

/-- R218. -/
def execTokenWaitSatisfied (n : Fin 43) (s : State) : Host.Outcome State Fault Refusal := .next (tokenWaitSatisfied s n)

/-! ## Signals (R219 to R221, R445) -/

/-- A token signal of one cycle: its strand, token and increment. -/
structure Signal where
  strand : Nat
  tok    : Nat
  inc    : Nat
  deriving DecidableEq, Repr

/-- The sum of a cycle's signals to token t. -/
def sigSum (sigs : List Signal) (t : Nat) : Nat :=
  (sigs.filter fun g => g.tok == t).foldl (fun a g => a + g.inc) 0

/-- The tokens that a cycle's signals name, each once. -/
def sigTokens (sigs : List Signal) : List Nat := (sigs.map Signal.tok).eraseDups

/-- One token of the cycle: the signals are applied summed, or all lost and their strands stopped (R220, R221). -/
def applyToken (sigs : List Signal) (s : State) (t : Nat) : State :=
  let sum := token s t + sigSum sigs t
  if sum ≤ 65535 then setToken s t sum
  else
    let s := (sigs.filter fun g => g.tok == t).foldl (fun s g => stopStrand s g.strand) s
    raise s 0x0B050201 .jobEnding

/-- Every signal of a cycle (R220). -/
def applySignals (s : State) (sigs : List Signal) : State := (sigTokens sigs).foldl (applyToken sigs) s

/-- The signal of a completed word, where S_EN is set (R211, R219). -/
def wordSignal (n : Nat) (w : BitVec 128) : List Signal := if wSen w then [⟨n, wStok w, wSinc w⟩] else []

/-- A cluster's and a collective engine's instruction number counts every instruction of the strand that completes (R207,
R374; log 18). -/
def countDone (s : State) (n : Nat) : State :=
  if 18 ≤ n ∧ n ≤ 33 then
    { s with rod := { s.rod with instnum := vset s.rod.instnum (n - 18) (vget s.rod.instnum (n - 18) 0 + 1) } }
  else if 34 ≤ n ∧ n ≤ 41 then
    { s with col := { s.col with instnum := vset s.col.instnum (n - 34) (vget s.col.instnum (n - 34) 0 + 1) } }
  else s

/-- R266: the last word has completed and is not END. -/
def ranPast (s : State) (n idx : Nat) : State :=
  if idx + 1 = codeCount (img s) n then raise (stopStrand s n) 0x0B050304 .jobEnding else s

/-! ## The common opcodes (R265) -/

/-- May a common opcode complete now? The Frame's and the Edge's earlier instructions may still execute; every other unit
executes one instruction at a time (R169, R302; log 14). -/
def unitFree (s : State) (n : Nat) : Bool := decide (n ≤ 1) || idle s n

/-- R265: NOP completes in the cycle in which it begins. -/
def nopStrand (s : State) (n : Nat) : State :=
  if begun s n 0 && unitFree s n then
    let x := strand s n
    let s := countDone (setStrand s n { x with index := x.index + 1, phase := .fetch, st := 1 }) n
    let s := applySignals s (wordSignal n x.word)
    ranPast s n x.index.toNat
  else s

/-- R265. -/
def execNop (n : Fin 43) (s : State) : Host.Outcome State Fault Refusal := .next (nopStrand s n)

/-- R232: the strand halts at STEP. -/
def stepStrand (s : State) (n : Nat) : State := if begun s n 1 then setStrandSt s n 6 else s

/-- R232. -/
def execStepMarker (n : Fin 43) (s : State) : Host.Outcome State Fault Refusal := .next (stepStrand s n)

/-- R265: END completes in the cycle in which it begins; the strand issues nothing further. -/
def endStrand (s : State) (n : Nat) : State :=
  if begun s n 2 && unitFree s n then
    let x := strand s n
    applySignals (countDone (setStrandSt s n 7) n) (wordSignal n x.word)
  else s

/-- R265. -/
def execEndStrand (n : Fin 43) (s : State) : Host.Outcome State Fault Refusal := .next (endStrand s n)

end Sys2Proof.Machine
end

