-- ==== Sys2Proof/Machine/Links.lean ====
section
/-!
DEFINITION. The lead plan, the routing section of a loaded program, sending on a lead, the replace request and the keys of a
job's leads (spec/09 R326, R336 to R339, R343 to R349; spec/12 R461, R462; spec/15 R570, Table 15-8).
-/
namespace Sys2Proof.Machine

/-! ## The lead plan (Tables 9-1, 9-15) -/

/-- lanes_of of R330; none for a reserved code. -/
def lanesOf (code : Nat) : Option Nat := ([0, 2, 4, 6, 8, 12, 16] : List Nat)[code]?

/-- LANES of LEAD_PLAN[i] in use, as a lane count. -/
def planLanes (s : State) (i : Nat) : Nat := (lanesOf (field (vget s.lead.planUse i 0).toNat 3 0)).getD 0
/-- FIRST_LANE in use. -/
def planFirst (s : State) (i : Nat) : Nat := field (vget s.lead.planUse i 0).toNat 8 4
/-- KIND in use: true for an optional lead. -/
def planOptional (s : State) (i : Nat) : Bool := bitOf (vget s.lead.planUse i 0).toNat 9
/-- EXPECT_PORT in use. -/
def planPort (s : State) (i : Nat) : Nat := field (vget s.lead.planUse i 0).toNat 14 12
/-- EXPECT_ID in use. -/
def planExpect (s : State) (i : Nat) : Nat := (vget s.lead.expectUse i 0).toNat
/-- NONE_ID. -/
def noneId : Nat := 0xFFFFFF
/-- The lanes of lead i, as a mask. -/
def planMask (s : State) (i : Nat) : Nat := (2 ^ planLanes s i - 1) * 2 ^ planFirst s i
/-- The device's own ID in use. -/
def ownId (s : State) : Nat := s.lead.activeId.toNat
/-- The ID of lead i's peer. -/
def peerId (s : State) (i : Nat) : Nat := ((vget s.lead.peer i none).map fun p => p.id.toNat).getD noneId
/-- The leads, in ascending order. -/
def allLeads : List Nat := List.range 8

/-! ## The routing section (Tables 9-7, 9-8, 9-18, 9-19) -/

/-- A field of the routing section, zero where it is absent. -/
def rtFld (im : Bytes) (off len : Nat) : Nat := if secSize im 5 = 0 then 0 else fld im (secOff im 5 + off) len
/-- DIRECT_BASE. -/
def directBase (im : Bytes) : Nat := rtFld im 0x00 4
/-- DIRECT_COUNT. -/
def directCount (im : Bytes) : Nat := rtFld im 0x04 4
/-- PREFIX_COUNT. -/
def prefixCount (im : Bytes) : Nat := rtFld im 0x08 2
/-- PLAN_COUNT. -/
def planCount (im : Bytes) : Nat := rtFld im 0x0A 2
/-- Offset of the prefix array. -/
def prefixOff (im : Bytes) : Nat := 64 + roundUpTo (8 * directCount im) 64
/-- Offset of the plans. -/
def plansOff (im : Bytes) : Nat := prefixOff im + roundUpTo (8 * prefixCount im) 64
/-- Direct entry i, zero beyond the count (R347). -/
def directEntry (im : Bytes) (i : Nat) : Nat := if i < directCount im then rtFld im (64 + 8 * i) 8 else 0
/-- Prefix entry j, zero beyond the count (R347). -/
def prefixEntry (im : Bytes) (j : Nat) : Nat := if j < prefixCount im then rtFld im (prefixOff im + 8 * j) 8 else 0
/-- A field of plan p. -/
def planFld (im : Bytes) (p off len : Nat) : Nat := rtFld im (plansOff im + 64 * p + off) len
/-- MEMBERS of plan p. -/
def plMembers (im : Bytes) (p : Nat) : Nat := planFld im p 0x00 4
/-- RANK. -/
def plRank (im : Bytes) (p : Nat) : Nat := planFld im p 0x04 4
/-- ROOT_ID. -/
def plRoot (im : Bytes) (p : Nat) : Nat := planFld im p 0x08 4
/-- Is plan p a ring? -/
def plRing (im : Bytes) (p : Nat) : Bool := planFld im p 0x0C 1 == 1
/-- UP. -/
def plUp (im : Bytes) (p : Nat) : Nat := planFld im p 0x0D 1
/-- DOWN. -/
def plDown (im : Bytes) (p : Nat) : Nat := planFld im p 0x0E 1
/-- PREV. -/
def plPrev (im : Bytes) (p : Nat) : Nat := planFld im p 0x0F 1
/-- The leads to the children of a tree plan. -/
def downLeads (im : Bytes) (p : Nat) : List Nat := allLeads.filter fun i => bitOf (plDown im p) i
/-- The leads that a plan names. -/
def planLeads (im : Bytes) (p : Nat) : List Nat :=
  allLeads.filter fun i => plUp im p == i || plPrev im p == i || bitOf (plDown im p) i

/-- VALID, LEAD, ALT_VALID, ALT_LEAD and HOPS of a routing entry. -/
def reValid (e : Nat) : Bool := bitOf e 63
/-- LEAD. -/
def reLead (e : Nat) : Nat := field e 62 60
/-- ALT_VALID. -/
def reAltValid (e : Nat) : Bool := bitOf e 59
/-- ALT_LEAD. -/
def reAlt (e : Nat) : Nat := field e 58 56
/-- HOPS. -/
def reHops (e : Nat) : Nat := field e 55 40

/-- Every valid routing entry of the loaded program. -/
def routeEntries (im : Bytes) : List Nat :=
  ((List.range (directCount im)).map (directEntry im) ++ (List.range (prefixCount im)).map (prefixEntry im)).filter reValid

/-- Lead i is up. -/
def leadUp (s : State) (i : Nat) : Bool := (leadAt s i).up

/-- R343: does the loaded program's job use lead i? -/
def jobUses (s : State) (i : Nat) : Bool :=
  loaded s &&
    ((List.range (planCount (img s))).any (fun p => (planLeads (img s) p).contains i) ||
     (routeEntries (img s)).any fun e => reLead e == i && !(reAltValid e && leadUp s (reAlt e)))

/-- The job's frames travel on lead i (R336): a plan names it, or a valid entry does, as LEAD or ALT_LEAD (log 51). -/
def jobNames (s : State) (i : Nat) : Bool :=
  loaded s &&
    ((List.range (planCount (img s))).any (fun p => (planLeads (img s) p).contains i) ||
     (routeEntries (img s)).any fun e => reLead e == i || (reAltValid e && reAlt e == i))

/-- The up leads toward a device of the job. -/
def jobLeads (s : State) : List Nat := allLeads.filter fun i => leadUp s i && jobNames s i

/-! ## Sending (R336, R338, R339) -/

/-- The class of a frame (Table 9-5). -/
def bodyClass : TxBody → Nat
  | .data _ _ => 2
  | .coll _ _ _ _ => 1
  | .abort _ _ _ => 0
  | .link _ => 0
  | _ => 3

/-- May the frame travel outside a job (R336): is it LINK or MGMT? -/
def outsideJob : TxBody → Bool
  | .data _ _ => false
  | .coll _ _ _ _ => false
  | .abort _ _ _ => false
  | _ => true

/-- A frame leaves with the next SEQ and takes a credit of its class; VC1 and VC2 take turns (R339). -/
def txFrame (x : Lead) (b : TxBody) : Lead :=
  let c := bodyClass b
  { x with tx := x.tx + 1, sent := x.sent ++ [(x.tx, c, b)], credit := vset x.credit c (vget x.credit c 0 - 1),
           turn := if c = 1 then true else if c = 2 then false else x.turn }

/-- The class that the sender serves next among the waiting frames that hold a credit: VC0, VC3, then VC1 and VC2 in
alternation (R339). -/
def nextClass (x : Lead) : Option Nat :=
  (if x.turn then [0, 3, 2, 1] else [0, 3, 1, 2]).find? fun c =>
    decide (0 < vget x.credit c 0) && x.waiting.any fun w => w.1 == c

/-- The first waiting frame of a class, and the others. -/
def takeClass (c : Nat) : List (Nat × TxBody) → Option TxBody × List (Nat × TxBody)
  | [] => (none, [])
  | (k, b) :: ws => if k = c then (some b, ws) else
    let (r, rest) := takeClass c ws
    (r, (k, b) :: rest)

/-- Waiting frames are sent while credits last. -/
def pump : (fuel : Nat) → Lead → Lead
  | 0, x => x
  | k + 1, x =>
    match nextClass x with
    | none => x
    | some c =>
      match takeClass c x.waiting with
      | (some b, ws) => pump k (txFrame { x with waiting := ws } b)
      | (none, _) => x

/-- A lead's waiting frames are served unless it is being re-laned (R341). -/
def serveLead (x : Lead) : Lead := if x.relaning || !x.up then x else pump x.waiting.length x

/-- A frame for lead i: dropped where the lead is not up, else queued behind its class and sent as credits allow. -/
def leadSend (s : State) (i : Nat) (b : TxBody) : State :=
  let x := leadAt s i
  if x.up then setLead s i (serveLead { x with waiting := x.waiting ++ [(bodyClass b, b)] }) else s

/-- A frame for each of a list of leads. -/
def leadSendAll (s : State) (is : List Nat) (b : TxBody) : State := is.foldl (fun s i => leadSend s i b) s

/-- The leads that are keyed for the job. -/
def keyedLeads (s : State) : List Nat := allLeads.filter fun i => (leadAt s i).keyed && (leadAt s i).up

/-! ## Receiving (R338, R339) -/

/-- May frame `seq` be accepted (R338): while a frame has been NAKed that frame alone, else any that has not come before? -/
def admits (x : Lead) (seq : BitVec 64) : Bool :=
  match x.nak with
  | some (q, _) => seq == q
  | none => decide (x.rx ≤ seq)

/-- Frame `seq` has been accepted on lead i. -/
def leadRecv (s : State) (i : Nat) (seq : BitVec 64) : State :=
  let x := leadAt s i
  setLead s i { x with rx := seq + 1, nak := none }

/-- `n` buffers of a class are free again on lead i: their credits go back (R339). -/
def freeBuffers (s : State) (i c n : Nat) : State := leadSend s i (.link (.credit c n))

/-- What an accepted frame of a class other than LINK's does, acknowledged; its buffer is not free yet (R338). -/
def onKept (s : State) (a : Arrival) (f : State → State) : State :=
  let i := a.lead.val
  if leadUp s i && admits (leadAt s i) a.seq then f (leadSend (leadRecv s i a.seq) i (.link (.ack a.seq))) else s

/-- What an accepted frame of class c does, acknowledged, its buffer free again (R338, R339). -/
def onLead (s : State) (a : Arrival) (c : Nat) (f : State → State) : State :=
  onKept s a fun s => f (freeBuffers s a.lead.val c 1)

/-- A LINK frame's buffer is free; its credits go back eight at a time, and it is not acknowledged by a frame of its own
(log 19). -/
def linkFreed (s : State) (i : Nat) : State :=
  let x := leadAt s i
  if x.owed < 7 then setLead s i { x with owed := x.owed + 1 } else freeBuffers (setLead s i { x with owed := 0 }) i 0 8

/-- What an accepted LINK frame does (R338, R339). -/
def onLink (s : State) (a : Arrival) (f : State → State) : State :=
  let i := a.lead.val
  if leadUp s i && admits (leadAt s i) a.seq then f (linkFreed (leadRecv s i a.seq) i) else s

/-! ## Keys (R570, Table 15-8) -/

/-- KDF of R570, L bits. -/
def kdf (key label ctx : Bytes) (l : Nat) : Bytes :=
  ((List.range (ceilDiv l 256)).flatMap fun i => hmac key (natBE 4 (i + 1) ++ label ++ [0] ++ ctx ++ natBE 4 l)).take (l / 8)

/-- The bytes of a master key. -/
def masterBytes (k : JobKey) : Bytes := natLE 32 k.master.toNat

/-- The round-up key. -/
def roundupKey (k : JobKey) : Bytes := kdf (masterBytes k) (ascii "ROUNDUP") (natLE 8 k.jobId.toNat) 256

/-- The first 16 bytes of HMAC-SHA-256 under the round-up key. -/
def ruAuth (k : JobKey) (m : Bytes) : BitVec 128 := BitVec.ofNat 128 (leNat ((hmac (roundupKey k) m).take 16))

/-- The key of lead i for an arm. -/
def leadKey (s : State) (k : JobKey) (armId : Word) (i : Nat) : BitVec 256 :=
  let a := ownId s
  let b := peerId s i
  BitVec.ofNat 256 (leNat (kdf (masterBytes k) (ascii "LEAD")
    (natLE 8 k.jobId.toNat ++ natLE 4 armId.toNat ++ natLE 4 (min a b) ++ natLE 4 (max a b)) 256))

/-- The checkpoint key of an epoch. -/
def ckptKey (k : JobKey) (epoch : Word) : Bytes :=
  kdf (masterBytes k) (ascii "CKPT") (natLE 8 k.jobId.toNat ++ natLE 4 epoch.toNat) 256

/-- The page key of a generation: its position and marker, under the checkpoint key of an epoch. -/
def pageKey (k : JobKey) (epoch : Word) (position marker : Nat) : Bytes :=
  kdf (ckptKey k epoch) (ascii "PAGE") (natLE 8 k.jobId.toNat ++ natLE 4 position ++ natLE 8 marker) 256

/-- The nonce of a checkpoint page (R571). -/
def pageNonce (shard page : Nat) : Bytes := natLE 4 shard ++ natLE 4 page ++ zeros 4

/-- The additional data of a checkpoint page (R571). -/
def pageAad (k : JobKey) (position marker shard page : Nat) : Bytes :=
  natLE 8 k.jobId.toNat ++ natLE 4 position ++ natLE 8 marker ++ natLE 4 shard ++ natLE 4 page

/-- The lead keys are destroyed, and the leads return to untagged LINK and MGMT frames (R336). -/
def dropLeadKeys (s : State) : State :=
  { s with lead := { s.lead with lead := s.lead.lead.map fun x =>
      { x with keyed := false, key := none,
               sent := x.sent.filter (fun f => outsideJob f.2.2), waiting := x.waiting.filter (fun w => outsideJob w.2) } } }

/-! ## DEGRADED and the replace request (R461, R462) -/

/-- A reason to replace the device: DEGRADED with the replace request, and 0x0D01_0002 where the reason is new. -/
def degrade (s : State) (fresh : Bool) : State :=
  let s := sysChange s s.sys.st true s.sys.drill true
  if fresh then raise s 0x0D010002 .event else s

/-- A Tether link is lost or not up (R397, R461). -/
def degradeTether (s : State) : State :=
  degrade { s with knl := { s.knl with repTether := true } } (!s.knl.repTether)

/-- An optional lead is lost (R343). -/
def degradeLead (s : State) : State :=
  degrade { s with knl := { s.knl with repLead := true } } (!s.knl.repLead)

/-- The device is withdrawn, in its record or in its state (R470, R471). -/
def isWithdrawn (s : State) : Bool := s.knl.withdrawn || decide (s.sys.st = .withdrawn)

/-- KNL_REPLACE (Table 12-21). -/
def replaceWord (s : State) : Nat :=
  packFields [(b2n s.knl.repLead, 5), (b2n s.knl.repTether, 4), (b2n (decide (livePcs s < 256)), 3), (b2n s.frm.noWidth, 2),
    (b2n s.frm.retired.isSome, 1), (b2n (isWithdrawn s), 0)]

/-! ## Time differences (R376) -/

/-- The signed 48-bit difference. -/
def diff48 (a b : BitVec 48) : Int := toSigned 48 (a - b).toNat

end Sys2Proof.Machine
end

