-- ==== Sys2Proof/Machine/RegRead.lean ====
section
/-!
DEFINITION. What every register reads: the register tables of every chapter (spec/00, 02, 03, 05, 06, 08 to 16), and what a
read captures.
-/
namespace Sys2Proof.Machine

/-- A number's low and high words. -/
def lo32 (x : Nat) : Nat := x % 2 ^ 32
/-- Bits [63:32]. -/
def hi32 (x : Nat) : Nat := x / 2 ^ 32 % 2 ^ 32

/-- Element i of a bank of registers at `base`, `n` of them, 4 bytes apart. -/
def bank (off base n : Nat) : Option Nat :=
  if base ≤ off ∧ off < base + 4 * n ∧ off % 4 = 0 then some ((off - base) / 4) else none

/-- The first bank that holds an offset. -/
def banks (off : Nat) : List (Nat × Nat × (Nat → Nat)) → Option Nat
  | [] => none
  | (base, n, f) :: rest =>
    match bank off base n with
    | some i => some (f i)
    | none => banks off rest

/-- Resets counted in the escalation window (R459, R470): Shepherd time is in microseconds. -/
def windowResets (s : State) : List (BitVec 64) :=
  s.knl.resets.filter fun t => decide (s.shp.time.toNat < t.toNat + max 1 (min 168 s.knl.windowH.toNat) * 3600000000)

/-- KNL registers (Tables 12-14 to 12-24). -/
def knlReg (s : State) (off : Nat) : Option Nat :=
  let k := s.knl
  match off with
  | 0x00 => some (packFields [(k.d.toNat, 24), (Nat.log2 k.n.toNat, 20), (k.band.toNat, 16), (k.temp.toNat, 8), 
      (b2n k.classify, 3), (b2n k.waitCond, 2), (b2n (decide (s.sys.st = .faulted)), 1), (b2n k.resetPending, 0)])
  | 0x04 => some k.cause.toNat
  | 0x08 => some k.lastCode.toNat
  | 0x0C => some k.preReset.toNat
  | 0x10 => some k.hangCfg.toNat
  | 0x14 => some k.rcDone.toNat
  | 0x18 => some k.rcMismatch.toNat
  | 0x1C => some k.absorbed.toNat
  | 0x20 => some (lo32 k.detMarker.toNat)
  | 0x24 => some (hi32 k.detMarker.toNat)
  | 0x28 => some (lo32 k.clean.toNat)
  | 0x2C => some (hi32 k.clean.toNat)
  | 0x30 => some k.detOpnum.toNat
  | 0x34 => some (packFields [(k.detVerdict.toNat, 28), (k.detTile.toNat, 0)])
  | 0x38 => some (packFields [(k.detCol.toNat, 16), (k.detRow.toNat, 0)])
  | 0x3C => some (packFields [(b2n (isWithdrawn s), 31), (min 8 (windowResets s).length, 16), (k.windowH.toNat, 8), (k.limit.toNat, 0)])
  | 0x40 => some (replaceWord s)
  | 0x44 => some (packFields [(b2n (k.prcSample && s.sec.samplePermit), 31), (b2n s.shp.held.isSome, 30), (k.prcLine.toNat, 0)])
  | 0x48 => some 0
  | 0x4C => some k.event.toNat
  | _ => none

/-- FRM_SLOT (Table 2-13). Once a drained slot is Empty, SEQF, Q, NONFINITE and STEPPED keep the drained tile's values until the
next fill (DESIGN CHOICE, log 34). -/
def slotWord (k : Slot) : Nat :=
  packFields [(b2n k.seqf, 26), (k.q.toNat, 16), (k.tag.toNat, 8), (b2n k.nonfinite, 3), (b2n k.stepped, 2), (k.st.toNat, 0)]

/-- FRM registers (Tables 2-6 to 2-14); R578 hides the LAST registers. -/
def frmReg (s : State) (off : Nat) : Option Nat :=
  let f := s.frm
  let shown := fun (x : Nat) => some (if s.sec.quiet && loaded s then 0 else x)
  match off with
  | 0x00 => some (frmStatus s)
  | 0x04 => some (match f.ops with
      | op :: _ => op.num.toNat
      | [] => if strandBusy s 0 then f.issued.toNat else f.opnum.toNat)
  | 0x08 => some f.event.toNat
  | 0x0C => some f.stepbacks.toNat
  | 0x20 => shown (lo32 f.last.cycles.toNat)
  | 0x24 => shown (hi32 f.last.cycles.toNat)
  | 0x28 => shown (packFields [(f.last.strips.toNat, 16), (f.last.util.toNat, 0)])
  | 0x2C => shown f.last.stepbacks.toNat
  | 0x30 => shown f.last.feedWait.toNat
  | 0x34 => shown f.last.seatWait.toNat
  | 0x38 => shown f.last.carryWait.toNat
  | 0x3C => shown f.last.throttle.toNat
  | _ => banks off [(0x40, 16, fun i => slotWord (slot s i)),
      (0x80, 16, fun i => packFields [(b2n (f.retired.any fun r => r.val == i), 16), ((vget f.rowFail i 0).toNat, 8),
        ((vget f.colFail i 0).toNat, 0)])]

/-- EDG registers (Tables 3-10 to 3-13). While one drain is in its tail and the next has begun, SLOT, FILL_TAG and INST_NUM are
the older one's (DESIGN CHOICE, log 42). -/
def edgReg (s : State) (off : Nat) : Option Nat :=
  let e := s.edg
  match off with
  | 0x00 =>
    let live := e.ops.filter fun op => !op.dead
    let drains := live.filter fun op => !op.sweep
    let w := ((drains.head?).map EdgeOp.word).getD 0
    let sweepBegun := unitBegun s 1 && decide (wOp (strand s 1).word = 0x11) && e.outWait
    some (packFields [(wFld w 75 68, 16), (wFld w 79 76, 8), (b2n e.throttle, 5),
      (b2n (live.any fun op => op.phase == .slotWait), 4), (b2n e.outWait, 3), (b2n (live.any EdgeOp.sweep || sweepBegun), 2),
      (b2n (!drains.isEmpty), 1), (b2n (strandBusy s 1), 0)])
  | 0x04 => some (match e.ops with
      | op :: _ => op.num.toNat
      | [] => if strandBusy s 1 then e.issued.toNat else e.instnum.toNat)
  | 0x08 => some e.event.toNat
  | 0x0C => some e.jobSat.toNat
  | 0x10 => some e.jobNonfinite.toNat
  | 0x14 => some e.jobRange.toNat
  | _ => none

/-- A mask of the strands `base` onward that are busy. -/
def busyMask (s : State) (base n : Nat) : Nat :=
  (List.range n).foldl (fun a i => a + b2n (strandBusy s (base + i)) * 2 ^ i) 0

/-- An instruction number: the present one while busy, else the last completed (R207, R374). -/
def numNow (s : State) (n : Nat) (x : Word) : Nat := if strandBusy s n then (x + 1).toNat else x.toNat

/-- ROD registers (Tables 5-5 to 5-9). -/
def rodReg (s : State) (off : Nat) : Option Nat :=
  let r := s.rod
  match off with
  | 0x00 => some (packFields [(r.throttle.toNat, 16), (busyMask s 18 16, 0)])
  | 0x04 => some r.event.toNat
  | 0x08 => some r.jobNonfinite.toNat
  | 0x0C => some (field s.shp.on.toNat 29 22)
  | _ => banks off [(0x40, 16, fun c => numNow s (18 + c) (vget r.instnum c 0))]

/-- STR registers (Tables 6-11 to 6-19). -/
def strReg (s : State) (off : Nat) : Option Nat :=
  let r := s.str
  match off with
  | 0x00 => some (strStatus s)
  | 0x04 => some r.loadResult.toNat
  | 0x08 => some r.loadDetail.toNat
  | 0x0C => some r.gen.toNat
  | 0x10 => some (lo32 r.marker.toNat)
  | 0x14 => some (hi32 r.marker.toNat)
  | 0x18 => some 0
  | 0x1C => some r.disable.toNat
  | 0x20 => some r.disabled.toNat
  | _ => banks off [(0x100, 43, fun n => packFields [((strand s n).index.toNat, 12), ((strandState s n).toNat, 0)]),
      (0x200, 43, fun n => packFields [(wWtok (strand s n).word, 16), (wWcnt (strand s n).word, 0)]),
      (0x1000, 1024, fun i => if loaded s then packFields [(tokEntry (img s) i / 65536 % 256, 16), (token s i, 0)] else 0)]

/-- MEM registers (Tables 8-4 to 8-8). -/
def memReg (s : State) (off : Nat) : Option Nat :=
  let m := s.mem
  match off with
  | 0x00 => some (b2n m.extRate)
  | 0x04 => some (memStatus s)
  | 0x08 => some m.event.toNat
  | 0x30 => some m.cntCorr.toNat
  | 0x34 => some m.cntOdecc.toNat
  | 0x38 => some m.cntCheck.toNat
  | 0x3C => some m.cntRetrain.toNat
  | _ => banks off [(0x10, 8, fun i => (vget m.live i 0).toNat)]

/-- BRD registers (Tables 8-9 to 8-11). -/
def brdReg (s : State) (off : Nat) : Option Nat :=
  match off with
  | 0x00 => some (packFields [(b2n s.brd.scrub, 16), (s.brd.tposeReq.toNat, 0)])
  | 0x04 => some s.brd.event.toNat
  | 0x08 => some s.brd.cntCorr.toNat
  | _ => none

/-- LEAD_LINK (Table 9-16). -/
def linkWord (s : State) (i : Nat) : Nat :=
  let x := leadAt s i
  packFields [(x.delay.toNat, 16), (onesIn x.lanes.toNat 0 32, 8), (b2n x.keyed, 1), (b2n x.up, 0)]

/-- LEAD_PEER (Table 9-16). -/
def peerWord (s : State) (i : Nat) : Nat :=
  match vget s.lead.peer i none with
  | some p => if s.lead.discovered then packFields [((vget s.lead.found i 0).toNat, 28), (p.port.toNat, 24), (p.id.toNat, 0)] else noneId
  | none => packFields [((vget s.lead.found i 0).toNat, 28), (noneId, 0)]

/-- LEAD registers (Tables 9-12 to 9-17, 9-19). -/
def leadReg (s : State) (off : Nat) : Option Nat :=
  let l := s.lead
  match off with
  | 0x00 => some l.selfId.toNat
  | 0x04 => some l.activeId.toNat
  | 0x08 => some (leadCheck s)
  | 0x0C => some l.event.toNat
  | 0xE0 => some l.cntRelane.toNat
  | _ => banks off [(0x40, 8, fun i => (vget l.plan i 0).toNat), (0x60, 8, fun i => (vget l.expect i 0).toNat),
      (0x80, 8, peerWord s), (0xA0, 8, linkWord s), (0xC0, 8, fun i => (vget l.cntRetry i 0).toNat),
      (0x8000, 8192, fun k => prefixEntry (img s) (k / 2) / 2 ^ (32 * (k % 2)) % 2 ^ 32)]

/-- Does an engine wait for a neighbour's frame (R357)? -/
def collWaits (op : CollOp) : Bool := !op.dead && !op.done && (!op.headers.isEmpty || !op.missing.isEmpty || op.awaitDown)

/-- COL registers (Tables 9-20 to 9-24). -/
def colReg (s : State) (off : Nat) : Option Nat :=
  let c := s.col
  match off with
  | 0x00 => some (packFields [((List.range 8).foldl (fun a e => a + b2n ((vget c.eng e none).any collWaits) * 2 ^ e) 0, 16),
      (busyMask s 34 8, 0)])
  | 0x04 => some c.timeoutUs.toNat
  | 0x08 => some c.event.toNat
  | 0x0C => some (packFields [(c.lastHops.toNat, 24), (c.lastOrigin.toNat, 0)])
  | _ => banks off [(0x40, 8, fun e => numNow s (34 + e) (vget c.instnum e 0))]

/-- TIM registers (Tables 10-3 to 10-8). -/
def timReg (s : State) (off : Nat) : Option Nat :=
  let t := s.tim
  match off with
  | 0x00 => some (timStatus s)
  | 0x04 => some (lo32 t.counter.toNat)
  | 0x08 => some (hi32 t.capture.toNat)
  | 0x0C => some (packFields [(t.rackBits.toNat, 8), (b2n t.forceLead, 0)])
  | 0x10 => some (ofSigned 16 t.slew)
  | 0x14 => some (ofSigned 32 (max (-(2 ^ 31)) (min (2 ^ 31 - 1) t.err)))
  | 0x18 => some (packFields [(t.hops.toNat, 24), (t.source.toNat, 0)])
  | 0x1C => some t.event.toNat
  | 0x20 | 0x24 => some 0
  | _ => none

/-- TET registers (Tables 11-7 to 11-13). -/
def tetReg (s : State) (off : Nat) : Option Nat :=
  let t := s.tet
  let job := if loaded s then s.str.job.toNat else 0
  match off with
  | 0x00 => some (tetStatus s)
  | 0x04 => some (tetRu s)
  | 0x08 => some t.timeoutUs.toNat
  | 0x0C => some t.armId.toNat
  | 0x10 => some (lo32 job)
  | 0x14 => some (hi32 job)
  | 0x18 => some (lo32 t.launch.toNat)
  | 0x1C => some (hi32 t.launch.toNat)
  | 0x20 => some t.event.toNat
  | 0x40 => some (linkAt s 0).retry.toNat
  | 0x44 => some (linkAt s 1).retry.toNat
  | _ => none

/-- PHASE of SNP_STATUS. -/
def snpPhase (s : State) : Nat :=
  match s.snp.gen <|> s.snp.older.getLast? with
  | some g => match g.phase with
    | .copying => 1
    | .awaitRelay => 2
    | .manifestSent => 3
  | none => if s.snp.restore.isSome then 4 else 0

/-- SNP registers (Tables 13-8 to 13-15). -/
def snpReg (s : State) (off : Nat) : Option Nat :=
  let n := s.snp
  match off with
  | 0x00 => some (packFields [(b2n (decide (s.sys.st = .running) && n.drillEnable != 0), 8), (b2n n.restored, 7),
      (b2n n.mirror.isSome, 6), (b2n n.stall, 5), (b2n n.hold, 4), (snpPhase s, 0)])
  | 0x04 => some (lo32 n.genMarker.toNat)
  | 0x08 => some (hi32 n.genMarker.toNat)
  | 0x0C => some (lo32 n.durable.toNat)
  | 0x10 => some (hi32 n.durable.toNat)
  | 0x14 => some ((n.gen.map fun g => g.saved.length).getD 0)
  | 0x18 => some n.peak.toNat
  | 0x1C => some n.cntStall.toNat
  | 0x20 => some n.cntHold.toNat
  | 0x24 => some (packFields [(b2n n.partnerValid, 3), (n.partnerLead.toNat, 0)])
  | 0x28 => some n.timeoutS.toNat
  | 0x2C => some n.event.toNat
  | 0x30 => some (packFields [(n.drillPeriod.toNat, 8), (n.drillEnable.toNat, 0)])
  | 0x34 => some (packFields [(if n.drillValid then min 0xFFFF ((s.shp.time.toNat - n.drillTime.toNat) / 3600000000) else 0, 16),
      (b2n n.drillValid, 8), (n.drillKind.toNat, 0)])
  | 0x38 => some n.cntDrill.toNat
  | _ => none

/-- Entry c of the table in use (R600). -/
def costEntry (s : State) (c : Nat) : Word :=
  let u := vget s.gov.ucal c 0
  if s.gov.ucalEnable && u != 0 then u else Config.factory c

/-- GOV registers (Tables 16-4 to 16-9); the pool reads in whole microjoules. -/
def govReg (s : State) (off : Nat) : Option Nat :=
  let g := s.gov
  match off with
  | 0x00 => some (packFields [(s.knl.band.toNat, 16), (s.knl.d.toNat, 12), (g.measBand.toNat, 8), (b2n g.measValid, 7),
      (b2n g.measuring, 6), (b2n g.ucalEnable, 5), (b2n g.clamp, 4), (b2n g.short, 3)])
  | 0x04 => some g.budget.toNat
  | 0x08 => some g.derate.toNat
  | 0x0C => some (ofSigned 32 (g.pool / 256000))
  | 0x10 => some (packFields [(g.driftCount.toNat, 16), (g.driftRatio.toNat, 0)])
  | 0x14 => some g.cntShort.toNat
  | 0x18 => some 0
  | 0x1C => some (b2n g.ucalEnable)
  | 0x20 => some g.event.toNat
  | _ => banks off [(0x100, 20, fun c => (costEntry s c).toNat), (0x180, 20, fun c => (vget g.meas c 0).toNat),
      (0x200, 20, fun c => (vget g.ucal c 0).toNat)]

/-- The SHA-256 of the owner's key, zero before enrolment, and of the identity key (R583). -/
def ownerDigest (s : State) : Bytes := (s.sec.owner.map fun k => sha256 (natLE 64 k.toNat)).getD (zeros 32)
/-- SEC_DEVICE_DIGEST. -/
def deviceDigest : Bytes := sha256 (natLE 64 Config.identityKey.toNat)

/-- SEC_POLICY (Table 15-12). -/
def policyWord (s : State) : Nat :=
  packFields [(b2n s.sec.quiet, 10), (b2n s.sec.telemCoarse, 9), (b2n s.sec.samplePermit, 8), (1, 7), (s.sec.lock.toNat, 0)]

/-- SEC registers (Tables 15-11 to 15-16). -/
def secReg (s : State) (off : Nat) : Option Nat :=
  let c := s.sec
  match off with
  | 0x00 => some (packFields [(perLink s (fun l => l.shp.isOpen), 8), (perLink s (fun l => l.die.isOpen), 6),
      (b2n c.eph.isSome, 3), (b2n c.debug, 2), (b2n c.job.isSome, 1), (b2n c.owner.isSome, 0)])
  | 0x04 => some (policyWord s)
  | 0x60 => some c.opcertMin.toNat
  | 0x70 => some ((c.job.map fun j => j.epochW.toNat).getD 0)
  | 0x74 => some ((c.job.map fun j => j.epochR.toNat).getD 0)
  | 0x78 => some c.event.toNat
  | _ => banks off [(0x10, 4, fun k => c.challenge.toNat / 2 ^ (32 * k) % 2 ^ 32), (0x20, 8, fun k => fld (ownerDigest s) (4 * k) 4),
      (0x40, 8, fun k => fld deviceDigest (4 * k) 4), (0x64, 3, fun k => (vget c.svn k 0).toNat)]

/-- The 64 bytes of a Tally record (Table 14-5). -/
def recBytes (r : TRec) : Bytes :=
  let b := natLE 8 r.seq.toNat ++ natLE 6 r.time.toNat ++ natLE 2 r.flags.toNat ++ [r.unit] ++ zeros 3 ++ natLE 4 r.code.toNat ++
    slice r.detail 0 24 ++ [r.temp] ++ zeros 11
  b ++ natLE 4 (crc32c b).toNat

/-- FIRST: the sequence number in slot 0. -/
def tallyFirst (s : State) : Nat := ((s.tly.store.head?).map fun r => r.seq.toNat).getD 0

/-- The TALLY registers from 0x1000 of a view (Tables 14-14 to 14-16). -/
def tallyView (s : State) (v : TView) (off : Nat) : Option Nat :=
  let t := s.tly
  match off with
  | 0x1000 => some v.cursor.toNat
  | 0x1004 => some (lo32 (tallyHead s))
  | 0x1008 => some (hi32 v.head.toNat)
  | 0x100C => some (lo32 v.first.toNat)
  | 0x1010 => some (hi32 v.first.toNat)
  | 0x1014 => some v.count.toNat
  | 0x1018 => some t.overflow.toNat
  | 0x101C => some t.dropped.toNat
  | 0x1020 => some (lo32 t.next.toNat)
  | 0x1024 => some (hi32 v.next.toNat)
  | 0x1028 => some (packFields [(b2n t.full, 18), (b2n t.flushing, 17), (t.buffer.length, 0)])
  | 0x102C => some 0
  | _ =>
    match bank off 0 1024 with
    | some i => some ((t.store[v.cursor.toNat + i / 16]?.map fun r => fld (recBytes r) (4 * (i % 16)) 4).getD 0)
    | none => none

/-- SHP_STRAP (Table 14-9). -/
def strapErr (s : State) : Bool := s.shp.leashEn && decide (2 ≤ s.shp.pos.toNat)
/-- R516: eligible for the leash. -/
def eligible (s : State) : Bool := s.shp.leashEn && decide (s.shp.pos.toNat ≤ 1)

/-- STATE of SHP_LEASH. -/
def leashCode : Leash → Nat
  | .ineligible => 0
  | .standby => 1
  | .watch => 2
  | .claiming => 3
  | .active => 4

/-- SHP registers at offsets of their block (Tables 14-8 to 14-13; R542, R549; spec/15 SEC at 0xA000). -/
def shpReg (s : State) (off : Nat) : Option Nat :=
  let h := s.shp
  match off with
  | 0x00 => some (mirrorWord s)
  | 0x04 => some (packFields [(b2n h.leashEn, 4), (b2n (eligible s), 3), (b2n (strapErr s), 2), (h.pos.toNat, 0)])
  | 0x08 => some (packFields [((h.lastReclaim.map fun t => min 0xFFFF ((h.time.toNat - t.toNat) / 1000000)).getD 0xFFFF, 16),
      (leashCode h.leash, 8), (b2n (decide (0 < h.peerOk)), 1), (b2n (h.leash == .active), 0)])
  | 0x0C => some h.epoch.toNat
  | 0x10 => some (lo32 h.time.toNat)
  | 0x14 => some (hi32 h.timeCap.toNat)
  | 0x18 => some h.event.toNat
  | 0x1C => some 0
  | 0x20 => some (lo32 h.on.toNat)
  | 0x24 => some (hi32 h.on.toNat)
  | 0x28 => some (packFields [(b2n h.held.isSome, 30), ((h.held.map List.length).getD 0, 0)])
  | _ =>
    if 0xA000 ≤ off then secReg s (off - 0xA000)
    else if 0x9000 ≤ off then tallyView s s.tly.side (off - 0x9000 + 0x1000)
    else if 0x8000 ≤ off then tallyView s s.tly.side (off - 0x8000)
    else banks off [(0x40, 16, fun i => packFields [(h.sample.toNat, 24), ((vget h.telem i 0).toNat, 0)]),
      (0x1000, 8, fun k => (h.tech.getD k 0).toNat), (0x6000, 2048, fun k => fld (h.held.getD []) (4 * k) 4)]

/-- The block of an address (Table 0-6), and the offset in it. -/
def dieReg (s : State) (addr : Nat) : Option Nat :=
  let off := addr % 0x10000
  match addr / 0x10000 with
  | 0x0 => match off with
    | 0x00 => some (packFields [(0x9600, 16), (Config.dieRev.toNat, 8), (Config.pkgRev.toNat, 0)])
    | 0x10 => some (sysWord s)
    | _ => none
  | 0x1 => knlReg s off
  | 0x2 => frmReg s off
  | 0x3 => edgReg s off
  | 0x4 => rodReg s off
  | 0x5 => strReg s off
  | 0x6 => memReg s off
  | 0x7 => brdReg s off
  | 0x8 => leadReg s off
  | 0x9 => colReg s off
  | 0xA => timReg s off
  | 0xB => tetReg s off
  | 0xC => snpReg s off
  | 0xD => govReg s off
  | 0xE => secReg s off
  | 0xF => tallyView s s.tly.die off
  | _ => if 0x1000000 ≤ addr ∧ addr < 0x1200000 then
      some (directEntry (img s) ((addr - 0x1000000) / 8) / 2 ^ (32 * ((addr - 0x1000000) / 4 % 2)) % 2 ^ 32)
    else none

/-- HEAD, FIRST and COUNT captured together (R541). -/
def capHead (s : State) (v : TView) : TView :=
  { v with head := BitVec.ofNat 64 (tallyHead s), first := BitVec.ofNat 64 (tallyFirst s),
           count := BitVec.ofNat 19 s.tly.store.length }

/-- What a read captures (R390, R541, R552). -/
def dieTouch (s : State) (addr : Nat) : State :=
  match addr with
  | 0xA0004 => { s with tim := { s.tim with capture := s.tim.counter } }
  | 0xF1004 => { s with tly := { s.tly with die := capHead s s.tly.die } }
  | 0xF1020 => { s with tly := { s.tly with die := { s.tly.die with next := s.tly.next } } }
  | _ => s

/-- What a read through the side path captures (R541, R542, R545, R552). -/
def shpTouch (s : State) (off : Nat) : State :=
  match off with
  | 0x10 => { s with shp := { s.shp with timeCap := s.shp.time } }
  | 0x9004 => { s with tly := { s.tly with side := capHead s s.tly.side } }
  | 0x9020 => { s with tly := { s.tly with side := { s.tly.side with next := s.tly.next } } }
  | _ => s

/-- The error of an access by R1 or R6 (R641), of a register file. -/
def accessErr (file : Nat → Option Nat) (addr : Nat) : Option Nat :=
  if addr % 4 ≠ 0 then some 0x0B010004
  else if (file addr).isNone then some 0x0B010005
  else none

end Sys2Proof.Machine
end

