-- ==== Sys2Proof/Machine/Resend.lean ====
section
/-!
DEFINITION. What a Tether link does with a frame that fails, is NAKed, acknowledged or not answered, and how a link is lost
(spec/11 R396, R397, R405, R425, R427; spec/15 R558).
-/
namespace Sys2Proof.Machine

/-! ## Frames and acknowledgements (R396) -/

/-- What happens on link l while it is up. -/
def onTether (s : State) (l : Nat) (f : State → State) : State := if (linkAt s l).up then f s else s

/-- CNT_RETRY of a link rises (R427). -/
def addRetry (s : State) (l n : Nat) : State := setLink s l { linkAt s l with retry := satAdd32 (linkAt s l).retry n }

/-- The frames of a session from SEQ on. -/
def framesFrom (x : Sess) (seq : BitVec 64) : List (BitVec 64 × TBody) := x.sent.filter fun f => decide (seq ≤ f.1)

/-- The device sends again from SEQ; a resend raises 0x080B_0002 and counts each frame (R396, R427). -/
def resendFrom (s : State) (l : Nat) (shp : Bool) (seq : BitVec 64) : State :=
  let x := sess s l shp
  let s := addRetry (setSess s l shp { x with resend := some seq }) l (framesFrom x seq).length
  raise s 0x080B0002 .count

/-- One more failure of a frame (R397). -/
def oneMore (m : SMap Nat) (seq : BitVec 64) : SMap Nat := sset m seq.toNat (sgetD m seq.toNat 0 + 1)

/-- A frame has been accepted in a session. -/
def tetRecv (s : State) (l : Nat) (shp : Bool) : State :=
  let x := sess s l shp
  setSess s l shp { x with rx := x.rx + 1, nakSent := none }

/-! ## Loss (R397, R558) -/

/-- A frame that was not acknowledged is sent again in another session, or, being a notification, waits for one
(R397, R405, R427). -/
def moveFrame (s : State) (l : Nat) (shp : Bool) (b : TBody) : State :=
  if (linkAt s l).up && (sess s l shp).isOpen then addRetry (tetSend s l shp b) l 1
  else match b with
    | .notify r c sn =>
      { s with tet := { s.tet with held := s.tet.held.filter (fun h => h.1 != r) ++ [(r, c, sn)] } }
    | _ => s

/-- Every unacknowledged frame of a session that has ended moves to a link. -/
def moveFrames (s : State) (l : Nat) (shp : Bool) (fs : List (BitVec 64 × TBody)) : State :=
  fs.foldl (fun s f => moveFrame s l shp f.2) s

/-- Bulk frames that had not left move to link l's queue, while it can take them. -/
def moveBulk (s : State) (l : Nat) (bs : List TBody) : State :=
  if (linkAt s l).up && (sess s l false).isOpen then bs.foldl (fun s b => tetBulk s l b) s else s

/-- R397: a link is lost; its sessions end, and what was not acknowledged moves to the other link. -/
def loseTether (s : State) (l : Nat) : State :=
  let x := linkAt s l
  let s := setLink s l { retry := x.retry, lost := true }
  let s := raise s 0x080B0001 .absorbed (d4 l)
  let s := moveFrames s (1 - l) false x.die.sent
  let s := moveFrames s (1 - l) true x.shp.sent
  let s := moveBulk s (1 - l) x.die.bulk
  if s.die = .off then s else degradeTether s

/-- R396, R397: a received frame fails for its HCRC, TYPE, LENGTH, tag or CHECK; it is dropped and NAKed, and the node's resend
is counted. The third failure of one frame loses the link. -/
def tetherFrameReject (s : State) (l : Nat) (shp : Bool) (seq : BitVec 64) (tagFailed : Bool) : State :=
  onTether s l fun s =>
    let x := sess s l shp
    let fails := oneMore x.fails seq
    let s := addRetry (setSess s l shp { x with fails := fails, nakSent := some seq }) l 1
    let s := raise s (if tagFailed then 0x0A0B0002 else 0x080B0002) .count
    if sgetD fails seq.toNat 0 < 3 then s else loseTether s l

/-- R396: the frame that arrives next in a session has a LENGTH that its message does not admit. -/
def wrongLength (s : State) (l : Nat) (shp : Bool) : State := tetherFrameReject s l shp (sess s l shp).rx false

/-- R396, R397: a NAK of a frame that waits for its acknowledgement. -/
def tetherNak (s : State) (l : Nat) (shp : Bool) (seq : BitVec 64) : State :=
  onTether s l fun s =>
    let x := sess s l shp
    if x.sent.any (·.1 == seq) then
      let naks := oneMore x.naks seq
      let s := resendFrom (setSess s l shp { x with naks := naks }) l shp seq
      if sgetD naks seq.toNat 0 < 3 then s else loseTether s l
    else s

/-- R396: 20 us without an acknowledgement: the sender sends again from its oldest unacknowledged frame. -/
def tetherAckTimeout (s : State) (l : Nat) (shp : Bool) : State :=
  onTether s l fun s =>
    match (sess s l shp).sent with
    | [] => s
    | f :: _ => resendFrom s l shp f.1

/-- R396: an acknowledgement covers every frame up to SEQ. -/
def tetherAck (s : State) (l : Nat) (shp : Bool) (seq : BitVec 64) : State :=
  onTether s l fun s =>
    let x := sess s l shp
    let keep := x.sent.filter fun f => decide (seq < f.1)
    setSess s l shp { x with sent := keep, resend := x.resend.filter (fun q => keep.any fun f => decide (q ≤ f.1)),
                             naks := x.naks.filter fun n => decide (seq.toNat < n.1) }

end Sys2Proof.Machine
end

