-- ==== Sys2Proof/WellFormed.lean ====
section
/-!
DEFINITION. Which commands spell a message of the Tether's and the leads' tables as it stands: the operand lengths, kinds and
addresses that Tables 9-4, 11-2, 11-5, 13-4, 15-2 and 15-6 fix and the types of Syntax do not. A command that spells none still
runs: its frame is dropped for its LENGTH (R338, R396), its KIND refuses it (R642), or its grant names another register.
-/
namespace Sys2Proof

/-- A byte string of between `lo` and `hi` bytes. -/
def lenIn (b : Bytes) (lo hi : Nat) : Bool := decide (lo ≤ b.length ∧ b.length ≤ hi)

/-- LOAD_DATA carries 1 to 4,088 image bytes (Table 11-2). -/
def loadDataOk (b : Bytes) : Bool := lenIn b 1 4088
/-- A DATA frame carries 1 to 2,048 payload bytes (Table 9-4). -/
def leadFrameOk (f : LeadFrame) : Bool := lenIn f.payload 1 2048

/-- A LAUNCH stands for the row of its KIND; a frame of a reserved KIND stands for any (Table 11-5). -/
def launchKindOk (kind : BitVec 8) (f : LaunchFrame) : Bool := f.kind == kind || f.kind == 0 || decide (3 < f.kind.toNat)
/-- A reserved TYPE, or KEY or CKPT with a reserved KIND (Tables 11-2, 13-4, 15-2). -/
def reservedOk (type : BitVec 8) : Bool :=
  type == 0 || type == 9 || type == 10 || decide (0x0D ≤ type.toNat ∧ type.toNat ≤ 0x7F)

/-- The grants of a row of its own name that row's register (Table 15-6, R602). -/
def grantAt (addrs : List (BitVec 32)) (g : Grant) : Bool := addrs.contains g.address
/-- KNL_ESCALATE. -/
def escalateAt : List (BitVec 32) := [0x1003C]
/-- TALLY_CLEAR, on the compute die and through the side path. -/
def tallyClearAt : List (BitVec 32) := [0xF102C, 0x10902C]
/-- SHP_RESET. -/
def packageResetAt : List (BitVec 32) := [0x10001C]
/-- SHP_SAMPLE_CTL. -/
def sampleReleaseAt : List (BitVec 32) := [0x100028]
/-- GOV_UCAL_CTL. -/
def adoptAt : List (BitVec 32) := [0xD001C]
/-- GOV_UCAL[c] and GOV_UCAL_CTL. -/
def govUcalAt : List (BitVec 32) := 0xD001C :: (List.range 20).map fun c => BitVec.ofNat 32 (0xD0200 + 4 * c)
/-- A grant whose ACTION is DEBUG_UNLOCK. -/
def grantDebug (g : Grant) : Bool := g.action == 2
/-- FW_DATA carries up to 4,080 image bytes (Table 15-2). -/
def fwDataOk (b : Bytes) : Bool := lenIn b 0 4080
/-- A manifest piece or a piece of a page carries up to 4,064 bytes (Table 13-4). -/
def pieceOk (b : Bytes) : Bool := lenIn b 0 4064

/-- Does a command spell a message of its row? -/
def Instr.wf : Instr → Bool
  | .loadData _ _ b => loadDataOk b
  | .mirrorPage _ f => leadFrameOk f
  | .dataFrameReceived _ f => leadFrameOk f
  | .launchArm _ f => launchKindOk 1 f
  | .launchCommit _ f => launchKindOk 2 f
  | .launchCancel _ f => launchKindOk 3 f
  | .reservedMessage _ type => reservedOk type
  | .escalateClear g _ => grantAt escalateAt g
  | .tallyClear g _ => grantAt tallyClearAt g
  | .packageReset g _ => grantAt packageResetAt g
  | .sampleRelease g _ => grantAt sampleReleaseAt g
  | .adopt g _ => grantAt adoptAt g
  | .govUcalWrite g _ => grantAt govUcalAt g
  | .grantRegWrite _ g => !grantDebug g
  | .grantDebugUnlock _ g => grantDebug g
  | .fwData _ _ _ b => fwDataOk b
  | .restoreManifest _ _ _ b _ => pieceOk b
  | .restorePage _ _ _ _ _ _ b => pieceOk b
  | _ => true

end Sys2Proof
end

