-- ==== Sys2Proof/Machine/Requests.lean ====
section
/-!
DEFINITION. Requests over the Tether and the sessions that admit them (spec/11 R395, R399, R402, R403, R407, R408, R420;
spec/12 R445; spec/15 R554, R556, R557, R566): STATUS_READ, REG_READ, the reads that capture, and reserved messages.
-/
namespace Sys2Proof.Machine

/-- How a kind of request is served: by the Shepherd or the compute die, its TYPE, whether it is served before enrolment,
without a session, and by the Shepherd's ROM (Tables 11-2, 15-2; R566); whether it is a REG_READ or REG_WRITE that names an SHP
address (R7). -/
structure ReqKind where
  shp   : Bool := false
  type  : Nat
  early : Bool := false
  boot  : Bool := false
  rom   : Bool := false
  named : Bool := false

/-- A request refused with a code whose effect is refused and event. -/
def refuseReq (s : State) (r : Req) (k : ReqKind) (code : Nat) (detail : Bytes := []) : State :=
  respondCode (raise s code .refusedTally detail) r k.shp k.type code

/-- A request answered as done. -/
def done (s : State) (r : Req) (k : ReqKind) (payload : Bytes := []) : State := respond s r k.shp k.type 0 payload

/-- R408, R557: while the compute die cannot answer, the Shepherd answers, in its own session where one is open. -/
def standIn (s : State) (r : Req) (k : ReqKind) : ReqKind := { k with shp := (linkAt s r.link).shp.isOpen }

/-- How the Shepherd answers a request that only the compute die could serve: not available (R408), but the access refusal where
it names an SHP address (R6, R7, R641). -/
def notAvailable (s : State) (r : Req) (k : ReqKind) : State :=
  if k.named then respondCode s r (standIn s r k).shp k.type 0x0B010005 else respond s r (standIn s r k).shp k.type 2 []

/-- Is a request answered in the link's Shepherd session? -/
def answersShp (s : State) (r : Req) (k : ReqKind) : Bool :=
  k.shp || (s.die != .serving && (linkAt s r.link).shp.isOpen)

/-- The most requests that may be outstanding on a link (R399). -/
def maxAhead : Nat := 64

/-- What stands before every request: the link, the requests outstanding on it (R399), the enrolment, the server, the session and
the command's parity. -/
def request (s : State) (r : Req) (k : ReqKind) (f : State → State) : State :=
  if !(linkAt s r.link).up then s
  else
    let s := tetRecv s r.link (answersShp s r k)
    if maxAhead ≤ r.ahead then respond s r (answersShp s r k) k.type 3 []
    else if s.sec.owner.isNone && !k.early then refuseReq s r k 0x0A0E0001
    else if k.shp && !(s.shp.serving || (s.shp.rom && k.rom)) then respond s r true k.type 2 []
    else if !k.shp && s.die != .serving then notAvailable s r k
    else if !k.boot && !(sess s r.link k.shp).isOpen then refuseReq s r k 0x0A0E0001
    else if r.parity = .command then refuseReq s r k 0x04010003
    else f s

/-- May a bulk frame act: its link is up, the compute die serves, and a session is open? -/
def bulkOk (s : State) (l : Nat) : Bool := (linkAt s l).up && s.die == .serving && (linkAt s l).die.isOpen

/-- A bulk frame: it has no response; outside a session it is refused (R557). -/
def bulk (s : State) (l : Nat) (f : State → State) : State :=
  if bulkOk s l then f (tetRecv s l false)
  else if (linkAt s l).up && s.die == .serving then raise s 0x0A0E0001 .refusedTally
  else s

/-- STATUS_READ. -/
def kStatus : ReqKind := { type := 0x01 }
/-- REG_READ. -/
def kRead : ReqKind := { type := 0x02 }
/-- REG_WRITE. -/
def kWrite : ReqKind := { type := 0x03 }
/-- SIDE. -/
def kSide : ReqKind := { shp := true, type := 0x0C }

/-- R408: the Shepherd's snapshot, while the compute die cannot answer; any open session of the link admits it. -/
def shepherdStatus (s : State) (r : Req) : State :=
  let k := standIn s r kStatus
  if s.sec.owner.isNone then refuseReq s r kStatus 0x0A0E0001
  else if !s.shp.serving then respond s r k.shp 1 2 []
  else if !((linkAt s r.link).shp.isOpen || (linkAt s r.link).die.isOpen) then refuseReq s r kStatus 0x0A0E0001
  else if r.parity = .command then refuseReq s r k 0x04010003
  else
    let (b, s) := snapshot s
    done s r k b

/-- R403, R408: a status snapshot, of the compute die or, while it cannot answer, of the Shepherd. -/
def statusRead (s : State) (r : Req) : State :=
  if s.die = .serving then
    request s r kStatus fun s => let (b, s) := snapshot s; done s r kStatus b
  else if !(linkAt s r.link).up then s
  else
    let s := tetRecv s r.link (standIn s r kStatus).shp
    if maxAhead ≤ r.ahead then respond s r (standIn s r kStatus).shp 1 3 [] else shepherdStatus s r

/-- R403. -/
def execStatusRead (r : Req) (s : State) : Host.Outcome State Fault Refusal := .next (statusRead s r)

/-- The words of a read from an address upward, until one is refused (R402): the code of the refusal, the words before it,
and the state after the captures. -/
def readWords (file : State → Nat → Option Nat) (touch : State → Nat → State) :
    (n : Nat) → (s : State) → (addr : Nat) → Option Nat × Bytes × State
  | 0, s, _ => (none, [], s)
  | n + 1, s, addr =>
    match accessErr (file s) addr with
    | some code => (some code, [], s)
    | none =>
      let w := ((file s addr).getD 0) % 2 ^ 32
      let (e, b, s') := readWords file touch n (touch s addr) (addr + 4)
      (e, natLE 4 w ++ b, s')

/-- R402, R641: a read of `n` words of a register file. -/
def serveRead (s : State) (r : Req) (k : ReqKind) (file : State → Nat → Option Nat) (touch : State → Nat → State)
    (addr n : Nat) : State :=
  request s r k fun s =>
    if r.parity = .access then refuseReq s r k 0x04010002
    else
      match readWords file touch n s addr with
      | (none, b, s) => done s r k b
      | (some code, b, s) => respond s r k.shp k.type 1 (natLE 4 code ++ b)

/-- Does an address name the SHP block? -/
def shpAddr (a : Nat) : Bool := decide (0x100000 ≤ a ∧ a < 0x110000)

/-- R402: a REG_READ; an SHP address belongs to no block there (R7). -/
def execRegRead (r : Req) (addr : BitVec 32) (more : Fin 64) (s : State) : Host.Outcome State Fault Refusal :=
  .next (serveRead s r { kRead with named := shpAddr addr.toNat } dieReg dieTouch addr.toNat (more.val + 1))

/-- R390: TIM_NOW_LO. -/
def execTimNowRead (r : Req) (s : State) : Host.Outcome State Fault Refusal := .next (serveRead s r kRead dieReg dieTouch 0xA0004 1)
/-- R541: TALLY_HEAD_LO. -/
def execTallyHeadRead (r : Req) (s : State) : Host.Outcome State Fault Refusal := .next (serveRead s r kRead dieReg dieTouch 0xF1004 1)
/-- R552: TALLY_NEXT_LO. -/
def execTallyNextRead (r : Req) (s : State) : Host.Outcome State Fault Refusal := .next (serveRead s r kRead dieReg dieTouch 0xF1020 1)

/-- A register of the SHP block by its full address. -/
def shpFile (s : State) (addr : Nat) : Option Nat :=
  if shpAddr addr then shpReg s (addr - 0x100000) else none

/-- What a read of an SHP address captures. -/
def shpFileTouch (s : State) (addr : Nat) : State := shpTouch s (addr - 0x100000)

/-- R407: a read through the side path. -/
def sideRead (s : State) (r : Req) (addr : Nat) : State := serveRead s r kSide shpFile shpFileTouch addr 1

/-- R545: SHP_TIME_LO. -/
def execShpTimeRead (r : Req) (s : State) : Host.Outcome State Fault Refusal := .next (sideRead s r 0x100010)

/-- R420, R493: a message of a reserved type or kind. -/
def reservedMessage (s : State) (r : Req) (type : Nat) : State :=
  let k : ReqKind := { type := type }
  request s r k fun s => respondCode (raise s 0x080B000A .refused (d4 type ++ d4 r.id.toNat)) r false type 0x080B000A

/-- R420; a type that is none of the reserved ones is no such message (log 3). -/
def execReservedMessage (r : Req) (type : BitVec 8) (s : State) : Host.Outcome State Fault Refusal :=
  .next (if reservedOk type then reservedMessage s r type.toNat else s)

end Sys2Proof.Machine
end

