-- ==== Sys2Proof/Machine/Functions.lean ====
section
/-!
DEFINITION. The functions with stated error (spec/03 Tables 3-3, 3-4, R111, R112; spec/05 Table 5-3, R177): their values in
fixed point, far finer than any binary32 step, and the binary32 results that the stated bound admits. Which of these a device
gives is open (log 8).
-/
namespace Sys2Proof.Machine

/-! ## Fixed-point values: an integer in units of 2^-640 -/

/-- The fraction bits. -/
def fixBits : Nat := 640
/-- 1. -/
def fixOne : Nat := 2 ^ fixBits

/-- m · 2^e in fixed point, rounded down. -/
def fixOf (x : Dy) : Int :=
  if 0 ≤ x.e + fixBits then x.m * pow2 (x.e + fixBits) else x.m / (pow2 (-(x.e + fixBits)) : Nat)

/-- The product of two numbers that are not negative. -/
def fixMul (a b : Nat) : Nat := a * b / fixOne

/-- Σ of t·z^i·k!/(k+i)! from the term `t`, the k-th, of the exponential series. -/
def expSeries (z : Nat) : (fuel k t : Nat) → Nat
  | 0, _, _ => 0
  | f + 1, k, t => t + expSeries z f (k + 1) (fixMul t z / (k + 1))

/-- A number squared k times. -/
def fixSquares (a : Nat) : (k : Nat) → Nat
  | 0 => a
  | k + 1 => fixSquares (fixMul a a) k

/-- e^z of 0 ≤ z ≤ 300: the series at z / 2^12, squared 12 times. -/
def fixExp (z : Nat) : Nat := fixSquares (expSeries (z / 2 ^ 12) 100 0 fixOne) 12

/-- Σ z^(2i+1) / (2i+1) from i = k, `p` being z^(2k+1). -/
def atanhSeries (z2 : Nat) : (fuel k p : Nat) → Nat
  | 0, _, _ => 0
  | f + 1, k, p => p / (2 * k + 1) + atanhSeries z2 f (k + 1) (fixMul p z2)

/-- ln y of 1 ≤ y ≤ 2, as 2 artanh((y − 1) / (y + 1)). -/
def fixLn (y : Nat) : Nat :=
  let z := (y - fixOne) * fixOne / (y + fixOne)
  2 * atanhSeries (fixMul z z) 220 0 z

/-- ln 2. -/
def fixLn2 : Nat := fixLn (2 * fixOne)

/-- Σ (−1)^i z^(2i+1) / (2i+1), of 1 / z a whole number `d`. -/
def arctanSeries (d : Nat) : (fuel k p : Nat) → Int
  | 0, _, _ => 0
  | f + 1, k, p => (p / (2 * k + 1) : Nat) - arctanSeries d f (k + 1) (p / (d * d))

/-- π = 16 arctan(1/5) − 4 arctan(1/239). -/
def fixPi : Nat := (16 * arctanSeries 5 160 0 (fixOne / 5) - 4 * arctanSeries 239 60 0 (fixOne / 239)).toNat

/-- The square root of a number that is not negative. -/
def fixSqrt (a : Nat) : Nat := isqrt (a * fixOne)

/-- Σ 2^i z^(2i+1) / (1·3·…·(2i+1)) from the k-th term `t`. -/
def erfSeries (z2 : Nat) : (fuel k t : Nat) → Nat
  | 0, _, _ => 0
  | f + 1, k, t => t + erfSeries z2 f (k + 1) (fixMul t (2 * z2) / (2 * k + 3))

/-- erf z of 0 ≤ z: 2/√π · e^(−z²) · the series; from 17 on it differs from 1 by less than 2^-400. -/
def fixErf (z : Nat) : Nat :=
  if 17 * fixOne ≤ z then fixOne - 1
  else
    let z2 := fixMul z z
    let s := erfSeries z2 1400 0 z
    2 * (s * fixOne / fixExp z2) * fixOne / fixSqrt fixPi

/-! ## The functions -/

/-- |x| in fixed point, at most 300: beyond it the exponential functions no longer change any admitted result. -/
def fixArg (x : Dy) : Nat := min (fixOf x.abs).toNat (300 * fixOne)

/-- 1 / (1 + e^-x). -/
def fixSigmoid (x : Dy) : Nat :=
  let e := fixExp (fixArg x)
  (if x.m < 0 then fixOne else e) * fixOne / (fixOne + e)

/-- Φ(x) = (1 + erf(x / √2)) / 2. -/
def fixPhi (x : Dy) : Nat :=
  let r := fixErf (fixSqrt (fixMul (fixArg x) (fixArg x) / 2))
  if x.m < 0 then max 1 ((fixOne - r) / 2) else (fixOne + r) / 2

/-- x times a number that is not negative: above 300 the number is 0 or 1 but for less than 2^-400, and below it the product
is exact up to 2^-640. -/
def fixScale (x : Dy) (a : Nat) : Int := fixOf ⟨x.m * a, x.e - fixBits⟩

/-- The power of two at or below m · 2^e, and the quotient, from 1 to 2, in fixed point. -/
def fixNormal (m : Nat) (e : Int) : Int × Nat :=
  let l := Nat.log2 m
  ((l : Int) + e, m * fixOne / 2 ^ l)

/-- A sign put on a magnitude. -/
def withSign (neg : Bool) (a : Nat) : Int := if neg then -(a : Int) else a

/-- The value of a function at a finite x (Tables 3-3, 3-4 and 5-3), in fixed point; LOG, LOG2 and RSQRT are asked of x > 0
alone. -/
def fnValue (f : Config.Fn) (x : Dy) : Int :=
  let neg := decide (x.m < 0)
  let e := fun n : Bool => if n then fixOne * fixOne / fixExp (fixArg x) else fixExp (fixArg x)
  match f with
  | .exp => max 1 (e neg)
  | .expNeg => max 1 (e !neg)
  | .exp2 =>
    let z := min (max (fixOf x) (-400 * fixOne)) (400 * fixOne)
    let k := z / (fixOne : Int)
    max 1 (fixOf ⟨fixExp (fixMul (z - k * fixOne).toNat fixLn2), k - fixBits⟩)
  | .log => let (k, y) := fixNormal x.m.natAbs x.e; k * fixLn2 + fixLn y
  | .log2 => let (k, y) := fixNormal x.m.natAbs x.e; k * fixOne + ((fixLn y * fixOne / fixLn2 : Nat) : Int)
  | .rsqrt =>
    -- 1 / √(m·2^e) in units of 2^-640 is √(2^(1280 − e) / m)
    isqrt (pow2 (2 * fixBits - x.e) / x.m.natAbs)
  | .erf => withSign neg (fixErf (fixArg x))
  | .sigmoid => max 1 (fixSigmoid x)
  | .tanh => let a := fixExp (2 * min (fixArg x) (150 * fixOne)); withSign neg ((a - fixOne) * fixOne / (a + fixOne))
  | .softplus => (if neg then 0 else fixOf x) + max 1 (fixLn (fixOne + fixOne * fixOne / fixExp (fixArg x)))
  | .elu => if neg then (fixOne * fixOne / fixExp (fixArg x) : Nat) - (fixOne : Int) else fixOf x
  | .gelu => fixScale x (fixPhi x)
  | .silu => fixScale x (fixSigmoid x)
  | .dgelu =>
    let z := min (fixArg x) (30 * fixOne)
    let density := fixOne * fixOne / fixExp (min (fixMul z z / 2) (300 * fixOne)) * fixOne / fixSqrt (2 * fixPi)
    fixPhi x + withSign neg (fixMul z density)
  | .dsilu =>
    let s := fixSigmoid x
    s + withSign neg (fixMul (fixMul s (fixArg x)) (fixOne - s))

/-- The bound of a function in ulp, and whether an absolute error of 2^-24 is admitted too. -/
def fnBound (f : Config.Fn) : Nat × Bool :=
  match f with
  | .exp | .exp2 | .log | .log2 | .rsqrt | .expNeg => (1, false)
  | .erf | .sigmoid | .tanh | .softplus | .elu => (2, false)
  | .silu => (3, false)
  | .gelu => (4, false)
  | .dgelu => (4, true)
  | .dsilu => (3, true)

/-! ## The results within the bound -/

/-- The binary32 magnitude at or below (`up`: at or above) a fixed-point magnitude; beyond the largest finite one, that of an
infinity. -/
def fixCode (a : Nat) (up : Bool) : Nat :=
  let lsb := max (Nat.log2 a - 23) (fixBits - 149)
  min 0x7F800000 ((lsb - (fixBits - 149)) * 2 ^ 23 + (if up then ceilDiv a (2 ^ lsb) else a / 2 ^ lsb))

/-- The place of the largest binary32 number at or below a fixed-point number, in the order of the numbers: 0 is zero, ±1 the
smallest subnormals. -/
def placeBelow (v : Int) : Int := if v < 0 then -(fixCode v.natAbs true : Int) else fixCode v.natAbs false

/-- The place of a binary32 pattern; both zeros have place 0. -/
def placeOf (w : Word) : Int :=
  if bitOf w.toNat 31 then -((w.toNat % 2 ^ 31 : Nat) : Int) else ((w.toNat % 2 ^ 31 : Nat) : Int)

/-- The binary32 pattern at a place. -/
def wordAt (p : Int) : Word := BitVec.ofNat 32 (if p < 0 then 2 ^ 31 + p.natAbs else p.natAbs)

/-- The ulp of R111 of a fixed-point value: 2^(max(e, −126) − 23). -/
def fixUlp (v : Int) : Nat := 2 ^ (max (Nat.log2 v.natAbs) (fixBits - 126) - 23)

/-- The places of the least and of the greatest binary32 number within the bound of the value. -/
def fnPlaces (f : Config.Fn) (x : Dy) : Int × Int :=
  let v := fnValue f x
  let (n, abs) := fnBound f
  let d : Nat := max (n * fixUlp v) (if abs then 2 ^ (fixBits - 24) else 0)
  (-(placeBelow (d - v)), placeBelow (v + d))

/-- A function at a finite x (R111, R177): the device's own word where it lies within the bound, else the nearest that does, so
that the free word is one of those admitted (log 8). -/
def boundedFn (f : Config.Fn) (x : Word) : Word :=
  let (lo, hi) := fnPlaces f (f32 x).dy
  let w := Config.fn f x
  if lo ≤ placeOf w ∧ placeOf w ≤ hi then w else wordAt (if placeOf w < lo then lo else hi)

end Sys2Proof.Machine
end

