-- ==== Sys2Proof/Machine/Operands.lean ====
section
/-!
DEFINITION. The operand forms of the Frame, the Edge and the Rods: packed elements, MX scales, ceiling maps, feed segments
and source regions (spec/01 R11, R12, R16; spec/08 R293, R305).
-/
namespace Sys2Proof.Machine

/-- Element i of a packed row of format `code` (R12). -/
def elemAt (b : Bytes) (code i : Nat) : Nat :=
  let w := fmtBits code
  fld b (w * i / 8) ((w + 7) / 8 + 1) / 2 ^ (w * i % 8) % 2 ^ w

/-- Bytes of a packed row of n elements. -/
def packedBytes (code n : Nat) : Nat := ceilDiv (fmtBits code * n) 8

/-- Elements packed from bit 0 upward (R12). -/
def packElems (code : Nat) (xs : List Nat) : Bytes :=
  natLE (packedBytes code xs.length) (xs.foldr (fun x a => x % 2 ^ fmtBits code + 2 ^ fmtBits code * a) 0)

/-- An element with its E8M0 block scale (R12); 0xFF is NaN. -/
def mxScaled (v : Fv) (sc : Nat) : Fv :=
  if sc = 0xFF then .nan
  else match v with
    | .fin neg m e => .fin neg m (e + (sc : Int) - 127)
    | x => x

/-- The rate class of a code: 0 double, 1 full, 2 quarter, 3 sixteenth (Table 1-1). -/
def rateOf (code : Nat) : Nat :=
  if 5 ≤ code ∧ code ≤ 7 then 0 else if code = 9 ∨ code = 0xA then 2 else if code = 0xB then 3 else 1

/-- The class of an operation: the slower operand's (R15). -/
def rateClass (a b : Nat) : Nat := max (rateOf a) (rateOf b)

/-- Cycles per row c (R57, Table 2-1). -/
def rowCycles (a b : Nat) : Nat :=
  match rateClass a b with
  | 2 => 4
  | 3 => 16
  | _ => 1

/-- MAC per cycle (Table 2-1). -/
def macPerCycle (a b : Nat) : Nat :=
  match rateClass a b with
  | 0 => 2097152
  | 1 => 1048576
  | 2 => 262144
  | _ => 65536

/-- The chunk length K_c. -/
def chunkK (a b : Nat) : Nat := if rateClass a b = 0 then 2048 else 1024

/-! ## The Frame descriptor (Table 7-8) -/

/-- M. -/
def fdM (d : Bytes) : Nat := fld d 0x00 4
/-- K. -/
def fdK (d : Bytes) : Nat := fld d 0x04 4
/-- N. -/
def fdN (d : Bytes) : Nat := fld d 0x08 4
/-- A_FMT. -/
def fdA (d : Bytes) : Nat := fld d 0x0C 1
/-- B_FMT. -/
def fdB (d : Bytes) : Nat := fld d 0x0D 1
/-- MODE. -/
def fdMode (d : Bytes) : Nat := fld d 0x0E 1
/-- Sequential-float mode. -/
def fdSeq (d : Bytes) : Bool := fdMode d == 1
/-- G. -/
def fdG (d : Bytes) : Nat := fld d 0x0F 1
/-- NSLOTS. -/
def fdNslots (d : Bytes) : Nat := fld d 0x10 1
/-- The slot list S. -/
def fdSlots (d : Bytes) : List Nat := (List.range (fdNslots d)).map fun t => field (fld d 0x18 8) (4 * t + 3) (4 * t)
/-- A_SRC, A_CMAP, A_SCALES, A_PITCH, SA; with `b` true those of B. -/
def fdSrc (d : Bytes) (b : Bool) : Nat := fld d (if b then 0x40 else 0x20) 8
/-- The ceiling map's location. -/
def fdCmap (d : Bytes) (b : Bool) : Nat := fld d (if b then 0x48 else 0x28) 8
/-- The scale array's location. -/
def fdScales (d : Bytes) (b : Bool) : Nat := fld d (if b then 0x50 else 0x30) 8
/-- The row pitch. -/
def fdPitch (d : Bytes) (b : Bool) : Nat := fld d (if b then 0x58 else 0x38) 4
/-- The tensor scale. -/
def fdScale (d : Bytes) (b : Bool) : Nat := fld d (if b then 0x5C else 0x3C) 4

/-- Lines of a ceiling map (R293). -/
def cmapBytes (g rows cols : Nat) : Nat := ceilDiv rows 64 * ceilDiv cols (64 * g) * 64

/-- The entry of 64 x 64 block (i, j) of a tensor of `rows` rows (R293). An entry from outside the range of R16 counts as the
16-bit number that it is (DESIGN CHOICE, log 37). -/
def cmapEntry (s : State) (g loc rows i j : Nat) : Int :=
  let line := (j / g) * ceilDiv rows 64 + i
  toSigned 16 (leNat (locRead s (locAdd loc (64 * line + 2 * (j % g))) 2))

/-- The largest of a list of integers, at least -512. -/
def maxCeil (xs : List Int) : Int := xs.foldl max (-512)

/-- Element (m, k) of A in its source region (R63). -/
def srcA (s : State) (d : Bytes) (m k : Nat) : Fv :=
  let code := fdA d
  let w := fmtBits code
  let b := locRead s (locAdd (fdSrc d false) (m * fdPitch d false + w * k / 8)) ((w + 7) / 8 + 1)
  let v := decodeFmt code (leNat b / 2 ^ (w * k % 8) % 2 ^ w)
  if isMx code then mxScaled v (leNat (locRead s (locAdd (fdScales d false) (m * ceilDiv (fdK d) 32 + k / 32)) 1)) else v

/-- Element (k, n) of B in its source region (log 15: the scale of (k, n) is at (k / 32) x N + n). -/
def srcB (s : State) (d : Bytes) (k n : Nat) : Fv :=
  let code := fdB d
  let w := fmtBits code
  let b := locRead s (locAdd (fdSrc d true) (k * fdPitch d true + w * n / 8)) ((w + 7) / 8 + 1)
  let v := decodeFmt code (leNat b / 2 ^ (w * n % 8) % 2 ^ w)
  if isMx code then mxScaled v (leNat (locRead s (locAdd (fdScales d true) (k / 32 * fdN d + n)) 1)) else v

/-- ROW_BYTES of a feed segment of A (Table 8-2). -/
def aRowBytes (d : Bytes) : Nat := roundUpTo (packedBytes (fdA d) (chunkK (fdA d) (fdB d))) 64
/-- ROW_BYTES of a feed segment of B. -/
def bRowBytes (d : Bytes) (w : Nat) : Nat := roundUpTo (packedBytes (fdB d) w) 64

/-- Element (r, k) of an A segment of `rows` rows (Table 8-2). -/
def segA (seg : Bytes) (d : Bytes) (rows r k : Nat) : Fv :=
  let code := fdA d
  let rb := aRowBytes d
  let v := decodeFmt code (elemAt (seg.drop (r * rb)) code k)
  if isMx code then mxScaled v (fld seg (rows * rb + 64 * r + k / 32) 1) else v

/-- Element (k, n) of a B segment of `ks` rows for a width of w columns (Table 8-2). -/
def segB (seg : Bytes) (d : Bytes) (w ks k n : Nat) : Fv :=
  let code := fdB d
  let rb := bRowBytes d w
  let v := decodeFmt code (elemAt (seg.drop (k * rb)) code n)
  if isMx code then mxScaled v (fld seg (ks * rb + k / 32 * roundUpTo w 64 + n) 1) else v

end Sys2Proof.Machine
end

