-- ==== Sys2Proof/Machine/Edge.lean ====
section
/-!
DEFINITION. The Edge (spec/03; spec/01 R39 to R45): drains, their stages, records and range checks, and the scale sweep.
-/
namespace Sys2Proof.Machine

/-! ## Activation and gates (Tables 3-3, 3-4) -/

/-- The canonical NaN of binary32 (R37). -/
def nan32 : Word := 0x7FC00000
/-- 1.0. -/
def one32 : Word := 0x3F800000

/-- Is a binary32 value above zero? -/
def pos32 (x : Word) : Bool := fvLt (.fin false 0 0) (f32 x)

/-- The results of a function of Table 3-3 at +Inf and -Inf. -/
def actInf (f : Config.Fn) (neg : Bool) : Word :=
  match f, neg with
  | .sigmoid, false => one32
  | .tanh, false => one32
  | .tanh, true => 0xBF800000
  | .elu, true => 0xBF800000
  | _, false => 0x7F800000
  | _, true => 0

/-- A function of Table 3-3 with a stated error (R111, R178; log 8): a NaN gives the canonical NaN, tanh of a zero
that zero. -/
def actFn (f : Config.Fn) (x : Word) : Word :=
  match f32 x with
  | .nan => nan32
  | .inf neg => actInf f neg
  | .fin _ m _ => if f = .tanh ∧ m = 0 then x else boundedFn f x

/-- Stage 3 (R111). -/
def activate (act : Nat) (alpha x : Word) : Word :=
  if isNan32 x then nan32
  else match act with
    | 1 => if pos32 x then x else 0
    | 2 => if pos32 x then x else fMul alpha x
    | 3 => actFn .sigmoid x
    | 4 => actFn .tanh x
    | 5 => actFn .softplus x
    | 6 => if pos32 x then x else actFn .elu x
    | 7 => actFn .gelu x
    | 8 => actFn .silu x
    | _ => x

/-- e^(−y) within 1 ulp (Table 3-4), at infinite y by IEEE 754. -/
def expNeg (y : Word) : Word :=
  match f32 y with
  | .nan => nan32
  | .inf neg => if neg then 0x7F800000 else 0
  | .fin _ _ _ => boundedFn .expNeg y

/-- g(y) of Table 3-4 (R112). -/
def gateVal (gate : Nat) (alpha y : Word) : Word :=
  if isNan32 y then nan32
  else match gate with
    | 1 => y
    | 2 => if pos32 y then one32 else 0
    | 3 => if pos32 y then one32 else alpha
    | 4 => fMul y (fSub one32 y)
    | 5 => fSub one32 (fMul y y)
    | 6 => fSub one32 (expNeg y)
    | 7 => if fvLt (f32 y) (.fin false 0 0) then fAdd y one32 else one32
    | _ => one32

/-! ## The drain descriptor (Table 3-2) -/

/-- The value "none" of a Board address (R101). -/
def addrNone : Nat := 0xFFFFFFFF

/-- OUT_FMT. -/
def ddOut (d : Bytes) : Nat := fld d 0x00 1
/-- ACT. -/
def ddAct (d : Bytes) : Nat := fld d 0x01 1
/-- GATE. -/
def ddGate (d : Bytes) : Nat := fld d 0x02 1
/-- BIAS_MODE [1:0]. -/
def ddBias (d : Bytes) : Nat := fld d 0x03 1 % 4
/-- The bias code. -/
def ddBiasFmt (d : Bytes) : Nat := fld d 0x03 1 / 16
/-- GATE_FMT. -/
def ddGateFmt (d : Bytes) : Nat := fld d 0x04 1
/-- REDUCE. -/
def ddReduce (d : Bytes) : Nat := fld d 0x05 1
/-- Row records selected. -/
def ddRowRec (d : Bytes) : Bool := bitOf (ddReduce d) 0
/-- Column records selected. -/
def ddColRec (d : Bytes) : Bool := bitOf (ddReduce d) 1
/-- NF_POLICY. -/
def ddNf (d : Bytes) : Nat := fld d 0x06 1
/-- OVF_POLICY. -/
def ddOvf (d : Bytes) : Nat := fld d 0x07 1
/-- ALPHA. -/
def ddAlpha (d : Bytes) : Word := BitVec.ofNat 32 (fld d 0x08 4)
/-- LO, HI, ABS_BOUND as binary32. -/
def ddF32 (d : Bytes) (off : Nat) : Word := BitVec.ofNat 32 (fld d off 4)
/-- SAT_MAX. -/
def ddSatMax (d : Bytes) : Nat := fld d 0x18 4
/-- The severity of a check: 0 LO/HI, 1 ABS_BOUND, 2 SAT_MAX, 3 non-finite. -/
def ddSev (d : Bytes) (i : Nat) : Nat := fld d (0x1C + i) 1
/-- OUT_RING. -/
def ddRing (d : Bytes) : Nat := fld d 0x20 2
/-- A 4-byte address or pitch. -/
def ddAddr (d : Bytes) (off : Nat) : Nat := fld d off 4
/-- Is there a merge? -/
def ddMerge (d : Bytes) : Bool := ddAddr d 0x34 != addrNone

/-- Bytes of an output element. -/
def outBytes (code : Nat) : Nat := fmtBits code / 8

/-- Codes of a wide tensor (0x9, 0xA, 0xB). -/
def wideFmt (c : Nat) : Bool := decide (9 ≤ c ∧ c ≤ 0xB)

/-- Is ALPHA between 0 and 1? -/
def alphaOk (a : Word) : Bool := fvLt (.fin false 0 0) (f32 a) && fvLt (f32 a) (.fin false 1 0)

/-- The first refusal of a drain descriptor at issue (R101 to R103, R123, Table 3-7; log 16). -/
def drainRefusal (s : State) (desc : Nat) (d : Bytes) : Option Nat :=
  let out := ddOut d
  if boardBytes < desc + 128 then some 0x0B030005
  else if !([0x0, 0x9, 0xA, 0xB, 0xC, 0xD].contains out) || (ddOvf d == 1 && !wideFmt out) then some 0x0B030001
  else if 8 < ddAct d ∨ 7 < ddGate d ∨ ((ddAct d = 2 ∨ ddGate d = 3) ∧ alphaOk (ddAlpha d) = false) then some 0x0B030003
  else if 1 < ddOvf d ∨ 1 < ddNf d ∨ fld d 3 1 / 4 % 4 ≠ 0 ∨ 3 < ddReduce d ∨ 63 < ddRing d
    ∨ (List.range 4).any (fun i => decide (2 < ddSev d i))
    ∨ isNan32 (ddF32 d 0x0C) ∨ isNan32 (ddF32 d 0x10) ∨ fvLt (f32 (ddF32 d 0x10)) (f32 (ddF32 d 0x0C))
    ∨ (ddBias d ≠ 0 ∧ wideFmt (ddBiasFmt d) = false) ∨ (ddGate d ≠ 0 ∧ wideFmt (ddGateFmt d) = false)
    ∨ ddAddr d 0x28 % 64 ≠ 0 ∨ ddAddr d 0x30 % 64 ≠ 0 ∨ ddAddr d 0x38 % 64 ≠ 0
    ∨ !allZero d 0x22 2 ∨ !allZero d 0x4C 52 then some 0x0B030004
  else
    let recBad := fun a n => decide (a % 64 ≠ 0 ∨ boardBytes < a + n)
    if (ddRowRec d && recBad (ddAddr d 0x3C) 192) || (ddColRec d && recBad (ddAddr d 0x40) 192)
      || (ddAddr d 0x44 != addrNone && recBad (ddAddr d 0x44) 16) || (ddAddr d 0x48 != addrNone && recBad (ddAddr d 0x48) 64)
      || (decide (ddBias d ≠ 0) && decide (boardBytes ≤ ddAddr d 0x24))
      || (decide (ddGate d ≠ 0) && decide (boardBytes ≤ ddAddr d 0x2C))
      || (ddMerge d && decide (boardBytes ≤ ddAddr d 0x34)) then some 0x0B030005
    else if ringKind (img s) (ddRing d) = 3 ∧ ringProducer (img s) (ddRing d) = 1 then none
    else some 0x0B050203

/-- The geometry of a slot's tile: first row and column, rows and columns. -/
def slotM0 (k : Slot) : Nat := 256 * k.ti
/-- First column of the tile. -/
def slotN0 (s : State) (k : Slot) : Nat := imageWidth (img s) * k.tj
/-- Rows of the tile. -/
def slotRows (k : Slot) : Nat := min 256 (k.m - 256 * k.ti)
/-- Columns of the tile. -/
def slotCols (s : State) (k : Slot) : Nat := min (imageWidth (img s)) (k.n - slotN0 s k)
/-- Do the tile's operands carry a tensor scale? -/
def slotScaled (k : Slot) : Bool := isFp8 k.afmt || isFp8 k.bfmt

/-- The bytes that a drain places in its segment: rows, row stride and ceiling block (R306). -/
def drainLayout (s : State) (d : Bytes) (k : Slot) : SegLayout :=
  let r := slotRows k
  ⟨r, roundUpTo (slotCols s k * outBytes (ddOut d)) 64, if ddOut d = 0 ∨ wideFmt (ddOut d) then 64 * ceilDiv r 64 else 0⟩

/-- Bytes of a segment. -/
def segTotal (l : SegLayout) : Nat := l.rows * l.rowBytes + l.aux

/-- The first slot-dependent refusal of a drain as it begins (R103, R107, R109, R113, R115, R229). -/
def drainBeginRefusal (s : State) (d : Bytes) (k : Slot) : Option Nat :=
  let out := ddOut d
  let m1 := slotM0 k + slotRows k
  let n1 := slotN0 s k + slotCols s k
  let past := fun a p e => decide (boardBytes < a + (m1 - 1) * p + n1 * e)
  if 0xC ≤ out ∧ (ddBias d ≠ 0 ∨ ddAct d ≠ 0 ∨ ddGate d ≠ 0 ∨ k.seqf ∨ slotScaled k) then some 0x0B030002
  else if out = 0xD ∧ ddReduce d ≠ 0 then some 0x0B030002
  else if ddMerge d && (k.seqf || slotScaled k) then some 0x0B030002
  else if ddReduce d ≠ 0 ∧ k.seqf then some 0x0B030002
  else if (ddRowRec d && decide (boardBytes < ddAddr d 0x3C + 192 * m1)) || (ddColRec d && decide (boardBytes < ddAddr d 0x40 + 192 * n1))
    || (ddBias d == 1 && decide (boardBytes < ddAddr d 0x24 + n1 * outBytes (ddBiasFmt d)))
    || (ddBias d == 2 && decide (boardBytes < ddAddr d 0x24 + m1 * outBytes (ddBiasFmt d)))
    || (ddBias d == 3 && past (ddAddr d 0x24) (ddAddr d 0x28) (outBytes (ddBiasFmt d)))
    || (decide (ddGate d ≠ 0) && past (ddAddr d 0x2C) (ddAddr d 0x30) (outBytes (ddGateFmt d)))
    || (ddMerge d && past (ddAddr d 0x34) (ddAddr d 0x38) 8) then some 0x0B030005
  else if ringSegBytes (img s) (ddRing d) < segTotal (drainLayout s d k) then some 0x0B050203
  else none

/-! ## Stages 1 to 7, one element -/

/-- What one element of a drain gives. -/
structure ElemOut where
  /-- The reduction input (R114); none is a non-finite input. -/
  x        : Fv
  code     : Nat
  /-- The value as written (R118, R119). -/
  written  : Fv
  nonfin   : Bool := false
  below    : Bool := false
  above    : Bool := false
  sat      : Bool := false
  inf      : Bool := false
  nanInt   : Bool := false
  shift    : Bool := false
  mergeBad : Bool := false
  deriving DecidableEq, Repr

/-- R45: a carry value realigned to a coarser quantum. -/
def realign (c : Int) (q qt : Int) : Int := rneShift c (qt - q).toNat

/-- R109: the merged carry and quantum, searching q_t upward from `qt`. -/
def mergeFrom (c q c' q' qt : Int) : (fuel : Nat) → Int × Int
  | 0 => (0, 512)
  | f + 1 =>
    let x := realign c q qt + realign c' q' qt
    if outside48Int x then mergeFrom c q c' q' (qt + 1) f else (x, qt)
where
  /-- Outside the 48-bit accumulator. -/
  outside48Int (x : Int) : Bool := decide (x < -(2 ^ 47) ∨ 2 ^ 47 ≤ x)

/-- A stored value of a wide code at a Board address, as binary32 (exact). -/
def boardF32 (s : State) (code a : Nat) : Word := toF32 (decodeFmt code (mnat s.brd.mem a (outBytes code)))

/-- LO and HI on an exact value (R120); an infinite limit is disabled (R102). -/
def rangeOf (d : Bytes) (v : Fv) : Bool × Bool :=
  let lo := f32 (ddF32 d 0x0C)
  let hi := f32 (ddF32 d 0x10)
  (lo.isFin && fvLt v lo, hi.isFin && fvLt hi v)

/-- One element of a drain (R107 to R112, R114, R120, R123). -/
def drainElem (s : State) (d : Bytes) (k : Slot) (r c : Nat) : ElemOut :=
  let out := ddOut d
  let m := slotM0 k + r
  let n := slotN0 s k + c
  let cell := (k.cells.getD r []).getD c 0
  if k.nonfinite && decide (0xC ≤ out) then
    -- R108, R123: an INT32 element of such a tile is a NaN written as 0, unless the ZERO policy has replaced it
    { x := .nan, code := 0, written := .fin false 0 0, nonfin := true, nanInt := decide (out = 0xC ∧ ddNf d ≠ 1) }
  else
    -- stage 1
    let q := toSigned 10 k.q.toNat
    let (cm, qm, bad) :=
      if ddMerge d && !k.nonfinite then
        let e := mnat s.brd.mem (ddAddr d 0x34 + m * ddAddr d 0x38 + 8 * n) 8
        let q' := toSigned 10 (field e 57 48)
        let (x, qt) := mergeFrom cell.toInt q (toSigned 48 e) q' (max q q') 4
        (x, qt, decide (511 < qt))
      else (cell.toInt, q, false)
    let shift := ddMerge d && !k.nonfinite && decide (max q (toSigned 10 (field (mnat s.brd.mem (ddAddr d 0x34 + m * ddAddr d 0x38 + 8 * n) 8) 57 48)) < qm)
    let exact : Dy := ⟨cm, qm⟩
    if out = 0xD then
      let v := Fv.ofDy exact false
      let (lo, hi) := rangeOf d v
      { x := v, code := ofSigned 48 cm + 2 ^ 48 * ofSigned 10 qm, written := v, below := lo, above := hi, shift := shift, mergeBad := bad }
    else if out = 0xC then
      let cv := convFmt 0xC false (Fv.ofDy exact false)
      let v := decodeFmt 0xC cv.code
      let (lo, hi) := rangeOf d v
      { x := v, code := cv.code, written := v, below := lo, above := hi, sat := cv.sat, shift := shift, mergeBad := bad }
    else
      let v1 : Word :=
        if k.nonfinite then nan32
        else if k.seqf then (if slotScaled k then fMul (cell.setWidth 32) (fMul k.sa k.sb) else cell.setWidth 32)
        else toF32 (.ofDy ((exact.mul (f32 k.sa).dy).mul (f32 k.sb).dy) false)
      -- stage 2
      let v2 := match ddBias d with
        | 1 => fAdd v1 (boardF32 s (ddBiasFmt d) (ddAddr d 0x24 + n * outBytes (ddBiasFmt d)))
        | 2 => fAdd v1 (boardF32 s (ddBiasFmt d) (ddAddr d 0x24 + m * outBytes (ddBiasFmt d)))
        | 3 => fAdd v1 (boardF32 s (ddBiasFmt d) (ddAddr d 0x24 + m * ddAddr d 0x28 + n * outBytes (ddBiasFmt d)))
        | _ => v1
      -- stage 3 and 4
      let v3 := if ddAct d = 0 then v2 else activate (ddAct d) (ddAlpha d) v2
      let v4 := if ddGate d = 0 then v3
        else fMul v3 (gateVal (ddGate d) (ddAlpha d) (boardF32 s (ddGateFmt d) (ddAddr d 0x2C + m * ddAddr d 0x30 + n * outBytes (ddGateFmt d))))
      let v := f32 v4
      -- stage 6 and 7
      if v.isFin then
        let (lo, hi) := rangeOf d v
        let cv := convFmt out (ddOvf d == 1) v
        { x := v, code := cv.code, written := decodeFmt out cv.code, below := lo, above := hi, sat := cv.sat, inf := cv.inf,
          shift := shift, mergeBad := bad }
      else
        let cv := convFmt out (ddOvf d == 1) (if ddNf d = 1 then .fin false 0 0 else v)
        { x := v, code := cv.code, written := decodeFmt out cv.code, nonfin := true, sat := cv.sat, inf := cv.inf,
          nanInt := cv.nanInt, shift := shift, mergeBad := bad }

/-! ## A drain's counts and codes -/

/-- The counts of the elements of some rows. -/
structure DrainCnt where
  sat     : Nat := 0
  inf     : Nat := 0
  nonfin  : Nat := 0
  nanInt  : Nat := 0
  below   : Nat := 0
  above   : Nat := 0
  shifts  : Nat := 0
  absmax  : Option Dy := none
  deriving DecidableEq, Repr

/-- The larger of a running absolute maximum and a value. -/
def maxAbs (a : Option Dy) (v : Fv) : Option Dy :=
  if v.isFin then
    match a with
    | none => some v.dy.abs
    | some x => if x.lt v.dy.abs then some v.dy.abs else some x
  else a

/-- One element counted (R120, R121, R124). The absolute maximum is over |v| of finite v. -/
def DrainCnt.add (k : DrainCnt) (e : ElemOut) : DrainCnt :=
  { sat := k.sat + b2n e.sat, inf := k.inf + b2n e.inf, nonfin := k.nonfin + b2n e.nonfin, nanInt := k.nanInt + b2n e.nanInt,
    below := k.below + b2n e.below, above := k.above + b2n e.above, shifts := k.shifts + b2n e.shift,
    absmax := if e.nonfin then k.absmax else maxAbs k.absmax e.x }

/-- The codes that a row raises, each at most once per drain (R122): code and severity. -/
def rowCodes (d : Bytes) (seen : List Nat) (row : List ElemOut) : List (Nat × Nat) :=
  let cs := (if row.any (fun e => e.below || e.above) then [(0x01030001, ddSev d 0)] else []) ++
    (if row.any (·.nonfin) then [(0x01030004, ddSev d 3)] else []) ++
    (if row.any (·.nanInt) then [(0x01030005, ddSev d 3)] else []) ++
    (if row.any (·.mergeBad) then [(0x01030007, 2)] else [])
  cs.filter fun c => !seen.contains c.1

/-- The rows of a drain as far as they are drained. -/
structure DrainRun where
  rows  : List (List ElemOut) := []
  cnt   : DrainCnt := {}
  seen  : List Nat := []
  codes : List (Nat × Nat) := []
  stop  : Bool := false
  deriving DecidableEq, Repr

/-- One row more; after a job-ending code no row follows (R122). -/
def drainRow (s : State) (d : Bytes) (k : Slot) (cols : Nat) (run : DrainRun) (r : Nat) : DrainRun :=
  if run.stop then run
  else
    let row := (List.range cols).map (drainElem s d k r)
    let cs := rowCodes d run.seen row
    { rows := run.rows ++ [row], cnt := row.foldl DrainCnt.add run.cnt, seen := run.seen ++ cs.map Prod.fst,
      codes := run.codes ++ cs, stop := cs.any fun c => c.2 == 2 }

/-- The codes at the end of the drain (R121). -/
def endCodes (d : Bytes) (k : DrainCnt) : List (Nat × Nat) :=
  let bound := f32 (ddF32 d 0x14)
  (match k.absmax with
   | some a => if fvLt bound (.ofDy a false) then [(0x01030002, ddSev d 1)] else []
   | none => []) ++
  (if ddSatMax d < k.sat + k.inf then [(0x01030003, ddSev d 2)] else [])

/-! ## Records (R114 to R119, R124) -/

/-- A reduction record in its fields (Table 3-5). -/
structure RedRec where
  count  : Nat := 0
  nonfin : Nat := 0
  mn     : Fv := .inf false
  mx     : Fv := .inf true
  am     : Dy := ⟨0, 0⟩
  held   : Bool := false
  sum    : Int := 0
  sq     : Int := 0
  deriving DecidableEq, Repr

/-- A record read from the Board. -/
def redRead (s : State) (a : Nat) : RedRec :=
  let b := mread s.brd.mem a 192
  { count := fld b 0 4, nonfin := fld b 4 4, mn := f32 (BitVec.ofNat 32 (fld b 8 4)), mx := f32 (BitVec.ofNat 32 (fld b 12 4)),
    am := (f32 (BitVec.ofNat 32 (fld b 16 4))).dy.abs, held := bitOf (fld b 0x1C 2) 0,
    sum := toSigned 320 (fld b 0x20 40), sq := toSigned 640 (fld b 0x50 80) }

/-- One input added to a record (R114); a finite input that would take COUNT past its width holds the record,
and the inputs of the row or column before it have been taken (R117; DESIGN CHOICE, log 39). -/
def redAdd (k : RedRec) (x : Fv) : RedRec :=
  if k.held then k
  else if x.isFin then
    if k.count = 0xFFFFFFFF then { k with held := true }
    else
      { k with count := k.count + 1,
               mn := if fvTotLt x k.mn then x else k.mn, mx := if fvTotLt k.mx x then x else k.mx,
               am := if k.am.lt x.dy.abs then x.dy.abs else k.am,
               sum := k.sum + x.dy.at (-149), sq := k.sq + (x.dy.mul x.dy).at (-298) }
  else { k with nonfin := min (k.nonfin + 1) 0xFFFFFFFF }

/-- The bytes of a record, with MEAN and VAR formed exactly and rounded once (R116). -/
def redBytes (k : RedRec) : Bytes :=
  let mean := if k.count = 0 then nan32 else toF32 (ratToF32 k.sum k.count (-149))
  let var := if k.count = 0 then nan32 else toF32 (ratToF32 (k.count * k.sq - k.sum * k.sum) (k.count * k.count) (-298))
  natLE 4 k.count ++ natLE 4 k.nonfin ++ natLE 4 (toF32 k.mn).toNat ++ natLE 4 (toF32 k.mx).toNat ++
  natLE 4 (toF32 (.ofDy k.am false)).toNat ++ natLE 4 mean.toNat ++ natLE 4 var.toNat ++
  natLE 2 (b2n k.held + 2 * b2n (decide (0 < k.count) && isInf32' var)) ++ natLE 2 0 ++
  natLE 40 (ofSigned 320 k.sum) ++ natLE 8 0 ++ natLE 80 (ofSigned 640 k.sq) ++ zeros 32
where
  /-- Is a binary32 pattern infinite? -/
  isInf32' (x : Word) : Bool := x &&& 0x7FFFFFFF#32 = 0x7F800000#32

/-- A record takes the inputs of one row or column; the flag says that it became held (R116, R117). -/
def redUpdate (s : State) (a : Nat) (init : Bool) (xs : List Fv) : State × Bool :=
  let k := if init then {} else redRead s a
  let k' := xs.foldl redAdd k
  if k.held then (s, false) else (boardWrite s a (redBytes k'), k'.held)

/-- A list of records updated: the state, and the places of those that became held. -/
def redUpdates (s : State) (base : Nat) (init : Bool) : List (Nat × List Fv) → State × List Nat
  | [] => (s, [])
  | (i, xs) :: rest =>
    let (s, h) := redUpdate s (base + 192 * i) init xs
    let (s, hs) := redUpdates s base init rest
    (s, if h then i :: hs else hs)

/-- A largest magnitude as binary32 (R119, R124): rounded to nearest; beyond the binary32 range the spec states no value, and
it is free (log 46). -/
def absWord (x : Dy) : Word :=
  let w := toF32 (.ofDy x false)
  if isFin32 w then w else Config.absOpen x.m.natAbs x.e

/-- The exponent ceiling that goes with such a word. -/
def absCeil (x : Dy) : Int := if isFin32 (toF32 (.ofDy x false)) then (f32 (absWord x)).dy.ceiling else x.ceiling

/-- The larger of two magnitudes. -/
def maxDy (a b : Dy) : Dy := if a.lt b then b else a

/-- R119: the tensor summary. -/
def summaryUpdate (s : State) (a : Nat) (init : Bool) (vs : List Fv) : State :=
  let b := if init then natLE 4 0 ++ natLE 2 (ofSigned 16 (-512)) ++ zeros 10 else mread s.brd.mem a 16
  let w0 := BitVec.ofNat 32 (fld b 0 4)
  let c0 := toSigned 16 (fld b 4 2)
  let old : Dy := if isFin32 w0 then (f32 w0).dy.abs else ⟨1, c0⟩
  let am := vs.foldl (fun a v => if v.isFin then maxDy a v.dy.abs else a) old
  let (w, c) := if old.lt am then (absWord am, absCeil am) else (w0, c0)
  let fl := fld b 6 2 % 4
  let isNan := bitOf fl 0 || vs.any Fv.isNan
  let isInf := bitOf fl 1 || vs.any fun v => !v.isFin && !v.isNan
  boardWrite s a (natLE 4 w.toNat ++ natLE 2 (ofSigned 16 c) ++
    natLE 2 (b2n isNan + 2 * b2n isInf) ++ natLE 4 (satAdd 32 (fld b 8 4) vs.length) ++ natLE 4 0)

/-- R124: the count record; `exc` says that 0x0103_0002 was raised. -/
def countUpdate (s : State) (a : Nat) (init : Bool) (k : DrainCnt) (exc : Bool) (cycles outWait throttle : Nat) : State :=
  let b := if init then zeros 64 else mread s.brd.mem a 64
  let f := fun off x => natLE 4 (satAdd 32 (fld b off 4) x)
  let w0 := BitVec.ofNat 32 (fld b 0x38 4)
  let old : Dy := if isFin32 w0 then (f32 w0).dy.abs else ⟨1, 128⟩
  let w := match k.absmax with | some x => (if old.lt x then absWord x else w0) | none => w0
  boardWrite s a (f 0 1 ++ f 4 k.sat ++ f 8 k.inf ++ f 0xC k.nonfin ++ f 0x10 k.nanInt ++ f 0x14 k.below ++
    f 0x18 k.above ++ f 0x1C (b2n exc) ++ f 0x20 k.shifts ++ natLE 4 0 ++ natLE 8 (satAdd 64 (fld b 0x28 8) cycles) ++
    f 0x30 outWait ++ f 0x34 throttle ++ natLE 4 w.toNat ++ natLE 4 0)

/-- One line of R293: the entries of row block i for column blocks g·j to g·j + g − 1 of a tensor of `cols` columns. -/
def ceilLine (g : Nat) (rows : List (List Fv)) (cols j i : Nat) : Bytes :=
  let blk := (rows.drop (64 * i)).take 64
  let es := (List.range (min g (ceilDiv cols 64 - g * j))).flatMap fun c =>
    natLE 2 (ofSigned 16 (ceilingOf (blk.flatMap fun row => (row.drop (64 * (g * j + c))).take 64)))
  es ++ zeros (64 - es.length)

/-- Bytes of the ceiling block of a segment of `rows` by `cols` (R293, R306; log 45 for a sweep wider than a tile). -/
def ceilBlockBytes (g rows cols : Nat) : Nat := cmapBytes g rows cols

/-- The ceiling block of a segment: the map of R293 of what the segment holds. -/
def ceilBlock (g : Nat) (rows : List (List Fv)) (cols : Nat) : Bytes :=
  (List.range (ceilDiv cols (64 * g))).flatMap fun j => (List.range (ceilDiv rows.length 64)).flatMap (ceilLine g rows cols j)

/-! ## DRAIN -/

/-- The ring that a drain or sweep writes. -/
def edgeRing (op : EdgeOp) : Nat := if op.sweep then fld op.desc 0x18 2 else ddRing op.desc

/-- Segments of ring r that have been written and await their completion (R105, R226): each has taken its credit. -/
def ringWritten (s : State) (r : Nat) : Nat := (s.edg.ops.filter fun op => op.prod.isSome && edgeRing op == r).length

/-- The number of the segment that the Edge writes next in ring r. -/
def edgeSeg (s : State) (r : Nat) : Nat := (ring s r).p + ringWritten s r

/-- Is an Edge → Board credit of ring r free (R105, R226)? -/
def edgeCredit (s : State) (r : Nat) : Bool := decide (edgeSeg s r - (ring s r).c < ringSegCount (img s) r)

/-- The Edge is held for an Edge → Board credit, or goes on (R105, R227). -/
def outHold (s : State) (waits : Bool) : State :=
  setHold { s with edg := { s.edg with outWait := waits } } 1 (if waits then 3 else 0)

/-- May the Edge take its next drain or sweep? The one before has read its last row (R106). -/
def edgeFree (s : State) : Bool := s.edg.ops.all fun op => decide (op.phase = .tail) && !op.dead

/-- An Edge operation replaced at its place. -/
def setEdgeOps (s : State) (ops : List EdgeOp) : State := { s with edg := { s.edg with ops := ops } }

/-- A drain begins on its slot, or is refused as it begins (R70, R103) and does not execute. -/
def drainBegin (s : State) (op : EdgeOp) : State :=
  let i := wFld op.word 79 76
  match drainBeginRefusal s op.desc (slot s i) with
  | some code => refuse (setStrand s 1 { strand s 1 with inflight := (strand s 1).inflight.dropLast }) 1 code
  | none =>
    let s := setEdgeOps s (s.edg.ops ++ [{ op with phase := .rows }])
    setSlot s i { slot s i with st := 3 }

/-- R70: the signed 8-bit difference of a drain's fill tag and the slot's. -/
def tagDiff (t tag : BitVec 8) : Int := toSigned 8 (t - tag).toNat

/-- R70, R103: DRAIN issues: it begins, waits for its slot, or is refused. -/
def drainIssue (s : State) : State :=
  if begun s 1 0x10 && edgeFree s then
    let x := strand s 1
    let desc := wFld x.word 67 46 * 64
    let d := mread s.brd.mem desc 128
    match drainRefusal s desc d with
    | some code => refuse s 1 code
    | none =>
      let k := slot s (wFld x.word 79 76)
      let diff := tagDiff (BitVec.ofNat 8 (wFld x.word 75 68)) k.tag
      if diff < 0 ∨ (diff = 0 ∧ (k.st = 0 ∨ k.st = 3)) then refuse s 1 0x0B020008
      else
        let op : EdgeOp := { num := s.edg.issued, index := x.index.toNat, word := x.word, desc := d, sweep := false, phase := .slotWait }
        let s := issueStrand { s with edg := { s.edg with issued := s.edg.issued + 1 } } 1
        if diff = 0 ∧ k.st = 2 then drainBegin s op
        else setHold (setEdgeOps s (s.edg.ops ++ [op])) 1 4
  else s

/-- R70, R100. -/
def execDrain (s : State) : Host.Outcome State Fault Refusal := .next (drainIssue s)

/-- R70: a waiting drain's slot has reached its fill tag and is Full. -/
def drainSlotReady (s : State) : State :=
  match s.edg.ops.getLast? with
  | some op =>
    let k := slot s (wFld op.word 79 76)
    if running s ∧ (strand s 1).dead = false ∧ op.phase = .slotWait ∧ k.st = 2 ∧ k.tag = BitVec.ofNat 8 (wFld op.word 75 68) then
      drainBegin (setHold (setEdgeOps s s.edg.ops.dropLast) 1 0) op
    else s
  | none => s

/-- R70. -/
def execDrainSlotReady (s : State) : Host.Outcome State Fault Refusal := .next (drainSlotReady s)

/-- R106: the cycles of one drain row: the widest stream over 2,048 bytes. -/
def drainRowCycles (s : State) (d : Bytes) (k : Slot) : Nat :=
  let n := slotCols s k
  let b := max (n * outBytes (ddOut d)) (max (if ddBias d = 3 then n * outBytes (ddBiasFmt d) else 0)
    (max (if ddGate d ≠ 0 then n * outBytes (ddGateFmt d) else 0) (if ddMerge d then 8 * n else 0)))
  max 1 (ceilDiv b 2048)

/-- The EDG_JOB counters (R135). -/
def edgeJob (s : State) (k : DrainCnt) : State :=
  { s with edg := { s.edg with jobSat := satAdd32 s.edg.jobSat (k.sat + k.inf),
                               jobNonfinite := satAdd32 s.edg.jobNonfinite k.nonfin,
                               jobRange := satAdd32 s.edg.jobRange (k.below + k.above) } }

/-- The codes of a drain with their severities, in order. -/
def raiseSevs (s : State) (cs : List (Nat × Nat)) : State := cs.foldl (fun s c => raiseSev s c.1 c.2) s

/-- What a drain writes of the rows that it has drained: its segment, records, summary and count record (R105, R115 to R119,
R124). -/
def drainWrite (s : State) (op : EdgeOp) (k : Slot) (run : DrainRun) (exc : Bool) (outWait throttle : Nat) : State :=
  let d := op.desc
  let ring_ := ddRing d
  let lay := drainLayout s d k
  let cols := slotCols s k
  let whole := decide (run.rows.length = lay.rows)
  let written := run.rows.map fun row => row.map ElemOut.written
  let data := run.rows.flatMap fun row =>
    let b := row.flatMap fun e => natLE (outBytes (ddOut d)) e.code
    b ++ zeros (lay.rowBytes - b.length)
  let ceil := if lay.aux = 0 || !whole then [] else ceilBlock (mapCols (img s)) written cols
  let s := boardWrite s (segAddr s ring_ (edgeSeg s ring_)) (data ++ ceil)
  let rowIn := run.rows.zipIdx.map fun (row, r) => (slotM0 k + r, row.map ElemOut.x)
  let colIn := (List.range cols).map fun c => (slotN0 s k + c, run.rows.map fun row => ((row[c]?).map ElemOut.x).getD .nan)
  let (s, h1) := if ddRowRec d then redUpdates s (ddAddr d 0x3C) (wFld op.word 45 45 == 1) rowIn else (s, [])
  let (s, h2) := if ddColRec d then redUpdates s (ddAddr d 0x40) (wFld op.word 44 44 == 1) colIn else (s, [])
  let held := h1 ++ h2
  let s := match held with
    | first :: _ => raise s 0x01030006 .event (d4 first ++ d4 held.length)
    | [] => s
  let s := if ddAddr d 0x44 = addrNone then s else summaryUpdate s (ddAddr d 0x44) (wFld op.word 43 43 == 1) (written.flatMap id)
  let recs := (if ddRowRec d then run.rows.length else 0) + (if ddColRec d then cols else 0)
  let cyc := run.rows.length * drainRowCycles s d k + 48 + ceilDiv recs 4 + outWait + throttle
  if ddAddr d 0x48 = addrNone then s else countUpdate s (ddAddr d 0x48) (wFld op.word 42 42 == 1) run.cnt exc cyc outWait throttle

/-- The drain stops on a job-ending check (R122): it never completes. -/
def drainStop (s : State) (op : EdgeOp) : State :=
  stopStrand (setEdgeOps s (s.edg.ops.dropLast ++ [{ op with dead := true, phase := .tail }])) 1

/-- R106: the drain reads its slot's last row: its values are formed and written, and the slot becomes Empty; a job-ending
check stops it at the end of its row, or of the drain, with what it has counted (R122). -/
def drainLastRow (s : State) (outWait throttle : Nat) : State :=
  match s.edg.ops.getLast? with
  | some op =>
    if !running s || decide (op.phase ≠ .rows) || op.sweep || op.dead || (strand s 1).dead || creditHeld s 1 then s
    else if !edgeCredit s (ddRing op.desc) then outHold s true
    else
      let s := outHold s false
      let i := wFld op.word 79 76
      let k := slot s i
      let run := (List.range (slotRows k)).foldl (drainRow s op.desc k (slotCols s k)) {}
      let s := edgeJob s run.cnt
      let s := if 0 < run.cnt.shifts then setEvent s .edg 6 else s
      let s := raiseSevs s run.codes
      let whole := decide (run.rows.length = slotRows k)
      let ends := if run.stop then [] else endCodes op.desc run.cnt
      let s := if whole then setSlot s i { k with st := 0, cells := [] } else s
      let s := raiseSevs s ends
      let s := drainWrite s op k run (ends.any fun c => c.1 == 0x01030002) outWait throttle
      if run.stop || ends.any (fun c => c.2 == 2) then drainStop s op
      else
        let lay := drainLayout s op.desc k
        setEdgeOps s (s.edg.ops.dropLast ++ [{ op with phase := .tail, prod := some (lay.rows * lay.rowBytes, lay.aux) }])
  | none => s

/-- R106. -/
def execDrainLastRow (outWait throttle : Nat) (s : State) : Host.Outcome State Fault Refusal := .next (drainLastRow s outWait throttle)

/-! ## The scale sweep (R43, R44, R125 to R129) -/

/-- SRC_FMT. -/
def sdSrc (d : Bytes) : Nat := fld d 0x00 1
/-- DST_FMT. -/
def sdDst (d : Bytes) : Nat := fld d 0x01 1
/-- K runs down columns. -/
def sdKcol (d : Bytes) : Bool := fld d 0x02 1 == 1
/-- ROWS. -/
def sdRows (d : Bytes) : Nat := fld d 0x04 4
/-- COLS. -/
def sdCols (d : Bytes) : Nat := fld d 0x08 4
/-- DST_RING. -/
def sdRing (d : Bytes) : Nat := fld d 0x18 2

/-- The layout of a sweep's segment (R306; log 45). -/
def sweepLayout (s : State) (d : Bytes) : SegLayout :=
  ⟨sdRows d, roundUpTo (packedBytes (sdDst d) (sdCols d)) 64, ceilBlockBytes (mapCols (img s)) (sdRows d) (sdCols d)⟩

/-- The refusal of a sweep descriptor at issue (R126, R276, Table 3-7; log 16). That a piece begins at and spans multiples of
32 in k (R126) cannot be seen in the descriptor, and no piece is refused for it (DESIGN CHOICE, log 40). -/
def sweepRefusal (s : State) (desc : Nat) (d : Bytes) : Option Nat :=
  let dst := sdDst d
  let out := fun a n => decide (boardBytes < a + n)
  let far := fun a n => decide (a % 64 ≠ 0) || out a n
  let scaleLen := if isFp8 dst then 4 else if sdKcol d then ceilDiv (sdRows d) 32 * sdCols d else sdRows d * ceilDiv (sdCols d) 32
  let row := sdCols d * outBytes (sdSrc d)
  if boardBytes < desc + 64 then some 0x0B030005
  else if !wideFmt (sdSrc d) ∨ dst < 1 ∨ 8 < dst ∨ 1 < fld d 2 1 ∨ 1 < fld d 3 1 ∨ (fld d 3 1 = 1 ∧ dst ≠ 2)
    ∨ sdRows d < 1 ∨ sdCols d < 1 ∨ fld d 0x10 4 % 64 ≠ 0 ∨ 63 < sdRing d ∨ !allZero d 0x1A 2 ∨ !allZero d 0x28 24
    ∨ (isFp8 dst = decide (fld d 0x14 4 = addrNone)) then some 0x0B030006
  else if out (fld d 0x0C 4) ((sdRows d - 1) * fld d 0x10 4 + row) || (isFp8 dst && far (fld d 0x14 4) 16)
    || out (fld d 0x1C 4) scaleLen || (fld d 0x20 4 != addrNone && far (fld d 0x20 4) 16)
    || (fld d 0x24 4 != addrNone && far (fld d 0x24 4) 64) then some 0x0B030005
  else if ringKind (img s) (sdRing d) ≠ 3 ∨ ringProducer (img s) (sdRing d) ≠ 1
    ∨ ringSegBytes (img s) (sdRing d) < segTotal (sweepLayout s d) then some 0x0B050203
  else none

/-- An element of the source of a sweep. -/
def sweepSrc (s : State) (d : Bytes) (r c : Nat) : Fv :=
  decodeFmt (sdSrc d) (mnat s.brd.mem (fld d 0x0C 4 + r * fld d 0x10 4 + c * outBytes (sdSrc d)) (outBytes (sdSrc d)))

/-- R43: the exponent of an FP8 tensor scale. -/
def fp8ScaleExp (dst : Nat) (absmaxZero : Bool) (ceil : Int) : Int :=
  if absmaxZero then 0 else max (-126) (min 127 (ceil - (if dst = 1 then 8 else 15)))

/-- The value e of R44. -/
def mxExp (dst : Nat) : Int :=
  match dst with
  | 3 => 8
  | 4 => 15
  | 5 => 2
  | 6 => 4
  | 7 => 2
  | _ => 0

/-- The scale of a block from its absolute maximum: its E8M0 byte and exponent (R44). Infinities take no part in the maximum,
and a block of infinities and no finite nonzero value gets scale 0x00 (DESIGN CHOICE, log 38). -/
def absScale (dst : Nat) (blk : List Fv) : Nat × Int :=
  match blk.foldl maxAbs none with
  | some x =>
    if x.isZero then (0, -127)
    else
      let e := max (-127) (min 127 (((Nat.log2 x.m.natAbs : Nat) : Int) + x.e - mxExp dst))
      ((e + 127).toNat, e)
  | none => (0, -127)

/-- What a block's scale is (R44, Table 1-5): 0xFF where a NaN turns a block of codes 0x5 to 0x8 into NaN; a block of codes
0x3 and 0x4 becomes NaN by its elements (log 47). -/
def mxScale (dst : Nat) (blk : List Fv) : Nat × Int :=
  if 5 ≤ dst ∧ blk.any Fv.isNan then (0xFF, 0) else absScale dst blk

/-- A value divided by 2^e, exactly. -/
def fvScale (v : Fv) (e : Int) : Fv :=
  match v with
  | .fin n m x => .fin n m (x - e)
  | x => x

/-- The block of 32 along K that element (r, c) of a piece lies in. -/
def mxBlock (s : State) (d : Bytes) (r c : Nat) : List Fv :=
  if sdKcol d then
    (List.range (min 32 (sdRows d - r / 32 * 32))).map fun i => sweepSrc s d (r / 32 * 32 + i) c
  else (List.range (min 32 (sdCols d - c / 32 * 32))).map fun i => sweepSrc s d r (c / 32 * 32 + i)

/-- One element of a sweep (R41, R43, R44, R127, R128). What it counts for in DST_SUMMARY and the ceiling map is, for FP8, the
element without the tensor scale and, for MX, the element with its block scale (DESIGN CHOICE, log 41). -/
def sweepElem (s : State) (d : Bytes) (r c : Nat) : ElemOut :=
  let dst := sdDst d
  let v := sweepSrc s d r c
  let pol := fld d 3 1 == 1
  if isFp8 dst then
    let sm := mread s.brd.mem (fld d 0x14 4) 16
    let am := f32 (BitVec.ofNat 32 (fld sm 0 4))
    let e := fp8ScaleExp dst am.dy.isZero (toSigned 16 (fld sm 4 2))
    let cv := convFmt dst pol (fvScale v e)
    let big := v.isFin && am.dy.abs.lt v.dy.abs
    { x := v, code := cv.code, written := decodeFmt dst cv.code, nonfin := !v.isFin,
      sat := cv.sat || (big && !pol), inf := cv.inf || (big && pol) }
  else
    let blk := mxBlock s d r c
    let (sc, e) := mxScale dst blk
    if blk.any Fv.isNan then { x := v, code := if 5 ≤ dst then 0 else 0x7F, written := .nan, nonfin := !v.isFin }
    else
      let cv := convFmt dst false (fvScale v e)
      { x := v, code := cv.code, written := mxScaled (decodeFmt dst cv.code) sc, nonfin := !v.isFin, sat := cv.sat }

/-- The scale that a sweep writes (R43, R44): a binary32 tensor scale, or the E8M0 array. -/
def sweepScales (s : State) (d : Bytes) : Bytes :=
  let dst := sdDst d
  if isFp8 dst then
    let sm := mread s.brd.mem (fld d 0x14 4) 16
    natLE 4 (toF32 (.fin false 1 (fp8ScaleExp dst (f32 (BitVec.ofNat 32 (fld sm 0 4))).dy.isZero (toSigned 16 (fld sm 4 2))))).toNat
  else if sdKcol d then
    (List.range (ceilDiv (sdRows d) 32)).flatMap fun kb => (List.range (sdCols d)).map fun c =>
      BitVec.ofNat 8 (mxScale dst (mxBlock s d (32 * kb) c)).1
  else
    (List.range (sdRows d)).flatMap fun r => (List.range (ceilDiv (sdCols d) 32)).map fun b =>
      BitVec.ofNat 8 (mxScale dst (mxBlock s d r (32 * b))).1

/-- R129: the cycles of a sweep. -/
def sweepCycles (d : Bytes) : Nat :=
  let c := max 1 (ceilDiv (min 1024 (sdCols d) * outBytes (sdSrc d)) 2048)
  sdRows d * ceilDiv (sdCols d) 1024 * c + 48 + (if isMx (sdDst d) && sdKcol d then 32 * c else 0)

/-- The codes that a sweep raises, with severity event (R128; log 44). -/
def sweepCodes (s : State) (k : DrainCnt) : State :=
  let s := if 0 < k.nonfin then raise s 0x01030004 .event else s
  if 0 < k.sat + k.inf then raise s 0x01030003 .event else s

/-- R125 to R129: SWEEP issues and converts its piece. -/
def sweepIssue (s : State) (throttle : Nat) : State :=
  if begun s 1 0x11 && edgeFree s then
    let x := strand s 1
    let desc := wFld x.word 79 58 * 64
    let d := mread s.brd.mem desc 64
    match sweepRefusal s desc d with
    | some code => refuse s 1 code
    | none =>
      if !edgeCredit s (sdRing d) then outHold s true
      else
        let s := outHold s false
        let lay := sweepLayout s d
        let rows := (List.range (sdRows d)).map fun r => (List.range (sdCols d)).map (sweepElem s d r)
        let written := rows.map fun row => row.map ElemOut.written
        let cnt := rows.foldl (fun k row => row.foldl DrainCnt.add k) {}
        let data := rows.flatMap fun row =>
          let b := packElems (sdDst d) (row.map ElemOut.code)
          b ++ zeros (lay.rowBytes - b.length)
        let scales := sweepScales s d
        let op : EdgeOp := { num := s.edg.issued, index := x.index.toNat, word := x.word, desc := d, sweep := true, phase := .tail,
                             prod := some (lay.rows * lay.rowBytes, lay.aux) }
        let ceil := ceilBlock (mapCols (img s)) written (sdCols d)
        let s := boardWrite s (segAddr s (sdRing d) (edgeSeg s (sdRing d))) (data ++ ceil)
        let s := boardWrite s (fld d 0x1C 4) scales
        let s := if fld d 0x20 4 = addrNone then s
          else summaryUpdate s (fld d 0x20 4) (wFld x.word 57 57 == 1) (written.flatMap id)
        let s := if fld d 0x24 4 = addrNone then s
          else countUpdate s (fld d 0x24 4) (wFld x.word 56 56 == 1)
            { sat := cnt.sat, inf := cnt.inf, nonfin := cnt.nonfin } false (sweepCycles d + throttle) 0 0
        let s := sweepCodes (edgeJob s { sat := cnt.sat, inf := cnt.inf }) cnt
        issueStrand { s with edg := { s.edg with issued := s.edg.issued + 1, ops := s.edg.ops ++ [op] } } 1
  else s

/-- R125. -/
def execSweep (throttle : Nat) (s : State) : Host.Outcome State Fault Refusal := .next (sweepIssue s throttle)

/-! ## Completion -/

/-- May the Edge's oldest instruction complete? -/
def edgeCanComplete (s : State) : Bool :=
  match s.edg.ops with
  | op :: _ => decide (op.phase = .tail) && !op.dead && op.prod.isSome
  | [] => false

/-- The oldest drain or sweep completes: its segment is produced (R106, R129, R226, R304). -/
def edgeComplete (s : State) : State :=
  match s.edg.ops with
  | [] => s
  | op :: ops =>
    let r := edgeRing op
    let s := { s with edg := { s.edg with ops := ops, instnum := op.num } }
    match op.prod with
    | some (data, aux) => produce s r ⟨1, data, aux⟩
    | none => s

end Sys2Proof.Machine
end

