-- ==== Sys2Proof/Machine/Fetch.lean ====
section
/-!
DEFINITION. The Fetch engines (spec/07 R277; spec/08 R302 to R307): COPY, FEED and WRITEOUT.
-/
namespace Sys2Proof.Machine

/-- SRC of a Fetch descriptor (Table 7-11). -/
def cdSrc (d : Bytes) : Nat := fld d 0x00 8
/-- DST. -/
def cdDst (d : Bytes) : Nat := fld d 0x08 8
/-- ROW_BYTES. -/
def cdRow (d : Bytes) : Nat := fld d 0x10 4
/-- ROWS. -/
def cdRows (d : Bytes) : Nat := fld d 0x14 4
/-- SRC_PITCH. -/
def cdSrcPitch (d : Bytes) : Nat := fld d 0x18 4
/-- DST_PITCH. -/
def cdDstPitch (d : Bytes) : Nat := fld d 0x1C 4
/-- AUX. -/
def cdAux (d : Bytes) : Nat := fld d 0x20 8
/-- AUX_BYTES. -/
def cdAuxBytes (d : Bytes) : Nat := fld d 0x28 4

/-- The bytes that a region of rows at a pitch spans. -/
def extent (rows row pitch : Nat) : Nat := (rows - 1) * pitch + row

/-- A pitch is a multiple of 64, and at least ROW_BYTES when there is more than one row. -/
def pitchOk (d : Bytes) (p : Nat) : Bool := decide (p % 64 = 0) && (decide (cdRows d ≤ 1) || decide (cdRow d ≤ p))

/-- One side of a descriptor: present and valid, or none with a zero pitch (Table 7-11, R272). -/
def sideOk (s : State) (d : Bytes) (need : Bool) (loc pitch : Nat) : Bool :=
  if need then decide (loc ≠ locNone) && pitchOk d pitch && locValid s loc (extent (cdRows d) (cdRow d) pitch)
  else decide (loc = locNone) && decide (pitch = 0)

/-- Does a region of `rows` rows at `x` share a byte with [a, a + n)? Only the rows that reach into the range can. -/
def rowsTouch (x pitch row rows a n : Nat) : Bool :=
  let first := if pitch = 0 then 0 else (a + 1 - (x + row)) / pitch
  (List.range 3).any fun i =>
    let r := first + i
    decide (r < rows) && decide (x + r * pitch < a + n) && decide (a < x + r * pitch + row)

/-- Do the source and the destination of a COPY share a byte (R277)? Rows of one region lie apart (Table 7-11). -/
def copyOverlap (d : Bytes) : Bool :=
  decide (locBoard (cdSrc d) = locBoard (cdDst d)) &&
  decide (locAddr (cdSrc d) < locAddr (cdDst d) + extent (cdRows d) (cdRow d) (cdDstPitch d)) &&
  decide (locAddr (cdDst d) < locAddr (cdSrc d) + extent (cdRows d) (cdRow d) (cdSrcPitch d)) &&
  (List.range (cdRows d)).any fun r =>
    rowsTouch (locAddr (cdSrc d)) (cdSrcPitch d) (cdRow d) (cdRows d) (locAddr (cdDst d) + r * cdDstPitch d) (cdRow d)

/-- R277: is the descriptor of an opcode (0x10 COPY, 0x11 FEED, 0x12 WRITEOUT) sound? -/
def fetchDescOk (s : State) (op : Nat) (d : Bytes) : Bool :=
  decide (cdRow d % 64 = 0 ∧ 64 ≤ cdRow d) && decide (1 ≤ cdRows d ∧ cdRows d ≤ 16777216) &&
  sideOk s d (op != 0x12) (cdSrc d) (cdSrcPitch d) && sideOk s d (op != 0x11) (cdDst d) (cdDstPitch d) &&
  (if cdAux d = locNone then decide (cdAuxBytes d = 0)
   else op == 0x11 && decide (cdAuxBytes d % 64 = 0) && locValid s (cdAux d) (cdAuxBytes d)) &&
  allZero d 0x2C 20 && !(op == 0x10 && copyOverlap d)

/-- The rows of a region, one after another. -/
def readRows (s : State) (loc pitch row : Nat) (rows : Nat) : Bytes :=
  (List.range rows).flatMap fun r => locRead s (locAdd loc (r * pitch)) row

/-- Rows written at a pitch. -/
def writeRows (s : State) (loc pitch row : Nat) (rows : Nat) (b : Bytes) : State :=
  (List.range rows).foldl (fun s r => locWrite s (locAdd loc (r * pitch)) ((b.drop (r * row)).take row)) s

/-- DESC of a Fetch word: COPY has it at [79:58], FEED and WRITEOUT at [73:52]. -/
def fetchDescAddr (op : Nat) (w : BitVec 128) : Nat := (if op = 0x10 then wFld w 79 58 else wFld w 73 52) * 64

/-- A Fetch instruction issues with the descriptor that it has read; it moves its bytes by its completion (log 48). -/
def issueFetch (s : State) (n : Nat) (d : Bytes) : State :=
  let s := issueStrand s n
  setStrand s n { strand s n with desc := d }

/-- R303: COPY. -/
def copyIssue (s : State) (n : Nat) : State :=
  if begun s n 0x10 && idle s n then
    let desc := fetchDescAddr 0x10 (strand s n).word
    let d := mread s.brd.mem desc 64
    if !fetchDescOk s 0x10 d then refuse s n 0x0B050305 else issueFetch s n d
  else s

/-- R303. -/
def execCopy (f : Fin 16) (s : State) : Host.Outcome State Fault Refusal := .next (copyIssue s (f.val + 2))

/-- R226, R229, R303, R305: FEED takes the ring's next segment. -/
def feedIssue (s : State) (n : Nat) : State :=
  if begun s n 0x11 && idle s n then
    let w := (strand s n).word
    let r := wFld w 79 74
    let desc := fetchDescAddr 0x11 w
    let d := mread s.brd.mem desc 64
    if !fetchDescOk s 0x11 d then refuse s n 0x0B050305
    else if ¬((ringKind (img s) r = 1 ∨ ringKind (img s) r = 2) ∧ ringProducer (img s) r = n)
      ∨ ringSegBytes (img s) r < cdRows d * cdRow d + cdAuxBytes d then refuse s n 0x0B050203
    else if !ringFree s r then setHold s n 3
    else issueFetch s n d
  else s

/-- R303. -/
def execFeed (f : Fin 16) (s : State) : Host.Outcome State Fault Refusal := .next (feedIssue s (f.val + 2))

/-- R229, R303, R307: WRITEOUT takes the present segment, from its cursor. -/
def writeoutIssue (s : State) (n : Nat) : State :=
  if begun s n 0x12 && idle s n then
    let w := (strand s n).word
    let r := wFld w 79 74
    let desc := fetchDescAddr 0x12 w
    let d := mread s.brd.mem desc 64
    let len := cdRows d * cdRow d
    if !fetchDescOk s 0x12 d then refuse s n 0x0B050305
    else if ¬(ringKind (img s) r = 3 ∧ ringConsumer (img s) r = n) ∨ ringSegBytes (img s) r < len then refuse s n 0x0B050203
    else if !ringReady s r then setHold s n 3
    else
      let l := segNow s r
      if l.rows * l.rowBytes + l.aux < (ring s r).cursor + len then refuse s n 0x0B050203
      else issueFetch s n d
  else s

/-- R303. -/
def execWriteout (f : Fin 16) (s : State) : Host.Outcome State Fault Refusal := .next (writeoutIssue s (f.val + 2))

/-! ## Completion -/

/-- May the Fetch instruction of word `w` deliver its bytes (R300, R301)? -/
def fetchVerifies (s : State) (n : Nat) (w : BitVec 128) : Bool :=
  let d := (strand s n).desc
  let r := wFld w 79 74
  if wOp w = 0x12 then
    rangeVerifies s.brd.mem s.brd.check (segAddr s r (ring s r).c + (ring s r).cursor) (cdRows d * cdRow d)
  else rowsVerify s (cdSrc d) (cdSrcPitch d) (cdRow d) (cdRows d) &&
    (decide (cdAux d = locNone) || locVerifies s (cdAux d) (cdAuxBytes d))

/-- A Fetch instruction completes: its bytes and their check values are at the destination; a FEED produces its segment, a
WRITEOUT moves the cursor or releases (R226, R299, R303, R307). -/
def fetchComplete (s : State) (n : Nat) (w : BitVec 128) : State :=
  let r := wFld w 79 74
  let d := (strand s n).desc
  if wOp w = 0x12 then
    let b := mread s.brd.mem (segAddr s r (ring s r).c + (ring s r).cursor) (cdRows d * cdRow d)
    let s := writeRows s (cdDst d) (cdDstPitch d) (cdRow d) (cdRows d) b
    if wFld w 51 51 = 1 then release s r
    else let x := ring s r; setRing s r { x with cursor := x.cursor + cdRows d * cdRow d }
  else
    let b := readRows s (cdSrc d) (cdSrcPitch d) (cdRow d) (cdRows d)
    if wOp w = 0x11 then
      let aux := if cdAux d = locNone then [] else locRead s (cdAux d) (cdAuxBytes d)
      produce (boardWrite s (segAddr s r (ring s r).p) (b ++ aux)) r ⟨cdRows d, cdRow d, cdAuxBytes d⟩
    else writeRows s (cdDst d) (cdDstPitch d) (cdRow d) (cdRows d) b

end Sys2Proof.Machine
end

