-- ==== Sys2Proof/Machine/Rods.lean ====
section
/-!
DEFINITION. The Rods (spec/05; spec/07 R278 to R280): moves, elementwise arithmetic, functions, sorting, hashing, string
comparison, gather and scatter, the transpose and the norm store.
-/
namespace Sys2Proof.Machine

/-! ## Operands of a Rods word (Tables 7-12, 7-13, 7-15) -/

/-- Element bytes by TYPE (Table 5-1). -/
def tyBytes (t : Nat) : Nat :=
  match t with
  | 0 | 1 => 1
  | 4 => 8
  | 5 | 6 => 2
  | _ => 4

/-- The local address of a local field. -/
def laddr (w : BitVec 128) (hi : Nat) : Nat := wFld w hi (hi - 14) * 64

/-- D, A, B and C of format V. -/
def fD (w : BitVec 128) : Nat := laddr w 79
/-- A. -/
def fA (w : BitVec 128) : Nat := laddr w 64
/-- B. -/
def fB (w : BitVec 128) : Nat := laddr w 49
/-- C. -/
def fC (w : BitVec 128) : Nat := laddr w 34
/-- n of N_M1. -/
def fN (w : BitVec 128) : Nat := wFld w 19 4 + 1
/-- TYPE of layout T. -/
def fType (w : BitVec 128) : Nat := wFld w 3 1
/-- The element type of layout F. -/
def fFtype (w : BitVec 128) : Nat :=
  match wFld w 3 2 with
  | 0 => 7
  | 1 => 5
  | _ => 6
/-- INF of layout F. -/
def fInf (w : BitVec 128) : Bool := bitOf w.toNat 1
/-- CHECK of layout F. -/
def fCheck (w : BitVec 128) : Bool := bitOf w.toNat 0

/-- A local operand: its address and its bytes. -/
abbrev Oper := Nat × Nat

/-- Does an operand lie in local memory (R168)? -/
def operIn (o : Oper) : Bool := decide (o.1 + o.2 ≤ localBytes)
/-- Are two operands apart? -/
def operApart (a b : Oper) : Bool := decide (a.1 + a.2 ≤ b.1 ∨ b.1 + b.2 ≤ a.1)

/-- R168: results and sources lie in local memory, a result shares no more than its start with a source, and no two
results overlap. -/
def opersOk (results sources : List Oper) : Bool :=
  results.all operIn && sources.all operIn &&
  (results.all fun r => sources.all fun x => operApart r x || decide (r.1 = x.1)) && pairwiseApart results
where
  /-- No two of a list overlap. -/
  pairwiseApart : List Oper → Bool
    | [] => true
    | r :: rs => rs.all (operApart r) && pairwiseApart rs

/-- A vector of n elements of `k` bytes. -/
def vecRead (m : Mem) (a k n : Nat) : List Nat := (List.range n).map fun i => mnat m (a + k * i) k

/-- A vector written. -/
def vecWrite (m : Mem) (a k : Nat) (xs : List Nat) : Mem := mwrite m a (xs.flatMap (natLE k))

/-- The common issue of a Rods opcode (R168 to R170, R269): the cluster is free, the instruction is refused or has its
effect, and issues. `st` is the state an effect that must hold answers. -/
def rodsIssue (s : State) (c op : Nat) (refusal : State → BitVec 128 → Option Nat) (eff : State → BitVec 128 → State) : State :=
  let n := 18 + c
  if begun s n op && idle s n then
    let w := (strand s n).word
    match refusal s w with
    | some code => refuse s n code
    | none => issueStrand (eff s w) n
  else s

/-- R168's refusal. -/
def opersRefusal (results sources : List Oper) : Option Nat := if opersOk results sources then none else some 0x0B040001

/-- The effect of an instruction on its cluster's local memory alone. -/
def onLocal (c : Nat) (f : Mem → BitVec 128 → Mem) (s : State) (w : BitVec 128) : State := setLmem s c (f (lmem s c) w)

/-! ## Integer arithmetic (R173) -/

/-- Element bits by TYPE. -/
def tyBits (t : Nat) : Nat := 8 * tyBytes t

/-- The integer value of an element of I32, U32 or U64 (and U8, I8). -/
def tyInt (t x : Nat) : Int := if t = 2 ∨ t = 1 then toSigned (tyBits t) x else x

/-- The range of an integer type. -/
def tyMin (t : Nat) : Int := if t = 2 ∨ t = 1 then -(2 ^ (tyBits t - 1) : Nat) else 0
/-- The largest value of an integer type. -/
def tyMax (t : Nat) : Int := if t = 2 ∨ t = 1 then (2 ^ (tyBits t - 1) : Nat) - 1 else (2 ^ tyBits t : Nat) - 1

/-- An integer clamped to a type's range (ADDS, SUBS, CVT). -/
def satTy (t : Nat) (x : Int) : Int := max (tyMin t) (min (tyMax t) x)

/-- All ones of a type. -/
def tyOnes (t : Nat) : Nat := 2 ^ tyBits t - 1

/-- ADD, SUB, MUL, ADDS, SUBS, NEG, ABS. -/
def intArith (op t a b : Nat) : Nat :=
  let w := tyBits t
  match op with
  | 0x20 => ofSigned w (tyInt t a + tyInt t b)
  | 0x21 => ofSigned w (tyInt t a - tyInt t b)
  | 0x22 => ofSigned w (tyInt t a * tyInt t b)
  | 0x23 => ofSigned w (satTy t (tyInt t a + tyInt t b))
  | 0x24 => ofSigned w (satTy t (tyInt t a - tyInt t b))
  | 0x25 => ofSigned w (-tyInt t a)
  | _ => if tyInt t a < 0 then ofSigned w (-tyInt t a) else a

/-- AND, OR, XOR, NOT, SHL, SHR, SAR; shift amounts modulo the width. -/
def intLogic (op t a b : Nat) : Nat :=
  let w := tyBits t
  let k := b % w
  match op with
  | 0x28 => a &&& b
  | 0x29 => a ||| b
  | 0x2A => a ^^^ b
  | 0x2B => tyOnes t - a
  | 0x2C => a * 2 ^ k % 2 ^ w
  | 0x2D => a / 2 ^ k
  | _ => if bitOf a (w - 1) then a / 2 ^ k + (2 ^ k - 1) * 2 ^ (w - k) else a / 2 ^ k

/-- The format code of a floating-point TYPE (Table 1-1). -/
def tyFmt (t : Nat) : Nat :=
  match t with
  | 5 => 9
  | 6 => 0xA
  | _ => 0xB

/-- Is a TYPE floating-point? -/
def tyFloat (t : Nat) : Bool := decide (5 ≤ t)

/-- An element's number. -/
def tyFv (t x : Nat) : Fv :=
  if tyFloat t then decodeFmt (tyFmt t) x else .ofDy ⟨tyInt t x, 0⟩ false

/-- CMPEQ, CMPNE, CMPLT, CMPLE. -/
def compare (op t a b : Nat) : Nat :=
  let x := tyFv t a
  let y := tyFv t b
  let r := match op with
    | 0x30 => fvEq x y
    | 0x31 => !fvEq x y
    | 0x32 => fvLt x y
    | _ => fvLt x y || fvEq x y
  if r then tyOnes t else 0

/-- Elementwise D ← f(A, B) over a typed vector. -/
def map2 (c : Nat) (f : Nat → Nat → Nat → Nat) (s : State) (w : BitVec 128) : State :=
  let t := fType w
  let k := tyBytes t
  onLocal c (fun m w => vecWrite m (fD w) k (List.zipWith (f t) (vecRead m (fA w) k (fN w)) (vecRead m (fB w) k (fN w)))) s w

/-- Operands D, A, B of a typed vector. -/
def map2Refusal (_ : State) (w : BitVec 128) : Option Nat :=
  let n := fN w * tyBytes (fType w)
  opersRefusal [(fD w, n)] [(fA w, n), (fB w, n)]

/-- Operands D, A of a typed vector. -/
def map1Refusal (_ : State) (w : BitVec 128) : Option Nat :=
  let n := fN w * tyBytes (fType w)
  opersRefusal [(fD w, n)] [(fA w, n)]

/-- Elementwise D ← f(A). -/
def map1 (c : Nat) (f : Nat → Nat → Nat) (s : State) (w : BitVec 128) : State :=
  let t := fType w
  let k := tyBytes t
  onLocal c (fun m w => vecWrite m (fD w) k ((vecRead m (fA w) k (fN w)).map (f t))) s w

/-- An integer opcode of two sources. -/
def intOp2 (s : State) (c op : Nat) (f : Nat → Nat → Nat → Nat) : State := rodsIssue s c op map2Refusal (map2 c f)
/-- An integer opcode of one source. -/
def intOp1 (s : State) (c op : Nat) (f : Nat → Nat → Nat) : State := rodsIssue s c op map1Refusal (map1 c f)

/-- R173. -/
def execAdd (c : Fin 16) (s : State) : Host.Outcome State Fault Refusal := .next (intOp2 s c 0x20 (intArith 0x20))
/-- R173. -/
def execSub (c : Fin 16) (s : State) : Host.Outcome State Fault Refusal := .next (intOp2 s c 0x21 (intArith 0x21))
/-- R173. -/
def execMul (c : Fin 16) (s : State) : Host.Outcome State Fault Refusal := .next (intOp2 s c 0x22 (intArith 0x22))
/-- R173. -/
def execAdds (c : Fin 16) (s : State) : Host.Outcome State Fault Refusal := .next (intOp2 s c 0x23 (intArith 0x23))
/-- R173. -/
def execSubs (c : Fin 16) (s : State) : Host.Outcome State Fault Refusal := .next (intOp2 s c 0x24 (intArith 0x24))
/-- R173. -/
def execNeg (c : Fin 16) (s : State) : Host.Outcome State Fault Refusal := .next (intOp1 s c 0x25 fun t a => intArith 0x25 t a 0)
/-- R173. -/
def execIabs (c : Fin 16) (s : State) : Host.Outcome State Fault Refusal := .next (intOp1 s c 0x26 fun t a => intArith 0x26 t a 0)
/-- R173. -/
def execAnd (c : Fin 16) (s : State) : Host.Outcome State Fault Refusal := .next (intOp2 s c 0x28 (intLogic 0x28))
/-- R173. -/
def execOr (c : Fin 16) (s : State) : Host.Outcome State Fault Refusal := .next (intOp2 s c 0x29 (intLogic 0x29))
/-- R173. -/
def execXor (c : Fin 16) (s : State) : Host.Outcome State Fault Refusal := .next (intOp2 s c 0x2A (intLogic 0x2A))
/-- R173. -/
def execNot (c : Fin 16) (s : State) : Host.Outcome State Fault Refusal := .next (intOp1 s c 0x2B fun t a => intLogic 0x2B t a 0)
/-- R173. -/
def execShl (c : Fin 16) (s : State) : Host.Outcome State Fault Refusal := .next (intOp2 s c 0x2C (intLogic 0x2C))
/-- R173. -/
def execShr (c : Fin 16) (s : State) : Host.Outcome State Fault Refusal := .next (intOp2 s c 0x2D (intLogic 0x2D))
/-- R173. -/
def execSar (c : Fin 16) (s : State) : Host.Outcome State Fault Refusal := .next (intOp2 s c 0x2E (intLogic 0x2E))
/-- R173. -/
def execCmpeq (c : Fin 16) (s : State) : Host.Outcome State Fault Refusal := .next (intOp2 s c 0x30 (compare 0x30))
/-- R173. -/
def execCmpne (c : Fin 16) (s : State) : Host.Outcome State Fault Refusal := .next (intOp2 s c 0x31 (compare 0x31))
/-- R173. -/
def execCmplt (c : Fin 16) (s : State) : Host.Outcome State Fault Refusal := .next (intOp2 s c 0x32 (compare 0x32))
/-- R173. -/
def execCmple (c : Fin 16) (s : State) : Host.Outcome State Fault Refusal := .next (intOp2 s c 0x33 (compare 0x33))

/-- R173: SEL judges C by its bit pattern. -/
def selIssue (s : State) (c : Nat) : State :=
  rodsIssue s c 0x34
    (fun _ w => let n := fN w * tyBytes (fType w); opersRefusal [(fD w, n)] [(fA w, n), (fB w, n), (fC w, n)])
    (onLocal c fun m w =>
      let k := tyBytes (fType w)
      vecWrite m (fD w) k ((List.range (fN w)).map fun i =>
        if mnat m (fC w + k * i) k ≠ 0 then mnat m (fA w + k * i) k else mnat m (fB w + k * i) k))

/-- R173. -/
def execSel (c : Fin 16) (s : State) : Host.Outcome State Fault Refusal := .next (selIssue s c)

/-! ## Floating-point arithmetic (R172, R174, R202) -/

/-- A binary32 result written in a TYPE: BF16 and FP16 by R39 and R40. -/
def toTy (t : Nat) (inf : Bool) (x : Word) : Nat :=
  if t = 7 then x.toNat else (convFmt (tyFmt t) inf (f32 x)).code

/-- An element converted exactly to binary32. -/
def tyTo32 (t x : Nat) : Word := toF32 (decodeFmt (tyFmt t) x)

/-- The minimum or maximum (R174). -/
def fMinMax (isMax : Bool) (a b : Word) : Word :=
  let x := f32 a
  let y := f32 b
  if x.isNan then (if y.isNan then nan32 else b)
  else if y.isNan then a
  else if isMax then (if fvTotLt x y then b else a) else (if fvTotLt y x then b else a)

/-- Non-finite elements among those written. -/
def nonfiniteCount (t : Nat) (xs : List Nat) : Nat := (xs.filter fun x => !(tyFv t x).isFin).length

/-- R202: under CHECK, non-finite elements written are counted and raise 0x0104_0002 once. -/
def checkWritten (s : State) (chk : Bool) (n : Nat) : State :=
  if chk && decide (0 < n) then
    raise { s with rod := { s.rod with jobNonfinite := satAdd32 s.rod.jobNonfinite n } } 0x01040002 .event
  else s

/-- A floating-point opcode: n elements formed by `f` from the sources, written and checked. -/
def floatEff (c : Nat) (f : Word → Word → Word → Word) (s : State) (w : BitVec 128) : State :=
  let t := fFtype w
  let k := tyBytes t
  let m := lmem s c
  let src := fun a i => tyTo32 t (mnat m (a + k * i) k)
  let xs := (List.range (fN w)).map fun i => toTy t (fInf w) (f (src (fA w) i) (src (fB w) i) (src (fC w) i))
  checkWritten (setLmem s c (vecWrite m (fD w) k xs)) (fCheck w) (nonfiniteCount t xs)

/-- A floating-point opcode of 1, 2 or 3 sources. -/
def floatOp (s : State) (c op srcs : Nat) (f : Word → Word → Word → Word) : State :=
  rodsIssue s c op
    (fun _ w => let n := fN w * tyBytes (fFtype w)
                opersRefusal [(fD w, n)] ([(fA w, n), (fB w, n), (fC w, n)].take srcs))
    (floatEff c f)

/-- R172. -/
def execFadd (c : Fin 16) (s : State) : Host.Outcome State Fault Refusal := .next (floatOp s c 0x40 2 fun a b _ => fAdd a b)
/-- R172. -/
def execFsub (c : Fin 16) (s : State) : Host.Outcome State Fault Refusal := .next (floatOp s c 0x41 2 fun a b _ => fSub a b)
/-- R172. -/
def execFmul (c : Fin 16) (s : State) : Host.Outcome State Fault Refusal := .next (floatOp s c 0x42 2 fun a b _ => fMul a b)
/-- R172. -/
def execFma (c : Fin 16) (s : State) : Host.Outcome State Fault Refusal := .next (floatOp s c 0x43 3 fFma)
/-- R174. -/
def execFmin (c : Fin 16) (s : State) : Host.Outcome State Fault Refusal := .next (floatOp s c 0x44 2 fun a b _ => fMinMax false a b)
/-- R174. -/
def execFmax (c : Fin 16) (s : State) : Host.Outcome State Fault Refusal := .next (floatOp s c 0x45 2 fun a b _ => fMinMax true a b)
/-- R172. -/
def execFabs (c : Fin 16) (s : State) : Host.Outcome State Fault Refusal :=
  .next (floatOp s c 0x46 1 fun a _ _ => if isNan32 a then nan32 else a &&& 0x7FFFFFFF)
/-- R172. -/
def execFneg (c : Fin 16) (s : State) : Host.Outcome State Fault Refusal :=
  .next (floatOp s c 0x47 1 fun a _ _ => if isNan32 a then nan32 else a ^^^ 0x80000000)
/-- R172. -/
def execFdiv (c : Fin 16) (s : State) : Host.Outcome State Fault Refusal := .next (floatOp s c 0x48 2 fun a b _ => fDiv a b)
/-- R172. -/
def execFsqrt (c : Fin 16) (s : State) : Host.Outcome State Fault Refusal := .next (floatOp s c 0x49 1 fun a _ _ => fSqrt a)

/-- R174: one element converted between two types. -/
def cvtElem (st dt : Nat) (inf : Bool) (x : Nat) : Nat :=
  let v := tyFv st x
  if tyFloat dt then (if dt = 7 then (toF32 v).toNat else (convFmt (tyFmt dt) inf v).code)
  else (convInt (tyBits dt) (tyMin dt) (tyMax dt) 0 v).code

/-- R174, R278: CVT. -/
def cvtIssue (s : State) (c : Nat) : State :=
  rodsIssue s c 0x4C
    (fun _ w => opersRefusal [(fD w, fN w * tyBytes (wFld w 49 47))] [(fA w, fN w * tyBytes (fType w))])
    (fun s w =>
      let st := fType w
      let dt := wFld w 49 47
      let m := lmem s c
      let xs := (vecRead m (fA w) (tyBytes st) (fN w)).map (cvtElem st dt (bitOf w.toNat 46))
      checkWritten (setLmem s c (vecWrite m (fD w) (tyBytes dt) xs)) (fCheck w) (if tyFloat dt then nonfiniteCount dt xs else 0))

/-- R174. -/
def execCvt (c : Fin 16) (s : State) : Host.Outcome State Fault Refusal := .next (cvtIssue s c)

/-- Table 5-2: MAP through a 256-byte table. -/
def mapIssue (s : State) (c : Nat) : State :=
  rodsIssue s c 0x4D (fun _ w => opersRefusal [(fD w, fN w)] [(fA w, fN w), (fC w, 256)])
    (onLocal c fun m w => vecWrite m (fD w) 1 ((vecRead m (fA w) 1 (fN w)).map fun x => (mget m (fC w + x)).toNat))

/-- Table 5-2. -/
def execMap (c : Fin 16) (s : State) : Host.Outcome State Fault Refusal := .next (mapIssue s c)

/-! ## Functions (R177, R178) -/

/-- EXP, EXP2, LOG, LOG2, RSQRT, ERF: IEEE 754-2019 clause 9.2 at special inputs (R178), else within the stated error (log 8). -/
def specialFn (f : Config.Fn) (x : Word) : Word :=
  match f, f32 x with
  | _, .nan => nan32
  | .exp, .inf neg | .exp2, .inf neg => if neg then 0 else 0x7F800000
  | .log, .inf neg | .log2, .inf neg => if neg then nan32 else 0x7F800000
  | .rsqrt, .inf neg => if neg then nan32 else 0
  | .exp, .fin _ 0 _ | .exp2, .fin _ 0 _ => one32
  | .log, .fin _ 0 _ | .log2, .fin _ 0 _ => 0xFF800000
  | .rsqrt, .fin neg 0 _ => if neg then 0xFF800000 else 0x7F800000
  | .log, .fin true _ _ | .log2, .fin true _ _ | .rsqrt, .fin true _ _ => nan32
  | .log, _ => if x = one32 then 0 else boundedFn .log x
  | .log2, _ => if x = one32 then 0 else boundedFn .log2 x
  | .erf, .inf neg => if neg then 0xBF800000 else one32
  | g, _ => boundedFn g x

/-- A function opcode. -/
def fnOp (s : State) (c op : Nat) (f : Word → Word) : State := floatOp s c op 1 fun a _ _ => f a

/-- R177. -/
def execExp (c : Fin 16) (s : State) : Host.Outcome State Fault Refusal := .next (fnOp s c 0x50 (specialFn .exp))
/-- R177. -/
def execExp2 (c : Fin 16) (s : State) : Host.Outcome State Fault Refusal := .next (fnOp s c 0x51 (specialFn .exp2))
/-- R177. -/
def execLog (c : Fin 16) (s : State) : Host.Outcome State Fault Refusal := .next (fnOp s c 0x52 (specialFn .log))
/-- R177. -/
def execLog2 (c : Fin 16) (s : State) : Host.Outcome State Fault Refusal := .next (fnOp s c 0x53 (specialFn .log2))
/-- R177. -/
def execRsqrt (c : Fin 16) (s : State) : Host.Outcome State Fault Refusal := .next (fnOp s c 0x54 (specialFn .rsqrt))
/-- R177. -/
def execErf (c : Fin 16) (s : State) : Host.Outcome State Fault Refusal := .next (fnOp s c 0x55 (specialFn .erf))
/-- R177: the Edge's ACT 0x3. -/
def execSigmoid (c : Fin 16) (s : State) : Host.Outcome State Fault Refusal := .next (fnOp s c 0x56 (activate 3 0))
/-- R177: ACT 0x4. -/
def execTanh (c : Fin 16) (s : State) : Host.Outcome State Fault Refusal := .next (fnOp s c 0x57 (activate 4 0))
/-- R177: ACT 0x5. -/
def execSoftplus (c : Fin 16) (s : State) : Host.Outcome State Fault Refusal := .next (fnOp s c 0x58 (activate 5 0))
/-- R177: ACT 0x6. -/
def execElu (c : Fin 16) (s : State) : Host.Outcome State Fault Refusal := .next (fnOp s c 0x59 (activate 6 0))
/-- R177: ACT 0x7. -/
def execGelu (c : Fin 16) (s : State) : Host.Outcome State Fault Refusal := .next (fnOp s c 0x5A (activate 7 0))
/-- R177: ACT 0x8. -/
def execSilu (c : Fin 16) (s : State) : Host.Outcome State Fault Refusal := .next (fnOp s c 0x5B (activate 8 0))

/-- The derivative d of GELUD and SILUD (R177, R178). -/
def derivFn (f : Config.Fn) (x : Word) : Word :=
  match f32 x with
  | .nan => nan32
  | .inf neg => if neg then 0 else one32
  | .fin _ _ _ => boundedFn f x

/-- R177, R178: GELUD and SILUD write y to D and d to C. -/
def dualIssue (s : State) (c op act : Nat) (f : Config.Fn) : State :=
  rodsIssue s c op
    (fun _ w => let n := fN w * tyBytes (fFtype w); opersRefusal [(fD w, n), (fC w, n)] [(fA w, n)])
    (fun s w =>
      let t := fFtype w
      let k := tyBytes t
      let m := lmem s c
      let xs := (vecRead m (fA w) k (fN w)).map (tyTo32 t)
      let ys := xs.map fun x => toTy t (fInf w) (activate act 0 x)
      let ds := xs.map fun x => toTy t (fInf w) (derivFn f x)
      checkWritten (setLmem s c (vecWrite (vecWrite m (fD w) k ys) (fC w) k ds)) (fCheck w)
        (nonfiniteCount t ys + nonfiniteCount t ds))

/-- R177. -/
def execGelud (c : Fin 16) (s : State) : Host.Outcome State Fault Refusal := .next (dualIssue s c 0x5C 7 .dgelu)
/-- R177. -/
def execSilud (c : Fin 16) (s : State) : Host.Outcome State Fault Refusal := .next (dualIssue s c 0x5D 8 .dsilu)

/-! ## Moves (R170, R226, R229, R280) -/

/-- Bytes of a format M move. -/
def mBytes (w : BitVec 128) : Nat := (wFld w 29 15 + 1) * 64
/-- MEM of format M in bytes. -/
def mMem (w : BitVec 128) : Nat := wFld w 63 30 * 64
/-- The location of a format M move. -/
def mLoc (w : BitVec 128) : Nat := mMem w + (if wFld w 64 64 = 1 then 2 ^ 63 else 0)

/-- LOAD's refusals at issue. -/
def loadRefusal (s : State) (n : Nat) (w : BitVec 128) : Option Nat :=
  if localBytes < fD w + mBytes w then some 0x0B040001
  else if wFld w 8 8 = 1 then
    let r := wFld w 14 9
    if ringKind (img s) r = 3 ∧ ringConsumer (img s) r = n ∧ mMem w + mBytes w ≤ ringSegBytes (img s) r then none else some 0x0B050203
  else if locValid s (mLoc w) (mBytes w) then none else some 0x0B040003

/-- R170: LOAD issues; it moves bytes of memory, or of the ring's present segment, into local memory by its completion
(log 48). -/
def loadIssue (s : State) (c : Nat) : State :=
  let n := 18 + c
  if begun s n 0x10 && idle s n then
    let w := (strand s n).word
    let r := wFld w 14 9
    match loadRefusal s n w with
    | some code => refuse s n code
    | none =>
      if wFld w 8 8 = 1 then
        if !ringReady s r then setHold s n 3
        else
          let l := segNow s r
          if l.rows * l.rowBytes + l.aux < mMem w + mBytes w then refuse s n 0x0B050203 else issueStrand s n
      else issueStrand s n
  else s

/-- LOAD's bytes come from the ring's present segment, or from a location. -/
def loadSource (s : State) (w : BitVec 128) : Bytes :=
  let r := wFld w 14 9
  if wFld w 8 8 = 1 then mread s.brd.mem (segAddr s r (ring s r).c + mMem w) (mBytes w) else locRead s (mLoc w) (mBytes w)

/-- A completed LOAD (R170); RELEASE releases the segment (R226). -/
def loadDone (s : State) (c : Nat) (w : BitVec 128) : State :=
  let s := setLmem s c (mwrite (lmem s c) (fD w) (loadSource s w))
  if wFld w 8 8 = 1 ∧ wFld w 7 7 = 1 then release s (wFld w 14 9) else s

/-- R170. -/
def execLoad (c : Fin 16) (s : State) : Host.Outcome State Fault Refusal := .next (loadIssue s c)

/-- R170: STORE moves local memory to the Board or HBM. -/
def storeIssue (s : State) (c : Nat) : State :=
  rodsIssue s c 0x11
    (fun s w => if localBytes < fD w + mBytes w then some 0x0B040001
                else if locValid s (mLoc w) (mBytes w) then none else some 0x0B040003)
    fun s _ => s

/-- A completed STORE. -/
def storeDone (s : State) (c : Nat) (w : BitVec 128) : State := locWrite s (mLoc w) (mread (lmem s c) (fD w) (mBytes w))

/-- R170. -/
def execStore (c : Fin 16) (s : State) : Host.Outcome State Fault Refusal := .next (storeIssue s c)

/-! ## Gather and scatter (R189 to R192, R279) -/

/-- A region descriptor's BASE, LENGTH and TYPE. -/
structure Region where
  base : Nat
  len  : Nat
  ty   : Nat

/-- The region descriptor that REG names. -/
def region (m : Mem) (w : BitVec 128) : Region :=
  let a := fB w
  ⟨mnat m a 4, mnat m (a + 4) 4, mnat m (a + 8) 1⟩

/-- Refusals of GATHER, SCATTER and SCATTER_ADD at issue (R168, R189, R280). -/
def gatherRefusal (c : Nat) (gather add : Bool) (s : State) (w : BitVec 128) : Option Nat :=
  let m := lmem s c
  let r := region m w
  let n := fN w
  if localBytes < fB w + 16 then some 0x0B040001
  else if r.base % 64 ≠ 0 ∨ r.len = 0 ∨ 7 < r.ty ∨ mnat m (fB w + 9) 7 ≠ 0 then some 0x0B040006
  else if add ∧ ¬(r.ty = 2 ∨ r.ty = 3) then some 0x0B040002
  else if replayBase < r.base + r.len * tyBytes r.ty then some 0x0B040003
  else
    let d := (fD w, n * tyBytes r.ty)
    let rest : List Oper := [(fA w, 4 * n), (fB w, 16)]
    if gather then opersRefusal [d] rest else opersRefusal [] (d :: rest)

/-- R189: one index outside the region raises 0x0104_0001, once for the instruction. -/
def indexCheck (s : State) (idx : List Nat) (len : Nat) : State :=
  if idx.any fun i => decide (len ≤ i) then raise s 0x01040001 .jobEnding else s

/-- R189: GATHER. -/
def gatherIssue (s : State) (c : Nat) : State := rodsIssue s c 0x12 (gatherRefusal c true false) fun s _ => s

/-- A completed GATHER: an index outside the region gives zero. -/
def gatherDone (s : State) (c : Nat) (w : BitVec 128) : State :=
  let m := lmem s c
  let r := region m w
  let k := tyBytes r.ty
  let idx := vecRead m (fA w) 4 (fN w)
  let xs := idx.map fun i => if i < r.len then mnat s.brd.mem (r.base + k * i) k else 0
  indexCheck (setLmem s c (vecWrite m (fD w) k xs)) idx r.len

/-- R189. -/
def execGather (c : Fin 16) (s : State) : Host.Outcome State Fault Refusal := .next (gatherIssue s c)

/-- R189, R190: the elements of a scatter, in ascending order, by `f` of the old and the new element. -/
def scatterDone (s : State) (c : Nat) (w : BitVec 128) (f : Nat → Nat → Nat) : State :=
  let m := lmem s c
  let r := region m w
  let k := tyBytes r.ty
  let idx := vecRead m (fA w) 4 (fN w)
  let out := (List.zip idx (vecRead m (fD w) k (fN w))).foldl (fun s (i, x) =>
    if i < r.len then boardWrite s (r.base + k * i) (natLE k (f (mnat s.brd.mem (r.base + k * i) k) x)) else s) s
  indexCheck out idx r.len

/-- R189. -/
def execScatter (c : Fin 16) (s : State) : Host.Outcome State Fault Refusal :=
  .next (rodsIssue s c 0x13 (gatherRefusal c false false) fun s _ => s)
/-- R190. -/
def execScatterAdd (c : Fin 16) (s : State) : Host.Outcome State Fault Refusal :=
  .next (rodsIssue s c 0x14 (gatherRefusal c false true) fun s _ => s)

/-! ## The transpose (R139, R193, R279) -/

/-- Refusals of TPOSE at issue (R193, R280; log 17). -/
def tposeRefusal (c : Nat) (s : State) (w : BitVec 128) : Option Nat :=
  let a := fD w
  let b := mread (lmem s c) a 64
  let rows := fld b 0x18 2
  let cols := fld b 0x1A 2
  let e := fld b 0x1C 1
  let g := mapCols (img s)
  let src := fld b 0 8
  let dst := fld b 8 8
  if localBytes < a + 64 then some 0x0B040001
  else if rows < 1 ∨ 1024 < rows ∨ cols < 1 ∨ 1024 < cols ∨ ¬(e = 1 ∨ e = 2 ∨ e = 4) then some 0x0B040005
  else if fld b 0x10 4 % 64 ≠ 0 ∨ fld b 0x14 4 % 64 ≠ 0 ∨ !allZero b 0x1D 3 ∨ !allZero b 0x30 16
    ∨ ((fld b 0x20 8 = locNone) ≠ (fld b 0x28 8 = locNone)) then some 0x0B040006
  else if locAddr src % 64 ≠ 0 ∨ locAddr dst % 64 ≠ 0 ∨ !locValid s src (extent rows (cols * e) (fld b 0x10 4))
    ∨ !locValid s dst (extent cols (rows * e) (fld b 0x14 4))
    ∨ (fld b 0x20 8 ≠ locNone ∧ (!locValid s (fld b 0x20 8) (cmapBytes g rows cols) ∨ !locValid s (fld b 0x28 8) (cmapBytes g cols rows)))
    then some 0x0B040003
  else none

/-- The transposed ceiling map (R139, R293): line by line over the C x R tensor. -/
def tposeMap (s : State) (loc rows cols : Nat) : Bytes :=
  let g := mapCols (img s)
  (List.range (ceilDiv rows (64 * g))).flatMap fun j => (List.range (ceilDiv cols 64)).flatMap fun i =>
    let es := (List.range g).flatMap fun t =>
      let cb := g * j + t
      if cb < ceilDiv rows 64 then natLE 2 (ofSigned 16 (cmapEntry s g loc rows cb i)) else natLE 2 0
    es ++ zeros (64 - es.length)

/-- Cluster c's request for the transpose port is pending, or no longer (R288, R320). -/
def setTposeReq (s : State) (c : Nat) (on : Bool) : State :=
  { s with brd := { s.brd with tposeReq := if on then s.brd.tposeReq ||| BitVec.ofNat 16 (2 ^ c)
                                           else s.brd.tposeReq &&& ~~~BitVec.ofNat 16 (2 ^ c) } }

/-- R193: TPOSE. -/
def tposeIssue (s : State) (c : Nat) : State :=
  rodsIssue s c 0x15 (tposeRefusal c) fun s _ => setTposeReq s c true

/-- A completed TPOSE. -/
def tposeDone (s : State) (c : Nat) (w : BitVec 128) : State :=
  let b := mread (lmem s c) (fD w) 64
  let rows := fld b 0x18 2
  let cols := fld b 0x1A 2
  let e := fld b 0x1C 1
  let tile := (List.range rows).map fun r => locRead s (locAdd (fld b 0 8) (r * fld b 0x10 4)) (cols * e)
  let cm := fld b 0x20 8
  let map := if cm = locNone then [] else tposeMap s cm rows cols
  let s := (List.range cols).foldl (fun s c' =>
    locWrite s (locAdd (fld b 8 8) (c' * fld b 0x14 4)) (tile.flatMap fun row => (row.drop (c' * e)).take e)) s
  setTposeReq (if cm = locNone then s else locWrite s (fld b 0x28 8) map) c false

/-- R193. -/
def execTpose (c : Fin 16) (s : State) : Host.Outcome State Fault Refusal := .next (tposeIssue s c)

/-! ## Sorting (R179) -/

/-- The order key of a SORT key: U32, I32, FP32 by totalOrder, U64. -/
def sortKey (kt x : Nat) : Nat :=
  match kt with
  | 1 => (x + 2 ^ 31) % 2 ^ 32
  | 2 => if 2 ^ 31 ≤ x then 2 ^ 32 - 1 - x else x + 2 ^ 31
  | _ => x

/-- A record put into a sorted list behind every record that may not follow it (stable). -/
def sortInsert (before : Nat → Nat → Bool) (x : Nat × Nat × Nat) : List (Nat × Nat × Nat) → List (Nat × Nat × Nat)
  | [] => [x]
  | y :: ys => if before x.1 y.1 then x :: y :: ys else y :: sortInsert before x ys

/-- The stable sort of (order key, key, payload). -/
def sortStable (before : Nat → Nat → Bool) (xs : List (Nat × Nat × Nat)) : List (Nat × Nat × Nat) :=
  xs.foldl (fun acc x => sortInsert before x acc) []

/-- R179: SORT in place. -/
def sortIssue (s : State) (c : Nat) : State :=
  rodsIssue s c 0x60
    (fun _ w => let k := if wFld w 3 2 = 3 then 8 else 4; opersRefusal [(fD w, fN w * k), (fA w, fN w * 4)] [])
    (onLocal c fun m w =>
      let kt := wFld w 3 2
      let k := if kt = 3 then 8 else 4
      let desc := bitOf w.toNat 1
      let recs := List.zipWith (fun a b => (sortKey kt a, a, b)) (vecRead m (fD w) k (fN w)) (vecRead m (fA w) 4 (fN w))
      let out := sortStable (fun a b => if desc then decide (b < a) else decide (a < b)) recs
      vecWrite (vecWrite m (fD w) k (out.map fun r => r.2.1)) (fA w) 4 (out.map fun r => r.2.2))

/-- R179. -/
def execSort (c : Fin 16) (s : State) : Host.Outcome State Fault Refusal := .next (sortIssue s c)

/-! ## The device hash (R181 to R183) -/

/-- K1 and K2. -/
def hashK1 : BitVec 64 := 0x9C5A3E1F47B2D86B
/-- K2. -/
def hashK2 : BitVec 64 := 0xC4D31A976E2BF035

/-- mix of R181. -/
def mix (z : BitVec 64) : BitVec 64 :=
  let z := z ^^^ (z >>> 31)
  let z := z * hashK1
  let z := z ^^^ (z >>> 29)
  let z := z * hashK2
  z ^^^ (z >>> 32)

/-- hashstr of R181. -/
def hashStr (b : Bytes) (seed : BitVec 64) : BitVec 64 :=
  (List.range (ceilDiv b.length 8)).foldl (fun h i => mix (h ^^^ BitVec.ofNat 64 (fld b (8 * i) 8)))
    (mix (seed ^^^ BitVec.ofNat 64 b.length))

/-- minhash of R183: entry j of the signature. -/
def minhashEntry (b : Bytes) (q : Nat) (seed : BitVec 64) (j : Nat) : Nat :=
  let g := min b.length q
  let n := if b.length = 0 then 0 else b.length - g + 1
  let sj := mix (seed + BitVec.ofNat 64 j)
  let lo := (List.range n).foldl (fun (lo : BitVec 64) i =>
    let h := mix (BitVec.ofNat 64 (fld b i g) ^^^ sj)
    if h < lo then h else lo) (BitVec.allOnes 64)
  lo.toNat / 2 ^ 32

/-- The hash parameter block at C (Table 7-16): is it sound? `mh` is MINHASH. -/
def hashBlock (c : Nat) (mh : Bool) (s : State) (w : BitVec 128) : Option Nat :=
  let b := mread (lmem s c) (fC w) 64
  if localBytes < fC w + 64 then some 0x0B040001
  else if !allZero b 0x0A 54 then some 0x0B040006
  else if (if mh then 7 < fld b 9 1 else fld b 8 2 ≠ 0) then some 0x0B040005
  else none

/-- A refusal or the next check. -/
def orElse (a b : Option Nat) : Option Nat := match a with | some x => some x | none => b

/-- The seed of the hash parameter block. -/
def hashSeed (m : Mem) (w : BitVec 128) : BitVec 64 := BitVec.ofNat 64 (mnat m (fC w) 8)

/-- R181: HASH64. -/
def hash64Issue (s : State) (c : Nat) : State :=
  rodsIssue s c 0x61
    (fun s w => orElse (hashBlock c false s w) (opersRefusal [(fD w, 8 * fN w)] [(fA w, 8 * fN w), (fC w, 64)]))
    (onLocal c fun m w => vecWrite m (fD w) 8 ((vecRead m (fA w) 8 (fN w)).map fun x =>
      (mix (BitVec.ofNat 64 x ^^^ hashSeed m w)).toNat))

/-- R181. -/
def execHash64 (c : Fin 16) (s : State) : Host.Outcome State Fault Refusal := .next (hash64Issue s c)

/-- String i of a string array (R185): a length above 64 reads as empty. -/
def strAt (m : Mem) (slots lens i : Nat) : Bytes :=
  let n := (mget m (lens + i)).toNat
  if 64 < n then [] else mread m (slots + 64 * i) n

/-- R185: lengths above 64 raise 0x0104_0003 once, with the lowest position and their number. -/
def lenCheck (s : State) (m : Mem) (n : Nat) (lens : List Nat) : State :=
  let bad := indicesWhere n fun i => lens.any fun a => decide (64 < (mget m (a + i)).toNat)
  match bad with
  | i :: _ => raise s 0x01040003 .event (d4 i ++ d4 bad.length)
  | [] => s

/-- R181, R185: HASHSTR. -/
def hashstrIssue (s : State) (c : Nat) : State :=
  rodsIssue s c 0x62
    (fun s w => orElse (hashBlock c false s w)
      (opersRefusal [(fD w, 8 * fN w)] [(fA w, 64 * fN w), (fB w, fN w), (fC w, 64)]))
    (fun s w =>
      let m := lmem s c
      let xs := (List.range (fN w)).map fun i => (hashStr (strAt m (fA w) (fB w) i) (hashSeed m w)).toNat
      lenCheck (setLmem s c (vecWrite m (fD w) 8 xs)) m (fN w) [fB w])

/-- R181. -/
def execHashstr (c : Fin 16) (s : State) : Host.Outcome State Fault Refusal := .next (hashstrIssue s c)

/-- R183: MINHASH; S and q come from the parameter block. -/
def minhashIssue (s : State) (c : Nat) : State :=
  rodsIssue s c 0x63
    (fun s w => orElse (hashBlock c true s w)
      (let sz := mnat (lmem s c) (fC w + 8) 1 + 1
       opersRefusal [(fD w, 4 * sz * fN w)] [(fA w, 64 * fN w), (fB w, fN w), (fC w, 64)]))
    (fun s w =>
      let m := lmem s c
      let sz := mnat m (fC w + 8) 1 + 1
      let q := mnat m (fC w + 9) 1 + 1
      let xs := (List.range (fN w)).flatMap fun i =>
        (List.range sz).map (minhashEntry (strAt m (fA w) (fB w) i) q (hashSeed m w))
      lenCheck (setLmem s c (vecWrite m (fD w) 4 xs)) m (fN w) [fB w])

/-- R183. -/
def execMinhash (c : Fin 16) (s : State) : Host.Outcome State Fault Refusal := .next (minhashIssue s c)

/-! ## String comparison (R185 to R188) -/

/-- One row of the Levenshtein table from the row before, for byte x of a. -/
def editRow (x : Byte) : (left diag : Nat) → Bytes → List Nat → List Nat
  | left, diag, b :: bs, up :: ups =>
    let v := min (min (left + 1) (up + 1)) (diag + (if x = b then 0 else 1))
    v :: editRow x v up bs ups
  | _, _, _, _ => []

/-- R186: the Levenshtein distance. -/
def editDistance (a b : Bytes) : Nat :=
  let row0 := (List.range b.length).map (· + 1)
  let fin := a.zipIdx.foldl (fun row (x, i) => editRow x (i + 1) i b row) row0
  fin.getLastD a.length

/-- Step 3 of R187: the lowest unmatched j with |i − j| ≤ w and b[j] = x. -/
def jwFind (b : Bytes) (used : List Nat) (w i : Nat) (x : Byte) : Option Nat :=
  firstBelow (fun j => decide (i ≤ j + w ∧ j ≤ i + w) && !used.contains j && b.getD j 0 == x) b.length

/-- The matches of R187: pairs (i, j) in ascending i. -/
def jwMatches (a b : Bytes) (w : Nat) : List (Nat × Nat) :=
  a.zipIdx.foldl (fun ms (x, i) =>
    match jwFind b (ms.map Prod.snd) w i x with
    | some j => ms ++ [(i, j)]
    | none => ms) []

/-- The length of the common prefix. -/
def commonPrefix : Bytes → Bytes → Nat
  | x :: xs, y :: ys => if x = y then commonPrefix xs ys + 1 else 0
  | _, _ => 0

/-- R187: the Jaro-Winkler similarity in units of 2^-15. -/
def jaroWinkler (a b : Bytes) : Nat :=
  let la := a.length
  let lb := b.length
  if la = 0 ∧ lb = 0 then 0x8000
  else if la = 0 ∨ lb = 0 then 0
  else
    let ms := jwMatches a b (max la lb / 2 - 1)
    let m := ms.length
    if m = 0 then 0
    else
      let a' := ms.map fun p => a.getD p.1 0
      let b' := (indicesWhere lb fun j => ms.any fun p => p.2 == j).map fun j => b.getD j 0
      let x := ((List.zip a' b').filter fun p => p.1 != p.2).length
      let t := x / 2
      let n := m * m * (la + lb) + (m - t) * la * lb
      let d := 3 * la * lb * m
      let l := min 4 (commonPrefix a b)
      let (n', d') := if 7 * d < 10 * n then ((10 - l) * n + l * d, 10 * d) else (n, d)
      (rneDiv (n' * 2 ^ 15) d').toNat

/-- The pair descriptor at A: refusals of EDIT and JW (R168, R279, R280). -/
def pairRefusal (c : Nat) (s : State) (w : BitVec 128) : Option Nat :=
  let b := mread (lmem s c) (fA w) 64
  let n := fN w
  let a := fun o => fld b o 4
  if localBytes < fA w + 64 then some 0x0B040001
  else if a 0 % 64 ≠ 0 ∨ a 4 % 64 ≠ 0 ∨ a 8 % 64 ≠ 0 ∨ a 12 % 64 ≠ 0 ∨ !allZero b 0x10 48 then some 0x0B040006
  else opersRefusal [(fD w, 4 * n)] [(fA w, 64), (a 0, 64 * n), (a 4, n), (a 8, 64 * n), (a 12, n)]

/-- EDIT and JW: a U32 for each pair of strings. -/
def pairIssue (s : State) (c op : Nat) (f : Bytes → Bytes → Nat) : State :=
  rodsIssue s c op (pairRefusal c) fun s w =>
    let m := lmem s c
    let a := fun o => mnat m (fA w + o) 4
    let xs := (List.range (fN w)).map fun i => f (strAt m (a 0) (a 4) i) (strAt m (a 8) (a 12) i)
    lenCheck (setLmem s c (vecWrite m (fD w) 4 xs)) m (fN w) [a 4, a 12]

/-- R186. -/
def execEdit (c : Fin 16) (s : State) : Host.Outcome State Fault Refusal := .next (pairIssue s c 0x64 editDistance)
/-- R187. -/
def execJw (c : Fin 16) (s : State) : Host.Outcome State Fault Refusal := .next (pairIssue s c 0x65 jaroWinkler)

/-! ## The norm store (R195 to R198) -/

/-- A norm-store entry. -/
def normEntry (s : State) (e : Nat) : NormEntry := sgetD s.rod.norm e {}

/-- A norm-store entry replaced; an entry of zeros is not kept. -/
def setNorm (s : State) (e : Nat) (x : NormEntry) : State :=
  { s with rod := { s.rod with norm := ssetD {} s.rod.norm e x } }

/-- A 64-bit count that holds at its largest value (R195). -/
def hold64 (a : BitVec 64) (n : Nat) : BitVec 64 := BitVec.ofNat 64 (satAdd 64 a.toNat n)

/-- One element's exact sums: in units of 2^-149 and of 2^-298. -/
def normAdd (x : NormEntry) (v : Fv) : NormEntry :=
  if v.isFin then
    { x with s1 := x.s1 + BitVec.ofInt 672 (v.dy.at (-149)), s2 := x.s2 + BitVec.ofInt 672 ((v.dy.mul v.dy).at (-298)),
             terms := hold64 x.terms 1 }
  else { x with nf := hold64 x.nf 1 }

/-- R196: NORM. -/
def normIssue (s : State) (c : Nat) : State :=
  rodsIssue s c 0x70
    (fun _ w => opersRefusal [] [(fA w, fN w * tyBytes (fFtype w))])
    fun s _ => s

/-- At completion the cluster adds its exact sums to the entry (R196). -/
def normDone (s : State) (c : Nat) (w : BitVec 128) : State :=
  let t := fFtype w
  let e := wFld w 49 37
  setNorm s e ((vecRead (lmem s c) (fA w) (tyBytes t) (fN w)).foldl (fun x a => normAdd x (f32 (tyTo32 t a))) (normEntry s e))

/-- R196. -/
def execNorm (c : Fin 16) (s : State) : Host.Outcome State Fault Refusal := .next (normIssue s c)

/-- The 32 bytes of NORMRD (R197). -/
def normBytes (x : NormEntry) : Bytes :=
  natLE 8 x.terms.toNat ++ natLE 4 (min x.nf.toNat 0xFFFFFFFF) ++
  natLE 4 (toF32 (.ofDy ⟨x.s1.toInt, -149⟩ false)).toNat ++ natLE 4 (toF32 (.ofDy ⟨x.s2.toInt, -298⟩ false)).toNat ++
  natLE 4 (toF32 (fvSqrt (.ofDy ⟨x.s2.toInt, -298⟩ false))).toNat ++ zeros 8

/-- R197: NORMRD. -/
def normrdIssue (s : State) (c : Nat) : State :=
  rodsIssue s c 0x71 (fun _ w => opersRefusal [(fD w, 32)] [])
    (fun s w => setLmem s c (mwrite (lmem s c) (fD w) (normBytes (normEntry s (wFld w 49 37)))))

/-- R197. -/
def execNormrd (c : Fin 16) (s : State) : Host.Outcome State Fault Refusal := .next (normrdIssue s c)

/-- R197: NORMCLR. -/
def normclrIssue (s : State) (c : Nat) : State :=
  rodsIssue s c 0x72 (fun _ _ => none) (fun s w => setNorm s (wFld w 49 37) {})

/-- R197. -/
def execNormclr (c : Fin 16) (s : State) : Host.Outcome State Fault Refusal := .next (normclrIssue s c)

/-! ## Completion (log 48) -/

/-- Does every block of Board or HBM that the instruction reads verify (R300)? -/
def rodsVerifies (s : State) (c : Nat) (w : BitVec 128) : Bool :=
  let m := lmem s c
  match wOp w with
  | 0x10 =>
    let r := wFld w 14 9
    if wFld w 8 8 = 1 then rangeVerifies s.brd.mem s.brd.check (segAddr s r (ring s r).c + mMem w) (mBytes w)
    else locVerifies s (mLoc w) (mBytes w)
  | 0x12 =>
    let r := region m w
    let k := tyBytes r.ty
    (vecRead m (fA w) 4 (fN w)).all fun i => decide (r.len ≤ i) || rangeVerifies s.brd.mem s.brd.check (r.base + k * i) k
  | 0x15 =>
    let b := mread m (fD w) 64
    rowsVerify s (fld b 0 8) (fld b 0x10 4) (fld b 0x1A 2 * fld b 0x1C 1) (fld b 0x18 2) &&
    (decide (fld b 0x20 8 = locNone) || locVerifies s (fld b 0x20 8) (cmapBytes (mapCols (img s)) (fld b 0x18 2) (fld b 0x1A 2)))
  | _ => true

/-- What an instruction that moves memory, and NORM, do as they complete; every other Rods instruction has written its results
as it issued, which only its own strand can see (R167, R169). -/
def rodsComplete (s : State) (c : Nat) (w : BitVec 128) : State :=
  match wOp w with
  | 0x10 => loadDone s c w
  | 0x11 => storeDone s c w
  | 0x12 => gatherDone s c w
  | 0x13 => scatterDone s c w fun _ x => x
  | 0x14 => scatterDone s c w fun o x => (o + x) % 2 ^ 32
  | 0x15 => tposeDone s c w
  | 0x70 => normDone s c w
  | _ => s

end Sys2Proof.Machine
end

