-- ==== Sys2Proof/Machine/Training.lean ====
section
/-!
DEFINITION. Training (spec/04): the optimizer instruction OPT and the ratio watch.
-/
namespace Sys2Proof.Machine

/-! ## The weight table (Table 4-2) -/

/-- Weight-table entry e of the loaded image, 64 bytes. -/
def weightEntry (im : Bytes) (e : Nat) : Bytes := slice im (secOff im 4 + 64 * e) 64

/-- W_ADDR. -/
def weW (b : Bytes) : Nat := fld b 0x00 8
/-- WT_ADDR. -/
def weWt (b : Bytes) : Nat := fld b 0x08 8
/-- MASTER_ADDR. -/
def weMaster (b : Bytes) : Nat := fld b 0x10 8
/-- STATE_ADDR. -/
def weState (b : Bytes) : Nat := fld b 0x18 8
/-- ROWS. -/
def weRows (b : Bytes) : Nat := fld b 0x20 4
/-- COLS. -/
def weCols (b : Bytes) : Nat := fld b 0x24 4
/-- FMT. -/
def weFmt (b : Bytes) : Nat := fld b 0x28 1
/-- NWG. -/
def weNwg (b : Bytes) : Bool := bitOf (fld b 0x29 1) 0
/-- ADAPTER. -/
def weAdapter (b : Bytes) : Bool := bitOf (fld b 0x29 1) 1
/-- ENROLLED. -/
def weEnrolled (b : Bytes) : Bool := bitOf (fld b 0x29 1) 2
/-- LAYER. -/
def weLayer (b : Bytes) : Nat := fld b 0x2A 2
/-- RULE. -/
def weRule (b : Bytes) : Nat := fld b 0x2C 1
/-- SEV. -/
def weSev (b : Bytes) : Nat := fld b 0x2D 1
/-- STALL_LIMIT; 0 selects 100. -/
def weStall (b : Bytes) : Nat := if fld b 0x2E 2 = 0 then 100 else fld b 0x2E 2
/-- RATIO_LO. -/
def weLo (b : Bytes) : Word := BitVec.ofNat 32 (fld b 0x30 4)
/-- RATIO_HI. -/
def weHi (b : Bytes) : Word := BitVec.ofNat 32 (fld b 0x34 4)

/-- The pitch of `cols` elements of code `fmt` (R294). -/
def stdPitch (fmt cols : Nat) : Nat := roundUpTo (fmtBits fmt / 8 * cols) 64

/-- The pitch of the master and of the state (R141). -/
def masterPitch (b : Bytes) : Nat := roundUpTo (4 * weCols b) 64

/-! ## The rules (R149, Table 4-4) -/

/-- The parameters of R149. -/
structure OptParams where
  lr : Word
  mu : Word
  b1 : Word
  b2 : Word
  eps : Word
  lam : Word
  c1 : Word
  c2 : Word
  deriving DecidableEq, Repr

/-- Binary32 1. -/
def oneF : Word := 0x3F800000

/-- The parameter block of an optimizer descriptor. -/
def optParams (d : Bytes) : OptParams :=
  let p := fun i => BitVec.ofNat 32 (fld d (4 * i) 4)
  ⟨p 0, p 1, p 2, p 3, p 4, p 5, p 6, p 7⟩

/-- Is a value below zero? -/
def negF (x : Word) : Bool := fvLt (f32 x) (f32 0)

/-- R150: the parameter block is admitted. -/
def optParamsOk (p : OptParams) : Bool :=
  let unit := fun x => !negF x && fvLt (f32 x) (f32 oneF)
  [p.lr, p.mu, p.b1, p.b2, p.eps, p.lam, p.c1, p.c2].all (fun x => (f32 x).isFin) &&
  !negF p.lr && !negF p.lam && unit p.mu && unit p.b1 && unit p.b2 &&
  fvLt (f32 0) (f32 p.eps) && !fvLt (f32 p.c1) (f32 oneF) && !fvLt (f32 p.c2) (f32 oneF)

/-- One element by Table 4-4: the new w, m and v from the gradient g. -/
def optRule (rule : Nat) (p : OptParams) (g w m v : Word) : Word × Word × Word :=
  match rule with
  | 1 => (fSub w (fMul p.lr g), m, v)
  | 2 =>
    let m := fAdd (fMul p.mu m) g
    (fSub w (fMul p.lr m), m, v)
  | _ =>
    let k1 := fSub oneF p.b1
    let k2 := fSub oneF p.b2
    let m := fAdd (fMul p.b1 m) (fMul k1 g)
    let v := fAdd (fMul p.b2 v) (fMul k2 (fMul g g))
    let b := fAdd (fSqrt (fMul v p.c2)) p.eps
    let a := fDiv (fMul m p.c1) b
    let a := fMul p.lr (fAdd a (fMul p.lam w))
    (fSub w a, m, v)

/-- A gradient element as binary32 (R148). -/
def gradF32 (code x : Nat) : Word :=
  if code = 0xD then toF32 (.ofDy ⟨toSigned 48 x, toSigned 10 (field x 57 48)⟩ false) else toF32 (decodeFmt code x)

/-- Bytes of a gradient element. -/
def gradBytes (code : Nat) : Nat := if code = 0xD then 8 else fmtBits code / 8

/-! ## OPT (R147) -/

/-- ROW0 of format O. -/
def oRow0 (w : BitVec 128) : Nat := wFld w 65 52 * 64
/-- NROWS of format O. -/
def oRows (w : BitVec 128) : Nat := wFld w 51 31
/-- The Board address of the optimizer descriptor. -/
def oDesc (w : BitVec 128) : Nat := wFld w 30 9 * 64

/-- Refusals of OPT at issue (R145, R147, R148, R150, R280; log 20). -/
def optRefusal (s : State) (w : BitVec 128) : Option Nat :=
  let e := wFld w 79 66
  let b := weightEntry (img s) e
  let d := mread s.brd.mem (oDesc w) 64
  let code := fld d 0x2C 1
  let pitch := fld d 0x28 4
  let grad := fld d 0x20 8
  if weightEntries (img s) ≤ e then some 0x0B040102
  else if weNwg b then some 0x0B040101
  else if replayBase < oDesc w + 64 then some 0x0B040003
  else if weRows b < oRow0 w + oRows w ∨ (oRows w % 64 ≠ 0 ∧ oRow0 w + oRows w ≠ weRows b)
    ∨ ¬(code = 0x9 ∨ code = 0xA ∨ code = 0xB ∨ code = 0xD) ∨ pitch % 64 ≠ 0 ∨ !allZero d 0x2D 19
    ∨ !optParamsOk (optParams d) then some 0x0B040102
  else if !locValid s grad (extent (oRows w) (weCols b * gradBytes code) pitch) then some 0x0B040003
  else none

/-- A row of words at an address. -/
def wordRow (s : State) (a n : Nat) : List Word :=
  let b := mread s.mem.hbm a (4 * n)
  (List.range n).map fun i => BitVec.ofNat 32 (fld b (4 * i) 4)

/-- What OPT keeps of one row: the new master, m and v, the seated codes, and whether one saturated. -/
structure OptRow where
  w : List Word
  m : List Word
  v : List Word
  seated : List Nat
  sat : Bool
  deriving DecidableEq, Repr

/-- One row r of a piece, `i` rows after ROW0, computed (R147 steps 1 and 2, R151). -/
def optRow (s : State) (b d : Bytes) (r i : Nat) : OptRow × List Word :=
  let n := weCols b
  let code := fld d 0x2C 1
  let gb := locRead s (locAdd (fld d 0x20 8) (i * fld d 0x28 4)) (n * gradBytes code)
  let w := wordRow s (weMaster b + r * masterPitch b) n
  let m := wordRow s (weState b + r * masterPitch b) n
  let v := wordRow s (weState b + (weRows b + r) * masterPitch b) n
  let out := (List.range n).map fun c =>
    optRule (weRule b) (optParams d) (gradF32 code (fld gb (c * gradBytes code) (gradBytes code)))
      (w.getD c 0) (m.getD c 0) (v.getD c 0)
  let cv := out.map fun x => convFmt (weFmt b) false (f32 x.1)
  (⟨out.map (·.1), out.map (·.2.1), out.map (·.2.2), cv.map Conv.code, cv.any Conv.sat⟩, w)

/-- The ratio watch's sums of one element (R155). -/
def watchAdd (x : NormEntry) (old new : Word) : NormEntry :=
  let x := { x with updated := true, changed := x.changed || !fvEq (f32 old) (f32 new) }
  if (f32 new).isFin then
    let dv := f32 (fSub new old)
    { x with s2 := x.s2 + BitVec.ofInt 672 (((f32 new).dy.mul (f32 new).dy).at (-298))
             s1 := if dv.isFin then x.s1 + BitVec.ofInt 672 ((dv.dy.mul dv.dy).at (-298)) else x.s1 }
  else { x with nf := hold64 x.nf 1 }

/-- A number written as `k` bytes at each of a list of places of HBM. -/
def hbmPut (s : State) (k : Nat) (xs : List (Nat × Nat)) : State :=
  xs.foldl (fun s x => hbmWrite s x.1 (natLE k x.2)) s

/-- One row written (R147 steps 3 and 4). -/
def optWriteRow (s : State) (b : Bytes) (r : Nat) (x : OptRow) (old : List Word) : State :=
  let k := fmtBits (weFmt b) / 8
  let words := fun ws : List Word => ws.flatMap fun v => natLE 4 v.toNat
  let s := hbmWrite s (weMaster b + r * masterPitch b) (words x.w)
  let s := if weRule b = 1 then s else hbmWrite s (weState b + r * masterPitch b) (words x.m)
  let s := if weRule b = 3 then hbmWrite s (weState b + (weRows b + r) * masterPitch b) (words x.v) else s
  let s := hbmWrite s (weW b + r * stdPitch (weFmt b) (weCols b)) (x.seated.flatMap (natLE k))
  let s := hbmPut s k (x.seated.zipIdx.map fun e => (weWt b + e.2 * stdPitch (weFmt b) (weRows b) + k * r, e.1))
  if weEnrolled b then setNorm s (weLayer b) ((old.zip x.w).foldl (fun y p => watchAdd y p.1 p.2) (normEntry s (weLayer b)))
  else s

/-- The ceiling of 64 x 64 block (i, j) of the direct copy (R16, R147 step 5). -/
def blockCeil (s : State) (b : Bytes) (i j : Nat) : Int :=
  let k := fmtBits (weFmt b) / 8
  let p := stdPitch (weFmt b) (weCols b)
  ceilingOf ((List.range (min 64 (weRows b - 64 * i))).flatMap fun r => (List.range (min 64 (weCols b - 64 * j))).map fun c =>
    decodeFmt (weFmt b) (mnat s.mem.hbm (weW b + (64 * i + r) * p + k * (64 * j + c)) k))

/-- The place of map entry (i, j) of a tensor of `rows` rows whose map begins at `a` (R293). -/
def mapPlace (g a rows i j : Nat) : Nat := a + 64 * ((j / g) * ceilDiv rows 64 + i) + 2 * (j % g)

/-- The ceiling entries of both copies for the blocks of a piece. -/
def optMaps (s : State) (b : Bytes) (row0 rows : Nat) : State :=
  let g := mapCols (img s)
  let md := weW b + weRows b * stdPitch (weFmt b) (weCols b)
  let mt := weWt b + weCols b * stdPitch (weFmt b) (weRows b)
  let blocks := (List.range (ceilDiv rows 64)).flatMap fun i => (List.range (ceilDiv (weCols b) 64)).map fun j => (row0 / 64 + i, j)
  hbmPut s 2 (blocks.flatMap fun p =>
    let c := ofSigned 16 (blockCeil s b p.1 p.2)
    [(mapPlace g md (weRows b) p.1 p.2, c), (mapPlace g mt (weCols b) p.2 p.1, c)])

/-- OPT's effect (R147, R151, R155). -/
def optEff (s : State) (d : Bytes) (w : BitVec 128) : State :=
  let b := weightEntry (img s) (wFld w 79 66)
  let (s, sat) := (List.range (oRows w)).foldl (fun (acc : State × Bool) i =>
    let r := oRow0 w + i
    let (x, old) := optRow acc.1 b d r i
    (optWriteRow acc.1 b r x old, acc.2 || x.sat)) (s, false)
  let s := optMaps s b (oRow0 w) (oRows w)
  if sat then raise s 0x01040105 .event else s

/-- R147, R269: OPT issues with the descriptor that it has read. -/
def optIssue (s : State) (c : Nat) : State :=
  rodsIssue s c 0x78 optRefusal fun s w =>
    setTposeReq (setStrand s (18 + c) { strand s (18 + c) with desc := mread s.brd.mem (oDesc w) 64 }) c true

/-- Does every block that the piece reads verify (R300)? -/
def optVerifies (s : State) (d : Bytes) (w : BitVec 128) : Bool :=
  let b := weightEntry (img s) (wFld w 79 66)
  let code := fld d 0x2C 1
  let row := fun a => rowsVerify s (a + oRow0 w * masterPitch b) (masterPitch b) (4 * weCols b) (oRows w)
  rowsVerify s (fld d 0x20 8) (fld d 0x28 4) (weCols b * gradBytes code) (oRows w) && row (weMaster b) &&
  (decide (weRule b = 1) || row (weState b)) &&
  (decide (weRule b ≠ 3) || row (weState b + weRows b * masterPitch b))

/-- A completed OPT (log 48). -/
def optDone (s : State) (c : Nat) (w : BitVec 128) : State := setTposeReq (optEff s (strand s (18 + c)).desc w) c false

/-- R147. -/
def execOpt (c : Fin 16) (s : State) : Host.Outcome State Fault Refusal := .next (optIssue s c)

/-! ## The ratio watch (R154 to R161) -/

/-- √(n / d) rounded once to binary32 (Table 4-5). -/
def sqrtRatio (n d : Nat) : Word :=
  if n = 0 then 0
  else if d = 0 then 0x7F800000
  else
    let k := Nat.log2 d / 2 + 42
    let r := isqrt (n * 4 ^ k / d)
    toF32 (.fin false (2 * r + (if r * r * d = n * 4 ^ k then 0 else 1)) (-(k : Int) - 1))

/-- x < y² · z, exactly, of two sums in one unit and a binary32 limit. -/
def bandLt (sum limit2 : Nat) (lim : Word) : Bool :=
  let l := (f32 lim).dy
  Dy.lt ⟨sum, 0⟩ ((l.mul l).mul ⟨limit2, 0⟩)

/-- x > y² · z, exactly. -/
def bandGt (sum limit2 : Nat) (lim : Word) : Bool :=
  let l := (f32 lim).dy
  (f32 lim).isFin && Dy.lt ((l.mul l).mul ⟨limit2, 0⟩) ⟨sum, 0⟩

/-- A ratio-table entry (Table 4-5). -/
structure RatioEntry where
  stall : Nat
  flags : Nat
  ratio : Nat
  low   : Nat
  high  : Nat
  stalls : Nat
  deriving DecidableEq, Repr

/-- The entry as it stands in HBM. -/
def ratioRead (s : State) (layer : Nat) : RatioEntry :=
  let b := mread s.mem.hbm (ratioTable (img s) + 32 * layer) 32
  ⟨fld b 8 2, fld b 0x0A 2, fld b 0x0C 4, fld b 0x10 4, fld b 0x14 4, fld b 0x18 4⟩

/-- The entry written with the marker number. -/
def ratioWrite (s : State) (layer marker : Nat) (r : RatioEntry) : State :=
  hbmWrite s (ratioTable (img s) + 32 * layer)
    (natLE 8 marker ++ natLE 2 r.stall ++ natLE 2 r.flags ++ natLE 4 r.ratio ++ natLE 4 r.low ++ natLE 4 r.high ++
     natLE 4 r.stalls ++ zeros 4)

/-- One layer's evaluation (R156, R157): its new entry and the codes that it raises. -/
def ratioEval (b : Bytes) (x : NormEntry) (r : RatioEntry) : RatioEntry × List Nat :=
  if x.nf ≠ 0 then ({ r with flags := r.flags % 2 + 16 }, [0x01040104])
  else if !x.changed then
    let stall := min (r.stall + 1) 65535
    let hit := decide (weStall b ≤ stall) && !bitOf r.flags 0
    ({ r with stall := stall, flags := b2n (bitOf r.flags 0 || hit) + 8, ratio := 0, stalls := r.stalls + b2n hit },
     if hit then [0x01040103] else [])
  else
    let sd := x.s1.toNat
    let sw := x.s2.toNat
    let high := (decide (sw = 0) && decide (sd ≠ 0)) || bandGt sd sw (weHi b)
    let low := !high && bandLt sd sw (weLo b)
    ({ r with stall := 0, flags := 2 * b2n low + 4 * b2n high, ratio := (sqrtRatio sd sw).toNat,
              low := r.low + b2n low, high := r.high + b2n high },
     (if low then [0x01040101] else []) ++ (if high then [0x01040102] else []))

/-- What the watch has gathered over the layers: for each code the lowest layer, how many layers, and the highest severity. -/
abbrev WatchSum := SMap (Nat × Nat × Nat)

/-- One layer's code noted. -/
def watchNote (m : WatchSum) (layer sev code : Nat) : WatchSum :=
  match sget? m code with
  | some (l, n, v) => sset m code (l, n + 1, max v sev)
  | none => sset m code (layer, 1, sev)

/-- One enrolled weight-table entry is evaluated if the optimizer updated its layer. -/
def watchLayer (marker : Nat) (acc : State × WatchSum) (b : Bytes) : State × WatchSum :=
  let layer := weLayer b
  let x := normEntry acc.1 layer
  if x.updated then
    let (r, codes) := ratioEval b x (ratioRead acc.1 layer)
    let s := setNorm (ratioWrite acc.1 layer marker r) layer {}
    (s, codes.foldl (fun m c => watchNote m layer (if c = 0x01040104 then 2 else weSev b) c) acc.2)
  else acc

/-- The enrolled entries in ascending order of LAYER. -/
def enrolledByLayer (im : Bytes) : List Bytes :=
  let es := ((List.range (weightEntries im)).map (weightEntry im)).filter weEnrolled
  (es.foldl (fun m b => sset m (weLayer b) b) ([] : SMap Bytes)).map (·.2)

/-- R156 to R158: the evaluation at the marker about to be committed; true where a job-ending code stops the commit. -/
def ratioWatch (s : State) : State × Bool :=
  let marker := s.str.marker.toNat + 1
  let (s, m) := (enrolledByLayer (img s)).foldl (watchLayer marker) (s, [])
  (m.foldl (fun s c => raiseSev s c.1 c.2.2.2 (d8 marker ++ d4 c.2.1 ++ d4 c.2.2.1)) s, m.any fun c => decide (2 ≤ c.2.2.2))

end Sys2Proof.Machine
end

