-- ==== Sys2Proof/Machine/Load.lean ====
section
/-!
DEFINITION. Program loading (spec/06 R212 to R217, R222, R239 to R242; spec/11 R406; spec/09 R345 to R347; spec/04 R141, R142).
-/
namespace Sys2Proof.Machine

/-! ## The load-time checks (Table 6-8): each answers the code and STR_LOAD_DETAIL of its failure -/

/-- An offset at which a check fails, if it does. -/
def badAt (bad : Bool) (off : Nat) : List Nat := if bad then [off] else []

/-- The first of a field's bytes that differs from the value it must hold. -/
def wrongByte (b : Bytes) (off : Nat) (want : Bytes) : List Nat :=
  ((firstBelow (fun i => (b.drop (off + i)).headD 0 != want.getD i 0) want.length).map (off + ·)).toList

/-- A reserved range's first nonzero byte. -/
def reservedByte (b : Bytes) (off len : Nat) : List Nat := (firstNonzero b off len).toList

/-- The size that Table 6-2 fixes for section i. -/
def fixedSize (i : Nat) : Option Nat := ([some 128, some 688, some 4096, some 2048, none, none] : List (Option Nat)).getD i none

/-- Section i breaks R212, `fin` being the end of the section before it; `n` is the image's length. -/
def sectionBad (im : Bytes) (n fin i : Nat) : Bool :=
  let off := secOff im i
  let sz := secSize im i
  if off = 0 ∧ sz = 0 then decide (i < 2)
  else decide (off % 64 ≠ 0 ∨ off < fin ∨ sz = 0 ∨ n < off + sz) || (fixedSize i).any (· != sz) || (i == 5 && sz % 64 != 0)

/-- The end of the last section before section i. -/
def sectionEnd (im : Bytes) : (i : Nat) → Nat
  | 0 => 256
  | k + 1 => if secSize im k = 0 then sectionEnd im k else secOff im k + secSize im k

/-- Check 1: the header (Table 6-3). -/
def headerBad (im : Bytes) (n : Nat) : List Nat :=
  wrongByte im 0 (natLE 4 0x50394750) ++ wrongByte im 4 [1, 0] ++ reservedByte im 0x07 1 ++
  badAt (fld im 0x08 8 != n || decide (268435456 < n) || decide (n < 256)) 0x08 ++
  badAt (jobDevices im == 0 || decide (16777216 < jobDevices im)) 0x10 ++
  badAt (decide (jobDevices im ≤ imagePosition im)) 0x14 ++
  (List.range 6).flatMap (fun i => badAt (sectionBad im n (sectionEnd im i) i) (0x18 + 8 * i)) ++
  reservedByte im 0x48 8 ++ reservedByte im 0x70 144

/-- Check 1: the manifest (Table 6-4), at offset m. -/
def manifestBad (im : Bytes) : List Nat :=
  let m := secOff im 0
  badAt (snapReserve im % 262144 != 0) (m + 0x08) ++ badAt (decide (16384 < weightEntries im)) (m + 0x26) ++
  badAt (decide (weightEntries im ≤ 16384) && secSize im 4 != 64 * weightEntries im) (0x18 + 8 * 4) ++
  wrongByte im (m + 0x2D) [BitVec.ofNat 8 (fld im (m + 0x2D) 1 % 8), 0, 0] ++ reservedByte im (m + 0x36) 74

/-- Check 1: the directory (Table 6-5). -/
def directoryBad (im : Bytes) : List Nat :=
  (List.range 43).flatMap fun n => reservedByte im (secOff im 1 + 16 * n + 0x0C) 4

/-- Check 1. -/
def check1 (im : Bytes) (n : Nat) : Option (Nat × Nat) :=
  let bad := headerBad im n ++ (if secOff im 0 = 0 then [] else manifestBad im) ++ (if secOff im 1 = 0 then [] else directoryBad im)
  (bad.min?).map fun o => (0x0B050001, o)

/-- The image with IMAGE_DIGEST read as zero. -/
def digestInput (im : Bytes) : Bytes := im.take 0x50 ++ zeros 32 ++ im.drop 0x70

/-- Strand n's code section. -/
def codeBytes (im : Bytes) (n : Nat) : Bytes := (im.drop (codeOffset im n)).take (16 * codeCount im n)

/-- The first strand at which a check fails. -/
def firstStrand (p : Nat → Bool) : Option Nat := firstBelow p 43

/-- Check 2: IMAGE_DIGEST and each CODE_CRC of a section that lies in the image. -/
def check2 (im : Bytes) (n : Nat) : Option (Nat × Nat) :=
  if sha256 (digestInput im) ≠ (im.drop 0x50).take 32 then some (0x0B050002, 0xFFFFFFFF)
  else (firstStrand fun k => decide (codeOffset im k + 16 * codeCount im k ≤ n) &&
      (crc32c (codeBytes im k)).toNat != codeCrc im k).map fun k => (0x0B050002, k)

/-- Check 3: R215, and STRANDS of the manifest. -/
def check3 (im : Bytes) (n : Nat) : Option (Nat × Nat) :=
  (firstStrand fun k =>
    let c := codeCount im k
    let o := codeOffset im k
    (c != 0 && decide (o % 64 ≠ 0 ∨ 1048576 < c ∨ o < sectionEnd im 6 ∨ n < o + 16 * c)) ||
      (c != 0) != bitOf (manFld im 0x28 8) k).map fun k => (0x0B050003, k)

/-- Check 4: the width class. -/
def check4 (s : State) (im : Bytes) : Option (Nat × Nat) :=
  if widthCode s = 2 ∨ fld im 0x06 1 ≠ widthCode s then some (0x0B050004, widthCode s) else none

/-- The usable HBM of R241. -/
def usableHbm (s : State) : Nat := 3000000000 * livePcs s * 511 / 512

/-- The HBM requirement of R241. -/
def hbmNeed (im : Bytes) : Nat := fld im 0x08 8 + hbmFootprint im + snapReserve im + mirrorRegion im

/-- Check 5. -/
def check5 (s : State) (im : Bytes) : Option (Nat × Nat) :=
  if usableHbm s < hbmNeed im then some (0x0B050005, ceilDiv (hbmNeed im - usableHbm s) 1000000) else none

/-- Check 6. -/
def check6 (im : Bytes) : Option (Nat × Nat) :=
  if 253755392 < boardFootprint im then some (0x0B050006, boardFootprint im - 253755392) else none

/-- Is token entry i malformed (R216)? -/
def tokMalformed (im : Bytes) (i : Nat) : Bool :=
  let v := tokEntry im i
  decide (v / 2 ^ 24 ≠ 0) || (tokDeclared im i && decide (42 < tokWaiter im i)) || (!tokDeclared im i && v != 0)

/-- The token at which a word of strand n fails R222. -/
def wordToken (im : Bytes) (n : Nat) (w : BitVec 128) : Option Nat :=
  if wWen w && !(tokDeclared im (wWtok w) && tokWaiter im (wWtok w) == n) then some (wWtok w)
  else if wSen w && !tokDeclared im (wStok w) then some (wStok w)
  else none

/-- The first failing word of a strand, then of every strand. -/
def stranded (im : Bytes) (n : Nat) : Option Nat := (List.range (codeCount im n)).findSome? fun i => wordToken im n (codeWord im n i)

/-- Check 7. -/
def check7 (im : Bytes) : Option (Nat × Nat) :=
  let declared := indicesWhere 1024 (tokDeclared im)
  let toks := manFld im 0x24 2
  match firstBelow (tokMalformed im) 1024 with
  | some i => some (0x0B050007, i)
  | none =>
    if toks < declared.length then some (0x0B050007, declared.getD toks 0)
    else if declared.length < toks then
      some (0x0B050007, (firstBelow (fun i => !tokDeclared im i) 1024).getD (Config.openDetail toks).toNat)
    else ((List.range 43).findSome? (stranded im)).map fun t => (0x0B050007, t)

/-- The bit of STR_DISABLED for strand n's unit (Table 6-16). -/
def disableBit (n : Nat) : Option Nat :=
  if 2 ≤ n ∧ n ≤ 17 then some (8 + (n - 2))
  else if 18 ≤ n ∧ n ≤ 33 then some ((n - 18) / 2)
  else if 34 ≤ n ∧ n ≤ 41 then some (24 + (n - 34))
  else none

/-- Strand n's unit cannot serve (check 8); a collective engine serves while its lead is up (spec/09, Collective engines). -/
def unitOut (s : State) (n : Nat) : Bool :=
  (disableBit n).any (fun b => bitOf (s.str.disable ||| s.str.disabled).toNat b) ||
  (decide (34 ≤ n ∧ n ≤ 41) && !leadUp s (n - 34))

/-- Check 8. -/
def check8 (s : State) (im : Bytes) : Option (Nat × Nat) :=
  (firstStrand fun n => codeCount im n != 0 && unitOut s n).map fun n => (0x0B050008, n)

/-- The end of ring r's segments. -/
def ringEnd (im : Bytes) (r : Nat) : Nat := ringBase im r + ringSegBytes im r * ringSegCount im r

/-- A used ring's entry keeps Table 6-7 and lies within its bounds. -/
def ringOk (im : Bytes) (r : Nat) : Bool :=
  let k := ringKind im r
  decide (k ≤ 3) && ringFld im r 3 1 == 0 && ringFld im r 16 16 == 0 && ringBase im r % 64 == 0 &&
  ringSegBytes im r % 64 == 0 && ringSegBytes im r != 0 && decide (2 ≤ ringSegCount im r ∧ ringSegCount im r ≤ 1024) &&
  decide (ringEnd im r ≤ min (boardFootprint im) replayBase) &&
  (if k = 3 then ringProducer im r == 1 && decide (2 ≤ ringConsumer im r ∧ ringConsumer im r ≤ 33)
   else decide (2 ≤ ringProducer im r ∧ ringProducer im r ≤ 17) && ringConsumer im r == 0)

/-- Rings r and q share a byte. -/
def ringsMeet (im : Bytes) (r q : Nat) : Bool :=
  ringKind im q != 0 && decide (ringBase im r < ringEnd im q ∧ ringBase im q < ringEnd im r)

/-- Ring r fails check 9, against the rings below it. -/
def ringBad (im : Bytes) (r : Nat) : Bool :=
  if ringKind im r = 0 then ringFld im r 0 32 != 0
  else !ringOk im r || (List.range r).any (ringsMeet im r)

/-- Check 9. -/
def check9 (im : Bytes) : Option (Nat × Nat) := (firstBelow (ringBad im) 64).map fun r => (0x0B050009, r)

/-- A valid routing entry names leads that are up, over at least one hop (R346). -/
def routeOk (s : State) (e : Nat) : Bool :=
  !reValid e || (reHops e != 0 && leadUp s (reLead e) && (!reAltValid e || leadUp s (reAlt e)))

/-- A direct entry keeps Table 9-18. -/
def directOk (s : State) (e : Nat) : Bool := field e 39 0 == 0 && routeOk s e

/-- A prefix entry keeps Table 9-19. -/
def prefixOk (s : State) (e : Nat) : Bool :=
  let len := field e 36 32
  field e 39 37 == 0 && field e 31 24 == 0 && decide (len ≤ 24) && field e 23 0 % 2 ^ (24 - len) == 0 && routeOk s e

/-- A lead of a plan. -/
def planLead (s : State) (i : Nat) : Bool := decide (i < 8) && leadUp s i

/-- Plan p keeps Table 9-8; UP of a tree plan is 0xFF at the root, whose ID ROOT_ID is, and nowhere else. -/
def planOk (s : State) (im : Bytes) (p : Nat) : Bool :=
  planFld im p 0x10 48 == 0 && decide (1 ≤ plMembers im p ∧ plMembers im p ≤ 16777216 ∧ plRank im p < plMembers im p) &&
  (match planFld im p 0x0C 1 with
   | 0 => decide (plRoot im p < 2 ^ 24) && plPrev im p == 0xFF && (if plRoot im p = ownId s then plUp im p == 0xFF else planLead s (plUp im p)) &&
          (downLeads im p).all (leadUp s)
   | 1 => plRoot im p == 0 && plDown im p == 0 && planLead s (plUp im p) && planLead s (plPrev im p)
   | _ => false)

/-- The length that R345 gives. -/
def routeLength (im : Bytes) : Nat := plansOff im + 64 * planCount im

/-- Check 10. -/
def check10 (s : State) (im : Bytes) : Option (Nat × Nat) :=
  let rd := manFld im 0x30 4
  let rp := manFld im 0x34 2
  let all := some (0x0B05000A, 0xFFFFFFFF)
  if 262144 < rd ∨ 4096 < rp then all
  else if secSize im 5 = 0 then (if rd ≠ 0 ∨ rp ≠ 0 then all else none)
  else if rtFld im 0x0C 52 ≠ 0 ∨ 2 ^ 24 ≤ directBase im ∨ directCount im ≠ rd ∨ prefixCount im ≠ rp ∨ 256 < planCount im ∨
      2 ^ 24 < directBase im + directCount im ∨ routeLength im ≠ secSize im 5 then all
  else
    match firstBelow (fun i => !directOk s (directEntry im i)) (directCount im) with
    | some i => some (0x0B05000A, i)
    | none =>
      match firstBelow (fun j => !prefixOk s (prefixEntry im j)) (prefixCount im) with
      | some j => some (0x0B05000A, 0x40000 + j)
      | none => (firstBelow (fun p => !planOk s im p) (planCount im)).map fun p => (0x0B05000A, 0x41000 + p)

/-- The entries of the weight table. -/
def weights (im : Bytes) : List Bytes := (List.range (weightEntries im)).map (weightEntry im)

/-- Check 11. -/
def check11 (im : Bytes) : Option (Nat × Nat) :=
  let bad := if ratioTable im = locNone then (weights im).any weEnrolled
    else decide (ratioTable im % 64 ≠ 0 ∨ hbmFootprint im < ratioTable im + 131072)
  if bad then some (0x0B05000B, 0) else none

/-- The size of a copy in the standard placement, its map included (R294). -/
def copyBytes (g fmt rows cols : Nat) : Nat := rows * stdPitch fmt cols + cmapBytes g rows cols

/-- The regions of a weight entry (R141): address and length. -/
def weRegions (g : Nat) (b : Bytes) : List (Nat × Nat) :=
  let mp := weRows b * masterPitch b
  [(weW b, copyBytes g (weFmt b) (weRows b) (weCols b)), (weWt b, copyBytes g (weFmt b) (weCols b) (weRows b))] ++
  (if weNwg b then [] else (if weMaster b = weW b then [] else [(weMaster b, mp)]) ++ [(weState b, 2 * mp)])

/-- RATIO_LO and RATIO_HI of an enrolled entry lie in their ranges. -/
def weBandOk (b : Bytes) : Bool := !fvLt (f32 (weLo b)) (f32 0) && fvLt (f32 (weLo b)) (f32 (weHi b))

/-- The fields of an entry up to 0x2D (Table 4-2), and its regions. -/
def weFieldsOk (im : Bytes) (b : Bytes) : Bool :=
  let dim := fun x => decide (1 ≤ x ∧ x ≤ 1048576)
  dim (weRows b) && dim (weCols b) && decide (weFmt b = 0x9 ∨ weFmt b = 0xA ∨ weFmt b = 0xB) &&
  fld b 0x29 1 / 8 == 0 && decide (weLayer b ≤ 4095) && (weEnrolled b || weLayer b == 0) &&
  (if weNwg b then weRule b == 0 else decide (1 ≤ weRule b ∧ weRule b ≤ 3)) && (!weEnrolled b || decide (weSev b ≤ 2)) &&
  (weNwg b == (weMaster b == locNone)) && (weNwg b == (weState b == locNone)) &&
  (weNwg b || weMaster b != weW b || weFmt b == 0xB) &&
  (weRegions (mapCols im) b).all fun r => decide (r.1 % 64 = 0 ∧ r.1 + r.2 ≤ hbmFootprint im)

/-- Step 1 of R142 on one entry: the code it fails with. -/
def weStep1 (im : Bytes) (b : Bytes) : Option Nat :=
  if !weFieldsOk im b then some 0x0B050101
  else if weEnrolled b && !weBandOk b then some 0x0B050105
  else if fld b 0x38 8 ≠ 0 then some 0x0B050101
  else none

/-- Two regions share a byte. -/
def regionsMeet (a b : Nat × Nat) : Bool := decide (a.1 < b.1 + b.2 ∧ b.1 < a.1 + a.2)

/-- Some two of a list of regions share a byte. -/
def selfMeet : List (Nat × Nat) → Bool
  | [] => false
  | r :: rs => rs.any (regionsMeet r) || selfMeet rs

/-- Step 2 of R142: the lowest entry with a region that meets one of its own or of a lower entry; `before` are theirs. -/
def overlapEntry (g : Nat) : (es : List Bytes) → (i : Nat) → (before : List (Nat × Nat)) → Option Nat
  | [], _, _ => none
  | b :: es, i, before =>
    let rs := weRegions g b
    if selfMeet rs || rs.any (fun r => before.any (regionsMeet r)) then some i else overlapEntry g es (i + 1) (rs ++ before)

/-- Step 3 of R142 on one entry. -/
def weAdapterBad (b : Bytes) : Bool := weAdapter b && (weNwg b || decide (256 < min (weRows b) (weCols b)))

/-- Step 4 of R142: the first entry whose enrolment fails; `seen` are the layers enrolled before it. -/
def enrolEntry : (es : List Bytes) → (i : Nat) → (seen : List Nat) → Option Nat
  | [], _, _ => none
  | b :: es, i, seen =>
    if !weEnrolled b then enrolEntry es (i + 1) seen
    else if weNwg b || decide (4096 ≤ seen.length) || seen.contains (weLayer b) then some i
    else enrolEntry es (i + 1) (weLayer b :: seen)

/-- The first entry that fails, with its code. -/
def firstEntry (f : Bytes → Option Nat) : (es : List Bytes) → (i : Nat) → Option (Nat × Nat)
  | [], _ => none
  | b :: es, i =>
    match f b with
    | some code => some (code, i)
    | none => firstEntry f es (i + 1)

/-- The weight table (R142). -/
def check12 (im : Bytes) : Option (Nat × Nat) :=
  let es := weights im
  firstEntry (weStep1 im) es 0 <|>
  ((overlapEntry (mapCols im) es 0 []).map fun i => (0x0B050104, i)) <|>
  firstEntry (fun b => if weAdapterBad b then some 0x0B050102 else none) es 0 <|>
  ((enrolEntry es 0 []).map fun i => (0x0B050103, i))

/-- R240: the checks in table order; the first failure. -/
def loadFailure (s : State) (im : Bytes) : Option (Nat × Nat) :=
  let n := im.length
  check1 im n <|> check2 im n <|> check3 im n <|> check4 s im <|> check5 s im <|> check6 im <|> check7 im <|> check8 s im <|>
  check9 im <|> check10 s im <|> check11 im <|> check12 im

/-! ## The load (R406) -/

/-- LOAD_BEGIN. -/
def kLoadBegin : ReqKind := { type := 0x04 }
/-- LOAD_END. -/
def kLoadEnd : ReqKind := { type := 0x06 }

/-- A refused load command. -/
def refuseLoad (s : State) (r : Req) (k : ReqKind) (code : Nat) : State := respondCode (raise s code .refused) r false k.type code

/-- R239, R406 step 1; it ends a calibration program (R601). -/
def loadBegin (s : State) (r : Req) (jobId imageBytes : BitVec 64) : State :=
  request s r kLoadBegin fun s =>
    let s := { s with gov := { s.gov with measuring := false } }
    if s.sys.st ≠ .holding ∨ loaded s ∨ s.ld.active ∨ s.str.scrub then refuseLoad s r kLoadBegin 0x0B05000C
    else if !s.sec.job.any (fun k => k.jobId == jobId) then refuseLoad s r kLoadBegin 0x080B0009
    else done { s with ld := { active := true, job := jobId, bytes := imageBytes, stray := s.ld.stray } } r kLoadBegin

/-- R239. -/
def execLoadBegin (r : Req) (jobId imageBytes : BitVec 64) (s : State) : Host.Outcome State Fault Refusal :=
  .next (loadBegin s r jobId imageBytes)

/-- A byte of a run has been written already. -/
def written (m : SMap Byte) (off : Nat) (b : Bytes) : Bool := m.any fun c => decide (off ≤ c.1 ∧ c.1 < off + b.length)

/-- A run of bytes kept by its offset. -/
def putRun (m : SMap Byte) : (off : Nat) → Bytes → SMap Byte
  | _, [] => m
  | off, b :: bs => putRun (sset m off b) (off + 1) bs

/-- R406 step 2: a LOAD_DATA frame. -/
def loadData (s : State) (link : Nat) (offset : BitVec 64) (b : Bytes) : State :=
  bulk s link fun s =>
    if !s.ld.active then
      if s.ld.stray then raise s 0x080B0009 .refused (d4 link)
      else { raise s 0x080B0009 .event (d4 link) with ld := { s.ld with stray := true } }
    else if s.ld.bytes.toNat < offset.toNat + b.length ∨ written s.ld.data offset.toNat b then failLoad s
    else { s with ld := { s.ld with data := putRun s.ld.data offset.toNat b } }

/-- R406; a frame of a wrong LENGTH is dropped (R396). -/
def execLoadData (link : Fin 2) (offset : BitVec 64) (bytes : Bytes) (s : State) : Host.Outcome State Fault Refusal :=
  .next (if loadDataOk bytes then loadData s link.val offset bytes else wrongLength s link.val false)

/-- R406 step 3: LOAD_END. -/
def loadEnd (s : State) (r : Req) : State :=
  request s r kLoadEnd fun s =>
    if !s.ld.active ∨ s.ld.ended then refuseLoad s r kLoadEnd 0x080B0009
    else if s.ld.data.length < s.ld.bytes.toNat then respondCode (failLoad s) r false kLoadEnd.type 0x080B0009
    else done { s with ld := { s.ld with ended := true } } r kLoadEnd

/-- R406. -/
def execLoadEnd (r : Req) (s : State) : Host.Outcome State Fault Refusal := .next (loadEnd s r)

/-- The image of the load in progress. -/
def loadImage (s : State) : Bytes := s.ld.data.map Prod.snd

/-- The program is loaded and its Rods pairs are powered: its marker is 0 (R235, R408), and nothing of an earlier program is left. -/
def acceptImage (s : State) (im : Bytes) : State :=
  let s := { s with
    str := { s.str with image := some im, job := s.ld.job, marker := 0, markerTok := [], tok := [] }
    tet := { s.tet with armId := 0, armedOnce := false, shpMarker := 0, shpJob := s.ld.job }
    snp := { s.snp with restored := false, restoredPage := [], restore := none, skipSnap := false } }
  requestDomains s (pairDomains (pairNeeded s))

/-- R240: the checks run, and the result is reported. -/
def loadCheck (s : State) : State :=
  if s.ld.active && s.ld.ended && s.die == .serving then
    let im := loadImage s
    match loadFailure s im with
    | some (code, detail) => loadResult s code detail
    | none => loadResult (acceptImage s im) 0 0
  else s

/-- R240. -/
def execLoadCheck (s : State) : Host.Outcome State Fault Refusal := .next (loadCheck s)

end Sys2Proof.Machine
end

