-- ==== Sys2Proof/Machine/Frame.lean ====
section
/-!
DEFINITION. The Frame (spec/01 R11 to R37, spec/02): issue, seating, passes, step-back, recount and classification
replays, the bead map, and completion.
-/
namespace Sys2Proof.Machine

/-! ## Geometry of an operation (R22, R55) -/

/-- Tiles along M. -/
def tilesM (d : Bytes) : Nat := ceilDiv (fdM d) 256
/-- Column blocks. -/
def tilesN (d : Bytes) (w : Nat) : Nat := ceilDiv (fdN d) w
/-- Row groups of one column block. -/
def groupsPerBlock (d : Bytes) : Nat := ceilDiv (tilesM d) (fdG d)
/-- Chunks of K. -/
def chunks (d : Bytes) : Nat := ceilDiv (fdK d) (chunkK (fdA d) (fdB d))
/-- Passes of an operation. -/
def passes (d : Bytes) (w : Nat) : Nat := tilesN d w * groupsPerBlock d * chunks d
/-- Rows of tile row i. -/
def tileRows (d : Bytes) (i : Nat) : Nat := min 256 (fdM d - 256 * i)
/-- Columns of column block j. -/
def tileCols (d : Bytes) (w j : Nat) : Nat := min w (fdN d - w * j)
/-- Values of k in chunk c. -/
def chunkLen (d : Bytes) (c : Nat) : Nat :=
  min (chunkK (fdA d) (fdB d)) (fdK d - chunkK (fdA d) (fdB d) * c)
/-- Logical strips an operation needs (R77). -/
def stripsNeeded (d : Bytes) (w : Nat) : Nat := min (w / 64) (ceilDiv (fdN d) 64)

/-- The physical strip of a logical strip (R52). -/
def physStrip (s : State) (l : Nat) : Nat :=
  match s.frm.retired with
  | some r => if l < r.val then l else l + 1
  | none => l

/-- The physical column of a logical column (R52). -/
def physCol (s : State) (n : Nat) : Nat :=
  let p := physStrip s (n / 64)
  let f := (vget s.frm.colMap p 0x7F).toNat
  65 * p + (if n % 64 < f then n % 64 else n % 64 + 1)

/-- The physical row of a logical row (R52). -/
def physRow (s : State) (k : Nat) : Nat :=
  let f := (vget s.frm.rowMap (k / 64) 0x7F).toNat
  65 * (k / 64) + (if k % 64 < f then k % 64 else k % 64 + 1)

/-- R53: the rotated logical row. -/
def rotRow (k : Nat) : Nat := (k + 344) % 1024

/-- R53: the rotated logical column. -/
def rotCol (w n : Nat) : Nat := (n + 344) % w

/-- The physical row that logical row k lies in, under the mapping in effect or the rotated one (R52, R53). -/
def rowAt (s : State) (rot : Bool) (k : Nat) : Nat := physRow s (if rot then rotRow k else k)

/-- The physical column that logical column n lies in, under the mapping in effect or the rotated one (R52, R53). -/
def colAt (s : State) (w : Nat) (rot : Bool) (n : Nat) : Nat := physCol s (if rot then rotCol w n else n)

/-- The physical strips that the first `need` logical strips lie in (R77). -/
def stripMask (s : State) (need : Nat) : BitVec 16 :=
  (List.range need).foldl (fun m l => m ||| BitVec.ofNat 16 (2 ^ physStrip s l)) 0

/-! ## MATMUL (R13, R26, R33, R68, R275) -/

/-- An operand's part of the descriptor, checks other than those with a code of their own (R275's last item). -/
def operandBad (s : State) (d : Bytes) (b : Bool) : Bool :=
  let rows := if b then fdK d else fdM d
  let cols := if b then fdN d else fdK d
  let code := if b then fdB d else fdA d
  let row := packedBytes code cols
  let pitch := fdPitch d b
  let scales := if b then ceilDiv (fdK d) 32 * fdN d else fdM d * ceilDiv (fdK d) 32
  decide (pitch % 64 ≠ 0) || decide (pitch < row) ||
  !locValid s (fdSrc d b) ((rows - 1) * pitch + row) ||
  (if fdSeq d then decide (fdCmap d b ≠ locNone)
   else !locValid s (fdCmap d b) (cmapBytes (mapCols (img s)) rows cols)) ||
  (if isMx code then !locValid s (fdScales d b) scales else decide (fdScales d b ≠ locNone)) ||
  (!isFp8 code && decide (fdScale d b ≠ 0))

/-- Is a binary32 pattern a positive, finite, normal value (R13)? -/
def goodScale (x : Nat) : Bool := decide (0x00800000 ≤ x ∧ x ≤ 0x7F7FFFFF)

/-- A code where a breach is found. -/
def found (p : Prop) [Decidable p] (code : Nat) : List Nat := if p then [code] else []

/-- Every refusal of a MATMUL whose descriptor can be read (R13, R26, R33, R68, R229, R275). -/
def descRefusals (s : State) (w : BitVec 128) (d : Bytes) : List Nat :=
  let rec_ := wFld w 57 36 * 64
  let a := fdA d
  let b := fdB d
  let slots := fdSlots d
  let ra := wFld w 35 30
  let rb := wFld w 29 24
  let slotsBad := decide (fdG d < 1 ∨ 16 < fdG d ∨ fdNslots d < 1 ∨ 16 < fdNslots d ∨ fdNslots d % fdG d ≠ 0 ∨
    noDups slots = false)
  found (fdK d < 1 ∨ 1048576 < fdK d) 0x0B020001 ++
  found (fdM d < 1 ∨ 16777216 < fdM d ∨ fdN d < 1 ∨ 1048576 < fdN d) 0x0B020002 ++
  found (0xB < a ∨ 0xB < b) 0x0B020003 ++
  found ((isFp8 a && !goodScale (fdScale d false)) || (isFp8 b && !goodScale (fdScale d true))) 0x0B020004 ++
  found (fdSeq d && !([1, 2, 9, 0xA].contains a && [1, 2, 9, 0xA].contains b)) 0x0B020005 ++
  found slotsBad 0x0B020006 ++
  found (!slotsBad && slots.any fun k => (slot s k).st == 1) 0x0B020007 ++
  found (rec_ ≠ 0 ∧ replayBase < rec_ + 64) 0x0B020009 ++
  found (1 < fdMode d ∨ !allZero d 0x11 7 ∨ !allZero d 0x60 32 ∨ fld d 0x18 8 / 2 ^ (4 * fdNslots d) ≠ 0
    ∨ operandBad s d false ∨ operandBad s d true) 0x0B02000A ++
  found (¬(ringKind (img s) ra = 1 ∧ ringConsumer (img s) ra = 0 ∧ ringKind (img s) rb = 2 ∧ ringConsumer (img s) rb = 0))
    0x0B050203

/-- The errors that a MATMUL's issue finds (R81, R85, R275); of a descriptor in the Frame replay area nothing is read
(log 15). -/
def matmulRefusals (s : State) (w : BitVec 128) (d : Bytes) : List Nat :=
  found (s.frm.noWidth = true) 0x0B02000B ++
  if replayBase < wFld w 79 58 * 64 + 128 then [0x0B02000A] else descRefusals s w d

/-- MATMUL issues (R210, R275): the operation joins the Frame's operations, or the instruction is refused with every error
found (R85). -/
def matmulIssue (s : State) : State :=
  if begun s 0 0x10 then
    let x := strand s 0
    let d := mread s.brd.mem (wFld x.word 79 58 * 64) 128
    match matmulRefusals s x.word d with
    | [] =>
      let op : FrameOp := { num := s.frm.issued, index := x.index.toNat, word := x.word, desc := d, width := frmWidth s }
      issueStrand { s with frm := { s.frm with ops := s.frm.ops ++ [op], issued := s.frm.issued + 1 } } 0
    | codes => codes.foldl (fun s c => refuse s 0 c) s
  else s

/-- R275, R268. -/
def execMatmul (s : State) : Host.Outcome State Fault Refusal := .next (matmulIssue s)

/-! ## The operation that streams (R61) -/

/-- Every pass and every replay of the operation has streamed. -/
def streamed (op : FrameOp) : Bool :=
  decide (passes op.desc op.width ≤ op.pass) && op.group.isNone && op.sel.isEmpty && op.mismatch.isNone

/-- The place of the operation that streams now: the first that has not streamed wholly (R61). -/
def curIdx : List FrameOp → Nat
  | [] => 0
  | op :: ops => if streamed op then curIdx ops + 1 else 0

/-- The operation that streams now. -/
def curOp (s : State) : Option FrameOp := s.frm.ops[curIdx s.frm.ops]?

/-- The operation that streams now, replaced. -/
def setCur (s : State) (op : FrameOp) : State :=
  { s with frm := { s.frm with ops := s.frm.ops.set (curIdx s.frm.ops) op } }

/-- The Frame's strand runs its operations: the job runs and the strand has not stopped. -/
def frameLive (s : State) (op : FrameOp) : Bool := running s && decide ((strand s 0).st ≠ 8) && !op.dead

/-- The operation stops on a refusal of R229 met after issue. -/
def frameRefuse (s : State) (op : FrameOp) (code : Nat) : State := setCur (refuse s 0 code) { op with dead := true }

/-- The pass whose weight chunk the seating registers take next (R56). -/
def seatPass (op : FrameOp) : Nat := op.pass + b2n op.active.isSome

/-- The place of the operation that seats next: every pass of those before it has begun (R61). -/
def seatIdx : List FrameOp → Nat
  | [] => 0
  | op :: ops => if passes op.desc op.width ≤ seatPass op then seatIdx ops + 1 else 0

/-- Does a substitution that is decided hold an operation that has not begun to stream (R82)? -/
def substHolds (s : State) (op : FrameOp) : Bool := !s.frm.subst.isEmpty && decide (seatPass op = 0)

/-- Is the ring's present segment there, and does every block of it verify? The Frame consumes no other (R87, R301). -/
def feedReady (s : State) (r : Nat) : Bool :=
  let l := segNow s r
  ringReady s r && rangeVerifies s.brd.mem s.brd.check (segAddr s r (ring s r).c) (l.rows * l.rowBytes + l.aux)

/-- Does every line of the operands' ceiling maps that tile (i, j) reads verify (R300, R293)? -/
def mapsVerify (s : State) (d : Bytes) (w i j : Nat) : Bool :=
  let g := mapCols (img s)
  let lines := fun b rows q r n => locVerifies s (locAdd (fdCmap d b) (64 * (q * ceilDiv rows 64 + r))) (64 * n)
  let c0 := j * (w / 64)
  fdSeq d ||
  ((List.range (ceilDiv (fdK d) (64 * g))).all fun q => lines false (fdM d) q (4 * i) (ceilDiv (tileRows d i) 64)) &&
  (List.range ((c0 + ceilDiv (tileCols d w j) 64 - 1) / g - c0 / g + 1)).all fun q =>
    lines true (fdK d) (c0 / g + q) 0 (ceilDiv (fdK d) 64)

/-- Does every block that a replay of tile (i, j) reads from the source regions verify (R73, R87, R300)? -/
def sourceVerifies (s : State) (d : Bytes) (w i j : Nat) : Bool :=
  let kb := ceilDiv (fdK d) 32
  rowsVerify s (locAdd (fdSrc d false) (256 * i * fdPitch d false)) (fdPitch d false) (packedBytes (fdA d) (fdK d)) (tileRows d i) &&
  rowsVerify s (locAdd (fdSrc d true) (packedBytes (fdB d) (w * j))) (fdPitch d true) (packedBytes (fdB d) (tileCols d w j)) (fdK d) &&
  (!isMx (fdA d) || rowsVerify s (locAdd (fdScales d false) (256 * i * kb)) kb kb (tileRows d i)) &&
  (!isMx (fdB d) || rowsVerify s (locAdd (fdScales d true) (w * j)) (fdN d) (tileCols d w j) kb) &&
  mapsVerify s d w i j

/-- R56, R63: one weight chunk is seated from the B ring's present segment, once its strips are awake (R77) and no
substitution comes first (R82). A segment that does not verify is held as a missing one is (R301). -/
def seatChunk (s : State) (waited : Nat) : State :=
  let i := seatIdx s.frm.ops
  match s.frm.ops[i]? with
  | none => s
  | some op =>
    let rb := wFld op.word 29 24
    let mask := stripMask s (stripsNeeded op.desc op.width)
    if !frameLive s op || op.seat.isSome || creditHeld s 0 || substHolds s op || decide (stripsOn s &&& mask ≠ mask) then s
    else if !feedReady s rb then (if i = curIdx s.frm.ops && op.active.isNone then setHold s 0 3 else s)
    else
      let ks := chunkLen op.desc (seatPass op % chunks op.desc)
      let lay : SegLayout := ⟨ks, bRowBytes op.desc op.width,
        if isMx (fdB op.desc) then ceilDiv ks 32 * roundUpTo op.width 64 else 0⟩
      let put := fun (s : State) (op : FrameOp) => { s with frm := { s.frm with ops := s.frm.ops.set i op } }
      if segNow s rb ≠ lay then put (refuse s 0 0x0B050203) { op with dead := true }
      else
        let seg := mread s.brd.mem (segAddr s rb (ring s rb).c) (lay.rows * lay.rowBytes + lay.aux)
        let s := put s { op with seat := some seg, seatWait := op.seatWait + waited, cyc := op.cyc + waited }
        setHold (release s rb) 0 0

/-- R56. -/
def execSeatChunk (waited : Nat) (s : State) : Host.Outcome State Fault Refusal := .next (seatChunk s waited)

/-! ## Row groups and quanta (R16, R27, R69) -/

/-- R27: the quantum exponent of a tile. -/
def quantum (ea eb : Int) (k : Nat) (guaranteed : Bool) : Int :=
  let l := (ceilLog2 k : Nat)
  let topG : Int := ea + eb + l + 1
  let topO : Int := min (ea + eb + ((l + 1) / 2 : Nat) + 3) topG
  max ((if guaranteed then topG else topO) - 47) (-512)

/-- E_A of tile row i: the largest entry over the blocks of A that the tile reads (R16). -/
def ceilA (s : State) (d : Bytes) (i : Nat) : Int :=
  let g := mapCols (img s)
  maxCeil ((List.range (ceilDiv (tileRows d i) 64)).flatMap fun r =>
    (List.range (ceilDiv (fdK d) 64)).map fun k => cmapEntry s g (fdCmap d false) (fdM d) (4 * i + r) k)

/-- E_B of column block j. -/
def ceilB (s : State) (d : Bytes) (w j : Nat) : Int :=
  let g := mapCols (img s)
  maxCeil ((List.range (ceilDiv (fdK d) 64)).flatMap fun k =>
    (List.range (ceilDiv (tileCols d w j) 64)).map fun c => cmapEntry s g (fdCmap d true) (fdK d) k (j * (w / 64) + c))

/-- The tiles of row group h, with their quanta (R55, R27). -/
def groupTiles (s : State) (d : Bytes) (w h : Nat) : List TileRun :=
  let j := h / groupsPerBlock d
  let hh := h % groupsPerBlock d
  let slots := fdSlots d
  let n := min (fdG d) (tilesM d - hh * fdG d)
  (List.range n).map fun t =>
    let i := hh * fdG d + t
    let ea := if fdSeq d then 0 else ceilA s d i
    let eb := if fdSeq d then 0 else ceilB s d w j
    { idx := j * tilesM d + i, ti := i, tj := j, slot := slots.getD ((h * fdG d) % slots.length + t) 0,
      q := if fdSeq d then 0 else quantum ea eb (fdK d) false,
      qg := if fdSeq d then 0 else quantum ea eb (fdK d) true }

/-- The row group of the next pass. -/
def nextGroup (op : FrameOp) : Nat := op.pass / chunks op.desc

/-- R69, R27, R300: a row group begins once its slots are Empty and the ceiling-map entries of its tiles verify; each tile whose
quantum is above 511 raises its code, and the operation stops before it. -/
def rowGroupBegin (s : State) (waited : Nat) : State :=
  match curOp s with
  | none => s
  | some op =>
    if !frameLive s op || op.group.isSome || decide (passes op.desc op.width ≤ op.pass) then s
    else
      let tiles := groupTiles s op.desc op.width (nextGroup op)
      if tiles.any fun t => (slot s t.slot).st != 0 then
        setHold { s with frm := { s.frm with hold := true } } 0 4
      else
        let s := setHold { s with frm := { s.frm with hold := false } } 0 0
        if !tiles.all (fun t => mapsVerify s op.desc op.width t.ti t.tj) then s else
        let op := { op with group := some tiles, carryWait := op.carryWait + waited, cyc := op.cyc + waited }
        let loose := if fdSeq op.desc then [] else tiles.filter fun t => decide (511 < t.q)
        if loose.isEmpty then setCur s op
        else loose.foldl (fun s _ => raise s 0x01020004 .jobEnding) (stopStrand (setCur s { op with dead := true }) 0)

/-- R69. -/
def execRowGroupBegin (waited : Nat) (s : State) : Host.Outcome State Fault Refusal := .next (rowGroupBegin s waited)

/-! ## Recount selection (R433, R434) -/

/-- N_band (Table 12-4). -/
def nBand (band : Nat) : Nat := 512 / 2 ^ band

/-- R434: the interval; d is always 0 in band 3. -/
def interval (s : State) : Nat :=
  if s.knl.band = 3 then nBand 3 else nBand s.knl.band.toNat * 2 ^ s.knl.d.toNat

/-- R433, job_start. -/
def recountStart (s : State) : State :=
  { s with knl := { s.knl with t := 0, win := 0, winStart := 0, n := BitVec.ofNat 32 (interval s), pick := 0 } }

/-- R433: at the end of a window the next window, its interval and its pick are chosen. -/
def windowEnd (s : State) : State :=
  if s.knl.t = s.knl.winStart + s.knl.n.setWidth 64 then
    let win := s.knl.win + 1
    let n := interval s
    { s with knl := { s.knl with win := win, winStart := s.knl.t, n := BitVec.ofNat 32 n,
                                 pick := BitVec.ofNat 32 ((win * 167).toNat % n) } }
  else s

/-- R433. -/
def execRecountWindowEnd (s : State) : Host.Outcome State Fault Refusal := .next (if running s then windowEnd s else s)

/-- R433, tile_begins: is the tile selected, and the state that has counted it. -/
def tileBegins (s : State) : Bool × State :=
  let s := windowEnd s
  (decide (s.knl.t - s.knl.winStart = s.knl.pick.setWidth 64), { s with knl := { s.knl with t := s.knl.t + 1 } })

/-- Tiles of a group begin one after another. -/
def tilesBegin (s : State) : List TileRun → List TileRun × State
  | [] => ([], s)
  | t :: ts =>
    let (sel, s) := tileBegins s
    let (ts, s) := tilesBegin s ts
    ({ t with sel := sel } :: ts, s)

/-! ## The arithmetic of a pass (R20 to R37) -/

/-- A cell of a slot. -/
def cellAt (cs : List (List (BitVec 48))) (r c : Nat) : BitVec 48 := (cs.getD r []).getD c 0

/-- R24, R75: a product aligned to the quantum; one with a non-finite factor adds zero. -/
def alignedProduct (q : Int) (a b : Fv) : Int :=
  if a.isFin && b.isFin then (a.dy.mul b.dy).align q else 0

/-- Is a prefix sum outside the accumulator (R28)? -/
def outside48 (x : Int) : Bool := decide (x < -(2 ^ 47) ∨ 2 ^ 47 ≤ x)

/-- R24, R25, R28: one output over one chunk in exact mode; the flag says that a prefix sum left the range. `hit` is what a
physical fault changes in the carry that leaves a seat row. -/
def exactCell (q : Int) (ab : Nat → Fv × Fv) (ks : Nat) (hit : Nat → BitVec 48) (c : BitVec 48) : BitVec 48 × Bool :=
  (List.range ks).foldl (fun (acc : BitVec 48 × Bool) k =>
    let (a, b) := ab k
    let x := acc.1.toInt + alignedProduct q a b
    (BitVec.ofInt 48 x ^^^ hit k, acc.2 || outside48 x)) (c, false)

/-- R34 to R37: one output over one chunk in sequential-float mode; the flag is R36's overflow from finite inputs. -/
def seqCell (ab : Nat → Fv × Fv) (ks : Nat) (hit : Nat → BitVec 48) (c : BitVec 48) : BitVec 48 × Bool :=
  let r := (List.range ks).foldl (fun (acc : Word × Bool) k =>
    let (a, b) := ab k
    let p := fMul (toF32 a) (toF32 b)
    let o1 := a.isFin && b.isFin && isInf32 p
    let x := fAdd acc.1 p
    let o2 := isFin32 acc.1 && isFin32 p && isInf32 x
    (x ^^^ (hit k).setWidth 32, acc.2 || o1 || o2)) (c.setWidth 32, false)
  (r.1.setWidth 48, r.2)

/-- What the faults of a pass change in the carry of one row of a tile at column n and value k of a chunk, under a mapping of
rows and columns: a bead outside the mapping carries nothing. A chunk of 2,048 values takes two of them at each bead (R56). -/
def faultHit (fs : List CarryFault) (rows cols : Nat → Nat) (per tile r n k : Nat) : BitVec 48 :=
  if k % per + 1 = per then
    fs.foldl (fun a f => if f.tile = tile ∧ f.row = r ∧ f.pcol = cols n ∧ f.prow = rows (k / per) then a ^^^ f.flip else a) 0
  else 0

/-- A tile's cells over one chunk of `ks` values. -/
def tileChunk (seq : Bool) (q : Int) (a : Nat → Nat → Fv) (b : Nat → Nat → Fv) (rows cols ks : Nat)
    (hit : Nat → Nat → Nat → BitVec 48) (cs : List (List (BitVec 48))) : List (List (BitVec 48)) × Bool :=
  let rs := (List.range rows).map fun r => (List.range cols).map fun c =>
    let ab := fun k => (a r k, b k c)
    if seq then seqCell ab ks (hit r c) (cellAt cs r c) else exactCell q ab ks (hit r c) (cellAt cs r c)
  (rs.map fun row => row.map Prod.fst, rs.any fun row => row.any Prod.snd)

/-- Is any operand that a tile reads in a chunk non-finite (R19)? -/
def chunkNonfinite (a : Nat → Nat → Fv) (b : Nat → Nat → Fv) (rows cols ks : Nat) : Bool :=
  (List.range ks).any fun k =>
    ((List.range rows).any fun r => !(a r k).isFin) || ((List.range cols).any fun c => !(b k c).isFin)

/-- Is a finite value above its ceiling 2^e (R18)? -/
def aboveCeil (v : Fv) (e : Int) : Bool := v.isFin && decide (v.dy.m ≠ 0) && (Dy.mk 1 e).lt v.dy.abs

/-- The first row of a tile's chunk with an operand of A above its ceiling; row 0 when B holds one (R18, log 15). -/
def rangeRow (s : State) (d : Bytes) (w : Nat) (t : TileRun) (chunk : Nat) (a : Nat → Nat → Fv) (b : Nat → Nat → Fv)
    (rows cols ks : Nat) : Option Nat :=
  let g := mapCols (img s)
  let k0 := chunkK (fdA d) (fdB d) * chunk
  let bBad := (List.range ks).any fun k => (List.range cols).any fun c =>
    aboveCeil (b k c) (cmapEntry s g (fdCmap d true) (fdK d) ((k0 + k) / 64) ((w * t.tj + c) / 64))
  if bBad then some 0
  else firstBelow (fun r => (List.range ks).any fun k =>
    aboveCeil (a r k) (cmapEntry s g (fdCmap d false) (fdM d) ((256 * t.ti + r) / 64) ((k0 + k) / 64))) rows

/-- R66: the cycles that the pass before adds once the next begins, by whether it is of the same row group. -/
def passTerm (last : Option (Nat × Nat)) (gid : Nat) : Nat :=
  match last with
  | none => 1024
  | some (rc, g) => max (max rc 1024) (if g = gid then 1056 else 0)

/-- R66: one pass of `rc` cycles of rows, of the group `gid`, begins. -/
def addPass (op : FrameOp) (rc gid : Nat) : FrameOp :=
  { op with cyc := op.cyc + passTerm op.last gid, last := some (rc, gid) }

/-- R66: `n` replay passes of one group, and the cycles they take. -/
def addPasses (op : FrameOp) (rc gid : Nat) : (n : Nat) → FrameOp
  | 0 => op
  | n + 1 => addPass (addPasses op rc gid n) rc gid

/-- The cycles of `n` replay passes of `rc` cycles of rows each (R66, R88). -/
def replayCycles (rc n : Nat) : Nat := (n - 1) * max rc 1056 + max rc 1024

/-- What one tile of a pass leaves: the tile, its cells, the codes it raises, and the row at which the operation stops (R18). -/
structure TileOut where
  t     : TileRun
  cells : List (List (BitVec 48))
  codes : List Nat := []
  stop  : Option Nat := none

/-- One tile over one chunk of a pass, on operands `a` and `b` and on what the pass finds in the cells (R18, R19, R23 to R25,
R28, R36, R58, R72, R75). A tile that has stopped adds nothing; at a row above its ceiling the operation stops, and the
rows after it have not entered the Frame. -/
def tilePass (s : State) (op : FrameOp) (rot : Bool) (t : TileRun) (chunk : Nat) (a b : Nat → Nat → Fv)
    (old : List (List (BitVec 48))) (fs : List CarryFault) (pos : Nat) : TileOut :=
  let d := op.desc
  let rows := tileRows d t.ti
  let cols := tileCols d op.width t.tj
  let ks := chunkLen d chunk
  let hit := fun r n k => if fs.isEmpty then 0
    else faultHit fs (rowAt s rot) (colAt s op.width rot) (chunkK (fdA d) (fdB d) / 1024) pos r n k
  if fdSeq d then
    let (cs, ovf) := tileChunk true 0 a b rows cols ks hit old
    { t := { t with seqOvf := t.seqOvf || ovf }, cells := cs, codes := if ovf && !t.seqOvf then [0x01020003] else [] }
  else
    let stop := rangeRow s d op.width t chunk a b rows cols ks
    let nf := t.nonfinite || chunkNonfinite a b (match stop with | some r => r + 1 | none => rows) cols ks
    let codes := (if nf && !t.nonfinite then [0x01020002] else []) ++ (if stop.isSome then [0x01020001] else [])
    let (cs, ovf) := if t.stopped then (old, false) else tileChunk false t.q a b rows cols ks hit old
    { t := { t with nonfinite := nf, stopped := t.stopped || (ovf && decide (t.q ≠ t.qg) && !nf) },
      cells := match stop with | some r => cs.take r ++ old.drop r | none => cs,
      codes := codes, stop := stop }

/-- R67: the first carry of a tile is written to its slot. -/
def beginSlot (s : State) (op : FrameOp) (t : TileRun) : State :=
  let d := op.desc
  let one : Word := 0x3F800000
  setSlot s t.slot
    { st := 1, tag := (slot s t.slot).tag + 1, q := BitVec.ofInt 10 t.q, seqf := fdSeq d, nonfinite := false, stepped := false,
      cells := [], ti := t.ti, tj := t.tj, m := fdM d, n := fdN d, afmt := fdA d, bfmt := fdB d,
      sa := if isFp8 (fdA d) then BitVec.ofNat 32 (fdScale d false) else one,
      sb := if isFp8 (fdB d) then BitVec.ofNat 32 (fdScale d true) else one }

/-- The codes of a tile are raised (Table 2-4). -/
def raiseTile (s : State) (codes : List Nat) : State :=
  codes.foldl (fun s c => raise s c (if c = 0x01020001 then .jobEnding else .event)) s

/-- A tile has passed: its cells and its flag stand in its slot, and its codes are raised. -/
def storeTile (s : State) (k : Nat) (out : TileOut) : State :=
  raiseTile (setSlot s k { slot s k with cells := out.cells, nonfinite := out.t.nonfinite }) out.codes

/-- How far the tiles of a pass have streamed: all of them, up to the one whose A segment is missing, up to a row above its
ceiling, or up to a segment that is not the tile's (R229). -/
inductive PassEnd where
  | whole
  | short (pos : Nat)
  | stopped
  | misuse
  deriving DecidableEq, Repr

/-- Does a finished optimistic pass of a tile call for a step-back replay (R29, R75)? -/
def needsReplay (t : TileRun) : Bool := t.stopped && !t.nonfinite

/-- A column's digest (R436): CRC-32C over 6 bytes of each final carry, ascending rows. -/
def digestOf (cs : List (List (BitVec 48))) (cols : Nat) : List Word :=
  (List.range cols).map fun c => crc32c (cs.flatMap fun row => natLE 6 (row.getD c 0).toNat)

/-- A selected tile joins the operation's recounts, in tile order. -/
def insertSel (x : SelTile) : List SelTile → List SelTile
  | [] => [x]
  | y :: ys => if x.idx < y.idx then x :: y :: ys else y :: insertSel x ys

/-- The selected ones of finished tiles join the recounts, with their digests. -/
def addSel (s : State) (op : FrameOp) (ts : List TileRun) (q : TileRun → Int) : FrameOp :=
  ts.foldl (fun op t => if t.sel then
    { op with sel := insertSel { idx := t.idx, ti := t.ti, tj := t.tj, q := q t, nonfinite := t.nonfinite, seqOvf := t.seqOvf,
                                 d0 := digestOf (slot s t.slot).cells (tileCols op.desc op.width t.tj) } op.sel }
    else op) op

/-- Expected layout of tile row i's A segment (Table 8-2). -/
def aLayout (d : Bytes) (i : Nat) : SegLayout :=
  ⟨tileRows d i, aRowBytes d, if isMx (fdA d) then 64 * tileRows d i else 0⟩

/-- The tiles of a pass stream one after another, from place `pos` of the group, each while its A segment is in the ring
and verifies (R55, R63, R87); a slot begins as its first carry is written (R67), and a segment is released once it has streamed. -/
def streamTiles (op : FrameOp) (chunk : Nat) (bseg : Bytes) (fs : List CarryFault) (ra : Nat) :
    (pos : Nat) → State → List TileRun → List TileRun × State × PassEnd
  | _, s, [] => ([], s, .whole)
  | pos, s, t :: ts =>
    if !feedReady s ra then (t :: ts, s, .short pos)
    else if segNow s ra ≠ aLayout op.desc t.ti then (t :: ts, s, .misuse)
    else
      let (sel, s) := if chunk = 0 then tileBegins s else (t.sel, s)
      let d := op.desc
      let seg := mread s.brd.mem (segAddr s ra (ring s ra).c)
        (tileRows d t.ti * aRowBytes d + (if isMx (fdA d) then 64 * tileRows d t.ti else 0))
      let out := tilePass s op false { t with sel := sel } chunk (segA seg d (tileRows d t.ti))
        (segB bseg d op.width (chunkLen d chunk)) (if chunk = 0 then [] else (slot s t.slot).cells) fs pos
      let s := if chunk = 0 then (if out.stop = some 0 then s else beginSlot s op t) else s
      let s := if chunk = 0 ∧ out.stop = some 0 then raiseTile s out.codes else storeTile s t.slot out
      if out.stop.isSome then (out.t :: ts, s, .stopped)
      else
        let (ts', s', e) := streamTiles op chunk bseg fs ra (pos + 1) (release s ra) ts
        (out.t :: ts', s', e)

/-- Clear the REPLAY and ROTATED flags as ordinary streaming goes on (R89). -/
def clearReplay (s : State) : State := { s with frm := { s.frm with replay := false, rotated := false } }

/-- The last pass of the row group has streamed, and tiles of it wait for their replay (R73). -/
def replayDue (op : FrameOp) : Option (List TileRun) :=
  match op.group with
  | some tiles => if op.pass % chunks op.desc = 0 ∧ 0 < op.pass ∧ tiles.any needsReplay then some tiles else none
  | none => none

/-- The pass that streams now, or the one that begins now: its weight chunk becomes active at its first row (R56), once no
substitution comes first (R82). -/
def passStart (s : State) (op : FrameOp) (tiles : List TileRun) : Option FrameOp :=
  if op.active.isSome then some op
  else if op.seat.isNone || substHolds s op then none
  else
    let rows := (tiles.map fun t => tileRows op.desc t.ti).sum
    some { addPass op (rows * rowCycles (fdA op.desc) (fdB op.desc)) (2 * nextGroup op) with
      active := op.seat, seat := none, pos := 0 }

/-- The tiles of a pass have all streamed (R62, R73): the pass leaves its last carry, and the last pass of a row group leaves
the tiles that are then finished. -/
def passDone (s : State) (op : FrameOp) (tiles : List TileRun) : State :=
  let last := decide (op.pass % chunks op.desc + 1 = chunks op.desc)
  let op := { op with pass := op.pass + 1, active := none, pos := 0 }
  if last then
    let done := tiles.filter fun t => !needsReplay t
    let op := addSel s op done (·.q)
    setCur s { op with landing := op.landing ++ [⟨done.map (·.slot)⟩],
                       group := if tiles.any needsReplay then some tiles else none }
  else setCur s { op with landing := op.landing ++ [⟨[]⟩] }

/-- R58 to R63, R72: a pass streams its tiles, as far as their feed segments have come. -/
def passBegin (s : State) (feedWait seatWait throttle : Nat) (faults : List CarryFault) : State :=
  match curOp s with
  | none => s
  | some op0 =>
    match op0.group with
    | none => s
    | some tiles =>
      let ra := wFld op0.word 35 30
      if !frameLive s op0 || creditHeld s 0 || decide (passes op0.desc op0.width ≤ op0.pass) || (replayDue op0).isSome then s
      else if !feedReady s ra then (if (passStart s op0 tiles).isSome then setHold s 0 3 else s)
      else
        match passStart s op0 tiles with
        | none => s
        | some op =>
          let chunk := op.pass % chunks op.desc
          let (ts, s, e) := streamTiles op chunk (op.active.getD []) faults ra op.pos (setHold (clearReplay s) 0 0)
            (tiles.drop op.pos)
          let tiles := tiles.take op.pos ++ ts
          let op := { op with
            group := some tiles,
            cyc := op.cyc + feedWait + seatWait + throttle,
            feedWait := op.feedWait + feedWait, seatWait := op.seatWait + seatWait, throttle := op.throttle + throttle,
            anyNonfinite := op.anyNonfinite || tiles.any (·.nonfinite),
            anySeqOvf := op.anySeqOvf || tiles.any (·.seqOvf) }
          match e with
          | .whole => passDone s op tiles
          | .short pos => setHold (setCur s { op with pos := pos }) 0 3
          | .stopped => stopStrand (setCur s { op with dead := true }) 0
          | .misuse => frameRefuse s op 0x0B050203

/-- R59. -/
def execPassBegin (feedWait seatWait throttle : Nat) (faults : List CarryFault) (s : State) :
    Host.Outcome State Fault Refusal := .next (passBegin s feedWait seatWait throttle faults)

/-- One tile over one chunk from the source regions (R64, R73, R76). -/
def sourcePass (s : State) (op : FrameOp) (rot : Bool) (t : TileRun) (chunk : Nat) (old : List (List (BitVec 48)))
    (fs : List CarryFault) (pos : Nat) : TileOut :=
  let d := op.desc
  let k0 := chunkK (fdA d) (fdB d) * chunk
  tilePass s op rot t chunk (fun r k => srcA s d (256 * t.ti + r) (k0 + k)) (fun k c => srcB s d (k0 + k) (op.width * t.tj + c))
    old (if chunk + 1 = chunks d then fs else []) pos

/-- A step-back replay's tile at its guaranteed quantum (R29). -/
def asReplay (t : TileRun) : TileRun := { t with q := t.qg, stopped := false }

/-- The tiles of a replay group over one chunk, in slot-list order, on their own slots (R73). -/
def replayChunk (op : FrameOp) (chunk : Nat) (fs : List CarryFault) :
    (pos : Nat) → State → List TileRun → List TileRun × State × Bool
  | _, s, [] => ([], s, false)
  | pos, s, t :: ts =>
    let out := sourcePass s op false t chunk (if chunk = 0 then [] else (slot s t.slot).cells) fs pos
    let s := storeTile s t.slot out
    if out.stop.isSome then (out.t :: ts, s, true)
    else
      let (ts', s', stop) := replayChunk op chunk fs (pos + 1) s ts
      (out.t :: ts', s', stop)

/-- The passes of a replay group from k = 0 (R73); one that meets a value above its ceiling stops the operation (R18). -/
def replayGroup (s : State) (op : FrameOp) (fs : List CarryFault) (ts : List TileRun) : List TileRun × State × Bool :=
  (List.range (chunks op.desc)).foldl (fun (r : List TileRun × State × Bool) c =>
    if r.2.2 then r else replayChunk op c fs 0 r.2.1 r.1) (ts, s, false)

/-- R29, R30, R73: the overflowed tiles of the row group are replayed from k = 0 at the guaranteed quantum, once what they read
verifies. -/
def stepBackReplay (s : State) (throttle : Nat) (faults : List CarryFault) : State :=
  match curOp s with
  | none => s
  | some op =>
    match replayDue op with
    | none => s
    | some tiles =>
      if !frameLive s op || creditHeld s 0 then s
      else
        let d := op.desc
        let rep := (tiles.filter needsReplay).map asReplay
        let loose := rep.filter fun t => decide (511 < t.q)
        if !loose.isEmpty then
          loose.foldl (fun s _ => raise s 0x01020004 .jobEnding) (stopStrand (setCur s { op with dead := true }) 0)
        else if !rep.all (fun t => sourceVerifies s d op.width t.ti t.tj) then s
        else
          let s := rep.foldl (fun s t => setSlot s t.slot { slot s t.slot with q := BitVec.ofInt 10 t.q, stepped := true }) s
          let (rep, s, stop) := replayGroup s op faults rep
          let rc := (rep.map fun t => tileRows d t.ti).sum * rowCycles (fdA d) (fdB d)
          let op := addPasses op rc (2 * ((op.pass - 1) / chunks d) + 1) (chunks d)
          let op := addSel s op rep (·.q)
          let op := { op with group := none, stepbacks := op.stepbacks + rep.length, throttle := op.throttle + throttle,
                              cyc := op.cyc + throttle, replayCyc := op.replayCyc + replayCycles rc (chunks d),
                              anyNonfinite := op.anyNonfinite || rep.any (·.nonfinite),
                              landing := op.landing ++ [⟨rep.map (·.slot)⟩] }
          let s := setEvent s .frm 0
          let s := { s with frm := { s.frm with stepbacks := satAdd32 s.frm.stepbacks rep.length, replay := true, rotated := false } }
          if stop then stopStrand (setCur s { op with dead := true }) 0 else setCur s op

/-- R29, R73. -/
def execStepBackReplay (throttle : Nat) (faults : List CarryFault) (s : State) : Host.Outcome State Fault Refusal :=
  .next (stepBackReplay s throttle faults)

/-- R62, R67: the last carry of the oldest begun pass is written; finished tiles' slots turn Full. -/
def lastCarryWritten (s : State) : State :=
  if !running s then s
  else
    match firstBelow (fun i => ((s.frm.ops[i]?).map fun op => !op.landing.isEmpty && !op.dead).getD false) s.frm.ops.length with
    | none => s
    | some i =>
      match s.frm.ops[i]? with
      | none => s
      | some op =>
        let slots := ((op.landing.head?).map Landing.slots).getD []
        let s := { s with frm := { s.frm with ops := s.frm.ops.set i { op with landing := op.landing.drop 1 } } }
        clearReplay (slots.foldl (fun s k => setSlot s k { slot s k with st := 2 }) s)

/-- R62, R67. -/
def execLastCarryWritten (s : State) : Host.Outcome State Fault Refusal := .next (lastCarryWritten s)

/-! ## The bead map (R79 to R83) -/

/-- R81: no step of R80 clears a fault; what follows depends on the state. -/
def enterNoWidth (s : State) : State :=
  if s.frm.noWidth then s else
  let s := raise { s with frm := { s.frm with noWidth := true } } 0x0D010002 .event
  match s.sys.st with
  | .running | .armed => raise { s with knl := { s.knl with withdrawAtEnd := true } } 0x01020007 .jobEnding
  | .faulted | .draining => raise { s with knl := { s.knl with withdrawAtEnd := true } } 0x01020007 .event
  | .holding =>
    let s := failLoad (discardProgram (raise s 0x01020007 .event))
    goState s .withdrawn
  | _ => raise s 0x01020007 .event

/-- R83: a strip is retired, and gated (R77). -/
def retireStrip (s : State) (b : Nat) : State :=
  let s := gateDomains { s with frm := { s.frm with retired := some ⟨b % 16, Nat.mod_lt b (by decide)⟩ } } (domMask [b % 16])
  let s := raise (sysChange s s.sys.st true s.sys.drill true) 0x0D010002 .event
  raise s 0x01020006 (if s.sys.st = .running then .jobEnding else .event)

/-- A spare column takes the place of a failed one (R80 step 1). -/
def useColumn (s : State) (p o : Nat) : State :=
  let s := { s with frm := { s.frm with colFail := vset s.frm.colFail p (BitVec.ofNat 7 o) } }
  if o = 64 then s else { s with frm := { s.frm with subst := s.frm.subst ++ [⟨1, p, o, 1⟩] } }

/-- A spare row takes the place of a failed one (R80 step 2). -/
def useRow (s : State) (b o : Nat) : State :=
  let s := { s with frm := { s.frm with rowFail := vset s.frm.rowFail b (BitVec.ofNat 7 o) } }
  if o = 64 then s else { s with frm := { s.frm with subst := s.frm.subst ++ [⟨0, b, o, 2⟩] } }

/-- Is a failed bead already outside the mapping (log 15)? -/
def beadOut (s : State) (row col : Nat) : Bool :=
  (s.frm.retired.map fun r => decide (r.val = col / 65)).getD false ||
  decide ((vget s.frm.colFail (col / 65) 0x7F).toNat = col % 65) ||
  decide ((vget s.frm.rowFail (row / 65) 0x7F).toNat = row % 65)

/-- The spare column of a strip and the spare row of a band, while unused (R80). -/
def spareColFree (s : State) (p : Nat) : Bool := vget s.frm.colFail p 0 == 0x7F
/-- Is a band's spare row unused? -/
def spareRowFree (s : State) (b : Nat) : Bool := vget s.frm.rowFail b 0 == 0x7F

/-- R79, R80: one failed bead is mapped out; a bead of an unused spare is entered at offset 64 and removes nothing; R81
where no step clears it. -/
def mapOutBead (s : State) (row col : Nat) : State :=
  let p := col / 65
  let b := row / 65
  if beadOut s row col then s
  else if row % 65 = 64 ∧ col % 65 ≠ 64 ∧ spareRowFree s b then useRow s b 64
  else if spareColFree s p then useColumn s p (col % 65)
  else if spareRowFree s b then useRow s b (row % 65)
  else if s.frm.retired.isNone then retireStrip s p
  else enterNoWidth s

/-- R80: a failed whole column uses step 1, then step 3. -/
def mapOutColumn (s : State) (col : Nat) : State :=
  if (s.frm.retired.map fun r => decide (r.val = col / 65)).getD false ||
    vget s.frm.colFail (col / 65) 0 == BitVec.ofNat 7 (col % 65) then s
  else if spareColFree s (col / 65) then useColumn s (col / 65) (col % 65)
  else if s.frm.retired.isNone then retireStrip s (col / 65)
  else enterNoWidth s

/-- R80: a failed whole row uses step 2 only. -/
def mapOutRow (s : State) (row : Nat) : State :=
  if vget s.frm.rowFail (row / 65) 0 == BitVec.ofNat 7 (row % 65) then s
  else if spareRowFree s (row / 65) then useRow s (row / 65) (row % 65)
  else enterNoWidth s

/-- Rows of which every bead outside a retired strip fails: faults that affect a whole row (R80; log 15). -/
def wholeRows (s : State) (failed : List (Nat × Nat)) : List Nat :=
  ((failed.map Prod.fst).eraseDups).filter fun r => (List.range 1040).all fun c =>
    (s.frm.retired.map fun x => decide (x.val = c / 65)).getD false || failed.contains (r, c)

/-- Columns of which every bead fails: faults that affect a whole column (R80; log 15). -/
def wholeCols (failed : List (Nat × Nat)) : List Nat :=
  ((failed.map Prod.snd).eraseDups).filter fun c => (List.range 1040).all fun r => failed.contains (r, c)

/-- The beads that a test fails are mapped out: whole columns, whole rows, then the beads that are left, in the order given. -/
def mapOutBeads (s : State) (failed : List (Fin 1040 × Fin 1040)) : State :=
  let f := failed.map fun b => (b.1.val, b.2.val)
  let s := (wholeCols f).foldl mapOutColumn s
  let s := (wholeRows s f).foldl mapOutRow s
  f.foldl (fun s b => mapOutBead s b.1 b.2) s

/-! ## Recount and classification (R50, R76, R436 to R442) -/

/-- Every row group and its replays have streamed, and a recount is left (R76). -/
def recountDue (op : FrameOp) : Option SelTile :=
  if passes op.desc op.width ≤ op.pass ∧ op.group.isNone ∧ op.mismatch.isNone then op.sel.head? else none

/-- The physical strips that a tile's original pass used. -/
def tileStrips (s : State) (d : Bytes) (w tj : Nat) : List Nat :=
  ((List.range (ceilDiv (tileCols d w tj) 64)).map (physStrip s))

/-- The strips' kept markers after a match (R442). -/
def keepStrips (s : State) (ps : List Nat) : State :=
  { s with knl := { s.knl with stripKept := ps.foldl (fun v p => vset v p s.str.marker) s.knl.stripKept } }

/-- The group numbers of an operation's recount passes, apart from those of its row groups. -/
def recountGid (op : FrameOp) (k : Nat) : Nat := 2 * passes op.desc op.width + 2 + 3 * op.sel.length + k

/-- The cycles of one replay of a whole tile added to the operation (R66, R440). -/
def addRecount (op : FrameOp) (ti k : Nat) (more : Nat) : FrameOp :=
  let rc := tileRows op.desc ti * rowCycles (fdA op.desc) (fdB op.desc)
  let op' := addPasses op rc (recountGid op k) (chunks op.desc)
  { op' with recountCyc := op'.recountCyc + replayCycles rc (chunks op.desc) + more, cyc := op'.cyc + more }

/-- A replay of a whole selected tile from the source regions, in the recount carry buffer (R76): the tile, its final
carries, the codes raised on the way, and where a value above its ceiling stops it (R18). -/
def recountTile (s : State) (op : FrameOp) (rot : Bool) (t : SelTile) (fs : List CarryFault) : TileOut :=
  (List.range (chunks op.desc)).foldl (fun (r : TileOut) c =>
    if r.stop.isSome then r
    else
      let o := sourcePass s op rot r.t c r.cells fs 0
      { o with codes := r.codes ++ o.codes })
    { t := { idx := t.idx, ti := t.ti, tj := t.tj, slot := 0, q := t.q, qg := t.q, nonfinite := t.nonfinite, seqOvf := t.seqOvf },
      cells := [] }

/-- The digest of such a replay (R436). -/
def replayDigest (op : FrameOp) (t : SelTile) (out : TileOut) : List Word :=
  digestOf out.cells (tileCols op.desc op.width t.tj)

/-- What the operation keeps of the flags of a replay. -/
def noteReplay (op : FrameOp) (out : TileOut) : FrameOp :=
  { op with anyNonfinite := op.anyNonfinite || out.t.nonfinite, anySeqOvf := op.anySeqOvf || out.t.seqOvf }

/-- R76, R436: the first selected tile is replayed on the rotated mapping, once what it reads verifies (R87), and its digest
compared. -/
def recountReplay (s : State) (throttle : Nat) (faults : List CarryFault) : State :=
  match curOp s with
  | none => s
  | some op =>
    match recountDue op with
    | none => s
    | some t =>
      if !frameLive s op || creditHeld s 0 || !sourceVerifies s op.desc op.width t.ti t.tj then s
      else
        let out := recountTile s op true t faults
        let d1 := replayDigest op t out
        let op' := noteReplay (addRecount op t.ti 0 0) out
        let op' := { op' with throttle := op'.throttle + throttle, cyc := op'.cyc + throttle }
        let s := raiseTile { s with frm := { s.frm with rotated := true, replay := false } } out.codes
        if out.stop.isSome then stopStrand (setCur s { op' with dead := true }) 0
        else
          let s := { s with knl := { s.knl with rcDone := satAdd32 s.knl.rcDone 1 } }
          if d1 = t.d0 then
            keepStrips (setCur s { op' with sel := op.sel.drop 1 }) (tileStrips s op.desc op.width t.tj)
          else
            let t := { t with d1 := d1, nonfinite := out.t.nonfinite, seqOvf := out.t.seqOvf }
            setCur { s with knl := { s.knl with rcMismatch := satAdd32 s.knl.rcMismatch 1, classify := true } }
              { op' with mismatch := some t, sel := op.sel.drop 1 }

/-- R76, R436. -/
def execRecountReplay (throttle : Nat) (faults : List CarryFault) (s : State) : Host.Outcome State Fault Refusal :=
  .next (recountReplay s throttle faults)

/-- The columns of a tile whose digests differ. -/
def diffCols (a b : List Word) : List Nat := indicesWhere a.length fun c => a.getD c 0 != b.getD c 0

/-- R438: a physical column that carried a differing output under both mappings. -/
def badColumn (s : State) (w : Nat) (cols : List Nat) : Option Nat :=
  let orig := cols.map (physCol s)
  let rot := cols.map fun n => physCol s (rotCol w n)
  orig.find? fun p => rot.contains p

/-- R439: did a mapped-out bead (a row of none: a whole column) lie on the original pass's path? -/
def onPath (s : State) (op : FrameOp) (t : SelTile) (row : Option Nat) (col : Nat) : Bool :=
  let per := chunkK (fdA op.desc) (fdB op.desc) / 1024
  let cols := (List.range (tileCols op.desc op.width t.tj)).map (physCol s)
  let rows := (List.range (min 1024 (ceilDiv (fdK op.desc) per))).map (physRow s)
  cols.contains col && (match row with | some r => rows.contains r | none => true)

/-- The least kept marker over all strips (R442). -/
def leastKept (s : State) : BitVec 64 :=
  s.knl.stripKept.toList.foldl (fun a b => if b < a then b else a) (vget s.knl.stripKept 0 0)

/-- R441, R442: the detection registers of a verdict, unless a mismatch of the job has set them. -/
def setDet (s : State) (op : FrameOp) (t : SelTile) (verdict : Nat) (row col : Nat) (clean : BitVec 64) : State :=
  if s.knl.detSet then s
  else { s with knl := { s.knl with
    detSet := true, detMarker := s.str.marker, clean := clean, detOpnum := op.num,
    detVerdict := BitVec.ofNat 4 verdict, detTile := BitVec.ofNat 28 t.idx,
    detRow := BitVec.ofNat 11 row, detCol := BitVec.ofNat 11 col } }

/-- R437 to R442: the verdict of Table 12-5 from the digests of replays 2 and 3, and what follows it. -/
def verdict (s : State) (op : FrameOp) (t : SelTile) (beadCycles : Nat) (d2 d3 : List Word)
    (failed : List (Fin 1040 × Fin 1040)) : State :=
  let perm := decide (d2 = t.d0 ∧ d3 ≠ t.d0 ∧ d3 = t.d1)
  let op' := addRecount (addRecount op t.ti 1 0) t.ti 2 (if perm then beadCycles else 0)
  let op' := { op' with mismatch := none }
  let s := { s with knl := { s.knl with classify := false } }
  let s0 := s
  if d2 = t.d0 ∧ d3 = t.d0 then raise (setCur s op') 0x02010001 .absorbed
  else if d2 = d3 ∧ d2 ≠ t.d0 then
    let s := setDet (setCur s op') op t 2 0x7FF 0x7FF s.str.marker
    raise (stopStrand s 0) 0x02010002 .jobEnding
  else if perm then
    let fresh := failed.filter fun b => !beadOut s0 b.1.val b.2.val
    match fresh with
    | b :: _ =>
      let hit := fresh.any fun b => onPath s0 op t (some b.1.val) b.2.val
      let s := setDet (setCur s op') op t (if hit then 4 else 3) b.1.val b.2.val (vget s0.knl.stripKept (b.2.val / 65) 0)
      let s := mapOutBeads s failed
      if hit then raise (stopStrand s 0) 0x02010004 .jobEnding else raise s 0x02010003 .absorbed
    | [] =>
      match badColumn s0 op.width (diffCols t.d0 t.d1) with
      | some col =>
        let hit := onPath s0 op t none col
        let s := setDet (setCur s op') op t (if hit then 4 else 3) 0x7FF col (vget s0.knl.stripKept (col / 65) 0)
        let s := mapOutColumn s col
        if hit then raise (stopStrand s 0) 0x02010004 .jobEnding else raise s 0x02010003 .absorbed
      | none =>
        let s := setDet (setCur s op') op t 5 0x7FF 0x7FF (leastKept s0)
        raise (stopStrand s 0) 0x02010005 .jobEnding
  else
    let s := setDet (setCur s op') op t 5 0x7FF 0x7FF (leastKept s0)
    raise (stopStrand s 0) 0x02010005 .jobEnding

/-- R437, R87: replays 2, on the original mapping, and 3, on the rotated one, once what they read verifies; a RECOUNT drill ends with the verdict. -/
def classificationReplay (s : State) (beadCycles : Nat) (faults2 faults3 : List CarryFault)
    (failed : List (Fin 1040 × Fin 1040)) : State :=
  match curOp s with
  | none => s
  | some op =>
    match op.mismatch with
    | none => s
    | some t =>
      if !frameLive s op || creditHeld s 0 || !sourceVerifies s op.desc op.width t.ti t.tj then s
      else
        let o2 := recountTile s op false t faults2
        let o3 := recountTile s op true t faults3
        let op := noteReplay (noteReplay op o2) o3
        if o2.stop.isSome || o3.stop.isSome then
          stopStrand (setCur (raiseTile s (o2.codes ++ o3.codes).eraseDups) { op with dead := true }) 0
        else
          let s := raiseTile s (o2.codes ++ o3.codes).eraseDups
          drillHandled (verdict s op t beadCycles (replayDigest op t o2) (replayDigest op t o3) failed) 3

/-- R437. -/
def execClassificationReplay (beadCycles : Nat) (faults2 faults3 : List CarryFault) (failed : List (Fin 1040 × Fin 1040))
    (s : State) : Host.Outcome State Fault Refusal := .next (classificationReplay s beadCycles faults2 faults3 failed)

/-- R79: the bead test of a start-up, after which the strips are gated (R77), or of a pattern drill between two operations. -/
def beadTest (s : State) (failed : List (Fin 1040 × Fin 1040)) : State :=
  if s.die ≠ .serving then s
  else
    let s := mapOutBeads s failed
    if s.sys.st = .boot then { setStrips s 0 with boot := { s.boot with beadTest := true } } else drillHandled s 6

/-- R79. -/
def execBeadTest (failed : List (Fin 1040 × Fin 1040)) (s : State) : Host.Outcome State Fault Refusal := .next (beadTest s failed)

/-- R82: the substitutions decided take effect between two operations; a seated first chunk is seated again. -/
def spareSubstitution (s : State) : State :=
  if s.frm.subst.isEmpty || s.frm.ops.any (fun op => decide (0 < seatPass op)) then s
  else
    let s := s.frm.subst.foldl (fun s x => raise s 0x01020005 .event (d4 x.unit ++ d4 x.offset ++ d4 x.step)) s
    let s := { s with frm := { s.frm with subst := [], rowMap := s.frm.rowFail, colMap := s.frm.colFail } }
    match s.frm.ops with
    | op :: ops =>
      if op.seat.isSome then
        { s with frm := { s.frm with ops := { op with seatWait := op.seatWait + 1024, cyc := op.cyc + 1024 } :: ops } }
      else s
    | [] => s

/-- R82. -/
def execSpareSubstitution (s : State) : Host.Outcome State Fault Refusal := .next (spareSubstitution s)

/-- R77: a gated strip that an issued operation needs has woken. -/
def stripWake (s : State) (p : Nat) : State :=
  let need := s.frm.ops.foldl (fun m op => m ||| stripMask s (stripsNeeded op.desc op.width)) 0
  if running s ∧ bitOf need.toNat p then
    setStrips s (stripsOn s ||| BitVec.ofNat 16 (2 ^ p))
  else s

/-- R77. -/
def execStripWake (p : Fin 16) (s : State) : Host.Outcome State Fault Refusal := .next (stripWake s p.val)

/-! ## Completion (R62, R77, R78, R88) -/

/-- May the Frame's oldest operation complete? -/
def frameCanComplete (s : State) : Bool :=
  match s.frm.ops with
  | op :: _ => streamed op && op.landing.isEmpty && !op.dead
  | [] => false

/-- T of R66. -/
def opCycles (op : FrameOp) : Nat := op.cyc + ((op.last.map Prod.fst).getD 0) + 2096

/-- R78: the utilisation in basis points. -/
def utilBp (op : FrameOp) : Nat :=
  let d := op.desc
  min 10000 (10000 * (fdM d * fdK d * fdN d) / (macPerCycle (fdA d) (fdB d) * opCycles op))

/-- The operation record of Table 2-5. STRIPS is the number of strips that the operation needs (DESIGN CHOICE, log 33: Table 2-5
does not say whether those that only the next issued operation needs count). -/
def opRecord (op : FrameOp) : Bytes :=
  let d := op.desc
  let h := fun x => min x 0xFFFFFFFF
  natLE 4 op.num.toNat ++ natLE 1 (fdA d + 16 * fdB d) ++ natLE 1 (fdMode d) ++ natLE 1 (if op.width = 960 then 1 else 0) ++
  natLE 1 (stripsNeeded d op.width) ++ natLE 8 (min (opCycles op) (2 ^ 64 - 1)) ++ natLE 8 (min (fdM d * fdK d * fdN d) (2 ^ 64 - 1)) ++
  natLE 4 (h (tilesM d * tilesN d op.width)) ++ natLE 4 (h op.stepbacks) ++ natLE 4 (h op.replayCyc) ++ natLE 4 (h op.recountCyc) ++
  natLE 4 (h op.feedWait) ++ natLE 4 (h op.seatWait) ++ natLE 4 (h op.carryWait) ++ natLE 4 (h op.throttle) ++
  natLE 2 (utilBp op) ++ natLE 2 (b2n op.anyNonfinite + 2 * b2n op.anySeqOvf) ++ natLE 4 0

/-- The oldest operation completes: its record, the LAST registers, and the gating of strips (R62, R77, R88, R93 to R95);
STRIPS as in the record (log 33). -/
def frameComplete (s : State) : State :=
  match s.frm.ops with
  | [] => s
  | op :: ops =>
    let rec_ := wFld op.word 57 36 * 64
    let s := if rec_ = 0 then s else boardWrite s rec_ (opRecord op)
    let h := fun x => BitVec.ofNat 32 (min x 0xFFFFFFFF)
    let need := stripMask s (stripsNeeded op.desc op.width) |||
      (match ops with | nx :: _ => stripMask s (stripsNeeded nx.desc nx.width) | [] => 0)
    let s := setStrips s (stripsOn s &&& need)
    clearReplay { s with frm := { s.frm with
      ops := ops, opnum := op.num,
      last := { cycles := BitVec.ofNat 64 (opCycles op), util := BitVec.ofNat 14 (utilBp op),
                strips := BitVec.ofNat 5 (stripsNeeded op.desc op.width), stepbacks := h op.stepbacks,
                feedWait := h op.feedWait, seatWait := h op.seatWait, carryWait := h op.carryWait, throttle := h op.throttle } } }

end Sys2Proof.Machine
end

