-- ==== Sys2Proof/Machine/RoundUp.lean ====
section
/-!
DEFINITION. The launch frame and the round-up (spec/11 R409 to R419, R642; spec/06 R225, R243; spec/10 R376, R387; spec/13 R499),
and job start.
-/
namespace Sys2Proof.Machine

/-! ## Authentication (R409) -/

/-- Bytes 0x00 to 0x1F of a launch frame (Table 11-5). -/
def lfBytes (f : LaunchFrame) : Bytes :=
  [f.kind, f.depth] ++ natLE 2 f.plan.toNat ++ natLE 4 f.armId.toNat ++ natLE 8 f.jobId.toNat ++ natLE 8 f.time.toNat ++
  natLE 8 f.reserved.toNat

/-- AUTH of a launch frame verifies under the installed job key. -/
def lfAuthOk (s : State) (f : LaunchFrame) : Bool := s.sec.job.any fun k => ruAuth k (lfBytes f) == f.auth

/-- The fields of a report that its AUTH covers (log 24). -/
def repBytes (sender : BitVec 24) (jobId : BitVec 64) (armId : BitVec 32) : Bytes :=
  natLE 4 sender.toNat ++ natLE 8 jobId.toNat ++ natLE 4 armId.toNat

/-- AUTH of a report verifies. -/
def repAuthOk (s : State) (m : RuReport) : Bool := s.sec.job.any fun k => ruAuth k (repBytes m.sender m.jobId m.armId) == m.auth

/-- A report of this device about the present arm. -/
def ownReport (s : State) : RuReport :=
  let a := BitVec.ofNat 24 (ownId s)
  { sender := a, jobId := s.str.job, armId := s.tet.armId,
    auth := (s.sec.job.map fun k => ruAuth k (repBytes a s.str.job s.tet.armId)).getD 0 }

/-- The CANCEL frame of an arm. -/
def cancelFrame (s : State) (depth : BitVec 8) (plan : BitVec 16) (armId : BitVec 32) (jobId : BitVec 64) : LaunchFrame :=
  let f : LaunchFrame := { kind := 3, depth := depth, plan := plan, armId := armId, jobId := jobId, time := 0, reserved := 0, auth := 0 }
  { f with auth := (s.sec.job.map fun k => ruAuth k (lfBytes f)).getD 0 }

/-! ## The plan of the round-up -/

/-- The plan of the present arm has leads: it is not 0xFFFF. -/
def ruDown (s : State) : List Nat := if s.tet.plan = 0xFFFF then [] else downLeads (img s) s.tet.plan.toNat

/-- The lead to the parent, none at the root. -/
def ruUp (s : State) : Option Nat :=
  if s.tet.plan = 0xFFFF then none
  else let u := plUp (img s) s.tet.plan.toNat
    if u < 8 then some u else none

/-- A frame for the parent. -/
def toParent (s : State) (b : TxBody) : State :=
  match ruUp s with
  | some u => leadSend s u b
  | none => s

/-! ## Cancel and disarm (R418, R419) -/

/-- R419: the device disarms, to HOLDING, or to WITHDRAWN where the width class is lost (R81). -/
def disarm (s : State) : State :=
  let s := dropLeadKeys s
  let s := { s with tet := { s.tet with
    phase := .idle, root := false, plan := 0xFFFF, depth := 0, children := 0, childReady := 0, readySent := false,
    deadline := 0, launch := 0 } }
  if s.knl.withdrawAtEnd then
    let s := { discardProgram s with knl := { s.knl with withdrawAtEnd := false } }
    let s := if isWithdrawn s then s else raise s 0x0D010002 .event
    goState s .withdrawn
  else goState s .holding

/-- R418: the round-up is cancelled with a CANCEL frame: RU_CANCEL on every up lead toward a device of the job, the code, the
report, the disarm; once RUNNING it is a job-ending fault. -/
def cancelWith (s : State) (f : LaunchFrame) : State :=
  let detail := d4 s.tet.armId.toNat
  if s.sys.st = .armed then
    let s := leadSendAll s (jobLeads s) (.ruFrame .cancel f)
    disarm (notify (raise s 0x080B0007 .event detail) .cancelled 0x080B0007)
  else if s.sys.st = .running then raise s 0x080B0007 .jobEnding detail
  else s

/-- R418: a cancel that this device originates. -/
def cancelRoundUp (s : State) : State := cancelWith s (cancelFrame s s.tet.depth s.tet.plan s.tet.armId s.str.job)

/-! ## Readiness (R413) -/

/-- Every child has reported ready, and every lead that the job uses is keyed. -/
def ruReadyNow (s : State) : Bool :=
  (ruDown s).all (fun i => bitOf s.tet.childReady.toNat i) && allLeads.all fun i => !jobUses s i || (leadAt s i).keyed

/-- R413: READY is reported once. -/
def checkReady (s : State) : State :=
  if s.sys.st = .armed && s.tet.phase == .armed && !s.tet.readySent && ruReadyNow s then
    let s := { s with tet := { s.tet with phase := .ready, readySent := true } }
    if s.tet.root then notify s .ready 0 else toParent s (.ruReport .ready (ownReport s))
  else s

/-! ## Arm (R411, R412) -/

/-- An arm's deadline lies in the window of R411. -/
def deadlineOk (s : State) (time : BitVec 64) : Bool :=
  let d := diff48 (time.setWidth 48) s.tim.counter
  decide (0 < d ∧ d ≤ 10000000000)

/-- The plan of an arm is a tree plan of the program, or none for a job of one device. -/
def armPlanOk (s : State) (plan : BitVec 16) : Bool :=
  if plan = 0xFFFF then decide (jobDevices (img s) = 1)
  else decide (plan.toNat < planCount (img s)) && !plRing (img s) plan.toNat

/-- The arm came the way that the plan says: by LAUNCH at the root, on the UP lead elsewhere. -/
def armWayOk (s : State) (plan : BitVec 16) (way : Option Nat) : Bool :=
  if plan = 0xFFFF then way.isNone
  else match way with
    | none => plUp (img s) plan.toNat == 0xFF
    | some i => plUp (img s) plan.toNat == i

/-- Why an arm is refused (R411): the code, and the number of the failed condition in R411's list. VALID 0 and a RESULT of 3 or 4
have codes of their own, whatever else fails (R333, R387). -/
def armRefusal (s : State) (f : LaunchFrame) (way : Option Nat) : Option (Nat × Nat) :=
  if !s.tim.valid then some (0x0C0A0005, 7)
  else if s.lead.result = 3 ∨ s.lead.result = 4 then some (0x0708000B, 8)
  else if s.sys.st ≠ .holding ∨ !loaded s then some (0x080B0004, 1)
  else if f.jobId ≠ s.str.job then some (0x080B0004, 2)
  else if s.tet.armedOnce && decide (f.armId ≤ s.tet.armId) then some (0x080B0004, 3)
  else if !armPlanOk s f.plan then some (0x080B0004, 4)
  else if !armWayOk s f.plan way then some (0x080B0004, 5)
  else if !deadlineOk s f.time then some (0x080B0004, 6)
  else if s.lead.result = 0 then some (0x080B0004, 8)
  else none

/-- A lead of the job is keyed for the arm: SEQ restarts in both directions, what the old numbering has not had acknowledged stays
to be resent, and key confirmation is sent (R336, R412; log 50). -/
def keyLead (s : State) (i : Nat) : State :=
  match s.sec.job with
  | none => s
  | some k =>
    let x := leadAt s i
    let s := setLead s i { x with key := some (leadKey s k s.tet.armId i), keyed := false, tx := 0, rx := 0,
                                  sent := [], old := x.old ++ x.sent, resend := none, nak := none }
    leadSend s i .keyConfirm

/-- R412: an accepted arm. -/
def acceptArm (s : State) (f : LaunchFrame) (way : Option Nat) : State :=
  let s := { s with tet := { s.tet with
    phase := .armed, root := way.isNone, plan := f.plan, depth := f.depth, children := 0, childReady := 0, readySent := false,
    armedOnce := true, armId := f.armId, deadline := f.time.setWidth 48, launch := 0 }
                    lead := { s.lead with abortSeen := false, abortSent := false } }
  let s := goState s .armed
  let s := toParent s (.ruReport .armack (ownReport s))
  let s := leadSendAll s (ruDown s) (.ruFrame .arm f)
  let s := (jobLeads s).foldl keyLead s
  checkReady s

/-! ## LAUNCH over the Tether (R642) -/

/-- LAUNCH. -/
def kLaunch : ReqKind := { type := 0x07 }

/-- A refused LAUNCH, its detail the failed condition or field. -/
def refuseLaunch (s : State) (r : Req) (code : Nat) (eff : Effect) (detail : Nat) : State :=
  respondCode (raise s code eff (d4 detail)) r false 7 code

/-- R411: ARM at the root. -/
def armAtRoot (s : State) (r : Req) (f : LaunchFrame) : State :=
  match armRefusal s f none with
  | some (code, cond) => refuseLaunch s r code .refused cond
  | none => done (acceptArm s f none) r kLaunch

/-- The margin M of R414 in nanoseconds; TET_RU_TIMEOUT acts within its limits (R423). -/
def ruMargin (s : State) : Int := (max 20 (min 10000 s.tet.timeoutUs.toNat) : Int) * 1000 + 6000 * s.tet.depth.toNat + 100000

/-- R243: a launch time in the future, within half the counter's range. -/
def timeAhead (s : State) (l : BitVec 48) : Bool :=
  let d := diff48 l s.tim.counter
  decide (0 < d ∧ d < 2 ^ 47)

/-- The arm deadline has passed. -/
def deadlinePassed (s : State) : Bool := decide (0 ≤ diff48 s.tim.counter s.tet.deadline)

/-- R415: the launch time is set. -/
def setLaunch (s : State) (l : BitVec 48) : State :=
  { s with tet := { s.tet with launch := l, phase := .committed, children := 0 } }

/-- R414 to R416: COMMIT at the root. -/
def commitAtRoot (s : State) (r : Req) (f : LaunchFrame) : State :=
  let no := fun code => refuseLaunch s r code .refused s.tet.armId.toNat
  let l := f.time.setWidth 48
  if s.sys.st = .armed ∧ s.tet.root ∧ s.tet.phase = .committed ∧ f.armId = s.tet.armId then
    if l = s.tet.launch then done s r kLaunch
    else respondCode (cancelRoundUp s) r false 7 0x080B0007
  else if !s.tim.valid then no 0x0C0A0005
  else if !timeAhead s l then no 0x0B05000E
  else if s.sys.st ≠ .armed ∨ !s.tet.root ∨ s.tet.phase ≠ .ready ∨ f.armId ≠ s.tet.armId ∨ deadlinePassed s
    ∨ diff48 l s.tim.counter < ruMargin s then no 0x080B0005
  else leadSendAll (done (setLaunch s l) r kLaunch) (ruDown s) (.ruFrame .commit f)

/-- The first field in which a launch frame is malformed (R642), by its offset in Table 11-5. -/
def launchFieldBad (f : LaunchFrame) : Option Nat :=
  if f.kind = 0 ∨ 3 < f.kind then some 0x00
  else if f.reserved ≠ 0 then some 0x18
  else if f.time.toNat / 2 ^ 48 ≠ 0 then some 0x10
  else none

/-- R642: a launch frame that arrives by LAUNCH: its AUTH, its KIND and reserved bits, then the conditions of its kind. -/
def launch (s : State) (r : Req) (f : LaunchFrame) : State :=
  request s r kLaunch fun s =>
    if s.sec.job.isNone then refuseLaunch s r 0x080B0004 .refused 0x20
    else if !lfAuthOk s f then refuseLaunch s r 0x0A0B0001 .event f.armId.toNat
    else match launchFieldBad f with
      | some off => refuseLaunch s r 0x080B0004 .refused off
      | none =>
        if f.kind = 1 then armAtRoot s r f
        else if f.kind = 2 then commitAtRoot s r f
        else done (cancelWith s f) r kLaunch

/-- R411. -/
def execLaunchArm (r : Req) (f : LaunchFrame) (s : State) : Host.Outcome State Fault Refusal := .next (launch s r f)

/-- R414. -/
def execLaunchCommit (r : Req) (f : LaunchFrame) (s : State) : Host.Outcome State Fault Refusal := .next (launch s r f)

/-- R418. -/
def execLaunchCancel (r : Req) (f : LaunchFrame) (s : State) : Host.Outcome State Fault Refusal := .next (launch s r f)

/-! ## Round-up frames on the leads -/

/-- R409: a frame whose AUTH fails is dropped. -/
def dropAuth (s : State) : State := raise s 0x0A0B0001 .event (d4 s.tet.armId.toNat)

/-- R411: RU_ARM. -/
def ruArm (s : State) (a : Arrival) (f : LaunchFrame) : State :=
  let i := a.lead.val
  onLead s a 3 fun s =>
    if !lfAuthOk s f then dropAuth s
    else match armRefusal s f (some i) with
      | some (code, cond) =>
        leadSend (raise s code .refused (d4 cond)) i (.ruFrame .cancel (cancelFrame s f.depth f.plan f.armId f.jobId))
      | none => acceptArm s f (some i)

/-- R411. -/
def execRuArm (a : Arrival) (f : LaunchFrame) (s : State) : Host.Outcome State Fault Refusal := .next (ruArm s a f)

/-- A report from a child about the present arm, its AUTH verified. -/
def childReport (s : State) (a : Arrival) (m : RuReport) (f : State → State) : State :=
  onLead s a 3 fun s =>
    if !repAuthOk s m then dropAuth s
    else if s.sys.st = .armed ∧ (ruDown s).contains a.lead.val ∧ m.jobId = s.str.job ∧ m.armId = s.tet.armId then f s
    else s

/-- A bit of a mask of leads set. -/
def orLead (m : BitVec 8) (i : Nat) : BitVec 8 := m ||| BitVec.ofNat 8 (2 ^ i)

/-- A child's acknowledgement of the present phase. -/
def childAck (s : State) (i : Nat) : State := { s with tet := { s.tet with children := orLead s.tet.children i } }

/-- R413: RU_ARMACK. -/
def ruArmack (s : State) (a : Arrival) (m : RuReport) : State :=
  childReport s a m fun s => if s.tet.phase = .committed then s else checkReady (childAck s a.lead.val)

/-- R413. -/
def execRuArmack (a : Arrival) (m : RuReport) (s : State) : Host.Outcome State Fault Refusal := .next (ruArmack s a m)

/-- R413: RU_READY. -/
def ruReady (s : State) (a : Arrival) (m : RuReport) : State :=
  childReport s a m fun s => checkReady { s with tet := { s.tet with childReady := orLead s.tet.childReady a.lead.val } }

/-- R413. -/
def execRuReady (a : Arrival) (m : RuReport) (s : State) : Host.Outcome State Fault Refusal := .next (ruReady s a m)

/-- R415, R416: RU_COMMIT; one that arrives in the cycle of the deadline or later is ignored (R419; log 52). -/
def ruCommit (s : State) (a : Arrival) (f : LaunchFrame) : State :=
  onLead s a 3 fun s =>
    let l := f.time.setWidth 48
    if !lfAuthOk s f then dropAuth s
    else if s.sys.st ≠ .armed ∨ ruUp s ≠ some a.lead.val ∨ f.armId ≠ s.tet.armId then s
    else if s.tet.phase = .committed then
      if l = s.tet.launch then toParent s (.ruReport .commitack (ownReport s)) else cancelRoundUp s
    else if deadlinePassed s then s
    else if !timeAhead s l then cancelRoundUp (raise s 0x0B05000E .refused (d4 s.tet.armId.toNat))
    else
      let s := setLaunch s l
      let s := toParent s (.ruReport .commitack (ownReport s))
      leadSendAll s (ruDown s) (.ruFrame .commit f)

/-- R415. -/
def execRuCommit (a : Arrival) (f : LaunchFrame) (s : State) : Host.Outcome State Fault Refusal := .next (ruCommit s a f)

/-- R415: RU_COMMITACK. -/
def ruCommitack (s : State) (a : Arrival) (m : RuReport) : State :=
  childReport s a m fun s => if s.tet.phase = .committed then childAck s a.lead.val else s

/-- R415. -/
def execRuCommitack (a : Arrival) (m : RuReport) (s : State) : Host.Outcome State Fault Refusal := .next (ruCommitack s a m)

/-- R418, R409: RU_CANCEL for the present arm; the launch frame goes on unchanged. -/
def ruCancel (s : State) (a : Arrival) (f : LaunchFrame) : State :=
  onLead s a 3 fun s =>
    if !lfAuthOk s f then dropAuth s
    else if f.armId = s.tet.armId ∧ s.tet.phase ≠ .idle then cancelWith s f
    else s

/-- R418. -/
def execRuCancel (a : Arrival) (f : LaunchFrame) (s : State) : Host.Outcome State Fault Refusal := .next (ruCancel s a f)

/-- R413, R415: a child has not acknowledged in time. -/
def ruAckTimeout (s : State) (i : Nat) : State :=
  if s.tet.phase ≠ .idle ∧ (ruDown s).contains i ∧ !bitOf s.tet.children.toNat i then
    cancelRoundUp (raise s 0x080B0008 .event (d4 s.tet.armId.toNat ++ d4 i))
  else s

/-- R413. -/
def execRuAckTimeout (lead : Fin 8) (s : State) : Host.Outcome State Fault Refusal := .next (ruAckTimeout s lead.val)

/-- R419: the arm deadline passes without a commit. -/
def armDeadline (s : State) : State :=
  if s.sys.st = .armed ∧ s.tet.phase ≠ .committed ∧ deadlinePassed s then
    disarm (raise s 0x080B0006 .event (d4 s.tet.armId.toNat))
  else s

/-- R419. -/
def execArmDeadline (s : State) : Host.Outcome State Fault Refusal := .next (armDeadline s)

/-! ## Job start (R225, R416, R433, R499) -/

/-- The units' counters of a job start over. -/
def zeroCounters (s : State) : State :=
  { s with
    knl := { s.knl with cause := 0, rcDone := 0, rcMismatch := 0, detSet := false, detMarker := 0, clean := 0, detOpnum := 0,
                        detVerdict := 0, detTile := 0, detCol := 0x7FF, detRow := 0x7FF, waitUs := 0, waitCond := false,
                        stripKept := Vector.replicate 16 s.str.marker }
    frm := { s.frm with issued := 0, opnum := 0xFFFFFFFF, stepbacks := 0, ops := [], slots := Vector.replicate 16 {} }
    edg := { s.edg with ops := [], issued := 0, instnum := 0xFFFFFFFF, jobSat := 0, jobNonfinite := 0, jobRange := 0 }
    rod := { s.rod with instnum := Vector.replicate 16 0xFFFFFFFF, jobNonfinite := 0 }
    col := { s.col with instnum := Vector.replicate 8 0xFFFFFFFF, eng := Vector.replicate 8 none, bound := [], planSeq := [] }
    lead := { s.lead with delivered := [] }
    snp := { s.snp with genMarker := s.str.marker, durable := s.str.marker, peak := 0, cntStall := 0, cntHold := 0,
                        hold := false, stall := false, lastTaken := none } }

/-- The tokens of the program at INIT. -/
def initTokens (im : Bytes) : SMap (BitVec 16) :=
  (List.range 1024).foldl (fun m i => ssetD 0 m i (BitVec.ofNat 16 (tokInit im i))) []

/-- The token image of a capture page (Table 13-1). -/
def pageTokens (page : Bytes) : SMap (BitVec 16) :=
  (List.range 1024).foldl (fun m i => ssetD 0 m i (BitVec.ofNat 16 (fld page (0x400 + 2 * i) 2))) []

/-- Strand n's entry of a capture page's strand table: its index and its STATE. -/
def pageStrand (page : Bytes) (n : Nat) : Nat × Nat := (fld page (0x18 + 8 * n) 4, fld page (0x1C + 8 * n) 1)

/-- Strand n at the launch: after a restore it continues after its STEP, or stays ended (R499). -/
def startStrand (s : State) (n : Nat) : Strand :=
  if !participates s n then {}
  else if s.snp.restored then
    let (i, st) := pageStrand s.snp.restoredPage n
    if st = 7 then { index := BitVec.ofNat 20 i, st := 7 } else { index := BitVec.ofNat 20 (i + 1), st := 1 }
  else { index := 0, st := 1 }

/-- The strands whose STEP a restored launch completes (R499). -/
def restoredSteps (s : State) : List Nat :=
  if s.snp.restored then
    (List.range 43).filter fun n => participates s n && decide ((pageStrand s.snp.restoredPage n).2 = 6)
  else []

/-- The index of the STEP of strand n that a restored launch completes. -/
def restoredIndex (s : State) (n : Nat) : Nat := (pageStrand s.snp.restoredPage n).1

/-- R499: the SNAP that immediately follows the restored STEP. -/
def restoredSnapNext (s : State) : Bool :=
  let (i, st) := pageStrand s.snp.restoredPage 42
  s.snp.restored && participates s 42 && decide (st = 6) && decide (i + 1 < codeCount (img s) 42) &&
  decide (wOp (codeWord (img s) 42 (i + 1)) = 0x10)

/-- The strands begin to issue; after a restore each STEP is counted, signals, and is followed as step 6 of R234 does (R499). -/
def startStrands (s : State) : State :=
  let tok := if s.snp.restored then pageTokens s.snp.restoredPage else initTokens (img s)
  let ns := restoredSteps s
  let s' := { s with
    str := { s.str with strands := Vector.ofFn fun n : Fin 43 => startStrand s n.val, tok := tok,
                        rings := Vector.replicate 64 {}, markerTok := [] }
    snp := { s.snp with skipSnap := restoredSnapNext s } }
  let s' := applySignals (ns.foldl countDone s') (ns.flatMap fun n => wordSignal n (codeWord (img s) n (restoredIndex s n)))
  ns.foldl (fun s' n => ranPast s' n (restoredIndex s n)) s'

/-- R161: the ratio table is zeroed. -/
def zeroRatios (s : State) : State :=
  if ratioTable (img s) = locNone then s else jobWrite s (ratioTable (img s)) (zeros 131072)

/-- R416, R161: the job starts, its ratio table zero but after a restore. -/
def jobStart (s : State) : State :=
  let s := if s.snp.restored then s else zeroRatios s
  goState (startStrands (recountStart (zeroCounters s))) .running

/-- R387, R416: the counter has reached the launch time. -/
def launchTimeReached (s : State) : State :=
  if s.sys.st = .armed ∧ s.tet.phase = .committed ∧ 0 ≤ diff48 s.tim.counter s.tet.launch then jobStart s else s

/-- R416. -/
def execLaunchTimeReached (s : State) : Host.Outcome State Fault Refusal := .next (launchTimeReached s)

end Sys2Proof.Machine
end

