-- ==== Sys2Proof/Machine/Snapshot.lean ====
section
/-!
DEFINITION. The snapshot engine: SNAP, copy-before-write, targets, the partner mirror and its relay, manifests (spec/13 R475 to
R495; spec/07 R283, R284; spec/06 R234 steps 5 and 6; spec/15 R571).
-/
namespace Sys2Proof.Machine

/-- The snapshot state replaced. -/
def setSnp (s : State) (n : Snp) : State := { s with snp := n }

/-- The snapshot strand. -/
def snapN : Nat := 42

/-! ## Sending to storage and to the partner -/

/-- Bulk frames for the node, on the lowest link with an open compute-die session (R400). -/
def sendNode (s : State) (bs : List TBody) : State :=
  match dieLink s with
  | some l => bs.foldl (fun s b => tetBulk s l b) s
  | none => s

/-- The stored bytes that one CKPT frame carries (Table 13-4). -/
def ckptPiece : Nat := 4064

/-- The 65 PAGE frames of a stored page (R493). -/
def pageFrames (ctx : BitVec 8) (marker : BitVec 64) (position : BitVec 32) (shard page : Nat) (stored : Bytes) : List TBody :=
  (List.range 65).map fun i => .page ctx marker position (BitVec.ofNat 32 shard) (BitVec.ofNat 32 page) (BitVec.ofNat 32 (ckptPiece * i))
    (slice stored (ckptPiece * i) ckptPiece)

/-- The MANIFEST frames of a manifest. -/
def manifestFrames (ctx : BitVec 8) (m : Bytes) : List TBody :=
  let n := ceilDiv m.length ckptPiece
  (List.range n).map fun i => .manifest ctx (BitVec.ofNat 32 (ckptPiece * i)) (decide (i + 1 = n)) (slice m (ckptPiece * i) ckptPiece)

/-- A page as it is stored (R488, R571): its ciphertext under the generation's page key of the write epoch, and the tag. -/
def sealPage (s : State) (marker : BitVec 64) (position : BitVec 32) (shard page : Nat) (plain : Bytes) : Bytes :=
  match s.sec.job with
  | some k => gcmSeal (pageKey k k.epochW position.toNat marker.toNat) (pageNonce shard page)
      (pageAad k position.toNat marker.toNat shard page) plain
  | none => []

/-- The partner's lead, where it can serve: valid, up and keyed for the job (R485). -/
def partnerLead (s : State) : Option Nat :=
  let i := s.snp.partnerLead.toNat
  if s.snp.partnerValid && leadUp s i && (leadAt s i).keyed then some i else none

/-! ## The generation -/

/-- The pages of a generation, all shards together. -/
def genTotal (g : Gen) : Nat := (g.shards.map Shard.pages).foldl (· + ·) 0

/-- The shard of generation page p, and the page's number in it. -/
def pageShard : (shards : List Shard) → (k p : Nat) → Nat × Nat
  | [], k, p => (k, p)
  | sh :: rest, k, p => if p < sh.pages then (k, p) else pageShard rest (k + 1) (p - sh.pages)

/-- The first page of shard k. -/
def shardStart (g : Gen) (k : Nat) : Nat := ((g.shards.take k).map Shard.pages).foldl (· + ·) 0

/-- The pages of shard k. -/
def shardPages (g : Gen) (k : Nat) : List Nat := (List.range ((g.shards.map Shard.pages).getD k 0)).map (shardStart g k + ·)

/-- Table 13-2: shard k goes to the partner. -/
def toPartner (g : Gen) (k : Nat) : Bool := g.route == 2 || (g.route == 3 && k % 2 == 1)

/-- The shards that go to the partner. -/
def partnerShards (g : Gen) : List Nat := (List.range g.shards.length).filter (toPartner g)

/-- R483: every page has been sent, and every send acknowledged. -/
def copyDone (g : Gen) : Bool :=
  (List.range (genTotal g)).all (g.sent.contains ·) &&
  (List.range g.shards.length).all fun k =>
    if toPartner g k then (shardPages g k).all (g.acked.contains ·) else g.answered.contains k

/-- A generation is being copied. -/
def copying (s : State) : Bool := s.snp.gen.any fun g => !g.ended

/-- PROGRAM_DIGEST (Table 13-3): the image without its routing section, IMAGE_DIGEST zero. -/
def programDigest (im : Bytes) : Bytes :=
  let d := digestInput im
  sha256 (d.take (secOff im 5) ++ d.drop (secOff im 5 + secSize im 5))

/-- Entry k of a manifest's shard table. -/
def manifestShard (g : Gen) (k : Nat) (sh : Shard) : Bytes :=
  natLE 4 sh.pages ++ zeros 4 ++ natLE 8 (sh.addr.getD locNone) ++ zeros 16 ++ natLE 32 (sgetD g.digests k 0).toNat

/-- The manifest before its signature (Table 13-3). -/
def manifestBody (s : State) (g : Gen) : Bytes :=
  let im := img s
  natLE 4 0x50394D46 ++ natLE 2 1 ++ natLE 1 (fld im 0x06 1) ++ natLE 1 g.target ++ natLE 8 s.str.job.toNat ++
  natLE 8 g.marker.toNat ++ natLE 4 g.position.toNat ++ natLE 4 (jobDevices im) ++ natLE 4 (ownId s) ++ natLE 4 g.shards.length ++
  programDigest im ++ zeros 56 ++ ((List.range g.shards.length).flatMap fun k => manifestShard g k (g.shards.getD k ⟨none, 0⟩))

/-- The manifest, signed with the identity key (R490; log 7). -/
def manifestOf (s : State) (g : Gen) : Bytes :=
  let b := manifestBody s g
  b ++ Config.made "sign" b 64

/-- Generation number i of those that are not durable: the older ones, then the present one. -/
def genAt (s : State) (i : Nat) : Option Gen := if i < s.snp.older.length then s.snp.older[i]? else s.snp.gen

/-- That generation replaced, or gone. -/
def putGen (s : State) (i : Nat) (g : Option Gen) : State :=
  if i < s.snp.older.length then
    setSnp s { s.snp with older := match g with
      | some g => s.snp.older.set i g
      | none => s.snp.older.eraseIdx i }
  else setSnp s { s.snp with gen := g }

/-- The oldest generation of which p holds. -/
def findGen (s : State) (p : Gen → Bool) : Option (Nat × Gen) :=
  (List.range (s.snp.older.length + 1)).findSome? fun i =>
    match genAt s i with
    | some g => if p g then some (i, g) else none
    | none => none

/-- R490: the manifest is sent once every shard has been answered. -/
def checkManifest (s : State) (i : Nat) (g : Gen) : State :=
  if g.phase ≠ .manifestSent ∧ (List.range g.shards.length).all (g.answered.contains ·) then
    let m := manifestOf s g
    sendNode (putGen s i (some { g with phase := .manifestSent, manifest := m })) (manifestFrames g.ctx m)
  else putGen s i (some g)

/-! ## SNAP (R476 to R480, R284) -/

/-- The Board address of a SNAP's region list. -/
def snapList (w : BitVec 128) : Nat := wFld w 77 56 * 64

/-- A SNAP's regions: address and bytes, in list order. -/
def snapRegions (s : State) (w : BitVec 128) : List (Nat × Nat) :=
  (List.range (mnat s.brd.mem (snapList w) 4)).map fun e =>
    (mnat s.brd.mem (snapList w + 0x40 + 16 * e) 8, mnat s.brd.mem (snapList w + 0x48 + 16 * e) 8)

/-- A region keeps Table 7-21 and lies in HBM_FOOTPRINT. -/
def regionOk (s : State) (r : Nat × Nat) : Bool :=
  decide (r.1 / 2 ^ 40 = 0 ∧ r.1 % pageBytes = 0 ∧ r.2 ≠ 0 ∧ r.2 % pageBytes = 0 ∧ r.1 + r.2 ≤ hbmFootprint (img s))

/-- No two regions overlap. -/
def regionsApart : List (Nat × Nat) → Bool
  | [] => true
  | r :: rs => rs.all (fun q => decide (r.1 + r.2 ≤ q.1 ∨ q.1 + q.2 ≤ r.1)) && regionsApart rs

/-- The region list is well formed (Table 7-21, R284). -/
def snapListOk (s : State) (w : BitVec 128) : Bool :=
  let a := snapList w
  let n := mnat s.brd.mem a 4
  decide (1 ≤ n ∧ n ≤ 4096) && decide (a + 64 + 16 * n ≤ boardBytes) &&
  (mread s.brd.mem (a + 4) 60).all (· == 0) && (snapRegions s w).all (regionOk s) && regionsApart (snapRegions s w)

/-- The token wait of a SNAP holds at step 5 (R476). -/
def snapWaitOk (s : State) (w : BitVec 128) : Bool := !wWen w || decide (wWcnt w ≤ token s (wWtok w))

/-- A SNAP that follows its STEP may issue (R284, R477). -/
def snapOk (s : State) (w : BitVec 128) : Bool :=
  let t := wFld w 79 78
  snapWaitOk s w && decide (524288 ≤ snapReserve (img s)) && (t < 2 || mirrorRegion (img s) != 0) && snapListOk s w &&
  s.snp.lastTaken != some s.str.marker

/-- Strand n's entry in a capture page. -/
def captureStrand (s : State) (n : Nat) : Bytes :=
  let x := strand s n
  if participates s n && (x.st == 6 || x.st == 7) then natLE 4 x.index.toNat ++ natLE 1 x.st.toNat ++ zeros 3 else zeros 8

/-- The capture page (Table 13-1). -/
def capturePage (s : State) : Bytes :=
  let im := img s
  natLE 8 s.str.marker.toNat ++ natLE 8 s.str.job.toNat ++ natLE 4 (imagePosition im) ++ zeros 4 ++
  ((List.range 43).flatMap (captureStrand s)) ++ zeros 656 ++
  ((List.range 1024).flatMap fun i => natLE 2 (sgetD s.str.markerTok i 0).toNat) ++ zeros 1024 ++
  (if ratioTable im = locNone then zeros 131072 else mread s.mem.hbm (ratioTable im) 131072) ++ zeros 126976

/-- The shards of one region: at most 4,096 pages each (R488). -/
def regionShards (r : Nat × Nat) : List Shard :=
  let n := r.2 / pageBytes
  (List.range (ceilDiv n 4096)).map fun i => ⟨some (r.1 + i * 4096 * pageBytes), min 4096 (n - 4096 * i)⟩

/-- The shards of a generation: the capture page, then the regions (R488). -/
def genShards (rs : List (Nat × Nat)) : List Shard := ⟨none, 1⟩ :: rs.flatMap regionShards

/-- The bytes of the mirrored shards (R485). -/
def mirrorBytes (g : Gen) : Nat := ((partnerShards g).map fun k => (shardPages g k).length).foldl (· + ·) 0 * pageBytes

/-- The generation goes to the partner as its TARGET says, or all of it to storage where the partner's lead cannot serve
(R485). -/
def startMirror (s : State) (g : Gen) : State :=
  if g.target < 2 then setSnp s { s.snp with gen := some g }
  else
    match partnerLead s with
    | none => raise (setSnp s { s.snp with gen := some { g with route := 1 } }) 0x070C0001 .event (d8 g.marker.toNat)
    | some l =>
      leadSend (setSnp s { s.snp with gen := some g }) l
        (.mirrorBegin g.marker s.str.job (BitVec.ofNat 64 (mirrorBytes g)) g.position)

/-- R479: the generation of an accepted SNAP. -/
def takeGeneration (s : State) (w : BitVec 128) : State :=
  let t := wFld w 79 78
  let g : Gen := { marker := s.str.marker, position := BitVec.ofNat 32 (imagePosition (img s)), target := t, route := t,
                   shards := genShards (snapRegions s w), ctx := s.str.gen, capture := capturePage s, copied := [0] }
  let s := setSnp s { s.snp with older := s.snp.older ++ s.snp.gen.toList, gen := none, genMarker := s.str.marker,
                                 lastTaken := some s.str.marker }
  startMirror s g

/-- Step 6 of R234: every strand at STEP completes it, signals and continues; `extra` are further signals of the cycle. -/
def stepSix (s : State) (extra : List Signal) : State :=
  let ns := (List.range 43).filter fun n => (strand s n).st == 6
  let sigs := ns.flatMap fun n => wordSignal n (strand s n).word
  let past := ns.map fun n => (n, (strand s n).index.toNat)
  let s := ns.foldl (fun s n => countDone (setStrand s n { strand s n with index := (strand s n).index + 1, phase := .fetch, st := 1 }) n) s
  let s := applySignals (setSnp s { s.snp with step5 := false, hold := false }) (sigs ++ extra)
  past.foldl (fun s p => ranPast s p.1 p.2) s

/-- The SNAP that step 5 stands before. -/
def stepSnapWord (s : State) : BitVec 128 := codeWord (img s) snapN ((strand s snapN).index.toNat + 1)

/-- The token wait of a SNAP at step 5 takes its count where it holds (R218, R269). -/
def snapWait (s : State) (w : BitVec 128) : State :=
  if wWen w && snapWaitOk s w then setToken s (wWtok w) (token s (wWtok w) - wWcnt w) else s

/-- Step 5 with a SNAP, no earlier generation being copied: it takes the marker and completes, or is refused; step 6 follows,
which a strand that its own signal has stopped does not take (R221). -/
def runSnap (s : State) : State :=
  let w := stepSnapWord s
  let x := strand s snapN
  if snapOk s w then
    let s := setStrand (takeGeneration (snapWait s w) w) snapN { x with index := x.index + 1 }
    stepSix (applySignals s (wordSignal snapN w)) []
  else
    let s := refuse (setStrand (snapWait s w) snapN { x with index := x.index + 1, word := w, phase := .begun }) snapN 0x0B050305
    stepSix s (wordSignal snapN x.word)

/-- A SNAP after a restore completes without copying (R499). -/
def skipSnap (s : State) : State :=
  let x := strand s snapN
  let s := setStrand (setSnp s { s.snp with skipSnap := false }) snapN { x with index := x.index + 1, phase := .fetch, st := 1 }
  ranPast (applySignals s (wordSignal snapN x.word)) snapN x.index.toNat

/-- R476 to R479: SNAP. -/
def snap (s : State) : State :=
  if running s && s.snp.step5 then
    if copying s then setSnp s { s.snp with hold := true } else runSnap s
  else if begun s snapN 0x10 then
    if s.snp.skipSnap then skipSnap s else refuse s snapN 0x0B050305
  else s

/-- R476. -/
def execSnap (s : State) : Host.Outcome State Fault Refusal := .next (snap s)

/-! ## SNAP_FENCE (R283, R483) -/

/-- A waiting SNAP_FENCE completes. -/
def fenceDone (s : State) : State :=
  match (strand s snapN).inflight with
  | (i, w) :: rest =>
    if running s ∧ wOp w = 0x11 then
      let s := setStrand s snapN { strand s snapN with inflight := rest }
      ranPast (applySignals s (wordSignal snapN w)) snapN i
    else s
  | [] => s

/-- R283: SNAP_FENCE issues, and completes where no generation is being copied. -/
def snapFence (s : State) : State :=
  if begun s snapN 0x11 && idle s snapN then
    let s := issueStrand s snapN
    if copying s then s else fenceDone s
  else s

/-- R283. -/
def execSnapFence (s : State) : Host.Outcome State Fault Refusal := .next (snapFence s)

/-! ## Copying (R481 to R483) -/

/-- A SNAP that step 5 held proceeds (R478); `us` is the time it was held. -/
def holdEnds (s : State) (us : Nat) : State :=
  if s.snp.hold then runSnap (setSnp s { s.snp with hold := false, cntHold := satAdd32 s.snp.cntHold us }) else s

/-- No frame on the leads counts any more for a page of a generation. -/
def untag (s : State) : State :=
  let f := fun b : TxBody => match b with
    | .data f _ => .data f none
    | b => b
  { s with lead := { s.lead with lead := s.lead.lead.map fun x =>
      { x with sent := x.sent.map fun e => (e.1, e.2.1, f e.2.2), waiting := x.waiting.map fun e => (e.1, f e.2) } } }

/-- R494: generation i is abandoned. -/
def abandon (s : State) (i : Nat) : State :=
  let was := copying s && decide (s.snp.older.length ≤ i)
  let s := putGen s i none
  if was then holdEnds (fenceDone (untag (setSnp s { s.snp with stall := false }))) 0 else s

/-- Reserve pages beside the capture page (R479). -/
def reservePages (s : State) : Nat := snapReserve (img s) / pageBytes - 1

/-- R481: the page that a write is about to cover moves to the reserve, or its writer is held while the reserve is full. -/
def pagePush (s : State) (page us : Nat) : State :=
  match s.snp.gen with
  | none => s
  | some g =>
    match genPageAddr g.shards page with
    | none => s
    | some a =>
      if g.ended || g.copied.contains page then s
      else if reservePages s ≤ g.saved.length then setSnp s { s.snp with stall := true }
      else
        let s := if s.snp.stall then setSnp s { s.snp with stall := false, cntStall := satAdd32 s.snp.cntStall us } else s
        protectPage s a

/-- R481. -/
def execPagePush (page : BitVec 32) (us : Nat) (s : State) : Host.Outcome State Fault Refusal := .next (pagePush s page.toNat us)

/-- The page that the copy engine sends next: the capture page, a pushed page, else the next that is not copied (R481). -/
def nextPage (g : Gen) : Option Nat :=
  if !g.sent.contains 0 then some 0
  else match g.saved with
    | (p, _) :: _ => some p
    | [] => firstBelow (fun p => !g.copied.contains p) (genTotal g)

/-- What a page of a generation holds: its saved copy, the capture page, or what HBM holds now. -/
def pageContent (s : State) (g : Gen) (p : Nat) : Bytes :=
  match sget? g.saved p with
  | some b => b
  | none => match genPageAddr g.shards p with
    | some a => mread s.mem.hbm a pageBytes
    | none => g.capture

/-- Does every block of the page, read from HBM, verify (R300)? The reserve and the capture page hold what has verified. -/
def pageVerifies (s : State) (g : Gen) (p : Nat) : Bool :=
  (sget? g.saved p).isSome || (genPageAddr g.shards p).all fun a => rangeVerifies s.mem.hbm s.mem.check a pageBytes

/-- A page has left the reserve or memory, and is sent. -/
def markSent (g : Gen) (p : Nat) : Gen :=
  { g with copied := if g.copied.contains p then g.copied else p :: g.copied, saved := serase g.saved p, sent := p :: g.sent }

/-- The frames of a mirrored page (R486): 128 of 2,048 bytes, the last of them the page's mark. -/
def mirrorFrames (s : State) (l p : Nat) (b : Bytes) : List TxBody :=
  (List.range 128).map fun i =>
    let d := slice b (2048 * i) 2048
    .data { dest := BitVec.ofNat 24 (peerId s l), src := BitVec.ofNat 24 (ownId s), hopLimit := 1, stream := 0x100, check := crc32c d,
            payload := d } (if i = 127 then some p else none)

/-- A shard whose last page is sent to storage is closed with SHARD_END (R488, R489, Table 13-4). -/
def endShard (s : State) (g : Gen) (k : Nat) : State × Gen :=
  let ps := shardPages g k
  if ps.all (g.sent.contains ·) then
    let d := BitVec.ofNat 256 (leNat (sha256 (ps.flatMap fun p => sgetD g.stored p [])))
    (sendNode s [.shardEnd g.ctx g.marker g.position (BitVec.ofNat 32 k) (BitVec.ofNat 32 ps.length) d],
     { g with digests := sset g.digests k d, stored := g.stored.filter fun e => !ps.contains e.1 })
  else (s, g)

/-- A page goes to storage over the Tether. -/
def sendStorage (s : State) (g : Gen) (p : Nat) (b : Bytes) : State × Gen :=
  let (k, q) := pageShard g.shards 0 p
  let st := sealPage s g.marker g.position k q b
  let s := sendNode s (pageFrames g.ctx g.marker g.position k q st)
  endShard s { g with stored := sset g.stored p st } k

/-- R481, R484: the copy engine sends the next page to its target. -/
def snapPageSend (s : State) : State :=
  match s.snp.gen with
  | none => s
  | some g =>
    if g.ended || s.die != .serving then s
    else match nextPage g with
      | none => s
      | some p =>
        let b := pageContent s g p
        let g' := markSent g p
        if !pageVerifies s g p then s
        else if toPartner g (pageShard g.shards 0 p).1 then
          match partnerLead s with
          | none => s
          | some l =>
            let s := setSnp s { s.snp with gen := some { g' with kept := sset g.kept p b } }
            (mirrorFrames s l p b).foldl (fun s f => leadSend s l f) s
        else if (dieLink s).isNone then s
        else
          let (s, g') := sendStorage s g' p b
          setSnp s { s.snp with gen := some g' }

/-- R481. -/
def execSnapPageSend (s : State) : Host.Outcome State Fault Refusal := .next (snapPageSend s)

/-- R483: the end of copying. -/
def endOfCopying (s : State) (us : Nat) : State :=
  match s.snp.gen with
  | none => s
  | some g =>
    if g.ended || !copyDone g then s
    else
      let wait := (partnerShards g).any fun k => !g.answered.contains k
      let g := { g with ended := true, kept := [], saved := [], phase := if wait ∧ g.phase = .copying then .awaitRelay else g.phase }
      holdEnds (fenceDone (setSnp s { s.snp with gen := some g, stall := false })) us

/-- R483. -/
def execEndOfCopying (us : Nat) (s : State) : Host.Outcome State Fault Refusal := .next (endOfCopying s us)

/-! ## Storage's answers (R490, R491, R494) -/

/-- Storage answers STORED to a SHARD_END of this device's generation. -/
def ownStored (s : State) (ctx : BitVec 8) (k : Nat) : State :=
  match findGen s (fun g => g.ctx == ctx && (sget? g.digests k).isSome && !toPartner g k && !g.answered.contains k) with
  | none => s
  | some (i, g) => checkManifest s i { g with answered := k :: g.answered }

/-- R487: a relay ends when storage has answered for every relayed shard; RELAY_DONE goes to the owner. -/
def relayEnds (s : State) (m : Mirror) : State :=
  if m.got = m.bytes.toNat ∧ m.taken * pageBytes = m.got ∧ m.relayed.all (fun r => m.answered.contains r.1) then
    leadSend (setSnp s { s.snp with mirror := none }) m.lead (.relayDone m.relayed)
  else setSnp s { s.snp with mirror := some m }

/-- Storage answers STORED to a SHARD_END of the relay. -/
def relayStored (s : State) (ctx : BitVec 8) (k : Nat) : State :=
  match s.snp.mirror with
  | none => s
  | some m =>
    if m.ctx == ctx && m.relayed.any (fun r => r.1 == k) && !m.answered.contains k then relayEnds s { m with answered := k :: m.answered } else s

/-- R490; an answer to another context generation has no effect (R244). -/
def shardStored (s : State) (ctx : BitVec 8) (k : Nat) (relayed : Bool) : State :=
  if relayed then relayStored s ctx k else ownStored s ctx k

/-- R490. -/
def execShardStored (ctx : BitVec 8) (shard : Nat) (relayed : Bool) (s : State) : Host.Outcome State Fault Refusal :=
  .next (shardStored s ctx shard relayed)

/-- R491: storage answers STORED to the manifest. -/
def manifestStored (s : State) (ctx : BitVec 8) : State :=
  match findGen s (fun g => g.ctx == ctx && g.phase == .manifestSent && g.ended) with
  | none => s
  | some (i, g) =>
    let s := putGen s i none
    setEvent (setSnp s { s.snp with durable := g.marker }) .snp 0

/-- R491. -/
def execManifestStored (ctx : BitVec 8) (s : State) : Host.Outcome State Fault Refusal := .next (manifestStored s ctx)

/-- A generation awaits storage's answer to a SHARD_END or to its manifest. -/
def awaitsStorage (g : Gen) : Bool := g.phase == .manifestSent || g.digests.any fun d => !toPartner g d.1 && !g.answered.contains d.1

/-- A generation awaits RELAY_DONE. -/
def awaitsRelay (g : Gen) : Bool := g.phase == .awaitRelay

/-- R494: storage answers FAILED. -/
def storageFailed (s : State) (ctx : BitVec 8) : State :=
  match findGen s (fun g => g.ctx == ctx && awaitsStorage g) with
  | none => s
  | some (i, g) => abandon (raise s 0x080C0001 .event (d8 g.marker.toNat)) i

/-- R494. -/
def execStorageFailed (ctx : BitVec 8) (s : State) : Host.Outcome State Fault Refusal := .next (storageFailed s ctx)

/-- R494: nothing has come within SNP_CKPT_TIMEOUT. -/
def ckptTimeout (s : State) : State :=
  match findGen s (fun g => awaitsStorage g || awaitsRelay g) with
  | none => s
  | some (i, g) => abandon (raise s (if awaitsStorage g then 0x080C0001 else 0x070C0002) .event (d8 g.marker.toNat)) i

/-- R494. -/
def execCkptTimeout (s : State) : Host.Outcome State Fault Refusal := .next (ckptTimeout s)

/-! ## The partner (R485 to R487) -/

/-- R485: MIRROR_BEGIN arrives. -/
def mirrorBegin (s : State) (a : Arrival) (marker jobId bytes : BitVec 64) (position : BitVec 32) : State :=
  let l := a.lead.val
  onLead s a 3 fun s =>
    if s.snp.partnerValid && s.snp.partnerLead.toNat == l && decide (bytes.toNat ≤ mirrorRegion (img s)) && s.snp.mirror.isNone then
      setSnp s { s.snp with mirror := some { lead := l, marker := marker, jobId := jobId, bytes := bytes, position := position, ctx := s.str.gen } }
    else leadSend (raise s 0x0B0C0003 .event (d8 marker.toNat ++ d4 l)) l .mirrorRefused

/-- R485. -/
def execMirrorBegin (a : Arrival) (marker jobId bytes : BitVec 64) (position : BitVec 32) (s : State) :
    Host.Outcome State Fault Refusal := .next (mirrorBegin s a marker jobId bytes position)

/-- The generation goes to storage whole, those of its pages among them that had left for the partner (log 27). -/
def storeAll (s : State) (g : Gen) : State :=
  let g := { g with route := 1, kept := [], acked := [], sent := g.sent.filter (fun p => (sget? g.kept p).isNone),
                    saved := g.kept.foldl (fun m e => sset m e.1 e.2) g.saved }
  raise (untag (setSnp s { s.snp with gen := some g })) 0x070C0001 .event (d8 g.marker.toNat)

/-- R485: the partner, on its lead, has refused; every shard goes to storage. -/
def mirrorBeginRefused (s : State) (a : Arrival) : State :=
  onLead s a 3 fun s =>
    match s.snp.gen with
    | none => s
    | some g => if g.route < 2 ∨ g.ended ∨ a.lead.val ≠ s.snp.partnerLead.toNat then s else storeAll s g

/-- R485. -/
def execMirrorBeginRefused (a : Arrival) (s : State) : Host.Outcome State Fault Refusal := .next (mirrorBeginRefused s a)

/-- R487: the relay of shard k, the next `n` pages of the mirror, once they have come: its pages and SHARD_END, with the owner's
POSITION (log 28). -/
def relayShard (s : State) (k n : Nat) : State :=
  match s.snp.mirror with
  | none => s
  | some m =>
    if n = 0 ∨ 4096 < n ∨ m.got < (m.taken + n) * pageBytes ∨ m.relayed.any (fun r => r.1 == k) ∨ (dieLink s).isNone then s
    else
      let pages := (List.range n).map fun q => sealPage s m.marker m.position k q (mread m.data ((m.taken + q) * pageBytes) pageBytes)
      let d := BitVec.ofNat 256 (leNat (sha256 pages.flatten))
      let s := (List.range n).foldl (fun s q => sendNode s (pageFrames m.ctx m.marker m.position k q (pages.getD q []))) s
      let s := sendNode s [.shardEnd m.ctx m.marker m.position (BitVec.ofNat 32 k) (BitVec.ofNat 32 n) d]
      setSnp s { s.snp with mirror := some { m with taken := m.taken + n, relayed := m.relayed ++ [(k, d)] } }

/-- R487. -/
def execRelayShard (shard pages : Nat) (s : State) : Host.Outcome State Fault Refusal := .next (relayShard s shard pages)

/-- R487, R490: RELAY_DONE, on the partner's lead, brings the digests of the relayed shards. -/
def relayDone (s : State) (a : Arrival) (ds : List (Nat × BitVec 256)) : State :=
  onLead s a 3 fun s =>
    match findGen s (fun g => (partnerShards g).any fun k => !g.answered.contains k) with
    | none => s
    | some (i, g) =>
      if a.lead.val ≠ s.snp.partnerLead.toNat then s
      else
        let mine := ds.filter fun d => toPartner g d.1
        checkManifest s i { g with digests := mine.foldl (fun m d => sset m d.1 d.2) g.digests,
                                   answered := mine.map Prod.fst ++ g.answered }

/-- R487. -/
def execRelayDone (a : Arrival) (digests : List (Nat × BitVec 256)) (s : State) : Host.Outcome State Fault Refusal :=
  .next (relayDone s a digests)

/-- R494: the partner lead is lost: generations that its relay has not finished are abandoned; `fuel` bounds their number. -/
def partnerLost : (fuel : Nat) → (s : State) → State
  | 0, s => s
  | k + 1, s =>
    match findGen s (fun g => decide (2 ≤ g.route) && (partnerShards g).any fun j => !g.answered.contains j) with
    | none => s
    | some (i, g) => partnerLost k (abandon (raise s 0x070C0002 .event (d8 g.marker.toNat)) i)

/-- A loss of lead l, as the snapshot engine sees it. -/
def partnerLeadLost (s : State) (l : Nat) : State :=
  if s.snp.partnerValid && s.snp.partnerLead.toNat == l then partnerLost (s.snp.older.length + 1) s else s

/-- R483: the acknowledgement of pages by the partner lead. -/
def pagesAcked (s : State) (ps : List Nat) : State :=
  match s.snp.gen with
  | some g => if ps.isEmpty then s else setSnp s { s.snp with gen := some { g with acked := ps ++ g.acked } }
  | none => s

end Sys2Proof.Machine
end

