-- ==== Sys2Proof/Machine/Time.lean ====
section
/-!
DEFINITION. The time counter, its disciplines and its initialisation (spec/10 R375 to R388), and the tick of the clocks (log 4).
-/
namespace Sys2Proof.Machine

/-- The TIM state replaced. -/
def setTim (s : State) (t : Tim) : State := { s with tim := t }

/-- Table 10-1: the mode of the first row whose condition holds. -/
def timeMode (t : Tim) : BitVec 3 :=
  if t.refLock && t.markLock && !t.forceLead then 1 else if t.parent.isSome then 2 else 0

/-- The device chooses its mode (R378); in another mode the run of R383 begins anew. -/
def chooseMode (s : State) : State :=
  let m := timeMode s.tim
  setTim s { s.tim with mode := m, offsetRun := if m = s.tim.mode then s.tim.offsetRun else 0 }

/-- The detail of a time code (R388): MODE, the source, MARKS and a magnitude in nanoseconds. -/
def timeDetail (s : State) (mag : Int) : Bytes :=
  d4 s.tim.mode.toNat ++ d4 s.tim.source.toNat ++ d4 s.tim.marks.toNat ++ d4 (min (2 ^ 32 - 1) mag.natAbs)

/-- R379: the edges are counted again from zero; a locked reference is lost. -/
def refBroken (s : State) (mag : Int) : State :=
  let was := s.tim.refLock
  let s := chooseMode (setTim s { s.tim with refLock := false, markLock := false, goodEdges := 0 })
  if was then raise s 0x0C0A0001 .event (timeDetail s mag) else s

/-- R379: a good edge is counted; the hundredth in a row locks. -/
def goodEdge (s : State) : State :=
  let n := min 100 (s.tim.goodEdges + 1)
  chooseMode (setTim s { s.tim with goodEdges := n, refLock := s.tim.refLock || decide (n = 100),
                                    markLock := s.tim.markLock || decide (n = 100) })

/-- The counter is initialised (R384): the step of R377. -/
def initCounter (s : State) (c : BitVec 48) (f : BitVec 32) : State :=
  setEvent (setTim s { s.tim with counter := c, frac := f, valid := true }) .tim 5

/-- R385: an accepted epoch at the edge at which MARKS becomes M. -/
def applyEpoch (s : State) : State :=
  match s.tim.epochPending with
  | some (m, t) =>
    if m = s.tim.marks then
      let s := setTim s { s.tim with epochPending := none }
      if !s.tim.valid then initCounter s t 0
      else if s.tim.counter = t then s
      else raise s 0x0C0A0003 .event (timeDetail s (diff48 s.tim.counter t))
    else s
  | none => s

/-- The marker error e (R380): the counter less the nearest multiple of 1,000,000 ns. -/
def markerError (c : BitVec 48) : Int :=
  let r := c.toNat % 1000000
  if r ≤ 500000 then r else (r : Int) - 1000000

/-- A correction in units of 0.01 ppm, within its bound (R380). -/
def slewOf (c : Int) : Int := max (-10000) (min 10000 c)

/-- R380 at a marker edge in REF mode. -/
def steerRef (s : State) : State :=
  if s.tim.mode = 1 then
    let e := markerError s.tim.counter
    let s := setTim s { s.tim with err := e, slew := slewOf (-100 * e) }
    if 100000 < e.natAbs then refBroken s e else s
  else s

/-- R379, R380, R385: a marker edge arrives `interval` ns of reference time after the edge before. -/
def frameMarkerEdge (s : State) (interval : Nat) : State :=
  if s.die = .off then s
  else
    let s := setTim s { s.tim with marks := s.tim.marks + 1 }
    let off : Int := (interval : Int) - 1000000
    let s := if off.natAbs ≤ 50 then goodEdge s else refBroken s off
    steerRef (applyEpoch s)

/-- R379. -/
def execFrameMarkerEdge (interval : Nat) (s : State) : Host.Outcome State Fault Refusal := .next (frameMarkerEdge s interval)

/-- R379: the 100 MHz clock has been absent for 1 us. -/
def refClockAbsent (s : State) : State := if s.die = .off then s else refBroken s 0

/-- R379. -/
def execRefClockAbsent (s : State) : Host.Outcome State Fault Refusal := .next (refClockAbsent s)

/-- R379: an edge that is due has not come. -/
def markerEdgeMissing (s : State) : State := if s.die = .off then s else refBroken s 0

/-- R379. -/
def execMarkerEdgeMissing (s : State) : Host.Outcome State Fault Refusal := .next (markerEdgeMissing s)

/-! ## Lead synchronisation (R381 to R383) -/

/-- RACK_BITS; a value above 12 acts as 12 (R391). -/
def rackBits (s : State) : Nat := min 12 s.tim.rackBits.toNat

/-- Lead i leads to a peer in the rack (R381). -/
def inRack (s : State) (i : Nat) : Bool :=
  leadUp s i && peerId s i != noneId && peerId s i / 2 ^ rackBits s == ownId s / 2 ^ rackBits s

/-- The lower of two optional numbers. -/
def minOpt (a : Option Nat) (b : Nat) : Nat :=
  match a with
  | some x => min x b
  | none => b

/-- The source: the lowest of the device's own ID and the IDs advertised to it. -/
def timeSource (own : Nat) (heard : List (Nat × Nat × Nat)) : Nat := heard.foldl (fun a h => min a h.2.1) own

/-- The parent among the neighbours that advertise the source: fewest hops, then lowest lead. -/
def timeParent (src : Nat) (heard : List (Nat × Nat × Nat)) : Option (Nat × Nat) :=
  heard.foldl (fun a h =>
    if h.2.1 = src then
      match a with
      | some (l, n) => if h.2.2 < n ∨ (h.2.2 = n ∧ h.1 < l) then some (h.1, h.2.2) else a
      | none => some (h.1, h.2.2)
    else a) none

/-- R381: the device is its own source, with no parent. -/
def ownSource (s : State) : State :=
  chooseMode (setTim s { s.tim with
    source := BitVec.ofNat 24 (ownId s), hops := 0, isSource := decide (ownId s ≠ noneId), parent := none })

/-- R381: source and parent from what was heard. -/
def chooseParent (s : State) (heard : List (Nat × Nat × Nat)) : State :=
  let src := timeSource (ownId s) heard
  if src = ownId s then ownSource s
  else
    match timeParent src heard with
    | some (l, n) => chooseMode (setTim s { s.tim with
        source := BitVec.ofNat 24 src, hops := BitVec.ofNat 8 (min 255 (n + 1)), isSource := false, parent := some l })
    | none => s

/-- R381: every 100 us the device chooses by what its rack's neighbours advertised, and advertises; a counter that is not
initialised advertises no source. -/
def timeAdvert (s : State) (heard : List (Nat × Nat × Nat)) : State :=
  if s.die = .off then s
  else
    let s := chooseParent s (heard.filter fun h => inRack s h.1)
    if s.tim.valid then
      leadSendAll s (allLeads.filter (inRack s)) (.timeAdvert s.tim.source s.tim.hops)
    else s

/-- R381. -/
def execTimeAdvert (heard : List (Fin 8 × BitVec 24 × BitVec 8)) (s : State) : Host.Outcome State Fault Refusal :=
  .next (timeAdvert s (heard.map fun h => (h.1.val, h.2.1.toNat, h.2.2.toNat)))

/-- 2θ of R382. -/
def twoTheta (t1 t2 t3 t4 : BitVec 48) : Int := diff48 t2 t1 - diff48 t4 t3

/-- A number of half nanoseconds in whole ones; a tie is `Config.halfUp`'s (log 22). -/
def halfNs (x : Int) : Int := if x % 2 = 0 then x / 2 else if Config.halfUp x then x / 2 + 1 else x / 2

/-- R382: the device steers by an offset of half of `th`, with e = −θ. -/
def steerLead (s : State) (th : Int) : State := setTim s { s.tim with err := halfNs (-th), slew := slewOf (50 * th), offsetRun := 0 }

/-- R383: an exchange in REF mode is for checking only; the sixteenth in a row beyond 1 us raises 0x0C0A_0004. -/
def checkOffset (s : State) (th : Int) : State :=
  if 2000 < th.natAbs then
    let n := s.tim.offsetRun + 1
    if n = 16 then raise (setTim s { s.tim with offsetRun := 0 }) 0x0C0A0004 .event (timeDetail s (th / 2))
    else setTim s { s.tim with offsetRun := n }
  else setTim s { s.tim with offsetRun := 0 }

/-- R382 to R384: an exchange with the parent, which is a peer in the rack (R381). -/
def childExchange (s : State) (t1 t2 t3 t4 : BitVec 48) (parentInit : Bool) : State :=
  match s.tim.parent with
  | none => s
  | some p =>
    if s.die = .off ∨ !inRack s p then s
    else
      let s := leadSend s p .timeRequest
      let th := twoTheta t1 t2 t3 t4
      if s.tim.mode = 2 then
        let s := if !s.tim.valid && parentInit then
            initCounter s (t4 + BitVec.ofInt 48 (th / 2)) (if th % 2 = 0 then 0 else 0x80000000)
          else s
        steerLead s th
      else checkOffset s th

/-- R382: a neighbour's request has come at t2 and is answered at t3, on this device's counter. -/
def parentExchange (s : State) (l : Nat) : State :=
  if s.die = .off ∨ !inRack s l then s else leadSend s l (.timeReply s.tim.counter s.tim.counter s.tim.valid)

/-- R382: either end of a time exchange. -/
def timeExchange (s : State) : TimeExchange → State
  | .child t1 t2 t3 t4 parentInit => childExchange s t1 t2 t3 t4 parentInit
  | .parent l => parentExchange s l.val

/-- R382. -/
def execTimeExchange (x : TimeExchange) (s : State) : Host.Outcome State Fault Refusal := .next (timeExchange s x)

/-- R375: the counter, at 2^48 - 1, goes to 0. -/
def timeCounterWrap (s : State) : State :=
  if s.die ≠ .off ∧ s.tim.counter = 0xFFFFFFFFFFFF then setTim s { s.tim with counter := 0 } else s

/-- R375. -/
def execTimeCounterWrap (s : State) : Host.Outcome State Fault Refusal := .next (timeCounterWrap s)

/-- R385: why an epoch pair is refused. -/
def epochOk (s : State) (hi : BitVec 32) : Bool :=
  let t := s.tim.epochLo.toNat + 2 ^ 32 * (hi.toNat % 65536)
  let ahead := ((BitVec.ofNat 16 (hi.toNat / 65536)) - s.tim.marks).toNat
  decide (t % 1000000 = 0 ∧ 1 ≤ ahead ∧ ahead ≤ 1000 ∧ s.tim.mode = 1)

/-- R385: the write of TIM_EPOCH_HI: the state after it, and the code that refuses it. -/
def epochSubmit (s : State) (hi : BitVec 32) : State × Option Nat :=
  if epochOk s hi then
    (setTim s { s.tim with epochPending := some (BitVec.ofNat 16 (hi.toNat / 65536),
      BitVec.ofNat 48 (s.tim.epochLo.toNat + 2 ^ 32 * (hi.toNat % 65536))) }, none)
  else (raise s 0x0C0A0002 .refusedTally (timeDetail s 0), some 0x0C0A0002)

/-! ## The clocks (log 4) -/

/-- The counter and its fraction after one microsecond of the 800 MHz time-island clock (R375, R380): 800 cycles, each of
1.25 ns and the correction. -/
def counterAfter (c : BitVec 48) (f : BitVec 32) (slew : Int) : Nat :=
  let inc : Int := 5368709120 * (100000000 + slew) / 100000000
  (c.toNat * 2 ^ 32 + f.toNat + 800 * inc.toNat) % 2 ^ 80

/-- The bulk frames of 4,136 bytes that a link of 25 GB/s carries in a microsecond (R395, R400). -/
def bulkPerUs : Nat := 6

/-- The time counter runs for a microsecond from the compute die's release (R375). -/
def runCounter (s : State) : State :=
  if s.die = .off then s
  else
    let x := counterAfter s.tim.counter s.tim.frac s.tim.slew
    setTim s { s.tim with counter := BitVec.ofNat 48 (x / 2 ^ 32), frac := BitVec.ofNat 32 x }

/-- One microsecond with no command: the counter and, from standby power, Shepherd time (R514) run, and bulk frames leave on the
Tether (R400). -/
def tick (s : State) : State :=
  let s := runCounter s
  let s := if s.shp.standby then { s with shp := { s.shp with time := s.shp.time + 1 } } else s
  sendBulk (sendBulk s bulkPerUs 0) bulkPerUs 1

end Sys2Proof.Machine
end

