-- ==== Sys2Proof/Machine/Leads.lean ====
section
/-!
DEFINITION. The leads: discovery and the cabling check, rejection and acknowledgement of frames, credits, keys, lanes, loss,
routing and ABORT (spec/09 R326 to R349, R358).
-/
namespace Sys2Proof.Machine

/-! ## Routing (R348, R349) -/

/-- Does prefix entry e cover an ID? -/
def prefixHit (e x : Nat) : Bool :=
  let len := field e 36 32
  reValid e && decide (x / 2 ^ (24 - len) = field e 23 0 / 2 ^ (24 - len))

/-- The valid prefix entry with the longest LEN that covers an ID, among equals the first. -/
def prefixRoute (im : Bytes) (x : Nat) : Option Nat :=
  ((List.range (prefixCount im)).map (prefixEntry im)).foldl (fun a e =>
    if prefixHit e x && a.all (fun b => decide (field b 36 32 < field e 36 32)) then some e else a) none

/-- R348: the entry that routes an ID. -/
def routeEntry (im : Bytes) (x : Nat) : Option Nat :=
  let e := directEntry im (x - directBase im)
  if directBase im ≤ x ∧ reValid e then some e else prefixRoute im x

/-- The lead on which an entry sends now. -/
def routeLead (s : State) (e : Nat) : Option Nat :=
  if leadUp s (reLead e) then some (reLead e)
  else if reAltValid e && leadUp s (reAlt e) then some (reAlt e)
  else none

/-! ## Lane failure and lead loss (R341 to R343) -/

/-- The routed frames of lead i that are not acknowledged or still wait. -/
def routedFrames (x : Lead) : List LeadFrame :=
  (x.sent.map (fun f => f.2.2) ++ x.waiting.map Prod.snd).filterMap fun b => match b with
    | .data f none => some f
    | _ => none

/-- R348: no entry sends the frame to its destination. -/
def unroutable (s : State) (f : LeadFrame) : State := raise s 0x07080009 .jobEnding (d4 f.dest.toNat)

/-- The lead on which a frame for a device leaves now (R336, R348): it is up and keyed. -/
def frameLead (s : State) (dest : Nat) : Option Nat :=
  ((routeEntry (img s) dest).bind (routeLead s)).filter fun l => (leadAt s l).keyed

/-- R343: routed traffic of a lost lead moves to the lead that its entry now sends on. -/
def reroute (s : State) (fs : List LeadFrame) : State :=
  fs.foldl (fun s f => match frameLead s f.dest.toNat with
    | some l => leadSend s l (.data f none)
    | none => unroutable s f) s

/-- Lead i's registers when it is lost. -/
def dropLead (s : State) (i : Nat) : State :=
  let x := leadAt s i
  setLead s i { x with up := false, keyed := false, key := none, lanes := 0, relaning := false, sent := [], old := [],
                       waiting := [], nak := none, resend := none }

/-- A time parent on a lost lead is no parent any more; the device is its own source until it hears others (R381; log 53). -/
def dropParent (s : State) (i : Nat) : State :=
  if s.tim.parent = some i then ownSource s else s

/-- R342, R343: lead i is lost. In an armed round-up its loss cancels, once the job runs it is job-ending and ABORT follows
(R417, R418, R358). -/
def loseLead (s : State) (i : Nat) : State :=
  if !leadUp s i then s
  else
    let used := (decide (s.sys.st = .running) || decide (s.sys.st = .armed)) && jobUses { s with lead := (dropLead s i).lead } i
    let moved := routedFrames (leadAt s i)
    let s := reroute (dropParent (dropLead s i) i) (if used then [] else moved)
    let s := raise s 0x07080003 (if used ∧ s.sys.st = .running then .jobEnding else .event) (d4 i ++ d4 (peerId s i))
    let s := if planOptional s i then degradeLead s
      else { s with lead := { s.lead with result := 3, reqFail := s.lead.reqFail ||| BitVec.ofNat 8 (2 ^ i) } }
    let s := partnerLeadLost s i
    if used ∧ s.sys.st = .armed then cancelRoundUp s else s

/-- R342. -/
def execLeadLost (lead : Fin 8) (s : State) : Host.Outcome State Fault Refusal := .next (loseLead s lead.val)

/-- The lowest `n` lanes of a mask. -/
def lowestLanes (m : Nat) : (n : Nat) → Nat
  | 0 => 0
  | n + 1 =>
    match firstBelow (bitOf m) 32 with
    | some b => 2 ^ b + lowestLanes (m - 2 ^ b) n
    | none => 0

/-- The largest lane count of Table 9-1 that is not above n. -/
def laneCount (n : Nat) : Nat := ([16, 12, 8, 6, 4, 2].find? (· ≤ n)).getD 0

/-- R341: lead i is re-laned on the surviving ones of its lanes, lane `lane` being the lowest that failed, or is lost. The re-lane
frame goes to the other end at once; other new frames wait (Table 9-6). -/
def relaneOn (s : State) (i left lane : Nat) : State :=
  let n := laneCount (onesIn left 0 32)
  if n = 0 then loseLead s i
  else
    let m := BitVec.ofNat 32 (lowestLanes left n)
    let s := setLead s i { txFrame (leadAt s i) (.relane m) with lanes := m, relaning := true }
    let s := { s with lead := { s.lead with cntRelane := satAdd32 s.lead.cntRelane 1 } }
    raise s 0x07080002 .absorbed (d4 i ++ d4 lane)

/-- R341: a lane of lead i fails. -/
def relane (s : State) (i lane : Nat) : State := relaneOn s i ((leadAt s i).lanes.toNat - 2 ^ lane) lane

/-- The lanes of lead group g (Table 14-3, spec/18). -/
def groupMask (g : Nat) : Nat := 255 * 2 ^ (8 * g)

/-- R451: after the island reset of a lead group, each lead with lanes in it is re-laned on its others. -/
def groupReset (s : State) (g : Nat) : State :=
  allLeads.foldl (fun s i =>
    let lost := (leadAt s i).lanes.toNat &&& groupMask g
    if leadUp s i && lost != 0 then
      relaneOn s i ((leadAt s i).lanes.toNat - lost) ((firstBelow (bitOf lost) 32).getD 0)
    else s) s

/-- R341: a lane in use fails. -/
def laneFailure (s : State) (lane : Nat) : State :=
  match allLeads.find? fun i => leadUp s i && bitOf (leadAt s i).lanes.toNat lane with
  | some i => relane s i lane
  | none => s

/-- R341. -/
def execLaneFailure (lane : Fin 32) (s : State) : Host.Outcome State Fault Refusal := .next (laneFailure s lane.val)

/-- The frame from which a sender begins again: its oldest that is not acknowledged. -/
def oldest (x : Lead) : Option (BitVec 64) := (x.old ++ x.sent).head?.map fun f => f.1

/-- Table 9-6: traffic resumes at the new width. -/
def relaneComplete (s : State) (i : Nat) : State :=
  let x := leadAt s i
  if x.relaning then drillHandled (setLead s i (serveLead { x with relaning := false, resend := oldest x })) 0 else s

/-- R341. -/
def execRelaneComplete (lead : Fin 8) (s : State) : Host.Outcome State Fault Refusal := .next (relaneComplete s lead.val)

/-! ## Frames, acknowledgements and credits (R338 to R340) -/

/-- A dropped frame is counted (R338, R367): 0x0A08_0001 for its tag, 0x0708_0001 otherwise. -/
def countDrop (s : State) (i : Nat) (tag : Bool) (seq : BitVec 64) : State :=
  let s := { s with lead := { s.lead with cntRetry := vmodify s.lead.cntRetry i fun c => satAdd32 c 1 } }
  raise s (if tag then 0x0A080001 else 0x07080001) .count (d4 i ++ d8 seq.toNat)

/-- How often frame `seq` has failed, this arrival included. -/
def failures (x : Lead) (seq : BitVec 64) : Nat :=
  match x.nak with
  | some (q, n) => if q = seq then n + 1 else 1
  | none => 1

/-- R338: frame `seq` is dropped and NAKed; `cause` is 0 FEC, HCRC, TYPE, LENGTH or GEN, 1 tag, 2 CHECK. -/
def dropFrame (s : State) (i : Nat) (seq : BitVec 64) (cause : Nat) (lane : Option Nat) : State :=
  let x := leadAt s i
  let n := failures x seq
  let s := leadSend (countDrop (setLead s i { x with nak := some (seq, n) }) i (cause == 1) seq) i (.link (.nak seq))
  if n < 3 then s
  else if cause = 2 then raise s 0x03080001 .jobEnding (d4 i ++ d8 seq.toNat)
  else match lane with
    | some l => if bitOf (leadAt s i).lanes.toNat l then relane s i l else loseLead s i
    | none => loseLead s i

/-- R338: a frame fails; while another has been NAKed it is only dropped. -/
def leadReject (s : State) (i : Nat) (seq : BitVec 64) (cause : Nat) (lane : Option Nat) : State :=
  if leadUp s i && (leadAt s i).nak.all (fun q => q.1 == seq) then dropFrame s i seq cause lane else s

/-- R338. -/
def execLeadFrameReject (lead : Fin 8) (seq : BitVec 64) (cause : Fin 3) (lane : Option (Fin 32)) (s : State) :
    Host.Outcome State Fault Refusal := .next (leadReject s lead.val seq cause.val (lane.map Fin.val))

/-- The sender begins again at a frame that is not acknowledged. -/
def resendAt (s : State) (i : Nat) (q : Option (BitVec 64)) : State :=
  let x := leadAt s i
  if q.any fun q => (x.old ++ x.sent).any fun f => f.1 == q then setLead s i { x with resend := q } else s

/-- R338: a NAK: the sender begins again at the named frame. -/
def leadNak (s : State) (a : Arrival) (seq : BitVec 64) : State := onLink s a fun s => resendAt s a.lead.val (some seq)

/-- R338. -/
def execLeadNak (a : Arrival) (seq : BitVec 64) (s : State) : Host.Outcome State Fault Refusal := .next (leadNak s a seq)

/-- R338: no acknowledgement within 4 us. -/
def leadAckTimeout (s : State) (i : Nat) : State := if leadUp s i then resendAt s i (oldest (leadAt s i)) else s

/-- R338. -/
def execLeadAckTimeout (lead : Fin 8) (s : State) : Host.Outcome State Fault Refusal := .next (leadAckTimeout s lead.val)

/-- The pages that a list of acknowledged frames completes (R486). -/
def ackedPages (fs : List (BitVec 64 × Nat × TxBody)) : List Nat :=
  fs.filterMap fun f => match f.2.2 with
    | .data _ page => page
    | _ => none

/-- Does an acknowledgement name a frame of the numbering before the lead's key (log 50)? -/
def acksOld (x : Lead) (seq : BitVec 64) : Bool := x.old.any fun f => f.1 == seq

/-- The frames up to SEQ are acknowledged: those of the old numbering where it names one of them, else those of the present. -/
def ackFrames (x : Lead) (seq : BitVec 64) : Lead :=
  let keep := fun (f : BitVec 64 × Nat × TxBody) => decide (seq < f.1)
  if acksOld x seq then { x with old := x.old.filter keep, resend := none }
  else { x with old := [], sent := x.sent.filter keep,
                resend := if x.resend.any (fun q => decide (q ≤ seq)) then none else x.resend }

/-- The frames of the present numbering that an acknowledgement covers. -/
def ackedFrames (x : Lead) (seq : BitVec 64) : List (BitVec 64 × Nat × TxBody) :=
  if acksOld x seq then [] else x.sent.filter fun f => decide (f.1 ≤ seq)

/-- R338: a cumulative acknowledgement. -/
def leadAck (s : State) (a : Arrival) (seq : BitVec 64) : State :=
  onLink s a fun s =>
    let x := leadAt s a.lead.val
    pagesAcked (setLead s a.lead.val (ackFrames x seq)) (ackedPages (ackedFrames x seq))

/-- R338. -/
def execLeadAck (a : Arrival) (seq : BitVec 64) (s : State) : Host.Outcome State Fault Refusal := .next (leadAck s a seq)

/-- The buffers that a lead's receiver holds for a class (R339). -/
def creditCap (s : State) (i c : Nat) : Nat := if c = 1 ∨ c = 2 then 8 * planLanes s i else 16

/-- R339: credits come back, and waiting frames are sent. -/
def creditReturn (s : State) (a : Arrival) (c n : Nat) : State :=
  onLink s a fun s =>
    let i := a.lead.val
    let x := leadAt s i
    setLead s i (serveLead { x with credit := vset x.credit c (min (creditCap s i c) (vget x.credit c 0 + n)) })

/-- R339. -/
def execCreditReturn (a : Arrival) (cls : Fin 4) (count : Nat) (s : State) : Host.Outcome State Fault Refusal :=
  .next (creditReturn s a cls.val count)

/-- R340: a frame has waited 1 ms for a credit. -/
def creditStall (s : State) (i c : Nat) : State :=
  let x := leadAt s i
  if x.up ∧ vget x.credit c 0 = 0 ∧ x.waiting.any (fun w => w.1 == c) then raise s 0x0708000A .jobEnding (d4 i ++ d4 c) else s

/-- R340. -/
def execCreditStall (lead : Fin 8) (cls : Fin 4) (s : State) : Host.Outcome State Fault Refusal := .next (creditStall s lead.val cls.val)

/-- R336: the key-confirmation frame of the peer: the first of the numbering that begins with the key, whatever has come before
it (R412; log 50). -/
def keyConfirm (s : State) (a : Arrival) (ok : Bool) : State :=
  let i := a.lead.val
  let x := leadAt s i
  if !leadUp s i || x.key.isNone || x.keyed then s
  else
    let s := setLead s i { x with old := [] }
    let s := freeBuffers (leadSend (leadRecv s i a.seq) i (.link (.ack a.seq))) i 3 1
    if ok then checkReady (setLead s i { leadAt s i with keyed := true })
    else raise s 0x0A080002 .jobEnding (d4 i ++ d4 (peerId s i))

/-- R336. -/
def execKeyConfirm (a : Arrival) (ok : Bool) (s : State) : Host.Outcome State Fault Refusal := .next (keyConfirm s a ok)

/-! ## Job frames, delivery and forwarding (R337, R338, R348, R349) -/

/-- R338: a frame of the job's types; one whose GEN is another, or that comes on a lead without a key, where its TYPE may not
(R336), fails. -/
def onJobFrame (s : State) (a : Arrival) (f : State → State) : State :=
  if !leadUp s a.lead.val then s
  else if a.gen ≠ s.str.gen ∨ !(leadAt s a.lead.val).keyed then leadReject s a.lead.val a.seq 0 none
  else f s

/-- R337, R338: a DATA frame; its LENGTH and its CHECK are verified before a byte is used. -/
def onData (s : State) (a : Arrival) (f : LeadFrame) (act : State → State) : State :=
  onJobFrame s a fun s =>
    if !leadFrameOk f then leadReject s a.lead.val a.seq 0 none
    else if f.check ≠ crc32c f.payload then leadReject s a.lead.val a.seq 2 none
    else onLead s a 2 act

/-- R348, R349: a frame for another device is forwarded with its CHECK, or is dropped with 0x0708_0009. -/
def forward (s : State) (f : LeadFrame) : State :=
  match frameLead s f.dest.toNat with
  | some l => if f.hopLimit = 0 then unroutable s f else leadSend s l (.data { f with hopLimit := f.hopLimit - 1 } none)
  | none => unroutable s f

/-- R338, R348: a DATA frame arrives. -/
def dataFrameReceived (s : State) (a : Arrival) (f : LeadFrame) : State :=
  onData s a f fun s =>
    if f.dest.toNat = ownId s then { s with lead := { s.lead with delivered := s.lead.delivered ++ [f] } } else forward s f

/-- R348. -/
def execDataFrameReceived (a : Arrival) (f : LeadFrame) (s : State) : Host.Outcome State Fault Refusal :=
  .next (dataFrameReceived s a f)

/-- R486: a frame of the mirror arrives, and is written in order of arrival. -/
def mirrorPage (s : State) (a : Arrival) (f : LeadFrame) : State :=
  onData s a f fun s =>
    match s.snp.mirror with
    | some m =>
      if m.lead = a.lead.val ∧ m.got + f.payload.length ≤ m.bytes.toNat then
        setSnp s { s.snp with mirror := some { m with got := m.got + f.payload.length, data := mwrite m.data m.got f.payload } }
      else s
    | none => s

/-- R486. -/
def execMirrorPage (a : Arrival) (f : LeadFrame) (s : State) : Host.Outcome State Fault Refusal := .next (mirrorPage s a f)

/-! ## ABORT (R358, R373) -/

/-- The collective engines stop. -/
def stopColl (s : State) : State := { s with col := { s.col with eng := s.col.eng.map fun o => o.map fun op => { op with dead := true } } }

/-- R358: an ABORT arrives; the first of the job is forwarded. -/
def abortReceived (s : State) (a : Arrival) (origin : BitVec 24) (cls hops : BitVec 8) : State :=
  onJobFrame s a fun s => onLead s a 0 fun s =>
    if s.lead.abortSeen ∨ s.lead.abortSent then s
    else
      let s := leadSendAll s ((keyedLeads s).filter (· != a.lead.val)) (.abort origin cls (BitVec.ofNat 8 (min 255 (hops.toNat + 1))))
      let s := { s with lead := { s.lead with abortSeen := true }, col := { s.col with lastHops := hops, lastOrigin := origin } }
      raise (stopColl s) 0x07090001 .jobEnding (d4 origin.toNat ++ d4 cls.toNat)

/-- R358. -/
def execAbortFrameReceived (a : Arrival) (origin : BitVec 24) (cls hops : BitVec 8) (s : State) :
    Host.Outcome State Fault Refusal := .next (abortReceived s a origin cls hops)

/-! ## Discovery and the cabling check (R327 to R334) -/

/-- The lanes of every configured lead are counted once (R327). -/
def lanesApart (s : State) : Bool :=
  allLeads.all fun i => allLeads.all fun j => decide (i = j) || decide (planMask s i &&& planMask s j = 0)

/-- R327: the lead plan is valid. -/
def planValid (s : State) : Bool :=
  ownId s != noneId &&
  (allLeads.all fun i => (lanesOf (field (vget s.lead.planUse i 0).toNat 3 0)).isSome) &&
  (allLeads.all fun i => planLanes s i == 0 || (planFirst s i % 2 == 0 && decide (planFirst s i + planLanes s i ≤ 32))) &&
  lanesApart s

/-- R329: the exchange with a peer is complete. -/
def discoveryMgmt (s : State) (i : Nat) (p : PeerReport) : State :=
  if s.lead.discovering && planValid s && planLanes s i != 0 then
    let x := leadAt s i
    let s := setLead s i { x with delay := p.delay }
    { s with lead := { s.lead with peer := vset s.lead.peer i (some p) } }
  else s

/-- R329. -/
def execDiscoveryMgmt (lead : Fin 8) (p : PeerReport) (s : State) : Host.Outcome State Fault Refusal := .next (discoveryMgmt s lead.val p)

/-- R330, Table 9-2: the outcome of lead i. -/
def outcome (s : State) (i : Nat) : Nat :=
  if planLanes s i = 0 then 0
  else match vget s.lead.peer i none with
    | none => 1
    | some p =>
      if planExpect s i = noneId then 5
      else if p.id.toNat ≠ planExpect s i ∨ p.port.toNat ≠ planPort s i then 3
      else if p.lanes.toNat ≠ planLanes s i then 4
      else 2

/-- The peer of lead a is the one expected on lead b. -/
def foundAt (s : State) (a b : Nat) : Bool :=
  (vget s.lead.peer a none).any fun p => p.id.toNat == planExpect s b && p.port.toNat == planPort s b

/-- R330: leads a and b are a swap pair. -/
def swapped (s : State) (a b : Nat) : Bool := outcome s a == 3 && outcome s b == 3 && foundAt s a b && foundAt s b a

/-- The swap pairs, the lower lead first. -/
def swapPairs (s : State) : List (Nat × Nat) :=
  allLeads.flatMap fun a => (allLeads.filter fun b => decide (a < b) && swapped s a b).map fun b => (a, b)

/-- A configured lead that is not up and does not count as planned dark lanes. -/
def leadMissing (s : State) (i : Nat) : Bool :=
  outcome s i != 0 && outcome s i != 2 && !(outcome s i == 1 && planExpect s i == noneId)

/-- R330: a required lead with an expected peer is not up. -/
def reqFailed (s : State) (i : Nat) : Bool := leadMissing s i && planExpect s i != noneId && !planOptional s i

/-- A mask of the leads at which p holds. -/
def leadMask (p : Nat → Bool) : BitVec 8 := BitVec.ofNat 8 (allLeads.foldl (fun a i => a + b2n (p i) * 2 ^ i) 0)

/-- R329: a configured lead's discovery frame, with the device's ID, the lead and its lane count. -/
def sendDiscovery (s : State) (i : Nat) : State :=
  if planLanes s i = 0 then s
  else setLead s i (txFrame (leadAt s i)
    (.discovery { id := s.lead.activeId, port := BitVec.ofNat 3 i, lanes := BitVec.ofNat 5 (planLanes s i), delay := 0 }))

/-- R329, R330: lead bring-up begins; with an invalid plan or no own ID no frame is exchanged. -/
def beginDiscovery (s : State) : State :=
  let s := { s with lead := { s.lead with discovering := true } }
  if planValid s then allLeads.foldl sendDiscovery s else s

/-- A lead of outcome MATCH comes up, with its credits (R330, R339); the others stay down. -/
def bringUp (s : State) (i : Nat) : State :=
  let x := leadAt s i
  if outcome s i = 2 then
    setLead s i { x with
      up := true, lanes := BitVec.ofNat 32 (planMask s i), tx := 0, rx := 0, sent := [], waiting := [],
      credit := Vector.ofFn fun c : Fin 4 => creditCap s i c.val }
  else setLead s i { x with tx := 0, sent := [] }

/-- The codes of lead i (R332, R334). -/
def leadCodes (s : State) (i : Nat) : List (Nat × Effect × Bytes) :=
  let inSwap := (swapPairs s).any fun p => p.1 == i || p.2 == i
  (if reqFailed s i then [(0x07080004, .event, d4 i)]
   else if leadMissing s i && !inSwap then [(0x07080005, .event, d4 i)] else []) ++
  (if outcome s i = 2 ∧ 350 < (leadAt s i).delay.toNat then [(0x07080008, .event, d4 i ++ d4 (leadAt s i).delay.toNat)] else [])

/-- The code of a swap pair (R332): its leads and the peers found. -/
def swapCode (s : State) (p : Nat × Nat) : Nat × Effect × Bytes :=
  (0x07080006, .event, d4 p.1 ++ d4 p.2 ++ d4 (peerId s p.1) ++ d4 (peerId s p.2))

/-- R330 with an invalid plan or no own ID: result 4. -/
def allDown (s : State) : State :=
  raise { s with lead := { s.lead with result := 4, swap := 0, reqFail := 0, found := Vector.replicate 8 0,
                                       peer := Vector.replicate 8 none } } 0x07080007 .event (d4 (ownId s))

/-- R330 to R332, R334: the cabling check. -/
def cablingCheck (s : State) : State :=
  if !planValid s then allDown s
  else
    let codes := allLeads.flatMap (leadCodes s) ++ (swapPairs s).map (swapCode s)
    let result := if allLeads.any (reqFailed s) then 3 else if allLeads.any (leadMissing s) then 2 else 1
    let s' := { s with lead := { s.lead with
      result := result, reqFail := leadMask (reqFailed s), found := Vector.ofFn fun i : Fin 8 => BitVec.ofNat 4 (outcome s i.val),
      swap := leadMask fun i => (swapPairs s).any fun p => p.1 == i || p.2 == i } }
    raiseAll (allLeads.foldl bringUp s') codes

/-- R329: discovery ends, 60 ms after it began. -/
def discoveryEnd (s : State) : State :=
  if s.lead.discovering then
    cablingCheck { s with lead := { s.lead with discovering := false, discovered := true } }
  else s

/-- R329. -/
def execDiscoveryEnd (s : State) : Host.Outcome State Fault Refusal := .next (discoveryEnd s)

end Sys2Proof.Machine
end

