-- ==== Sys2Proof/Machine/Collective.lean ====
section
/-!
DEFINITION. The collective engines (spec/09 R351 to R357; spec/07 R281, R282; spec/01 R45).
-/
namespace Sys2Proof.Machine

/-! ## Engines and the roles of a plan -/

/-- Engine e's collective. -/
def engine (s : State) (e : Nat) : Option CollOp := vget s.col.eng e none

/-- Engine e's collective replaced. -/
def setEngine (s : State) (e : Nat) (o : Option CollOp) : State := { s with col := { s.col with eng := vset s.col.eng e o } }

/-- The neighbours of a plan, as leads; a plan of one member has none. -/
def neighbours (im : Bytes) (p : Nat) : List Nat := if plMembers im p = 1 then [] else planLeads im p

/-- Is this device the member that a pass ends at: a tree's root, or on a ring ROOT, or the member of rank 0 (log 13)? -/
def collRoot (s : State) (op : CollOp) : Bool :=
  let im := img s
  if !plRing im op.plan then plUp im op.plan == 0xFF
  else if op.kind = 0 ∨ op.kind = 3 then ownId s == op.root
  else plRank im op.plan == 0

/-- On a ring: is the lead's other end the member that a pass ends at? -/
def ringRootAt (s : State) (op : CollOp) (lead rank : Nat) : Bool :=
  if op.kind = 0 ∨ op.kind = 3 then peerId s lead == op.root else plRank (img s) op.plan == rank

/-- The leads whose contributions a pass toward the root needs. -/
def upFrom (s : State) (op : CollOp) : List Nat :=
  let im := img s
  if plMembers im op.plan = 1 then []
  else if !plRing im op.plan then downLeads im op.plan
  else if !collRoot s op && ringRootAt s op (plPrev im op.plan) 1 then [] else [plPrev im op.plan]

/-- The lead toward the root. -/
def upTo (s : State) (op : CollOp) : Option Nat := if collRoot s op then none else some (plUp (img s) op.plan)

/-- The lead on which a result comes from the root. -/
def downFrom (s : State) (op : CollOp) : Option Nat :=
  let im := img s
  if collRoot s op then none else some (if plRing im op.plan then plPrev im op.plan else plUp im op.plan)

/-- The leads on which a result goes on. -/
def downTo (s : State) (op : CollOp) : List Nat :=
  let im := img s
  if plMembers im op.plan = 1 then []
  else if !plRing im op.plan then downLeads im op.plan
  else if !collRoot s op && ringRootAt s op (plUp im op.plan) (plMembers im op.plan - 1) then [] else [plUp im op.plan]

/-! ## Elements (R353, R354) -/

/-- Bytes of an element (Table 7-18). -/
def collBytes (ecode : Nat) : Nat := if ecode = 0xD then 8 else if ecode = 0x0 then 1 else if ecode = 0x9 ∨ ecode = 0xA then 2 else 4

/-- The quantum exponent of a CARRY48 element (R109). -/
def elemQ (x : BitVec 64) : Int := toSigned 10 (field x.toNat 57 48)

/-- The larger of two quantum exponents. -/
def maxQ (a b : BitVec 10) : BitVec 10 := if b.toInt ≤ a.toInt then a else b

/-- s of R353. -/
def sumS (d : Nat) : Int := ceilLog2 (d + 1)

/-- A CARRY48 element realigned to q_t (R45), as a 48-bit integer. -/
def realignElem (x : BitVec 64) (qt : Int) : BitVec 64 :=
  BitVec.ofNat 64 (ofSigned 48 (Dy.align ⟨toSigned 48 x.toNat, elemQ x⟩ qt))

/-- The result element of a sum. -/
def sumElem (c : BitVec 64) (qt : Int) : BitVec 64 := BitVec.ofNat 64 (c.toNat % 2 ^ 48 + 2 ^ 48 * ofSigned 10 qt)

/-- The larger or smaller of two FP32 or INT32 elements (R354). -/
def pick (mx : Bool) (ecode : Nat) (a b : BitVec 64) : BitVec 64 :=
  let x := BitVec.ofNat 32 a.toNat
  let y := BitVec.ofNat 32 b.toNat
  if ecode = 0xB then
    if isNan32 x || isNan32 y then 0x7FC00000
    else if fvTotLt (f32 x) (f32 y) == mx then b else a
  else if decide (x.toInt < y.toInt) == mx then b else a

/-- Two elements of a pass combined. -/
def combine (op : CollOp) (a b : BitVec 64) : BitVec 64 :=
  if op.rop = 1 then BitVec.ofNat 64 ((a.toNat + b.toNat) % 2 ^ 48) else pick (op.rop == 2) op.ecode a b

/-- Element by element. -/
def zipCombine (f : α → α → α) (a b : List α) : List α := a.zipWith f b

/-! ## Frames (R335, R352) -/

/-- The payload bytes of a COLL frame (Table 9-4). -/
def collPayload : Nat := 2048

/-- A list in runs of `n`; `fuel` bounds their number. -/
def runsOf (n : Nat) : (fuel : Nat) → List α → List (List α)
  | 0, l => [l]
  | k + 1, l => if l.length ≤ n then [l] else l.take n :: runsOf n k (l.drop n)

/-- Every run of a vector as a frame, all but the last with more to follow. -/
def framesOf (mk : Bool → List α → CollMsg) (runs : List (List α)) : List CollMsg :=
  runs.mapIdx fun i l => mk (decide (i + 1 < runs.length)) l

/-- The frames of a message: a header is one frame; a vector goes in runs of at most 2,048 payload bytes, 2 a quantum (R353) and
the element's bytes an element, a member's part of an ALLGATHER in runs of its own (log 13). -/
def splitMsg (ecode : Nat) : CollMsg → List CollMsg
  | .header k r e c o => [.header k r e c o]
  | .quanta d _ q => framesOf (CollMsg.quanta d) (runsOf (collPayload / 2) q.length q)
  | .elems d _ v => framesOf (CollMsg.elems d) (runsOf (collPayload / collBytes ecode) v.length v)
  | .parts d _ v => framesOf (CollMsg.parts d)
      (v.flatMap fun p => (runsOf (collPayload / collBytes ecode) p.2.length p.2).map fun l => [(p.1, l)])

/-- A run of a member's part joins the runs before it. -/
def joinPart (v : List (Nat × List (BitVec 64))) (p : Nat × List (BitVec 64)) : List (Nat × List (BitVec 64)) :=
  if v.any fun q => q.1 == p.1 then v.map fun q => if q.1 = p.1 then (q.1, q.2 ++ p.2) else q else v ++ [p]

/-- A frame's run joins the runs of the same vector before it. -/
def joinMsg : CollMsg → CollMsg → Option CollMsg
  | .quanta d true q, .quanta d' m q' => if d = d' then some (.quanta d m (q ++ q')) else none
  | .elems d true v, .elems d' m v' => if d = d' then some (.elems d m (v ++ v')) else none
  | .parts d true v, .parts d' m v' => if d = d' then some (.parts d m (v'.foldl joinPart v)) else none
  | _, _ => none

/-- Do more frames of a message's vector follow? -/
def msgMore : CollMsg → Bool
  | .header .. => false
  | .quanta _ m _ => m
  | .elems _ m _ => m
  | .parts _ m _ => m

/-- A frame that arrives joins the waiting vector of its lead, plan and sequence, or waits as it is. -/
def joinInbox : (box : List CollIn) → (f : CollIn) → List CollIn
  | [], f => [f]
  | g :: gs, f =>
    match (if g.lead = f.lead ∧ g.plan = f.plan ∧ g.seq = f.seq then joinMsg g.msg f.msg else none) with
    | some m => { g with msg := m, frames := g.frames + f.frames } :: gs
    | none => g :: joinInbox gs f

/-! ## The passes over the plan -/

/-- The COLL frames of a message to a neighbour. -/
def collSend (s : State) (op : CollOp) (l : Nat) (m : CollMsg) : State :=
  (splitMsg op.ecode m).foldl (fun s m => leadSend s l (.coll (BitVec.ofNat 16 op.plan) op.seq (collBytes op.ecode) m)) s

/-- The target quanta of a SUM. -/
def targetQ (s : State) (op : CollOp) : List Int := op.quanta.map fun q => q.toInt + sumS (plMembers (img s) op.plan)

/-- The pass over the elements begins: this member's own contribution, and the contributions it needs. -/
def elemPass (s : State) (e : Nat) (op : CollOp) : State :=
  let up := upFrom s op
  let wait := op.kind == 3 && !collRoot s op
  let own := if op.rop = 1 then op.src.zipWith realignElem (targetQ s op)
    else if op.rop = 0 then op.src else op.src.map fun x => pick (op.rop == 2) op.ecode x x
  if op.rop = 1 ∧ (targetQ s op).any (fun q => decide (511 < q)) then
    raise (setEngine s e (some { op with dead := true })) 0x01090001 .jobEnding (d4 op.plan)
  else
    setEngine s e (some { op with
      pass := 1, acc := own, parts := if op.kind = 2 then [(plRank (img s) op.plan, op.src)] else [],
      missing := if op.kind = 3 then [] else up, awaitDown := wait })

/-- The parts of an ALLGATHER in rank order (R355). -/
def gathered (op : CollOp) : List (BitVec 64) :=
  ((op.parts.foldl (fun m p => sset m p.1 p.2) ([] : SMap (List (BitVec 64)))).map Prod.snd).flatten

/-- The result of this member, as elements. -/
def collResult (s : State) (op : CollOp) : List (BitVec 64) :=
  if op.kind = 2 then gathered op
  else if op.rop = 1 then op.acc.zipWith sumElem (targetQ s op)
  else op.acc

/-- The result is written to DST (R355). -/
def collWrite (s : State) (op : CollOp) : State :=
  if op.dst = locNone then s
  else locWrite s op.dst ((collResult s op).flatMap fun x => natLE (collBytes op.ecode) x.toNat)

/-- What the present pass carries upward or back. -/
def passMsg (op : CollOp) (down : Bool) : CollMsg :=
  if op.pass = 0 then .quanta down false op.quanta
  else if op.kind = 2 then .parts down false op.parts
  else .elems down false op.acc

/-- The result of the present pass is known here: it goes on, and the next pass begins or the collective is done. -/
def passDown (s : State) (e : Nat) (op : CollOp) : State :=
  let back := op.pass = 0 ∨ op.kind ≠ 0
  let s := if back then (downTo s op).foldl (fun s l => collSend s op l (passMsg op true)) s else s
  if op.pass = 0 then elemPass s e op
  else setEngine (collWrite s op) e (some { op with awaitDown := false, done := true })

/-- The contributions of the present pass are complete here. -/
def passUp (s : State) (e : Nat) (op : CollOp) : State :=
  match upTo s op with
  | none => passDown s e op
  | some l =>
    let s := collSend s op l (passMsg op false)
    if op.pass = 1 ∧ op.kind = 0 then setEngine s e (some { op with done := true })
    else setEngine s e (some { op with awaitDown := true })

/-- A header that agrees with this member's, its plan sequence too (R352). -/
def headerOk (op : CollOp) (seq : BitVec 16) (kind rop ecode : BitVec 4) (count root : BitVec 32) : Bool :=
  seq == op.seq && kind.toNat == op.kind && rop.toNat == op.rop && ecode.toNat == op.ecode && count.toNat == op.count &&
  root.toNat == op.root

/-- Is a message a header? -/
def isHeader : CollMsg → Bool
  | .header .. => true
  | _ => false

/-- May engine op use a frame now: a header it waits for, or the whole vector that its pass needs? -/
def collReady (s : State) (op : CollOp) (f : CollIn) : Bool :=
  let up := op.headers.isEmpty && !op.awaitDown && op.missing.contains f.lead
  let down := op.headers.isEmpty && op.awaitDown && downFrom s op == some f.lead
  f.plan == op.plan && (f.seq == op.seq || isHeader f.msg) && !op.done && !op.dead && !msgMore f.msg &&
  (match f.msg with
   | .header .. => op.headers.contains f.lead
   | .quanta d _ _ => op.pass == 0 && (if d then down else up)
   | .elems d _ _ => op.pass == 1 && op.kind != 2 && (if d then down else up)
   | .parts d _ _ => op.pass == 1 && op.kind == 2 && (if d then down else up))

/-- A frame is used (R352 to R355). -/
def collUse (s : State) (e : Nat) (op : CollOp) (f : CollIn) : State :=
  let rest := op.missing.filter (· != f.lead)
  match f.msg with
  | .header kind rop ecode count root =>
    if headerOk op f.seq kind rop ecode count root then
      setEngine s e (some { op with headers := op.headers.filter (· != f.lead) })
    else raise (setEngine s e (some { op with dead := true })) 0x0B090001 .jobEnding (d4 op.plan ++ d4 f.lead)
  | .quanta true _ q => passDown s e { op with quanta := q, awaitDown := false }
  | .quanta false _ q => setEngine s e (some { op with quanta := zipCombine maxQ op.quanta q, missing := rest })
  | .elems true _ v => passDown s e { op with acc := v, awaitDown := false }
  | .elems false _ v => setEngine s e (some { op with acc := zipCombine (combine op) op.acc v, missing := rest })
  | .parts true _ v => passDown s e { op with parts := v, awaitDown := false }
  | .parts false _ v => setEngine s e (some { op with parts := op.parts ++ v, missing := rest })

/-- The first frame of a list that p admits, and the others. -/
def takeFirst (p : CollIn → Bool) : List CollIn → Option CollIn × List CollIn
  | [] => (none, [])
  | f :: fs => if p f then (some f, fs) else
    let (r, rest) := takeFirst p fs
    (r, f :: rest)

/-- Engine e goes on as far as the frames that have come allow; `fuel` bounds the frames and passes. -/
def collRun : (fuel : Nat) → (s : State) → (e : Nat) → State
  | 0, s, _ => s
  | k + 1, s, e =>
    match engine s e with
    | none => s
    | some op =>
      match takeFirst (collReady s op) s.col.inbox with
      | (some f, rest) =>
        collRun k (collUse (freeBuffers { s with col := { s.col with inbox := rest } } f.lead 1 f.frames) e op f) e
      | (none, _) =>
        if op.headers.isEmpty && op.missing.isEmpty && !op.awaitDown && !op.done && !op.dead then collRun k (passUp s e op) e else s

/-- The fuel that every frame in the inbox and every pass needs. -/
def collFuel (s : State) : Nat := s.col.inbox.length + 8

/-! ## Issue (R281, R282, R351, R352) -/

/-- The Board address of the collective descriptor. -/
def collDesc (w : BitVec 128) : Nat := wFld w 67 46 * 64

/-- A location that must name `len` bytes. -/
def locHolds (s : State) (l len : Nat) : Bool := l != locNone && locValid s l len

/-- ROOT of a descriptor (R351, Table 7-19). -/
def rootOk (im : Bytes) (kind plan root : Nat) : Bool :=
  if kind = 0 ∨ kind = 3 then decide (root < 2 ^ 24) && (plRing im plan || root == plRoot im plan) else root == 0

/-- The collective that a word names. -/
def collOf (s : State) (e : Nat) (w : BitVec 128) : CollOp :=
  let d := mread s.brd.mem (collDesc w) 64
  { index := (strand s (34 + e)).index.toNat, plan := fld d 0x14 4, seq := BitVec.ofNat 16 (sgetD s.col.planSeq (fld d 0x14 4) 0 + 1),
    kind := wFld w 79 76, rop := wFld w 75 72, ecode := wFld w 71 68, count := fld d 0x10 4, root := fld d 0x18 4,
    dst := fld d 0x08 8, src := [], headers := [], pass := 0, missing := [] }

/-- R282: the descriptor is refused. -/
def collBad (s : State) (w : BitVec 128) (op : CollOp) : Bool :=
  let im := img s
  let d := mread s.brd.mem (collDesc w) 64
  let n := op.count * collBytes op.ecode
  let out := if op.kind = 2 then plMembers im op.plan * n else n
  !allZero d 0x1C 36 || op.count == 0 || decide (planCount im ≤ op.plan) ||
  !rootOk im op.kind op.plan op.root ||
  !locHolds s (fld d 0x00 8) n ||
  (if op.kind = 0 ∧ collRoot s op = false then op.dst != locNone else !locHolds s op.dst out)

/-- The elements at SRC. -/
def collSrc (s : State) (loc ecode count : Nat) : List (BitVec 64) :=
  if loc = locNone then []
  else
    let b := collBytes ecode
    (List.range count).map fun i => BitVec.ofNat 64 (leNat (locRead s (loc + b * i) b))

/-- Does every block of SRC verify (R353, R300)? Until then the engine waits. -/
def collVerifies (s : State) (w : BitVec 128) (op : CollOp) : Bool :=
  locVerifies s (fld (mread s.brd.mem (collDesc w) 64) 0x00 8) (op.count * collBytes op.ecode)

/-- An accepted COLL: the plan is bound, the header frames are sent, and the engine begins. -/
def collStart (s : State) (e : Nat) (w : BitVec 128) (op : CollOp) : State :=
  let ns := neighbours (img s) op.plan
  let src := collSrc s (fld (mread s.brd.mem (collDesc w) 64) 0x00 8) op.ecode op.count
  let op := { op with src := src, headers := ns, quanta := src.map fun x => BitVec.ofInt 10 (elemQ x) }
  let s := { s with col := { s.col with bound := sset s.col.bound op.plan e,
                                        planSeq := sset s.col.planSeq op.plan (sgetD s.col.planSeq op.plan 0 + 1) } }
  let s := issueStrand s (34 + e)
  let hdr : CollMsg := .header (BitVec.ofNat 4 op.kind) (BitVec.ofNat 4 op.rop) (BitVec.ofNat 4 op.ecode) (BitVec.ofNat 32 op.count)
    (BitVec.ofNat 32 op.root)
  let s := ns.foldl (fun s l => collSend s op l hdr) s
  let s := if op.rop = 1 then setEngine s e (some { op with missing := upFrom s op }) else elemPass s e op
  collRun (collFuel s) s e

/-- R281, R282, R351: a COLL of the given KIND issues on engine e. -/
def collIssue (s : State) (e kind : Nat) : State :=
  let n := 34 + e
  let w := (strand s n).word
  if begun s n 0x10 && idle s n && decide (wFld w 79 76 = kind) then
    let op := collOf s e w
    if collBad s w op then refuse s n 0x0B050305
    else if (sget? s.col.bound op.plan).any (· != e) then refuse s n 0x0B090002
    else if !collVerifies s w op then s
    else collStart s e w op
  else s

/-- R353 to R355: REDUCE. -/
def execCollReduce (e : Fin 8) (s : State) : Host.Outcome State Fault Refusal := .next (collIssue s e.val 0)
/-- R353 to R355: ALLREDUCE. -/
def execCollAllreduce (e : Fin 8) (s : State) : Host.Outcome State Fault Refusal := .next (collIssue s e.val 1)
/-- R355: ALLGATHER. -/
def execCollAllgather (e : Fin 8) (s : State) : Host.Outcome State Fault Refusal := .next (collIssue s e.val 2)
/-- R355: BROADCAST. -/
def execCollBroadcast (e : Fin 8) (s : State) : Host.Outcome State Fault Refusal := .next (collIssue s e.val 3)

/-- R352: a COLL frame arrives; from a neighbour of its plan it waits for its engine, with its buffer, or is used. -/
def collReceived (s : State) (a : Arrival) (plan seq : BitVec 16) (m : CollMsg) : State :=
  onJobFrame s a fun s => onKept s a fun s =>
    let l := a.lead.val
    if !(neighbours (img s) plan.toNat).contains l then freeBuffers s l 1 1
    else
      let s := { s with col := { s.col with inbox := joinInbox s.col.inbox ⟨l, plan.toNat, seq, m, 1⟩ } }
      match sget? s.col.bound plan.toNat with
      | some e => if running s then collRun (collFuel s) s e else s
      | none => s

/-- R352. -/
def execCollFrameReceived (a : Arrival) (plan seq : BitVec 16) (m : CollMsg) (s : State) : Host.Outcome State Fault Refusal :=
  .next (collReceived s a plan seq m)

/-- R357: a neighbour's frame has not come within COL_TIMEOUT. -/
def neighbourTimeout (s : State) (e : Nat) : State :=
  match engine s e with
  | some op =>
    if collWaits op then raise (setEngine s e (some { op with dead := true })) 0x07090002 .jobEnding (d4 op.plan) else s
  | none => s

/-- R357. -/
def execNeighbourTimeout (e : Fin 8) (s : State) : Host.Outcome State Fault Refusal := .next (neighbourTimeout s e.val)

/-- Must a COLL frame be acknowledged before the collective completes (R356): on a member without a DST every frame, on another
those that it forwards, which carry what came from a neighbour? -/
def mustAck (s : State) (op : CollOp) (b : TxBody) : Bool :=
  match b with
  | .coll p q _ m => p.toNat == op.plan && q == op.seq &&
      (op.dst == locNone || match m with
        | .header .. => false
        | .quanta d _ _ => d && !collRoot s op || !d && !(upFrom s op).isEmpty
        | .elems d _ _ => d && !collRoot s op || !d && !(upFrom s op).isEmpty
        | .parts d _ v => d && !collRoot s op || !d && v.any fun p => p.1 != plRank (img s) op.plan)
  | _ => false

/-- No such frame of a collective waits or is unacknowledged on any lead. -/
def collAcked (s : State) (op : CollOp) : Bool :=
  allLeads.all fun i =>
    !((leadAt s i).sent.any fun f => mustAck s op f.2.2) && !((leadAt s i).waiting.any fun w => mustAck s op w.2)

/-- R356: may engine e's collective complete? -/
def collCanComplete (s : State) (e : Nat) : Bool := (engine s e).any fun op => op.done && !op.dead && collAcked s op

/-- Engine e's collective completes. -/
def collComplete (s : State) (e : Nat) : State := setEngine s e none

end Sys2Proof.Machine
end

