-- ==== Sys2Proof/Machine/Complete.lean ====
section
/-!
DEFINITION. The completion of instructions that took time: what each unit then does, and the token signals of one cycle
(spec/06 R211, R219 to R221, R226, R266; spec/12 R445).
-/
namespace Sys2Proof.Machine

/-- The word of strand n's oldest instruction in flight. -/
def oldestWord (s : State) (n : Nat) : BitVec 128 := (((strand s n).inflight.head?).map Prod.snd).getD 0

/-- May the oldest instruction in flight of strand n complete? Not while a grain of its unit waits for credits (R200, R587), and
not before every block that it reads verifies (R300). -/
def canComplete (s : State) (n : Nat) : Bool :=
  let w := oldestWord s n
  running s && !idle s n && !(strand s n).dead && !creditHeld s n &&
  (if n = 0 then frameCanComplete s
   else if n = 1 then edgeCanComplete s
   else if n ≤ 17 then fetchVerifies s n w
   else if n ≤ 33 then (if wOp w = 0x78 then optVerifies s (strand s n).desc w else rodsVerifies s (n - 18) w)
   else if n ≤ 41 then collCanComplete s (n - 34)
   else !copying s)

/-- What the unit of strand n does as its oldest instruction completes. -/
def unitComplete (s : State) (n : Nat) (w : BitVec 128) : State :=
  if n = 0 then frameComplete s
  else if n = 1 then edgeComplete s
  else if n ≤ 17 then fetchComplete s n w
  else if n ≤ 33 then (if wOp w = 0x78 then optDone s (n - 18) w else rodsComplete s (n - 18) w)
  else if n ≤ 41 then collComplete s (n - 34)
  else s

/-- One completion of a cycle: its strand, the index and the word, and whether the parity of its signal holds. -/
structure Completion where
  strand : Nat
  index  : Nat
  word   : BitVec 128
  parity : Bool

/-- The units complete, each strand at most one instruction (`seen` have completed theirs); the completions in the order
given. -/
def completeUnits : (s : State) → (seen : List Nat) → List (Fin 43 × Bool) → State × List Completion
  | s, _, [] => (s, [])
  | s, seen, (n, ok) :: rest =>
    match (strand s n.val).inflight with
    | [] => completeUnits s seen rest
    | (i, w) :: more =>
      if canComplete s n.val && !seen.contains n.val then
        let s := unitComplete s n.val w
        let s := countDone (setStrand s n.val { strand s n.val with inflight := more }) n.val
        let (s, cs) := completeUnits s (n.val :: seen) rest
        (s, ⟨n.val, i, w, ok⟩ :: cs)
      else completeUnits s seen rest

/-- R211, R220: the instructions of a cycle complete, and their signals arrive together; one whose parity fails is not applied
(R445). -/
def instructionComplete (s : State) (done : List (Fin 43 × Bool)) : State :=
  let (s, cs) := completeUnits s [] done
  let s := applySignals s ((cs.filter Completion.parity).flatMap fun c => wordSignal c.strand c.word)
  let s := cs.foldl (fun s c => ranPast s c.strand c.index) s
  (cs.filter fun c => !c.parity && wSen c.word).foldl (fun s _ => raise s 0x04010001 .jobEnding) s

/-- R211. -/
def execInstructionComplete (done : List (Fin 43 × Bool)) (s : State) : Host.Outcome State Fault Refusal :=
  .next (instructionComplete s done)

end Sys2Proof.Machine
end

