-- ==== Sys2Proof/Machine/Governor.lean ====
section
/-!
DEFINITION. The power governor: the credit pool, grants, floors and deferral, the feedback loop and the calibration tables
(spec/16 R586 to R603). Energies are in units of 2^-8 nJ.
-/
namespace Sys2Proof.Machine

/-- The governor's state replaced. -/
def setGov (s : State) (g : Gov) : State := { s with gov := g }

/-- Units of 2^-8 nJ. -/
def nJ (x : Nat) : Nat := 256 * x

/-- BUDGET_W within its limits (R606). -/
def budgetW (s : State) : Nat := max 300 (min 1200 s.gov.budget.toNat)

/-- DERATE of the present band, within its limits. -/
def derate (s : State) : Nat := max 25 (min 100 (field s.gov.derate.toNat (8 * s.knl.band.toNat + 7) (8 * s.knl.band.toNat)))

/-- R586 step 1: BUDGET_W × DERATE / 100 × 1 us. -/
def replenishment (s : State) : Nat := budgetW s * derate s * nJ 1000 / 100

/-- R586 step 3: the depth D. -/
def depth (s : State) : Nat := (145000 - budgetW s * derate s) * nJ 1000000 / 100

/-- R586 step 2: the static cost of every powered domain for a microsecond (classes 12 to 15). -/
def staticCost (s : State) : Nat := onesIn s.shp.on.toNat 0 50 * (costEntry s (12 + s.knl.band.toNat)).toNat

/-- R590: a shortage begins below D / 8 and ends above D / 2. -/
def noteShort (s : State) : State :=
  if !s.gov.short && decide (8 * s.gov.pool < depth s) then raise (setGov s { s.gov with short := true }) 0x090D0002 .count
  else if s.gov.short && decide ((depth s : Int) < 2 * s.gov.pool) then setGov s { s.gov with short := false }
  else s

/-- R594, R629: the VID code of the Frame rail's voltage for the present band. -/
def vidCode (s : State) : BitVec 7 :=
  BitVec.ofNat 7 (ceilDiv (max 620 (min 780 (costEntry s (16 + s.knl.band.toNat)).toNat) - 500) 5)

/-- R586: every microsecond. -/
def govTick (s : State) : State :=
  if s.die = .off then s
  else
    let st := staticCost s
    let pool := min (s.gov.pool + replenishment s - st) (depth s : Int)
    let s := setGov s { s.gov with pool := pool, grantedUs := 0, staticUs := st, periodE := s.gov.periodE + st }
    let s := noteShort { s with shp := { s.shp with vid := vidCode s } }
    if s.gov.short then setGov s { s.gov with cntShort := satAdd32 s.gov.cntShort 1 } else s

/-- R586. -/
def execGovTick (s : State) : Host.Outcome State Fault Refusal := .next (govTick s)

/-! ## Grants (R587 to R592) -/

/-- The cost of a grain. -/
def grainCost (s : State) (g : Grain) : Nat := (costEntry s g.cls).toNat * g.factor

/-- The rank at which a grain is considered: 0 once it has aged. -/
def grainRank (s : State) (g : Grain) : Nat := if s.gov.aged.contains g.strand then 0 else g.rank

/-- Is grain a considered before grain b (R591)? -/
def grainBefore (s : State) (a b : Grain) : Bool :=
  decide (grainRank s a < grainRank s b) ||
  (grainRank s a == grainRank s b && (decide (b.waited < a.waited) || (a.waited == b.waited && decide (a.strand ≤ b.strand))))

/-- A grain placed in the order of consideration. -/
def insertGrain (s : State) (x : Grain) : List Grain → List Grain
  | [] => [x]
  | y :: ys => if grainBefore s y x then y :: insertGrain s x ys else x :: y :: ys

/-- May a grain begin now (R587 to R589, R599)? -/
def grantOk (s : State) (g : Grain) : Bool :=
  decide (0 ≤ s.gov.pool) && decide ((grainCost s g : Int) ≤ s.gov.pool) &&
  decide (s.gov.grantedUs + s.gov.staticUs + grainCost s g ≤ nJ 1450000) && (!s.gov.clamp || grainRank s g == 0)

/-- The THROTTLE bit of strand n's unit while a grain of it waits for credits (R131, R203); STATE shows the wait by itself
(`strandState`). -/
def creditWait (s : State) (n : Nat) (waits : Bool) : State :=
  if n = 1 then { s with edg := { s.edg with throttle := waits } }
  else if 18 ≤ n ∧ n ≤ 33 then
    let b := BitVec.ofNat 16 (2 ^ (n - 18))
    { s with rod := { s.rod with throttle := if waits then s.rod.throttle ||| b else s.rod.throttle &&& ~~~b } }
  else s

/-- A grain begins. -/
def grantGrain (s : State) (g : Grain) : State :=
  let c := grainCost s g
  creditWait (setGov s { s.gov with
    pool := s.gov.pool - c, grantedUs := s.gov.grantedUs + c, periodE := s.gov.periodE + c,
    aged := s.gov.aged.erase g.strand }) g.strand false

/-- Grains granted in order up to the first that cannot be (R591): the state, and those that still wait. -/
def grantAll (s : State) : List Grain → State × List Grain
  | [] => (s, [])
  | g :: gs => if grantOk s g then grantAll (grantGrain s g) gs else (s, g :: gs)

/-- R591: one governor cycle. -/
def grainGrant (s : State) (arrived : List Grain) : State :=
  if s.die = .off then s
  else
    let gs := (s.gov.waiting ++ arrived).foldl (fun l g => insertGrain s g l) []
    let (s, left) := grantAll s gs
    let s := left.foldl (fun s g => creditWait s g.strand true) s
    noteShort (setGov s { s.gov with waiting := left.map fun g => { g with waited := g.waited + 1 } })

/-- R591. -/
def execGrainGrant (arrived : List Grain) (s : State) : Host.Outcome State Fault Refusal := .next (grainGrant s arrived)

/-- R592: a grain has waited 10 us. -/
def grainAged (s : State) (n : Nat) : State :=
  if s.gov.waiting.any (fun g => g.strand == n) && !s.gov.aged.contains n then setGov s { s.gov with aged := s.gov.aged ++ [n] }
  else s

/-- R592. -/
def execGrainAged (strand : Nat) (s : State) : Host.Outcome State Fault Refusal := .next (grainAged s strand)

/-! ## The feedback loop and the floors (R595, R597 to R599) -/

/-- At most one record within `us` of Shepherd time after the last. -/
def recordDue (s : State) (last : Option (BitVec 64)) (us : Nat) : Bool :=
  last.all fun t => decide (t.toNat + us ≤ s.shp.time.toNat)

/-- R597, R599: a feedback period ends; `measured` is E_m in nanojoules. -/
def feedbackPeriod (s : State) (measured : Nat) : State :=
  if s.die = .off then s
  else
    let g := s.gov
    let d : Int := depth s
    let pool := max (-d) (min d (g.pool - ((nJ measured : Int) - g.periodE)))
    let high := decide (14500000 < measured)
    let s := noteShort (setGov s { g with pool := pool, sumM := g.sumM + nJ measured, sumP := g.sumP + g.periodE, periodE := 0,
                                          clamp := high })
    if !high then s
    else if recordDue s s.gov.clampRec 1000000 then raise (setGov s { s.gov with clampRec := some s.shp.time }) 0x090D0005 .event
    else raise s 0x090D0005 .count

/-- R597. -/
def execFeedbackPeriod (measured : Nat) (s : State) : Host.Outcome State Fault Refusal := .next (feedbackPeriod s measured)

/-- GOV_DRIFT.RATIO of the window. -/
def driftRatio (g : Gov) : BitVec 16 :=
  if g.sumP = 0 then Config.driftOpen g.sumM else BitVec.ofNat 16 (min 0xFFFF (g.sumM * 1024 / g.sumP))

/-- R598: does the ratio lie outside 0.92 to 1.08? -/
def drifted (g : Gov) : Bool :=
  if g.sumP = 0 then decide ((driftRatio g).toNat * 100 < 92 * 1024 ∨ 108 * 1024 < (driftRatio g).toNat * 100)
  else decide (g.sumM * 100 < 92 * g.sumP ∨ 108 * g.sumP < g.sumM * 100)

/-- R598: a window of 1 ms ends. -/
def driftWindow (s : State) : State :=
  if s.die = .off then s
  else
    let g := s.gov
    let n := if drifted g then min 0xFFFF (g.driftCount.toNat + 1) else g.driftCount.toNat
    let s := setGov s { g with driftRatio := driftRatio g, driftCount := BitVec.ofNat 16 n, sumM := 0, sumP := 0 }
    if !drifted g then s
    else if recordDue s g.driftRec 10000000 then raise (setGov s { s.gov with driftRec := some s.shp.time }) 0x090D0001 .event
    else raise s 0x090D0001 .count

/-- R598. -/
def execDriftWindow (s : State) : Host.Outcome State Fault Refusal := .next (driftWindow s)

/-- R595: a whole millisecond has passed with, or without, shortage. -/
def deferAdjust (s : State) : State :=
  if s.die = .off then s
  else
    let d := s.knl.d.toNat
    let d := if s.knl.band = 3 then 0 else if s.gov.short then min 3 (d + 1) else d - 1
    { s with knl := { s.knl with d := BitVec.ofNat 2 d } }

/-- R595. -/
def execDeferAdjust (s : State) : Host.Outcome State Fault Refusal := .next (deferAdjust s)

/-! ## Calibration (R600 to R603) -/

/-- R601: MEASURE: the state after it and the code that refuses it. -/
def measureCmd (s : State) : State × Option Nat :=
  if s.sys.st = .holding ∧ !loaded s then (setGov s { s.gov with measuring := true, measValid := false }, none)
  else (raise s 0x090D0004 .refusedTally, some 0x090D0004)

/-- R601: what the program writes: classes 0 to 11, and the static and rail entries of the present band. -/
def measured (s : State) (values : Vector (BitVec 32) 20) : Vector (BitVec 32) 20 :=
  Vector.ofFn fun c : Fin 20 =>
    if c.val < 12 ∨ c.val = 12 + s.knl.band.toNat ∨ c.val = 16 + s.knl.band.toNat then values[c] else 0

/-- R601: the calibration program finishes. -/
def calibrationDone (s : State) (values : Vector (BitVec 32) 20) : State :=
  if s.gov.measuring then
    setGov s { s.gov with measuring := false, measValid := true, measBand := s.knl.band, meas := measured s values }
  else s

/-- R601. -/
def execCalibrationDone (values : Vector (BitVec 32) 20) (s : State) : Host.Outcome State Fault Refusal := .next (calibrationDone s values)

/-- R602: a changed user table or ENABLE raises 0x090D_0006. -/
def setUser (s : State) (ucal : Vector Word 20) (enable : Bool) : State :=
  let changed := ucal != s.gov.ucal || enable != s.gov.ucalEnable
  let s := setGov s { s.gov with ucal := ucal, ucalEnable := enable }
  if changed then raise s 0x090D0006 .event else s

/-- R602: ADOPT, with the owner's authority. -/
def adoptCmd (s : State) : State × Option Nat :=
  if s.gov.measValid then (setUser s s.gov.meas true, none) else (raise s 0x090D0004 .refusedTally, some 0x090D0004)

/-- R603: RESTORE_FACTORY; the user table changes with it (R602). -/
def restoreFactory (s : State) : State :=
  raise (setUser s (Vector.replicate 20 0) false) 0x090D0003 .event

end Sys2Proof.Machine
end

