-- ==== Sys2Proof/Machine/Memory.lean ====
section
/-!
DEFINITION. Placement in HBM, and HBM happenings: corrected and uncorrectable accesses, block check failures, retrain and loss of a pseudo-channel
(spec/08 R287, R292, R296, R297, R300, R301, R310 to R314).
-/
namespace Sys2Proof.Machine

/-- Pseudo-channels are numbered over the stacks. -/
def pcId (stack : Fin 8) (pc : Fin 32) : Nat := 32 * stack.val + pc.val

/-- Is pseudo-channel i live? -/
def pcLive (s : State) (i : Nat) : Bool := bitOf (vget s.mem.live (i / 32) 0).toNat (i % 32)

/-- Those of a list of Shepherd times that lie in the last `us` microseconds. -/
def recent (s : State) (us : Nat) (ts : List (BitVec 64)) : List (BitVec 64) :=
  ts.filter fun t => decide (s.shp.time.toNat < t.toNat + us)

/-- Strand n's oldest instruction in flight stops and never completes: the bytes that it read are not used (R296, R301). -/
def killStrand (s : State) (n : Nat) : State :=
  if idle s n then s else setStrand s n { strand s n with st := 8, dead := true }

/-! ## Placement (R292) -/

/-- The live pseudo-channels, in ascending order of stack and then pseudo-channel: the place of each is its number. -/
def liveList (s : State) : List Nat := (List.range 256).filter (pcLive s)

/-- The blocks of a region of `n` bytes, which begins at a block of its own. -/
def blocksOf (n : Nat) : Nat := ceilDiv n blockBytes

/-- The regions of the device linear space in their order: program, job address space, snapshot reserve, mirror. -/
def regions (im : Bytes) : List Nat := [im.length, hbmFootprint im, snapReserve im, mirrorRegion im]

/-- The region that holds linear block d, numbered in the regions' order; 4 beyond them (log 30). -/
def regionOf : (sizes : List Nat) → (k d : Nat) → Nat
  | [], _, _ => 4
  | n :: ns, k, d => if d < blocksOf n then k else regionOf ns (k + 1) (d - blocksOf n)

/-- The first linear block of region k. -/
def regionStart (im : Bytes) (k : Nat) : Nat := ((regions im).take k).foldl (fun a n => a + blocksOf n) 0

/-- Where linear block d is stored: its live pseudo-channel and block row. -/
def blockPlace (s : State) (d : Nat) : Option (Nat × Nat) := ((liveList s)[d % livePcs s]?).map fun i => (i, d / livePcs s)

/-- The linear block at a block row of pseudo-channel i. -/
def placeBlock (s : State) (i row : Nat) : Nat := row * livePcs s + ((liveList s).takeWhile (· < i)).length

/-- The 2,048-byte blocks of a 256 KiB page. -/
def pageRows : Nat := 128

/-- The physical address of a byte of a pseudo-channel (R295). -/
def physAddr (i off : Nat) : Nat := i * 2 ^ 32 + off

/-! ## What a pseudo-channel stores (R295, R296, R298) -/

/-- The bytes of linear block d: of the program, of the job address space, of the pages in the reserve, of the partner's mirror,
and zeros elsewhere (log 10). -/
def linearBlock (s : State) (d : Nat) : Bytes :=
  let k := regionOf (regions (img s)) 0 d
  let b := d - regionStart (img s) k
  match k with
  | 0 => slice (img s) (blockBytes * b) blockBytes
  | 1 => mread s.mem.hbm (blockBytes * b) blockBytes
  | 2 => slice ((s.snp.gen.map fun g => g.saved.flatMap Prod.snd).getD []) (blockBytes * b) blockBytes
  | 3 => mread ((s.snp.mirror.map Mirror.data).getD []) (blockBytes * b) blockBytes
  | _ => zeros blockBytes

/-- The check value of linear block d (R298): the one held for the job's block, else that of the bytes. -/
def linearCheck (s : State) (d : Nat) : Word :=
  if regionOf (regions (img s)) 0 d = 1 then checkAt s.mem.check (d - regionStart (img s) 1) else crc32c (linearBlock s d)

/-- The plaintext byte at an offset of pseudo-channel i; the check region begins at `Config.checkBase` (R292; log 30). -/
def channelByte (s : State) (i o : Nat) : Byte :=
  if o < Config.checkBase then (linearBlock s (placeBlock s i (o / blockBytes))).getD (o % blockBytes) 0
  else
    let c := o - Config.checkBase
    (natLE 4 (linearCheck s (placeBlock s i (c / 4))).toNat).getD (c % 4) 0

/-- The memory key in use: the job's while a job key is installed, else the idle key (R573, Table 15-8). -/
def memoryKey (s : State) : Bytes :=
  match s.sec.job with
  | some k => kdf (masterBytes k) (ascii "MEM") (natLE 8 k.jobId.toNat ++ natLE 4 (ownId s) ++ natLE 16 k.nonce.toNat) 512
  | none => natLE 64 (Config.draw s.sec.idleKey).toNat

/-- The 32 ciphertext bytes that pseudo-channel i stores at access u (R295). -/
def storedUnit (s : State) (i u : Nat) : Bytes :=
  xtsUnit (memoryKey s) (physAddr i (32 * u) / 32) ((List.range 32).map fun j => channelByte s i (32 * u + j))

/-- The 16 ECC side bits of that access (R296). -/
def sideBits (s : State) (i u : Nat) : BitVec 16 := (Config.secded (BitVec.ofNat 256 (leNat (storedUnit s i u)))).setWidth 16

/-! ## Corrected errors, retrain and loss (R296, R310, R311, R314) -/

/-- Is the first pseudo-channel not lost yet (R462, R471)? -/
def allLive (s : State) : Bool := decide (livePcs s = 256)

/-- Pseudo-channel i is no longer live. -/
def dropChannel (s : State) (i : Nat) : State :=
  { s with mem := { s.mem with
      live := vmodify s.mem.live (i / 32) fun w => w &&& ~~~BitVec.ofNat 32 (2 ^ (i % 32))
      retraining := s.mem.retraining.filter fun r => pcId r.1 r.2 != i } }

/-- R311: pseudo-channel i is lost. -/
def loseChannel (s : State) (i : Nat) : State :=
  if !pcLive s i then s
  else
    let fresh := allLive s
    let s := degrade (dropChannel s i) fresh
    let s := raise s 0x06060006 (if s.sys.st = .running ∨ s.sys.st = .armed then .jobEnding else .event)
    let s := if s.sys.st = .armed then discardProgram (cancelRoundUp s)
      else if s.sys.st = .holding then discardProgram s
      else s
    failLoad s

/-- The HBM of the compute die is in use: its die serves. -/
def memOn (s : State) : Bool := s.die == .serving

/-- A retrain of pseudo-channel (stack, pc) begins, or the pseudo-channel is lost at the fourth within 10 s (R310, R311). -/
def startRetrain (s : State) (stack : Fin 8) (pc : Fin 32) : State :=
  let i := pcId stack pc
  if !memOn s || !pcLive s i || s.mem.retraining.contains (stack, pc) then s
  else
    let seen := recent s 10000000 (sgetD s.mem.pcRetrains i [])
    if 3 ≤ seen.length then loseChannel s i
    else
      raise { s with mem := { s.mem with retraining := s.mem.retraining ++ [(stack, pc)], pcTimes := serase s.mem.pcTimes i,
                                         pcRetrains := sset s.mem.pcRetrains i (s.shp.time :: seen) } }
        0x06060005 .absorbed (d4 i)

/-- The corrected errors within 1 ms that bring a retrain (R310). -/
def correctedLimit : Nat := 16

/-- R296, R310, R314: an access corrected on a pseudo-channel; the sixteenth within 1 ms brings a retrain. -/
def memCorrected (s : State) (stack : Fin 8) (pc : Fin 32) (page : Nat) : State :=
  let i := pcId stack pc
  let n := sgetD s.mem.pcCorr i 0 + 1
  let ts := s.shp.time :: recent s 1000 (sgetD s.mem.pcTimes i [])
  let s := raise { s with mem := { s.mem with pcCorr := sset s.mem.pcCorr i n, pcTimes := sset s.mem.pcTimes i ts } } 0x06060001
    (if n % 1024 = 1 then .absorbed else .absorbedNoRecord) (d4 i ++ d4 page ++ d4 n)
  if correctedLimit ≤ ts.length then startRetrain s stack pc else s

/-- R296: the controller has read an uncorrectable access once more. -/
def hbmEccReread (s : State) (stack : Fin 8) (pc : Fin 32) (page n : Nat) (ok : Bool) : State :=
  let i := pcId stack pc
  if !memOn s || !pcLive s i then s
  else
    let seen := recent s 1000000 (sgetD s.mem.pcUncorr i [])
    let s := { s with mem := { s.mem with pcUncorr := sset s.mem.pcUncorr i (s.shp.time :: seen) } }
    let s := if ok then memCorrected s stack pc page else killStrand (raise s 0x06060002 .jobEnding (d4 i ++ d4 page)) n
    if seen.isEmpty then s else loseChannel s i

/-- R296. -/
def execHbmEccReread (stack : Fin 8) (pc : Fin 32) (page : BitVec 32) (strand : Fin 43) (ok : Bool) (s : State) :
    Host.Outcome State Fault Refusal := .next (hbmEccReread s stack pc page.toNat strand.val ok)

/-- The detail of a check-value code: region kind, pseudo-channel, page (R301, R292). -/
def checkDetail (s : State) (i row : Nat) : Bytes :=
  d4 (regionOf (regions (img s)) 0 (placeBlock s i row)) ++ d4 i ++ d4 (row / pageRows)

/-- R301: a block whose check value failed has been read once more; a CHECK drill ends here. -/
def checkValueReread (s : State) (i row n : Nat) (ok : Bool) : State :=
  if !memOn s || !pcLive s i then s
  else
    let d := checkDetail s i row
    let s := if ok then raise s 0x03060001 .absorbed d else killStrand (raise s 0x03060002 .jobEnding d) n
    drillHandled s 2

/-- R301. -/
def execCheckValueReread (stack : Fin 8) (pc : Fin 32) (row : BitVec 32) (strand : Fin 43) (ok : Bool) (s : State) :
    Host.Outcome State Fault Refusal := .next (checkValueReread s (pcId stack pc) row.toNat strand.val ok)

/-- R310, R311: a parity error on a pseudo-channel, or its PHY's island reset (R312): it is held and retrained. -/
def pcRetrain (s : State) (stack : Fin 8) (pc : Fin 32) : State := startRetrain s stack pc

/-- R310. -/
def execPcRetrain (stack : Fin 8) (pc : Fin 32) (s : State) : Host.Outcome State Fault Refusal := .next (pcRetrain s stack pc)

/-- R310, R311: a retrain ends; one that fails loses the pseudo-channel. -/
def pcRetrainDone (s : State) (stack : Fin 8) (pc : Fin 32) (ok : Bool) : State :=
  if s.mem.retraining.contains (stack, pc) then
    let s := { s with mem := { s.mem with retraining := s.mem.retraining.filter (· != (stack, pc)) } }
    let s := if ok then s else loseChannel s (pcId stack pc)
    drillHandled s 1
  else s

/-- R310. -/
def execPcRetrainDone (stack : Fin 8) (pc : Fin 32) (ok : Bool) (s : State) : Host.Outcome State Fault Refusal :=
  .next (pcRetrainDone s stack pc ok)

end Sys2Proof.Machine
end

