-- ==== Sys2Proof/Machine/Tally.lean ====
section
/-!
DEFINITION. The Tally: records, the Kennel's buffer and its flush, the store, the clear (spec/14 R534 to R540).
-/
namespace Sys2Proof.Machine

/-- The records that the Kennel's buffer holds (R536). -/
def bufferRecords : Nat := 65536

/-- The Kennel makes a record (R535 to R538): buffered with the next number, or dropped and counted. -/
def addRecord (s : State) (code : Word) (detail : Bytes) (drill : Bool) : State :=
  if s.tly.buffer.length ≥ bufferRecords || (s.shp.pwrFail && code != 0x090F0001) then
    { s with tly := { s.tly with dropped := satAdd32 s.tly.dropped 1, droppedSince := satAdd32 s.tly.droppedSince 1 } }
  else
    { s with tly := { s.tly with buffer := s.tly.buffer ++ [kennelRec s code detail drill], next := s.tly.next + 1 } }

/-- A flush begins (R536). -/
def beginFlush (s : State) : State :=
  if s.die = .off then s else { s with tly := { s.tly with flushing := true } }

/-- A record numbered and stored at once. -/
def storeNow (s : State) (r : State → TRec) : State :=
  let s' := storeRec s (r s)
  { s' with tly := { s'.tly with next := s'.tly.next + 1 } }

/-- The Tally's own code (R537, R540) is recorded on the clock of whoever numbers the records. -/
def tallyRec (s : State) (code : Word) (detail : Bytes) : TRec :=
  if s.die = .off then shepherdRec s code detail else kennelRec s code detail s.sys.drill

/-- R537: the count of dropped records is stored; after PWR_FAIL_N no such record is made (R538). -/
def storeDropped (s : State) : State :=
  if s.tly.droppedSince = 0 || s.shp.pwrFail then s
  else
    let n := s.tly.droppedSince.toNat
    let s := { s with tly := { s.tly with droppedSince := 0 } }
    storeNow s fun s => tallyRec s 0x0D100003 (d4 n)

/-- R536: every buffered record is stored, in sequence order, and the next number is passed back (R535). -/
def flushNow (s : State) : State :=
  let rs := s.tly.buffer
  let s := rs.foldl storeRec { s with tly := { s.tly with buffer := [], flushing := false } }
  let s := storeDropped s
  { s with tly := { s.tly with passed := s.tly.next } }

/-- R536: TALLY_STATUS.FLUSH, or another beginning of a flush. -/
def execTallyFlush (s : State) : Host.Outcome State Fault Refusal := .next (beginFlush s)

/-- R536: a flush that runs has stored its records; while the Shepherd restarts it waits (R515). -/
def execTallyFlushDone (s : State) : Host.Outcome State Fault Refusal :=
  .next (if s.tly.flushing && !s.shp.restarting then flushNow s else s)

/-- R536: 100 ms after the oldest buffered record. -/
def execTallyAgeTimeout (s : State) : Host.Outcome State Fault Refusal :=
  .next (if s.tly.buffer.isEmpty then s else beginFlush s)

/-- R536: the buffer holds 32,768 records. -/
def execTallyBufferThreshold (s : State) : Host.Outcome State Fault Refusal :=
  .next (if 32768 ≤ s.tly.buffer.length then beginFlush s else s)

/-- R540: an authorised clear: what the buffer holds is stored first, so that slot 0 holds the next number. -/
def clearTally (s : State) : State :=
  let s := flushNow s
  let detail := d8 (tallyFirst s) ++ d8 (tallyHead s) ++ d4 s.tly.overflow.toNat ++ d4 s.tly.dropped.toNat
  let s := { s with tly := { s.tly with store := [], full := false, overflow := 0, dropped := 0, droppedSince := 0 } }
  let s := storeNow s fun s => tallyRec s 0x0D100001 detail
  { s with tly := { s.tly with passed := s.tly.next } }

end Sys2Proof.Machine
end

