-- ==== Sys2Proof/Machine/Kennel.lean ====
section
/-!
DEFINITION. The Kennel: the collection of codes, the job-ending sequence, pre-reset collection, teardown, the device reset, the
wait-cycle detector, heartbeats, island resets and the thermal bands (spec/12 R428 to R459; spec/06 R233 to R250; spec/14 R533).
-/
namespace Sys2Proof.Machine

/-- The Kennel's state replaced. -/
def setKnl (s : State) (k : Knl) : State := { s with knl := k }

/-- R455: a device reset that is commanded, not started by a fault. -/
def commanded (code : Word) : Bool := code == 0x0B010002 || code == 0x0B010003

/-! ## Pre-reset collection (R455 to R457, R576) -/

/-- The bytes of the scratchpad sample: line j of each Board bank. -/
def sampleBytes (s : State) : Bytes :=
  (List.range 64).flatMap fun b => mread s.brd.mem (8192 * s.knl.prcLine.toNat + 128 * b) 64

/-- The key K of R576, from the draw of the one-time key e; its Z with the owner's key is made (log 7). -/
def sampleKey (s : State) (n : Nat) : Bytes :=
  let e := natLE 64 (Config.draw n).toNat
  kdf (Config.made "ecdh" (e ++ ((s.sec.owner.map fun k => natLE 64 k.toNat).getD [])) 32) (ascii "SAMPLE") (deviceDigest ++ e) 256

/-- The held sample of Table 15-9: its clear fields, then 4,096 bytes of ciphertext and the tag (R576). -/
def heldSample (s : State) (code : Word) (n : Nat) : Bytes :=
  let head := natLE 4 0x50395350 ++ d4 code.toNat ++ d8 s.str.marker.toNat ++ d8 s.shp.time.toNat ++
    natLE 64 (Config.draw n).toNat ++ d4 s.knl.prcLine.toNat ++ zeros 4
  head ++ gcmSeal (sampleKey s n) (zeros 12) head (sampleBytes s)

/-- R456, R457: the scratchpad sample, where the owner's policy permits it; skipped while one is held. -/
def takeSample (s : State) (code : Word) : State :=
  if !(s.knl.prcSample && s.sec.samplePermit) then s
  else if s.shp.held.isSome then raise s 0x0D010003 .event
  else
    let (n, s) := draw s
    { s with shp := { s.shp with held := some (heldSample s code n) } }

/-- R455: the cause goes to MRAM, and the sample is taken. -/
def preCollect (s : State) (code : Word) : State :=
  if commanded code then s else takeSample (setKnl s { s.knl with preReset := code }) code

/-! ## Teardown (R245, Table 6-9) and the end of a job -/

/-- Generations that are past the end of copying with their manifest sent stay; they wait only for storage. -/
def keptGens (s : State) (fault : Bool) : List Gen :=
  if fault then [] else (s.snp.older ++ s.snp.gen.toList).filter fun g => g.ended && g.phase == .manifestSent

/-- Teardown begins: the generation counts on, issue stops on every strand, and what the job's engines had begun is
abandoned. -/
def startTeardown (s : State) (fault : Bool) : State :=
  let s := stopColl s
  let s := { s with
    str := { s.str with gen := s.str.gen + 1, teardown := .draining }
    snp := { s.snp with gen := none, older := keptGens s fault, step5 := false, hold := false, stall := false, mirror := none,
                        restore := none, skipSnap := false }
    tet := { s.tet with phase := .idle, root := false, plan := 0xFFFF, depth := 0, children := 0, childReady := 0,
                        readySent := false, deadline := 0, launch := 0 }
    knl := { s.knl with waitCond := false, waitUs := 0, classify := false } }
  goState s .draining

/-- R358: the first job-ending fault of this device goes out as an ABORT on every keyed lead. -/
def sendAbort (s : State) (code : Word) : State :=
  if s.lead.abortSeen || s.lead.abortSent then s
  else
    let s := leadSendAll s (keyedLeads s) (.abort (BitVec.ofNat 24 (ownId s)) (code.extractLsb' 24 8) 1)
    setEvent { s with lead := { s.lead with abortSent := true } } .col 1

/-- A drill other than ABORT ends with a job-ending fault (R454). -/
def faultEndsDrill (s : State) : State := if s.sys.drill && !drilling s 7 then endDrill s else s

/-- Table 12-9: the job-ending sequence, up to teardown. -/
def endJob (s : State) (code : Word) : State :=
  let s := setKnl s { s.knl with cause := code }
  let s := goState (faultEndsDrill s) .faulted
  startTeardown (preCollect (sendAbort s code) code) true

/-! ## Collection (R429, R430, R454) -/

/-- The order in which one Kennel cycle handles codes: by unit, then by code. -/
def codeRank (c : Word) : Nat := (c.extractLsb' 16 8).toNat * 2 ^ 32 + c.toNat

/-- The first code in that order, and the others. -/
def takeLeast : List Raised → Option (Raised × List Raised)
  | [] => none
  | r :: rs =>
    match takeLeast rs with
    | none => some (r, [])
    | some (q, rest) => if codeRank r.code ≤ codeRank q.code then some (r, rs) else some (q, r :: rest)

/-- Does a record of this code fit (R537, R538)? -/
def recordFits (s : State) (code : Word) : Bool :=
  decide (s.tly.buffer.length < bufferRecords) && (!s.shp.pwrFail || code == 0x090F0001)

/-- Does a recorded code with this effect begin a flush (R536)? -/
def effFlush : Effect → Bool
  | .absorbed | .jobEnding | .device _ => true
  | _ => false

/-- Does the code count as an absorbed fault (R314, R467)? -/
def effAbsorbed : Effect → Bool
  | .absorbed | .absorbedNoRecord => true
  | _ => false

/-- What collection writes: the last code, the tech page, the Tally record, the absorbed count. -/
def recordCode (s : State) (r : Raised) : State :=
  let flush := effRecord r.eff && effFlush r.eff && recordFits s r.code
  let n := if effAbsorbed r.eff then satAdd32 s.knl.absorbed 1 else s.knl.absorbed
  let s := techCode (setKnl s { s.knl with lastCode := r.code, absorbed := n }) r.code
  let s := if effRecord r.eff then addRecord s r.code r.detail r.drill else s
  if flush then beginFlush s else s

/-- A device reset begins to be prepared (R450, R464); one that is pending already stays. -/
def pendReset (s : State) (counted : Bool) : State :=
  if s.knl.resetPending then s
  else setKnl s { s.knl with resetPending := true, resetCounted := counted }

/-- A code whose effect is device reset, by state. -/
def deviceCode (s : State) (code : Word) (counted : Bool) : State :=
  if s.knl.resetPending then s
  else
    let s := pendReset s counted
    if s.sys.st = .running then endJob s code
    else preCollect (if s.sys.st = .armed then cancelRoundUp s else s) code

/-- R429, R454: what a collected code starts. -/
def applyEffect (s : State) (r : Raised) : State :=
  match r.eff with
  | .jobEnding =>
    if s.sys.st = .running then endJob s r.code
    else if s.sys.st = .armed then cancelRoundUp s
    else s
  | .device counted => deviceCode s r.code counted
  | _ => s

/-- R430: the Kennel collects the code that comes first. -/
def collect (s : State) : State :=
  match takeLeast s.knl.inflight with
  | none => s
  | some (r, rest) => applyEffect (recordCode (setKnl s { s.knl with inflight := rest }) r) r

/-- R430, R287, R296, R297: a code is collected, or a Kennel, Board or HBM error is detected. -/
def codeCollected (s : State) (d : Detected) : State :=
  if s.die = .off then s
  else match d with
    | .inFlight => collect s
    | .boardCorrected => raise s 0x06070001 .count
    | .boardUncorrectable n => killStrand (raise s 0x06070002 .jobEnding (d4 n.val)) n.val
    | .onDieCorrected => raise s 0x06060003 .count
    | .hbmCorrected stack pc page => if pcLive s (pcId stack pc) then memCorrected s stack pc page.toNat else s
    | .kennelCorrected => raise s 0x06010001 .count
    | .kennelUncorrectable => raise s 0x06010002 (.device true)

/-- R430. -/
def execCodeCollected (d : Detected) (s : State) : Host.Outcome State Fault Refusal := .next (codeCollected s d)

/-! ## Markers and job end (R233, R234, R238) -/

/-- A job-ending code is on its way to the Kennel. -/
def jobEnds (s : State) : Bool :=
  s.knl.inflight.any fun r => match r.eff with
    | .jobEnding | .device _ => true
    | _ => false

/-- Every participating strand's STATE is one of the given, and all its instructions have completed. -/
def allRest (s : State) (sts : List (BitVec 4)) : Bool :=
  (participating s).all fun n => sts.contains (strand s n).st && idle s n

/-- R233: every ring has p = c and every carry slot is Empty. -/
def markerOk (s : State) : Bool := s.str.rings.toList.all (fun r => r.p == r.c) && s.frm.slots.toList.all fun k => k.st == 0

/-- Steps 5 and 6 of R234: a SNAP that follows the snapshot strand's STEP comes before step 6 (R476). -/
def afterCommit (s : State) : State :=
  let x := strand s snapN
  let w := stepSnapWord s
  if x.st = 6 ∧ x.index.toNat + 1 < codeCount (img s) snapN ∧ decodeCheck snapN w = none ∧ wOp w = 0x10 then
    setSnp s { s.snp with step5 := true }
  else stepSix s []

/-- Steps 2 to 4 of R234. -/
def commitMarker (s : State) : State :=
  let m := s.str.marker + 1
  { s with str := { s.str with marker := m, markerTok := s.str.tok }, tet := { s.tet with shpMarker := m } }

/-- R233, R234: every participating strand is at STEP or has ended, and the marker is committed. -/
def markerCommit (s : State) : State :=
  if !running s || s.snp.step5 || jobEnds s || atStep s == 0 || !allRest s [6, 7] then s
  else if !markerOk s then raise s 0x0B050202 .jobEnding
  else
    let (s, stop) := ratioWatch s
    if stop then s else afterCommit (commitMarker s)

/-- R234. -/
def execMarkerCommit (s : State) : Host.Outcome State Fault Refusal := .next (markerCommit s)

/-- R238: every participating strand has ended. -/
def jobEnd (s : State) : State :=
  if !running s || jobEnds s || (participating s).isEmpty || !allRest s [7] then s
  else if !markerOk s then raise s 0x0B050202 .jobEnding
  else startTeardown (notify s .jobEnd 0) false

/-- R238. -/
def execJobEnd (s : State) : Host.Outcome State Fault Refusal := .next (jobEnd s)

/-! ## The job-context reset (Table 6-9) -/

/-- The buffers of the COLL frames that no engine has used are free again (R339). -/
def freeInbox (s : State) : State := s.col.inbox.foldl (fun s f => freeBuffers s f.lead 1 f.frames) s

/-- The Board and the context state are scrubbed, and no program is loaded. -/
def scrubContext (s : State) : State :=
  let s := discardProgram (freeInbox s)
  { s with
    frm := { s.frm with slots := Vector.replicate 16 {}, ops := [], rotated := false, replay := false, hold := false }
    edg := { s.edg with ops := [], throttle := false, outWait := false }
    rod := { s.rod with mem := Vector.replicate 16 [], norm := [], throttle := 0 }
    str := { s.str with teardown := .scrubbed, markerTok := [] }
    brd := { s.brd with mem := [], check := [], tposeReq := 0, scrub := true }
    col := { s.col with eng := Vector.replicate 8 none, bound := [], planSeq := [], inbox := [] }
    lead := { s.lead with delivered := [] } }

/-- R245: the old generation's transactions have completed. -/
def execTeardownDrained (s : State) : Host.Outcome State Fault Refusal :=
  .next (if s.str.teardown = .draining then scrubContext s else s)

/-- R246: one is still outstanding after 200 us: the reset becomes a device reset. -/
def execTeardownDrainTimeout (s : State) : Host.Outcome State Fault Refusal :=
  .next (if s.str.teardown = .draining then pendReset s true else s)

/-- R573: the job's keys and the kept certificates are destroyed. -/
def destroyJobKey (s : State) : State :=
  let s := dropLeadKeys s
  failLoad { s with sec := { s.sec with job := none, peers := [] } }

/-- A new idle memory key is drawn (R573): what HBM held cannot be read any more, and is overwritten with zero. -/
def newIdleKey (s : State) : State :=
  let (n, s) := draw s
  clearHbm { s with sec := { s.sec with idleKey := n } }

/-- Table 6-9: the keys are destroyed, and the HBM overwrite begins unless a device reset takes its place. -/
def contextReset (s : State) : State :=
  let s := newIdleKey (destroyJobKey s)
  { s with str := { s.str with teardown := .none, scrub := !s.knl.resetPending }, brd := { s.brd with scrub := false } }

/-- R245. -/
def execContextResetDone (s : State) : Host.Outcome State Fault Refusal :=
  .next (if s.str.teardown = .scrubbed then contextReset s else s)

/-- R450: 10 ms have passed. -/
def execContextResetOverrun (s : State) : Host.Outcome State Fault Refusal :=
  .next (if s.str.teardown = .none then s else raise s 0x05010003 (.device true))

/-- The end of teardown: HOLDING, or WITHDRAWN where the Frame has no width class (R81). -/
def teardownEnds (s : State) : State :=
  let s := [2, 3, 6, 7].foldl drillHandled s
  let s := setKnl s { s.knl with stallReset := none }
  if s.knl.withdrawAtEnd then
    let s := setKnl s { s.knl with withdrawAtEnd := false }
    goState (if isWithdrawn s then s else raise s 0x0D010002 .event) .withdrawn
  else goState s .holding

/-- Table 6-9, R568, R615: an HBM overwrite has ended. -/
def hbmScrubComplete (s : State) : State :=
  if !s.str.scrub || s.die == .off then s
  else
    let s := clearHbm { s with str := { s.str with scrub := false } }
    if s.sys.st = .draining then (if s.str.teardown = .none then teardownEnds s else s)
    else if s.sys.st = .boot then { s with boot := { s.boot with overwrite := true } }
    else s

/-- R245. -/
def execHbmScrubComplete (s : State) : Host.Outcome State Fault Refusal := .next (hbmScrubComplete s)

/-! ## The wait-cycle detector (R446 to R448) -/

/-- Does an instruction of strand n's unit go on while another of the unit is held: a Frame pass that lands (R62), a drain or
sweep in its tail (R106)? -/
def goesOn (s : State) (n : Nat) : Bool :=
  if n = 0 then s.frm.ops.any fun op => !op.dead && !op.landing.isEmpty
  else n == 1 && s.edg.ops.any fun op => !op.dead && decide (op.phase = .tail)

/-- Is strand n issuing, or its unit executing, or is either held for energy credits (R447)? A ring or carry-slot hold of an
instruction in flight is a wait whatever the strand's next instruction does (R446). -/
def hangBusy (s : State) (n : Nat) : Bool :=
  let x := strand s n
  goesOn s n || creditHeld s n ||
  (decide (x.hold = 0) && !x.dead && (!x.inflight.isEmpty || (x.phase == .begun && x.st == 1)))

/-- Does strand n wait: on a token, an instruction word, a ring, a carry slot, or the marker? -/
def hangWaits (s : State) (n : Nat) : Bool :=
  let x := strand s n
  !hangBusy s n && ((decide (x.hold ≠ 0) && (!x.inflight.isEmpty || !halted s n)) ||
    (!halted s n && (x.st == 2 || x.st == 6 || x.phase == .fetch)))

/-- Does strand n wait on a host token? -/
def waitsHost (s : State) (n : Nat) : Bool :=
  hangWaits s n && (strand s n).st == 2 && tokHost (img s) (wWtok (strand s n).word)

/-- A Fetch, collective or snapshot transaction of the job is outstanding. -/
def outstanding (s : State) : Bool :=
  copying s || (participating s).any fun n => ((2 ≤ n && n ≤ 17) || 34 ≤ n) && !idle s n

/-- The wait condition of R447. -/
def waitCondition (s : State) : Bool :=
  let ns := participating s
  !ns.any (hangBusy s) && ns.any (hangWaits s) && !ns.any (waitsHost s) && !outstanding s

/-- R447: one check. -/
def hangCheck (s : State) : State :=
  if running s && !s.snp.step5 then
    let c := waitCondition s
    setKnl s { s.knl with waitCond := c, waitUs := if c then s.knl.waitUs + 1 else 0 }
  else s

/-- R447. -/
def execHangCheck (s : State) : Host.Outcome State Fault Refusal := .next (hangCheck s)

/-- THRESHOLD_US within its limits (R466). -/
def hangLimit (s : State) : Nat := max 20 (min 10000 s.knl.hangCfg.toNat)

/-- The waiting strands. -/
def hangStrands (s : State) : List Nat := (participating s).filter (hangWaits s)

/-- R447: the condition has held for THRESHOLD_US. -/
def hangThreshold (s : State) : State :=
  if running s && s.knl.waitCond && decide (hangLimit s ≤ s.knl.waitUs) then
    let ns := hangStrands s
    let w := (strand s (ns.headD 0)).word
    raise s 0x05010001 .jobEnding (d8 (ns.foldl (fun a n => a + 2 ^ n) 0) ++ d4 (wWtok w) ++ d4 (wWcnt w))
  else s

/-- R447. -/
def execHangThreshold (s : State) : Host.Outcome State Fault Refusal := .next (hangThreshold s)

/-! ## Heartbeats and island resets (R449, R312, R451) -/

/-- How many heartbeats in a row an island has missed. -/
def missedBeats (s : State) (i : Island) : Nat := ((s.knl.missed.find? fun m => m.1 == i).map Prod.snd).getD 0

/-- R449: a heartbeat; every island that answers starts over. -/
def heartbeat (s : State) (missing : List Island) : State :=
  if s.die = .off then s
  else setKnl s { s.knl with missed := missing.eraseDups.map fun i => (i, missedBeats s i + 1) }

/-- R449. -/
def execHeartbeat (missing : List Island) (s : State) : Host.Outcome State Fault Refusal := .next (heartbeat s missing)

/-- Is a stall of this island handled by an island reset (Table 12-8)? -/
def islandAbsorbed : Island → Bool
  | .phy _ | .leadGroup _ | .tether => true
  | _ => false

/-- R449: an island has stalled. -/
def islandStall (s : State) (i : Island) (stopFailed : Bool) : State :=
  if s.die = .off || !(stopFailed || decide (4 ≤ missedBeats s i)) || s.knl.stalled.contains i then s
  else
    let s := setKnl s { s.knl with missed := s.knl.missed.filter fun m => m.1 != i }
    if islandAbsorbed i then raise (setKnl s { s.knl with stalled := s.knl.stalled ++ [i] }) 0x05010002 .absorbed
    else if s.knl.stallReset = some i ∧ s.str.teardown ≠ .none then raise s 0x05010002 (.device true)
    else raise (setKnl s { s.knl with stallReset := some i }) 0x05010002 .jobEnding

/-- R449. -/
def execIslandStall (i : Island) (stopFailed : Bool) (s : State) : Host.Outcome State Fault Refusal := .next (islandStall s i stopFailed)

/-- After a Tether island's reset every session sends again from its oldest frame, each frame counted (R427, Table 12-8). -/
def tetherIslandReset (s : State) : State :=
  [(0, false), (0, true), (1, false), (1, true)].foldl (fun s (l : Nat × Bool) =>
    let x := sess s l.1 l.2
    addRetry (setSess s l.1 l.2 { x with resend := x.sent.head?.map Prod.fst }) l.1 x.sent.length) s

/-- R312, R451, R453: a stalled island is reset. -/
def islandReset (s : State) (i : Island) : State :=
  if !s.knl.stalled.contains i then s
  else
    let s := setKnl s { s.knl with stalled := s.knl.stalled.filter (· != i) }
    match i with
    | .phy st => drillHandled ((List.finRange 32).foldl (fun s pc => pcRetrain s st pc) s) 4
    | .leadGroup g => groupReset s g.val
    | .tether => tetherIslandReset s
    | _ => s

/-- R453. -/
def execIslandReset (i : Island) (s : State) : Host.Outcome State Fault Refusal := .next (islandReset s i)

/-! ## The device reset (R450, R453, R459) -/

/-- LIMIT within its range (R470). -/
def resetLimit (s : State) : Nat := max 2 (min 8 s.knl.limit.toNat)

/-- R459: a counted reset enters the record; the one that reaches LIMIT withdraws the device. -/
def escalate (s : State) : State :=
  if !s.knl.resetCounted then s
  else
    let s := setKnl s { s.knl with resets := (s.shp.time :: s.knl.resets).take 8 }
    if resetLimit s ≤ (windowResets s).length ∧ ¬s.knl.withdrawn then
      let fresh := !isWithdrawn s
      let s := raise (setKnl s { s.knl with withdrawn := true }) 0x0D010001 .event
      if fresh then raise s 0x0D010002 .event else s
    else s

/-- Codes in ascending order of unit and code (R430). -/
def inOrder : (fuel : Nat) → List Raised → List Raised
  | 0, _ => []
  | k + 1, rs =>
    match takeLeast rs with
    | none => []
    | some (r, rest) => r :: inOrder k rest

/-- Codes that have not been collected are recorded before the compute die resets, in the order of R430. -/
def drainCodes (s : State) : State :=
  (inOrder s.knl.inflight.length s.knl.inflight).foldl recordCode (setKnl s { s.knl with inflight := [] })

/-- What a link keeps over a reset of the compute die: its state, its Shepherd session. -/
def linkKept (x : TLink) : TLink := { up := x.up, shp := x.shp }

/-- The compute die is reset and unpowered: every unit at its reset values but for what MRAM and the Shepherd keep. -/
def resetDie (s : State) : State :=
  { s with
    sys := {}, die := .off
    knl := { resets := s.knl.resets, withdrawn := s.knl.withdrawn, limit := s.knl.limit, windowH := s.knl.windowH,
             prcSample := s.knl.prcSample, prcLine := s.knl.prcLine, preReset := s.knl.preReset }
    frm := { rowFail := s.frm.rowFail, colFail := s.frm.colFail, retired := s.frm.retired, noWidth := s.frm.noWidth,
             rowMap := s.frm.rowFail, colMap := s.frm.colFail }
    edg := {}, rod := {}, str := {}, ld := {}
    mem := { live := s.mem.live, qualified := s.mem.qualified, extRate := s.mem.extRate }
    brd := {}
    lead := { selfId := s.lead.selfId, plan := s.lead.plan, expect := s.lead.expect }
    col := {}, tim := {}
    tet := { link := s.tet.link.map linkKept, period := if s.die = .serving then s.tet.period + 1 else s.tet.period,
             serial := if s.die = .serving then 0 else s.tet.serial, shpMarker := s.tet.shpMarker, shpJob := s.tet.shpJob }
    snp := { drillEnable := s.snp.drillEnable, drillPeriod := s.snp.drillPeriod, drillTime := s.snp.drillTime,
             drillKind := s.snp.drillKind, drillValid := s.snp.drillValid, drillLast := s.snp.drillLast }
    gov := { ucal := s.gov.ucal, ucalEnable := s.gov.ucalEnable }
    sec := { s.sec with eph := none, job := none, peers := [], event := 0 }
    shp := { s.shp with mirror := BitVec.ofNat 32 (sysWord s), on := 0, requested := 0, ramping := 0 }
    tly := { s.tly with buffer := [], flushing := false, die := {}, passed := s.tly.next }
    boot := {} }

/-- R450: the device reset that is being prepared; after PWR_FAIL_N it waits for the release of the pin (R538), and its flush for a
Shepherd that restarts (R515). -/
def deviceReset (s : State) : State :=
  if !s.knl.resetPending || s.die == .off || s.shp.pwrFail || s.shp.restarting then s
  else resetDie (flushNow (drainCodes (escalate s)))

/-- R450. -/
def execDeviceReset (s : State) : Host.Outcome State Fault Refusal := .next (deviceReset s)

/-! ## Thermal bands (R434, R435) -/

/-- The band of a temperature in whole °C. -/
def bandOf (t : Int) : Nat := if t < 75 then 0 else if t < 85 then 1 else if t < 95 then 2 else 3

/-- The lower bound of a band above 0. -/
def bandBound (b : Nat) : Int := 65 + 10 * (b : Int)

/-- A change of band: d is 0 in band 3 (R434). -/
def setBand (s : State) (b : Nat) (t : BitVec 8) : State :=
  raise (setKnl s { s.knl with band := BitVec.ofNat 2 b, temp := t, d := if b = 3 then 0 else s.knl.d }) 0x09010001 .count

/-- R435: the temperature has reached a higher band. -/
def bandRise (s : State) (t : BitVec 8) : State :=
  if s.die ≠ .off ∧ s.knl.band.toNat < bandOf t.toInt then setBand s (bandOf t.toInt) t else s

/-- R435. -/
def execBandRise (tempC : BitVec 8) (s : State) : Host.Outcome State Fault Refusal := .next (bandRise s tempC)

/-- R435: the temperature has stayed 3 °C below the band's lower bound for 1 ms. -/
def bandFall (s : State) (t : BitVec 8) : State :=
  let b := s.knl.band.toNat
  if s.die ≠ .off ∧ 0 < b ∧ t.toInt ≤ bandBound b - 3 then setBand s (b - 1) t else s

/-- R435. -/
def execBandFall (tempC : BitVec 8) (s : State) : Host.Outcome State Fault Refusal := .next (bandFall s tempC)

end Sys2Proof.Machine
end

