-- ==== Sys2Proof/Machine/Startup.lean ====
section
/-!
DEFINITION. Package start-up, release and device start-up, the rails and power failure (spec/17; spec/18 R625 to R634; spec/14 R514,
R516, R530, R531, R538; spec/15 R561, R566, R567, R573).
-/
namespace Sys2Proof.Machine

/-- The Shepherd's state replaced. -/
def setShp (s : State) (h : Shp) : State := { s with shp := h }

/-- The secrecy state replaced. -/
def setSec (s : State) (c : Sec) : State := { s with sec := c }

/-- R561: a new challenge is drawn. -/
def newChallenge (s : State) : State :=
  let (n, s) := draw s
  setSec s { s.sec with challenge := (Config.draw n).setWidth 128 }

/-! ## Secure boot (R566, R567) -/

/-- Slot B (true) or A of firmware kind 0 (Shepherd) or 1 (Kerrin). -/
def fwSlot (s : State) (kind : Nat) (b : Bool) : FwSlot := vget s.sec.fw (2 * kind + b2n b) {}

/-- The image of a slot verifies: its signature, and an SVN that is not below the counter. -/
def fwOk (s : State) (kind : Nat) (b : Bool) : Bool := (fwSlot s kind b).svn.any fun v => decide (vget s.sec.svn kind 0 ≤ v)

/-- The slot that runs, and the SVN found at its boot. -/
def runFw (s : State) (kind : Nat) (b : Bool) : State :=
  setSec s { s.sec with fwRun := vset s.sec.fwRun kind b, bootSvn := vset s.sec.bootSvn kind ((fwSlot s kind b).svn.getD 0) }

/-- An image is refused. -/
def imageRefused (s : State) : State := raise s 0x0A0E0004 .event

/-- R566: the selected slot boots, else the other; whether one did. -/
def bootFw (s : State) (kind : Nat) : State × Bool :=
  let sel := vget s.sec.fwSel kind false
  if fwOk s kind sel then (runFw s kind sel, true)
  else
    let s := imageRefused s
    if fwOk s kind (!sel) then (runFw s kind (!sel), true)
    else (imageRefused (setSec s { s.sec with fwRun := vset s.sec.fwRun kind sel }), false)

/-- R567: a counter rises to the SVN of the image that has succeeded. -/
def raiseSvn (s : State) (k : Nat) : State :=
  setSec s { s.sec with svn := vmodify s.sec.svn k fun v => BitVec.ofNat 32 (max v.toNat (vget s.sec.bootSvn k 0).toNat) }

/-- The factory calibration tables verify (R566). -/
def calVerifies (s : State) : Bool := s.sec.calSvn.any fun v => decide (vget s.sec.svn 2 0 ≤ v)

/-- The factory calibration tables are verified. -/
def bootCal (s : State) : State :=
  if calVerifies s then
    setShp (setSec s { s.sec with bootSvn := vset s.sec.bootSvn 2 (s.sec.calSvn.getD 0) }) { s.shp with calOk := true }
  else imageRefused s

/-! ## Package start-up (R611, Table 17-1) -/

/-- What the Shepherd keeps over a package reset: MRAM, its clock, the pins that it samples, the rail and thermal holds. -/
def shpKept (h : Shp) : Shp :=
  { standby := h.standby, time := h.time, saved := h.saved, pos := h.pos, leashEn := h.leashEn, epoch := h.epoch,
    epochSeen := h.epochSeen, tech := h.tech, replace := h.replace, mirror := h.mirror, thermalHold := h.thermalHold,
    pwrFail := h.pwrFail, railFault := h.railFault, held := h.held }

/-- A package start-up begins: every session ends, debug is locked, and the Shepherd boots. -/
def packageStart (s : State) : State :=
  let s := { s with
    shp := { shpKept s.shp with kerrinOk := true }
    sec := { s.sec with event := 0, debug := false, debugPending := false }
    mem := { s.mem with extRate := false }
    tet := { s.tet with link := Vector.replicate 2 {} }
    tly := { s.tly with side := {} } }
  let (s, ok) := bootFw (newChallenge s) 0
  if ok then bootCal s else setShp s { s.shp with rom := true }

/-- R516: LEASH_EN at position 2 or 3. -/
def checkStraps (s : State) : State := if strapErr s then raise s 0x0D0F0006 .event else s

/-- R514, R516, R611: the standby rail becomes good. -/
def standbyPowerGood (s : State) (pos : BitVec 2) (leashEn : Bool) (images : Vector (Option (BitVec 32)) 5) : State :=
  if s.shp.standby then s
  else
    let s := setShp s { s.shp with standby := true, time := s.shp.saved + 1000000, pos := pos, leashEn := leashEn }
    let s := setSec s { s.sec with
      fw := Vector.ofFn fun i : Fin 4 => { s.sec.fw[i] with svn := images[i.val] }, calSvn := images[4] }
    checkStraps (packageStart s)

/-- R611. -/
def execStandbyPowerGood (pos : BitVec 2) (leashEn : Bool) (images : Vector (Option (BitVec 32)) 5) (s : State) :
    Host.Outcome State Fault Refusal := .next (standbyPowerGood s pos leashEn images)

/-- Table 12-10: the compute die and the Shepherd are reset; the Tally is flushed first (R450). -/
def packageReset (s : State) : State :=
  packageStart (if s.die = .off then s else resetDie (flushNow (drainCodes s)))

/-! ## Release (R612, R613) -/

/-- The conditions of R612 but for the rails, which the sender of COMPUTE_DIE_RELEASE answers for (R612, log 5). -/
def releaseOk (s : State) : Bool :=
  s.shp.standby && s.shp.serving && s.die == .off && s.shp.calOk && s.sec.owner.isSome && s.shp.kerrinOk &&
  s.shp.thermalHold.isNone && !s.shp.pwrFail

/-- R613: the lead groups that hold a lane of a configured lead. -/
def groupUsed (s : State) (g : Nat) : Bool :=
  allLeads.any fun i => decide (planMask s i &&& groupMask g ≠ 0)

/-- R613: the domains that ramp at release. -/
def startDomains (s : State) : BitVec 50 :=
  domMask (List.range 22 ++ [30, 31, 32, 33, 34, 47] ++
    ((List.range 8).filter (fun st => vget s.mem.live st 0 != 0)).map (35 + ·) ++
    ((List.range 4).filter (groupUsed s)).map (43 + ·))

/-- R326: the lead plan is read. -/
def readPlan (s : State) : State :=
  { s with lead := { s.lead with activeId := s.lead.selfId, planUse := s.lead.plan, expectUse := s.lead.expect } }

/-- A device start-up begins: BOOT, a new service period (R403), and the domains (Table 17-2).
SYS_STATE.REPLACE starts as the Shepherd holds the replace request (DESIGN CHOICE, log 36). -/
def releaseDie (s : State) : State :=
  let s := { readPlan s with
    die := .released
    sys := { replace := s.shp.replace }
    boot := {}
    tet := { s.tet with period := s.tet.period + 1, serial := 0, link := s.tet.link.map fun x => { x with lost := false, retry := 0 } } }
  let s := raiseSvn s 2
  requestDomains (setShp s { s.shp with on := domMask [48, 49] }) (startDomains s)

/-- R612: the release; it waits while the rails have come up out of order (R632) and while both Kerrin slots are refused. -/
def computeDieRelease (s : State) : State :=
  if !releaseOk s || s.shp.railFault then s
  else
    let (s, ok) := bootFw s 1
    if ok then releaseDie s else setShp s { s.shp with kerrinOk := false }

/-- R612. -/
def execComputeDieRelease (s : State) : Host.Outcome State Fault Refusal := .next (computeDieRelease s)

/-! ## Device start-up (Table 17-2) -/

/-- Lead bring-up begins once the Kerrin firmware serves and every domain of R613 is on (R329). -/
def beginBringUp (s : State) : State :=
  if s.sys.st == .boot && s.die == .serving && s.shp.requested == 0 && !s.lead.discovered && !s.lead.discovering then
    beginDiscovery s
  else s

/-- R290: the data rate of this start-up. -/
def chooseRate (s : State) : State :=
  let ok := s.mem.extRate && s.mem.qualified == 0xFF
  let s := { s with mem := { s.mem with extActive := ok } }
  if s.mem.extRate && !ok then raise s 0x06060007 .event else s

/-- R7, R561, R573: the Kerrin firmware serves; an idle memory key and a challenge are drawn. -/
def kerrinServing (s : State) : State :=
  if s.die = .released then
    beginBringUp (chooseRate (newChallenge (newIdleKey { s with die := .serving })))
  else s

/-- R7. -/
def execKerrinFirmwareServing (s : State) : Host.Outcome State Fault Refusal := .next (kerrinServing s)

/-- A domain that has come on: a Rods pair that no loaded program needs is gated (spec/05, R206). -/
def settleDomain (s : State) (d : Nat) : State :=
  if 22 ≤ d ∧ d ≤ 29 then
    let p := d - 22
    let s := if bitOf s.str.disable.toNat p then s
      else { s with str := { s.str with disabled := s.str.disabled &&& ~~~BitVec.ofNat 32 (2 ^ p) } }
    if pairNeeded s p then s else gateDomains s (domMask [d])
  else s

/-- R531: a ramping domain reports power-good. -/
def domainPowerGood (s : State) (d : Nat) : State :=
  if s.shp.ramping.getLsbD d then
    let m := domMask [d]
    let s := startRamps (setShp s { s.shp with
      on := s.shp.on ||| m, requested := s.shp.requested &&& ~~~m, ramping := s.shp.ramping &&& ~~~m })
    beginBringUp (settleDomain s d)
  else s

/-- R531. -/
def execDomainPowerGood (d : Fin 50) (s : State) : Host.Outcome State Fault Refusal := .next (domainPowerGood s d.val)

/-- R622: a requested domain is not power-good after 1 ms. -/
def domainPgTimeout (s : State) (d : Nat) : State :=
  if s.shp.ramping.getLsbD d && s.die != .off then raise s 0x090F0004 (.device true) (d4 d) else s

/-- R622. -/
def execDomainPgTimeout (d : Fin 50) (s : State) : Host.Outcome State Fault Refusal := .next (domainPgTimeout s d.val)

/-- R614, R615: training has ended; the overwrite begins unless no pseudo-channel is left. -/
def hbmTrainingDone (s : State) (failed : List (Fin 8 × Fin 32)) : State :=
  if s.sys.st ≠ .boot ∨ s.die ≠ .serving ∨ s.boot.trained then s
  else
    let s := failed.foldl (fun s f => loseChannel s (pcId f.1 f.2)) s
    let s := { s with boot := { s.boot with trained := true } }
    if livePcs s = 0 then raise { s with boot := { s.boot with noPc := true } } 0x06060008 .event
    else { s with str := { s.str with scrub := true } }

/-- R614. -/
def execHbmTrainingDone (failed : List (Fin 8 × Fin 32)) (s : State) : Host.Outcome State Fault Refusal :=
  .next (hbmTrainingDone s failed)

/-- R616: the three stages have completed. -/
def bootDone (s : State) : Bool :=
  s.sys.st == .boot && s.die == .serving && s.boot.beadTest && (s.boot.overwrite || s.boot.noPc) && s.lead.discovered

/-- R616: the device withdraws. -/
def bootWithdraws (s : State) : Bool := s.knl.withdrawn || s.frm.noWidth || s.boot.noPc

/-- R461: a cause of DEGRADED holds. -/
def degradedNow (s : State) : Bool := s.frm.retired.isSome || decide (livePcs s < 256) || s.knl.repTether || s.knl.repLead

/-- R616: a Tether link that is not up has not come up (R461, R462). -/
def settleTether (s : State) : State :=
  if !s.knl.repTether && !((linkAt s 0).up && (linkAt s 1).up) then
    raise (setKnl s { s.knl with repTether := true }) 0x0D010002 .event
  else s

/-- R616: the device leaves BOOT; DEGRADED is settled in the same change. -/
def leaveBoot (s : State) : State :=
  let s := settleTether s
  let wd := bootWithdraws s
  let s := if wd && !isWithdrawn s then raise s 0x0D010002 .event else s
  let deg := degradedNow s
  let s := sysChange s (if wd then .withdrawn else .holding) deg s.sys.drill (deg || wd)
  if wd then s else raiseSvn s 1

/-- R616. -/
def execBootExit (s : State) : Host.Outcome State Fault Refusal := .next (if bootDone s then leaveBoot s else s)

/-- R617: 400 ms after release. -/
def execStartupTimeout (s : State) : Host.Outcome State Fault Refusal :=
  .next (if s.die ≠ .off ∧ s.sys.st = .boot then raise s 0x05010004 (.device true) else s)

/-! ## Rails and power (R538, R619, R622, R632 to R634) -/

/-- Table 17-3: the main rails are not good 5 s after the other conditions of R612. -/
def railsLate (s : State) : State :=
  if releaseOk s && !s.shp.railsLate then raise (setShp s { s.shp with railsLate := true }) 0x090F0003 .event else s

/-- R622. -/
def execRailsLate (s : State) : Host.Outcome State Fault Refusal := .next (railsLate s)

/-- R632: the main rails come up out of order. -/
def railOrderFault (s : State) (step : BitVec 32) : State :=
  if s.shp.standby && s.die == .off then raise (setShp s { s.shp with railFault := true }) 0x090F0005 .event (d4 step.toNat) else s

/-- R632. -/
def execRailOrderFault (step : BitVec 32) (s : State) : Host.Outcome State Fault Refusal := .next (railOrderFault s step)

/-- The compute die loses its power: what the Kennel's buffer held is lost, and the series goes on from the number that the
Shepherd knows (R535, R633, log 32). -/
def losePower (s : State) : State :=
  { resetDie s with tly := { s.tly with buffer := [], flushing := false, die := {}, next := s.tly.passed } }

/-- R633: without PWR_FAIL_N the Shepherd records the code itself, and the reset is counted. -/
def railFault (s : State) (rail mv : BitVec 32) : State :=
  let s := losePower (preCollect s 0x090F0006)
  let s := raise s 0x090F0006 (.device true) (d4 rail.toNat ++ d4 mv.toNat)
  let s := escalate (setKnl s { s.knl with resetCounted := true })
  setKnl s { s.knl with resetCounted := false }

/-- R632, R633, R538: a main rail is out of range. -/
def railOutOfRange (s : State) (rail mv : BitVec 32) : State :=
  if s.die = .off then setShp s { s.shp with railFault := false }
  else if s.shp.pwrFail then losePower s
  else railFault s rail mv

/-- R633. -/
def execRailOutOfRange (rail mv : BitVec 32) (s : State) : Host.Outcome State Fault Refusal := .next (railOutOfRange s rail mv)

/-- R514: Shepherd time is saved. -/
def saveTime (s : State) : State := setShp s { s.shp with saved := s.shp.time }

/-- R538, R619: PWR_FAIL_N is asserted. -/
def powerFail (s : State) : State :=
  if !s.shp.standby || s.shp.pwrFail then s
  else
    let s := saveTime (setShp s { s.shp with pwrFail := true })
    if s.die = .off then s else raise s 0x090F0001 (.device false)

/-- R538. -/
def execPowerFail (s : State) : Host.Outcome State Fault Refusal := .next (powerFail s)

/-- R619, R626: PWR_FAIL_N is released. -/
def execPowerFailRelease (s : State) : Host.Outcome State Fault Refusal := .next (setShp s { s.shp with pwrFail := false })

/-- R634: standby power is lost; nothing but MRAM is left. -/
def vstbyLoss (s : State) : State :=
  if !s.shp.standby then s
  else
    let s := saveTime s
    let s := if s.die = .off then s else losePower s
    { s with
      shp := { shpKept s.shp with standby := false, pwrFail := false, railFault := false }
      sec := { s.sec with event := 0, debug := false, debugPending := false }
      tet := { s.tet with link := Vector.replicate 2 {} }
      tly := { s.tly with side := {} } }

/-- R634. -/
def execVstbyLoss (s : State) : Host.Outcome State Fault Refusal := .next (vstbyLoss s)

/-- R514. -/
def execShepherdTimeSave (s : State) : Host.Outcome State Fault Refusal := .next (if s.shp.standby then saveTime s else s)

end Sys2Proof.Machine
end

