-- ==== Sys2Proof/Machine/Shepherd.lean ====
section
/-!
DEFINITION. The Shepherd: its restart, the leash and the fencing epoch, the tray bus, the tech page, telemetry, the thermal trip
(spec/14 R515 to R533; spec/15 R578; spec/18 R638), and the pins and the test port (spec/15 R574; spec/18 R627, R629, R636).
-/
namespace Sys2Proof.Machine

/-! ## Restart (R515) -/

/-- R515: the watchdog expires: LEASH_O stops, and the firmware restarts. -/
def shepherdWatchdog (s : State) : State :=
  if s.shp.serving then setShp s { s.shp with serving := false, restarting := true, drivers := false } else s

/-- R515. -/
def execShepherdWatchdog (s : State) : Host.Outcome State Fault Refusal := .next (shepherdWatchdog s)

/-- start() of R521. -/
def leashStart (s : State) : Leash :=
  if !eligible s then .ineligible else if s.shp.pos = 0 then .watch else .standby

/-- R515, R521: the firmware serves, and the leash state machine starts. -/
def shepherdServing (s : State) : State :=
  if !s.shp.standby || s.shp.serving || s.shp.rom then s
  else
    let again := s.shp.restarting
    let s := setShp s { s.shp with
      serving := true, restarting := false, leash := leashStart s, drivers := false, peerOk := 0, roleRequested := false }
    if again then raise s 0x0D0F0003 .event else s

/-- R515. -/
def execShepherdServing (s : State) : Host.Outcome State Fault Refusal := .next (shepherdServing s)

/-! ## The leash (R517 to R525) -/

/-- The Shepherd serves and its leash stands so. -/
def leashIs (s : State) (l : Leash) : Bool := s.shp.serving && s.shp.leash == l

/-- LEASH_O toggles; the drivers are enabled again (R518). -/
def toggle (s : State) : State := setShp s { s.shp with leashO := !s.shp.leashO, drivers := true }

/-- R519: the higher of the own epoch and the highest seen. -/
def epochTop (s : State) : Nat := max s.shp.epoch.toNat s.shp.epochSeen.toNat

/-- R519: the epoch is raised, saved and broadcast. -/
def raiseEpoch (s : State) : State :=
  let e := BitVec.ofNat 32 (epochTop s + 1)
  setShp s { s.shp with epoch := e, epochSeen := e, broadcast := some (e, s.shp.pos), stale := false }

/-- R519: the leash is taken, unless the epoch is exhausted. -/
def takeLeash (s : State) (f : State → State) : State :=
  if epochTop s = 0xFFFFFFFF then raise s 0x0D0F0006 .event
  else
    let s := raiseEpoch (toggle s)
    f (setShp s { s.shp with leash := .active })

/-- LEASH_O stops, and the Shepherd is in STANDBY. -/
def stopLeash (s : State) : State := setShp s { s.shp with leash := .standby, drivers := false, roleRequested := false }

/-- R517: the holder's period boundary; a Shepherd under a SHEPHERD drill renews no lease (R525). -/
def leashToggle (s : State) : State := if leashIs s .active && !drilling s 5 then toggle s else s

/-- R517. -/
def execLeashToggle (s : State) : Host.Outcome State Fault Refusal := .next (leashToggle s)

/-- R518: the own LEASH_O has not toggled for 6 us; under a drill the lease then lapses: position 0 watches, position 1 stands
by (R525). -/
def leashSelfFence (s : State) : State :=
  if s.shp.leash ≠ .active then s
  else
    let s := setShp s { s.shp with drivers := false }
    if !drilling s 5 then s
    else if s.shp.pos = 0 then setShp s { s.shp with leash := .watch, peerOk := 0 }
    else endDrill (stopLeash s)

/-- R518. -/
def execLeashSelfFence (s : State) : Host.Outcome State Fault Refusal := .next (leashSelfFence s)

/-- R522: the peer's lease and the guard have lapsed; a Shepherd that does not hold the leash takes it. A drilled position 0 that
finds no holder has handled its drill (R525). -/
def leashLapse (s : State) : State :=
  let s := setShp s { s.shp with peerOk := 0 }
  if leashIs s .standby || leashIs s .watch || leashIs s .claiming then
    takeLeash s fun s => drillHandled (raise s 0x0D0F0001 .absorbed) 5
  else s

/-- R522. -/
def execLeashLapse (s : State) : Host.Outcome State Fault Refusal := .next (leashLapse s)

/-- R517, R521: an edge of the peer; 2 us ± 0.25 us apart is a healthy period. -/
def leashPeerEdge (s : State) (interval : Nat) (epochSeen : BitVec 32) : State :=
  if !eligible s then s
  else
    let n := if 1750 ≤ interval ∧ interval ≤ 2250 then s.shp.peerOk + 1 else 0
    setShp s { s.shp with peerOk := n, epochSeen := BitVec.ofNat 32 (max s.shp.epochSeen.toNat epochSeen.toNat) }

/-- R517. -/
def execLeashPeerEdge (interval : Nat) (epochSeen : BitVec 32) (s : State) : Host.Outcome State Fault Refusal :=
  .next (leashPeerEdge s interval epochSeen)

/-- 10 s have passed since the last reclaim (R521). -/
def reclaimDue (s : State) : Bool := s.shp.lastReclaim.all fun t => decide (t.toNat + 10000000 ≤ s.shp.time.toNat)

/-- R523: position 0 sends its role request; at position 1, that request arrives at the holder. -/
def roleRequest (s : State) : State :=
  if leashIs s .watch && decide (3 ≤ s.shp.peerOk) && reclaimDue s then setShp s { s.shp with leash := .claiming }
  else if leashIs s .active && s.shp.pos == 1 then setShp s { s.shp with roleRequested := true }
  else s

/-- R523. -/
def execRoleRequest (s : State) : Host.Outcome State Fault Refusal := .next (roleRequest s)

/-- R523: the role passes: position 0 takes the leash by reclaim, position 1 stands by. -/
def getacccr (s : State) : State :=
  if leashIs s .claiming then
    takeLeash s fun s => drillHandled (raise (setShp s { s.shp with lastReclaim := some s.shp.time }) 0x0D0F0002 .event) 5
  else if leashIs s .active && s.shp.pos == 1 && s.shp.roleRequested then stopLeash s
  else s

/-- R523. -/
def execGetacccr (s : State) : Host.Outcome State Fault Refusal := .next (getacccr s)

/-- R521, R523: not granted in 16 us. -/
def execClaimTimeout (s : State) : Host.Outcome State Fault Refusal :=
  .next (if leashIs s .claiming then setShp s { s.shp with leash := .watch, peerOk := 0 } else s)

/-- R524: position 1 sees two holders. -/
def leashYield (s : State) : State :=
  if leashIs s .active && s.shp.pos == 1 && decide (2 ≤ s.shp.peerOk) then raise (stopLeash s) 0x0D0F0007 .event else s

/-- R524. -/
def execLeashYield (s : State) : Host.Outcome State Fault Refusal := .next (leashYield s)

/-! ## The tray bus (R520, R528, R529) -/

/-- R520: an actuator refuses a stale epoch. -/
def actuatorRefused (s : State) : State :=
  if leashIs s .active && !s.shp.stale then raise (setShp s { s.shp with stale := true }) 0x0D0F0004 .event else s

/-- R520. -/
def execActuatorRefused (s : State) : Host.Outcome State Fault Refusal := .next (actuatorRefused s)

/-- R528: a transfer of the holder fails its parity. -/
def trayBusParity (s : State) (resendFails : Bool) : State :=
  if leashIs s .active then
    let s := raise (setShp s { s.shp with busParity := satAdd32 s.shp.busParity 1 }) 0x0D0F0005 .count
    if resendFails then raise s 0x0D0F0005 .event else s
  else s

/-- R528. -/
def execTrayBusParity (resendFails : Bool) (s : State) : Host.Outcome State Fault Refusal := .next (trayBusParity s resendFails)

/-- R529: the tech page: the replace request, the reason bits, the last 8 codes. -/
def techPage (s : State) : List Word :=
  [BitVec.ofNat 32 (b2n s.shp.replace), BitVec.ofNat 32 (replaceWord s)] ++
  (List.range 8).map fun k => s.shp.tech.getD k 0

/-- R529: the holder writes the tech page of every position to a service tool that answers: its own, and those that it has read. -/
def techPoll (s : State) (toolAnswers : Bool) (others : List Word) : State :=
  if leashIs s .active && toolAnswers then setShp s { s.shp with tool := techPage s ++ others } else s

/-- R529. -/
def execTechPoll (toolAnswers : Bool) (others : List Word) (s : State) : Host.Outcome State Fault Refusal :=
  .next (techPoll s toolAnswers others)

/-! ## Telemetry and the thermal trip (R532, R533, R578, R638) -/

/-- A telemetry value as a number (Table 14-13). -/
def telemInt (v : BitVec 24) : Int := v.toInt

/-- R578: the sums of the 100 ms window with one more sample. -/
def coarseSums (s : State) (v : Vector (BitVec 24) 16) : List Int :=
  (List.range 4).map fun i => s.shp.coarse.getD i 0 + telemInt (vget v i 0)

/-- What SHP_TELEM shows after a sample: the sample, and under TELEM_COARSE the kept or new means at indices 0 to 3. -/
def telemShown (s : State) (v : Vector (BitVec 24) 16) (window : Bool) : Vector (BitVec 24) 16 :=
  Vector.ofFn fun i : Fin 16 =>
    if i.val = 15 then 0
    else if i.val < 4 && s.sec.telemCoarse then
      if window then BitVec.ofInt 24 (((coarseSums s v).getD i.val 0) / 1000) else vget s.shp.telem i.val 0
    else v[i]

/-- R532: one sample, and the temperature that the Kennel tags codes with (R431), in whole °C. -/
def telemetrySample (s : State) (v : Vector (BitVec 24) 16) : State :=
  if !s.shp.standby then s
  else
    let window := decide (999 ≤ s.shp.coarseN)
    let s := setShp s { s.shp with
      telem := telemShown s v window, sample := s.shp.sample + 1,
      coarse := if window then [0, 0, 0, 0] else coarseSums s v, coarseN := if window then 0 else s.shp.coarseN + 1 }
    if s.die = .off then s else setKnl s { s.knl with temp := BitVec.ofInt 8 (telemInt (vget v 3 0) / 10) }

/-- R532. -/
def execTelemetrySample (values : Vector (BitVec 24) 16) (s : State) : Host.Outcome State Fault Refusal :=
  .next (telemetrySample s values)

/-- R533, R638: a trip point is reached. -/
def thermalTrip (s : State) (sensor : Fin 9) : State :=
  if s.shp.standby then raise (setShp s { s.shp with thermalHold := some sensor }) 0x090F0002 (.device true) (d4 sensor.val) else s

/-- R533. -/
def execThermalTrip (sensor : Fin 9) (s : State) : Host.Outcome State Fault Refusal := .next (thermalTrip s sensor)

/-- R533: 10 °C below the trip point. -/
def execThermalRelease (s : State) : Host.Outcome State Fault Refusal := .next (setShp s { s.shp with thermalHold := none })

/-! ## Pins and the test port (R574, R627, R629, R636) -/

/-- REPLACE_N: low exactly while the replace request is asserted (R627). -/
def replaceN (s : State) : Bool := !s.shp.replace

/-- FRAME_VID (R629). -/
def frameVid (s : State) : BitVec 7 := s.shp.vid

/-- The instructions of the test port. -/
inductive TapInstr where
  | bypass | idcode | samplePreload | extest | clamp | highz | vendorPrivate
  deriving DecidableEq, Repr

/-- R574: the instruction as which one acts. -/
def tapActs (s : State) (i : TapInstr) : TapInstr :=
  match i with
  | .bypass => .bypass
  | .idcode => .idcode
  | .vendorPrivate => if s.sec.debug then i else .bypass
  | _ => if s.die = .off then i else .bypass

/-- R636: IDCODE. -/
def tapIdcode : Word :=
  BitVec.ofNat 32 (packFields [(Config.dieRev.toNat % 16, 28), (0x9600, 12), (0x2A3, 1), (1, 0)])

end Sys2Proof.Machine
end

