-- ==== Sys2Proof/Machine/Drills.lean ====
section
/-!
DEFINITION. Drills: faults injected on purpose (spec/13 R501 to R503; spec/12 R454; spec/14 R525; spec/16, the drills under
"Grants").
-/
namespace Sys2Proof.Machine

/-- Kind k is enabled (R511). -/
def drillOn (s : State) (k : Nat) : Bool := bitOf s.snp.drillEnable.toNat k

/-- R502: the kind whose turn it is: the next enabled one in ascending rotation. -/
def drillDue (s : State) : Option Nat :=
  let first := (s.snp.drillLast.map (· + 1)).getD 0
  ((List.range 8).map fun i => (first + i) % 8).find? (drillOn s)

/-- A fault is being handled (R454, R503). -/
def handling (s : State) : Bool :=
  !s.knl.inflight.isEmpty || s.knl.resetPending || s.knl.classify || !s.knl.stalled.isEmpty || !s.mem.retraining.isEmpty ||
  allLeads.any (fun i => (leadAt s i).relaning) || s.shp.restarting

/-- R501: 3,600 s have passed since the last drill. -/
def drillSpaced (s : State) : Bool := !s.snp.drillValid || decide (s.snp.drillTime.toNat + 3600000000 ≤ s.shp.time.toNat)

/-- The lead of a LANE drill, and its highest lane. -/
def drillLane (s : State) : Option (Nat × Nat) :=
  (allLeads.find? fun i => leadUp s i && decide (4 ≤ onesIn (leadAt s i).lanes.toNat 0 32)).bind fun i =>
    ((List.range 32).reverse.find? fun l => bitOf (leadAt s i).lanes.toNat l).map fun l => (i, l)

/-- The pseudo-channels that a RETRAIN drill can take. -/
def drillPcs (s : State) : List (Fin 8 × Fin 32) :=
  ((List.finRange 8).flatMap fun st => (List.finRange 32).map fun pc => (st, pc)).filter fun p =>
    pcLive s (pcId p.1 p.2) && !s.mem.retraining.contains p

/-- Can a drill of kind k be injected (R525, Table 13-6)? -/
def injectable (s : State) (k : Nat) : Bool :=
  match k with
  | 0 => (drillLane s).isSome
  | 1 => !(drillPcs s).isEmpty
  | 5 => leashIs s .active
  | _ => true

/-- May a drill be injected now? -/
def drillOk (s : State) : Bool :=
  running s && s.snp.drillEnable != 0 && s.snp.drillActive.isNone && !handling s && !s.gov.short && drillSpaced s

/-- One of a list, by a draw: the spec leaves the choice to the device (log 7). -/
def pickOne {α : Type} (s : State) (xs : List α) : Option α × State :=
  let (n, s) := draw s
  (xs[(Config.draw n).toNat % xs.length]?, s)

/-- Table 13-6: what injects kind k. -/
def drillFault (s : State) (k : Nat) : State :=
  match k with
  | 0 => match drillLane s with
    | some (i, l) => relane s i l
    | none => s
  | 1 =>
    let (p, s) := pickOne s (drillPcs s)
    match p with
    | some (st, pc) => pcRetrain s st pc
    | none => s
  | 4 =>
    let (p, s) := pickOne s (List.finRange 8)
    match p with
    | some st => setKnl s { s.knl with missed := s.knl.missed ++ [(.phy st, 4)] }
    | none => s
  | 7 => raise s 0x0E0C0001 .jobEnding
  | _ => s

/-- R502: drill k begins: its code, DRILL, and the record of it (R512). -/
def beginDrill (s : State) (k : Nat) : State :=
  let s := setSnp (raise s 0x0E010001 .event) { s.snp with
    drillTime := s.shp.time, drillKind := BitVec.ofNat 3 k, drillValid := true, drillActive := some k, drillLast := some k,
    cntDrill := satAdd32 s.snp.cntDrill 1 }
  drillFault (sysChange s s.sys.st s.sys.degraded true s.sys.replace) k

/-- R502, R503. -/
def drillInject (s : State) : State :=
  match drillDue s with
  | some k => if drillOk s && injectable s k then beginDrill s k else s
  | none => s

/-- R502. -/
def execDrillInject (s : State) : Host.Outcome State Fault Refusal := .next (drillInject s)

/-- R503: the period has ended without its drill. -/
def drillSkip (s : State) : State :=
  match drillDue s with
  | some k =>
    if running s then
      raise (setSnp s { s.snp with cntSkip := satAdd32 s.snp.cntSkip 1, drillLast := some k }) 0x0E0C0002 .count
    else s
  | none => s

/-- R503. -/
def execDrillSkip (s : State) : Host.Outcome State Fault Refusal := .next (drillSkip s)

end Sys2Proof.Machine
end

