-- ==== Sys2Proof/Machine/RegWrite.lean ====
section
/-!
DEFINITION. Register writes by their access codes, locks and owners (spec/00 R1 to R7, R641; spec/15 R554, R560 to R563, R575; the
register tables of every chapter), the commands that are one write, and owner grants.
-/
namespace Sys2Proof.Machine

/-! ## Locks and W1C (R3, R563) -/

/-- R563: an operator's write reaches a field of a locked group; group 7 is always locked. -/
def lockedTo (s : State) (owner : Bool) (g : Nat) : Bool := !owner && (g == 7 || bitOf s.sec.lock.toNat g)

/-- R563: a write of a field of group g; a locked one raises 0x0A0E_0002 and changes nothing. -/
def lockWrite (s : State) (owner : Bool) (g : Nat) (f : State → State) : State :=
  if lockedTo s owner g then raise s 0x0A0E0002 .event else f s

/-- Ones written to W1C bits clear them. -/
def clearBits (ev : Word) (v : Nat) : Word := ev &&& ~~~BitVec.ofNat 32 v

/-- A write of a unit's EVENT register. -/
def clearEvent (s : State) (u : EvUnit) (v : Nat) : State :=
  match u with
  | .knl => { s with knl := { s.knl with event := clearBits s.knl.event v } }
  | .frm => { s with frm := { s.frm with event := clearBits s.frm.event v } }
  | .edg => { s with edg := { s.edg with event := clearBits s.edg.event v } }
  | .rod => { s with rod := { s.rod with event := clearBits s.rod.event v } }
  | .mem => { s with mem := { s.mem with event := clearBits s.mem.event v } }
  | .brd => { s with brd := { s.brd with event := clearBits s.brd.event v } }
  | .lead => { s with lead := { s.lead with event := clearBits s.lead.event v } }
  | .col => { s with col := { s.col with event := clearBits s.col.event v } }
  | .tim => { s with tim := { s.tim with event := clearBits s.tim.event v } }
  | .tet => { s with tet := { s.tet with event := clearBits s.tet.event v } }
  | .snp => { s with snp := { s.snp with event := clearBits s.snp.event v } }
  | .gov => { s with gov := { s.gov with event := clearBits s.gov.event v } }
  | .sec => { s with sec := { s.sec with event := clearBits s.sec.event v } }
  | .shp => { s with shp := { s.shp with event := clearBits s.shp.event v } }

/-- The EVENT register at an address of the compute die. -/
def eventAt (addr : Nat) : Option EvUnit :=
  match addr with
  | 0x1004C => some .knl
  | 0x20008 => some .frm
  | 0x30008 => some .edg
  | 0x40004 => some .rod
  | 0x60008 => some .mem
  | 0x70004 => some .brd
  | 0x8000C => some .lead
  | 0x90008 => some .col
  | 0xA001C => some .tim
  | 0xB0020 => some .tet
  | 0xC002C => some .snp
  | 0xD0020 => some .gov
  | 0xE0078 => some .sec
  | _ => none

/-! ## What a write does: the state after it, and the code of an error response -/

/-- A write that no rule refuses. -/
def okWrite (s : State) : State × Option Nat := (s, none)

/-- R563: an operator's 1 in an owner-only field. -/
def ownerOnly (s : State) (code : Nat) : State × Option Nat := (raise s code .refusedTally, some code)

/-- R460: the reset record and the withdrawal are cleared, and a device reset begins. -/
def clearEscalation (s : State) : State :=
  raise (setKnl s { s.knl with resets := [], withdrawn := false }) 0x0B010003 (.device false)

/-- KNL_ESCALATE (Table 12-20). -/
def writeEscalate (s : State) (owner : Bool) (v : Nat) : State × Option Nat :=
  let s := lockWrite s owner 7 fun s =>
    setKnl s { s.knl with windowH := BitVec.ofNat 8 (field v 15 8), limit := BitVec.ofNat 4 (field v 3 0) }
  if !bitOf v 30 then okWrite s
  else if owner then okWrite (clearEscalation s)
  else ownerOnly s 0x0A0E0003

/-- KNL_RESET (Table 12-23). -/
def writeKnlReset (s : State) (v : Nat) : State :=
  if bitOf v 1 then raise s 0x0B010002 (.device false)
  else if bitOf v 0 then
    if s.sys.st = .running then raise s 0x0B010001 .jobEnding
    else if s.sys.st = .armed then cancelRoundUp s
    else s
  else s

/-- KNL registers. -/
def writeKnl (s : State) (owner : Bool) (off v : Nat) : State × Option Nat :=
  match off with
  | 0x10 => okWrite (lockWrite s owner 1 fun s => setKnl s { s.knl with hangCfg := BitVec.ofNat 14 v })
  | 0x3C => writeEscalate s owner v
  | 0x44 => okWrite (lockWrite s owner 7 fun s =>
      setKnl s { s.knl with prcSample := bitOf v 31 && s.sec.samplePermit, prcLine := BitVec.ofNat 15 v })
  | 0x48 => okWrite (writeKnlReset s v)
  | _ => okWrite s

/-- R224: STR_TOK_SIGNAL. -/
def tokSignal (s : State) (v : Nat) : State × Option Nat :=
  let t := field v 9 0
  let inc := field v 19 16
  if running s && tokDeclared (img s) t && tokHost (img s) t && inc != 0 && decide (token s t + inc ≤ 65535) then
    okWrite (setToken s t (token s t + inc))
  else (raise s 0x0B050204 .refusedTally, some 0x0B050204)

/-- The bits of STR_DISABLE whose units have a participating strand of the loaded program (R248). -/
def unitsInUse (s : State) : BitVec 32 :=
  (participating s).foldl (fun m n => match disableBit n with
    | some b => m ||| BitVec.ofNat 32 (2 ^ b)
    | none => m) 0

/-- R248, R249: STR_DISABLE. -/
def disableUnits (s : State) (v : Nat) : State :=
  let w := BitVec.ofNat 32 v
  let blocked := w &&& ~~~s.str.disable &&& unitsInUse s
  let s := if blocked = 0 then s else raise s 0x0B050206 .refusedTally
  let w := w &&& ~~~blocked
  let back := s.str.disable &&& ~~~w
  let s := { s with str := { s.str with disable := w, disabled := s.str.disabled &&& ~~~(back &&& 0xFFFFFF00) } }
  requestDomains s (pairDomains fun p => back.getLsbD p)

/-- STR registers. -/
def writeStr (s : State) (owner : Bool) (off v : Nat) : State × Option Nat :=
  match off with
  | 0x18 => tokSignal s v
  | 0x1C => okWrite (lockWrite s owner 1 fun s => disableUnits s v)
  | _ => okWrite s

/-- The fields of LEAD_PLAN[i] that hold a value (Table 9-15). -/
def planBits : Nat := 0x73FF

/-- LEAD registers. -/
def writeLead (s : State) (owner : Bool) (off v : Nat) : State × Option Nat :=
  if off = 0 then
    okWrite (lockWrite s owner 0 fun s => { s with lead := { s.lead with selfId := BitVec.ofNat 24 v } })
  else match bank off 0x40 8, bank off 0x60 8 with
    | some i, _ => okWrite (lockWrite s owner 0 fun s =>
        { s with lead := { s.lead with plan := vset s.lead.plan i (BitVec.ofNat 32 (v &&& planBits)) } })
    | none, some i => okWrite (lockWrite s owner 0 fun s =>
        { s with lead := { s.lead with expect := vset s.lead.expect i (BitVec.ofNat 24 v) } })
    | none, none => okWrite s

/-- TIM registers (Tables 10-4, 10-8). -/
def writeTim (s : State) (owner : Bool) (off v : Nat) : State × Option Nat :=
  match off with
  | 0x0C => okWrite (lockWrite s owner 0 fun s =>
      chooseMode (setTim s { s.tim with rackBits := BitVec.ofNat 4 (field v 11 8), forceLead := bitOf v 0 }))
  | 0x20 => okWrite (setTim s { s.tim with epochLo := BitVec.ofNat 32 v })
  | 0x24 => epochSubmit s (BitVec.ofNat 32 v)
  | _ => okWrite s

/-- SNP registers (Tables 13-11, 13-12, 13-14). -/
def writeSnp (s : State) (owner : Bool) (off v : Nat) : State × Option Nat :=
  match off with
  | 0x24 => okWrite (lockWrite s owner 0 fun s =>
      setSnp s { s.snp with partnerValid := bitOf v 3, partnerLead := BitVec.ofNat 3 v })
  | 0x28 => okWrite (lockWrite s owner 1 fun s => setSnp s { s.snp with timeoutS := BitVec.ofNat 12 v })
  | 0x30 => okWrite (lockWrite s owner 7 fun s =>
      setSnp s { s.snp with drillPeriod := BitVec.ofNat 8 (field v 15 8), drillEnable := BitVec.ofNat 8 v })
  | _ => okWrite s

/-- GOV_CAL_CMD (R601, R603). -/
def writeCalCmd (s : State) (v : Nat) : State × Option Nat :=
  let s := if bitOf v 1 then restoreFactory s else s
  if bitOf v 0 then measureCmd s else okWrite s

/-- GOV_UCAL_CTL (R602, R563). -/
def writeUcalCtl (s : State) (owner : Bool) (v : Nat) : State × Option Nat :=
  if owner then
    if bitOf v 1 then adoptCmd s else okWrite (setUser s s.gov.ucal (bitOf v 0))
  else
    let s := lockWrite s false 7 id
    if bitOf v 1 then ownerOnly s 0x0A0E0003 else okWrite s

/-- GOV registers (Tables 16-5, 16-7, 16-9). -/
def writeGov (s : State) (owner : Bool) (off v : Nat) : State × Option Nat :=
  match off with
  | 0x04 => okWrite (lockWrite s owner 3 fun s => setGov s { s.gov with budget := BitVec.ofNat 11 v })
  | 0x08 => okWrite (lockWrite s owner 3 fun s => setGov s { s.gov with derate := BitVec.ofNat 32 v })
  | 0x18 => writeCalCmd s v
  | 0x1C => writeUcalCtl s owner v
  | _ =>
    match bank off 0x200 20 with
    | some c => okWrite (lockWrite s owner 7 fun s => setUser s (vset s.gov.ucal c (BitVec.ofNat 32 v)) s.gov.ucalEnable)
    | none => okWrite s

/-- SEC registers: SEC_POLICY and SEC_OPCERT_MIN are written only by a grant (R581, R584); a cleared SAMPLE_PERMIT clears
SAMPLE (R563). -/
def writeSec (s : State) (owner : Bool) (off v : Nat) : State × Option Nat :=
  match owner, off with
  | true, 0x04 =>
    let p := bitOf v 8
    let s := setSec s { s.sec with lock := BitVec.ofNat 4 v, samplePermit := p, telemCoarse := bitOf v 9, quiet := bitOf v 10 }
    okWrite (setKnl s { s.knl with prcSample := s.knl.prcSample && p })
  | true, 0x60 => okWrite (setSec s { s.sec with opcertMin := BitVec.ofNat 32 v })
  | _, 0x78 => okWrite (clearEvent s .sec v)
  | _, _ => okWrite s

/-- TALLY registers of either view (R540, R551, R553); `cur` keeps the view's cursor. -/
def writeTally (s : State) (owner : Bool) (off v : Nat) (cur : State → BitVec 19 → State) : State × Option Nat :=
  match off with
  | 0x1000 => okWrite (cur s (BitVec.ofNat 19 v))
  | 0x1028 => okWrite (if bitOf v 31 then beginFlush s else s)
  | 0x102C => if !bitOf v 0 then okWrite s else if owner then okWrite (clearTally s) else ownerOnly s 0x0A100001
  | _ => okWrite s

/-- The cursor of the compute die's view. -/
def setDieCursor (s : State) (c : BitVec 19) : State := { s with tly := { s.tly with die := { s.tly.die with cursor := c } } }
/-- The cursor of the side path's view. -/
def setSideCursor (s : State) (c : BitVec 19) : State := { s with tly := { s.tly with side := { s.tly.side with cursor := c } } }

/-- A write of a register of the compute die, by R3 and the register's own rule. -/
def writeDie (s : State) (owner : Bool) (addr v : Nat) : State × Option Nat :=
  let off := addr % 0x10000
  match eventAt addr with
  | some u => okWrite (clearEvent s u v)
  | none =>
    match addr / 0x10000 with
    | 0x1 => writeKnl s owner off v
    | 0x5 => writeStr s owner off v
    | 0x6 => if off = 0 then
        okWrite (lockWrite s owner 2 fun s => { s with mem := { s.mem with extRate := bitOf v 0 } }) else okWrite s
    | 0x8 => writeLead s owner off v
    | 0x9 => if off = 4 then
        okWrite (lockWrite s owner 1 fun s => { s with col := { s.col with timeoutUs := BitVec.ofNat 20 v } }) else okWrite s
    | 0xA => writeTim s owner off v
    | 0xB => if off = 8 then
        okWrite (lockWrite s owner 1 fun s => { s with tet := { s.tet with timeoutUs := BitVec.ofNat 14 v } }) else okWrite s
    | 0xC => writeSnp s owner off v
    | 0xD => writeGov s owner off v
    | 0xE => writeSec s owner off v
    | 0xF => writeTally s owner off v setDieCursor
    | _ => okWrite s

/-- A write of an SHP register, by its full address (R540, R542, R549). -/
def writeShp (s : State) (owner : Bool) (addr v : Nat) : State × Option Nat :=
  let off := addr - 0x100000
  match off with
  | 0x18 => okWrite (clearEvent s .shp v)
  | 0x1C => if !bitOf v 0 then okWrite s else if owner then okWrite (packageReset s) else ownerOnly s 0x0A100001
  | 0x28 => if !bitOf v 31 then okWrite s
    else if owner then okWrite (setShp s { s.shp with held := none }) else ownerOnly s 0x0A100001
  | _ =>
    if 0xA000 ≤ off then writeSec s owner (off - 0xA000) v
    else if 0x9000 ≤ off then writeTally s owner (off - 0x9000 + 0x1000) v setSideCursor
    else okWrite s

/-! ## Writes over the Tether (R407, R445, R641) -/

/-- A write of a register file: refused by R445, R1 and R6 in this order, else performed and answered. -/
def serveWrite (s : State) (r : Req) (k : ReqKind) (file : State → Nat → Option Nat)
    (write : State → Bool → Nat → Nat → State × Option Nat) (addr v : Nat) : State :=
  request s r k fun s =>
    if r.parity = .access then refuseReq s r k 0x04010002
    else match accessErr (file s) addr with
      | some code => respondCode s r k.shp k.type code
      | none =>
        match write s false addr v with
        | (s, none) => done s r k
        | (s, some code) => respondCode s r k.shp k.type code

/-- A REG_WRITE. -/
def regWrite (s : State) (r : Req) (addr v : Nat) : State :=
  serveWrite s r { kWrite with named := shpAddr addr } dieReg writeDie addr v

/-- R3. -/
def execRegWrite (r : Req) (addr value : BitVec 32) (s : State) : Host.Outcome State Fault Refusal :=
  .next (regWrite s r addr.toNat value.toNat)

/-- R407: a SIDE message. -/
def execSide (r : Req) (write : Bool) (addr value : BitVec 32) (s : State) : Host.Outcome State Fault Refusal :=
  .next (if write then serveWrite s r kSide shpFile writeShp addr.toNat value.toNat else sideRead s r addr.toNat)

/-- R224. -/
def execStrTokSignal (r : Req) (value : BitVec 32) (s : State) : Host.Outcome State Fault Refusal :=
  .next (regWrite s r 0x50018 value.toNat)

/-- R248. -/
def execStrDisable (r : Req) (value : BitVec 32) (s : State) : Host.Outcome State Fault Refusal :=
  .next (regWrite s r 0x5001C value.toNat)

/-- R250: a fault has forced unit b out of service while a job ran: its island has stalled (R449). -/
def forcedOut (s : State) (b : Nat) : Bool :=
  match s.knl.stallReset with
  | some (.rods p) => b == p.val
  | some .fetch => decide (8 ≤ b ∧ b ≤ 23)
  | _ => false

/-- R249, R250: a disabled unit, or one that a fault has forced out, has completed its transactions. -/
def unitDrainDone (s : State) (b : Nat) : State :=
  if s.die == .serving && (s.str.disable.getLsbD b && !(unitsInUse s).getLsbD b || forcedOut s b) then
    gateDomains { s with str := { s.str with disabled := s.str.disabled ||| BitVec.ofNat 32 (2 ^ b) } } (pairDomains (· == b))
  else s

/-- R249. -/
def execUnitDrainDone (unit : Fin 32) (s : State) : Host.Outcome State Fault Refusal := .next (unitDrainDone s unit.val)

/-- R473: CONTEXT. -/
def execKnlResetContext (r : Req) (s : State) : Host.Outcome State Fault Refusal := .next (regWrite s r 0x10048 1)

/-- R473: DEVICE. -/
def execKnlResetDevice (r : Req) (s : State) : Host.Outcome State Fault Refusal := .next (regWrite s r 0x10048 2)

/-- R385. -/
def execEpochWrite (r : Req) (hi : BitVec 32) (s : State) : Host.Outcome State Fault Refusal := .next (regWrite s r 0xA0024 hi.toNat)

/-- R601. -/
def execMeasure (r : Req) (s : State) : Host.Outcome State Fault Refusal := .next (regWrite s r 0xD0018 1)

/-- R603. -/
def execRestoreFactory (r : Req) (s : State) : Host.Outcome State Fault Refusal := .next (regWrite s r 0xD0018 2)

/-! ## Owner grants (R560, R561, R575) -/

/-- KEY messages of the Shepherd that need a session. -/
def kKeyShp : ReqKind := { shp := true, type := 0x09 }

/-- The access error of an address that a grant names; it may name any block. -/
def grantAccessErr (s : State) (a : Nat) : Option Nat := if shpAddr a then accessErr (shpFile s) a else accessErr (dieReg s) a

/-- Step 1 of R560: MAGIC, ACTION and the zero fields. -/
def grantFormOk (g : Grant) : Bool :=
  g.magic == 0x50394752 &&
  ((g.action == 1 && g.vendorZero) || (g.action == 2 && g.address == 0 && g.value == 0))

/-- Steps 1 to 5 of R560. -/
def grantOkTo5 (s : State) (g : Grant) : Bool :=
  grantFormOk g && natLE 32 g.device.toNat == deviceDigest && g.challenge == s.sec.challenge && g.ownerOk &&
  (g.action == 1 || g.vendorOk)

/-- R560: a failed grant. -/
def grantFails (s : State) (r : Req) (detail : Bytes) : State := newChallenge (refuseReq s r kKeyShp 0x0A0E0003 detail)

/-- R575 step 1: what a debug unlock begins with. -/
def beginUnlock (s : State) : State :=
  let s := if s.sys.st = .running then raise s 0x0A0E0006 .jobEnding
    else raise (if s.sys.st = .armed then cancelRoundUp s else s) 0x0A0E0006 .event
  setSec s { s.sec with debugPending := true }

/-- R559: sessions whose serial is below SEC_OPCERT_MIN end at once. -/
def endOldSessions (s : State) : State :=
  let keep := fun (x : Sess) =>
    if x.isOpen then (if x.serial < s.sec.opcertMin then {} else x)
    else if x.hs.any (fun h => decide (h.serial < s.sec.opcertMin)) then { x with hs := none } else x
  { s with tet := { s.tet with link := s.tet.link.map fun l => { l with die := keep l.die, shp := keep l.shp } } }

/-- R560, R561: the answer to a grant that has passed, after its effect; a package reset has dropped it (R558). -/
def grantAnswer (s : State) (r : Req) (err : Option Nat) : State :=
  let s := if !(linkAt s r.link).up then s
    else match err with
      | none => done s r kKeyShp
      | some code => respondCode s r true kKeyShp.type code
  newChallenge (endOldSessions s)

/-- R560: an owner's register write. -/
def ownerWrite (s : State) (addr v : Nat) : State × Option Nat :=
  if shpAddr addr then writeShp s true addr v else writeDie s true addr v

/-- R560, R561: a GRANT. Its 0x0A0E_0009 is raised before the granted write is done, so a write that clears SEC_EVENT.GRANT clears
it (DESIGN CHOICE, log 35: R560 gives no order of the two). -/
def grant (s : State) (r : Req) (g : Grant) : State :=
  request s r kKeyShp fun s =>
    if r.parity = .access then refuseReq s r kKeyShp 0x04010002
    else if !grantOkTo5 s g then grantFails s r []
    else
      let passed := fun (s : State) => raise s 0x0A0E0009 .event (d4 g.action.toNat ++ d4 g.address.toNat ++ d4 g.value.toNat)
      if g.action = 2 then grantAnswer (beginUnlock (passed s)) r none
      else match grantAccessErr s g.address.toNat with
        | some code => grantFails s r (d4 code)
        | none =>
          if !shpAddr g.address.toNat && s.die != .serving then respond s r true kKeyShp.type 2 []
          else
            let (s, err) := ownerWrite (passed s) g.address.toNat g.value.toNat
            grantAnswer s r err

/-- R560. -/
def execGrantRegWrite (r : Req) (g : Grant) (s : State) : Host.Outcome State Fault Refusal := .next (grant s r g)

/-- R575. -/
def execGrantDebugUnlock (r : Req) (g : Grant) (s : State) : Host.Outcome State Fault Refusal := .next (grant s r g)

/-- R460. -/
def execEscalateClear (g : Grant) (r : Req) (s : State) : Host.Outcome State Fault Refusal := .next (grant s r g)

/-- R540. -/
def execTallyClear (g : Grant) (r : Req) (s : State) : Host.Outcome State Fault Refusal := .next (grant s r g)

/-- R549. -/
def execPackageReset (g : Grant) (r : Req) (s : State) : Host.Outcome State Fault Refusal := .next (grant s r g)

/-- R457, R549. -/
def execSampleRelease (g : Grant) (r : Req) (s : State) : Host.Outcome State Fault Refusal := .next (grant s r g)

/-- R602. -/
def execAdopt (g : Grant) (r : Req) (s : State) : Host.Outcome State Fault Refusal := .next (grant s r g)

/-- R602. -/
def execGovUcalWrite (g : Grant) (r : Req) (s : State) : Host.Outcome State Fault Refusal := .next (grant s r g)

end Sys2Proof.Machine
end

