-- ==== Sys2Proof/Machine/Tether.lean ====
section
/-!
DEFINITION. The Tether links: rejection, resending, acknowledgement, loss and retraining (spec/11 R395 to R398, R405; spec/15 R558),
and the ABORT message (spec/06 R245).
-/
namespace Sys2Proof.Machine

/-! ## Frames and acknowledgements (R396) -/

/-- R396. -/
def execTetherFrameReject (link : Fin 2) (shp : Bool) (seq : BitVec 64) (tagFailed : Bool) (s : State) :
    Host.Outcome State Fault Refusal := .next (tetherFrameReject s link.val shp seq tagFailed)

/-- R396. -/
def execTetherNak (link : Fin 2) (shp : Bool) (seq : BitVec 64) (s : State) : Host.Outcome State Fault Refusal :=
  .next (tetherNak s link.val shp seq)

/-- R396. -/
def execTetherAckTimeout (link : Fin 2) (shp : Bool) (s : State) : Host.Outcome State Fault Refusal :=
  .next (tetherAckTimeout s link.val shp)

/-- R396. -/
def execTetherAck (link : Fin 2) (shp : Bool) (seq : BitVec 64) (s : State) : Host.Outcome State Fault Refusal :=
  .next (tetherAck s link.val shp seq)

/-- R397. -/
def execTetherLinkLost (link : Fin 2) (s : State) : Host.Outcome State Fault Refusal :=
  .next (onTether s link.val fun s => loseTether s link.val)

/-! ## Coming up (R395, R397) -/

/-- A link comes up, with no session. -/
def tetherUp (s : State) (l : Nat) : State :=
  if s.shp.standby && !(linkAt s l).up then setLink s l { linkAt s l with up := true } else s

/-- R395. -/
def execTetherLinkUp (link : Fin 2) (s : State) : Host.Outcome State Fault Refusal := .next (tetherUp s link.val)

/-- R397: a lost link is retrained, once every second. -/
def execTetherRetrain (link : Fin 2) (comesUp : Bool) (s : State) : Host.Outcome State Fault Refusal :=
  .next (if comesUp && (linkAt s link.val).lost then tetherUp s link.val else s)

/-- The detail of 0x080B_0003: the links (R420). -/
def bothLinks : Bytes := d4 0 ++ d4 1

/-- R398: both links have stayed lost for 10 ms. -/
def bothLinksLost (s : State) : State :=
  if !s.shp.standby || (linkAt s 0).up || (linkAt s 1).up then s
  else if s.sys.st = .running then raise s 0x080B0003 .jobEnding bothLinks
  else if s.sys.st = .armed then cancelRoundUp (raise s 0x080B0003 .event bothLinks)
  else raise s 0x080B0003 .event bothLinks

/-- R398. -/
def execBothLinksLost (s : State) : Host.Outcome State Fault Refusal := .next (bothLinksLost s)

/-! ## ABORT (R245) -/

/-- ABORT. -/
def kAbort : ReqKind := { type := 0x08 }

/-- R245, R418: an abort starts teardown; in ARMED it cancels the round-up. -/
def tetherAbort (s : State) (r : Req) : State :=
  request s r kAbort fun s =>
    done (if s.sys.st = .running then startTeardown s false else if s.sys.st = .armed then cancelRoundUp s else s) r kAbort

/-- R245; the error class changes nothing (log 3). -/
def execTetherAbort (r : Req) (_cls : BitVec 8) (s : State) : Host.Outcome State Fault Refusal := .next (tetherAbort s r)

end Sys2Proof.Machine
end

