-- ==== Sys2Proof/Machine/Secrecy.lean ====
section
/-!
DEFINITION. The KEY messages: sessions, enrolment, attestation, firmware, job keys and the debug unlock (spec/15 R556 to R559, R564 to
R575). What a signature or a cipher verifies comes with the command, and what the device signs or draws is free (log 7).
-/
namespace Sys2Proof.Machine

/-! ## The kinds of KEY message (Table 15-2, R556, R557, R566) -/

/-- HELLO and FINISH, of either target. -/
def kHello (shp : Bool) : ReqKind := { shp := shp, type := 0x09, boot := true, rom := true }
/-- ENROLL, CERT_READ and ATTEST. -/
def kIdentity : ReqKind := { shp := true, type := 0x09, early := true, boot := true, rom := true }
/-- FW_DATA and FW_COMMIT. -/
def kFw : ReqKind := { shp := true, type := 0x09, rom := true }
/-- JOB_EPHEMERAL, JOB_KEY, JOB_DROP and PEER_CERT. -/
def kJob : ReqKind := { type := 0x09 }

/-! ## Sessions (R557 to R559) -/

/-- Bytes 0x00 to 0x4F of an operator certificate (Table 15-3). -/
def certBytes (c : OpCert) : Bytes :=
  natLE 4 c.magic.toNat ++ natLE 4 c.serial.toNat ++ natLE 4 c.scope.toNat ++ natLE 4 c.reserved.toNat ++ natLE 64 c.key.toNat

/-- The payload of a HELLO; the certificate's signature stands for its own bytes (log 7). -/
def helloBytes (shepherd : Bool) (c : OpCert) (key : BitVec 512) (nonce : BitVec 128) : Bytes :=
  [0x01] ++ natLE 1 (b2n shepherd) ++ certBytes c ++ Config.made "opcert" (certBytes c) 64 ++ natLE 64 key.toNat ++
  natLE 16 nonce.toNat

/-- R559: the certificate is accepted for the target. -/
def certOk (s : State) (shepherd : Bool) (c : OpCert) : Bool :=
  c.magic == 0x50394F50 && c.reserved == 0 && c.scope.toNat / 4 == 0 && decide (s.sec.opcertMin ≤ c.serial) && c.sigOk &&
  bitOf c.scope.toNat (b2n shepherd)

/-- A session ends, its link up: unacknowledged notifications wait for the next session (R405, R558). -/
def endSession (s : State) (l : Nat) (shp : Bool) : State :=
  let x := sess s l shp
  moveFrames (setSess s l shp {}) (1 - l) false (x.sent.filter fun f => match f.2 with
    | .notify .. => true
    | _ => false)

/-- R557 steps 1 and 2: a HELLO ends the session that it would replace, and is answered with a HELLO_REPLY. -/
def hello (s : State) (r : Req) (shepherd : Bool) (cert : OpCert) (key : BitVec 512) (nonce : BitVec 128) : State :=
  request s r (kHello shepherd) fun s =>
    let s := endSession s r.link shepherd
    if !certOk s shepherd cert then refuseReq s r (kHello shepherd) 0x0A0E0001 (d4 cert.serial.toNat)
    else
      let (n, s) := draw s
      let (m, s) := draw s
      let head := helloBytes shepherd cert key nonce
      let mine := natLE 64 (Config.draw n).toNat ++ natLE 16 (Config.draw m).toNat
      let reply := [0x02] ++ mine ++ Config.made "sign" (sha256 (head ++ mine)) 64
      let hs : Handshake := { serial := cert.serial, opKey := cert.key, peer := key, draw := n, hash := sha256v (head ++ reply) }
      done (setSess s r.link shepherd { sess s r.link shepherd with hs := some hs }) r (kHello shepherd) reply

/-- R557. -/
def execHello (r : Req) (shepherd : Bool) (cert : OpCert) (key : BitVec 512) (nonce : BitVec 128) (s : State) :
    Host.Outcome State Fault Refusal := .next (hello s r shepherd cert key nonce)

/-- The session key of R557 step 4; Z is what ECC CDH gives of the two ephemeral keys (log 7). -/
def sessionKey (h : Handshake) (shepherd : Bool) : BitVec 256 :=
  BitVec.ofNat 256 (leNat (kdf (Config.made "ecdh" (natLE 64 (Config.draw h.draw).toNat ++ natLE 64 h.peer.toNat) 32)
    (ascii (if shepherd then "SIDE" else "TETHER")) (natLE 32 h.hash.toNat) 256))

/-- R557 step 4, R567, R405: the session opens. -/
def openSession (s : State) (l : Nat) (shepherd : Bool) (h : Handshake) : State :=
  let s := setSess s l shepherd { isOpen := true, serial := h.serial, key := sessionKey h shepherd }
  if shepherd && s.shp.serving then raiseSvn s 0 else s

/-- R557 steps 3 and 4. -/
def finish (s : State) (r : Req) (shepherd : Bool) (sigOk : Bool) : State :=
  request s r (kHello shepherd) fun s =>
    match (sess s r.link shepherd).hs with
    | some h =>
      if sigOk then
        let s := done (openSession s r.link shepherd h) r (kHello shepherd)
        if shepherd then s else sendHeld s
      else refuseReq (endSession s r.link shepherd) r (kHello shepherd) 0x0A0E0001 (d4 h.serial.toNat)
    | none => refuseReq s r (kHello shepherd) 0x0A0E0001

/-- R557. -/
def execFinish (r : Req) (shepherd : Bool) (sigOk : Bool) (s : State) : Host.Outcome State Fault Refusal :=
  .next (finish s r shepherd sigOk)

/-! ## Job keys (R568, R573) -/

/-- A refused JOB_EPHEMERAL, JOB_KEY or JOB_DROP, its detail the message kind (R579). -/
def refuseJob (s : State) (r : Req) (kind : Nat) : State := refuseReq s r kJob 0x0A0E0005 (d4 kind)

/-- R568: a job ephemeral key and a job nonce are generated. -/
def jobEphemeral (s : State) (r : Req) (jobId : BitVec 64) : State :=
  request s r kJob fun s =>
    if s.sys.st = .holding ∧ !loaded s ∧ s.sec.job.isNone ∧ !s.sec.debug then
      let (n, s) := draw s
      let (m, s) := draw s
      let nonce := (Config.draw m).setWidth 128
      let body := natLE 64 (Config.draw n).toNat ++ natLE 16 nonce.toNat
      let s := setSec s { s.sec with eph := some { jobId := jobId, nonce := nonce, draw := n } }
      done s r kJob ([0x10] ++ body ++ Config.made "sign" (natLE 8 jobId.toNat ++ body) 64)
    else refuseJob s r 0x10

/-- R568. -/
def execJobEphemeral (r : Req) (jobId : BitVec 64) (s : State) : Host.Outcome State Fault Refusal :=
  .next (jobEphemeral s r jobId)

/-- R568: 60 s have passed. -/
def execEphemeralExpiry (s : State) : Host.Outcome State Fault Refusal := .next (setSec s { s.sec with eph := none })

/-- HBM is overwritten under a new memory key: every byte reads zero (R568). -/
def overwriteHbm (s : State) : State :=
  clearHbm { s with str := { s.str with scrub := true } }

/-- The key-encryption key of R568, of the kept ephemeral and the node's; their Z is what ECC CDH gives (log 7). -/
def wrapKey (s : State) (e : JobEph) (node : BitVec 512) : Bytes :=
  let mine := natLE 64 (Config.draw e.draw).toNat
  let theirs := natLE 64 node.toNat
  kdf (Config.made "ecdh" (mine ++ theirs) 32) (ascii "KEK")
    (natLE 8 e.jobId.toNat ++ natLE 4 (ownId s) ++ natLE 16 e.nonce.toNat ++ mine ++ theirs) 256

/-- The master key that a wrapped key and its tag unwrap to, if the tag verifies (R568). -/
def unwrap (s : State) (e : JobEph) (node : BitVec 512) (wrapped : BitVec 256) (tag : BitVec 128) : Option (BitVec 256) :=
  (gcmOpen (wrapKey s e node) (zeros 12) (natLE 8 e.jobId.toNat) (natLE 32 wrapped.toNat ++ natLE 16 tag.toNat)).map fun b =>
    BitVec.ofNat 256 (leNat b)

/-- R568: a master key is installed, if the wrapped key unwraps. -/
def jobKey (s : State) (r : Req) (jobId : BitVec 64) (node : BitVec 512) (wrapped : BitVec 256) (tag : BitVec 128)
    (epochW epochR : Word) : State :=
  request s r kJob fun s =>
    match s.sec.eph with
    | some e =>
      if e.jobId = jobId ∧ s.sec.job.isNone ∧ !s.sec.debug then
        let s := setSec s { s.sec with eph := none }
        match unwrap s e node wrapped tag with
        | some m =>
          let k : JobKey := { jobId := jobId, master := m, nonce := e.nonce, epochW := epochW, epochR := epochR }
          done (overwriteHbm (setSec s { s.sec with job := some k })) r kJob
        | none => refuseJob s r 0x11
      else refuseJob s r 0x11
    | none => refuseJob s r 0x11

/-- R568. -/
def execJobKey (r : Req) (jobId : BitVec 64) (node : BitVec 512) (wrapped : BitVec 256) (tag : BitVec 128)
    (epochW epochR : BitVec 32) (s : State) : Host.Outcome State Fault Refusal :=
  .next (jobKey s r jobId node wrapped tag epochW epochR)

/-- R568, R573: the job's keys are destroyed, and HBM is overwritten under a new idle key. -/
def jobDrop (s : State) (r : Req) (jobId : BitVec 64) : State :=
  request s r kJob fun s =>
    if s.sys.st = .holding ∧ !loaded s ∧ s.sec.job.any (fun k => k.jobId == jobId) then
      done (overwriteHbm (newIdleKey (destroyJobKey s))) r kJob
    else refuseJob s r 0x12

/-- R568. -/
def execJobDrop (r : Req) (jobId : BitVec 64) (s : State) : Host.Outcome State Fault Refusal := .next (jobDrop s r jobId)

/-- R572: BIND verifies under the round-up key. -/
def bindOk (s : State) (signer : BitVec 24) (cert : Bytes) (bind : BitVec 128) : Bool :=
  s.sec.job.any fun k => ruAuth k (natLE 8 k.jobId.toNat ++ natLE 4 signer.toNat ++ sha256 cert) == bind

/-- R572: a certificate of another device is kept, or replaces the one kept for its signer; at most 8 are. -/
def peerCert (s : State) (r : Req) (signer : BitVec 24) (cert : Bytes) (bind : BitVec 128) (chains : Bool) : State :=
  request s r kJob fun s =>
    let others := s.sec.peers.filter fun p => p.1 != signer
    if bindOk s signer cert bind && chains && decide (others.length < 8) then
      done (setSec s { s.sec with peers := others ++ [(signer, cert)] }) r kJob
    else refuseReq s r kJob 0x0A0E0008 (d4 0x13)

/-- R572. -/
def execPeerCert (r : Req) (signer : BitVec 24) (cert : Bytes) (bind : BitVec 128) (chains : Bool) (s : State) :
    Host.Outcome State Fault Refusal := .next (peerCert s r signer cert bind chains)

/-! ## Debug unlock (R575) -/

/-- R575 steps 2 and 3, once no job runs and no teardown is left. -/
def debugUnlock (s : State) : State :=
  if s.sec.debugPending && !(s.sys.st == .running || s.sys.st == .armed || s.sys.st == .faulted || s.sys.st == .draining) then
    let s := discardProgram (destroyJobKey s)
    setSec (clearHbm s) { s.sec with debug := true, debugPending := false }
  else s

/-- R575. -/
def execDebugUnlock (s : State) : Host.Outcome State Fault Refusal := .next (debugUnlock s)

/-! ## Enrolment, attestation and certificates (R556, R564, R565) -/

/-- R556: the owner is enrolled once. -/
def enroll (s : State) (r : Req) (key : BitVec 512) (voucherOk : Bool) : State :=
  request s r kIdentity fun s =>
    if s.sec.owner.isNone && voucherOk then done (setSec s { s.sec with owner := some key }) r kIdentity
    else refuseReq s r kIdentity 0x0A0E0007

/-- R556. -/
def execEnroll (r : Req) (key : BitVec 512) (voucherOk : Bool) (s : State) : Host.Outcome State Fault Refusal :=
  .next (enroll s r key voucherOk)

/-- The digest of a firmware image: what the slot was made with, or what FW_DATA has staged in it (log 7). -/
def fwDigest (s : State) (kind : Nat) : Bytes :=
  let b := vget s.sec.fwRun kind false
  Config.made "fw" (natLE 1 (2 * kind + b2n b) ++
    (((fwSlot s kind b).image.map fun m => m.flatMap fun c => natLE 4 c.1 ++ [c.2]).getD [])) 32

/-- SEC_POLICY, SEC_OPCERT_MIN and every RW/L register, in ascending address order (R565, Table 15-6). -/
def configRegs : List Nat :=
  [0x10010, 0x1003C, 0x10044, 0x5001C, 0x60000, 0x80000] ++ ((List.range 16).map fun i => 0x80040 + 4 * i) ++
  [0x90004, 0xA000C, 0xB0008, 0xC0024, 0xC0028, 0xC0030, 0xD0004, 0xD0008, 0xD001C] ++
  ((List.range 20).map fun c => 0xD0200 + 4 * c) ++ [0xE0004, 0xE0060]

/-- CONFIG of an attestation report. -/
def configDigest (s : State) : Bytes := sha256 (configRegs.flatMap fun a => natLE 4 ((dieReg s a).getD 0))

/-- USER_CAL: the digest of the user table and ENABLE, zero while ENABLE is 0 (R600). -/
def userCalDigest (s : State) : Bytes :=
  if s.gov.ucalEnable then sha256 ((s.gov.ucal.toList.flatMap fun v => natLE 4 v.toNat) ++ natLE 4 1) else zeros 32

/-- FLAGS of an attestation report. -/
def attestFlags (s : State) : Nat :=
  packFields [(mirrorWord s % 16, 4), (b2n s.sec.owner.isSome, 3), (b2n (loaded s), 2), (b2n s.sec.job.isSome, 1),
    (b2n s.sec.debug, 0)]

/-- Bytes 0x00 to 0xFF of an attestation report (Table 15-7). -/
def attestBody (s : State) (nonce : BitVec 128) : Bytes :=
  natLE 4 0x50394154 ++ natLE 4 (ownId s) ++ natLE 16 nonce.toNat ++
  (if s.shp.rom then zeros 32 else fwDigest s 0) ++ (if s.die = .off then zeros 32 else fwDigest s 1) ++
  Config.made "calibration" [] 32 ++ userCalDigest s ++ ownerDigest s ++ configDigest s ++
  (s.sec.svn.toList.flatMap fun v => natLE 4 v.toNat) ++ natLE 4 (attestFlags s) ++
  natLE 8 ((s.sec.job.map fun k => k.jobId.toNat).getD 0) ++ zeros 16

/-- R565. -/
def attest (s : State) (r : Req) (nonce : BitVec 128) : State :=
  request s r kIdentity fun s =>
    let b := attestBody s nonce
    done s r kIdentity ([0x20] ++ b ++ Config.made "sign" (sha256 b) 64)

/-- R565. -/
def execAttest (r : Req) (nonce : BitVec 128) (s : State) : Host.Outcome State Fault Refusal := .next (attest s r nonce)

/-- R564: the identity certificate and the vendor device-CA certificate. -/
def execCertRead (r : Req) (s : State) : Host.Outcome State Fault Refusal :=
  .next (request s r kIdentity fun s => done s r kIdentity ([0x41] ++ Config.certificates))

/-! ## Firmware (R566, R567) -/

/-- Slot i replaced. -/
def setFwSlot (s : State) (i : Nat) (x : FwSlot) : State := setSec s { s.sec with fw := vset s.sec.fw i x }

/-- R567: bytes of an image for the slot not in use. -/
def fwData (s : State) (r : Req) (kind off : Nat) (b : Bytes) : State :=
  request s r kFw fun s =>
    let idle := !vget s.sec.fwRun kind false
    let x := fwSlot s kind idle
    done (setFwSlot s (2 * kind + b2n idle) { image := some (putRun (x.image.getD []) off b), svn := none }) r kFw

/-- R567; a frame of a wrong LENGTH is dropped (R396). -/
def execFwData (r : Req) (kind : Fin 2) (offset : BitVec 32) (bytes : Bytes) (s : State) : Host.Outcome State Fault Refusal :=
  .next (if fwDataOk bytes then fwData s r kind.val offset.toNat bytes else wrongLength s r.link.val true)

/-- R566, R567: the staged image is verified, and is selected for the next boot. -/
def fwCommit (s : State) (r : Req) (kind : Nat) (svn : Option Word) : State :=
  request s r kFw fun s =>
    let idle := !vget s.sec.fwRun kind false
    let x := fwSlot s kind idle
    let s := if x.image.isSome then setFwSlot s (2 * kind + b2n idle) { x with svn := svn } else s
    if fwOk s kind idle then done (setSec s { s.sec with fwSel := vset s.sec.fwSel kind idle }) r kFw
    else respondCode (raise s 0x0A0E0004 .event (d4 kind)) r true kFw.type 0x0A0E0004

/-- R566. -/
def execFwCommit (r : Req) (kind : Fin 2) (svn : Option (BitVec 32)) (s : State) : Host.Outcome State Fault Refusal :=
  .next (fwCommit s r kind.val svn)

end Sys2Proof.Machine
end

