-- ==== Sys2Proof/Machine/Restore.lean ====
section
/-!
DEFINITION. Restore (spec/13 R496 to R499; spec/15 R571, R572).
-/
namespace Sys2Proof.Machine

/-- CKPT messages. -/
def kCkpt : ReqKind := { type := 0x0A }

/-- A restore in progress, replaced or gone. -/
def setRestore (s : State) (x : Option Restore) : State := setSnp s { s.snp with restore := x }

/-! ## The manifest (Table 13-3, R496, R497) -/

/-- R496: may a manifest be accepted? -/
def restoreOk (s : State) : Bool :=
  s.sys.st == .holding && loaded s && s.sec.job.isSome && !s.tet.armedOnce && !s.snp.restored

/-- Bytes at an offset, in place of those that stood there. -/
def splice (b : Bytes) (off : Nat) (x : Bytes) : Bytes := slice b 0 off ++ x ++ b.drop (off + x.length)

/-- The shards of a manifest; its bytes hold an entry for each. -/
def manShards (m : Bytes) : List Shard :=
  (List.range (min (fld m 0x24 4) (m.length / 64))).map fun k =>
    ⟨if k = 0 then none else some (fld m (0x88 + 64 * k) 8), fld m (0x80 + 64 * k) 4⟩

/-- DIGEST of shard k. -/
def manDigest (m : Bytes) (k : Nat) : Bytes := slice m (0xA0 + 64 * k) 32

/-- R497 step 1, R572: a certificate is kept for the SIGNER, or it is this device; `sigOk` is what it verifies (log 7). -/
def signerOk (s : State) (m : Bytes) (sigOk : Bool) : Bool :=
  let a := fld m 0x20 3
  sigOk && (s.sec.peers.any (fun p => p.1.toNat == a) || a == ownId s)

/-- R497 step 2. -/
def shapeOk (s : State) (m : Bytes) : Bool :=
  let im := img s
  fld m 0x08 8 == s.str.job.toNat && fld m 0x18 4 == imagePosition im && fld m 0x1C 4 == jobDevices im &&
  fld m 0x06 1 == fld im 0x06 1 && (m.drop 0x28).take 32 == programDigest im

/-- R497 step 3. -/
def shardsIn (s : State) (m : Bytes) : Bool :=
  (manShards m).all fun sh => sh.addr.all fun a => decide (a + sh.pages * pageBytes ≤ hbmFootprint (img s))

/-- A refused restore. -/
def refuseRestore (s : State) (r : Req) : State := respondCode (raise s 0x0B0C0001 .refused) r false kCkpt.type 0x0B0C0001

/-- R497: the last piece has come. -/
def manifestWhole (s : State) (r : Req) (m : Bytes) (sigOk : Bool) : State :=
  if !signerOk s m sigOk then refuseReq (setRestore s none) r kCkpt 0x0A0C0001 (d8 (fld m 0x10 8) ++ d4 (fld m 0x18 4))
  else if !shapeOk s m || !shardsIn s m then refuseRestore (setRestore s none) r
  else done (setRestore s (some { manifest := m, accepted := true })) r kCkpt

/-- R496, R497: a piece of a manifest; one that follows an accepted manifest begins anew. -/
def restoreManifest (s : State) (r : Req) (off : Nat) (last : Bool) (b : Bytes) (sigOk : Bool) : State :=
  request s r kCkpt fun s =>
    if !restoreOk s then refuseRestore s r
    else
      let old := match s.snp.restore with
        | some x => if x.accepted then [] else x.manifest
        | none => []
      let m := splice old off b
      if last then manifestWhole s r m sigOk else done (setRestore s (some { manifest := m })) r kCkpt

/-- R497; a frame of a wrong LENGTH is dropped (R396). -/
def execRestoreManifest (r : Req) (offset : BitVec 32) (last : Bool) (bytes : Bytes) (sigOk : Bool) (s : State) :
    Host.Outcome State Fault Refusal :=
  .next (if pieceOk bytes then restoreManifest s r offset.toNat last bytes sigOk else wrongLength s r.link.val false)

/-! ## Pages (R498) -/

/-- The accepted manifest's restore, while the device may take it further. -/
def restoring (s : State) : Option Restore := if restoreOk s then s.snp.restore.filter (·.accepted) else none

/-- The bytes of a stored page: ciphertext and tag. -/
def storedBytes : Nat := 262160

/-- The pages of the shards before shard k. -/
def pagesBefore (shs : List Shard) (k : Nat) : Nat := ((shs.take k).map Shard.pages).foldl (· + ·) 0

/-- A page whose tag has verified is written: the capture page is kept, with its ratio table written (R498). -/
def writePage (s : State) (x : Restore) (p : Nat) (plain : Bytes) : State :=
  if p = 0 then
    let s := setRestore s (some { x with capture := plain })
    if ratioTable (img s) = locNone then s else hbmWrite s (ratioTable (img s)) ((plain.drop 0x1000).take 131072)
  else
    match genPageAddr (manShards x.manifest) p with
    | some a => hbmWrite (setRestore s (some x)) a plain
    | none => setRestore s (some x)

/-- Page p is whole: its tag is verified (R571), and it is written. -/
def pageWhole (s : State) (x : Restore) (p : Nat) (stored : Bytes) (plain : Option Bytes) : State :=
  let x := { x with pieces := serase x.pieces p }
  match plain with
  | some b => writePage s { x with whole := sset x.whole p stored } p b
  | none => setRestore s (some { x with tagFail := true })

/-- What a stored page of the manifest's generation opens to under its page key of the read epoch, if its tag verifies (R571). -/
def openPage (s : State) (m : Bytes) (shard page : Nat) (stored : Bytes) : Option Bytes :=
  s.sec.job.bind fun k =>
    let position := fld m 0x18 4
    let marker := fld m 0x10 8
    gcmOpen (pageKey k k.epochR position marker) (pageNonce shard page) (pageAad k position marker shard page) stored

/-- R498: a piece of a page. -/
def restorePage (s : State) (l : Nat) (marker : BitVec 64) (position : BitVec 32) (shard page off : Nat) (b : Bytes) : State :=
  bulk s l fun s =>
    match restoring s with
    | none => s
    | some x =>
      let shs := manShards x.manifest
      let n := (shs.map Shard.pages).getD shard 0
      if n ≤ page then setRestore s (some { x with outside := some (x.outside.getD (shard, page)) })
      else
        let p := pagesBefore shs shard + page
        let got := putRun (sgetD x.pieces p []) off (b.take (storedBytes - off))
        if got.length < storedBytes then setRestore s (some { x with pieces := sset x.pieces p got })
        else
          let ours := fld x.manifest 0x10 8 == marker.toNat && fld x.manifest 0x18 4 == position.toNat
          let stored := got.map Prod.snd
          pageWhole s x p stored (if ours then openPage s x.manifest shard page stored else none)

/-- R498; a frame of a wrong LENGTH is dropped (R396). -/
def execRestorePage (link : Fin 2) (marker : BitVec 64) (position shard page offset : BitVec 32) (bytes : Bytes)
    (s : State) : Host.Outcome State Fault Refusal :=
  .next (if pieceOk bytes then restorePage s link.val marker position shard.toNat page.toNat offset.toNat bytes
    else wrongLength s link.val false)

/-! ## RESTORE_END (R498, R499) -/

/-- The stored pages of shard k, none of them missing. -/
def storedPages (x : Restore) (k : Nat) : Option (List Bytes) :=
  let shs := manShards x.manifest
  let n := (shs.map Shard.pages).getD k 0
  let ps := (List.range n).filterMap fun j => sget? x.whole (pagesBefore shs k + j)
  if ps.length = n then some ps else none

/-- Shard k's first missing page. -/
def shardMissing (x : Restore) (k : Nat) : Option (Nat × Nat) :=
  let shs := manShards x.manifest
  (firstBelow (fun j => (sget? x.whole (pagesBefore shs k + j)).isNone) ((shs.map Shard.pages).getD k 0)).map fun j => (k, j)

/-- A shard whose digest does not match (R489). -/
def digestBad (x : Restore) (k : Nat) : Bool := (storedPages x k).any fun ps => sha256 ps.flatten != manDigest x.manifest k

/-- Strand n's entry of the capture page agrees with the loaded program (R498). -/
def strandEntryOk (s : State) (page : Bytes) (n : Nat) : Bool :=
  let (i, st) := pageStrand page n
  let word := fun op => decide (i < codeCount (img s) n) && wOp (codeWord (img s) n i) == op
  if participates s n then (st == 6 && word 0x01) || (st == 7 && word 0x02) else st == 0 && i == 0

/-- Why a restore fails at RESTORE_END: the code, its effect and its detail. -/
def restoreFailure (s : State) (x : Restore) : Option (Nat × Effect × Bytes) :=
  let ks := List.range (manShards x.manifest).length
  if x.tagFail then some (0x030C0001, .refusedTally, [])
  else match x.outside <|> ks.findSome? (shardMissing x) with
    | some (k, p) => some (0x0B0C0002, .refusedTally, d4 k ++ d4 p)
    | none =>
      match ks.find? (digestBad x) with
      | some k => some (0x030C0001, .refusedTally, d4 k)
      | none => if (List.range 43).all (strandEntryOk s x.capture) then none else some (0x0B0C0001, .refused, [])

/-- R499, R199: the restore has succeeded. -/
def restoreDone (s : State) (x : Restore) : State :=
  let m := BitVec.ofNat 64 (fld x.manifest 0x10 8)
  let s := setSnp s { s.snp with restore := none, restored := true, restoredPage := x.capture, genMarker := m, durable := m }
  { s with str := { s.str with marker := m }, tet := { s.tet with shpMarker := m }, rod := { s.rod with norm := [] } }

/-- R498, R405: the result of a restore, with its report. -/
def restoreResult (s : State) (x : Restore) : State :=
  match restoreFailure s x with
  | some (code, eff, detail) => notify (raise (setRestore s none) code eff detail) .restoreResult code
  | none => notify (restoreDone s x) .restoreResult 0

/-- R498: RESTORE_END. -/
def restoreEnd (s : State) (r : Req) : State :=
  request s r kCkpt fun s =>
    match restoring s with
    | none => refuseRestore s r
    | some x => restoreResult (done s r kCkpt) x

/-- R498. -/
def execRestoreEnd (r : Req) (s : State) : Host.Outcome State Fault Refusal := .next (restoreEnd s r)

end Sys2Proof.Machine
end

