-- ==== Sys2Proof/Machine/Dispatch.lean ====
section
/-!
DEFINITION. exec: one arm per command, each one call of its meaning.
-/
namespace Sys2Proof.Machine

/-- The effect of a command on everything but the queue. -/
def exec (i : Instr) (s : State) : Host.Outcome State Fault Refusal :=
  match i with
  | .instructionDecode n => Sys2Proof.Machine.execInstructionDecode n s
  | .tokenWaitSatisfied n => Sys2Proof.Machine.execTokenWaitSatisfied n s
  | .instructionComplete done => Sys2Proof.Machine.execInstructionComplete done s
  | .nop n => Sys2Proof.Machine.execNop n s
  | .stepMarker n => Sys2Proof.Machine.execStepMarker n s
  | .endStrand n => Sys2Proof.Machine.execEndStrand n s
  | .matmul => Sys2Proof.Machine.execMatmul s
  | .seatChunk waited => Sys2Proof.Machine.execSeatChunk waited s
  | .rowGroupBegin waited => Sys2Proof.Machine.execRowGroupBegin waited s
  | .passBegin feedWait seatWait throttle faults => Sys2Proof.Machine.execPassBegin feedWait seatWait throttle faults s
  | .recountWindowEnd => Sys2Proof.Machine.execRecountWindowEnd s
  | .stepBackReplay throttle faults => Sys2Proof.Machine.execStepBackReplay throttle faults s
  | .recountReplay throttle faults => Sys2Proof.Machine.execRecountReplay throttle faults s
  | .classificationReplay beadCycles faults2 faults3 failed => Sys2Proof.Machine.execClassificationReplay beadCycles faults2 faults3 failed s
  | .beadTest failed => Sys2Proof.Machine.execBeadTest failed s
  | .spareSubstitution => Sys2Proof.Machine.execSpareSubstitution s
  | .stripWake p => Sys2Proof.Machine.execStripWake p s
  | .drain => Sys2Proof.Machine.execDrain s
  | .drainSlotReady => Sys2Proof.Machine.execDrainSlotReady s
  | .drainLastRow outWait throttle => Sys2Proof.Machine.execDrainLastRow outWait throttle s
  | .sweep throttle => Sys2Proof.Machine.execSweep throttle s
  | .copy f => Sys2Proof.Machine.execCopy f s
  | .feed f => Sys2Proof.Machine.execFeed f s
  | .writeout f => Sys2Proof.Machine.execWriteout f s
  | .load c => Sys2Proof.Machine.execLoad c s
  | .store c => Sys2Proof.Machine.execStore c s
  | .gather c => Sys2Proof.Machine.execGather c s
  | .scatter c => Sys2Proof.Machine.execScatter c s
  | .scatterAdd c => Sys2Proof.Machine.execScatterAdd c s
  | .tpose c => Sys2Proof.Machine.execTpose c s
  | .add c => Sys2Proof.Machine.execAdd c s
  | .sub c => Sys2Proof.Machine.execSub c s
  | .mul c => Sys2Proof.Machine.execMul c s
  | .adds c => Sys2Proof.Machine.execAdds c s
  | .subs c => Sys2Proof.Machine.execSubs c s
  | .neg c => Sys2Proof.Machine.execNeg c s
  | .iabs c => Sys2Proof.Machine.execIabs c s
  | .and c => Sys2Proof.Machine.execAnd c s
  | .or c => Sys2Proof.Machine.execOr c s
  | .xor c => Sys2Proof.Machine.execXor c s
  | .not c => Sys2Proof.Machine.execNot c s
  | .shl c => Sys2Proof.Machine.execShl c s
  | .shr c => Sys2Proof.Machine.execShr c s
  | .sar c => Sys2Proof.Machine.execSar c s
  | .cmpeq c => Sys2Proof.Machine.execCmpeq c s
  | .cmpne c => Sys2Proof.Machine.execCmpne c s
  | .cmplt c => Sys2Proof.Machine.execCmplt c s
  | .cmple c => Sys2Proof.Machine.execCmple c s
  | .sel c => Sys2Proof.Machine.execSel c s
  | .fadd c => Sys2Proof.Machine.execFadd c s
  | .fsub c => Sys2Proof.Machine.execFsub c s
  | .fmul c => Sys2Proof.Machine.execFmul c s
  | .fma c => Sys2Proof.Machine.execFma c s
  | .fmin c => Sys2Proof.Machine.execFmin c s
  | .fmax c => Sys2Proof.Machine.execFmax c s
  | .fabs c => Sys2Proof.Machine.execFabs c s
  | .fneg c => Sys2Proof.Machine.execFneg c s
  | .fdiv c => Sys2Proof.Machine.execFdiv c s
  | .fsqrt c => Sys2Proof.Machine.execFsqrt c s
  | .cvt c => Sys2Proof.Machine.execCvt c s
  | .map c => Sys2Proof.Machine.execMap c s
  | .exp c => Sys2Proof.Machine.execExp c s
  | .exp2 c => Sys2Proof.Machine.execExp2 c s
  | .log c => Sys2Proof.Machine.execLog c s
  | .log2 c => Sys2Proof.Machine.execLog2 c s
  | .rsqrt c => Sys2Proof.Machine.execRsqrt c s
  | .erf c => Sys2Proof.Machine.execErf c s
  | .sigmoid c => Sys2Proof.Machine.execSigmoid c s
  | .tanh c => Sys2Proof.Machine.execTanh c s
  | .softplus c => Sys2Proof.Machine.execSoftplus c s
  | .elu c => Sys2Proof.Machine.execElu c s
  | .gelu c => Sys2Proof.Machine.execGelu c s
  | .silu c => Sys2Proof.Machine.execSilu c s
  | .gelud c => Sys2Proof.Machine.execGelud c s
  | .silud c => Sys2Proof.Machine.execSilud c s
  | .sort c => Sys2Proof.Machine.execSort c s
  | .hash64 c => Sys2Proof.Machine.execHash64 c s
  | .hashstr c => Sys2Proof.Machine.execHashstr c s
  | .minhash c => Sys2Proof.Machine.execMinhash c s
  | .edit c => Sys2Proof.Machine.execEdit c s
  | .jw c => Sys2Proof.Machine.execJw c s
  | .norm c => Sys2Proof.Machine.execNorm c s
  | .normrd c => Sys2Proof.Machine.execNormrd c s
  | .normclr c => Sys2Proof.Machine.execNormclr c s
  | .opt c => Sys2Proof.Machine.execOpt c s
  | .collReduce e => Sys2Proof.Machine.execCollReduce e s
  | .collAllreduce e => Sys2Proof.Machine.execCollAllreduce e s
  | .collAllgather e => Sys2Proof.Machine.execCollAllgather e s
  | .collBroadcast e => Sys2Proof.Machine.execCollBroadcast e s
  | .collFrameReceived a plan seq m => Sys2Proof.Machine.execCollFrameReceived a plan seq m s
  | .neighbourTimeout e => Sys2Proof.Machine.execNeighbourTimeout e s
  | .snap => Sys2Proof.Machine.execSnap s
  | .snapFence => Sys2Proof.Machine.execSnapFence s
  | .pagePush page us => Sys2Proof.Machine.execPagePush page us s
  | .snapPageSend => Sys2Proof.Machine.execSnapPageSend s
  | .endOfCopying us => Sys2Proof.Machine.execEndOfCopying us s
  | .mirrorBegin a marker jobId bytes position => Sys2Proof.Machine.execMirrorBegin a marker jobId bytes position s
  | .mirrorPage a f => Sys2Proof.Machine.execMirrorPage a f s
  | .relayShard shard pages => Sys2Proof.Machine.execRelayShard shard pages s
  | .relayDone a digests => Sys2Proof.Machine.execRelayDone a digests s
  | .shardStored ctx shard relayed => Sys2Proof.Machine.execShardStored ctx shard relayed s
  | .manifestStored ctx => Sys2Proof.Machine.execManifestStored ctx s
  | .storageFailed ctx => Sys2Proof.Machine.execStorageFailed ctx s
  | .ckptTimeout => Sys2Proof.Machine.execCkptTimeout s
  | .markerCommit => Sys2Proof.Machine.execMarkerCommit s
  | .jobEnd => Sys2Proof.Machine.execJobEnd s
  | .codeCollected d => Sys2Proof.Machine.execCodeCollected d s
  | .teardownDrained => Sys2Proof.Machine.execTeardownDrained s
  | .teardownDrainTimeout => Sys2Proof.Machine.execTeardownDrainTimeout s
  | .contextResetDone => Sys2Proof.Machine.execContextResetDone s
  | .contextResetOverrun => Sys2Proof.Machine.execContextResetOverrun s
  | .hbmScrubComplete => Sys2Proof.Machine.execHbmScrubComplete s
  | .hangCheck => Sys2Proof.Machine.execHangCheck s
  | .hangThreshold => Sys2Proof.Machine.execHangThreshold s
  | .heartbeat missing => Sys2Proof.Machine.execHeartbeat missing s
  | .islandStall w stopFailed => Sys2Proof.Machine.execIslandStall w stopFailed s
  | .islandReset w => Sys2Proof.Machine.execIslandReset w s
  | .deviceReset => Sys2Proof.Machine.execDeviceReset s
  | .bandRise tempC => Sys2Proof.Machine.execBandRise tempC s
  | .bandFall tempC => Sys2Proof.Machine.execBandFall tempC s
  | .telemetrySample values => Sys2Proof.Machine.execTelemetrySample values s
  | .thermalTrip sensor => Sys2Proof.Machine.execThermalTrip sensor s
  | .thermalRelease => Sys2Proof.Machine.execThermalRelease s
  | .govTick => Sys2Proof.Machine.execGovTick s
  | .grainGrant arrived => Sys2Proof.Machine.execGrainGrant arrived s
  | .grainAged strand => Sys2Proof.Machine.execGrainAged strand s
  | .feedbackPeriod measured => Sys2Proof.Machine.execFeedbackPeriod measured s
  | .driftWindow => Sys2Proof.Machine.execDriftWindow s
  | .deferAdjust => Sys2Proof.Machine.execDeferAdjust s
  | .calibrationDone values => Sys2Proof.Machine.execCalibrationDone values s
  | .statusRead r => Sys2Proof.Machine.execStatusRead r s
  | .regRead r addr more => Sys2Proof.Machine.execRegRead r addr more s
  | .regWrite r addr value => Sys2Proof.Machine.execRegWrite r addr value s
  | .timNowRead r => Sys2Proof.Machine.execTimNowRead r s
  | .tallyHeadRead r => Sys2Proof.Machine.execTallyHeadRead r s
  | .tallyNextRead r => Sys2Proof.Machine.execTallyNextRead r s
  | .shpTimeRead r => Sys2Proof.Machine.execShpTimeRead r s
  | .strTokSignal r value => Sys2Proof.Machine.execStrTokSignal r value s
  | .strDisable r value => Sys2Proof.Machine.execStrDisable r value s
  | .unitDrainDone unit => Sys2Proof.Machine.execUnitDrainDone unit s
  | .knlResetContext r => Sys2Proof.Machine.execKnlResetContext r s
  | .knlResetDevice r => Sys2Proof.Machine.execKnlResetDevice r s
  | .escalateClear g r => Sys2Proof.Machine.execEscalateClear g r s
  | .epochWrite r hi => Sys2Proof.Machine.execEpochWrite r hi s
  | .tallyFlush => Sys2Proof.Machine.execTallyFlush s
  | .tallyFlushDone => Sys2Proof.Machine.execTallyFlushDone s
  | .tallyAgeTimeout => Sys2Proof.Machine.execTallyAgeTimeout s
  | .tallyBufferThreshold => Sys2Proof.Machine.execTallyBufferThreshold s
  | .tallyClear g r => Sys2Proof.Machine.execTallyClear g r s
  | .packageReset g r => Sys2Proof.Machine.execPackageReset g r s
  | .sampleRelease g r => Sys2Proof.Machine.execSampleRelease g r s
  | .measure r => Sys2Proof.Machine.execMeasure r s
  | .restoreFactory r => Sys2Proof.Machine.execRestoreFactory r s
  | .adopt g r => Sys2Proof.Machine.execAdopt g r s
  | .govUcalWrite g r => Sys2Proof.Machine.execGovUcalWrite g r s
  | .loadBegin r jobId imageBytes => Sys2Proof.Machine.execLoadBegin r jobId imageBytes s
  | .loadData link offset bytes => Sys2Proof.Machine.execLoadData link offset bytes s
  | .loadEnd r => Sys2Proof.Machine.execLoadEnd r s
  | .loadCheck => Sys2Proof.Machine.execLoadCheck s
  | .launchArm r f => Sys2Proof.Machine.execLaunchArm r f s
  | .launchCommit r f => Sys2Proof.Machine.execLaunchCommit r f s
  | .launchCancel r f => Sys2Proof.Machine.execLaunchCancel r f s
  | .ruArm a f => Sys2Proof.Machine.execRuArm a f s
  | .ruArmack a m => Sys2Proof.Machine.execRuArmack a m s
  | .ruReady a m => Sys2Proof.Machine.execRuReady a m s
  | .ruCommit a f => Sys2Proof.Machine.execRuCommit a f s
  | .ruCommitack a m => Sys2Proof.Machine.execRuCommitack a m s
  | .ruCancel a f => Sys2Proof.Machine.execRuCancel a f s
  | .ruAckTimeout lead => Sys2Proof.Machine.execRuAckTimeout lead s
  | .armDeadline => Sys2Proof.Machine.execArmDeadline s
  | .launchTimeReached => Sys2Proof.Machine.execLaunchTimeReached s
  | .tetherAbort r cls => Sys2Proof.Machine.execTetherAbort r cls s
  | .hello r shepherd cert key nonce => Sys2Proof.Machine.execHello r shepherd cert key nonce s
  | .finish r shepherd sigOk => Sys2Proof.Machine.execFinish r shepherd sigOk s
  | .jobEphemeral r jobId => Sys2Proof.Machine.execJobEphemeral r jobId s
  | .ephemeralExpiry => Sys2Proof.Machine.execEphemeralExpiry s
  | .jobKey r jobId node wrapped tag epochW epochR => Sys2Proof.Machine.execJobKey r jobId node wrapped tag epochW epochR s
  | .jobDrop r jobId => Sys2Proof.Machine.execJobDrop r jobId s
  | .peerCert r signer cert bind chains => Sys2Proof.Machine.execPeerCert r signer cert bind chains s
  | .attest r nonce => Sys2Proof.Machine.execAttest r nonce s
  | .grantRegWrite r g => Sys2Proof.Machine.execGrantRegWrite r g s
  | .grantDebugUnlock r g => Sys2Proof.Machine.execGrantDebugUnlock r g s
  | .debugUnlock => Sys2Proof.Machine.execDebugUnlock s
  | .enroll r key voucherOk => Sys2Proof.Machine.execEnroll r key voucherOk s
  | .certRead r => Sys2Proof.Machine.execCertRead r s
  | .fwData r kind offset bytes => Sys2Proof.Machine.execFwData r kind offset bytes s
  | .fwCommit r kind svn => Sys2Proof.Machine.execFwCommit r kind svn s
  | .side r write addr value => Sys2Proof.Machine.execSide r write addr value s
  | .restoreManifest r offset last bytes sigOk => Sys2Proof.Machine.execRestoreManifest r offset last bytes sigOk s
  | .restorePage link marker position shard page offset bytes => Sys2Proof.Machine.execRestorePage link marker position shard page offset bytes s
  | .restoreEnd r => Sys2Proof.Machine.execRestoreEnd r s
  | .reservedMessage r type => Sys2Proof.Machine.execReservedMessage r type s
  | .tetherFrameReject link shp seq tagFailed => Sys2Proof.Machine.execTetherFrameReject link shp seq tagFailed s
  | .tetherNak link shp seq => Sys2Proof.Machine.execTetherNak link shp seq s
  | .tetherAckTimeout link shp => Sys2Proof.Machine.execTetherAckTimeout link shp s
  | .tetherLinkLost link => Sys2Proof.Machine.execTetherLinkLost link s
  | .tetherRetrain link comesUp => Sys2Proof.Machine.execTetherRetrain link comesUp s
  | .bothLinksLost => Sys2Proof.Machine.execBothLinksLost s
  | .dataFrameReceived a f => Sys2Proof.Machine.execDataFrameReceived a f s
  | .leadFrameReject lead seq cause lane => Sys2Proof.Machine.execLeadFrameReject lead seq cause lane s
  | .leadNak a seq => Sys2Proof.Machine.execLeadNak a seq s
  | .leadAckTimeout lead => Sys2Proof.Machine.execLeadAckTimeout lead s
  | .creditReturn a cls count => Sys2Proof.Machine.execCreditReturn a cls count s
  | .creditStall lead cls => Sys2Proof.Machine.execCreditStall lead cls s
  | .keyConfirm a ok => Sys2Proof.Machine.execKeyConfirm a ok s
  | .abortFrameReceived a origin cls hops => Sys2Proof.Machine.execAbortFrameReceived a origin cls hops s
  | .laneFailure lane => Sys2Proof.Machine.execLaneFailure lane s
  | .relaneComplete lead => Sys2Proof.Machine.execRelaneComplete lead s
  | .leadLost lead => Sys2Proof.Machine.execLeadLost lead s
  | .discoveryMgmt lead p => Sys2Proof.Machine.execDiscoveryMgmt lead p s
  | .discoveryEnd => Sys2Proof.Machine.execDiscoveryEnd s
  | .frameMarkerEdge interval => Sys2Proof.Machine.execFrameMarkerEdge interval s
  | .refClockAbsent => Sys2Proof.Machine.execRefClockAbsent s
  | .timeAdvert heard => Sys2Proof.Machine.execTimeAdvert heard s
  | .timeExchange x => Sys2Proof.Machine.execTimeExchange x s
  | .timeCounterWrap => Sys2Proof.Machine.execTimeCounterWrap s
  | .hbmEccReread stack pc page strand ok => Sys2Proof.Machine.execHbmEccReread stack pc page strand ok s
  | .checkValueReread stack pc row strand ok => Sys2Proof.Machine.execCheckValueReread stack pc row strand ok s
  | .pcRetrain stack pc => Sys2Proof.Machine.execPcRetrain stack pc s
  | .pcRetrainDone stack pc ok => Sys2Proof.Machine.execPcRetrainDone stack pc ok s
  | .drillInject => Sys2Proof.Machine.execDrillInject s
  | .drillSkip => Sys2Proof.Machine.execDrillSkip s
  | .standbyPowerGood pos leashEn images => Sys2Proof.Machine.execStandbyPowerGood pos leashEn images s
  | .computeDieRelease => Sys2Proof.Machine.execComputeDieRelease s
  | .domainPowerGood d => Sys2Proof.Machine.execDomainPowerGood d s
  | .domainPgTimeout d => Sys2Proof.Machine.execDomainPgTimeout d s
  | .hbmTrainingDone failed => Sys2Proof.Machine.execHbmTrainingDone failed s
  | .bootExit => Sys2Proof.Machine.execBootExit s
  | .startupTimeout => Sys2Proof.Machine.execStartupTimeout s
  | .railsLate => Sys2Proof.Machine.execRailsLate s
  | .railOrderFault step => Sys2Proof.Machine.execRailOrderFault step s
  | .railOutOfRange rail mv => Sys2Proof.Machine.execRailOutOfRange rail mv s
  | .powerFail => Sys2Proof.Machine.execPowerFail s
  | .powerFailRelease => Sys2Proof.Machine.execPowerFailRelease s
  | .vstbyLoss => Sys2Proof.Machine.execVstbyLoss s
  | .shepherdTimeSave => Sys2Proof.Machine.execShepherdTimeSave s
  | .shepherdWatchdog => Sys2Proof.Machine.execShepherdWatchdog s
  | .leashToggle => Sys2Proof.Machine.execLeashToggle s
  | .leashSelfFence => Sys2Proof.Machine.execLeashSelfFence s
  | .leashLapse => Sys2Proof.Machine.execLeashLapse s
  | .roleRequest => Sys2Proof.Machine.execRoleRequest s
  | .getacccr => Sys2Proof.Machine.execGetacccr s
  | .claimTimeout => Sys2Proof.Machine.execClaimTimeout s
  | .leashYield => Sys2Proof.Machine.execLeashYield s
  | .actuatorRefused => Sys2Proof.Machine.execActuatorRefused s
  | .trayBusParity resendFails => Sys2Proof.Machine.execTrayBusParity resendFails s
  | .techPoll toolAnswers others => Sys2Proof.Machine.execTechPoll toolAnswers others s
  | .lastCarryWritten => Sys2Proof.Machine.execLastCarryWritten s
  | .leadAck a seq => Sys2Proof.Machine.execLeadAck a seq s
  | .tetherAck link shp seq => Sys2Proof.Machine.execTetherAck link shp seq s
  | .shepherdServing => Sys2Proof.Machine.execShepherdServing s
  | .kerrinFirmwareServing => Sys2Proof.Machine.execKerrinFirmwareServing s
  | .tetherLinkUp link => Sys2Proof.Machine.execTetherLinkUp link s
  | .markerEdgeMissing => Sys2Proof.Machine.execMarkerEdgeMissing s
  | .leashPeerEdge interval epochSeen => Sys2Proof.Machine.execLeashPeerEdge interval epochSeen s
  | .mirrorBeginRefused a => Sys2Proof.Machine.execMirrorBeginRefused a s

end Sys2Proof.Machine
end

