-- ==== Sys2Proof/Safety.lean ====
section
/-!
DEFINITION. The terms in which the statements speak: a step that goes on, memories in canonical form, a code raised, a strand
that issued, and a request that is admitted.
-/
namespace Sys2Proof

open Sys2Proof.Machine

/-- A command runs to a next state of which P holds. -/
def Runs (c : Instr) (s : State) (P : State → Prop) : Prop := ∃ t, exec c s = .next t ∧ P t

/-- Every memory of the machine is in its canonical form: HBM, the Board, the local memories of the 16 clusters, the mirror
held for a partner, the norm store, the token counts and the check values of HBM and the Board. -/
structure Canonical (s : State) : Prop where
  hbm    : s.mem.hbm.wf = true
  board  : s.brd.mem.wf = true
  locals : ∀ c, (lmem s c).wf = true
  mirror : ∀ m, s.snp.mirror = some m → Mem.wf m.data = true
  norm   : srising 0 s.rod.norm = true
  tokens : srising 0 s.str.tok = true
  checks : ∀ c ∈ [s.brd.check, s.mem.check], srising 0 c = true ∧ c.all (fun e => e.2 != zeroCheck) = true

/-- A code is on its way to the Kennel (R430), with its effect and its detail. -/
def OnItsWay (t : State) (code : Nat) (eff : Effect) (detail : Bytes) (drill : Bool) : Prop :=
  ⟨BitVec.ofNat 32 code, eff, detail, drill⟩ ∈ t.knl.inflight

/-- Between s and t strand n issued its instruction (R210): it is in flight behind the earlier ones, the next word is
fetched, and no other strand changed. -/
def Issued (s t : State) (n : Nat) : Prop :=
  strand t n = { strand s n with
    inflight := (strand s n).inflight ++ [((strand s n).index.toNat, (strand s n).word)]
    index := (strand s n).index + 1, phase := .fetch, st := 1, hold := 0 } ∧
  ∀ m, m ≠ n → strand t m = strand s m

/-- Between s and t strand n issued its instruction with the descriptor d that it read (R277). -/
def IssuedWith (s t : State) (n : Nat) (d : Bytes) : Prop :=
  strand t n = { strand s n with
    inflight := (strand s n).inflight ++ [((strand s n).index.toNat, (strand s n).word)]
    index := (strand s n).index + 1, phase := .fetch, st := 1, hold := 0, desc := d } ∧
  ∀ m, m ≠ n → strand t m = strand s m

/-- Between s and t strand n was refused at issue with a code (R71): it stops, the code is raised job-ending, nothing of it is
in flight that was not, and no other strand changed. -/
def RefusedAtIssue (s t : State) (n code : Nat) : Prop :=
  strand t n = { strand s n with st := 8 } ∧ (∀ m, m ≠ n → strand t m = strand s m) ∧
  t.knl.inflight = s.knl.inflight ++ [⟨BitVec.ofNat 32 code, .jobEnding, [], s.sys.drill⟩]

/-- Between s and t a Rods instruction wrote only the `len` bytes at `d` of cluster c's local memory: every other byte of it,
every other cluster's memory and everything else but the strands is as before. -/
def LocalFrame (s t : State) (c d len : Nat) : Prop :=
  (∀ a, a < d ∨ d + len ≤ a → mget (lmem t c) a = mget (lmem s c) a) ∧
  (∀ c', c' ≠ c → lmem t c' = lmem s c') ∧
  t = { s with rod := { s.rod with mem := t.rod.mem }, str := { s.str with strands := t.str.strands } }

/-- A request that nothing stands before (R395, R402, R445, R554, R557): its link is up, the device is enrolled or the
request is one that is served before enrolment, its server serves, its session is open or it needs none, the parity of
the command holds, and fewer than 64 requests are outstanding (R399). -/
def Admits (s : State) (r : Req) (k : ReqKind) : Prop :=
  (linkAt s r.link).up = true ∧ (s.sec.owner.isSome = true ∨ k.early = true) ∧
  (k.shp = true → s.shp.serving = true ∨ (s.shp.rom = true ∧ k.rom = true)) ∧
  (k.shp = false → s.die = .serving) ∧
  (k.boot = true ∨ (sess s r.link k.shp).isOpen = true) ∧ r.parity ≠ .command ∧ r.ahead < maxAhead

/-- Between s and t only strands changed. -/
def OnlyStrands (s t : State) : Prop := t = { s with str := { s.str with strands := t.str.strands } }

/-- The strand of cluster c. -/
def rodStrand (c : Fin 16) : Fin 43 := ⟨18 + c.val, by omega⟩

/-- Strand n's instruction in flight is w, and may complete: no grain of its unit waits for credits, and every block that it reads
verifies (R200, R300). -/
def Ends (s : State) (n : Nat) (w : BitVec 128) : Prop :=
  canComplete s n = true ∧ ∃ i more, (strand s n).inflight = (i, w) :: more

/-- The same of cluster c. -/
def Finishing (s : State) (c : Fin 16) (w : BitVec 128) : Prop := Ends s (18 + c.val) w

/-- The strand of Fetch engine f. -/
def fetchStrand (f : Fin 16) : Fin 43 := ⟨f.val + 2, by omega⟩

/-- What no step takes away: the enrolled owner (R556), and the height of each security version number (R567). -/
def NothingLost (s t : State) : Prop :=
  (∀ k, s.sec.owner = some k → t.sec.owner = some k) ∧ ∀ i, vget s.sec.svn i 0 ≤ vget t.sec.svn i 0

/-- The integer opcodes of two sources (Table 5-2, R173): the row, its opcode, and the result for two elements of a type of w
bits, read as signed numbers where the type is I32. -/
def intRows (c : Fin 16) : List (Instr × Nat × (Nat → Nat → Nat → Nat)) :=
  [(.add c, 0x20, fun t a b => (a + b) % 2 ^ tyBits t),
   (.sub c, 0x21, fun t a b => (a + 2 ^ tyBits t - b) % 2 ^ tyBits t),
   (.mul c, 0x22, fun t a b => a * b % 2 ^ tyBits t),
   (.adds c, 0x23, fun t a b =>
      if t = 2 then ofSigned 32 (max (-2147483648) (min 2147483647 (toSigned 32 a + toSigned 32 b)))
      else min (a + b) (2 ^ tyBits t - 1)),
   (.subs c, 0x24, fun t a b =>
      if t = 2 then ofSigned 32 (max (-2147483648) (min 2147483647 (toSigned 32 a - toSigned 32 b))) else a - b),
   (.and c, 0x28, fun _ a b => a &&& b),
   (.or c, 0x29, fun _ a b => a ||| b),
   (.xor c, 0x2A, fun _ a b => a ^^^ b),
   (.shl c, 0x2C, fun t a b => a * 2 ^ (b % tyBits t) % 2 ^ tyBits t),
   (.shr c, 0x2D, fun t a b => a / 2 ^ (b % tyBits t)),
   (.sar c, 0x2E, fun t a b => ofSigned (tyBits t) (toSigned (tyBits t) a / 2 ^ (b % tyBits t)))]

/-- The integer opcodes of one source (Table 5-2, R173). -/
def intRows1 (c : Fin 16) : List (Instr × Nat × (Nat → Nat → Nat)) :=
  [(.neg c, 0x25, fun t a => (2 ^ tyBits t - a) % 2 ^ tyBits t),
   (.iabs c, 0x26, fun t a => if t = 2 ∧ 2 ^ 31 ≤ a then 2 ^ 32 - a else a),
   (.not c, 0x2B, fun t a => 2 ^ tyBits t - 1 - a)]

/-- The comparisons (Table 5-2, R173): all ones where the relation holds of the two numbers. -/
def cmpRows (c : Fin 16) : List (Instr × Nat × (Fv → Fv → Bool)) :=
  [(.cmpeq c, 0x30, fvEq), (.cmpne c, 0x31, fun x y => !fvEq x y), (.cmplt c, 0x32, fvLt),
   (.cmple c, 0x33, fun x y => fvLt x y || fvEq x y)]


/-- The floating-point opcodes that form one result (R172, R174, R177): the row, its opcode, its sources, and the binary32
result before it is written in the element type. -/
def floatRows (c : Fin 16) : List (Instr × Nat × Nat × (Word → Word → Word → Word)) :=
  [(.fadd c, 0x40, 2, fun a b _ => toF32 (fvAdd (f32 a) (f32 b))),
   (.fsub c, 0x41, 2, fun a b _ => toF32 (fvAdd (f32 a) (fvNeg (f32 b)))),
   (.fmul c, 0x42, 2, fun a b _ => toF32 (fvMul (f32 a) (f32 b))),
   (.fma c, 0x43, 3, fun a b d => toF32 (fvAdd (fvMul (f32 a) (f32 b)) (f32 d))),
   (.fmin c, 0x44, 2, fun a b _ => fMinMax false a b), (.fmax c, 0x45, 2, fun a b _ => fMinMax true a b),
   (.fabs c, 0x46, 1, fun a _ _ => if (f32 a).isNan then nan32 else a &&& 0x7FFFFFFF),
   (.fneg c, 0x47, 1, fun a _ _ => if (f32 a).isNan then nan32 else a ^^^ 0x80000000),
   (.fdiv c, 0x48, 2, fun a b _ => toF32 (fvDiv (f32 a) (f32 b))),
   (.fsqrt c, 0x49, 1, fun a _ _ => toF32 (fvSqrt (f32 a))),
   (.exp c, 0x50, 1, fun a _ _ => specialFn .exp a), (.exp2 c, 0x51, 1, fun a _ _ => specialFn .exp2 a),
   (.log c, 0x52, 1, fun a _ _ => specialFn .log a), (.log2 c, 0x53, 1, fun a _ _ => specialFn .log2 a),
   (.rsqrt c, 0x54, 1, fun a _ _ => specialFn .rsqrt a), (.erf c, 0x55, 1, fun a _ _ => specialFn .erf a),
   (.sigmoid c, 0x56, 1, fun a _ _ => activate 3 0 a), (.tanh c, 0x57, 1, fun a _ _ => activate 4 0 a),
   (.softplus c, 0x58, 1, fun a _ _ => activate 5 0 a), (.elu c, 0x59, 1, fun a _ _ => activate 6 0 a),
   (.gelu c, 0x5A, 1, fun a _ _ => activate 7 0 a), (.silu c, 0x5B, 1, fun a _ _ => activate 8 0 a)]

/-- A Rods instruction with a CHECK bit changed only its cluster's local memory, at the bytes that `inside` names, the Rods'
counters, its strand, and the codes on their way. -/
def CheckedFrame (s t : State) (c : Nat) (inside : Nat → Prop) : Prop :=
  (∀ a, ¬ inside a → mget (lmem t c) a = mget (lmem s c) a) ∧ (∀ c', c' ≠ c → lmem t c' = lmem s c') ∧
  t = { s with
    rod := { s.rod with mem := t.rod.mem, event := t.rod.event, jobNonfinite := t.rod.jobNonfinite }
    str := { s.str with strands := t.str.strands }, knl := { s.knl with inflight := t.knl.inflight } }

/-- R202: under CHECK, n non-finite elements written are counted and raise 0x0104_0002 with severity event; otherwise nothing
is counted or raised. -/
def Checked (s t : State) (check : Bool) (n : Nat) : Prop :=
  if check = true ∧ 0 < n then
    t.rod.jobNonfinite = satAdd32 s.rod.jobNonfinite n ∧ OnItsWay t 0x01040002 .event [] s.sys.drill
  else t.rod.jobNonfinite = s.rod.jobNonfinite ∧ t.knl.inflight = s.knl.inflight ∧ t.rod.event = s.rod.event

/-- The numbers of which a scatter moves one to region element e: the places whose index is e, ascending. -/
def scatterPlaces (idx : List Nat) (e : Nat) : List Nat := (List.range idx.length).filter fun i => idx.getD i 0 == e

/-- `Edits a b n`: n single-byte insertions, deletions and substitutions turn a into b (R186). -/
inductive Edits : Bytes → Bytes → Nat → Prop
  | nil : Edits [] [] 0
  | keep {a b n} (x : Byte) : Edits a b n → Edits (x :: a) (x :: b) n
  | substitute {a b n} (x y : Byte) : Edits a b n → Edits (x :: a) (y :: b) (n + 1)
  | insert {a b n} (y : Byte) : Edits a b n → Edits a (y :: b) (n + 1)
  | delete {a b n} (x : Byte) : Edits a b n → Edits (x :: a) b (n + 1)

/-- Between s and t the tokens' counts did not change. -/
def TokensKept (s t : State) : Prop := ∀ k, token t k = token s k

/-- The count of token k and the signals to it of one cycle together (R220). -/
def signalled (s : State) (sigs : List Signal) (k : Nat) : Nat :=
  token s k + ((sigs.filter fun g => g.tok == k).map Signal.inc).sum

/-- A of tile x of a pass, x at place j of it, in the A ring's segment that the pass takes for it (R58, R63). -/
def tileA (s : State) (op : FrameOp) (j : Nat) (x : TileRun) : Nat → Nat → Fv :=
  let d := op.desc
  let ra := wFld op.word 35 30
  segA (mread s.brd.mem (segAddr s ra ((ring s ra).c + j))
    (tileRows d x.ti * aRowBytes d + (if isMx (fdA d) then 64 * tileRows d x.ti else 0))) d (tileRows d x.ti)

/-- B of the operation's present pass, in the seated weight chunk. -/
def tileB (op : FrameOp) (bseg : Bytes) : Nat → Nat → Fv := segB bseg op.desc op.width (chunkLen op.desc (op.pass % chunks op.desc))

/-- The first row of tile x, in chunk c of the source regions, that is above its ceiling (R18). -/
def sourceRange (s : State) (op : FrameOp) (x : TileRun) (c : Nat) : Option Nat :=
  let d := op.desc
  let k0 := chunkK (fdA d) (fdB d) * c
  rangeRow s d op.width x c (fun r k => srcA s d (256 * x.ti + r) (k0 + k)) (fun k n => srcB s d (k0 + k) (op.width * x.tj + n))
    (tileRows d x.ti) (tileCols d op.width x.tj) (chunkLen d c)

/-- Do the source regions of tile x hold a NaN or an infinity (R19)? -/
def sourceNonfinite (s : State) (op : FrameOp) (x : TileRun) : Bool :=
  let d := op.desc
  (List.range (chunks d)).any fun c =>
    let k0 := chunkK (fdA d) (fdB d) * c
    chunkNonfinite (fun r k => srcA s d (256 * x.ti + r) (k0 + k)) (fun k n => srcB s d (k0 + k) (op.width * x.tj + n))
      (tileRows d x.ti) (tileCols d op.width x.tj) (chunkLen d c)

/-- Every row of a drain of slot contents k by descriptor d, as far as it is drained (R106, R122). -/
def drainRun (s : State) (d : Bytes) (k : Slot) : DrainRun :=
  (List.range (slotRows k)).foldl (drainRow s d k (slotCols s k)) {}

/-- Two regions of n and m bytes at a and b share no byte. -/
def Apart (a n b m : Nat) : Prop := a + n ≤ b ∨ b + m ≤ a

/-- The regions of HBM that OPT may write for a weight-table entry (R141, R147): the master, the state, and the two copies with
their ceiling maps, each as its address and its bytes. -/
def optRegions (s : State) (b : Bytes) : List (Nat × Nat) :=
  [(weMaster b, weRows b * masterPitch b), (weState b, 2 * weRows b * masterPitch b),
   (weW b, weRows b * stdPitch (weFmt b) (weCols b) + cmapBytes (mapCols (img s)) (weRows b) (weCols b)),
   (weWt b, weCols b * stdPitch (weFmt b) (weRows b) + cmapBytes (mapCols (img s)) (weCols b) (weRows b))]

/-- Every two of a list of regions are apart. -/
def RegionsApart (rs : List (Nat × Nat)) : Prop := rs.Pairwise fun x y => Apart x.1 x.2 y.1 y.2

/-- A frame arrives on a lead that is up, and may be accepted there (R338). -/
def Arrives (s : State) (a : Arrival) : Prop := leadUp s a.lead = true ∧ admits (leadAt s a.lead) a.seq = true

/-- A frame of the job does: its GEN is the job's, and the lead is keyed (R336, R338). -/
def JobArrives (s : State) (a : Arrival) : Prop := Arrives s a ∧ (leadAt s a.lead).keyed = true ∧ a.gen = s.str.gen

/-- The pages of a generation's shards are aligned and lie apart (R284): each address of a page belongs to that page. -/
def ShardsApart (shards : List Shard) : Prop :=
  ∀ p x, genPageAddr shards p = some x → x % pageBytes = 0 ∧ ∀ y, x ≤ y → y < x + pageBytes → genPage shards 0 y = some p

/-- A frame stands in a compute-die session, sent and not acknowledged (R396). -/
def InSession (t : State) (b : TBody) : Prop := ∃ l q, (q, b) ∈ (linkAt t l).die.sent

/-- A response to a request stands in its session, not acknowledged (R395, R396), with its TYPE, STATUS, REQ_ID and payload. -/
def Answers (t : State) (r : Req) (k : ReqKind) (status : Nat) (payload : Bytes) : Prop :=
  ∃ q, (q, TBody.response (BitVec.ofNat 8 (k.type + 0x80)) (BitVec.ofNat 8 status) r.id payload) ∈ (sess t r.link k.shp).sent

/-- Between s and t one frame was accepted on the Tether and one was sent: the request, and the response to it, in the request's
session, under the session's next SEQ (R395, R396). -/
def Answered (s t : State) (r : Req) (k : ReqKind) (status : Nat) (payload : Bytes) : Prop :=
  let x := sess s r.link k.shp
  sess t r.link k.shp = { x with
    rx := x.rx + 1, nakSent := none, seq := x.seq + 1
    sent := x.sent ++ [(x.seq, .response (BitVec.ofNat 8 (k.type + 0x80)) (BitVec.ofNat 8 status) r.id payload)] } ∧
  ∀ l p, (l ≠ r.link.val ∨ p ≠ k.shp) → sess t l p = sess s l p

/-- A register that software writes: its address, its lock group (R563), and what a write that reaches it makes of the state. -/
structure WriteRow where
  addr  : BitVec 32
  group : Option Nat
  write : State → BitVec 32 → State

/-- Registers that hold the value written, cut to their fields (Tables 6-15, 8-4, 9-12, 9-15, 9-20, 10-8, 11-7, 12-15, 13-11,
13-12, 14-14, 16-5). -/
def valueRows : List WriteRow :=
  [⟨0x10010, some 1, fun s v => { s with knl := { s.knl with hangCfg := v.setWidth 14 } }⟩,
   ⟨0x60000, some 2, fun s v => { s with mem := { s.mem with extRate := v.getLsbD 0 } }⟩,
   ⟨0x80000, some 0, fun s v => { s with lead := { s.lead with selfId := v.setWidth 24 } }⟩,
   ⟨0x90004, some 1, fun s v => { s with col := { s.col with timeoutUs := v.setWidth 20 } }⟩,
   ⟨0xA0020, none, fun s v => { s with tim := { s.tim with epochLo := v } }⟩,
   ⟨0xB0008, some 1, fun s v => { s with tet := { s.tet with timeoutUs := v.setWidth 14 } }⟩,
   ⟨0xC0024, some 0, fun s v => { s with snp := { s.snp with partnerValid := v.getLsbD 3, partnerLead := v.setWidth 3 } }⟩,
   ⟨0xC0028, some 1, fun s v => { s with snp := { s.snp with timeoutS := v.setWidth 12 } }⟩,
   ⟨0xD0004, some 3, fun s v => { s with gov := { s.gov with budget := v.setWidth 11 } }⟩,
   ⟨0xD0008, some 3, fun s v => { s with gov := { s.gov with derate := v } }⟩,
   ⟨0xF1000, none, fun s v => { s with tly := { s.tly with die := { s.tly.die with cursor := v.setWidth 19 } } }⟩] ++
  (List.range 8).map (fun i => ⟨BitVec.ofNat 32 (0x80040 + 4 * i), some 0, fun s v =>
    { s with lead := { s.lead with plan := vset s.lead.plan i (v &&& 0x73FF) } }⟩) ++
  (List.range 8).map (fun i => ⟨BitVec.ofNat 32 (0x80060 + 4 * i), some 0, fun s v =>
    { s with lead := { s.lead with expect := vset s.lead.expect i (v.setWidth 24) } }⟩)

/-- The EVENT registers of the compute die: a one written clears its bit (R3). -/
def eventRows : List WriteRow :=
  [⟨0x1004C, none, fun s v => { s with knl := { s.knl with event := s.knl.event &&& ~~~v } }⟩,
   ⟨0x20008, none, fun s v => { s with frm := { s.frm with event := s.frm.event &&& ~~~v } }⟩,
   ⟨0x30008, none, fun s v => { s with edg := { s.edg with event := s.edg.event &&& ~~~v } }⟩,
   ⟨0x40004, none, fun s v => { s with rod := { s.rod with event := s.rod.event &&& ~~~v } }⟩,
   ⟨0x60008, none, fun s v => { s with mem := { s.mem with event := s.mem.event &&& ~~~v } }⟩,
   ⟨0x70004, none, fun s v => { s with brd := { s.brd with event := s.brd.event &&& ~~~v } }⟩,
   ⟨0x8000C, none, fun s v => { s with lead := { s.lead with event := s.lead.event &&& ~~~v } }⟩,
   ⟨0x90008, none, fun s v => { s with col := { s.col with event := s.col.event &&& ~~~v } }⟩,
   ⟨0xA001C, none, fun s v => { s with tim := { s.tim with event := s.tim.event &&& ~~~v } }⟩,
   ⟨0xB0020, none, fun s v => { s with tet := { s.tet with event := s.tet.event &&& ~~~v } }⟩,
   ⟨0xC002C, none, fun s v => { s with snp := { s.snp with event := s.snp.event &&& ~~~v } }⟩,
   ⟨0xD0020, none, fun s v => { s with gov := { s.gov with event := s.gov.event &&& ~~~v } }⟩,
   ⟨0xE0078, none, fun s v => { s with sec := { s.sec with event := s.sec.event &&& ~~~v } }⟩]

/-- Registers that a write does not change: read-only ones, one of each block (R3). -/
def constRows : List (BitVec 32) :=
  [0x0, 0x10, 0x10000, 0x20000, 0x30000, 0x40000, 0x50000, 0x60004, 0x70000, 0x80004, 0x90000, 0xA0000, 0xB0000, 0xC0000, 0xD0000,
   0xE0000, 0xF1018]

/-- Is a register of a lock group locked to an operator (R563)? -/
def locked (s : State) (g : Option Nat) : Prop := ∃ i, g = some i ∧ (i = 7 ∨ s.sec.lock.getLsbD i = true)

/-- Nothing changed between s and t but what raising a code does whose EVENT bit is SEC's, and the Tether's links. -/
def OnlySecCode (s t : State) : Prop :=
  t = { s with
    knl := { s.knl with inflight := t.knl.inflight }
    sec := { s.sec with event := t.sec.event }
    tet := { s.tet with link := t.tet.link } }

/-- A grant that passes steps 1 to 5 of R560, at a register that its write may reach, on the open session of its link. -/
def GrantPasses (s : State) (r : Req) (g : Grant) (action addr : BitVec 32) : Prop :=
  Admits s r kKeyShp ∧ r.parity = .even ∧ s.die = .serving ∧ grantOkTo5 s g = true ∧ g.action = action ∧ g.address = addr ∧
  s.sec.opcertMin ≤ (sess s r.link true).serial

/-- What every grant that has passed leaves: its record (R560, R561), its answer, and a new challenge. -/
def GrantRecorded (s t : State) (r : Req) (g : Grant) : Prop :=
  OnItsWay t 0x0A0E0009 .event (natLE 4 g.action.toNat ++ natLE 4 g.address.toNat ++ natLE 4 g.value.toNat) s.sys.drill ∧
  Answers t r kKeyShp 0 [] ∧ t.sec.challenge = (Config.draw s.free).setWidth 128 ∧ t.free = s.free + 1

/-- A launch frame whose AUTH verifies under the installed job key and whose fields have the form of its KIND (R409, R642). -/
def LaunchForm (s : State) (f : LaunchFrame) (kind : BitVec 8) : Prop :=
  lfAuthOk s f = true ∧ f.kind = kind ∧ f.reserved = 0 ∧ f.time.toNat < 2 ^ 48

/-- The device has disarmed without a launch (R419): HOLDING, no round-up, no keyed lead. -/
def Disarmed (t : State) : Prop :=
  t.sys.st = .holding ∧ t.tet.phase = .idle ∧ t.tet.root = false ∧ t.tet.plan = 0xFFFF ∧ t.tet.launch = 0 ∧
  ∀ i, i < 8 → (leadAt t i).keyed = false ∧ (leadAt t i).key = none

/-- The state between s and t in what a round-up never touches: memories, the program, its strands and the engines. -/
def JobKept (s t : State) : Prop :=
  t.mem = s.mem ∧ t.brd = s.brd ∧ t.rod = s.rod ∧ t.str = s.str ∧ t.frm = s.frm ∧ t.edg = s.edg ∧ t.col = s.col ∧ t.snp = s.snp ∧
  t.sec.job = s.sec.job

/-- A frame arrives from a child of the round-up, and is a report about the present arm that verifies (R409, R413). -/
def ReportOk (s : State) (a : Arrival) (m : RuReport) : Prop :=
  s.die ≠ .off ∧ Arrives s a ∧ s.sys.st = .armed ∧ repAuthOk s m = true ∧ a.lead.val ∈ ruDown s ∧ m.jobId = s.str.job ∧
  m.armId = s.tet.armId

/-- A frame was sent on lead i and waits for its acknowledgement, or waits for a credit. -/
def Queued (t : State) (i : Nat) (b : TxBody) : Prop :=
  b ∈ (leadAt t i).sent.map (·.2.2) ++ (leadAt t i).waiting.map (·.2)

/-- A notification of a reason and a code went out on a compute-die session, or is held for one (R405). -/
def Notified (t : State) (reason : Reason) (code : Nat) : Prop :=
  (∃ l q b, (q, TBody.notify reason (BitVec.ofNat 32 code) b) ∈ (linkAt t l).die.sent) ∨
  ∃ b, (reason, BitVec.ofNat 32 code, b) ∈ t.tet.held

/-- A marker can be committed (R233): the device runs, no SNAP is awaited, no job-ending code is on its way, some strand is at STEP, and
every participating strand is at STEP or ended with nothing in flight. -/
def AtMarker (s : State) : Prop :=
  running s = true ∧ s.snp.step5 = false ∧ (∀ r ∈ s.knl.inflight, r.eff ≠ .jobEnding ∧ ∀ b, r.eff ≠ .device b) ∧
  (∃ n, n < 43 ∧ (strand s n).st = 6) ∧
  ∀ n, n < 43 → participates s n = true → ((strand s n).st = 6 ∨ (strand s n).st = 7) ∧ (strand s n).inflight = []

/-- The words after the snapshot strand's STEP hold a SNAP that takes the marker (R476). -/
def SnapFollows (s : State) : Prop :=
  (strand s 42).st = 6 ∧ (strand s 42).index.toNat + 1 < codeCount (img s) 42 ∧ decodeCheck 42 (stepSnapWord s) = none ∧
  wOp (stepSnapWord s) = 0x10

/-- Everything drained (R233): each ring has as many segments released as produced, and each carry slot is Empty. -/
def Drained (s : State) : Prop := (∀ r, (ring s r).p = (ring s r).c) ∧ ∀ k, k < 16 → (slot s k).st = 0

/-- Leads that have lanes in a group keep at least two others (R451). -/
def GroupSurvives (s : State) (g : Fin 4) : Prop :=
  ∀ i, i < 8 → leadUp s i = true → (leadAt s i).lanes.toNat &&& groupMask g = 0 ∨
    laneCount (onesIn ((leadAt s i).lanes.toNat - ((leadAt s i).lanes.toNat &&& groupMask g)) 0 32) ≠ 0

/-- The grains of a cycle in the order in which they are considered (R591): what waited and what arrived. -/
def grainOrder (s : State) (arrived : List Grain) : List Grain :=
  (s.gov.waiting ++ arrived).foldl (fun l g => insertGrain s g l) []

/-- Between s and t a request was refused with a code of SEC (R579): its record is on its way, with the detail given, and its response
carries the code; nothing else changed. -/
def SecRefused (s t : State) (r : Req) (k : ReqKind) (code : Nat) (detail : Bytes) : Prop :=
  OnItsWay t code .refusedTally detail s.sys.drill ∧ Answered s t r k 1 (natLE 4 code) ∧ OnlySecCode s t

/-- No job, no program and no debug in HOLDING: what JOB_EPHEMERAL asks for (R568). -/
def KeyReady (s : State) : Prop := s.sys.st = .holding ∧ loaded s = false ∧ s.sec.job = none ∧ s.sec.debug = false

/-- The slot of a kind of firmware that does not run (R567). -/
def idleSlot (s : State) (kind : Nat) : Nat := 2 * kind + b2n (!vget s.sec.fwRun kind false)

/-- A piece of a page of an accepted manifest that lies in the page and in a shard (R498). -/
def PieceOf (s : State) (x : Restore) (l : Fin 2) (shard page off : BitVec 32) (b : Bytes) : Prop :=
  bulkOk s l = true ∧ restoring s = some x ∧ b.length ≤ 4064 ∧ off.toNat + b.length ≤ storedBytes ∧
  page.toNat < ((manShards x.manifest).map Shard.pages).getD shard.toNat 0

/-- The lead's frames, memories and strands that a Tether link's happenings never touch. -/
def WorkKept (s t : State) : Prop :=
  t.mem = s.mem ∧ t.brd = s.brd ∧ t.rod = s.rod ∧ t.str = s.str ∧ t.frm = s.frm ∧ t.edg = s.edg ∧ t.col = s.col ∧ t.snp = s.snp ∧
  t.sec.owner = s.sec.owner

/-- The channels that have failed fewer than three retrains within the last 10 s (R311). -/
def RetrainsLeft (s : State) (i : Nat) : Prop := (recent s 10000000 (sgetD s.mem.pcRetrains i [])).length < 3

/-- A device whose compute die may be released (R612): standby power, a serving Shepherd, calibration and a Kerrin slot in order, an
owner, and nothing that holds it. -/
def Releasable (s : State) : Prop :=
  s.shp.standby = true ∧ s.shp.serving = true ∧ s.die = .off ∧ s.shp.calOk = true ∧ s.sec.owner ≠ none ∧ s.shp.kerrinOk = true ∧
  s.shp.thermalHold = none ∧ s.shp.pwrFail = false ∧ s.shp.railFault = false

/-- What the Shepherd's MRAM and the owner's settings keep over every loss of power (R514, R519, R556, R562, R567). -/
def MramKept (s t : State) : Prop :=
  t.sec.owner = s.sec.owner ∧ t.sec.lock = s.sec.lock ∧ t.sec.opcertMin = s.sec.opcertMin ∧ t.sec.svn = s.sec.svn ∧
  t.shp.epoch = s.shp.epoch ∧ t.frm.rowFail = s.frm.rowFail ∧ t.frm.colFail = s.frm.colFail ∧ t.frm.retired = s.frm.retired ∧
  t.mem.live = s.mem.live ∧ t.lead.plan = s.lead.plan ∧ t.lead.expect = s.lead.expect ∧ t.lead.selfId = s.lead.selfId ∧
  t.gov.ucal = s.gov.ucal ∧ t.tly.store = s.tly.store ∧ t.knl.limit = s.knl.limit

end Sys2Proof
end

