-- ==== Sys2Proof/Certificates/Slice0/Obligations.lean ====
section
/-!
DEFINITION. The statements about the model: its queue and invariants first, then each family of commands, with what every command
does where it acts and what it leaves unchanged. A statement of several parts holds them in the order of its docstring.
-/
open Sys2Proof Sys2Proof.Machine

/-- A step takes the command at the front of the queue and runs it on the state with the queue's rest. -/
def Obligations.StepRunsFront : Prop :=
  ∀ (s : State) (c : Instr) (rest : List Instr), s.pending = c :: rest → step s = exec c { s with pending := rest }

/-- MODEL'S CHOICE (log 4), after R375, R380, R395, R400 and R514: with no command waiting a step is one microsecond: the time counter goes on by
1,000 ns, and by its correction, while the compute die is powered, Shepherd time by one while the standby rail is, and up
to six waiting bulk frames leave on each Tether link. -/
def Obligations.IdleStepTicks : Prop :=
  ∀ (s : State), s.pending = [] → ∃ t, step s = .next t ∧
    t.shp.time = (if s.shp.standby = true then s.shp.time + 1 else s.shp.time) ∧
    (s.die = .off → t.tim = s.tim) ∧
    (s.die ≠ .off → (t.tim.counter.toNat * 2 ^ 32 + t.tim.frac.toNat) % 2 ^ 80 =
      (s.tim.counter.toNat * 2 ^ 32 + s.tim.frac.toNat + 800 * ((5368709120 * (100000000 + s.tim.slew) / 100000000 : Int)).toNat) % 2 ^ 80) ∧
    (s.die ≠ .off → s.tim.slew = 0 → t.tim.counter = s.tim.counter + 1000 ∧ t.tim.frac = s.tim.frac) ∧
    t = { s with tim := { s.tim with counter := t.tim.counter, frac := t.tim.frac }, shp := { s.shp with time := t.shp.time }
                 tet := { s.tet with link := t.tet.link } } ∧
    ∀ l, sess t l true = sess s l true ∧
      if (linkAt s l).up = true ∧ (sess s l false).isOpen = true then
        (sess t l false).bulk = (sess s l false).bulk.drop 6 ∧
        (sess t l false).sent.map Prod.snd = (sess s l false).sent.map Prod.snd ++ (sess s l false).bulk.take 6
      else sess t l false = sess s l false

/-- R7, R514, R535, R556, Table 0-8: as manufactured the package is off, unowned, with no command waiting, every memory empty in its
canonical form, and the first Tally record to come numbered 1 (the values without a stated reset are log 1's and 2's choice). -/
def Obligations.ResetState : Prop :=
  Canonical State.reset ∧ State.reset.pending = [] ∧ State.reset.die = .off ∧ State.reset.shp.standby = false ∧
  State.reset.sec.owner = none ∧ State.reset.sec.job = none ∧ State.reset.str.image = none ∧ State.reset.tly.next = 1 ∧
  State.reset.tly.store = [] ∧ (∀ l, (linkAt State.reset l).up = false) ∧ ∀ i, (leadAt State.reset i).up = false

/-- R9 to R11, R428: no command stops the machine: every one runs to a next state, whatever its operands and whatever the state, and
leaves the queue of waiting commands as it is. -/
def Obligations.EveryCommandRuns : Prop := ∀ (c : Instr) (s : State), Runs c s fun t => t.pending = s.pending

/-- MODEL's invariant (log 6): every step keeps every memory in its canonical form: rising addresses, and no cell that reads as an
unlisted one. So equal memories are equal data in every run. -/
def Obligations.CanonicalKept : Prop := ∀ s t : State, Canonical s → step s = .next t → Canonical t

/-- R556, R567: whatever happens, an enrolled owner stays enrolled, and no security version number falls. -/
def Obligations.NothingLostKept : Prop := ∀ s t : State, step s = .next t → NothingLost s t

/-- R298 to R300: where every block of a memory verifies against its check value, every block still does after a write of any bytes at
any address, with the check values that the write leaves: from the whole block's data, or from the old value and what changed. -/
def Obligations.ChecksFollowWrites : Prop :=
  ∀ (m : Mem) (c : SMap (BitVec 32)) (a : Nat) (b : List (BitVec 8)), m.wf = true → srising 0 c = true →
    (∀ k, blockVerifies m c k = true) →
    srising 0 (checksAfter m c a b) = true ∧ ∀ k, blockVerifies (mwrite m a b) (checksAfter m c a b) k = true

/-- (1) R173, R168, R170, R176: an integer instruction of two sources in a type that it admits, with operands in local memory
that overlap as R168 allows, issues; element i of its result is the row's function of the elements i that its sources
held; and no other byte of any memory and no other unit changes.

(2) R173, R168, R170: NEG, ABS and NOT, likewise.

(3) R173: the comparisons, in every type of four bytes or more and in the floating-point types, and SEL, which takes A where
the element of C is not all zeros and B where it is.

(4) R168, R269, R71: a Rods instruction of Table 5-2 of two sources whose operands leave local memory, or overlap against R168,
is refused at issue with 0x0B04_0001: its strand stops and local memory is as before. -/
def Obligations.RodsIntegers : Prop :=
  (∀ (s : State) (c : Fin 16) (i : Instr) (op : Nat) (f : Nat → Nat → Nat → Nat), (i, op, f) ∈ intRows c →
     Canonical s → begun s (18 + c) op = true → idle s (18 + c) = true →
     let w := (strand s (18 + c)).word
     let t := fType w
     let k := tyBytes t
     t ∈ [2, 3, 4] → opersOk [(fD w, fN w * k)] [(fA w, fN w * k), (fB w, fN w * k)] = true →
     Runs i s fun s' => Issued s s' (18 + c) ∧ LocalFrame s s' c (fD w) (fN w * k) ∧
       ∀ j, j < fN w → mnat (lmem s' c) (fD w + k * j) k =
         f t (mnat (lmem s c) (fA w + k * j) k) (mnat (lmem s c) (fB w + k * j) k)) ∧
  (∀ (s : State) (c : Fin 16) (i : Instr) (op : Nat) (f : Nat → Nat → Nat), (i, op, f) ∈ intRows1 c →
     Canonical s → begun s (18 + c) op = true → idle s (18 + c) = true →
     let w := (strand s (18 + c)).word
     let t := fType w
     let k := tyBytes t
     t ∈ [2, 3, 4] → opersOk [(fD w, fN w * k)] [(fA w, fN w * k)] = true →
     Runs i s fun s' => Issued s s' (18 + c) ∧ LocalFrame s s' c (fD w) (fN w * k) ∧
       ∀ j, j < fN w → mnat (lmem s' c) (fD w + k * j) k = f t (mnat (lmem s c) (fA w + k * j) k)) ∧
  (∀ (s : State) (c : Fin 16), Canonical s → idle s (18 + c) = true →
     let w := (strand s (18 + c)).word
     let t := fType w
     let k := tyBytes t
     let n := fN w * k
     (∀ i op f, (i, op, f) ∈ cmpRows c → begun s (18 + c) op = true →
       opersOk [(fD w, n)] [(fA w, n), (fB w, n)] = true →
       Runs i s fun s' => Issued s s' (18 + c) ∧ LocalFrame s s' c (fD w) n ∧
         ∀ j, j < fN w → mnat (lmem s' c) (fD w + k * j) k =
           if f (tyFv t (mnat (lmem s c) (fA w + k * j) k)) (tyFv t (mnat (lmem s c) (fB w + k * j) k)) then 2 ^ (8 * k) - 1
           else 0) ∧
     (begun s (18 + c) 0x34 = true → opersOk [(fD w, n)] [(fA w, n), (fB w, n), (fC w, n)] = true →
       Runs (.sel c) s fun s' => Issued s s' (18 + c) ∧ LocalFrame s s' c (fD w) n ∧
         ∀ j, j < fN w → mnat (lmem s' c) (fD w + k * j) k =
           if mnat (lmem s c) (fC w + k * j) k ≠ 0 then mnat (lmem s c) (fA w + k * j) k
           else mnat (lmem s c) (fB w + k * j) k)) ∧
  (∀ (s : State) (c : Fin 16) (i : Instr) (op : Nat) (f : Nat → Nat → Nat → Nat), (i, op, f) ∈ intRows c →
     begun s (18 + c) op = true → idle s (18 + c) = true →
     let w := (strand s (18 + c)).word
     let k := tyBytes (fType w)
     opersOk [(fD w, fN w * k)] [(fA w, fN w * k), (fB w, fN w * k)] = false →
     Runs i s fun s' => RefusedAtIssue s s' (18 + c) 0x0B040001 ∧ s'.rod.mem = s.rod.mem ∧ s'.brd = s.brd ∧ s'.mem = s.mem)

/-- (1) R172, R174, R177, R202, R168: a floating-point instruction whose operands lie in local memory as R168 allows issues; each
element of its result is the row's function of the elements that its sources held, each converted exactly to binary32, the
result written once in the element type; under CHECK the non-finite ones are counted and reported.

(2) R178: at special inputs the functions give what IEEE 754-2019 clause 9.2 gives: a NaN gives the canonical NaN, EXP and EXP2
of zero and of an infinity, LOG and LOG2 of zero, of one, of a negative number and of an infinity, RSQRT of zero, of a
negative number and of an infinity.

(3) R174, R178, R202 and Table 5-2: CVT converts each element from its type to the other once; MAP replaces each byte by the
table's byte at C; GELUD and SILUD write the activation to D and its derivative to C. -/
def Obligations.RodsFloats : Prop :=
  (∀ (s : State) (c : Fin 16) (i : Instr) (op srcs : Nat) (f : Word → Word → Word → Word), (i, op, srcs, f) ∈ floatRows c →
     Canonical s → begun s (18 + c) op = true → idle s (18 + c) = true →
     let w := (strand s (18 + c)).word
     let t := fFtype w
     let k := tyBytes t
     let n := fN w * k
     let out := (List.range (fN w)).map fun j =>
       let src := fun a => tyTo32 t (mnat (lmem s c) (a + k * j) k)
       toTy t (fInf w) (f (src (fA w)) (src (fB w)) (src (fC w)))
     opersOk [(fD w, n)] ([(fA w, n), (fB w, n), (fC w, n)].take srcs) = true →
     Runs i s fun s' => Issued s s' (18 + c) ∧ CheckedFrame s s' c (fun a => fD w ≤ a ∧ a < fD w + n) ∧
       Checked s s' (fCheck w) (nonfiniteCount t out) ∧
       ∀ j, j < fN w → mnat (lmem s' c) (fD w + k * j) k = out.getD j 0 % 256 ^ k) ∧
  ((∀ f x, (f32 x).isNan = true → specialFn f x = nan32) ∧
   (∀ f ∈ [Config.Fn.exp, Config.Fn.exp2], specialFn f 0 = 0x3F800000 ∧ specialFn f 0x80000000 = 0x3F800000 ∧
     specialFn f 0x7F800000 = 0x7F800000 ∧ specialFn f 0xFF800000 = 0) ∧
   (∀ f ∈ [Config.Fn.log, Config.Fn.log2], specialFn f 0 = 0xFF800000 ∧ specialFn f 0x80000000 = 0xFF800000 ∧
     specialFn f 0x3F800000 = 0 ∧ specialFn f 0x7F800000 = 0x7F800000 ∧ specialFn f 0xFF800000 = nan32) ∧
   (∀ f ∈ [Config.Fn.log, Config.Fn.log2, Config.Fn.rsqrt], ∀ x, f32 x ≠ .nan → f32 x ≠ .inf true → (f32 x).dy.m < 0 →
     specialFn f x = nan32) ∧
   specialFn .rsqrt 0 = 0x7F800000 ∧ specialFn .rsqrt 0x80000000 = 0xFF800000 ∧ specialFn .rsqrt 0x7F800000 = 0 ∧
     specialFn .rsqrt 0xFF800000 = nan32) ∧
  (∀ (s : State) (c : Fin 16), Canonical s → idle s (18 + c) = true →
     let w := (strand s (18 + c)).word
     let m := lmem s c
     (begun s (18 + c) 0x4C = true →
       let st := fType w
       let dt := wFld w 49 47
       let out := (List.range (fN w)).map fun j => cvtElem st dt (bitOf w.toNat 46) (mnat m (fA w + tyBytes st * j) (tyBytes st))
       opersOk [(fD w, fN w * tyBytes dt)] [(fA w, fN w * tyBytes st)] = true →
       Runs (.cvt c) s fun s' => Issued s s' (18 + c) ∧
         CheckedFrame s s' c (fun a => fD w ≤ a ∧ a < fD w + fN w * tyBytes dt) ∧
         Checked s s' (fCheck w) (if 5 ≤ dt then nonfiniteCount dt out else 0) ∧
         ∀ j, j < fN w → mnat (lmem s' c) (fD w + tyBytes dt * j) (tyBytes dt) = out.getD j 0 % 256 ^ tyBytes dt) ∧
     (begun s (18 + c) 0x4D = true → opersOk [(fD w, fN w)] [(fA w, fN w), (fC w, 256)] = true →
       Runs (.map c) s fun s' => Issued s s' (18 + c) ∧ LocalFrame s s' c (fD w) (fN w) ∧
         ∀ j, j < fN w → mget (lmem s' c) (fD w + j) = mget m (fC w + (mget m (fA w + j)).toNat)) ∧
     (∀ i op act g, (i, op, act, g) ∈ [(Instr.gelud c, 0x5C, 7, Config.Fn.dgelu), (.silud c, 0x5D, 8, .dsilu)] →
       begun s (18 + c) op = true →
       let t := fFtype w
       let k := tyBytes t
       let n := fN w * k
       let xs := (List.range (fN w)).map fun j => tyTo32 t (mnat m (fA w + k * j) k)
       let ys := xs.map fun x => toTy t (fInf w) (activate act 0 x)
       let ds := xs.map fun x => toTy t (fInf w) (derivFn g x)
       opersOk [(fD w, n), (fC w, n)] [(fA w, n)] = true →
       Runs i s fun s' => Issued s s' (18 + c) ∧
         CheckedFrame s s' c (fun a => (fD w ≤ a ∧ a < fD w + n) ∨ (fC w ≤ a ∧ a < fC w + n)) ∧
         Checked s s' (fCheck w) (nonfiniteCount t ys + nonfiniteCount t ds) ∧
         ∀ j, j < fN w → mnat (lmem s' c) (fD w + k * j) k = ys.getD j 0 % 256 ^ k ∧
           mnat (lmem s' c) (fC w + k * j) k = ds.getD j 0 % 256 ^ k))

/-- (1) R170, R226, R229, R269 and the model's choice of log 48: LOAD and STORE issue, or are held on a ring that has no segment, and
move their bytes as they complete: LOAD the bytes of a location, or of the output ring's present segment, into local memory;
STORE bytes of local memory to the Board, or to HBM, and to no other byte.

(2) R189, R190: GATHER, SCATTER and SCATTER_ADD issue where nothing refuses them, and move their elements as they complete (log 48).
GATHER reads region elements, zero for an index outside the region; of several places that a SCATTER sends to one element
the highest remains; SCATTER_ADD leaves in an element its old value and all the numbers sent to it, summed modulo 2^32. An
index outside the region is skipped and raises 0x0104_0001, job-ending.

(3) R193, R139, R288: TPOSE issues with its cluster's request for the port. As it completes (log 48) the request ends, and of a
region of no ceiling map, whose written rows do not overlap, element (r, q) of the source stands as element (q, r) of the
destination; nothing of local memory is written. -/
def Obligations.RodsMovesGatherScatterTranspose : Prop :=
  (∀ (s : State) (c : Fin 16), Canonical s →
     let x := strand s (18 + c)
     let w := x.word
     let r := wFld w 14 9
     (idle s (18 + c) = true → begun s (18 + c) 0x10 = true → fD w + mBytes w ≤ localBytes →
       (wFld w 8 8 = 0 → locValid s (mLoc w) (mBytes w) = true →
         Runs (.load c) s fun t => Issued s t (18 + c) ∧ OnlyStrands s t) ∧
       (wFld w 8 8 = 1 → ringKind (img s) r = 3 → ringConsumer (img s) r = 18 + c →
         mMem w + mBytes w ≤ ringSegBytes (img s) r →
         (ringReady s r = false → Runs (.load c) s fun t =>
           strand t (18 + c) = { x with hold := 3 } ∧ (∀ m, m ≠ 18 + c.val → strand t m = strand s m) ∧ OnlyStrands s t) ∧
         (ringReady s r = true → mMem w + mBytes w ≤ (segNow s r).rows * (segNow s r).rowBytes + (segNow s r).aux →
           Runs (.load c) s fun t => Issued s t (18 + c) ∧ OnlyStrands s t))) ∧
     (idle s (18 + c) = true → begun s (18 + c) 0x11 = true → fD w + mBytes w ≤ localBytes → locValid s (mLoc w) (mBytes w) = true →
       Runs (.store c) s fun t => Issued s t (18 + c) ∧ OnlyStrands s t) ∧
     (∀ v, Finishing s c v → wOp v = 0x10 →
       Runs (.instructionComplete [(rodStrand c, true)]) s fun t => t.brd = s.brd ∧ t.mem = s.mem ∧
         (∀ c', c' ≠ c.val → lmem t c' = lmem s c') ∧
         (∀ a, a < fD v ∨ fD v + mBytes v ≤ a → mget (lmem t c) a = mget (lmem s c) a) ∧
         mread (lmem t c) (fD v) (mBytes v) =
           (if wFld v 8 8 = 1 then mread s.brd.mem (segAddr s (wFld v 14 9) (ring s (wFld v 14 9)).c + mMem v) (mBytes v)
            else locRead s (mLoc v) (mBytes v)) ∧
         (ring t (wFld v 14 9)).c =
           (if wFld v 8 8 = 1 ∧ wFld v 7 7 = 1 then (ring s (wFld v 14 9)).c + 1 else (ring s (wFld v 14 9)).c)) ∧
     (∀ v, Finishing s c v → wOp v = 0x11 → locValid s (mLoc v) (mBytes v) = true →
       Runs (.instructionComplete [(rodStrand c, true)]) s fun t => t.rod.mem = s.rod.mem ∧
         locRead t (mLoc v) (mBytes v) = mread (lmem s c) (fD v) (mBytes v) ∧
         (∀ a, a < locAddr (mLoc v) ∨ locAddr (mLoc v) + mBytes v ≤ a →
           mget t.brd.mem a = mget s.brd.mem a ∧ mget t.mem.hbm a = mget s.mem.hbm a) ∧
         (if locBoard (mLoc v) = true then t.mem = s.mem ∧ t.snp = s.snp else t.brd = s.brd))) ∧
  (∀ (s : State) (c : Fin 16), Canonical s →
     let m := lmem s c
     (∀ i op gather add, (i, op, gather, add) ∈ [(Instr.gather c, 0x12, true, false), (.scatter c, 0x13, false, false),
         (.scatterAdd c, 0x14, false, true)] →
       idle s (18 + c) = true → begun s (18 + c) op = true → gatherRefusal c gather add s (strand s (18 + c)).word = none →
       Runs i s fun t => Issued s t (18 + c) ∧ OnlyStrands s t) ∧
     ∀ w, Finishing s c w →
       let r := region m w
       let k := tyBytes r.ty
       let idx := (List.range (fN w)).map fun j => mnat m (fA w + 4 * j) 4
       let x := fun j => mnat m (fD w + k * j) k
       let stray := idx.any fun i => decide (r.len ≤ i)
       let reports := fun (t : State) => stray = true → OnItsWay t 0x01040001 .jobEnding [] s.sys.drill
       (wOp w = 0x12 →
         Runs (.instructionComplete [(rodStrand c, true)]) s fun t => t.brd = s.brd ∧ t.mem = s.mem ∧ reports t ∧
           (∀ c', c' ≠ c.val → lmem t c' = lmem s c') ∧
           (∀ a, a < fD w ∨ fD w + fN w * k ≤ a → mget (lmem t c) a = mget m a) ∧
           ∀ j, j < fN w → mnat (lmem t c) (fD w + k * j) k =
             if idx.getD j 0 < r.len then mnat s.brd.mem (r.base + k * idx.getD j 0) k else 0) ∧
       (wOp w = 0x13 →
         Runs (.instructionComplete [(rodStrand c, true)]) s fun t => t.rod.mem = s.rod.mem ∧ t.mem = s.mem ∧ reports t ∧
           (∀ a, a < r.base ∨ r.base + r.len * k ≤ a → mget t.brd.mem a = mget s.brd.mem a) ∧
           ∀ e, e < r.len → mnat t.brd.mem (r.base + k * e) k =
             match (scatterPlaces idx e).getLast? with
             | some j => x j
             | none => mnat s.brd.mem (r.base + k * e) k) ∧
       (wOp w = 0x14 → k = 4 →
         Runs (.instructionComplete [(rodStrand c, true)]) s fun t => t.rod.mem = s.rod.mem ∧ t.mem = s.mem ∧ reports t ∧
           (∀ a, a < r.base ∨ r.base + r.len * k ≤ a → mget t.brd.mem a = mget s.brd.mem a) ∧
           ∀ e, e < r.len → mnat t.brd.mem (r.base + k * e) k =
             (mnat s.brd.mem (r.base + k * e) k + ((scatterPlaces idx e).map x).sum) % 2 ^ 32)) ∧
  (∀ (s : State) (c : Fin 16), Canonical s →
     (begun s (18 + c) 0x15 = true → idle s (18 + c) = true → tposeRefusal c s (strand s (18 + c)).word = none →
       Runs (.tpose c) s fun t => Issued s t (18 + c) ∧ t.rod = s.rod ∧ t.mem = s.mem ∧ t.brd.mem = s.brd.mem ∧
         t.brd.tposeReq = s.brd.tposeReq ||| BitVec.ofNat 16 (2 ^ c.val)) ∧
     ∀ w, Finishing s c w → wOp w = 0x15 → tposeRefusal c s w = none →
       let b := mread (lmem s c) (fD w) 64
       let rows := fld b 0x18 2
       let cols := fld b 0x1A 2
       let e := fld b 0x1C 1
       let src := fld b 0x00 8
       let dst := fld b 0x08 8
       let sp := fld b 0x10 4
       let dp := fld b 0x14 4
       Runs (.instructionComplete [(rodStrand c, true)]) s fun t => t.rod.mem = s.rod.mem ∧
         t.brd.tposeReq = s.brd.tposeReq &&& ~~~BitVec.ofNat 16 (2 ^ c.val) ∧
         (fld b 0x20 8 = locNone → rows * e ≤ dp →
           ∀ q r, q < cols → r < rows →
             locRead t (dst + q * dp + r * e) e = locRead s (src + r * sp + q * e) e))

/-- (1) R179: after SORT the keys stand in the order asked for, the records are those that stood there before, and records of
equal keys keep their order.

(2) R181, R183, R185: HASH64, HASHSTR and MINHASH write the device hash of each element, of each string, and each string's
signature; a string of a length above 64 counts as empty and raises 0x0104_0003 with severity event.

(3) R186, R187: EDIT writes the Levenshtein distance of each pair of strings, the least number of edits that turn one into the other;
JW their Jaro-Winkler similarity in units of 2^-15.

(4) R195 to R197: NORM adds to the entry, as it completes, the exact sums over the finite elements and counts the others; the
order of the elements does not matter; NORMRD writes the entry as 32 bytes; NORMCLR zeroes it; no other entry changes. -/
def Obligations.RodsSortHashStringsNorms : Prop :=
  (∀ (s : State) (c : Fin 16), Canonical s → begun s (18 + c) 0x60 = true → idle s (18 + c) = true →
     let w := (strand s (18 + c)).word
     let kt := wFld w 3 2
     let k := if kt = 3 then 8 else 4
     let n := fN w
     let recs := fun (m : Mem) => (List.range n).map fun j => (mnat m (fD w + k * j) k, mnat m (fA w + 4 * j) 4)
     let before := fun (a b : Nat) => if bitOf w.toNat 1 then sortKey kt b < sortKey kt a else sortKey kt a < sortKey kt b
     opersOk [(fD w, n * k), (fA w, n * 4)] [] = true →
     Runs (.sort c) s fun t => Issued s t (18 + c) ∧
       (recs (lmem t c)).Perm (recs (lmem s c)) ∧
       (recs (lmem t c)).Pairwise (fun a b => ¬ before b.1 a.1) ∧
       (∀ key, (recs (lmem t c)).filter (fun r => sortKey kt r.1 == key) =
         (recs (lmem s c)).filter (fun r => sortKey kt r.1 == key)) ∧
       ∀ a, (a < fD w ∨ fD w + n * k ≤ a) → (a < fA w ∨ fA w + n * 4 ≤ a) → mget (lmem t c) a = mget (lmem s c) a) ∧
  (∀ (s : State) (c : Fin 16), Canonical s → idle s (18 + c) = true →
     let w := (strand s (18 + c)).word
     let m := lmem s c
     let seed := BitVec.ofNat 64 (mnat m (fC w) 8)
     let long := (List.range (fN w)).any fun j => decide (64 < (mget m (fB w + j)).toNat)
     let reports := fun (t : State) => if long = true then ∃ d, OnItsWay t 0x01040003 .event d s.sys.drill else t.knl = s.knl
     (begun s (18 + c) 0x61 = true → hashBlock c false s w = none →
       opersOk [(fD w, 8 * fN w)] [(fA w, 8 * fN w), (fC w, 64)] = true →
       Runs (.hash64 c) s fun t => Issued s t (18 + c) ∧ LocalFrame s t c (fD w) (8 * fN w) ∧
         ∀ j, j < fN w → mnat (lmem t c) (fD w + 8 * j) 8 = (mix (BitVec.ofNat 64 (mnat m (fA w + 8 * j) 8) ^^^ seed)).toNat) ∧
     (begun s (18 + c) 0x62 = true → hashBlock c false s w = none →
       opersOk [(fD w, 8 * fN w)] [(fA w, 64 * fN w), (fB w, fN w), (fC w, 64)] = true →
       Runs (.hashstr c) s fun t => Issued s t (18 + c) ∧ reports t ∧ t.brd = s.brd ∧ t.mem = s.mem ∧
         (∀ a, a < fD w ∨ fD w + 8 * fN w ≤ a → mget (lmem t c) a = mget m a) ∧
         ∀ j, j < fN w → mnat (lmem t c) (fD w + 8 * j) 8 = (hashStr (strAt m (fA w) (fB w) j) seed).toNat) ∧
     (begun s (18 + c) 0x63 = true → hashBlock c true s w = none →
       let sz := mnat m (fC w + 8) 1 + 1
       let q := mnat m (fC w + 9) 1 + 1
       opersOk [(fD w, 4 * sz * fN w)] [(fA w, 64 * fN w), (fB w, fN w), (fC w, 64)] = true →
       Runs (.minhash c) s fun t => Issued s t (18 + c) ∧ reports t ∧ t.brd = s.brd ∧ t.mem = s.mem ∧
         (∀ a, a < fD w ∨ fD w + 4 * sz * fN w ≤ a → mget (lmem t c) a = mget m a) ∧
         ∀ i j, i < fN w → j < sz → mnat (lmem t c) (fD w + 4 * (sz * i + j)) 4 =
           minhashEntry (strAt m (fA w) (fB w) i) q seed j % 2 ^ 32)) ∧
  (∀ (s : State) (c : Fin 16), Canonical s → idle s (18 + c) = true →
     let w := (strand s (18 + c)).word
     let m := lmem s c
     let at_ := fun o => mnat m (fA w + o) 4
     let a := fun j => strAt m (at_ 0) (at_ 4) j
     let b := fun j => strAt m (at_ 8) (at_ 12) j
     pairRefusal c s w = none →
     (begun s (18 + c) 0x64 = true →
       Runs (.edit c) s fun t => Issued s t (18 + c) ∧ t.brd = s.brd ∧ t.mem = s.mem ∧
         (∀ x, x < fD w ∨ fD w + 4 * fN w ≤ x → mget (lmem t c) x = mget m x) ∧
         ∀ j, j < fN w → Edits (a j) (b j) (mnat (lmem t c) (fD w + 4 * j) 4) ∧
           ∀ n, Edits (a j) (b j) n → mnat (lmem t c) (fD w + 4 * j) 4 ≤ n) ∧
     (begun s (18 + c) 0x65 = true →
       Runs (.jw c) s fun t => Issued s t (18 + c) ∧ t.brd = s.brd ∧ t.mem = s.mem ∧
         (∀ x, x < fD w ∨ fD w + 4 * fN w ≤ x → mget (lmem t c) x = mget m x) ∧
         ∀ j, j < fN w → mnat (lmem t c) (fD w + 4 * j) 4 = jaroWinkler (a j) (b j) % 2 ^ 32)) ∧
  ((∀ (x : NormEntry) (a b : List Fv), a.Perm b → a.foldl normAdd x = b.foldl normAdd x) ∧
   ∀ (s : State) (c : Fin 16), Canonical s →
     let w := (strand s (18 + c)).word
     let e := wFld w 49 37
     (idle s (18 + c) = true → begun s (18 + c) 0x70 = true → opersOk [] [(fA w, fN w * tyBytes (fFtype w))] = true →
       Runs (.norm c) s fun s' => Issued s s' (18 + c) ∧ OnlyStrands s s') ∧
     (∀ v, Finishing s c v → wOp v = 0x70 →
       let k := tyBytes (fFtype v)
       let xs := (List.range (fN v)).map fun j => f32 (tyTo32 (fFtype v) (mnat (lmem s c) (fA v + k * j) k))
       Runs (.instructionComplete [(rodStrand c, true)]) s fun s' =>
         normEntry s' (wFld v 49 37) = xs.foldl normAdd (normEntry s (wFld v 49 37)) ∧
         (∀ e', e' ≠ wFld v 49 37 → normEntry s' e' = normEntry s e') ∧ s'.rod.mem = s.rod.mem ∧ s'.brd = s.brd ∧ s'.mem = s.mem) ∧
     (idle s (18 + c) = true → begun s (18 + c) 0x71 = true → opersOk [(fD w, 32)] [] = true →
       Runs (.normrd c) s fun s' => Issued s s' (18 + c) ∧ LocalFrame s s' c (fD w) 32 ∧
         mread (lmem s' c) (fD w) 32 = normBytes (normEntry s e)) ∧
     (idle s (18 + c) = true → begun s (18 + c) 0x72 = true →
       Runs (.normclr c) s fun s' => Issued s s' (18 + c) ∧ normEntry s' e = {} ∧
         (∀ e', e' ≠ e → normEntry s' e' = normEntry s e') ∧ s'.rod.mem = s.rod.mem ∧ s'.brd = s.brd ∧ s'.mem = s.mem))

/-- R223: a word that passes checks 1 to 3 of Table 7-3, with W_EN set and W_CNT zero or S_EN set and S_INC zero, is refused at
decode with 0x0B05_0205: its strand stops, it does not wait, consumes no token count and never issues, and the refusal is a
job-ending fault (R71). -/
def Obligations.ZeroCountsAreRefused : Prop :=
  ∀ (s : State) (n : Fin 43), canDecode s n = true →
    let x := strand s n
    let w := codeWord (img s) n x.index.toNat
    parityEven w = true → opAssigned n (wOp w) = true → wsZero w = true →
    (wWen w = true ∧ wWcnt w = 0 ∨ wSen w = true ∧ wSinc w = 0) →
    Runs (.instructionDecode n) s fun t =>
      OnItsWay t 0x0B050205 .jobEnding (natLE 4 n ++ natLE 4 x.index.toNat) s.sys.drill ∧
      strand t n = { x with st := 8 } ∧ halted t n = true ∧ TokensKept s t ∧ (strand t n).phase = .fetch ∧
      (strand t n).inflight = x.inflight ∧ begun t n (wOp w) = false

/-- R218: a waiting instruction whose token holds at least W_CNT begins, and W_CNT is subtracted from the token, in one action;
no other token and no other strand changes. While the token holds less, nothing changes. -/
def Obligations.TokenWait : Prop :=
  ∀ (s : State) (n : Fin 43), Canonical s → running s = true → halted s n = false → (strand s n).phase = .waiting →
    let w := (strand s n).word
    (wWcnt w ≤ token s (wWtok w) → Runs (.tokenWaitSatisfied n) s fun t =>
      token t (wWtok w) = token s (wWtok w) - wWcnt w ∧ (∀ k, k ≠ wWtok w → token t k = token s k) ∧
      strand t n = { strand s n with phase := .begun, st := 1 } ∧ (∀ m, m ≠ n.val → strand t m = strand s m) ∧
      t = { s with str := { s.str with strands := t.str.strands, tok := t.str.tok } }) ∧
    (token s (wWtok w) < wWcnt w → exec (.tokenWaitSatisfied n) s = .next s)

/-- (1) R268, R218: a strand that may take its next word takes it; a word that passes Table 7-3 waits where W_EN is set and begins
where it is not; one that fails stops its strand, reports the first check that failed with the strand and the
instruction index, and neither waits nor issues; tokens do not change.

(2) R265, R232, R211, R266: NOP completes in the cycle in which it begins and the strand goes on to the next word; STEP halts its
strand; END completes and its strand issues nothing further; NOP and END signal their tokens. NOP as the last word
of its section stops the strand with 0x0B05_0304. -/
def Obligations.DecodeAndCommonOpcodes : Prop :=
  (∀ (s : State) (n : Fin 43), canDecode s n = true →
     let x := strand s n
     let w := codeWord (img s) n x.index.toNat
     (decodeCheck n w = none → Runs (.instructionDecode n) s fun t =>
       strand t n = { x with word := w, phase := (if wWen w then .waiting else .begun), st := (if wWen w then 2 else 1) } ∧
       (∀ m, m ≠ n.val → strand t m = strand s m) ∧ t = { s with str := { s.str with strands := t.str.strands } }) ∧
     (∀ code, decodeCheck n w = some code → Runs (.instructionDecode n) s fun t =>
       strand t n = { x with st := 8 } ∧ (∀ m, m ≠ n.val → strand t m = strand s m) ∧ t.str.tok = s.str.tok ∧
       OnItsWay t code .jobEnding (natLE 4 n ++ natLE 4 x.index.toNat) s.sys.drill ∧
       t.mem.hbm = s.mem.hbm ∧ t.brd.mem = s.brd.mem ∧ t.rod.mem = s.rod.mem)) ∧
  (∀ (s : State) (n : Fin 43),
     let x := strand s n
     let sigs := wordSignal n x.word
     (∀ g ∈ sigs, token s g.tok + g.inc ≤ 65535) →
     (begun s n 0x00 = true → unitFree s n = true → Runs (.nop n) s fun t =>
       (x.index.toNat + 1 ≠ codeCount (img s) n →
         strand t n = { x with index := x.index + 1, phase := .fetch, st := 1 } ∧ t.knl = s.knl) ∧
       (x.index.toNat + 1 = codeCount (img s) n →
         strand t n = { x with index := x.index + 1, phase := .fetch, st := 8 } ∧ OnItsWay t 0x0B050304 .jobEnding [] s.sys.drill) ∧
       (∀ m, m ≠ n.val → strand t m = strand s m) ∧ t.str.tok = (applySignals s sigs).str.tok ∧
       t = { s with str := { s.str with strands := t.str.strands, tok := t.str.tok }, knl := { s.knl with inflight := t.knl.inflight }
                    rod := { s.rod with instnum := t.rod.instnum }, col := { s.col with instnum := t.col.instnum } }) ∧
     (begun s n 0x01 = true → Runs (.stepMarker n) s fun t =>
       strand t n = { x with st := 6 } ∧ (∀ m, m ≠ n.val → strand t m = strand s m) ∧
       t = { s with str := { s.str with strands := t.str.strands } }) ∧
     (begun s n 0x02 = true → unitFree s n = true → Runs (.endStrand n) s fun t =>
       strand t n = { x with st := 7 } ∧ (∀ m, m ≠ n.val → strand t m = strand s m) ∧ canDecode t n = false ∧
       t.str.tok = (applySignals s sigs).str.tok ∧
       t = { s with str := { s.str with strands := t.str.strands, tok := t.str.tok }
                    rod := { s.rod with instnum := t.rod.instnum }, col := { s.col with instnum := t.col.instnum } }))

/-- (1) R220, R221: the signals of one cycle to a token add up; where the sum stays within 65,535 the token holds it, and where it
would not, the token keeps its count.

(2) R221: signals that would take a token above 65,535 stop the strands that sent them and raise 0x0B05_0201, job-ending. -/
def Obligations.TokenSignals : Prop :=
  (∀ (s : State) (sigs : List Signal) (k : Nat), Canonical s →
     token (applySignals s sigs) k =
       if sigs.any (fun g => g.tok == k) = true ∧ signalled s sigs k ≤ 65535 then signalled s sigs k else token s k) ∧
  (∀ (s : State) (sigs : List Signal) (k : Nat), s.die ≠ .off → (∃ g ∈ sigs, g.tok = k) → 65535 < signalled s sigs k →
     OnItsWay (applySignals s sigs) 0x0B050201 .jobEnding [] s.sys.drill ∧
     ∀ g ∈ sigs, g.tok = k → g.strand < 43 → (strand (applySignals s sigs) g.strand).st = 8)

/-- (1) R211, R207, R200, R300, R445: an instruction in flight of a Rods strand completes where no grain of its cluster waits for credits
and every block that it reads verifies: the unit's effect happens, the instruction leaves those in flight, its cluster's
instruction number counts, and its token signal arrives; where the signal's parity fails it is not applied and raises
0x0401_0001, job-ending. Where it may not complete, nothing changes.

(2) R62, R77, R93 to R95, Table 2-5: the Frame's oldest operation, when all of it has streamed and its last carry is written,
completes: it leaves the Frame, FRM_OPNUM and the LAST registers take its values, and its record, if it asked for one, stands on
the Board, where no other byte changed.

(3) R106, R129, R226, R304: the Edge's oldest instruction completes when its last row is read: EDG_INSTNUM takes its number and its
ring's segment is produced. -/
def Obligations.Completions : Prop :=
  (∀ (s : State) (c : Fin 16) (i : Nat) (w : BitVec 128) (more : List (Nat × BitVec 128)),
     let x := strand s (18 + c)
     let u := rodsComplete s c w
     x.inflight = (i, w) :: more → wOp w ≠ 0x78 → i + 1 ≠ codeCount (img s) (18 + c) →
     (canComplete s (18 + c) = false → ∀ ok, exec (.instructionComplete [(rodStrand c, ok)]) s = .next s) ∧
     (canComplete s (18 + c) = true → (∀ g ∈ wordSignal (18 + c) w, token s g.tok + g.inc ≤ 65535) →
       ∀ ok, Runs (.instructionComplete [(rodStrand c, ok)]) s fun t =>
         strand t (18 + c) = { x with inflight := more } ∧ (∀ m, m ≠ 18 + c.val → strand t m = strand s m) ∧
         vget t.rod.instnum c 0 = vget s.rod.instnum c 0 + 1 ∧ t.rod.mem = u.rod.mem ∧ t.mem = u.mem ∧ t.brd = u.brd ∧
         (ok = true → t.str.tok = (applySignals s (wordSignal (18 + c) w)).str.tok ∧ t.knl = u.knl) ∧
         (ok = false → t.str.tok = s.str.tok ∧ (wSen w = false → t.knl = u.knl) ∧
           (wSen w = true → OnItsWay t 0x04010001 .jobEnding [] s.sys.drill)))) ∧
  (∀ (s : State) (op : FrameOp) (rest : List FrameOp) (i : Nat) (w : BitVec 128) (more : List (Nat × BitVec 128)), Canonical s →
     (strand s 0).inflight = (i, w) :: more → running s = true → (strand s 0).dead = false → creditHeld s 0 = false → i + 1 ≠ codeCount (img s) 0 →
     s.frm.ops = op :: rest → streamed op = true → op.landing = [] → op.dead = false →
     (∀ g ∈ wordSignal 0 w, token s g.tok + g.inc ≤ 65535) →
     let r := wFld op.word 57 36 * 64
     Runs (.instructionComplete [(0, true)]) s fun t => t.frm.ops = rest ∧ t.frm.opnum = op.num ∧
       t.frm.last.cycles = BitVec.ofNat 64 (opCycles op) ∧ t.frm.last.stepbacks = BitVec.ofNat 32 (min op.stepbacks 0xFFFFFFFF) ∧
       t.frm.slots = s.frm.slots ∧ strand t 0 = { strand s 0 with inflight := more } ∧
       t.str.tok = (applySignals s (wordSignal 0 w)).str.tok ∧ t.mem = s.mem ∧ t.rod = s.rod ∧
       (r = 0 → t.brd = s.brd) ∧ (r ≠ 0 → mread t.brd.mem r 64 = opRecord op ∧
         ∀ a, a < r ∨ r + 64 ≤ a → mget t.brd.mem a = mget s.brd.mem a)) ∧
  (∀ (s : State) (op : EdgeOp) (rest : List EdgeOp) (data aux i : Nat) (w : BitVec 128) (more : List (Nat × BitVec 128)),
     (strand s 1).inflight = (i, w) :: more → running s = true → (strand s 1).dead = false → creditHeld s 1 = false → i + 1 ≠ codeCount (img s) 1 →
     s.edg.ops = op :: rest → op.phase = .tail → op.dead = false → op.prod = some (data, aux) →
     (∀ g ∈ wordSignal 1 w, token s g.tok + g.inc ≤ 65535) →
     let r := if op.sweep then sdRing op.desc else ddRing op.desc
     Runs (.instructionComplete [(1, true)]) s fun t => t.edg = { s.edg with ops := rest, instnum := op.num } ∧
       (r < 64 → ring t r = { ring s r with p := (ring s r).p + 1, segs := (ring s r).segs ++ [⟨1, data, aux⟩] }) ∧
       (∀ q, q ≠ r → ring t q = ring s q) ∧ strand t 1 = { strand s 1 with inflight := more } ∧
       t.mem = s.mem ∧ t.brd = s.brd ∧ t.rod = s.rod ∧ t.frm = s.frm)

/-- (1) R24, R25, R28: over a chunk of exact mode, where no fault changes a carry, a carry cell comes to its value before plus the sum of
the aligned products, modulo 2^48, whatever their order; overflow is reported exactly when some prefix of that sum leaves
-2^47 to 2^47 - 1.

(2) R29, R27, R28: a replay at the guaranteed quantum cannot overflow, when no operand is above its ceiling. -/
def Obligations.ExactSums : Prop :=
  (∀ (q : Int) (ab : Nat → Fv × Fv) (ks : Nat) (c : BitVec 48),
     let p := fun k => alignedProduct q (ab k).1 (ab k).2
     (exactCell q ab ks (fun _ => 0) c).1 = BitVec.ofInt 48 (c.toInt + ((List.range ks).map p).sum) ∧
     ((exactCell q ab ks (fun _ => 0) c).2 = true ↔
       ∃ j, j < ks ∧ outside48 (c.toInt + ((List.range (j + 1)).map p).sum) = true)) ∧
  (∀ (ea eb : Int) (k ks : Nat) (ab : Nat → Fv × Fv), 1 ≤ k → k ≤ 1048576 → ks ≤ k →
     (∀ j, j < ks → aboveCeil (ab j).1 ea = false ∧ aboveCeil (ab j).2 eb = false) →
     (exactCell (quantum ea eb k true) ab ks (fun _ => 0) 0).2 = false)

/-- (1) R210, R275, R85: a MATMUL in which no check of R275 finds an error issues, and its operation joins the Frame's with its
descriptor and the Frame's present width; where errors are found the strand stops, each error raises its code, job-ending, and
nothing begins.

(2) R56, R63, R69, R82, R87, R226, R587: the first operation that has a pass to seat seats its next weight chunk from the B
ring's present segment and releases it, once it verifies, its strips are awake, no grain waits for credits and no substitution
comes first; it is held on the ring while the segment is missing or does not verify. The next row group of the operation that
streams begins once every slot of it is Empty and its ceiling-map entries verify, and is held on the slots before. -/
def Obligations.FrameBegins : Prop :=
  (∀ (s : State), begun s 0 0x10 = true →
     let x := strand s 0
     let d := mread s.brd.mem (wFld x.word 79 58 * 64) 128
     (matmulRefusals s x.word d = [] → Runs .matmul s fun t => Issued s t 0 ∧
       t.frm.ops = s.frm.ops ++ [{ num := s.frm.issued, index := x.index.toNat, word := x.word, desc := d, width := frmWidth s }] ∧
       t = { s with str := { s.str with strands := t.str.strands }
                    frm := { s.frm with ops := t.frm.ops, issued := s.frm.issued + 1 } }) ∧
     (matmulRefusals s x.word d ≠ [] → Runs .matmul s fun t =>
       strand t 0 = { x with st := 8 } ∧ (∀ m, m ≠ 0 → strand t m = strand s m) ∧
       t.knl.inflight = s.knl.inflight ++
         (matmulRefusals s x.word d).map (fun c => ⟨BitVec.ofNat 32 c, .jobEnding, [], s.sys.drill⟩) ∧
       t.frm.event.getLsbD 4 = true ∧ t.frm.ops = s.frm.ops ∧ t.brd.mem = s.brd.mem ∧ t.mem.hbm = s.mem.hbm)) ∧
  ((∀ (s : State) (op : FrameOp) (waited : Nat), s.frm.ops[seatIdx s.frm.ops]? = some op → frameLive s op = true →
     op.seat = none → creditHeld s 0 = false → substHolds s op = false →
     let rb := wFld op.word 29 24
     let mask := stripMask s (stripsNeeded op.desc op.width)
     let ks := chunkLen op.desc (seatPass op % chunks op.desc)
     let lay : SegLayout := ⟨ks, bRowBytes op.desc op.width,
       if isMx (fdB op.desc) then ceilDiv ks 32 * roundUpTo op.width 64 else 0⟩
     stripsOn s &&& mask = mask →
     (feedReady s rb = true → segNow s rb = lay →
       Runs (.seatChunk waited) s fun t =>
         t.frm.ops = s.frm.ops.set (seatIdx s.frm.ops) { op with
           seat := some (mread s.brd.mem (segAddr s rb (ring s rb).c) (lay.rows * lay.rowBytes + lay.aux))
           seatWait := op.seatWait + waited, cyc := op.cyc + waited } ∧
         (ring t rb).c = (ring s rb).c + 1 ∧ (ring t rb).p = (ring s rb).p ∧ (∀ r, r ≠ rb → ring t r = ring s r) ∧
         strand t 0 = { strand s 0 with hold := 0 } ∧
         t = { s with frm := { s.frm with ops := t.frm.ops }, str := { s.str with rings := t.str.rings, strands := t.str.strands } }) ∧
     (feedReady s rb = false → seatIdx s.frm.ops = curIdx s.frm.ops → op.active = none →
       Runs (.seatChunk waited) s fun t => strand t 0 = { strand s 0 with hold := 3 } ∧
         (∀ m, m ≠ 0 → strand t m = strand s m) ∧ OnlyStrands s t)) ∧
   (∀ (s : State) (op : FrameOp) (waited : Nat), curOp s = some op → frameLive s op = true → op.pass < passes op.desc op.width →
     op.group = none →
     let tiles := groupTiles s op.desc op.width (nextGroup op)
     (tiles.all (fun x => (slot s x.slot).st == 0) = true → tiles.all (fun x => mapsVerify s op.desc op.width x.ti x.tj) = true →
       (fdSeq op.desc = true ∨ tiles.all (fun x => decide (x.q ≤ 511)) = true) →
       Runs (.rowGroupBegin waited) s fun t =>
         t.frm.ops = s.frm.ops.set (curIdx s.frm.ops) { op with
           group := some tiles, carryWait := op.carryWait + waited, cyc := op.cyc + waited } ∧
         t.frm.hold = false ∧ strand t 0 = { strand s 0 with hold := 0 } ∧
         t = { s with frm := { s.frm with ops := t.frm.ops, hold := false }, str := { s.str with strands := t.str.strands } }) ∧
     (tiles.any (fun x => (slot s x.slot).st != 0) = true →
       Runs (.rowGroupBegin waited) s fun t => t.frm = { s.frm with hold := true } ∧
         strand t 0 = { strand s 0 with hold := 4 }) ∧
     (tiles.all (fun x => (slot s x.slot).st == 0) = true → tiles.all (fun x => mapsVerify s op.desc op.width x.ti x.tj) = true →
       fdSeq op.desc = false →
       tiles.any (fun x => decide (511 < x.q)) = true →
       Runs (.rowGroupBegin waited) s fun t => (strand t 0).st = 8 ∧ OnItsWay t 0x01020004 .jobEnding [] s.sys.drill ∧
         t.frm.slots = s.frm.slots)))

/-- (1) R55, R56, R58, R60, R62, R63, R67, R87, R226: a pass whose weight chunk is seated and whose A segments are all in the ring
and verify streams its tiles one after another, where no value is above its ceiling: the operation counts the pass, its chunk
is used up, the A ring releases a segment a tile, and each tile's slot holds what the tile's chunk left; HBM, the Board and
the local memories are only read. While the first segment is missing or does not verify the pass is held on the ring. In exact
mode, where no fault changes a carry, each cell comes to its sum over the chunk.

(2) R62, R67: when the last carry of the oldest begun pass is written, the slots of the tiles that are then finished turn
Full, and no other slot changes.

(3) R29, R30, R73, R87: the tiles of a row group that overflowed are replayed at their guaranteed quantum from the source
regions, whose blocks verify: the step-backs count and the group is finished; the slot of a tile replayed alone holds that
quantum, and, where no value is above its ceiling and no fault changes a carry, in each cell the exact sum over the whole of
K. -/
def Obligations.FramePassesAndStepBack : Prop :=
  ((∀ (s : State) (op : FrameOp) (tiles : List TileRun) (bseg : Bytes) (fw sw th : Nat) (faults : List CarryFault),
     curOp s = some op → frameLive s op = true → creditHeld s 0 = false → op.group = some tiles → op.seat = some bseg →
     op.active = none → substHolds s op = false → op.pass < passes op.desc op.width → replayDue op = none →
     let ra := wFld op.word 35 30
     let chunk := op.pass % chunks op.desc
     (feedReady s ra = false → Runs (.passBegin fw sw th faults) s fun t =>
       strand t 0 = { strand s 0 with hold := 3 } ∧ OnlyStrands s t) ∧
     (0 < tiles.length → (ring s ra).c + tiles.length ≤ (ring s ra).p → (tiles.map TileRun.slot).Nodup →
       (∀ j x, tiles[j]? = some x → ((ring s ra).segs.drop j).head? = some (aLayout op.desc x.ti) ∧ x.slot < 16 ∧
         rangeVerifies s.brd.mem s.brd.check (segAddr s ra ((ring s ra).c + j))
           (tileRows op.desc x.ti * aRowBytes op.desc + (if isMx (fdA op.desc) then 64 * tileRows op.desc x.ti else 0)) = true ∧
         (fdSeq op.desc = true ∨ rangeRow s op.desc op.width x chunk (tileA s op j x) (tileB op bseg)
           (tileRows op.desc x.ti) (tileCols op.desc op.width x.tj) (chunkLen op.desc chunk) = none)) →
       ∃ t, exec (.passBegin fw sw th faults) s = .next t ∧
         (∃ op', t.frm.ops = s.frm.ops.set (curIdx s.frm.ops) op' ∧ op'.pass = op.pass + 1 ∧ op'.seat = none ∧ op'.active = none ∧
           op'.desc = op.desc ∧ op'.feedWait = op.feedWait + fw ∧ op'.seatWait = op.seatWait + sw ∧
           op'.throttle = op.throttle + th) ∧
         (ra < 64 → (ring t ra).c = (ring s ra).c + tiles.length) ∧ (ring t ra).p = (ring s ra).p ∧
         (∀ j x, tiles[j]? = some x → (slot t x.slot).cells =
           (tilePass s op false x chunk (tileA s op j x) (tileB op bseg) (if chunk = 0 then [] else (slot s x.slot).cells)
             faults j).cells) ∧
         (∀ k, (∀ x ∈ tiles, x.slot ≠ k) → slot t k = slot s k) ∧
         t.mem = s.mem ∧ t.brd = s.brd ∧ t.rod.mem = s.rod.mem)) ∧
   (∀ (s : State) (op : FrameOp) (t : TileRun) (chunk : Nat) (a b : Nat → Nat → Fv) (old : List (List (BitVec 48))) (pos r c : Nat),
     let d := op.desc
     let rows := tileRows d t.ti
     let cols := tileCols d op.width t.tj
     let ks := chunkLen d chunk
     fdSeq d = false → t.stopped = false → rangeRow s d op.width t chunk a b rows cols ks = none → r < rows → c < cols →
     cellAt (tilePass s op false t chunk a b old [] pos).cells r c =
       (exactCell t.q (fun k => (a r k, b k c)) ks (fun _ => 0) (cellAt old r c)).1)) ∧
  (∀ (s : State) (op : FrameOp) (rest : List FrameOp) (l : Landing) (ls : List Landing), running s = true →
     s.frm.ops = op :: rest → op.landing = l :: ls → op.dead = false →
     Runs .lastCarryWritten s fun t => t.frm.ops = { op with landing := ls } :: rest ∧
       (∀ k, k ∈ l.slots → k < 16 → slot t k = { slot s k with st := 2 }) ∧ (∀ k, k ∉ l.slots → slot t k = slot s k) ∧
       t = { s with frm := { s.frm with ops := t.frm.ops, slots := t.frm.slots, replay := false, rotated := false } }) ∧
  (∀ (s : State) (op : FrameOp) (tiles : List TileRun) (throttle : Nat), curOp s = some op → replayDue op = some tiles →
     frameLive s op = true → creditHeld s 0 = false → fdSeq op.desc = false →
     let rep := tiles.filter needsReplay
     rep.all (fun t => decide (t.qg ≤ 511)) = true → rep.all (fun t => sourceVerifies s op.desc op.width t.ti t.tj) = true →
     (∀ x ∈ rep, ∀ c, c < chunks op.desc → sourceRange s op x c = none) →
     ∃ t, exec (.stepBackReplay throttle []) s = .next t ∧
       t.frm.stepbacks = satAdd32 s.frm.stepbacks rep.length ∧ t.frm.event = s.frm.event ||| (if rep.any (sourceNonfinite s op) then 3 else 1) ∧
       t.frm.replay = true ∧
       (∃ op', t.frm.ops = s.frm.ops.set (curIdx s.frm.ops) op' ∧ op'.group = none ∧ op'.pass = op.pass ∧
         op'.stepbacks = op.stepbacks + rep.length) ∧
       (∀ x, rep = [x] → x.slot < 16 → 0 < fdK op.desc → (slot t x.slot).q = BitVec.ofInt 10 x.qg ∧ (slot t x.slot).stepped = true ∧
         (slot t x.slot).st = (slot s x.slot).st ∧ (slot t x.slot).tag = (slot s x.slot).tag ∧
         ∀ r c, r < tileRows op.desc x.ti → c < tileCols op.desc op.width x.tj →
           cellAt (slot t x.slot).cells r c = (exactCell x.qg (fun k =>
             (srcA s op.desc (256 * x.ti + r) k, srcB s op.desc k (op.width * x.tj + c))) (fdK op.desc) (fun _ => 0) 0).1) ∧
       (∀ k, (∀ x ∈ rep, x.slot ≠ k) → slot t k = slot s k) ∧
       t.mem = s.mem ∧ t.brd = s.brd ∧ t.rod = s.rod ∧ t.str = s.str)

/-- (1) R433, R76, R87, R436, R437: a recount window that has ended is followed by the next, of R434's length, with its pick; a
recount replay, whose source verifies and which meets no value above its ceiling, counts, and either its digest matches and
the strips of the tile keep the marker, or the mismatch waits for its classification.

(2) Table 12-5, R437, R439, R440: replays 2 and 3 that both give the original digest clear the mismatch as an absorbed
transient of 0x0201_0001; two that agree with each other and not with the original end the job with 0x0201_0002; a rotated
replay that again gives the recount's digest, where the bead test finds a fresh bead, is absorbed with 0x0201_0003 where the
bead lay off the original path and ends the job with 0x0201_0004 where it lay on it; everything else ends the job with
0x0201_0005. A job-ending verdict stops the Frame's strand. -/
def Obligations.RecountsAndClassification : Prop :=
  ((∀ (s : State), running s = true → s.knl.t = s.knl.winStart + s.knl.n.setWidth 64 →
     ∃ t, exec .recountWindowEnd s = .next t ∧ t.knl.win = s.knl.win + 1 ∧ t.knl.winStart = s.knl.t ∧
       t.knl.n = BitVec.ofNat 32 (interval s) ∧ t.knl.pick = BitVec.ofNat 32 (((s.knl.win + 1) * 167).toNat % interval s) ∧
       t = { s with knl := { s.knl with win := t.knl.win, winStart := t.knl.winStart, n := t.knl.n, pick := t.knl.pick } }) ∧
   (∀ (s : State) (op : FrameOp) (x : SelTile) (throttle : Nat) (faults : List CarryFault), curOp s = some op →
     recountDue op = some x → frameLive s op = true → creditHeld s 0 = false →
     sourceVerifies s op.desc op.width x.ti x.tj = true → (recountTile s op true x faults).stop = none →
     let d1 := replayDigest op x (recountTile s op true x faults)
     ∃ t, exec (.recountReplay throttle faults) s = .next t ∧
       t.knl.rcDone = satAdd32 s.knl.rcDone 1 ∧ t.frm.rotated = true ∧ t.frm.slots = s.frm.slots ∧ t.str = s.str ∧
       t.mem = s.mem ∧ t.brd = s.brd ∧
       (∃ op', t.frm.ops = s.frm.ops.set (curIdx s.frm.ops) op' ∧ op'.sel = op.sel.drop 1 ∧
         (d1 = x.d0 → op'.mismatch = none) ∧ (d1 ≠ x.d0 → ∃ y, op'.mismatch = some y ∧ y.d0 = x.d0 ∧ y.d1 = d1 ∧ y.idx = x.idx)) ∧
       (d1 = x.d0 → t.knl.rcMismatch = s.knl.rcMismatch ∧ t.knl.classify = s.knl.classify ∧
         ∀ p ∈ tileStrips s op.desc op.width x.tj, p < 16 → vget t.knl.stripKept p 0 = s.str.marker) ∧
       (d1 ≠ x.d0 → t.knl.rcMismatch = satAdd32 s.knl.rcMismatch 1 ∧ t.knl.classify = true ∧
         t.knl.stripKept = s.knl.stripKept))) ∧
  (∀ (s : State) (op : FrameOp) (x : SelTile) (cyc : Nat) (f2 f3 : List CarryFault) (failed : List (Fin 1040 × Fin 1040)),
     curOp s = some op → op.mismatch = some x → frameLive s op = true → creditHeld s 0 = false →
     sourceVerifies s op.desc op.width x.ti x.tj = true →
     (recountTile s op false x f2).stop = none → (recountTile s op true x f3).stop = none →
     let d2 := replayDigest op x (recountTile s op false x f2)
     let d3 := replayDigest op x (recountTile s op true x f3)
     ∃ t, exec (.classificationReplay cyc f2 f3 failed) s = .next t ∧ t.knl.classify = false ∧
       t.mem.hbm = s.mem.hbm ∧ t.brd.mem = s.brd.mem ∧ t.frm.slots = s.frm.slots ∧
       (d2 = x.d0 → d3 = x.d0 → OnItsWay t 0x02010001 .absorbed [] s.sys.drill ∧ t.str.strands = s.str.strands) ∧
       (d2 ≠ x.d0 → d3 = d2 → OnItsWay t 0x02010002 .jobEnding [] s.sys.drill ∧ (strand t 0).st = 8 ∧
         (s.knl.detSet = false → t.knl.detVerdict = 2 ∧ t.knl.clean = s.str.marker ∧ t.knl.detOpnum = op.num)) ∧
       (d2 ≠ x.d0 ∧ d3 ≠ d2 ∨ d2 = x.d0 ∧ d3 ≠ x.d0 ∧ d3 ≠ x.d1 →
         OnItsWay t 0x02010005 .jobEnding [] s.sys.drill ∧ (strand t 0).st = 8 ∧
         (s.knl.detSet = false → t.knl.detVerdict = 5 ∧ t.knl.clean = leastKept s)) ∧
       (∀ b, failed = [b] → d2 = x.d0 → d3 ≠ x.d0 → d3 = x.d1 → beadOut s b.1 b.2 = false →
         if onPath s op x (some b.1.val) b.2.val = true then
           OnItsWay t 0x02010004 .jobEnding [] s.sys.drill ∧ (strand t 0).st = 8
         else OnItsWay t 0x02010003 .absorbed [] s.sys.drill))

/-- R79, R80, R77, R82: a bead test of a start-up ends with the strips gated; a failed bead takes its strip's spare column, if it is
free; a bead of a spare row that stands unused is entered at offset 64 of its band and displaces nothing; substitutions
take effect between two operations, each reported by 0x0102_0005; a strip that an issued operation needs wakes. -/
def Obligations.BeadMap : Prop :=
  (∀ (s : State) (failed : List (Fin 1040 × Fin 1040)), s.die = .serving → s.sys.st = .boot →
    (∀ b, failed = [b] → beadOut s b.1 b.2 = false →
      (¬ (b.1.val % 65 = 64 ∧ b.2.val % 65 ≠ 64 ∧ vget s.frm.rowFail (b.1.val / 65) 0 = 0x7F) →
        vget s.frm.colFail (b.2.val / 65) 0 = 0x7F →
        Runs (.beadTest failed) s fun t => vget t.frm.colFail (b.2.val / 65) 0x7F = BitVec.ofNat 7 (b.2.val % 65) ∧
          t.frm.rowFail = s.frm.rowFail ∧ t.frm.retired = s.frm.retired ∧ stripsOn t = 0 ∧ t.boot.beadTest = true) ∧
      (b.1.val % 65 = 64 → b.2.val % 65 ≠ 64 → vget s.frm.rowFail (b.1.val / 65) 0 = 0x7F →
        Runs (.beadTest failed) s fun t => vget t.frm.rowFail (b.1.val / 65) 0x7F = 64 ∧
          t.frm.colFail = s.frm.colFail ∧ t.frm.retired = s.frm.retired ∧ t.frm.subst = s.frm.subst)) ∧
    (failed = [] → Runs (.beadTest failed) s fun t => stripsOn t = 0 ∧
      t = { s with boot := { s.boot with beadTest := true }, shp := { s.shp with on := t.shp.on } })) ∧
  (∀ (s : State), s.die ≠ .off → s.frm.subst ≠ [] → s.frm.ops.all (fun op => seatPass op == 0) = true →
    Runs .spareSubstitution s fun t => t.frm.subst = [] ∧ t.frm.rowMap = s.frm.rowFail ∧ t.frm.colMap = s.frm.colFail ∧
      t.frm.rowFail = s.frm.rowFail ∧ t.frm.colFail = s.frm.colFail ∧
      (∀ x ∈ s.frm.subst, OnItsWay t 0x01020005 .event (natLE 4 x.unit ++ natLE 4 x.offset ++ natLE 4 x.step) s.sys.drill) ∧
      t.mem = s.mem ∧ t.brd = s.brd ∧ t.str = s.str) ∧
  (∀ (s : State) (p : Fin 16) (op : FrameOp), running s = true → op ∈ s.frm.ops →
    (stripMask s (stripsNeeded op.desc op.width)).getLsbD p = true →
    Runs (.stripWake p) s fun t => (stripsOn t).getLsbD p = true ∧ (∀ q, q ≠ p.val → (stripsOn t).getLsbD q = (stripsOn s).getLsbD q) ∧
      t = { s with shp := { s.shp with on := t.shp.on } })

/-- (1) R70, R103: a DRAIN whose slot is Full at its fill tag issues and turns the slot Draining; one whose slot has not reached
its fill tag issues and waits for it; one whose slot has passed it, or is Empty or Draining at it, is refused with
0x0B02_0008. A waiting drain begins when its slot is Full at its fill tag.

(2) R105 to R112, R122, R306, R135, R587: a drain of a strand that no fault of its data has stopped (R287, R301), and that no
job-ending severity stops, writes, for a descriptor that names no record, summary or count record, each element of its tile at
its place in the segment of the ring that it writes next, and no byte outside that segment; its slot turns Empty, and the
job's counters take its counts. With no credit of the ring it is held. A job-ending severity stops the drain and the Edge's
strand, its codes raised and its counts taken. -/
def Obligations.Drains : Prop :=
  ((∀ (s : State), begun s 1 0x10 = true → edgeFree s = true →
     let x := strand s 1
     let d := mread s.brd.mem (wFld x.word 67 46 * 64) 128
     let i := wFld x.word 79 76
     let diff := tagDiff (BitVec.ofNat 8 (wFld x.word 75 68)) (slot s i).tag
     let op : EdgeOp := { num := s.edg.issued, index := x.index.toNat, word := x.word, desc := d, sweep := false, phase := .slotWait }
     drainRefusal s (wFld x.word 67 46 * 64) d = none →
     (diff = 0 → (slot s i).st = 2 → drainBeginRefusal s d (slot s i) = none → Runs .drain s fun t => Issued s t 1 ∧
       t.edg = { s.edg with ops := s.edg.ops ++ [{ op with phase := .rows }], issued := s.edg.issued + 1 } ∧
       slot t i = { slot s i with st := 3 } ∧ (∀ k, k ≠ i → slot t k = slot s k) ∧
       t = { s with edg := t.edg, str := { s.str with strands := t.str.strands }, frm := { s.frm with slots := t.frm.slots } }) ∧
     (0 < diff ∨ diff = 0 ∧ (slot s i).st = 1 → Runs .drain s fun t =>
       t.edg = { s.edg with ops := s.edg.ops ++ [op], issued := s.edg.issued + 1 } ∧
       strand t 1 = { x with inflight := x.inflight ++ [(x.index.toNat, x.word)], index := x.index + 1, phase := .fetch, st := 1, hold := 4 } ∧
       (∀ m, m ≠ 1 → strand t m = strand s m) ∧
       t = { s with edg := t.edg, str := { s.str with strands := t.str.strands } }) ∧
     (diff < 0 ∨ diff = 0 ∧ ((slot s i).st = 0 ∨ (slot s i).st = 3) →
       Runs .drain s fun t => RefusedAtIssue s t 1 0x0B020008 ∧ t.frm = s.frm ∧ t.edg.ops = s.edg.ops)) ∧
   (∀ (s : State) (before : List EdgeOp) (op : EdgeOp), running s = true → (strand s 1).dead = false → s.edg.ops = before ++ [op] → op.phase = .slotWait →
     let i := wFld op.word 79 76
     (slot s i).st = 2 → (slot s i).tag = BitVec.ofNat 8 (wFld op.word 75 68) → drainBeginRefusal s op.desc (slot s i) = none →
     Runs .drainSlotReady s fun t => t.edg = { s.edg with ops := before ++ [{ op with phase := .rows }] } ∧
       slot t i = { slot s i with st := 3 } ∧ (∀ k, k ≠ i → slot t k = slot s k) ∧ strand t 1 = { strand s 1 with hold := 0 } ∧
       t = { s with edg := t.edg, str := { s.str with strands := t.str.strands }, frm := { s.frm with slots := t.frm.slots } })) ∧
  (∀ (s : State) (before : List EdgeOp) (op : EdgeOp) (outWait throttle : Nat), Canonical s → running s = true →
     s.edg.ops = before ++ [op] → op.phase = .rows → op.sweep = false → op.dead = false → (strand s 1).dead = false → creditHeld s 1 = false →
     let d := op.desc
     let i := wFld op.word 79 76
     let k := slot s i
     let run := drainRun s d k
     let lay := drainLayout s d k
     let seg := segAddr s (ddRing d) (edgeSeg s (ddRing d))
     (edgeCredit s (ddRing d) = false → Runs (.drainLastRow outWait throttle) s fun t =>
       t.edg = { s.edg with outWait := true } ∧ strand t 1 = { strand s 1 with hold := 3 } ∧ t.brd = s.brd ∧ t.frm = s.frm) ∧
     (edgeCredit s (ddRing d) = true → run.stop = false → (endCodes d run.cnt).all (fun c => c.2 != 2) = true → i < 16 →
       ddRowRec d = false → ddColRec d = false → ddAddr d 0x44 = addrNone → ddAddr d 0x48 = addrNone →
       Runs (.drainLastRow outWait throttle) s fun t =>
         slot t i = { k with st := 0, cells := [] } ∧ (∀ j, j ≠ i → slot t j = slot s j) ∧
         strand t 1 = { strand s 1 with hold := 0 } ∧ t.edg.outWait = false ∧
         t.edg.ops = before ++ [{ op with phase := .tail, prod := some (lay.rows * lay.rowBytes, lay.aux) }] ∧
         t.edg.jobSat = satAdd32 s.edg.jobSat (run.cnt.sat + run.cnt.inf) ∧
         t.edg.jobNonfinite = satAdd32 s.edg.jobNonfinite run.cnt.nonfin ∧
         t.edg.jobRange = satAdd32 s.edg.jobRange (run.cnt.below + run.cnt.above) ∧
         (∀ r c, r < slotRows k → c < slotCols s k →
           mnat t.brd.mem (seg + r * lay.rowBytes + c * outBytes (ddOut d)) (outBytes (ddOut d)) =
             (drainElem s d k r c).code % 256 ^ outBytes (ddOut d)) ∧
         (∀ a, a < seg ∨ seg + lay.rows * lay.rowBytes + lay.aux ≤ a → mget t.brd.mem a = mget s.brd.mem a) ∧
         t.mem.hbm = s.mem.hbm ∧ t.rod = s.rod) ∧
     (edgeCredit s (ddRing d) = true → (run.stop = true ∨ (endCodes d run.cnt).any (fun c => c.2 == 2) = true) →
       Runs (.drainLastRow outWait throttle) s fun t =>
         t.edg.ops = before ++ [{ op with phase := .tail, dead := true }] ∧ (strand t 1).st = 8 ∧ (before = [] → canComplete t 1 = false) ∧
         t.edg.jobSat = satAdd32 s.edg.jobSat (run.cnt.sat + run.cnt.inf) ∧
         (∀ c ∈ run.codes, c.2 = 2 → OnItsWay t c.1 .jobEnding [] s.sys.drill) ∧ t.mem = s.mem ∧ t.rod = s.rod))

/-- R125 to R129, R43, R44, R306: a SWEEP that is not refused, with a credit of its ring, issues: the elements of its piece stand packed
in the segment that the Edge writes next, each converted under its scale, and its scales stand at their address; with no
credit it is held. -/
def Obligations.SweepConverts : Prop :=
  ∀ (s : State) (throttle : Nat), Canonical s → begun s 1 0x11 = true → edgeFree s = true →
    let x := strand s 1
    let d := mread s.brd.mem (wFld x.word 79 58 * 64) 64
    let lay := sweepLayout s d
    let seg := segAddr s (sdRing d) (edgeSeg s (sdRing d))
    let scales := sweepScales s d
    sweepRefusal s (wFld x.word 79 58 * 64) d = none →
    (edgeCredit s (sdRing d) = false → Runs (.sweep throttle) s fun t =>
      t.edg = { s.edg with outWait := true } ∧ strand t 1 = { x with hold := 3 } ∧ t.brd = s.brd) ∧
    (edgeCredit s (sdRing d) = true → Runs (.sweep throttle) s fun t => Issued s t 1 ∧
      t.edg.ops = s.edg.ops ++ [{ num := s.edg.issued, index := x.index.toNat, word := x.word, desc := d, sweep := true
                                  phase := .tail, prod := some (lay.rows * lay.rowBytes, lay.aux) }] ∧
      t.mem = s.mem ∧ t.rod = s.rod ∧ t.frm = s.frm ∧
      (fld d 0x20 4 = addrNone → fld d 0x24 4 = addrNone →
        mread t.brd.mem (fld d 0x1C 4) scales.length = scales ∧
        (fld d 0x1C 4 + scales.length ≤ seg ∨ seg + lay.rows * lay.rowBytes + lay.aux ≤ fld d 0x1C 4 →
          ∀ r, r < sdRows d → mread t.brd.mem (seg + r * lay.rowBytes) (packedBytes (sdDst d) (sdCols d)) =
            packElems (sdDst d) ((List.range (sdCols d)).map fun c => (sweepElem s d r c).code))))

/-- (1) R272, R277, R303 and the model's choice of log 48: COPY of a sound descriptor issues, and as it completes leaves each row of its
destination as the row of its source was, and writes nothing outside its destination; an unsound one is refused with
0x0B05_0305.

(2) R226, R303, R305: FEED of a ring whose producer the strand is issues, and is held while the ring is full; as it completes the
ring's next segment holds the rows of its source and its auxiliary bytes, no other byte has changed, and the segment is
produced (log 48).

(3) R226, R303, R307: WRITEOUT of a ring whose consumer the strand is issues, and is held while no segment is there; as it completes
the present segment stands, from the ring's cursor, in the rows of its destination, and it releases the segment or moves
the cursor (log 48). -/
def Obligations.FetchInstructions : Prop :=
  (∀ (s : State) (f : Fin 16), Canonical s →
     let n := f.val + 2
     let e := mread s.brd.mem (fetchDescAddr 0x10 (strand s n).word) 64
     (begun s n 0x10 = true → idle s n = true →
       (fetchDescOk s 0x10 e = true → Runs (.copy f) s fun t => IssuedWith s t n e ∧ OnlyStrands s t) ∧
       (fetchDescOk s 0x10 e = false →
         Runs (.copy f) s fun t => RefusedAtIssue s t n 0x0B050305 ∧ t.brd = s.brd ∧ t.mem = s.mem)) ∧
     ∀ w, Ends s n w → wOp w = 0x10 →
       let d := (strand s n).desc
       let len := extent (cdRows d) (cdRow d) (cdDstPitch d)
       fetchDescOk s 0x10 d = true →
       Runs (.instructionComplete [(fetchStrand f, true)]) s fun t =>
         (∀ r, r < cdRows d → locRead t (cdDst d + r * cdDstPitch d) (cdRow d) = locRead s (cdSrc d + r * cdSrcPitch d) (cdRow d)) ∧
         (∀ a, a < locAddr (cdDst d) ∨ locAddr (cdDst d) + len ≤ a →
           mget t.brd.mem a = mget s.brd.mem a ∧ mget t.mem.hbm a = mget s.mem.hbm a) ∧
         (if locBoard (cdDst d) = true then t.mem = s.mem else t.brd = s.brd) ∧ t.rod = s.rod ∧ t.str.rings = s.str.rings) ∧
  (∀ (s : State) (f : Fin 16), Canonical s →
     let n := f.val + 2
     let v := (strand s n).word
     let e := mread s.brd.mem (fetchDescAddr 0x11 v) 64
     (begun s n 0x11 = true → idle s n = true → fetchDescOk s 0x11 e = true →
       (ringKind (img s) (wFld v 79 74) = 1 ∨ ringKind (img s) (wFld v 79 74) = 2) → ringProducer (img s) (wFld v 79 74) = n →
       cdRows e * cdRow e + cdAuxBytes e ≤ ringSegBytes (img s) (wFld v 79 74) →
       (ringFree s (wFld v 79 74) = false → Runs (.feed f) s fun t => t = setHold s n 3) ∧
       (ringFree s (wFld v 79 74) = true → Runs (.feed f) s fun t => IssuedWith s t n e ∧ OnlyStrands s t)) ∧
     ∀ w, Ends s n w → wOp w = 0x11 →
       let r := wFld w 79 74
       let d := (strand s n).desc
       let seg := segAddr s r (ring s r).p
       let b := readRows s (cdSrc d) (cdSrcPitch d) (cdRow d) (cdRows d) ++
         (if cdAux d = locNone then [] else locRead s (cdAux d) (cdAuxBytes d))
       Runs (.instructionComplete [(fetchStrand f, true)]) s fun t =>
         mread t.brd.mem seg b.length = b ∧
         (∀ a, a < seg ∨ seg + b.length ≤ a → mget t.brd.mem a = mget s.brd.mem a) ∧
         ring t r = { ring s r with p := (ring s r).p + 1, segs := (ring s r).segs ++ [⟨cdRows d, cdRow d, cdAuxBytes d⟩] } ∧
         (∀ q, q ≠ r → ring t q = ring s q) ∧ t.mem = s.mem ∧ t.rod = s.rod) ∧
  (∀ (s : State) (f : Fin 16), Canonical s →
     let n := f.val + 2
     let v := (strand s n).word
     let q := wFld v 79 74
     let e := mread s.brd.mem (fetchDescAddr 0x12 v) 64
     (begun s n 0x12 = true → idle s n = true → fetchDescOk s 0x12 e = true → ringKind (img s) q = 3 →
       ringConsumer (img s) q = n → cdRows e * cdRow e ≤ ringSegBytes (img s) q →
       (ringReady s q = false → Runs (.writeout f) s fun t => t = setHold s n 3) ∧
       (ringReady s q = true →
         (ring s q).cursor + cdRows e * cdRow e ≤ (segNow s q).rows * (segNow s q).rowBytes + (segNow s q).aux →
         Runs (.writeout f) s fun t => IssuedWith s t n e ∧ OnlyStrands s t)) ∧
     ∀ w, Ends s n w → wOp w = 0x12 →
       let r := wFld w 79 74
       let d := (strand s n).desc
       let from_ := segAddr s r (ring s r).c + (ring s r).cursor
       fetchDescOk s 0x12 d = true →
       Runs (.instructionComplete [(fetchStrand f, true)]) s fun t =>
         (∀ i, i < cdRows d → locRead t (cdDst d + i * cdDstPitch d) (cdRow d) = mread s.brd.mem (from_ + i * cdRow d) (cdRow d)) ∧
         (if locBoard (cdDst d) = true then t.mem = s.mem else t.brd = s.brd) ∧ t.rod = s.rod ∧
         ring t r = (if wFld w 51 51 = 1 then { ring s r with c := (ring s r).c + 1, cursor := 0, segs := (ring s r).segs.drop 1 }
           else { ring s r with cursor := (ring s r).cursor + cdRows d * cdRow d }) ∧
         (∀ q, q ≠ r → ring t q = ring s q))

/-- (1) R147, R149, R151, R155: OPT that is not refused issues with its descriptor and its cluster's request for the port. As it
completes (log 48), where the tensors of its entry lie apart and its gradient on the Board, the master rows of its piece hold
the rule's new weights, formed from the old weights, the state and the gradient; HBM outside the entry's tensors, the Board
and local memory do not change; only an enrolled layer's norm-store entry changes.

(2) R149, Table 4-4: one element by each rule, with every operation rounded once to binary32 in the order of the table. -/
def Obligations.Optimizer : Prop :=
  (∀ (s : State) (c : Fin 16), Canonical s →
     let v := (strand s (18 + c)).word
     (begun s (18 + c) 0x78 = true → idle s (18 + c) = true → optRefusal s v = none →
       Runs (.opt c) s fun t => IssuedWith s t (18 + c) (mread s.brd.mem (oDesc v) 64) ∧ t.mem = s.mem ∧ t.rod = s.rod ∧
         t.brd = { s.brd with tposeReq := s.brd.tposeReq ||| BitVec.ofNat 16 (2 ^ c.val) }) ∧
     ∀ w, Finishing s c w → wOp w = 0x78 →
       let b := weightEntry (img s) (wFld w 79 66)
       let d := (strand s (18 + c)).desc
       oRow0 w + oRows w ≤ weRows b →
       Runs (.instructionComplete [(rodStrand c, true)]) s fun t => t.brd.mem = s.brd.mem ∧ t.rod.mem = s.rod.mem ∧
         (∀ a, (∀ r ∈ optRegions s b, a < r.1 ∨ r.1 + r.2 ≤ a) → mget t.mem.hbm a = mget s.mem.hbm a) ∧
         (∀ e, e ≠ weLayer b ∨ weEnrolled b = false → normEntry t e = normEntry s e) ∧
         (RegionsApart (optRegions s b) → locBoard (fld d 0x20 8) = true → ∀ i, i < oRows w →
           wordRow t (weMaster b + (oRow0 w + i) * masterPitch b) (weCols b) = (optRow s b d (oRow0 w + i) i).1.w)) ∧
  (∀ (p : OptParams) (g w m v : Word),
     optRule 1 p g w m v = (fSub w (fMul p.lr g), m, v) ∧
     optRule 2 p g w m v = (fSub w (fMul p.lr (fAdd (fMul p.mu m) g)), fAdd (fMul p.mu m) g, v) ∧
     (let m' := fAdd (fMul p.b1 m) (fMul (fSub 0x3F800000 p.b1) g)
      let v' := fAdd (fMul p.b2 v) (fMul (fSub 0x3F800000 p.b2) (fMul g g))
      optRule 3 p g w m v =
       (fSub w (fMul p.lr (fAdd (fDiv (fMul m' p.c1) (fAdd (fSqrt (fMul v' p.c2)) p.eps)) (fMul p.lam w))), m', v')))

/-- (1) R351, R352, R281, R282, R300: a COLL of each kind that is not refused, of whose SRC every block verifies, issues on its engine: the engine holds a collective of the word's
plan, kind and elements, the plan is bound to the engine and its sequence counts; a refused descriptor and a plan bound to
another engine stop the strand.

(2) R355: in a plan of one member, an ALLGATHER, and a BROADCAST at its root, is done as it issues: DST holds the bytes of SRC, and no
byte outside DST changes.

(3) R353: the sum that a SUM pass forms at a member is modulo 2^48 and does not depend on the order in which the contributions come.

(4) R352, R357, R338: a COLL frame of a plan that no engine is bound to waits, joined to the run of its vector before it; a header
that agrees is taken as the neighbour's, one that differs ends the job with 0x0B09_0001; a frame from a lead that the plan does
not name is not kept; a collective whose neighbour stays silent ends the job with 0x0709_0002. -/
def Obligations.Collectives : Prop :=
  (∀ (s : State) (e : Fin 8) (i : Instr) (kind : Nat),
     (i, kind) ∈ [(Instr.collReduce e, 0), (.collAllreduce e, 1), (.collAllgather e, 2), (.collBroadcast e, 3)] →
     begun s (34 + e) 0x10 = true → idle s (34 + e) = true → wFld (strand s (34 + e)).word 79 76 = kind →
     let w := (strand s (34 + e)).word
     let op := collOf s e w
     (collBad s w op = true → Runs i s fun t => RefusedAtIssue s t (34 + e) 0x0B050305 ∧ t.col.eng = s.col.eng) ∧
     (collBad s w op = false → ∀ e', sget? s.col.bound op.plan = some e' → e' ≠ e.val →
       Runs i s fun t => RefusedAtIssue s t (34 + e) 0x0B090002 ∧ t.col.eng = s.col.eng) ∧
     (collBad s w op = false → sget? s.col.bound op.plan = none ∨ sget? s.col.bound op.plan = some e.val →
       collVerifies s w op = true → Runs i s fun t => (strand t (34 + e)).inflight = (strand s (34 + e)).inflight ++ [((strand s (34 + e)).index.toNat, w)] ∧
         sget? t.col.bound op.plan = some e.val ∧ sgetD t.col.planSeq op.plan 0 = sgetD s.col.planSeq op.plan 0 + 1 ∧
         (∀ e', e' ≠ e.val → engine t e' = engine s e') ∧
         ∃ op', engine t e = some op' ∧ op'.plan = op.plan ∧ op'.kind = kind ∧ op'.count = op.count ∧ op'.dst = op.dst ∧
           op'.src = collSrc s (fld (mread s.brd.mem (collDesc w) 64) 0 8) op.ecode op.count)) ∧
  (∀ (s : State) (e : Fin 8) (i : Instr) (kind : Nat), (i, kind) ∈ [(Instr.collAllgather e, 2), (.collBroadcast e, 3)] → Canonical s →
     begun s (34 + e) 0x10 = true → idle s (34 + e) = true → wFld (strand s (34 + e)).word 79 76 = kind →
     let w := (strand s (34 + e)).word
     let op := collOf s e w
     let n := op.count * collBytes op.ecode
     collBad s w op = false → sget? s.col.bound op.plan = none → op.rop = 0 → plMembers (img s) op.plan = 1 → collRoot s op = true →
     collVerifies s w op = true → Runs i s fun t => (∃ op', engine t e = some op' ∧ op'.done = true) ∧
       locRead t op.dst n = locRead s (fld (mread s.brd.mem (collDesc w) 64) 0 8) n ∧
       ∀ a, a < locAddr op.dst ∨ locAddr op.dst + n ≤ a →
         mget t.brd.mem a = mget s.brd.mem a ∧ mget t.mem.hbm a = mget s.mem.hbm a) ∧
  (∀ (op : CollOp) (a : BitVec 64) (xs ys : List (BitVec 64)), op.rop = 1 → xs.Perm ys →
     xs.foldl (combine op) a = ys.foldl (combine op) a ∧
     (xs ≠ [] → (xs.foldl (combine op) a).toNat = (a.toNat + (xs.map BitVec.toNat).sum) % 2 ^ 48)) ∧
  ((∀ (s : State) (a : Arrival) (plan seq : BitVec 16) (m : CollMsg), JobArrives s a → sget? s.col.bound plan.toNat = none →
     Runs (.collFrameReceived a plan seq m) s fun t => (leadAt t a.lead).rx = a.seq + 1 ∧ (leadAt t a.lead).nak = none ∧
       (∀ j, j ≠ a.lead.val → leadAt t j = leadAt s j) ∧ t.str = s.str ∧ t.mem = s.mem ∧ t.brd = s.brd ∧ t.knl = s.knl ∧
       t.col = (if a.lead.val ∈ neighbours (img s) plan.toNat then
         { s.col with inbox := joinInbox s.col.inbox ⟨a.lead, plan.toNat, seq, m, 1⟩ } else s.col)) ∧
   (∀ (s : State) (a : Arrival) (e : Fin 8) (op : CollOp) (seq : BitVec 16) (kind rop ecode : BitVec 4) (count root : BitVec 32),
     running s = true → JobArrives s a → a.lead.val ∈ neighbours (img s) op.plan → op.plan < 65536 →
     sget? s.col.bound op.plan = some e.val → engine s e = some op → s.col.inbox = [] → a.lead.val ∈ op.headers →
     op.done = false → op.dead = false →
     let frame := Instr.collFrameReceived a (BitVec.ofNat 16 op.plan) seq (.header kind rop ecode count root)
     (headerOk op seq kind rop ecode count root = false → Runs frame s fun t =>
       engine t e = some { op with dead := true } ∧
       OnItsWay t 0x0B090001 .jobEnding (natLE 4 op.plan ++ natLE 4 a.lead) s.sys.drill) ∧
     (headerOk op seq kind rop ecode count root = true → (∃ l', l' ∈ op.headers ∧ l' ≠ a.lead.val) → Runs frame s fun t =>
       engine t e = some { op with headers := op.headers.filter (· != a.lead.val) } ∧ t.knl = s.knl)) ∧
   (∀ (s : State) (e : Fin 8) (op : CollOp), s.die ≠ .off → engine s e = some op → collWaits op = true →
     Runs (.neighbourTimeout e) s fun t => engine t e = some { op with dead := true } ∧
       OnItsWay t 0x07090002 .jobEnding (natLE 4 op.plan) s.sys.drill))

/-- (1) R338, R486: a cumulative acknowledgement removes every frame up to it; a NAK makes the sender begin again at the named frame, and
a missing acknowledgement at the oldest; nothing that is not acknowledged is lost.

(2) R338, R367: a frame that fails is counted in CNT_RETRY, with 0x0A08_0001 for its tag and 0x0708_0001 otherwise, and NAKed; a third
CHECK failure in a row ends the job with 0x0308_0001. While another frame has been NAKed, one that fails is only dropped. A
frame of a job's types that comes with another GEN, or on a lead without a key, fails so, and so does a DATA frame whose CHECK
does not hold.

(3) R339, R340: credits that come back are added up to the receiver's buffers, and a frame that waited for one leaves; a frame that
has waited 1 ms for a credit ends the job with 0x0708_000A. -/
def Obligations.LeadLinkLayer : Prop :=
  (∀ (s : State) (a : Arrival) (seq : BitVec 64), let x := leadAt s a.lead
     let y := { x with rx := a.seq + 1, nak := none, owed := x.owed + 1 }
     (Arrives s a → x.owed < 7 →
       (x.old = [] → Runs (.leadAck a seq) s fun t =>
         leadAt t a.lead = { y with sent := x.sent.filter (fun f => decide (seq < f.1))
                                    resend := if x.resend.any (fun q => decide (q ≤ seq)) then none else x.resend } ∧
         (∀ j, j ≠ a.lead.val → leadAt t j = leadAt s j) ∧ t = { s with lead := { s.lead with lead := t.lead.lead }, snp := t.snp }) ∧
       ((∃ f ∈ x.old ++ x.sent, f.1 = seq) → Runs (.leadNak a seq) s fun t => leadAt t a.lead = { y with resend := some seq } ∧
         (∀ j, j ≠ a.lead.val → leadAt t j = leadAt s j) ∧ t = { s with lead := { s.lead with lead := t.lead.lead } })) ∧
     (∀ f rest, x.up = true → x.old ++ x.sent = f :: rest → Runs (.leadAckTimeout a.lead) s fun t =>
       leadAt t a.lead = { x with resend := some f.1 } ∧
       (∀ j, j ≠ a.lead.val → leadAt t j = leadAt s j) ∧ t = { s with lead := { s.lead with lead := t.lead.lead } })) ∧
  ((∀ (s : State) (l : Fin 8) (seq : BitVec 64) (cause : Fin 3) (lane : Option (Fin 32)), s.die ≠ .off → leadUp s l = true →
     let x := leadAt s l
     let code := if cause = 1 then 0x0A080001 else 0x07080001
     (x.nak.all (fun q => q.1 == seq) = true → Runs (.leadFrameReject l seq cause lane) s fun t =>
       OnItsWay t code .count (natLE 4 l ++ natLE 8 seq.toNat) s.sys.drill ∧
       vget t.lead.cntRetry l 0 = satAdd32 (vget s.lead.cntRetry l 0) 1 ∧
       (failures x seq < 3 → leadAt t l =
           serveLead { x with nak := some (seq, failures x seq), waiting := x.waiting ++ [(0, .link (.nak seq))] } ∧
         (∀ j, j ≠ l.val → leadAt t j = leadAt s j)) ∧
       (failures x seq = 3 → cause = 2 →
         OnItsWay t 0x03080001 .jobEnding (natLE 4 l ++ natLE 8 seq.toNat) s.sys.drill)) ∧
     (x.nak.all (fun q => q.1 == seq) = false → exec (.leadFrameReject l seq cause lane) s = .next s)) ∧
   (∀ (s : State) (a : Arrival) (f : LeadFrame), leadUp s a.lead = true →
     (a.gen ≠ s.str.gen ∨ (leadAt s a.lead).keyed = false → ∀ origin cls hops plan seq m,
       exec (.dataFrameReceived a f) s = exec (.leadFrameReject a.lead a.seq 0 none) s ∧
       exec (.abortFrameReceived a origin cls hops) s = exec (.leadFrameReject a.lead a.seq 0 none) s ∧
       exec (.collFrameReceived a plan seq m) s = exec (.leadFrameReject a.lead a.seq 0 none) s) ∧
     (a.gen = s.str.gen → (leadAt s a.lead).keyed = true → leadFrameOk f = true → f.check ≠ crc32c f.payload →
       exec (.dataFrameReceived a f) s = exec (.leadFrameReject a.lead a.seq 2 none) s))) ∧
  ((∀ (s : State) (a : Arrival) (c : Fin 4), let x := leadAt s a.lead
     Arrives s a → x.owed < 7 →
     (∀ n, x.waiting = [] → Runs (.creditReturn a c n) s fun t =>
       leadAt t a.lead = { x with rx := a.seq + 1, nak := none, owed := x.owed + 1
                                  credit := vset x.credit c (min (creditCap s a.lead c) (vget x.credit c 0 + n)) } ∧
       t = { s with lead := { s.lead with lead := t.lead.lead } }) ∧
     (∀ n b, x.waiting = [(c.val, b)] → bodyClass b = c → vget x.credit c 0 = 0 → 1 ≤ n → 1 ≤ creditCap s a.lead c →
       x.relaning = false →
       Runs (.creditReturn a c n) s fun t => (leadAt t a.lead).waiting = [] ∧
         (leadAt t a.lead).sent = x.sent ++ [(x.tx, c.val, b)] ∧ (leadAt t a.lead).tx = x.tx + 1 ∧
         vget (leadAt t a.lead).credit c 0 = min (creditCap s a.lead c) n - 1)) ∧
   (∀ (s : State) (l : Fin 8) (c : Fin 4), let x := leadAt s l
     x.up = true → s.die ≠ .off → vget x.credit c 0 = 0 → (∃ b, (c.val, b) ∈ x.waiting) → Runs (.creditStall l c) s fun t =>
       OnItsWay t 0x0708000A .jobEnding (natLE 4 l ++ natLE 4 c) s.sys.drill ∧ leadAt t l = x))

/-- (1) R337, R348, R349, R336, R358: a DATA frame whose CHECK holds is delivered where it is for this device; one for another goes on with
its CHECK, its HOPLIMIT one less, on the keyed lead of its route; one whose HOPLIMIT is 0, or with no such lead, ends the job with
0x0708_0009. A key confirmation keys the lead or ends the job with 0x0A08_0002. The first ABORT of a job stops the engines and
ends the job with 0x0709_0001.

(2) R341 to R343: a lane in use that fails re-lanes its lead on the largest lane count that is left, with a frame to the other end, absorbed as 0x0708_0002; with
fewer than two lanes left, and on a loss, the lead goes down with 0x0708_0003. When re-laning is over, sending goes on from
the oldest frame that is not acknowledged.

(3) R327, R329, R330, R332: discovery takes each peer's report; at its end an invalid plan leaves every lead down with result 4 and
0x0708_0007, and a valid plan brings up exactly the leads of outcome MATCH, with result 1 where no configured lead is missing,
2 where one is, and 3 where a required one is. -/
def Obligations.LeadFramesLanesDiscovery : Prop :=
  (∀ (s : State) (a : Arrival), s.die ≠ .off →
     (∀ f, leadFrameOk f = true → JobArrives s a → f.check = crc32c f.payload →
       (f.dest.toNat = ownId s → Runs (.dataFrameReceived a f) s fun t => t.lead.delivered = s.lead.delivered ++ [f] ∧
         (leadAt t a.lead).rx = a.seq + 1 ∧ (leadAt t a.lead).nak = none ∧ t.knl = s.knl ∧ t.mem = s.mem) ∧
       (f.dest.toNat ≠ ownId s → f.hopLimit = 0 ∨ frameLead s f.dest.toNat = none →
         Runs (.dataFrameReceived a f) s fun t =>
           OnItsWay t 0x07080009 .jobEnding (natLE 4 f.dest.toNat) s.sys.drill ∧ t.lead.delivered = s.lead.delivered) ∧
       (∀ l', f.dest.toNat ≠ ownId s → f.hopLimit ≠ 0 → frameLead s f.dest.toNat = some l' → l' ≠ a.lead.val →
         Runs (.dataFrameReceived a f) s fun t =>
           leadAt t l' = serveLead { leadAt s l' with
             waiting := (leadAt s l').waiting ++ [(2, .data { f with hopLimit := f.hopLimit - 1 } none)] })) ∧
     (∀ ok, leadUp s a.lead = true → (leadAt s a.lead).key ≠ none → (leadAt s a.lead).keyed = false →
       (ok = true → Runs (.keyConfirm a ok) s fun t => (leadAt t a.lead).keyed = true ∧ (leadAt t a.lead).key = (leadAt s a.lead).key ∧
         (leadAt t a.lead).rx = a.seq + 1) ∧
       (ok = false → Runs (.keyConfirm a ok) s fun t => (leadAt t a.lead).keyed = false ∧
         OnItsWay t 0x0A080002 .jobEnding (natLE 4 a.lead ++ natLE 4 (peerId s a.lead)) s.sys.drill)) ∧
     (∀ origin cls hops, JobArrives s a → s.lead.abortSeen = false → s.lead.abortSent = false →
       Runs (.abortFrameReceived a origin cls hops) s fun t => t.lead.abortSeen = true ∧ t.col.lastHops = hops ∧
         t.col.lastOrigin = origin ∧ (∀ e op, engine t e = some op → op.dead = true) ∧
         OnItsWay t 0x07090001 .jobEnding (natLE 4 origin.toNat ++ natLE 4 cls.toNat) s.sys.drill)) ∧
  ((∀ (s : State) (lane : Fin 32) (l : Fin 8), s.die ≠ .off →
     allLeads.find? (fun i => leadUp s i && bitOf (leadAt s i).lanes.toNat lane) = some l.val →
     let left := (leadAt s l).lanes.toNat - 2 ^ lane.val
     (laneCount (onesIn left 0 32) ≠ 0 → Runs (.laneFailure lane) s fun t =>
       (let m := BitVec.ofNat 32 (lowestLanes left (laneCount (onesIn left 0 32)))
        leadAt t l = { txFrame (leadAt s l) (.relane m) with lanes := m, relaning := true }) ∧
       t.lead.cntRelane = satAdd32 s.lead.cntRelane 1 ∧ OnItsWay t 0x07080002 .absorbed (natLE 4 l ++ natLE 4 lane) s.sys.drill ∧
       (∀ j, j ≠ l.val → leadAt t j = leadAt s j)) ∧
     (laneCount (onesIn left 0 32) = 0 → Runs (.laneFailure lane) s fun t => leadUp t l = false)) ∧
   (∀ (s : State) (l : Fin 8), s.die ≠ .off → leadUp s l = true →
     Runs (.leadLost l) s fun t => leadUp t l = false ∧ (leadAt t l).keyed = false ∧
       (∃ eff, (eff = .jobEnding ∨ eff = .event) ∧ OnItsWay t 0x07080003 eff (natLE 4 l ++ natLE 4 (peerId s l)) s.sys.drill) ∧
       t.mem.hbm = s.mem.hbm ∧ t.brd.mem = s.brd.mem) ∧
   (∀ (s : State) (l : Fin 8), (leadAt s l).relaning = true → (leadAt s l).waiting = [] →
     Runs (.relaneComplete l) s fun t => leadAt t l = { leadAt s l with relaning := false, resend := oldest (leadAt s l) } ∧
       t.mem = s.mem ∧ t.str = s.str)) ∧
  ((∀ (s : State) (l : Fin 8) (p : PeerReport), s.lead.discovering = true → planValid s = true → planLanes s l ≠ 0 →
     Runs (.discoveryMgmt l p) s fun t => vget t.lead.peer l none = some p ∧ (leadAt t l).delay = p.delay ∧
       (∀ j, j ≠ l.val → vget t.lead.peer j none = vget s.lead.peer j none) ∧
       t = { s with lead := { s.lead with lead := t.lead.lead, peer := t.lead.peer } }) ∧
   (∀ (s : State), s.lead.discovering = true → s.die ≠ .off →
     (planValid s = false → Runs .discoveryEnd s fun t => t.lead.result = 4 ∧ t.lead.lead = s.lead.lead ∧ t.lead.discovered = true ∧
       OnItsWay t 0x07080007 .event (natLE 4 (ownId s)) s.sys.drill) ∧
     (planValid s = true → Runs .discoveryEnd s fun t => t.lead.discovering = false ∧ t.lead.discovered = true ∧
       (∀ i, i < 8 → outcome s i = 2 → leadUp t i = true ∧ (leadAt t i).lanes = BitVec.ofNat 32 (planMask s i) ∧ (leadAt t i).sent = []) ∧
       (∀ i, i < 8 → outcome s i ≠ 2 → leadAt t i = { leadAt s i with tx := 0, sent := [] }) ∧
       t.lead.result = (if allLeads.any (reqFailed s) = true then 3 else if allLeads.any (leadMissing s) = true then 2 else 1) ∧
       t.mem = s.mem ∧ t.str = s.str)))

/-- R481: a write to HBM does not change what a page of the generation being copied holds, for a page that is not copied or waits in
the reserve: the engine sends the bytes that stood there when the marker was committed. -/
def Obligations.CopyBeforeWrite : Prop :=
  ∀ (s : State) (g : Gen) (p a : Nat) (b : Bytes), s.snp.gen = some g → g.ended = false → ShardsApart g.shards →
    (sget? g.saved p ≠ none ∧ p ∈ g.copied ∨ sget? g.saved p = none ∧ p ∉ g.copied ∨ genPageAddr g.shards p = none) →
    ∃ g', (hbmWrite s a b).snp.gen = some g' ∧ pageContent (hbmWrite s a b) g' p = pageContent s g p

/-- (1) R476 to R479, R234, R244, R284, R499: at step 5 a SNAP is held while an earlier generation is being copied; else, where nothing
refuses it, it takes the marker: the generation of its regions, with its capture page, and every strand at STEP goes on; a
refused one ends the job with 0x0B05_0305. A SNAP that does not follow its STEP is refused, but for the one that R499 names.

(2) R283, R483: SNAP_FENCE completes at once where no generation is being copied, and stays in flight until the end of copying where
one is.

(3) R481, R482, R483, R488: a protected page about to be written moves to the reserve, or its writer is held while the reserve is full;
the engine queues the next page for storage, in 65 frames of its stored bytes, and marks it sent, once every block of it
verifies; at the end of copying the generation holds
no page any more. -/
def Obligations.Snaps : Prop :=
  ((∀ (s : State), running s = true → s.snp.step5 = true →
     (copying s = true → Runs .snap s fun t => t = { s with snp := { s.snp with hold := true } }) ∧
     (copying s = false → (strand s 42).st = 6 → snapOk s (stepSnapWord s) = true →
       (∀ g ∈ wordSignal 42 (stepSnapWord s), token (snapWait s (stepSnapWord s)) g.tok + g.inc ≤ 65535) →
       Runs .snap s fun t => t.snp.genMarker = s.str.marker ∧ t.snp.lastTaken = some s.str.marker ∧ t.snp.step5 = false ∧
         t.snp.older = s.snp.older ++ s.snp.gen.toList ∧
         (∃ g, t.snp.gen = some g ∧ g.marker = s.str.marker ∧ g.shards = genShards (snapRegions s (stepSnapWord s)) ∧
           g.target = wFld (stepSnapWord s) 79 78 ∧ g.ctx = s.str.gen ∧ g.copied = [0] ∧ g.ended = false ∧ g.sent = []) ∧
         (∀ n, n < 42 → (strand s n).st = 6 → (strand t n).index = (strand s n).index + 1 ∧ (strand t n).phase = .fetch) ∧
         (strand t 42).index = (strand s 42).index + 2 ∧ t.mem.hbm = s.mem.hbm ∧ t.brd = s.brd) ∧
     (copying s = false → snapOk s (stepSnapWord s) = false → Runs .snap s fun t =>
       OnItsWay t 0x0B050305 .jobEnding [] s.sys.drill ∧ (strand t 42).st = 8 ∧ t.snp.gen = s.snp.gen ∧ t.snp.step5 = false)) ∧
   (∀ (s : State), s.snp.step5 = false → begun s 42 0x10 = true →
     (s.snp.skipSnap = true → Runs .snap s fun t => t.snp.skipSnap = false ∧ (strand t 42).index = (strand s 42).index + 1 ∧
       t.snp.gen = s.snp.gen ∧ t.mem.hbm = s.mem.hbm) ∧
     (s.snp.skipSnap = false → Runs .snap s fun t => RefusedAtIssue s t 42 0x0B050305 ∧ t.snp = s.snp))) ∧
  (∀ (s : State), begun s 42 0x11 = true → idle s 42 = true →
     (copying s = false → Runs .snapFence s fun t => idle t 42 = true ∧ (strand t 42).index = (strand s 42).index + 1 ∧
       t.snp = s.snp ∧ t.mem = s.mem) ∧
     (copying s = true → Runs .snapFence s fun t => Issued s t 42 ∧ t = { s with str := { s.str with strands := t.str.strands } })) ∧
  ((∀ (s : State) (g : Gen) (page : BitVec 32) (a us : Nat), s.snp.gen = some g → g.ended = false →
     genPageAddr g.shards page.toNat = some a → ShardsApart g.shards → page.toNat ∉ g.copied →
     (reservePages s ≤ g.saved.length → Runs (.pagePush page us) s fun t => t = { s with snp := { s.snp with stall := true } }) ∧
     (g.saved.length < reservePages s → Runs (.pagePush page us) s fun t => t.snp.stall = false ∧
       (∃ g', t.snp.gen = some g' ∧ sget? g'.saved page.toNat = some (mread s.mem.hbm a pageBytes) ∧
         g'.copied = page.toNat :: g.copied ∧ g'.sent = g.sent) ∧
       t.snp.cntStall = (if s.snp.stall = true then satAdd32 s.snp.cntStall us else s.snp.cntStall) ∧ t.mem = s.mem)) ∧
   (∀ (s : State) (g : Gen) (p l : Nat), s.snp.gen = some g → g.ended = false → s.die = .serving → nextPage g = some p →
     toPartner g (pageShard g.shards 0 p).1 = false → pageVerifies s g p = true → dieLink s = some l →
     Runs .snapPageSend s fun t =>
       (∃ g', t.snp.gen = some g' ∧ g'.sent = p :: g.sent ∧ g'.saved = serase g.saved p ∧ g'.marker = g.marker) ∧
       (let k := pageShard g.shards 0 p
        ∀ i, i < 65 → TBody.page g.ctx g.marker g.position (BitVec.ofNat 32 k.1) (BitVec.ofNat 32 k.2) (BitVec.ofNat 32 (4064 * i))
          (slice (sealPage s g.marker g.position k.1 k.2 (pageContent s g p)) (4064 * i) 4064) ∈ (linkAt t l).die.bulk) ∧
       t.mem = s.mem ∧ t.brd = s.brd ∧ t.str = s.str) ∧
   (∀ (s : State) (g : Gen) (us : Nat), s.snp.gen = some g → g.ended = false → copyDone g = true → s.snp.hold = false →
     Runs (.endOfCopying us) s fun t =>
       (∃ g', t.snp.gen = some g' ∧ g'.ended = true ∧ g'.saved = [] ∧ g'.marker = g.marker ∧ g'.answered = g.answered) ∧
       t.snp.stall = false ∧ copying t = false ∧ t.mem = s.mem))

/-- (1) R485, R486, R487: a partner that can hold the mirror takes it, and refuses it otherwise with 0x0B0C_0003; its frames are written
in order of arrival; the relay queues each whole shard for storage, its pages and its SHARD_END, with the owner's POSITION. An
owner whose partner refuses sends all shards to storage and reports 0x070C_0001.

(2) R490, R491, R494: once storage has answered STORED for every shard, or RELAY_DONE has come for the mirrored ones, the manifest is
sent; when storage has stored that, the generation is durable; storage's FAILED, or silence, abandons it with 0x080C_0001, and
a partner's silence with 0x070C_0002. The last durable marker does not change then. An answer that
carries another context generation has no effect (R244). -/
def Obligations.MirrorsAndStorage : Prop :=
  ((∀ (s : State) (a : Arrival) (marker jobId bytes : BitVec 64) (position : BitVec 32), s.die ≠ .off → Arrives s a →
     let ok := s.snp.partnerValid = true ∧ s.snp.partnerLead.toNat = a.lead ∧ bytes.toNat ≤ mirrorRegion (img s) ∧ s.snp.mirror = none
     (ok → Runs (.mirrorBegin a marker jobId bytes position) s fun t => t.knl = s.knl ∧
       t.snp.mirror = some { lead := a.lead, marker := marker, jobId := jobId, bytes := bytes, position := position, ctx := s.str.gen }) ∧
     (¬ ok → Runs (.mirrorBegin a marker jobId bytes position) s fun t => t.snp.mirror = s.snp.mirror ∧
       OnItsWay t 0x0B0C0003 .event (natLE 8 marker.toNat ++ natLE 4 a.lead) s.sys.drill)) ∧
   (∀ (s : State) (a : Arrival) (m : Mirror) (f : LeadFrame), Canonical s → JobArrives s a → leadFrameOk f = true →
     f.check = crc32c f.payload → s.snp.mirror = some m → m.lead = a.lead → m.got + f.payload.length ≤ m.bytes.toNat →
     Runs (.mirrorPage a f) s fun t => ∃ m', t.snp.mirror = some m' ∧ m'.got = m.got + f.payload.length ∧
       mread m'.data m.got f.payload.length = f.payload ∧ (∀ x, x < m.got → mget m'.data x = mget m.data x) ∧ m'.relayed = m.relayed) ∧
   (∀ (s : State) (m : Mirror) (l k n : Nat), s.snp.mirror = some m → 0 < n → n ≤ 4096 → (m.taken + n) * pageBytes ≤ m.got →
     m.relayed.any (fun r => r.1 == k) = false → dieLink s = some l →
     Runs (.relayShard k n) s fun t =>
       (∃ d, t.snp.mirror = some { m with taken := m.taken + n, relayed := m.relayed ++ [(k, d)] } ∧
         TBody.shardEnd m.ctx m.marker m.position (BitVec.ofNat 32 k) (BitVec.ofNat 32 n) d ∈ (linkAt t l).die.bulk) ∧
       (∀ q i, q < n → i < 65 →
         TBody.page m.ctx m.marker m.position (BitVec.ofNat 32 k) (BitVec.ofNat 32 q) (BitVec.ofNat 32 (4064 * i))
           (slice (sealPage s m.marker m.position k q (mread m.data ((m.taken + q) * pageBytes) pageBytes)) (4064 * i) 4064)
           ∈ (linkAt t l).die.bulk)) ∧
   (∀ (s : State) (a : Arrival) (g : Gen), s.die ≠ .off → Arrives s a → s.snp.gen = some g → 2 ≤ g.route → g.ended = false →
     a.lead.val = s.snp.partnerLead.toNat →
     Runs (.mirrorBeginRefused a) s fun t => OnItsWay t 0x070C0001 .event (natLE 8 g.marker.toNat) s.sys.drill ∧
       ∃ g', t.snp.gen = some g' ∧ g'.route = 1 ∧ partnerShards g' = [] ∧ g'.marker = g.marker)) ∧
  ((∀ (s : State) (g : Gen) (k : Nat), s.snp.older = [] → s.snp.gen = some g → sget? g.digests k ≠ none → toPartner g k = false →
     k ∉ g.answered → Runs (.shardStored g.ctx k false) s fun t => ∃ g', t.snp.gen = some g' ∧ g'.answered = k :: g.answered ∧
       ((List.range g.shards.length).all (fun j => (k :: g.answered).contains j) = true → g'.phase = .manifestSent)) ∧
   (∀ (s : State) (m : Mirror) (k : Nat), s.snp.mirror = some m → m.relayed.any (fun r => r.1 == k) = true → k ∉ m.answered →
     Runs (.shardStored m.ctx k true) s fun t =>
       if m.got = m.bytes.toNat ∧ m.taken * pageBytes = m.got ∧ m.relayed.all (fun r => (k :: m.answered).contains r.1) = true
       then t.snp.mirror = none else t.snp.mirror = some { m with answered := k :: m.answered }) ∧
   (∀ (s : State) (a : Arrival) (g : Gen) (ds : List (Nat × BitVec 256)), s.snp.older = [] → s.snp.gen = some g → Arrives s a →
     a.lead.val = s.snp.partnerLead.toNat → (∃ k ∈ partnerShards g, k ∉ g.answered) →
     Runs (.relayDone a ds) s fun t => ∃ g', t.snp.gen = some g' ∧
       g'.answered = (ds.filter fun d => toPartner g d.1).map Prod.fst ++ g.answered) ∧
   (∀ (s : State) (g : Gen), s.snp.older = [] → s.snp.gen = some g → g.phase = .manifestSent → g.ended = true →
     Runs (.manifestStored g.ctx) s fun t => t.snp.durable = g.marker ∧ t.snp.gen = none ∧ t.snp.event = s.snp.event ||| 1 ∧
       t = { s with snp := { s.snp with durable := t.snp.durable, gen := none, event := t.snp.event } }) ∧
   (∀ (s : State) (g : Gen), s.die ≠ .off → s.snp.older = [] → s.snp.gen = some g → s.snp.hold = false →
     (awaitsStorage g = true → Runs (.storageFailed g.ctx) s fun t => t.snp.gen = none ∧ t.snp.durable = s.snp.durable ∧
       OnItsWay t 0x080C0001 .event (natLE 8 g.marker.toNat) s.sys.drill) ∧
     (awaitsStorage g = true ∨ awaitsRelay g = true → Runs .ckptTimeout s fun t => t.snp.gen = none ∧ t.snp.durable = s.snp.durable ∧
       OnItsWay t (if awaitsStorage g = true then 0x080C0001 else 0x070C0002) .event (natLE 8 g.marker.toNat) s.sys.drill)) ∧
   (∀ (s : State) (ctx : BitVec 8), (∀ g ∈ s.snp.older ++ s.snp.gen.toList, g.ctx ≠ ctx) →
     (∀ k, exec (.shardStored ctx k false) s = .next s) ∧ exec (.manifestStored ctx) s = .next s ∧ exec (.storageFailed ctx) s = .next s))

/-- R7, R395, R399, R402, R408, R420, R445, R557, R641: what stands before a REG_WRITE, in its order. Nothing arrives on a link that is
down; the request beyond 64 outstanding is answered with STATUS 3 and not done; before enrolment and outside a session it is
refused with 0x0A0E_0001; while the compute die does not serve, STATUS is 2, but a write that names an SHP address has the
error of a wrong address; odd parity of the command or of the access refuses it with its own code; and an address error is
the response's code. A message of a reserved type is refused with 0x080B_000A. -/
def Obligations.RequestsRefused : Prop :=
  ∀ (s : State) (r : Req) (addr value : BitVec 32),
    let quiet := fun (t : State) => t = { s with tet := { s.tet with link := t.tet.link } }
    let refused := fun code => Runs (.regWrite r addr value) s fun t =>
      OnItsWay t code .refusedTally [] s.sys.drill ∧ Answered s t r kWrite 1 (natLE 4 code) ∧
      t = { s with knl := { s.knl with inflight := t.knl.inflight, event := t.knl.event }
                   sec := { s.sec with event := t.sec.event }, tet := { s.tet with link := t.tet.link } } ∧
      (code = 0x0A0E0001 → t.knl.event = s.knl.event) ∧ (code ≠ 0x0A0E0001 → t.sec = s.sec)
    ((linkAt s r.link).up = false → exec (.regWrite r addr value) s = .next s) ∧
    ((linkAt s r.link).up = true → 64 ≤ r.ahead → Runs (.regWrite r addr value) s fun t =>
      Answered s t r { kWrite with shp := answersShp s r kWrite } 3 [] ∧ quiet t) ∧
    ((linkAt s r.link).up = true → r.ahead < 64 → s.die ≠ .serving → s.sec.owner ≠ none → Runs (.regWrite r addr value) s fun t =>
      let k := { kWrite with shp := (linkAt s r.link).shp.isOpen }
      (0x100000 ≤ addr.toNat → addr.toNat < 0x110000 → Answered s t r k 1 (natLE 4 0x0B010005)) ∧
      (addr.toNat < 0x100000 ∨ 0x110000 ≤ addr.toNat → Answered s t r k 2 []) ∧ quiet t) ∧
    ((linkAt s r.link).up = true → r.ahead < 64 → s.die = .serving →
      (s.sec.owner = none ∨ (sess s r.link false).isOpen = false → refused 0x0A0E0001) ∧
      (s.sec.owner ≠ none → (sess s r.link false).isOpen = true → r.parity = .command → refused 0x04010003)) ∧
    (Admits s r kWrite →
      (r.parity = .access → refused 0x04010002) ∧
      (r.parity = .even → addr.toNat % 4 ≠ 0 → Runs (.regWrite r addr value) s fun t =>
        Answered s t r kWrite 1 (natLE 4 0x0B010004) ∧ quiet t) ∧
      (r.parity = .even → addr.toNat % 4 = 0 → dieReg s addr.toNat = none → Runs (.regWrite r addr value) s fun t =>
        Answered s t r kWrite 1 (natLE 4 0x0B010005) ∧ quiet t)) ∧
    (∀ type, reservedOk type = true → Admits s r { type := type.toNat } → Runs (.reservedMessage r type) s fun t =>
      OnItsWay t 0x080B000A .refused (natLE 4 type.toNat ++ natLE 4 r.id.toNat) s.sys.drill ∧
      Answered s t r { type := type.toNat } 1 (natLE 4 0x080B000A) ∧
      t = { s with knl := { s.knl with inflight := t.knl.inflight }, tet := { s.tet with link := t.tet.link, event := t.tet.event } }) ∧
    (∀ type, reservedOk type = false → exec (.reservedMessage r type) s = .next s)

/-- R402, R403, R408, R390, R541, R545, R552: a status snapshot has 128 bytes, begins with SNAP_SEQ, and the next one counts one more; the
Shepherd serves it while the compute die does not; a read answers its words in address order, and a read of a low half
captures what its high half then shows. -/
def Obligations.ReadsAnswer : Prop :=
  (∀ (s : State) (r : Req),
    let answer := fun k => Runs (.statusRead r) s fun t => ∃ b, Answered s t r k 0 b ∧ b.length = 128 ∧
      b.take 8 = natLE 8 (s.tet.period.toNat * 2 ^ 48 + s.tet.serial.toNat) ∧
      t.tet.period.toNat * 2 ^ 48 + t.tet.serial.toNat = (s.tet.period.toNat * 2 ^ 48 + s.tet.serial.toNat + 1) % 2 ^ 64 ∧
      (b.drop 8).take 4 = natLE 4 (if s.die = .serving then sysWord s else mirrorWord s) ∧
      t = { s with tet := { s.tet with link := t.tet.link, period := t.tet.period, serial := t.tet.serial } }
    (Admits s r kStatus → answer kStatus) ∧
    (s.die ≠ .serving → (linkAt s r.link).up = true → s.sec.owner ≠ none → s.shp.serving = true → r.parity ≠ .command → r.ahead < 64 →
      (linkAt s r.link).shp.isOpen = true → answer { kStatus with shp := true })) ∧
  (∀ (s : State) (r : Req) (addr : BitVec 32) (more : Fin 64), Admits s r kRead → r.parity = .even →
    (∀ i, i < more.val + 1 → accessErr (dieReg s) (addr.toNat + 4 * i) = none ∧ dieTouch s (addr.toNat + 4 * i) = s) →
    Runs (.regRead r addr more) s fun t =>
      Answered s t r kRead 0 ((List.range (more.val + 1)).flatMap fun i => natLE 4 ((dieReg s (addr.toNat + 4 * i)).getD 0 % 2 ^ 32)) ∧
      t = { s with tet := { s.tet with link := t.tet.link } }) ∧
  (∀ (s : State) (r : Req), Admits s r kRead → r.parity = .even →
    (Runs (.timNowRead r) s fun t => Answered s t r kRead 0 (natLE 4 (s.tim.counter.toNat % 2 ^ 32)) ∧
      t = { s with tim := { s.tim with capture := s.tim.counter }, tet := { s.tet with link := t.tet.link } }) ∧
    (Runs (.tallyHeadRead r) s fun t => Answered s t r kRead 0 (natLE 4 (tallyHead s % 2 ^ 32)) ∧
      t = { s with tly := { s.tly with die := t.tly.die }, tet := { s.tet with link := t.tet.link } } ∧
      t.tly.die = { s.tly.die with head := BitVec.ofNat 64 (tallyHead s), first := BitVec.ofNat 64 (tallyFirst s),
                                   count := BitVec.ofNat 19 s.tly.store.length }) ∧
    (Runs (.tallyNextRead r) s fun t => Answered s t r kRead 0 (natLE 4 (s.tly.next.toNat % 2 ^ 32)) ∧
      t = { s with tly := { s.tly with die := { s.tly.die with next := s.tly.next } }, tet := { s.tet with link := t.tet.link } })) ∧
  (∀ (s : State) (r : Req), Admits s r kSide → r.parity = .even →
    (Runs (.shpTimeRead r) s fun t => Answered s t r kSide 0 (natLE 4 (s.shp.time.toNat % 2 ^ 32)) ∧
      t = { s with shp := { s.shp with timeCap := s.shp.time }, tet := { s.tet with link := t.tet.link } }) ∧
    (∀ addr v : BitVec 32, accessErr (shpFile s) addr.toNat = none → shpFileTouch s addr.toNat = s → Runs (.side r false addr v) s fun t =>
      Answered s t r kSide 0 (natLE 4 ((shpFile s addr.toNat).getD 0 % 2 ^ 32)) ∧
      t = { s with tet := { s.tet with link := t.tet.link } }) ∧
    (∀ v : BitVec 32, Runs (.side r true 0x100018 v) s fun t => Answered s t r kSide 0 [] ∧
      t = { s with shp := { s.shp with event := s.shp.event &&& ~~~v }, tet := { s.tet with link := t.tet.link } }))

/-- R3, R563: a REG_WRITE that reaches a register stores the value in its fields, or clears the EVENT bits at which it has ones, and
changes nothing else; a read-only register keeps its value; a locked one keeps it too, and 0x0A0E_0002 is raised. Every
one is answered. -/
def Obligations.RegisterWrites : Prop :=
  (∀ (s : State) (r : Req) (v : BitVec 32), Admits s r kWrite → r.parity = .even → ∀ row ∈ valueRows ++ eventRows,
    (¬ locked s row.group → Runs (.regWrite r row.addr v) s fun t => Answered s t r kWrite 0 [] ∧
      t = { row.write s v with tet := { (row.write s v).tet with link := t.tet.link } }) ∧
    (locked s row.group → Runs (.regWrite r row.addr v) s fun t => Answered s t r kWrite 0 [] ∧
      OnItsWay t 0x0A0E0002 .event [] s.sys.drill ∧ OnlySecCode s t)) ∧
  (∀ (s : State) (r : Req) (v : BitVec 32), Admits s r kWrite → r.parity = .even → ∀ a ∈ constRows, Runs (.regWrite r a v) s fun t =>
    Answered s t r kWrite 0 [] ∧ t = { s with tet := { s.tet with link := t.tet.link } })

/-- R224, R248, R249, R385, R473, R601, R603: the registers whose write is a command. STR_TOK_SIGNAL signals a declared host token of the
running program, or is refused with 0x0B05_0204; STR_DISABLE takes the units that no strand of the program uses, and a
drained one shows in STR_DISABLED; KNL_RESET asks for a job-context reset or a device reset; an epoch pair is kept for its
edge or refused with 0x0C0A_0002; MEASURE and RESTORE_FACTORY act on the calibration. -/
def Obligations.CommandWrites : Prop :=
  (∀ (s : State) (r : Req), Admits s r kWrite → r.parity = .even →
    (∀ v : BitVec 32, Canonical s →
      let k := v.toNat % 1024
      let inc := v.toNat / 65536 % 16
      let ok := running s = true ∧ tokDeclared (img s) k = true ∧ tokHost (img s) k = true ∧ inc ≠ 0 ∧ token s k + inc ≤ 65535
      (ok → Runs (.strTokSignal r v) s fun t => Answered s t r kWrite 0 [] ∧ token t k = token s k + inc ∧
        (∀ j, j ≠ k → token t j = token s j) ∧
        t = { s with str := { s.str with tok := t.str.tok }, tet := { s.tet with link := t.tet.link } }) ∧
      (¬ ok → Runs (.strTokSignal r v) s fun t => Answered s t r kWrite 1 (natLE 4 0x0B050204) ∧
        OnItsWay t 0x0B050204 .refusedTally [] s.sys.drill ∧ t.str = s.str)) ∧
    (∀ v : BitVec 32, ¬ locked s (some 1) →
      (v &&& ~~~s.str.disable &&& unitsInUse s = 0 → Runs (.strDisable r v) s fun t => Answered s t r kWrite 0 [] ∧
        t.str.disable = v ∧ (∀ i, s.str.disabled.getLsbD i = false → t.str.disabled.getLsbD i = false) ∧ t.knl = s.knl) ∧
      (v &&& ~~~s.str.disable &&& unitsInUse s ≠ 0 → Runs (.strDisable r v) s fun t => Answered s t r kWrite 0 [] ∧
        t.str.disable = v &&& ~~~(v &&& ~~~s.str.disable &&& unitsInUse s) ∧ OnItsWay t 0x0B050206 .refusedTally [] s.sys.drill)) ∧
    (s.sys.st = .running → Runs (.knlResetContext r) s fun t => Answered s t r kWrite 0 [] ∧
      OnItsWay t 0x0B010001 .jobEnding [] s.sys.drill) ∧
    (s.sys.st ≠ .running → s.sys.st ≠ .armed → Runs (.knlResetContext r) s fun t => Answered s t r kWrite 0 [] ∧ t.knl = s.knl) ∧
    (Runs (.knlResetDevice r) s fun t => Answered s t r kWrite 0 [] ∧ OnItsWay t 0x0B010002 (.device false) [] s.sys.drill) ∧
    (∀ hi : BitVec 32,
      let c := s.tim.epochLo.toNat + 2 ^ 32 * (hi.toNat % 65536)
      let m := BitVec.ofNat 16 (hi.toNat / 65536)
      let ok := c % 1000000 = 0 ∧ 1 ≤ (m - s.tim.marks).toNat ∧ (m - s.tim.marks).toNat ≤ 1000 ∧ s.tim.mode = 1
      (ok → Runs (.epochWrite r hi) s fun t => Answered s t r kWrite 0 [] ∧
        t = { s with tim := { s.tim with epochPending := some (m, BitVec.ofNat 48 c) }, tet := { s.tet with link := t.tet.link } }) ∧
      (¬ ok → Runs (.epochWrite r hi) s fun t => Answered s t r kWrite 1 (natLE 4 0x0C0A0002) ∧
        OnItsWay t 0x0C0A0002 .refusedTally (timeDetail s 0) s.sys.drill ∧ t.tim.epochPending = s.tim.epochPending)) ∧
    (s.sys.st = .holding → loaded s = false → Runs (.measure r) s fun t => Answered s t r kWrite 0 [] ∧
      t = { s with gov := { s.gov with measuring := true, measValid := false }, tet := { s.tet with link := t.tet.link } }) ∧
    (s.sys.st ≠ .holding ∨ loaded s = true → Runs (.measure r) s fun t => Answered s t r kWrite 1 (natLE 4 0x090D0004) ∧
      OnItsWay t 0x090D0004 .refusedTally [] s.sys.drill ∧ t.gov.measuring = s.gov.measuring) ∧
    (Runs (.restoreFactory r) s fun t => Answered s t r kWrite 0 [] ∧ t.gov.ucal = Vector.replicate 20 0 ∧ t.gov.ucalEnable = false ∧
      OnItsWay t 0x090D0003 .event [] s.sys.drill ∧ t.mem = s.mem ∧ t.sys = s.sys)) ∧
  (∀ (s : State) (u : Fin 32), s.die = .serving → s.str.disable.getLsbD u = true → (unitsInUse s).getLsbD u = false →
    Runs (.unitDrainDone u) s fun t => t.str.disabled.getLsbD u = true ∧
      t = { s with str := { s.str with disabled := s.str.disabled ||| BitVec.ofNat 32 (2 ^ u.val) }, shp := t.shp } ∧
      (u.val < 8 → t.shp.on.getLsbD (22 + u.val) = false) ∧ (8 ≤ u.val → t.shp.on = s.shp.on))

/-- (1) R560, R561, R445: a grant whose form, device, challenge or signatures fail is refused with 0x0A0E_0003, and so is one that names an
address with an access error, with that error's code as its detail; either draws a new challenge. Odd parity refuses it
with 0x0401_0002 and keeps the challenge.

(2) R560 to R563, R575: a grant that passes writes its register past every lock, whatever group it is of, and is recorded; a write of
SEC_POLICY sets the locks and permits; a DEBUG_UNLOCK ends a running job and is pending. -/
def Obligations.Grants : Prop :=
  (∀ (s : State) (r : Req) (g : Grant), Admits s r kKeyShp → s.die = .serving → g.action ≠ 2 →
     (r.parity = .access → Runs (.grantRegWrite r g) s fun t => OnItsWay t 0x04010002 .refusedTally [] s.sys.drill ∧
       Answered s t r kKeyShp 1 (natLE 4 0x04010002) ∧ t.sec = s.sec) ∧
     (r.parity = .even → grantOkTo5 s g = false → Runs (.grantRegWrite r g) s fun t =>
       OnItsWay t 0x0A0E0003 .refusedTally [] s.sys.drill ∧ Answered s t r kKeyShp 1 (natLE 4 0x0A0E0003) ∧
       t.sec.challenge = (Config.draw s.free).setWidth 128 ∧
       t = { s with knl := { s.knl with inflight := t.knl.inflight }, free := s.free + 1
                    sec := { s.sec with event := t.sec.event, challenge := t.sec.challenge }
                    tet := { s.tet with link := t.tet.link } }) ∧
     (∀ code, r.parity = .even → grantOkTo5 s g = true → grantAccessErr s g.address.toNat = some code →
       Runs (.grantRegWrite r g) s fun t => OnItsWay t 0x0A0E0003 .refusedTally (natLE 4 code) s.sys.drill ∧
         Answered s t r kKeyShp 1 (natLE 4 0x0A0E0003) ∧ t.sec.challenge = (Config.draw s.free).setWidth 128 ∧ t.sec.owner = s.sec.owner)) ∧
  ((∀ (s : State) (r : Req) (g : Grant), ∀ row ∈ valueRows, GrantPasses s r g 1 row.addr → Runs (.grantRegWrite r g) s fun t =>
     GrantRecorded s t r g ∧
     t = { row.write s g.value with
       knl := { (row.write s g.value).knl with inflight := t.knl.inflight }, free := s.free + 1
       sec := { s.sec with event := t.sec.event, challenge := t.sec.challenge }
       tet := { (row.write s g.value).tet with link := t.tet.link } }) ∧
   (∀ (s : State) (r : Req) (g : Grant), GrantPasses s r g 1 0xE0004 → Runs (.grantRegWrite r g) s fun t =>
     GrantRecorded s t r g ∧ t.sec.lock = g.value.setWidth 4 ∧ t.sec.samplePermit = g.value.getLsbD 8 ∧
     t.sec.telemCoarse = g.value.getLsbD 9 ∧ t.sec.quiet = g.value.getLsbD 10 ∧ t.sec.owner = s.sec.owner ∧
     t.knl.prcSample = (s.knl.prcSample && g.value.getLsbD 8)) ∧
   (∀ (s : State) (r : Req) (g : Grant), Admits s r kKeyShp → r.parity = .even → s.die = .serving → s.sys.st ≠ .armed →
     grantOkTo5 s g = true → g.action = 2 → s.sec.opcertMin ≤ (sess s r.link true).serial →
     Runs (.grantDebugUnlock r g) s fun t => GrantRecorded s t r g ∧ t.sec.debugPending = true ∧ t.sec.debug = s.sec.debug ∧
       OnItsWay t 0x0A0E0006 (if s.sys.st = .running then .jobEnding else .event) [] s.sys.drill ∧ t.mem = s.mem ∧ t.sys = s.sys))

/-- R460, R540, R549, R457, R602: the grants of single registers. KNL_ESCALATE's clear empties the record of resets, ends the withdrawal and
asks for a device reset; a Tally clear leaves one record, numbered next, in an empty store; SHP_RESET resets the package;
the held sample is released; ADOPT takes the measured table, and a user entry takes its value. -/
def Obligations.GrantsAct : Prop :=
  ∀ (s : State) (r : Req) (g : Grant),
    (GrantPasses s r g 1 0x1003C → g.value.getLsbD 30 = true → Runs (.escalateClear g r) s fun t => GrantRecorded s t r g ∧
      t.knl.resets = [] ∧ t.knl.withdrawn = false ∧ t.knl.limit = g.value.setWidth 4 ∧
      t.knl.windowH = BitVec.ofNat 8 (g.value.toNat / 256) ∧ OnItsWay t 0x0B010003 (.device false) [] s.sys.drill ∧ t.sys = s.sys) ∧
    (GrantPasses s r g 1 0xF102C ∨ GrantPasses s r g 1 0x10902C → g.value.getLsbD 0 = true → s.tly.droppedSince = 0 →
      Runs (.tallyClear g r) s fun t => GrantRecorded s t r g ∧
        (∃ x, t.tly.store = [x] ∧ x.code = 0x0D100001 ∧ x.seq = s.tly.next) ∧ t.tly.next = s.tly.next + 1 ∧ t.tly.buffer = [] ∧
        t.tly.full = false ∧ t.tly.overflow = 0 ∧ t.tly.dropped = 0 ∧ t.mem = s.mem ∧ t.sys = s.sys) ∧
    (GrantPasses s r g 1 0x10001C → g.value.getLsbD 0 = true → Runs (.packageReset g r) s fun t =>
      t.die = .off ∧ t.shp.serving = false ∧ (∀ l, (linkAt t l).up = false ∧ (linkAt t l).shp.isOpen = false) ∧ t.sec.job = none ∧
      t.sec.debug = false ∧ t.sec.owner = s.sec.owner ∧ t.mem.hbm = [] ∧ t.brd.mem = [] ∧ t.str.image = none ∧
      t.shp.time = s.shp.time ∧ t.shp.epoch = s.shp.epoch) ∧
    (GrantPasses s r g 1 0x100028 → g.value.getLsbD 31 = true → Runs (.sampleRelease g r) s fun t => GrantRecorded s t r g ∧
      t.shp.held = none ∧ t.shp = { s.shp with held := none } ∧ t.mem = s.mem) ∧
    (GrantPasses s r g 1 0xD001C → g.value.getLsbD 1 = true → s.gov.measValid = true → Runs (.adopt g r) s fun t =>
      GrantRecorded s t r g ∧ t.gov.ucal = s.gov.meas ∧ t.gov.ucalEnable = true ∧ t.gov.pool = s.gov.pool) ∧
    (GrantPasses s r g 1 0xD001C → g.value.getLsbD 1 = true → s.gov.measValid = false → Runs (.adopt g r) s fun t =>
      OnItsWay t 0x090D0004 .refusedTally [] s.sys.drill ∧ Answers t r kKeyShp 1 (natLE 4 0x090D0004) ∧ t.gov.ucal = s.gov.ucal) ∧
    (∀ c : Fin 20, GrantPasses s r g 1 (BitVec.ofNat 32 (0xD0200 + 4 * c.val)) → Runs (.govUcalWrite g r) s fun t =>
      GrantRecorded s t r g ∧ vget t.gov.ucal c 0 = g.value ∧ (∀ d, d ≠ c.val → vget t.gov.ucal d 0 = vget s.gov.ucal d 0) ∧
      t.gov.ucalEnable = s.gov.ucalEnable)

/-- (1) R239, R406: LOAD_BEGIN opens a load in HOLDING with no program and the job's key; LOAD_DATA keeps its bytes by offset, and fails the
load where it leaves the image or meets a byte that came before; LOAD_END ends a load whose bytes have all come.

(2) R240 to R242, R222: the checks of Table 6-8 run in order; the first failure is the load's result and nothing is loaded; an image
that passes is the loaded program, its marker 0 (R235). An image that passes has the device's width class, fits HBM and the
Board, and waits only on declared tokens of the waiting strand and signals only declared ones. -/
def Obligations.Loading : Prop :=
  ((∀ (s : State) (r : Req) (jobId bytes : BitVec 64), Admits s r kLoadBegin →
     (s.sys.st = .holding → loaded s = false → s.ld.active = false → s.str.scrub = false → (∃ k, s.sec.job = some k ∧ k.jobId = jobId) →
       Runs (.loadBegin r jobId bytes) s fun t => Answered s t r kLoadBegin 0 [] ∧
         t = { s with ld := { active := true, job := jobId, bytes := bytes, stray := s.ld.stray }
                      gov := { s.gov with measuring := false }, tet := { s.tet with link := t.tet.link } }) ∧
     (s.sys.st ≠ .holding ∨ loaded s = true ∨ s.ld.active = true ∨ s.str.scrub = true → Runs (.loadBegin r jobId bytes) s fun t =>
       Answered s t r kLoadBegin 1 (natLE 4 0x0B05000C) ∧ OnItsWay t 0x0B05000C .refused [] s.sys.drill ∧ t.ld = s.ld)) ∧
   (∀ (s : State) (l : Fin 2) (off : BitVec 64) (b : Bytes), bulkOk s l = true → 1 ≤ b.length → b.length ≤ 4088 → s.ld.active = true →
     (off.toNat + b.length ≤ s.ld.bytes.toNat → (∀ c ∈ s.ld.data, c.1 < off.toNat ∨ off.toNat + b.length ≤ c.1) →
       Runs (.loadData l off b) s fun t =>
         (∀ i, i < b.length → sget? t.ld.data (off.toNat + i) = b[i]?) ∧
         (∀ a, a < off.toNat ∨ off.toNat + b.length ≤ a → sget? t.ld.data a = sget? s.ld.data a) ∧
         t = { s with ld := { s.ld with data := t.ld.data }, tet := { s.tet with link := t.tet.link } }) ∧
     (s.ld.bytes.toNat < off.toNat + b.length ∨ (∃ c ∈ s.ld.data, off.toNat ≤ c.1 ∧ c.1 < off.toNat + b.length) →
       Runs (.loadData l off b) s fun t => t.ld = {} ∧ t.str.loadResult = 0x080B0009 ∧ t.str.image = s.str.image ∧
         OnItsWay t 0x080B0009 .refused (natLE 4 0) s.sys.drill)) ∧
   (∀ (s : State) (r : Req), Admits s r kLoadEnd → s.ld.active = true → s.ld.ended = false →
     (s.ld.bytes.toNat ≤ s.ld.data.length → Runs (.loadEnd r) s fun t => Answered s t r kLoadEnd 0 [] ∧
       t = { s with ld := { s.ld with ended := true }, tet := { s.tet with link := t.tet.link } }) ∧
     (s.ld.data.length < s.ld.bytes.toNat → Runs (.loadEnd r) s fun t => Answers t r kLoadEnd 1 (natLE 4 0x080B0009) ∧ t.ld = {}))) ∧
  ((∀ (s : State), s.ld.active = true → s.ld.ended = true → s.die = .serving →
     (∀ code detail, loadFailure s (loadImage s) = some (code, detail) → Runs .loadCheck s fun t =>
       t.str.image = s.str.image ∧ t.str.loadResult = BitVec.ofNat 32 code ∧ t.str.loadDetail = BitVec.ofNat 32 detail ∧ t.ld = {} ∧
       OnItsWay t code .refused (natLE 4 detail) s.sys.drill ∧ t.mem = s.mem ∧ t.brd = s.brd) ∧
     (loadFailure s (loadImage s) = none → Runs .loadCheck s fun t =>
       t.str.image = some (loadImage s) ∧ t.str.job = s.ld.job ∧ t.str.marker = 0 ∧ t.str.loadResult = 0 ∧ t.str.loadDetail = 0 ∧
       t.ld = {} ∧ t.tet.armedOnce = false ∧ t.mem = s.mem ∧ t.brd = s.brd ∧ t.sys = s.sys ∧
       ∀ p, p < 8 → pairNeeded t p = true → s.shp.on.getLsbD (22 + p) = true ∨ t.shp.requested.getLsbD (22 + p) = true)) ∧
   (∀ (s : State) (im : Bytes), loadFailure s im = none →
     im.length ≤ 268435456 ∧ fld im 0 4 = 0x50394750 ∧ fld im 0x06 1 = widthCode s ∧ widthCode s ≠ 2 ∧ hbmNeed im ≤ usableHbm s ∧
     boardFootprint im ≤ 253755392 ∧ sha256 (digestInput im) = (im.drop 0x50).take 32 ∧
     (∀ n i, n < 43 → i < codeCount im n →
       (wWen (codeWord im n i) = true → tokDeclared im (wWtok (codeWord im n i)) = true ∧ tokWaiter im (wWtok (codeWord im n i)) = n) ∧
       (wSen (codeWord im n i) = true → tokDeclared im (wStok (codeWord im n i)) = true)) ∧
     (∀ n, n < 43 → codeCount im n ≠ 0 → unitOut s n = false)))

/-- (1) R411, R412, R642, R570, R333, R387: an ARM at the root that meets R411's conditions arms the device: its SYS_STATE, the arm's plan,
depth, ID and deadline; RU_ARM to every child; and on every up lead on which the job's frames may travel the key of the arm,
not yet confirmed, and SEQ from 0, frames not yet acknowledged staying to be resent. One that does not meet them is answered
with its code and the number of the condition, and arms nothing; nor does one whose AUTH fails, or that is malformed.

(2) R414 to R419, R243: COMMIT at a ready root whose launch time lies at least the margin ahead sets the launch time, and goes to every
child; one that is not ready, or too near, is refused with 0x080B_0005; one whose time is not ahead with 0x0B05_000E. At a
committed root the same time is acknowledged again and another cancels. CANCEL, a missing acknowledgement and a deadline that
passes disarm the device, each with its own code; the frame of a CANCEL goes on unchanged. -/
def Obligations.LaunchAtTheRoot : Prop :=
  (∀ (s : State) (r : Req) (f : LaunchFrame) (k : JobKey), Admits s r kLaunch → s.sec.job = some k →
     (LaunchForm s f 1 → armRefusal s f none = none → Runs (.launchArm r f) s fun t =>
       Answers t r kLaunch 0 [] ∧ t.sys.st = .armed ∧ (t.tet.phase = .armed ∨ t.tet.phase = .ready) ∧ t.tet.root = true ∧
       t.tet.plan = f.plan ∧ t.tet.depth = f.depth ∧ t.tet.armId = f.armId ∧ t.tet.armedOnce = true ∧
       t.tet.deadline = f.time.setWidth 48 ∧ JobKept s t ∧
       (∀ i, i < 8 → leadUp s i = true → jobNames s i = true →
         (leadAt t i).key = some (leadKey s k f.armId i) ∧ (leadAt t i).keyed = false ∧ (leadAt t i).rx = 0 ∧
         (leadAt s i).old ++ (leadAt s i).sent <+: (leadAt t i).old) ∧
       (∀ i, i < 8 → leadUp s i = true → jobNames s i = false → i ∉ ruDown t → leadAt t i = leadAt s i)) ∧
     (∀ code cond, LaunchForm s f 1 → armRefusal s f none = some (code, cond) → Runs (.launchArm r f) s fun t =>
       Answered s t r kLaunch 1 (natLE 4 code) ∧ OnItsWay t code .refused (natLE 4 cond) s.sys.drill ∧ t.sys = s.sys ∧
       t.tet.phase = s.tet.phase ∧ JobKept s t) ∧
     (s.tim.valid = false → armRefusal s f none = some (0x0C0A0005, 7)) ∧
     (s.tim.valid = true → s.lead.result = 3 ∨ s.lead.result = 4 → armRefusal s f none = some (0x0708000B, 8)) ∧
     (∀ c ∈ [Instr.launchArm r f, .launchCommit r f, .launchCancel r f],
       (lfAuthOk s f = false → Runs c s fun t => Answered s t r kLaunch 1 (natLE 4 0x0A0B0001) ∧
         OnItsWay t 0x0A0B0001 .event (natLE 4 f.armId.toNat) s.sys.drill ∧ t.sys = s.sys ∧ t.tet.phase = s.tet.phase ∧ JobKept s t) ∧
       (∀ off, lfAuthOk s f = true → launchFieldBad f = some off → Runs c s fun t => Answered s t r kLaunch 1 (natLE 4 0x080B0004) ∧
         OnItsWay t 0x080B0004 .refused (natLE 4 off) s.sys.drill ∧ t.sys = s.sys ∧ t.tet.phase = s.tet.phase ∧ JobKept s t))) ∧
  ((∀ (s : State) (r : Req) (f : LaunchFrame), Admits s r kLaunch → LaunchForm s f 2 →
     let arm := natLE 4 s.tet.armId.toNat
     (s.tim.valid = true → s.tet.phase ≠ .committed → timeAhead s (f.time.setWidth 48) = true →
       (s.sys.st = .armed → s.tet.root = true → s.tet.phase = .ready → f.armId = s.tet.armId → deadlinePassed s = false →
         ruMargin s ≤ diff48 (f.time.setWidth 48) s.tim.counter → Runs (.launchCommit r f) s fun t =>
           Answers t r kLaunch 0 [] ∧ t.tet.launch = f.time.setWidth 48 ∧ t.tet.phase = .committed ∧ t.tet.children = 0 ∧
           (∀ i ∈ ruDown s, leadUp s i = true → Queued t i (.ruFrame .commit f)) ∧ t.sys = s.sys ∧ JobKept s t) ∧
       (s.tet.phase ≠ .ready ∨ diff48 (f.time.setWidth 48) s.tim.counter < ruMargin s → Runs (.launchCommit r f) s fun t =>
         Answered s t r kLaunch 1 (natLE 4 0x080B0005) ∧ OnItsWay t 0x080B0005 .refused arm s.sys.drill ∧
         t.tet.phase = s.tet.phase ∧ t.tet.launch = s.tet.launch)) ∧
     (s.tim.valid = true → s.tet.phase ≠ .committed → timeAhead s (f.time.setWidth 48) = false → Runs (.launchCommit r f) s fun t =>
       Answered s t r kLaunch 1 (natLE 4 0x0B05000E) ∧ OnItsWay t 0x0B05000E .refused arm s.sys.drill ∧
       t.tet.phase = s.tet.phase ∧ t.tet.launch = s.tet.launch) ∧
     (s.sys.st = .armed → s.tet.root = true → s.tet.phase = .committed → f.armId = s.tet.armId →
       (f.time.setWidth 48 = s.tet.launch → Runs (.launchCommit r f) s fun t => Answered s t r kLaunch 0 [] ∧
         t = { s with tet := { s.tet with link := t.tet.link } }) ∧
       (f.time.setWidth 48 ≠ s.tet.launch → s.knl.withdrawAtEnd = false → Runs (.launchCommit r f) s fun t =>
         Answers t r kLaunch 1 (natLE 4 0x080B0007) ∧ Disarmed t ∧ JobKept s t))) ∧
   (∀ (s : State) (r : Req) (f : LaunchFrame), Admits s r kLaunch → LaunchForm s f 3 → s.sys.st = .armed →
     s.knl.withdrawAtEnd = false → Runs (.launchCancel r f) s fun t => Answers t r kLaunch 0 [] ∧ Disarmed t ∧ JobKept s t ∧
       OnItsWay t 0x080B0007 .event (natLE 4 s.tet.armId.toNat) s.sys.drill ∧
       ∀ i, i < 8 → leadUp s i = true → jobNames s i = true → Queued t i (.ruFrame .cancel f)) ∧
   (∀ (s : State) (l : Fin 8), s.die ≠ .off → s.sys.st = .armed → s.tet.phase ≠ .idle → s.knl.withdrawAtEnd = false → l.val ∈ ruDown s →
     s.tet.children.getLsbD l = false → Runs (.ruAckTimeout l) s fun t => Disarmed t ∧ JobKept s t ∧
       OnItsWay t 0x080B0008 .event (natLE 4 s.tet.armId.toNat ++ natLE 4 l) s.sys.drill ∧
       OnItsWay t 0x080B0007 .event (natLE 4 s.tet.armId.toNat) s.sys.drill) ∧
   (∀ (s : State), s.die ≠ .off → s.sys.st = .armed → s.knl.withdrawAtEnd = false →
     (s.tet.phase ≠ .committed → deadlinePassed s = true → Runs .armDeadline s fun t => Disarmed t ∧ JobKept s t ∧
       OnItsWay t 0x080B0006 .event (natLE 4 s.tet.armId.toNat) s.sys.drill) ∧
     (s.tet.phase = .committed ∨ deadlinePassed s = false → exec .armDeadline s = .next s)))

/-- R409, R411, R413, R415, R418, R419: the round-up's frames on the leads. RU_ARM from the parent arms as ARM does, but not as the
root; one that is refused is answered with RU_CANCEL; RU_ARMACK, RU_READY and RU_COMMITACK mark their child; the device is
ready once every child is and every lead that the job uses is keyed; RU_COMMIT sets the launch time, one that comes at the
deadline or later is ignored, and one of another time than the committed cancels; RU_CANCEL disarms and goes on unchanged. A
frame whose AUTH fails is dropped with 0x0A0B_0001; one that may not be accepted on its lead has no effect. -/
def Obligations.RoundUpFrames : Prop :=
  (∀ (s : State) (a : Arrival) (f : LaunchFrame) (m : RuReport), ¬ Arrives s a →
    ∀ c ∈ [Instr.ruArm a f, .ruCommit a f, .ruCancel a f, .ruArmack a m, .ruReady a m, .ruCommitack a m], exec c s = .next s) ∧
  (∀ (s : State) (a : Arrival) (f : LaunchFrame), s.die ≠ .off → Arrives s a →
    (lfAuthOk s f = true → armRefusal s f (some a.lead) = none → Runs (.ruArm a f) s fun t =>
      t.sys.st = .armed ∧ (t.tet.phase = .armed ∨ t.tet.phase = .ready) ∧ t.tet.root = false ∧ t.tet.plan = f.plan ∧
      t.tet.armId = f.armId ∧ t.tet.deadline = f.time.setWidth 48 ∧ JobKept s t) ∧
    (∀ code cond, lfAuthOk s f = true → armRefusal s f (some a.lead) = some (code, cond) → Runs (.ruArm a f) s fun t =>
      OnItsWay t code .refused (natLE 4 cond) s.sys.drill ∧
      Queued t a.lead (.ruFrame .cancel (cancelFrame s f.depth f.plan f.armId f.jobId)) ∧
      t.sys = s.sys ∧ t.tet = { s.tet with event := t.tet.event } ∧ JobKept s t) ∧
    (lfAuthOk s f = false →
      (∀ c ∈ [Instr.ruArm a f, .ruCommit a f, .ruCancel a f], Runs c s fun t =>
        OnItsWay t 0x0A0B0001 .event (natLE 4 s.tet.armId.toNat) s.sys.drill ∧ t.sys = s.sys ∧ JobKept s t ∧ t.tet.phase = s.tet.phase))) ∧
  (∀ (s : State) (a : Arrival) (m : RuReport), ReportOk s a m →
    (s.tet.phase ≠ .committed → Runs (.ruArmack a m) s fun t => t.tet.children = s.tet.children ||| BitVec.ofNat 8 (2 ^ a.lead.val) ∧
      t.tet.childReady = s.tet.childReady ∧ t.sys = s.sys ∧ JobKept s t) ∧
    (s.tet.phase = .committed → Runs (.ruCommitack a m) s fun t => t.tet.children = s.tet.children ||| BitVec.ofNat 8 (2 ^ a.lead.val) ∧
      t.tet = { s.tet with children := t.tet.children } ∧ t.sys = s.sys ∧ JobKept s t) ∧
    (s.tet.phase = .armed → s.tet.readySent = false → Runs (.ruReady a m) s fun t =>
      t.tet.childReady = s.tet.childReady ||| BitVec.ofNat 8 (2 ^ a.lead.val) ∧
      (t.tet.phase = .ready ↔ (∀ i ∈ ruDown s, t.tet.childReady.getLsbD i = true) ∧
        ∀ i, i < 8 → jobUses s i = true → (leadAt s i).keyed = true) ∧
      (t.tet.phase = .ready ∨ t.tet.phase = .armed) ∧ t.sys = s.sys ∧ JobKept s t)) ∧
  (∀ (s : State) (a : Arrival) (f : LaunchFrame), s.die ≠ .off → Arrives s a → lfAuthOk s f = true → s.sys.st = .armed →
    f.armId = s.tet.armId →
    (ruUp s = some a.lead.val → s.tet.phase ≠ .committed →
      (deadlinePassed s = false → timeAhead s (f.time.setWidth 48) = true → Runs (.ruCommit a f) s fun t =>
        t.tet.launch = f.time.setWidth 48 ∧ t.tet.phase = .committed ∧ t.sys = s.sys ∧ JobKept s t ∧
        ∀ i ∈ ruDown s, leadUp s i = true → Queued t i (.ruFrame .commit f)) ∧
      (deadlinePassed s = true → Runs (.ruCommit a f) s fun t => t = { s with lead := t.lead })) ∧
    (ruUp s = some a.lead.val → s.tet.phase = .committed → f.time.setWidth 48 ≠ s.tet.launch → s.knl.withdrawAtEnd = false →
      Runs (.ruCommit a f) s fun t => Disarmed t ∧ JobKept s t) ∧
    (s.tet.phase ≠ .idle → s.knl.withdrawAtEnd = false → Runs (.ruCancel a f) s fun t => Disarmed t ∧ JobKept s t ∧
      OnItsWay t 0x080B0007 .event (natLE 4 s.tet.armId.toNat) s.sys.drill ∧
      ∀ i, i < 8 → leadUp s i = true → jobNames s i = true → Queued t i (.ruFrame .cancel f)))

/-- R225, R387, R416, R433, R245, R418, R161: when the counter reaches the launch time of a committed round-up the job starts: RUNNING, every
participating strand at its first word, the declared tokens at INIT, empty rings, the job's counters at zero, the ratio table zero. A Tether ABORT
begins the teardown of a running job and disarms an armed device. -/
def Obligations.JobStarts : Prop :=
  (∀ (s : State), s.sys.st = .armed → s.tet.phase = .committed →
    (0 ≤ diff48 s.tim.counter s.tet.launch → s.snp.restored = false → Runs .launchTimeReached s fun t => t.sys.st = .running ∧
      (∀ n, n < 43 → participates s n = true → (strand t n).index = 0 ∧ (strand t n).st = 1 ∧ (strand t n).phase = .fetch ∧
        (strand t n).inflight = []) ∧
      (∀ n, n < 43 → participates s n = false → strand t n = {}) ∧
      (∀ i, i < 1024 → token t i = tokInit (img s) i) ∧ (∀ i, ring t i = {}) ∧ t.knl.cause = 0 ∧ t.knl.rcDone = 0 ∧ t.knl.t = 0 ∧
      t.frm.ops = [] ∧ t.edg.ops = [] ∧ (∀ k, k < 16 → slot t k = {}) ∧ t.str.marker = s.str.marker ∧ t.str.image = s.str.image ∧
      t.brd = s.brd ∧ (ratioTable (img s) = locNone → t.mem = s.mem) ∧
      (ratioTable (img s) ≠ locNone → Canonical s → ∀ a, mget t.mem.hbm a =
        if ratioTable (img s) ≤ a ∧ a < ratioTable (img s) + 131072 then 0 else mget s.mem.hbm a)) ∧
    (diff48 s.tim.counter s.tet.launch < 0 → exec .launchTimeReached s = .next s)) ∧
  (∀ (s : State) (r : Req) (cls : BitVec 8), Admits s r kAbort →
    (s.sys.st = .running → Runs (.tetherAbort r cls) s fun t => Answers t r kAbort 0 [] ∧ t.sys.st = .draining ∧
      t.str.teardown = .draining ∧ t.str.gen = s.str.gen + 1 ∧ t.snp.gen = none ∧ t.mem = s.mem ∧ t.brd = s.brd) ∧
    (s.sys.st = .armed → s.knl.withdrawAtEnd = false → Runs (.tetherAbort r cls) s fun t => Answers t r kAbort 0 [] ∧ Disarmed t) ∧
    (s.sys.st ≠ .running → s.sys.st ≠ .armed → Runs (.tetherAbort r cls) s fun t => Answered s t r kAbort 0 [] ∧
      t = { s with tet := { s.tet with link := t.tet.link } }))

/-- (1) R233 to R236, R408: a marker is committed only when every participating strand is at STEP or ended, and everything is drained; then
the marker counts one, the Shepherd's copy and the marker's tokens are set, and every strand at STEP goes on, unless a SNAP comes
first. What is not drained ends the job with 0x0B05_0202.

(2) R238: a job whose participating strands have all ended, with everything drained, ends: the device reports it and begins the
teardown in the next generation. -/
def Obligations.MarkersAndJobEnd : Prop :=
  ((∀ (s : State), AtMarker s →
     (¬ Drained s → Runs .markerCommit s fun t => OnItsWay t 0x0B050202 .jobEnding [] s.sys.drill ∧
       t = { s with knl := { s.knl with inflight := t.knl.inflight } }) ∧
     (Drained s → (ratioWatch s).2 = true → Runs .markerCommit s fun t => t.str = s.str ∧ t.tet.shpMarker = s.tet.shpMarker) ∧
     (Drained s → (ratioWatch s).2 = false → Runs .markerCommit s fun t => t.str.marker = s.str.marker + 1 ∧
       t.tet.shpMarker = s.str.marker + 1 ∧ t.str.markerTok = s.str.tok ∧ t.sys = s.sys ∧ t.brd.mem = s.brd.mem ∧
       (SnapFollows s → t.snp.step5 = true ∧ (∀ n, strand t n = strand s n) ∧ t.str.tok = s.str.tok) ∧
       (¬ SnapFollows s → t.snp.step5 = false ∧
         ∀ n, n < 43 → (strand s n).st = 6 → (strand t n).index = (strand s n).index + 1 ∧ (strand t n).phase = .fetch ∧
           ((strand t n).st = 1 ∨ (strand t n).st = 8)))) ∧
   (∀ (s : State) (n : Nat), n < 43 → participates s n = true →
     (strand s n).st ≠ 6 ∧ (strand s n).st ≠ 7 ∨ (strand s n).inflight ≠ [] → exec .markerCommit s = .next s)) ∧
  ((∀ (s : State), running s = true → (∀ r ∈ s.knl.inflight, r.eff ≠ .jobEnding ∧ ∀ b, r.eff ≠ .device b) →
     (∃ n, n < 43 ∧ participates s n = true) →
     (∀ n, n < 43 → participates s n = true → (strand s n).st = 7 ∧ (strand s n).inflight = []) →
     (Drained s → Runs .jobEnd s fun t => t.sys.st = .draining ∧ t.str.teardown = .draining ∧ t.str.gen = s.str.gen + 1 ∧
       t.str.strands = s.str.strands ∧ t.tet.phase = .idle ∧ Notified t .jobEnd 0 ∧ t.mem = s.mem ∧ t.brd = s.brd ∧ t.knl.cause = s.knl.cause) ∧
     (¬ Drained s → Runs .jobEnd s fun t => OnItsWay t 0x0B050202 .jobEnding [] s.sys.drill ∧ t.sys = s.sys)) ∧
   (∀ (s : State) (n : Nat), n < 43 → participates s n = true → (strand s n).st ≠ 7 → exec .jobEnd s = .next s))

/-- (1) R429 to R431, R454, R534 to R538, Table 12-9: the Kennel collects codes by unit and code; a collected code is the last code, is
counted if absorbed, and is recorded in the Tally as its effect says. A job-ending code ends a running job: it is the cause, the
device drains in a new generation, and its keyed leads carry an ABORT; it disarms an armed device.

(2) R287, R296, R297, R310, R314, Table 12-13: what the memories' ECC meets. The Kennel's own, the Board's, the on-die and the HBM
corrections are counted, each in its counter; the sixteenth correction of a pseudo-channel within 1 ms takes it to retrain;
what the Board cannot correct ends the job and stops the unit that read it; what the Kennel's memory cannot asks for a device
reset. -/
def Obligations.CodesAndCorrections : Prop :=
  ((∀ (l : List Raised) (r : Raised) (rest : List Raised), takeLeast l = some (r, rest) →
     l.Perm (r :: rest) ∧ ∀ q ∈ rest, codeRank r.code ≤ codeRank q.code) ∧
   (∀ (s : State) (r : Raised) (rest : List Raised), s.die ≠ .off → takeLeast s.knl.inflight = some (r, rest) →
     (r.eff ≠ .jobEnding → (∀ b, r.eff ≠ .device b) → Runs (.codeCollected .inFlight) s fun t =>
       t.knl.inflight = rest ∧ t.knl.lastCode = r.code ∧ t.shp.tech = (r.code :: s.shp.tech).take 8 ∧ t.sys = s.sys ∧ t.str = s.str ∧
       t.knl.absorbed = (if r.eff = .absorbed ∨ r.eff = .absorbedNoRecord then satAdd32 s.knl.absorbed 1 else s.knl.absorbed) ∧
       (effRecord r.eff = false → t.tly = s.tly) ∧
       (effRecord r.eff = true → s.tly.buffer.length < 65536 → s.shp.pwrFail = false →
         ∃ x, t.tly.buffer = s.tly.buffer ++ [x] ∧ x.code = r.code ∧ x.seq = s.tly.next ∧ x.time = s.tim.counter ∧
           x.detail = slice r.detail 0 24 ∧ x.temp = s.knl.temp ∧ t.tly.next = s.tly.next + 1) ∧
       (effRecord r.eff = true → 65536 ≤ s.tly.buffer.length → t.tly.dropped = satAdd32 s.tly.dropped 1 ∧
         t.tly.buffer = s.tly.buffer ∧ t.tly.next = s.tly.next)) ∧
     (r.eff = .jobEnding → s.sys.st = .running → commanded r.code = false → Runs (.codeCollected .inFlight) s fun t =>
       t.knl.lastCode = r.code ∧ t.knl.cause = r.code ∧ t.knl.preReset = r.code ∧ t.sys.st = .draining ∧ t.str.teardown = .draining ∧
       t.str.gen = s.str.gen + 1 ∧ (t.lead.abortSent = true ∨ t.lead.abortSeen = true) ∧ t.mem = s.mem ∧ t.brd = s.brd) ∧
     (r.eff = .jobEnding → s.sys.st = .armed → s.knl.withdrawAtEnd = false → Runs (.codeCollected .inFlight) s fun t =>
       t.knl.lastCode = r.code ∧ Disarmed t) ∧
     (r.eff = .jobEnding → s.sys.st ≠ .running → s.sys.st ≠ .armed → Runs (.codeCollected .inFlight) s fun t =>
       t.knl.inflight = rest ∧ t.knl.lastCode = r.code ∧ t.sys = s.sys ∧ t.str = s.str) ∧
     (∀ b, r.eff = .device b → s.sys.st ≠ .running → s.sys.st ≠ .armed → s.knl.resetPending = false →
       Runs (.codeCollected .inFlight) s fun t => t.knl.lastCode = r.code ∧ t.knl.resetPending = true ∧ t.knl.resetCounted = b ∧
         t.sys = s.sys ∧ t.mem = s.mem))) ∧
  (∀ (s : State), s.die ≠ .off →
     (Runs (.codeCollected .boardCorrected) s fun t => OnItsWay t 0x06070001 .count [] s.sys.drill ∧
       t.brd.cntCorr = satAdd32 s.brd.cntCorr 1 ∧ t = { s with knl := { s.knl with inflight := t.knl.inflight }
                                                               brd := { s.brd with event := t.brd.event, cntCorr := t.brd.cntCorr } }) ∧
     (∀ n : Fin 43, Runs (.codeCollected (.boardUncorrectable n)) s fun t => OnItsWay t 0x06070002 .jobEnding (natLE 4 n) s.sys.drill ∧
       strand t n = (if (strand s n).inflight = [] then strand s n else { strand s n with st := 8, dead := true }) ∧
       (∀ m, m ≠ n.val → strand t m = strand s m) ∧
       t = { s with knl := { s.knl with inflight := t.knl.inflight }, brd := { s.brd with event := t.brd.event }
                    str := { s.str with strands := t.str.strands } }) ∧
     (Runs (.codeCollected .onDieCorrected) s fun t => OnItsWay t 0x06060003 .count [] s.sys.drill ∧
       t.mem = { s.mem with cntOdecc := satAdd32 s.mem.cntOdecc 1, event := t.mem.event } ∧
       t = { s with knl := { s.knl with inflight := t.knl.inflight }, mem := t.mem }) ∧
     (∀ stack pc page, pcLive s (pcId stack pc) = true → Runs (.codeCollected (.hbmCorrected stack pc page)) s fun t =>
       let i := pcId stack pc
       let n := sgetD s.mem.pcCorr i 0 + 1
       let within := (recent s 1000 (sgetD s.mem.pcTimes i [])).length
       OnItsWay t 0x06060001 (if n % 1024 = 1 then .absorbed else .absorbedNoRecord)
         (natLE 4 i ++ natLE 4 page.toNat ++ natLE 4 n) s.sys.drill ∧
       t.mem.cntCorr = satAdd32 s.mem.cntCorr 1 ∧ sgetD t.mem.pcCorr i 0 = n ∧ t.mem.hbm = s.mem.hbm ∧ t.mem.check = s.mem.check ∧
       (within < 15 → t.mem.live = s.mem.live ∧ t.mem.retraining = s.mem.retraining ∧
         t = { s with knl := { s.knl with inflight := t.knl.inflight }, mem := t.mem }) ∧
       (15 ≤ within → s.die = .serving → (stack, pc) ∉ s.mem.retraining →
         (recent s 10000000 (sgetD s.mem.pcRetrains i [])).length < 3 → (stack, pc) ∈ t.mem.retraining ∧
           OnItsWay t 0x06060005 .absorbed (natLE 4 i) s.sys.drill)) ∧
     (Runs (.codeCollected .kennelCorrected) s fun t => OnItsWay t 0x06010001 .count [] s.sys.drill) ∧
     (Runs (.codeCollected .kennelUncorrectable) s fun t => OnItsWay t 0x06010002 (.device true) [] s.sys.drill))

/-- R245, R246, R250, R450, R573, R615, Tables 6-9 and 12-9: teardown. Once the old generation has drained, the Board, the local
memories, the carry slots and the program are gone; the reset then destroys the job's keys and drains HBM's key; at the end of the
HBM overwrite the device holds again, or is withdrawn where its Frame has no width class. A drain or a reset that does not end in
time asks for a device reset. -/
def Obligations.Teardown : Prop :=
  (∀ (s : State), s.str.teardown = .draining →
    (Runs .teardownDrained s fun t => t.str.teardown = .scrubbed ∧ t.str.image = none ∧ t.brd.mem = [] ∧
      t.brd.check = [] ∧ (∀ c, lmem t c = []) ∧
      (∀ n, strand t n = {}) ∧ (∀ i, token t i = 0) ∧ (∀ k, slot t k = {}) ∧ t.rod.norm = [] ∧ t.frm.ops = [] ∧ t.edg.ops = [] ∧
      t.mem = s.mem ∧ t.sys = s.sys ∧ t.sec = s.sec) ∧
    (s.knl.resetPending = false → Runs .teardownDrainTimeout s fun t =>
      t = { s with knl := { s.knl with resetPending := true, resetCounted := true } })) ∧
  (∀ (s : State), s.str.teardown = .scrubbed → Runs .contextResetDone s fun t => t.str.teardown = .none ∧
    t.str.scrub = !s.knl.resetPending ∧ t.sec.job = none ∧ t.sec.peers = [] ∧ t.mem.hbm = [] ∧ t.mem.check = [] ∧ t.brd.scrub = false ∧
    (∀ i, i < 8 → (leadAt t i).keyed = false ∧ (leadAt t i).key = none) ∧ t.ld.active = false ∧ t.sys = s.sys ∧ t.sec.owner = s.sec.owner) ∧
  (∀ (s : State), s.die ≠ .off → s.str.teardown ≠ .none → Runs .contextResetOverrun s fun t =>
    OnItsWay t 0x05010003 (.device true) [] s.sys.drill ∧ t.str = s.str) ∧
  (∀ (s : State), s.die ≠ .off → s.str.scrub = true → s.snp.drillActive = none →
    (s.sys.st = .draining → s.str.teardown = .none → s.knl.withdrawAtEnd = false → Runs .hbmScrubComplete s fun t =>
      t.sys.st = .holding ∧ t.str.scrub = false ∧ t.mem.hbm = [] ∧ t.brd = s.brd) ∧
    (s.sys.st = .draining → s.str.teardown = .none → s.knl.withdrawAtEnd = true → Runs .hbmScrubComplete s fun t =>
      t.sys.st = .withdrawn ∧ t.sys.replace = true ∧ t.str.scrub = false ∧ t.mem.hbm = []) ∧
    (s.sys.st = .boot → Runs .hbmScrubComplete s fun t => t.boot.overwrite = true ∧ t.str.scrub = false ∧ t.mem.hbm = [] ∧ t.sys = s.sys))

/-- R450, R455, R459, R470, R558, R453: a device reset that is pending, PWR_FAIL_N released and the Shepherd not restarting, turns the compute die off: job, program, keys,
memories and compute-die sessions are gone, the Shepherd's sessions, the owner and what MRAM holds stay, the Tally is flushed, and a
counted one enters the record of resets. -/
def Obligations.DeviceReset : Prop :=
  (∀ (s : State), s.knl.resetPending = true → s.die ≠ .off → s.shp.pwrFail = false → s.shp.restarting = false →
    Runs .deviceReset s fun t =>
    t.die = .off ∧ t.mem.hbm = [] ∧ t.brd.mem = [] ∧ (∀ c, lmem t c = []) ∧ t.str = {} ∧ t.frm.ops = [] ∧ t.col = {} ∧ t.tim = {} ∧
    t.knl.inflight = [] ∧ t.knl.event = 0 ∧ t.knl.resetPending = false ∧ t.sec.job = none ∧ t.sec.owner = s.sec.owner ∧
    t.sec.lock = s.sec.lock ∧ t.frm.rowFail = s.frm.rowFail ∧ t.frm.retired = s.frm.retired ∧ t.mem.live = s.mem.live ∧
    t.lead.plan = s.lead.plan ∧ t.gov.ucal = s.gov.ucal ∧ t.tet.shpMarker = s.tet.shpMarker ∧
    (∀ l, l < 2 → (linkAt t l).up = (linkAt s l).up ∧ (linkAt t l).shp = (linkAt s l).shp ∧ (linkAt t l).die.isOpen = false) ∧
    t.tly.buffer = [] ∧ t.shp.on = 0 ∧ t.shp.serving = s.shp.serving ∧
    t.knl.resets = (if s.knl.resetCounted = true then (s.shp.time :: s.knl.resets).take 8 else s.knl.resets) ∧
    (s.knl.withdrawn = true → t.knl.withdrawn = true)) ∧
  (∀ (s : State), s.knl.resetPending = false ∨ s.shp.pwrFail = true ∨ s.shp.restarting = true → exec .deviceReset s = .next s)

/-- (1) R446 to R449: the wait-cycle detector counts the checks in a row at which the wait condition holds, and at the threshold ends the
job with 0x0501_0001, naming the waiting strands and the first one's token; a missed heartbeat counts, an answered one starts
over; the fourth in a row is a stall, which an island reset absorbs or which ends the job.

(2) R434, R435, R431: a temperature of a higher band raises the band at once; one 3 °C below the band's lower bound lowers it by one; band
3 takes the deferral away. -/
def Obligations.HangsAndBands : Prop :=
  ((∀ (s : State), running s = true →
     (s.snp.step5 = false → Runs .hangCheck s fun t => t = { s with knl := { s.knl with
       waitCond := waitCondition s, waitUs := if waitCondition s = true then s.knl.waitUs + 1 else 0 } }) ∧
     (s.knl.waitCond = true → max 20 (min 10000 s.knl.hangCfg.toNat) ≤ s.knl.waitUs → Runs .hangThreshold s fun t =>
       let ns := (participating s).filter (hangWaits s)
       let w := (strand s (ns.headD 0)).word
       OnItsWay t 0x05010001 .jobEnding
         (natLE 8 (ns.foldl (fun a n => a + 2 ^ n) 0) ++ natLE 4 (wWtok w) ++ natLE 4 (wWcnt w)) s.sys.drill ∧ t.str = s.str) ∧
     (s.knl.waitCond = false ∨ s.knl.waitUs < max 20 (min 10000 s.knl.hangCfg.toNat) → exec .hangThreshold s = .next s)) ∧
   (∀ (s : State) (missing : List Island), s.die ≠ .off → Runs (.heartbeat missing) s fun t =>
     (∀ i, missedBeats t i = if i ∈ missing then missedBeats s i + 1 else 0) ∧
     t = { s with knl := { s.knl with missed := t.knl.missed } }) ∧
   (∀ (s : State) (i : Island) (stopFailed : Bool), s.die ≠ .off → i ∉ s.knl.stalled →
     (stopFailed = false → missedBeats s i < 4 → exec (.islandStall i stopFailed) s = .next s) ∧
     (stopFailed = true ∨ 4 ≤ missedBeats s i →
       (islandAbsorbed i = true → Runs (.islandStall i stopFailed) s fun t => i ∈ t.knl.stalled ∧ missedBeats t i = 0 ∧
         OnItsWay t 0x05010002 .absorbed [] s.sys.drill) ∧
       (islandAbsorbed i = false → s.knl.stallReset ≠ some i → Runs (.islandStall i stopFailed) s fun t =>
         t.knl.stallReset = some i ∧ OnItsWay t 0x05010002 .jobEnding [] s.sys.drill) ∧
       (islandAbsorbed i = false → s.knl.stallReset = some i → s.str.teardown ≠ .none → Runs (.islandStall i stopFailed) s fun t =>
         OnItsWay t 0x05010002 (.device true) [] s.sys.drill))) ∧
   (∀ (s : State) (l : Nat) (p : Bool), .tether ∈ s.knl.stalled → Runs (.islandReset .tether) s fun t =>
     .tether ∉ t.knl.stalled ∧ (sess t l p).sent = (sess s l p).sent ∧
     (l < 2 → (sess t l p).resend = ((sess s l p).sent.head?).map Prod.fst ∧
       (linkAt t l).retry = satAdd32 (satAdd32 (linkAt s l).retry (sess s l false).sent.length) (sess s l true).sent.length) ∧
     t.mem = s.mem) ∧
   (∀ (s : State) (g : Fin 4), s.die ≠ .off → .leadGroup g ∈ s.knl.stalled → GroupSurvives s g → Runs (.islandReset (.leadGroup g)) s fun t =>
     .leadGroup g ∉ t.knl.stalled ∧ ∀ i, i < 8 →
       let lost := (leadAt s i).lanes.toNat &&& groupMask g
       let left := (leadAt s i).lanes.toNat - lost
       if leadUp s i = true ∧ lost ≠ 0
       then
         let m := BitVec.ofNat 32 (lowestLanes left (laneCount (onesIn left 0 32)))
         leadAt t i = { txFrame (leadAt s i) (.relane m) with lanes := m, relaning := true }
       else leadAt t i = leadAt s i) ∧
   (∀ (s : State) (st : Fin 8), s.die = .serving → .phy st ∈ s.knl.stalled → s.snp.drillActive = none →
     (∀ pc : Fin 32, (recent s 10000000 (sgetD s.mem.pcRetrains (pcId st pc) [])).length < 3) → Runs (.islandReset (.phy st)) s fun t =>
       .phy st ∉ t.knl.stalled ∧ (∀ pc : Fin 32, pcLive s (pcId st pc) = true → (st, pc) ∈ t.mem.retraining) ∧ t.mem.hbm = s.mem.hbm)) ∧
  (∀ (s : State) (c : BitVec 8), s.die ≠ .off → let b := s.knl.band.toNat
     (b < bandOf c.toInt → Runs (.bandRise c) s fun t => t.knl.band.toNat = bandOf c.toInt ∧ t.knl.temp = c ∧
       (95 ≤ c.toInt → t.knl.d = 0) ∧ (c.toInt < 95 → t.knl.d = s.knl.d) ∧ OnItsWay t 0x09010001 .count [] s.sys.drill) ∧
     (bandOf c.toInt ≤ b → exec (.bandRise c) s = .next s) ∧
     (0 < b → c.toInt ≤ 62 + 10 * b → Runs (.bandFall c) s fun t => t.knl.band.toNat = b - 1 ∧ t.knl.temp = c ∧ t.knl.d = s.knl.d ∧
       OnItsWay t 0x09010001 .count [] s.sys.drill) ∧
     (b = 0 ∨ 62 + 10 * (b : Int) < c.toInt → exec (.bandFall c) s = .next s))

/-- (1) R586, R590, R593, R594: every microsecond the pool takes the replenishment, pays the static cost of the powered domains, and is held
at the depth D; the grants of the microsecond start over; a shortage begins below D / 8 and ends above D / 2.

(2) R595, R597 to R599: a feedback period takes the difference of what was measured and what was granted out of the pool, within D on
either side, and clamps while more than 14.5 mJ were measured; a drift window outside 0.92 to 1.08 is counted; every
millisecond the deferral rises under shortage and falls without, and is 0 in band 3. -/
def Obligations.GovernorPool : Prop :=
  ((∀ (s : State), s.die ≠ .off → Runs .govTick s fun t =>
     t.gov.pool = min (s.gov.pool + replenishment s - staticCost s) (depth s) ∧ t.gov.grantedUs = 0 ∧
     t.gov.staticUs = staticCost s ∧ t.gov.periodE = s.gov.periodE + staticCost s ∧ t.shp.vid = vidCode s ∧
     t.gov.short = (if s.gov.short = true then decide (2 * t.gov.pool ≤ depth s) else decide (8 * t.gov.pool < depth s)) ∧
     t.gov.cntShort = (if t.gov.short = true then satAdd32 s.gov.cntShort 1 else s.gov.cntShort) ∧
     (s.gov.short = false → t.gov.short = true → OnItsWay t 0x090D0002 .count [] s.sys.drill) ∧
     t = { s with gov := { s.gov with pool := t.gov.pool, grantedUs := 0, staticUs := t.gov.staticUs, periodE := t.gov.periodE
                                      short := t.gov.short, cntShort := t.gov.cntShort }
                  knl := { s.knl with inflight := t.knl.inflight }, shp := { s.shp with vid := t.shp.vid } }) ∧
   ∀ s : State, 19200000 ≤ replenishment s ∧ replenishment s ≤ 307200000 ∧
     replenishment s = budgetW s * derate s * 256000 / 100) ∧
  ((∀ (s : State) (m : Nat), s.die ≠ .off → Runs (.feedbackPeriod m) s fun t =>
     t.gov.pool = max (-(depth s : Int)) (min (depth s) (s.gov.pool - (256 * m - s.gov.periodE))) ∧ t.gov.periodE = 0 ∧
     t.gov.sumM = s.gov.sumM + 256 * m ∧ t.gov.sumP = s.gov.sumP + s.gov.periodE ∧ t.gov.clamp = decide (14500000 < m) ∧
     (14500000 < m → ∃ eff, (eff = .event ∨ eff = .count) ∧ OnItsWay t 0x090D0005 eff [] s.sys.drill) ∧ t.mem = s.mem) ∧
   (∀ (s : State), s.die ≠ .off → s.gov.sumP ≠ 0 →
     (92 * s.gov.sumP ≤ 100 * s.gov.sumM → 100 * s.gov.sumM ≤ 108 * s.gov.sumP → Runs .driftWindow s fun t =>
       t.gov.driftRatio.toNat = min 65535 (s.gov.sumM * 1024 / s.gov.sumP) ∧ t.gov.driftCount = s.gov.driftCount ∧
       t.gov.sumM = 0 ∧ t.gov.sumP = 0 ∧ t.knl = s.knl) ∧
     (100 * s.gov.sumM < 92 * s.gov.sumP ∨ 108 * s.gov.sumP < 100 * s.gov.sumM → Runs .driftWindow s fun t =>
       t.gov.driftRatio.toNat = min 65535 (s.gov.sumM * 1024 / s.gov.sumP) ∧
       t.gov.driftCount.toNat = min 65535 (s.gov.driftCount.toNat + 1) ∧ t.gov.sumM = 0 ∧ t.gov.sumP = 0 ∧
       ∃ eff, (eff = .event ∨ eff = .count) ∧ OnItsWay t 0x090D0001 eff [] s.sys.drill)) ∧
   (∀ (s : State), s.die ≠ .off → Runs .deferAdjust s fun t => t = { s with knl := { s.knl with d := t.knl.d } } ∧
     t.knl.d.toNat = if s.knl.band = 3 then 0 else if s.gov.short = true then min 3 (s.knl.d.toNat + 1) else s.knl.d.toNat - 1))

/-- R587 to R589, R591, R592, R599, R131, R203: grains are considered by rank, then by how long they have waited, then by strand; each is granted
while the pool covers it and the microsecond's limit holds, and the first that is not holds all behind it back; the
THROTTLE bit of a unit shows the wait; a grain that has aged is considered first. -/
def Obligations.GrainsGranted : Prop :=
  (∀ (s : State) (arrived : List Grain), (grainOrder s arrived).Perm (s.gov.waiting ++ arrived) ∧
    (grainOrder s arrived).Pairwise fun a b => grainBefore s a b = true) ∧
  (∀ (s : State) (arrived : List Grain) (g : Grain) (gs : List Grain), s.die ≠ .off → grainOrder s arrived = g :: gs →
    (grantOk s g = false → Runs (.grainGrant arrived) s fun t =>
      t.gov.waiting = (g :: gs).map (fun x => { x with waited := x.waited + 1 }) ∧ t.gov.pool = s.gov.pool ∧
      t.gov.grantedUs = s.gov.grantedUs ∧ t.gov.aged = s.gov.aged ∧
      (∀ x ∈ g :: gs, (x.strand = 1 → t.edg.throttle = true) ∧
        (18 ≤ x.strand → x.strand ≤ 33 → t.rod.throttle.getLsbD (x.strand - 18) = true)) ∧ t.mem = s.mem ∧ t.str = s.str) ∧
    (grantOk s g = true → gs = [] → Runs (.grainGrant arrived) s fun t =>
      t.gov.waiting = [] ∧ t.gov.pool = s.gov.pool - grainCost s g ∧ t.gov.grantedUs = s.gov.grantedUs + grainCost s g ∧
      t.gov.periodE = s.gov.periodE + grainCost s g ∧ t.gov.aged = s.gov.aged.erase g.strand ∧
      (g.strand = 1 → t.edg.throttle = false) ∧
      (18 ≤ g.strand → g.strand ≤ 33 → t.rod.throttle.getLsbD (g.strand - 18) = false) ∧ t.mem = s.mem ∧ t.str = s.str)) ∧
  (∀ (s : State) (g : Grain), grantOk s g = true ↔ (0 ≤ s.gov.pool ∧ (grainCost s g : Int) ≤ s.gov.pool ∧
    s.gov.grantedUs + s.gov.staticUs + grainCost s g ≤ 1450000 * 256 ∧ (s.gov.clamp = true → g.strand ∈ s.gov.aged ∨ g.rank = 0))) ∧
  (∀ (s : State) (n : Nat),
    ((∃ g ∈ s.gov.waiting, g.strand = n) → n ∉ s.gov.aged → Runs (.grainAged n) s fun t =>
      t = { s with gov := { s.gov with aged := s.gov.aged ++ [n] } } ∧ ∀ g, g.strand = n → grainRank t g = 0) ∧
    ((∀ g ∈ s.gov.waiting, g.strand ≠ n) → exec (.grainAged n) s = .next s))

/-- (1) R601: the calibration program writes what it measured for the grains and for the present band's static and rail entries, and
nothing else, with the band in which it measured.

(2) R535 to R540: a flush stores the buffered records in order, with the count of dropped ones after them; a full store keeps what it
holds and counts what it discards. Age, a half-full buffer and TALLY_STATUS begin a flush; while the
Shepherd restarts it waits. -/
def Obligations.CalibrationAndTally : Prop :=
  (∀ (s : State) (v : Vector (BitVec 32) 20),
     (s.gov.measuring = true → Runs (.calibrationDone v) s fun t =>
       t = { s with gov := { s.gov with measuring := false, measValid := true, measBand := s.knl.band, meas := t.gov.meas } } ∧
       ∀ c, c < 20 → vget t.gov.meas c 0 =
         if c < 12 ∨ c = 12 + s.knl.band.toNat ∨ c = 16 + s.knl.band.toNat then vget v c 0 else 0) ∧
     (s.gov.measuring = false → exec (.calibrationDone v) s = .next s)) ∧
  ((∀ (s : State), s.tly.flushing = true → s.shp.restarting = false → s.tly.full = false → s.tly.droppedSince = 0 →
     s.tly.store.length + s.tly.buffer.length < 393088 → Runs .tallyFlushDone s fun t =>
       t.tly.store = s.tly.store ++ s.tly.buffer ∧
       t = { s with tly := { s.tly with store := s.tly.store ++ s.tly.buffer, buffer := [], flushing := false, passed := s.tly.next } }) ∧
   (∀ (s : State), s.tly.flushing = true → s.shp.restarting = false → s.tly.full = true → s.tly.droppedSince = 0 → Runs .tallyFlushDone s fun t =>
       t.tly.store = s.tly.store ∧ t.tly.buffer = [] ∧
       t.tly.overflow.toNat = min (2 ^ 32 - 1) (s.tly.overflow.toNat + s.tly.buffer.length)) ∧
   (∀ (s : State), s.tly.flushing = true → s.shp.restarting = false → s.tly.full = false → s.tly.droppedSince ≠ 0 → s.shp.pwrFail = false →
     s.tly.store.length + s.tly.buffer.length + 1 < 393088 → Runs .tallyFlushDone s fun t =>
       ∃ x, t.tly.store = s.tly.store ++ s.tly.buffer ++ [x] ∧ x.code = 0x0D100003 ∧ x.seq = s.tly.next ∧
         x.detail = slice (natLE 4 s.tly.droppedSince.toNat) 0 24 ∧ t.tly.droppedSince = 0 ∧ t.tly.next = s.tly.next + 1) ∧
   (∀ (s : State), s.tly.flushing = false ∨ s.shp.restarting = true → exec .tallyFlushDone s = .next s) ∧
   (∀ (s : State), s.die ≠ .off →
     (Runs .tallyFlush s fun t => t = { s with tly := { s.tly with flushing := true } }) ∧
     (s.tly.buffer ≠ [] → Runs .tallyAgeTimeout s fun t => t = { s with tly := { s.tly with flushing := true } }) ∧
     (32768 ≤ s.tly.buffer.length → Runs .tallyBufferThreshold s fun t => t = { s with tly := { s.tly with flushing := true } })))

/-- (1) R557 to R559, R405, R567: a HELLO with an accepted certificate ends the session that it would replace and is answered with the
device's ephemeral key and nonce; FINISH with a good signature opens the session under the key that both exchanges derive, and
a compute-die session takes the held notifications. A certificate or signature that fails leaves the link without the session.

(2) R556, R564, R565: the owner is enrolled once, with a good voucher; certificates are read and the device attests to itself with the
nonce given, before enrolment and without a session too. -/
def Obligations.SessionsAndIdentity : Prop :=
  (∀ (s : State) (r : Req) (p : Bool), Admits s r (kHello p) → s.die ≠ .off →
     (∀ cert key nonce,
       (certOk s p cert = true → Runs (.hello r p cert key nonce) s fun t => ∃ h b, (sess t r.link p).hs = some h ∧
         (sess t r.link p).isOpen = false ∧ h.serial = cert.serial ∧ h.opKey = cert.key ∧ h.peer = key ∧ h.draw = s.free ∧
         Answers t r (kHello p) 0 b ∧ b.length = 145 ∧
         b.take 81 = [0x02] ++ natLE 64 (Config.draw s.free).toNat ++ natLE 16 (Config.draw (s.free + 1)).toNat ∧
         t = { s with tet := t.tet, free := s.free + 2 }) ∧
       (certOk s p cert = false → Runs (.hello r p cert key nonce) s fun t =>
         OnItsWay t 0x0A0E0001 .refusedTally (natLE 4 cert.serial.toNat) s.sys.drill ∧ (sess t r.link p).isOpen = false ∧
         (sess t r.link p).hs = none ∧ t.sec.owner = s.sec.owner ∧ t.mem = s.mem)) ∧
     (∀ h, (sess s r.link p).hs = some h →
       Runs (.finish r p true) s fun t =>
         (sess t r.link p).isOpen = true ∧ (sess t r.link p).serial = h.serial ∧ (sess t r.link p).key = sessionKey h p ∧
         (sess t r.link p).hs = none ∧ Answers t r (kHello p) 0 [] ∧ (p = false → t.tet.held = []) ∧
         t = { s with tet := t.tet, sec := { s.sec with svn := t.sec.svn } }) ∧
     (∀ h, (sess s r.link p).hs = some h → Runs (.finish r p false) s fun t =>
       (sess t r.link p).isOpen = false ∧ (sess t r.link p).hs = none ∧
       OnItsWay t 0x0A0E0001 .refusedTally (natLE 4 h.serial.toNat) s.sys.drill) ∧
     (∀ ok, (sess s r.link p).hs = none → Runs (.finish r p ok) s fun t => SecRefused s t r (kHello p) 0x0A0E0001 [])) ∧
  (∀ (s : State) (r : Req), Admits s r kIdentity → s.die ≠ .off →
     (∀ key, s.sec.owner = none → Runs (.enroll r key true) s fun t => Answered s t r kIdentity 0 [] ∧
       t = { s with sec := { s.sec with owner := some key }, tet := { s.tet with link := t.tet.link } }) ∧
     (∀ key ok, s.sec.owner ≠ none ∨ ok = false → Runs (.enroll r key ok) s fun t => SecRefused s t r kIdentity 0x0A0E0007 []) ∧
     (Runs (.certRead r) s fun t => Answered s t r kIdentity 0 ([0x41] ++ Config.certificates) ∧
       t = { s with tet := { s.tet with link := t.tet.link } }) ∧
     (∀ nonce, Runs (.attest r nonce) s fun t => ∃ b, Answered s t r kIdentity 0 b ∧
       b.length = 321 ∧
       b.take 25 = [0x20] ++ natLE 4 0x50394154 ++ natLE 4 (ownId s) ++ natLE 16 nonce.toNat ∧
       t = { s with tet := { s.tet with link := t.tet.link } }))

/-- R568, R570, R572, R573, R584: a job ephemeral key is made in HOLDING with no job; the wrapped master that unwraps under the
key of the two ephemerals becomes the job's key, with its epochs, and HBM is overwritten under it; what was sealed under that
key unwraps; the drop destroys the key and overwrites HBM again; certificates of at most 8
other devices are kept. Each that may not act is refused, with the message's kind. -/
def Obligations.JobKeys : Prop :=
  (∀ (s : State) (r : Req) (jobId : BitVec 64), Admits s r kJob →
    (KeyReady s → Runs (.jobEphemeral r jobId) s fun t => ∃ b, Answered s t r kJob 0 b ∧ b.length = 145 ∧
      t = { s with sec := { s.sec with eph := t.sec.eph }, tet := { s.tet with link := t.tet.link }, free := s.free + 2 } ∧
      t.sec.eph = some { jobId := jobId, nonce := (Config.draw (s.free + 1)).setWidth 128, draw := s.free }) ∧
    (¬ KeyReady s → Runs (.jobEphemeral r jobId) s fun t => SecRefused s t r kJob 0x0A0E0005 (natLE 4 0x10)) ∧
    (∀ node wrapped tag ew er,
      let c := Instr.jobKey r jobId node wrapped tag ew er
      (∀ e, s.sec.eph = some e → e.jobId = jobId → s.sec.job = none → s.sec.debug = false →
        (∀ m, unwrap s e node wrapped tag = some m → Runs c s fun t => Answered s t r kJob 0 [] ∧
          t.sec.job = some { jobId := jobId, master := m, nonce := e.nonce, epochW := ew, epochR := er } ∧ t.sec.eph = none ∧
          t.mem.hbm = [] ∧ t.mem.check = [] ∧ t.str.scrub = true ∧ t.sys = s.sys) ∧
        (unwrap s e node wrapped tag = none → Runs c s fun t => OnItsWay t 0x0A0E0005 .refusedTally (natLE 4 0x11) s.sys.drill ∧
          Answered s t r kJob 1 (natLE 4 0x0A0E0005) ∧ t.sec.job = none ∧ t.sec.eph = none ∧ t.mem = s.mem)) ∧
      (s.sec.eph = none ∨ (∃ e, s.sec.eph = some e ∧ e.jobId ≠ jobId) ∨ s.sec.job ≠ none ∨ s.sec.debug = true → Runs c s fun t =>
        SecRefused s t r kJob 0x0A0E0005 (natLE 4 0x11))) ∧
    (s.sys.st = .holding → loaded s = false → (∃ k, s.sec.job = some k ∧ k.jobId = jobId) → s.ld.active = false →
      Runs (.jobDrop r jobId) s fun t => Answered s t r kJob 0 [] ∧ t.sec.job = none ∧ t.sec.peers = [] ∧ t.mem.hbm = [] ∧
        t.sec.idleKey = s.free ∧ t.free = s.free + 1 ∧ t.str.scrub = true ∧ t.sys = s.sys ∧ ∀ i, i < 8 → (leadAt t i).keyed = false) ∧
    ((∀ k, s.sec.job = some k → k.jobId ≠ jobId) ∨ loaded s = true → Runs (.jobDrop r jobId) s fun t =>
      SecRefused s t r kJob 0x0A0E0005 (natLE 4 0x12)) ∧
    (∀ signer cert bind chains,
      let others := s.sec.peers.filter fun p => p.1 != signer
      (bindOk s signer cert bind = true → chains = true → others.length < 8 → Runs (.peerCert r signer cert bind chains) s fun t =>
        Answered s t r kJob 0 [] ∧ t = { s with sec := { s.sec with peers := others ++ [(signer, cert)] }
                                                tet := { s.tet with link := t.tet.link } }) ∧
      (bindOk s signer cert bind = false ∨ chains = false ∨ 8 ≤ others.length → Runs (.peerCert r signer cert bind chains) s fun t =>
        SecRefused s t r kJob 0x0A0E0008 (natLE 4 0x13)))) ∧
  (∀ (s : State) (e : JobEph) (node : BitVec 512) (m : BitVec 256),
    let c := gcmSeal (wrapKey s e node) (zeros 12) (natLE 8 e.jobId.toNat) (natLE 32 m.toNat)
    unwrap s e node (BitVec.ofNat 256 (leNat (c.take 32))) (BitVec.ofNat 128 (leNat (c.drop 32))) = some m) ∧
  (∀ (s : State), Runs .ephemeralExpiry s fun t => t = { s with sec := { s.sec with eph := none } })

/-- R566, R567, R575: firmware is staged in the slot that does not run; a commit whose image verifies, with an SVN not below the counter,
selects it for the next boot, and any other is refused with 0x0A0E_0004. A pending debug unlock takes place once no job runs,
and leaves no key, no program and nothing in HBM. -/
def Obligations.FirmwareAndDebug : Prop :=
  (∀ (s : State) (r : Req) (slot : Fin 2), Admits s r kFw → s.die ≠ .off →
    (∀ (off : BitVec 32) (b : Bytes), b.length ≤ 4080 → Runs (.fwData r slot off b) s fun t => Answered s t r kFw 0 [] ∧
      (∃ m, (vget t.sec.fw (idleSlot s slot.val) {}) = { image := some m, svn := none } ∧
        (∀ i, i < b.length → sget? m (off.toNat + i) = b[i]?)) ∧
      (∀ j, j ≠ idleSlot s slot.val → vget t.sec.fw j {} = vget s.sec.fw j {}) ∧
      t = { s with sec := { s.sec with fw := t.sec.fw }, tet := { s.tet with link := t.tet.link } }) ∧
    (∀ svn, (vget s.sec.fw (idleSlot s slot.val) {}).image ≠ none →
      (∀ v, svn = some v → vget s.sec.svn slot.val 0 ≤ v → Runs (.fwCommit r slot svn) s fun t => Answered s t r kFw 0 [] ∧
        vget t.sec.fwSel slot.val false = !vget s.sec.fwRun slot.val false ∧ t.sec.fwRun = s.sec.fwRun ∧ t.sec.svn = s.sec.svn) ∧
      (svn = none ∨ (∃ v, svn = some v ∧ v < vget s.sec.svn slot.val 0) → Runs (.fwCommit r slot svn) s fun t =>
        Answered s t r kFw 1 (natLE 4 0x0A0E0004) ∧ OnItsWay t 0x0A0E0004 .event (natLE 4 slot.val) s.sys.drill ∧
        t.sec.fwSel = s.sec.fwSel ∧ t.sec.fwRun = s.sec.fwRun))) ∧
  (∀ (s : State), s.sec.debugPending = true →
    (s.sys.st ≠ .running → s.sys.st ≠ .armed → s.sys.st ≠ .faulted → s.sys.st ≠ .draining → Runs .debugUnlock s fun t =>
      t.sec.debug = true ∧ t.sec.debugPending = false ∧ t.sec.job = none ∧ t.mem.hbm = [] ∧ t.mem.check = [] ∧ t.str.image = none ∧
      t.sec.owner = s.sec.owner ∧ t.sys = s.sys) ∧
    (s.sys.st = .running ∨ s.sys.st = .armed ∨ s.sys.st = .faulted ∨ s.sys.st = .draining → exec .debugUnlock s = .next s))

/-- (1) R496 to R498, R571, R572: a manifest is taken in pieces where a restore is allowed; the last piece accepts it if its signature, its job and
its shards hold, and otherwise drops it. A piece of a page is kept; the piece that makes its page whole writes the page that it
decrypts to under its page key, a capture page its ratio table, or marks the restore as failed where the tag does not verify or
the page is another's.

(2) R498, R499, R405, R408, R199, R207: RESTORE_END checks what has come and reports the result; a restore that succeeds sets the marker, and the
norm store is zero, and the launch that follows continues each strand after its STEP, which counts, or leaves it ended. -/
def Obligations.Restores : Prop :=
  ((∀ (s : State) (r : Req) (off : BitVec 32) (last : Bool) (b : Bytes) (ok : Bool), Admits s r kCkpt → b.length ≤ 4064 →
     s.snp.restore = none →
     (restoreOk s = false → Runs (.restoreManifest r off last b ok) s fun t => Answered s t r kCkpt 1 (natLE 4 0x0B0C0001) ∧
       OnItsWay t 0x0B0C0001 .refused [] s.sys.drill ∧ t.snp.restore = none) ∧
     (restoreOk s = true → last = false → Runs (.restoreManifest r off last b ok) s fun t => Answered s t r kCkpt 0 [] ∧
       t = { s with snp := { s.snp with restore := some { manifest := zeros off.toNat ++ b } }, tet := { s.tet with link := t.tet.link } }) ∧
     (restoreOk s = true → last = true →
       let m := zeros off.toNat ++ b
       (signerOk s m ok = true → shapeOk s m = true → shardsIn s m = true → Runs (.restoreManifest r off last b ok) s fun t =>
         Answered s t r kCkpt 0 [] ∧
         t = { s with snp := { s.snp with restore := some { manifest := m, accepted := true } }, tet := { s.tet with link := t.tet.link } }) ∧
       (signerOk s m ok = false → Runs (.restoreManifest r off last b ok) s fun t => Answered s t r kCkpt 1 (natLE 4 0x0A0C0001) ∧
         OnItsWay t 0x0A0C0001 .refusedTally (natLE 8 (fld m 0x10 8) ++ natLE 4 (fld m 0x18 4)) s.sys.drill ∧ t.snp.restore = none) ∧
       (signerOk s m ok = true → shapeOk s m = false ∨ shardsIn s m = false → Runs (.restoreManifest r off last b ok) s fun t =>
         Answered s t r kCkpt 1 (natLE 4 0x0B0C0001) ∧ OnItsWay t 0x0B0C0001 .refused [] s.sys.drill ∧ t.snp.restore = none))) ∧
   (∀ (s : State) (x : Restore) (l : Fin 2) (marker : BitVec 64) (position shard page off : BitVec 32) (b : Bytes),
     PieceOf s x l shard page off b →
     let p := pagesBefore (manShards x.manifest) shard.toNat + page.toNat
     let got := putRun (sgetD x.pieces p []) off.toNat b
     let stored := got.map Prod.snd
     let plain := if fld x.manifest 0x10 8 = marker.toNat ∧ fld x.manifest 0x18 4 = position.toNat then
       openPage s x.manifest shard.toNat page.toNat stored else none
     let whole := { x with pieces := serase x.pieces p, whole := sset x.whole p stored }
     let c := Instr.restorePage l marker position shard page off b
     (got.length < storedBytes → Runs c s fun t => t = { s with
       snp := { s.snp with restore := some { x with pieces := sset x.pieces p got } }, tet := { s.tet with link := t.tet.link } }) ∧
     (got.length = storedBytes → plain = none → Runs c s fun t => t = { s with
       snp := { s.snp with restore := some { x with pieces := serase x.pieces p, tagFail := true } }
       tet := { s.tet with link := t.tet.link } }) ∧
     (∀ d, got.length = storedBytes → plain = some d → p = 0 → Canonical s → Runs c s fun t =>
       t.snp.restore = some { whole with capture := d } ∧ (ratioTable (img s) = locNone → t.mem = s.mem) ∧
       (ratioTable (img s) ≠ locNone →
         mread t.mem.hbm (ratioTable (img s)) 131072 = (d.drop 0x1000).take 131072)) ∧
     (∀ d a, got.length = storedBytes → plain = some d → p ≠ 0 →
       genPageAddr (manShards x.manifest) p = some a → Canonical s → Runs c s fun t => mread t.mem.hbm a pageBytes = d ∧
         (∀ j, j < a ∨ a + pageBytes ≤ j → mget t.mem.hbm j = mget s.mem.hbm j) ∧ t.snp.restore = some whole ∧
         t = { s with mem := { s.mem with hbm := t.mem.hbm, check := t.mem.check }, snp := { s.snp with restore := t.snp.restore }
                      tet := { s.tet with link := t.tet.link } }))) ∧
  ((∀ (s : State) (r : Req), Admits s r kCkpt →
     (restoring s = none → Runs (.restoreEnd r) s fun t => Answered s t r kCkpt 1 (natLE 4 0x0B0C0001) ∧
       OnItsWay t 0x0B0C0001 .refused [] s.sys.drill ∧ t.snp.restored = s.snp.restored) ∧
     (∀ x code eff detail, restoring s = some x → restoreFailure s x = some (code, eff, detail) → Runs (.restoreEnd r) s fun t =>
       Answers t r kCkpt 0 [] ∧ OnItsWay t code eff detail s.sys.drill ∧ Notified t .restoreResult code ∧ t.snp.restore = none ∧
       t.snp.restored = s.snp.restored ∧ t.str = s.str ∧ t.mem = s.mem) ∧
     (∀ x, restoring s = some x → restoreFailure s x = none → Runs (.restoreEnd r) s fun t =>
       Answers t r kCkpt 0 [] ∧ Notified t .restoreResult 0 ∧ t.snp.restore = none ∧ t.snp.restored = true ∧
       t.snp.restoredPage = x.capture ∧ t.rod.norm = [] ∧ t.str.marker = BitVec.ofNat 64 (fld x.manifest 0x10 8) ∧ t.tet.shpMarker = t.str.marker ∧
       t.mem = s.mem ∧ t.knl = s.knl)) ∧
   (∀ (s : State), s.sys.st = .armed → s.tet.phase = .committed → 0 ≤ diff48 s.tim.counter s.tet.launch → s.snp.restored = true →
     Runs .launchTimeReached s fun t => t.sys.st = .running ∧ t.str.marker = s.str.marker ∧ t.mem = s.mem ∧
       (∀ c, c < 16 → participates s (18 + c) = true → vget t.rod.instnum c 0 =
         if (pageStrand s.snp.restoredPage (18 + c)).2 = 6 then 0 else 0xFFFFFFFF) ∧
       ∀ n, n < 43 → participates s n = true →
         let e := pageStrand s.snp.restoredPage n
         (e.2 = 7 → strand t n = { index := BitVec.ofNat 20 e.1, st := 7 }) ∧
         (e.2 ≠ 7 → (strand t n).index = BitVec.ofNat 20 (e.1 + 1) ∧ (strand t n).phase = .fetch ∧
           ((strand t n).st = 1 ∨ (strand t n).st = 8))))

/-- (1) R396, R397, R425, R427: an acknowledgement removes the frames up to its SEQ; a NAK and a timeout send again from their frame and
count every frame sent again; the third NAK of one frame loses the link. A frame that fails is dropped, NAKed and counted, and
the link is lost at the third failure of that frame, whatever came between; a frame of a LENGTH that its message does not admit
fails as the next of its session.

(2) R395, R397, R398, R400, R420, R427, R461, R558: a lost link ends its sessions, and what was not acknowledged in them goes out on
the other link's session of the same target, each frame counted as sent again; its waiting bulk frames wait there. The device
is degraded. A link that comes up has the sessions it had, none. With both links lost a running job ends, and an armed device
disarms. -/
def Obligations.TetherLinkLayer : Prop :=
  (∀ (s : State) (l : Fin 2) (p : Bool) (seq : BitVec 64), s.die ≠ .off → (linkAt s l).up = true → let x := sess s l p
     (Runs (.tetherAck l p seq) s fun t => (sess t l p).sent = x.sent.filter (fun f => decide (seq < f.1)) ∧
       (∀ q, x.resend = some q → (sess t l p).resend = if ∃ f ∈ x.sent, seq < f.1 ∧ q ≤ f.1 then some q else none) ∧
       sess t l p = { x with sent := (sess t l p).sent, resend := (sess t l p).resend, naks := (sess t l p).naks } ∧
       (∀ l' p', (l' ≠ l.val ∨ p' ≠ p) → sess t l' p' = sess s l' p') ∧ t = { s with tet := { s.tet with link := t.tet.link } }) ∧
     ((∃ f ∈ x.sent, f.1 = seq) →
       let n := sgetD x.naks seq.toNat 0 + 1
       Runs (.tetherNak l p seq) s fun t => OnItsWay t 0x080B0002 .count [] s.sys.drill ∧ WorkKept s t ∧
         (n < 3 → (sess t l p).resend = some seq ∧ (sess t l p).sent = x.sent ∧ (linkAt t l).up = true ∧
           sget? (sess t l p).naks seq.toNat = some n ∧
           (linkAt t l).retry = satAdd32 (linkAt s l).retry (x.sent.filter fun f => decide (seq ≤ f.1)).length) ∧
         (3 ≤ n → (linkAt t l).up = false ∧ (linkAt t l).lost = true ∧ OnItsWay t 0x080B0001 .absorbed (natLE 4 l) s.sys.drill)) ∧
     ((∀ f ∈ x.sent, f.1 ≠ seq) → exec (.tetherNak l p seq) s = .next s) ∧
     (∀ f rest, x.sent = f :: rest → Runs (.tetherAckTimeout l p) s fun t =>
       (sess t l p).resend = some f.1 ∧ (sess t l p).sent = x.sent ∧ OnItsWay t 0x080B0002 .count [] s.sys.drill ∧ WorkKept s t) ∧
     (∀ tagFailed,
       let n := sgetD x.fails seq.toNat 0 + 1
       Runs (.tetherFrameReject l p seq tagFailed) s fun t =>
         OnItsWay t (if tagFailed = true then 0x0A0B0002 else 0x080B0002) .count [] s.sys.drill ∧ WorkKept s t ∧
         (n < 3 → (linkAt t l).up = true ∧ (linkAt t l).retry = satAdd32 (linkAt s l).retry 1 ∧
           sess t l p = { x with fails := (sess t l p).fails, nakSent := some seq } ∧ sget? (sess t l p).fails seq.toNat = some n) ∧
         (3 ≤ n → (linkAt t l).up = false ∧ (linkAt t l).lost = true ∧ OnItsWay t 0x080B0001 .absorbed (natLE 4 l) s.sys.drill)) ∧
     (∀ (r : Req) (off shard page : BitVec 32) (off64 marker : BitVec 64) (position : BitVec 32) (kind : Fin 2) (b : Bytes) (last ok : Bool),
       r.link = l →
       let rejected := fun shp => exec (.tetherFrameReject l shp (sess s l shp).rx false) s
       (b.length = 0 ∨ 4088 < b.length → exec (.loadData l off64 b) s = rejected false) ∧
       (4064 < b.length → exec (.restoreManifest r off last b ok) s = rejected false ∧
         exec (.restorePage l marker position shard page off b) s = rejected false) ∧
       (4080 < b.length → exec (.fwData r kind off b) s = rejected true))) ∧
  ((∀ (s : State) (l : Fin 2), s.die ≠ .off → (linkAt s l).up = true →
     Runs (.tetherLinkLost l) s fun t => (linkAt t l).up = false ∧ (linkAt t l).lost = true ∧
       (∀ p, (sess t l p).isOpen = false ∧ (sess t l p).sent = [] ∧ (sess t l p).bulk = []) ∧ (linkAt t l).retry = (linkAt s l).retry ∧
       OnItsWay t 0x080B0001 .absorbed (natLE 4 l) s.sys.drill ∧ t.sys.degraded = true ∧ t.sys.replace = true ∧ t.sys.st = s.sys.st ∧
       (∀ p, (linkAt s (1 - l.val)).up = true → (sess s (1 - l.val) p).isOpen = true → ∀ f ∈ (sess s l p).sent,
         ∃ q, (q, f.2) ∈ (sess t (1 - l.val) p).sent) ∧
       ((linkAt s (1 - l.val)).up = true → (sess s (1 - l.val) false).isOpen = true → (sess s (1 - l.val) true).isOpen = true →
         (linkAt t (1 - l.val)).retry =
           satAdd32 (linkAt s (1 - l.val)).retry ((sess s l false).sent.length + (sess s l true).sent.length)) ∧
       ((linkAt s (1 - l.val)).up = true → (sess s (1 - l.val) false).isOpen = true →
         (sess t (1 - l.val) false).bulk = (sess s (1 - l.val) false).bulk ++ (sess s l false).bulk) ∧ WorkKept s t) ∧
   (∀ (s : State) (l : Fin 2), s.shp.standby = true → (linkAt s l).up = false →
     (Runs (.tetherLinkUp l) s fun t => linkAt t l = { linkAt s l with up := true } ∧
       (∀ j, j ≠ l.val → linkAt t j = linkAt s j) ∧ t = { s with tet := { s.tet with link := t.tet.link } }) ∧
     ((linkAt s l).lost = true → Runs (.tetherRetrain l true) s fun t =>
       linkAt t l = { linkAt s l with up := true } ∧ (∀ j, j ≠ l.val → linkAt t j = linkAt s j) ∧
       t = { s with tet := { s.tet with link := t.tet.link } }) ∧
     exec (.tetherRetrain l false) s = .next s) ∧
   (∀ (s : State), s.die ≠ .off → s.shp.standby = true → (linkAt s 0).up = false → (linkAt s 1).up = false →
     let links := natLE 4 0 ++ natLE 4 1
     (s.sys.st = .running → Runs .bothLinksLost s fun t => OnItsWay t 0x080B0003 .jobEnding links s.sys.drill ∧ t.sys = s.sys) ∧
     (s.sys.st = .armed → s.knl.withdrawAtEnd = false → Runs .bothLinksLost s fun t => OnItsWay t 0x080B0003 .event links s.sys.drill ∧
       Disarmed t) ∧
     (s.sys.st ≠ .running → s.sys.st ≠ .armed → Runs .bothLinksLost s fun t => OnItsWay t 0x080B0003 .event links s.sys.drill ∧
       t.sys = s.sys)))

/-- (1) R378 to R380, R385, R388: a marker edge counts MARKS; a hundred edges in a row within 50 ns lock the reference, and one that is not,
a missing edge or a missing clock breaks it, with 0x0C0A_0001 if it was locked; the epoch of this edge sets a counter that is
not initialised; in REF mode the counter is steered by its error.

(2) R381 to R384: the source is the lowest of the own ID and those advertised in the rack; its nearest neighbour on the lowest lead is
the parent, one hop nearer. An exchange with the parent in LEAD mode sets a counter that is not initialised, and steers by half of
the difference; in another mode 16 offsets in a row above 1 us raise 0x0C0A_0004. A neighbour in the rack has its request
answered with this device's times. -/
def Obligations.Time : Prop :=
  ((∀ (s : State) (interval : Nat), s.die ≠ .off → s.tim.epochPending = none →
     ((interval : Int) - 1000000).natAbs ≤ 50 → Runs (.frameMarkerEdge interval) s fun t =>
       t.tim.marks = s.tim.marks + 1 ∧ t.tim.valid = s.tim.valid ∧ t.tim.counter = s.tim.counter ∧
       (s.tim.forceLead = true → t.tim.goodEdges = min 100 (s.tim.goodEdges + 1) ∧
         t.tim.refLock = (s.tim.refLock || decide (99 ≤ s.tim.goodEdges)) ∧ t.knl = s.knl) ∧
       (s.tim.forceLead = false → 99 ≤ s.tim.goodEdges → (markerError s.tim.counter).natAbs ≤ 100000 →
         t.tim.mode = 1 ∧ t.tim.refLock = true ∧ t.tim.err = markerError s.tim.counter ∧
         t.tim.slew = max (-10000) (min 10000 (-100 * markerError s.tim.counter)) ∧ t.knl = s.knl)) ∧
   (∀ (s : State), s.die ≠ .off → ∀ c ∈ [Instr.refClockAbsent, .markerEdgeMissing], Runs c s fun t =>
     t.tim.refLock = false ∧ t.tim.markLock = false ∧ t.tim.goodEdges = 0 ∧ t.tim.mode = (if s.tim.parent.isSome then 2 else 0) ∧
     t.tim.counter = s.tim.counter ∧ t.tim.marks = s.tim.marks ∧
     (s.tim.refLock = true → ∃ detail, OnItsWay t 0x0C0A0001 .event detail s.sys.drill) ∧ (s.tim.refLock = false → t.knl = s.knl)) ∧
   (∀ (s : State) (interval : Nat) (e : BitVec 48), s.die ≠ .off → s.tim.epochPending = some (s.tim.marks + 1, e) →
     s.tim.forceLead = true → ((interval : Int) - 1000000).natAbs ≤ 50 →
     (s.tim.valid = false → Runs (.frameMarkerEdge interval) s fun t => t.tim.valid = true ∧ t.tim.counter = e ∧ t.tim.frac = 0 ∧
       t.tim.epochPending = none ∧ t.knl = s.knl) ∧
     (s.tim.valid = true → Runs (.frameMarkerEdge interval) s fun t => t.tim.valid = true ∧ t.tim.counter = s.tim.counter ∧
       t.tim.epochPending = none ∧ (s.tim.counter ≠ e → ∃ detail, OnItsWay t 0x0C0A0003 .event detail s.sys.drill))) ∧
   (∀ (s : State), s.die ≠ .off → s.tim.counter = 0xFFFFFFFFFFFF → Runs .timeCounterWrap s fun t =>
     t = { s with tim := { s.tim with counter := 0 } })) ∧
  ((∀ (s : State) (heard : List (Fin 8 × BitVec 24 × BitVec 8)), s.die ≠ .off →
     let hs := heard.filter fun h => inRack s h.1
     let src := hs.foldl (fun a h => min a h.2.1.toNat) (ownId s)
     Runs (.timeAdvert heard) s fun t =>
       (src = ownId s → t.tim.parent = none ∧ t.tim.source.toNat = ownId s ∧ t.tim.hops = 0) ∧
       (src ≠ ownId s → ∃ h ∈ hs, t.tim.parent = some h.1.val ∧ h.2.1.toNat = src ∧ t.tim.source = h.2.1 ∧
         t.tim.hops.toNat = min 255 (h.2.2.toNat + 1) ∧ t.tim.isSource = false ∧
         ∀ g ∈ hs, g.2.1.toNat = src → h.2.2.toNat < g.2.2.toNat ∨ (h.2.2.toNat = g.2.2.toNat ∧ h.1.val ≤ g.1.val)) ∧
       (s.tim.valid = true → ∀ i, i < 8 → inRack s i = true → Queued t i (.timeAdvert t.tim.source t.tim.hops)) ∧
       t.tim.counter = s.tim.counter ∧ t.tim.valid = s.tim.valid ∧ t.mem = s.mem) ∧
   (∀ (s : State) (p : Nat) (t1 t2 t3 t4 : BitVec 48), s.die ≠ .off → s.tim.parent = some p → inRack s p = true →
     let th := diff48 t2 t1 - diff48 t4 t3
     let exchange := fun i => Instr.timeExchange (.child t1 t2 t3 t4 i)
     (∀ i, Runs (exchange i) s fun t => Queued t p .timeRequest) ∧
     (s.tim.mode = 2 → s.tim.valid = false → Runs (exchange true) s fun t => t.tim.valid = true ∧
       t.tim.counter = t4 + BitVec.ofInt 48 (th / 2) ∧ t.tim.frac = (if th % 2 = 0 then 0 else 0x80000000)) ∧
     (s.tim.mode = 2 → ∀ i, Runs (exchange i) s fun t => t.tim.slew = max (-10000) (min 10000 (50 * th)) ∧ t.tim.offsetRun = 0 ∧
       (th % 2 = 0 → t.tim.err = -(th / 2)) ∧ (s.tim.valid = true ∨ i = false → t.tim.counter = s.tim.counter)) ∧
     (s.tim.mode ≠ 2 → ∀ i,
       (th.natAbs ≤ 2000 → Runs (exchange i) s fun t => t = { s with tim := { s.tim with offsetRun := 0 }, lead := t.lead }) ∧
       (2000 < th.natAbs → s.tim.offsetRun = 15 → Runs (exchange i) s fun t => t.tim.offsetRun = 0 ∧
         ∃ detail, OnItsWay t 0x0C0A0004 .event detail s.sys.drill) ∧
       (2000 < th.natAbs → s.tim.offsetRun ≠ 15 → Runs (exchange i) s fun t =>
         t = { s with tim := { s.tim with offsetRun := s.tim.offsetRun + 1 }, lead := t.lead }))) ∧
   (∀ (s : State) (l : Fin 8), s.die ≠ .off →
     (inRack s l = true → Runs (.timeExchange (.parent l)) s fun t =>
       Queued t l (.timeReply s.tim.counter s.tim.counter s.tim.valid) ∧ t = { s with lead := t.lead }) ∧
     (inRack s l = false → exec (.timeExchange (.parent l)) s = .next s)))

/-- (1) R292, R296, R300, R301, R310, R311, R314: what an HBM access meets. An access that reads well on the second try is corrected; one
that does not ends the job, and the instruction that read it never completes; a second one within 1 s loses the channel. A
channel that needs a retrain is held for it, and is lost at the fourth within 10 s or where it fails. A lost channel is not
live, degrades the device and discards a held program.

(2) R501 to R503, R511, R512: a drill of the enabled kind whose turn it is begins where no fault is being handled, an hour has passed
since the last and it can be injected: DRILL, its record and its count; a period that ends without one counts a skip. -/
def Obligations.MemoriesAndDrills : Prop :=
  (∀ (s : State) (stack : Fin 8) (pc : Fin 32) (page : BitVec 32) (n : Fin 43), s.die = .serving → pcLive s (pcId stack pc) = true →
     s.snp.drillActive = none →
     let i := pcId stack pc
     let killed := fun t : State => (∀ m, m ≠ n.val → strand t m = strand s m) ∧
       strand t n = (if (strand s n).inflight = [] then strand s n else { strand s n with st := 8, dead := true })
     let check := checkDetail s i page.toNat
     (recent s 1000000 (sgetD s.mem.pcUncorr i []) = [] → (recent s 1000 (sgetD s.mem.pcTimes i [])).length < 15 →
       (Runs (.hbmEccReread stack pc page n true) s fun t => t.mem.cntCorr = satAdd32 s.mem.cntCorr 1 ∧ t.mem.hbm = s.mem.hbm ∧
         t.str = s.str ∧ pcLive t i = true)) ∧
     (recent s 1000000 (sgetD s.mem.pcUncorr i []) = [] →
       (Runs (.hbmEccReread stack pc page n false) s fun t =>
         OnItsWay t 0x06060002 .jobEnding (natLE 4 i ++ natLE 4 page.toNat) s.sys.drill ∧ t.mem.hbm = s.mem.hbm ∧ killed t)) ∧
     (recent s 1000000 (sgetD s.mem.pcUncorr i []) ≠ [] → Runs (.hbmEccReread stack pc page n false) s fun t =>
       pcLive t i = false ∧ t.mem.hbm = s.mem.hbm) ∧
     (Runs (.checkValueReread stack pc page n true) s fun t => t.mem.cntCheck = satAdd32 s.mem.cntCheck 1 ∧ t.mem.hbm = s.mem.hbm ∧
       OnItsWay t 0x03060001 .absorbed check s.sys.drill ∧ t.str = s.str) ∧
     (Runs (.checkValueReread stack pc page n false) s fun t => t.mem.cntCheck = satAdd32 s.mem.cntCheck 1 ∧ t.mem.hbm = s.mem.hbm ∧
       OnItsWay t 0x03060002 .jobEnding check s.sys.drill ∧ killed t) ∧
     ((stack, pc) ∉ s.mem.retraining → RetrainsLeft s i → Runs (.pcRetrain stack pc) s fun t =>
       t.mem.retraining = s.mem.retraining ++ [(stack, pc)] ∧ t.mem.cntRetrain = satAdd32 s.mem.cntRetrain 1 ∧
       OnItsWay t 0x06060005 .absorbed (natLE 4 i) s.sys.drill ∧ t.mem.hbm = s.mem.hbm ∧ t.mem.live = s.mem.live) ∧
     ((stack, pc) ∉ s.mem.retraining → ¬ RetrainsLeft s i → Runs (.pcRetrain stack pc) s fun t =>
       pcLive t i = false ∧ t.sys.degraded = true ∧ t.mem.hbm = s.mem.hbm ∧
       (s.sys.st = .holding → t.str.image = none) ∧
       OnItsWay t 0x06060006 (if s.sys.st = .running ∨ s.sys.st = .armed then .jobEnding else .event) [] s.sys.drill) ∧
     ((stack, pc) ∈ s.mem.retraining →
       (Runs (.pcRetrainDone stack pc true) s fun t =>
         t = { s with mem := { s.mem with retraining := s.mem.retraining.filter (· != (stack, pc)) } }) ∧
       (Runs (.pcRetrainDone stack pc false) s fun t => pcLive t i = false ∧ (stack, pc) ∉ t.mem.retraining ∧
         t.sys.degraded = true ∧ t.mem.hbm = s.mem.hbm))) ∧
  ((∀ (s : State) (k : Nat), drillDue s = some k → (k = 2 ∨ k = 3 ∨ k = 6) → drillOk s = true → Runs .drillInject s fun t =>
     t.sys.drill = true ∧ t.sys.st = s.sys.st ∧ t.snp.drillActive = some k ∧ t.snp.drillLast = some k ∧ t.snp.drillTime = s.shp.time ∧
     t.snp.drillKind = BitVec.ofNat 3 k ∧ t.snp.drillValid = true ∧ t.snp.cntDrill = satAdd32 s.snp.cntDrill 1 ∧
     OnItsWay t 0x0E010001 .event [] s.sys.drill ∧ t.mem = s.mem ∧ t.str = s.str) ∧
   (∀ (s : State) (k : Nat), drillDue s = some k → injectable s k = false → exec .drillInject s = .next s) ∧
   (∀ (s : State), drillOk s = true →
     (∀ i lane, drillDue s = some 0 → drillLane s = some (i, lane) → Runs .drillInject s fun t => (leadAt t i).relaning = true ∧
       (leadAt t i).lanes.getLsbD lane = false ∧ OnItsWay t 0x07080002 .absorbed (natLE 4 i ++ natLE 4 lane) true) ∧
     (drillDue s = some 1 → s.die = .serving → drillPcs s ≠ [] → Runs .drillInject s fun t =>
       ∃ p, p ∈ drillPcs s ∧ (p ∈ t.mem.retraining ∨ pcLive t (pcId p.1 p.2) = false)) ∧
     (drillDue s = some 4 → Runs .drillInject s fun t => ∃ x, x ∈ t.knl.missed ∧ ∃ stack, x = (.phy stack, 4)) ∧
     (drillDue s = some 5 → leashIs s .active = true → Runs .drillInject s fun t => t.snp.drillActive = some 5 ∧ t.sys.drill = true)) ∧
   (∀ (s : State), drillDue s = some 7 → drillOk s = true → Runs .drillInject s fun t => t.snp.drillActive = some 7 ∧
     OnItsWay t 0x0E0C0001 .jobEnding [] true) ∧
   (∀ (s : State), drillOk s = false → exec .drillInject s = .next s) ∧
   (∀ (s : State) (k : Nat), drillDue s = some k → running s = true → Runs .drillSkip s fun t =>
     t.snp.cntSkip = satAdd32 s.snp.cntSkip 1 ∧ t.snp.drillLast = some k ∧ OnItsWay t 0x0E0C0002 .count [] s.sys.drill ∧
     t.snp.cntDrill = s.snp.cntDrill ∧ t.sys = s.sys ∧ t.mem = s.mem) ∧
   (∀ (s : State) (k : Nat), drillDue s = some k → s.snp.drillEnable.getLsbD k = true ∧ k < 8))

/-- (1) R514, R516, R611 to R613, R566, R567, R403: standby power starts the Shepherd's clock a second on from what it saved, samples the
straps and boots; the compute die is released once R612's conditions hold, with an image that verifies: BOOT, a new service period,
the lead plan read, and the domains requested; a Kerrin image that is refused in both slots leaves it off.

(2) R7, R290, R329, R531, R561, R573, R614 to R617, R622: the Kerrin firmware serves, with a fresh idle key and challenge; a domain that
reports power-good is on, and one that does not in time asks for a device reset; at the end of HBM training the failed channels
are lost and the overwrite begins; with its three stages complete the device leaves BOOT, to HOLDING or, with no width class or
no channel, to WITHDRAWN; a start-up that does not end in time asks for a device reset. -/
def Obligations.StartUp : Prop :=
  ((∀ (s : State) (pos : BitVec 2) (en : Bool) (images : Vector (Option (BitVec 32)) 5), s.shp.standby = false → s.die = .off →
     Runs (.standbyPowerGood pos en images) s fun t => t.shp.standby = true ∧ t.shp.time = s.shp.saved + 1000000 ∧ t.shp.pos = pos ∧
       t.shp.leashEn = en ∧ t.sec.challenge = (Config.draw s.free).setWidth 128 ∧ t.sec.debug = false ∧ t.die = .off ∧
       (∀ i, i < 4 → (vget t.sec.fw i {}).svn = vget images i none) ∧ t.sec.calSvn = vget images 4 none ∧
       (∀ l, linkAt t l = {}) ∧ t.shp.serving = false ∧
       (t.shp.rom = true ↔ fwOk t 0 false = false ∧ fwOk t 0 true = false) ∧ t.sec.owner = s.sec.owner ∧ t.shp.epoch = s.shp.epoch) ∧
   (∀ (s : State), Releasable s →
     (fwOk s 1 false = true ∨ fwOk s 1 true = true → Runs .computeDieRelease s fun t => t.die = .released ∧ t.sys.st = .boot ∧
       t.sys.degraded = false ∧ t.tet.period = s.tet.period + 1 ∧ t.tet.serial = 0 ∧ t.lead.activeId = s.lead.selfId ∧
       t.lead.planUse = s.lead.plan ∧ t.lead.expectUse = s.lead.expect ∧ t.boot = {} ∧ (∀ l, l < 2 → (linkAt t l).lost = false ∧ (linkAt t l).retry = 0) ∧
       (∀ d, d < 22 → t.shp.requested.getLsbD d = true) ∧
       t.shp.on.getLsbD 48 = true ∧ t.shp.on.getLsbD 49 = true ∧ t.mem = s.mem) ∧
     (fwOk s 1 false = false → fwOk s 1 true = false → Runs .computeDieRelease s fun t => t.die = .off ∧ t.shp.kerrinOk = false ∧
       t.sys = s.sys)) ∧
   (∀ (s : State), ¬ Releasable s → exec .computeDieRelease s = .next s)) ∧
  ((∀ (s : State), s.die = .released → Runs .kerrinFirmwareServing s fun t => t.die = .serving ∧ t.mem.hbm = [] ∧
     t.sec.idleKey = s.free ∧ t.sec.challenge = (Config.draw (s.free + 1)).setWidth 128 ∧
     t.mem.extActive = (s.mem.extRate && s.mem.qualified == 0xFF) ∧
     (s.mem.extRate = true → s.mem.qualified ≠ 0xFF → OnItsWay t 0x06060007 .event [] s.sys.drill) ∧ t.sys = s.sys) ∧
   (∀ (s : State) (d : Fin 50), s.shp.ramping.getLsbD d = true → (d.val < 22 ∨ 29 < d.val) → Runs (.domainPowerGood d) s fun t =>
     t.shp.on.getLsbD d = true ∧ t.shp.requested.getLsbD d = false ∧ (∀ e, e ≠ d.val → t.shp.on.getLsbD e = s.shp.on.getLsbD e) ∧
     t = { s with shp := t.shp, lead := t.lead } ∧ (t.lead.discovering = false → t.lead = s.lead) ∧
     t.lead = { s.lead with lead := t.lead.lead, discovering := t.lead.discovering }) ∧
   (∀ (s : State) (d : Fin 50), s.shp.ramping.getLsbD d = true → 22 ≤ d.val → d.val ≤ 29 → Runs (.domainPowerGood d) s fun t =>
     t.shp.on.getLsbD d = pairNeeded s (d.val - 22) ∧ t.mem = s.mem ∧ t.sys = s.sys) ∧
   (∀ (s : State) (d : Fin 50), s.shp.ramping.getLsbD d = true → s.die ≠ .off → Runs (.domainPgTimeout d) s fun t =>
     OnItsWay t 0x090F0004 (.device true) (natLE 4 d) s.sys.drill ∧ t.sys = s.sys) ∧
   (∀ (s : State), s.sys.st = .boot → s.die = .serving → s.boot.trained = false →
     (livePcs s ≠ 0 → Runs (.hbmTrainingDone []) s fun t => t = 
       { s with boot := { s.boot with trained := true }, str := { s.str with scrub := true } }) ∧
     (∀ st pc, pcLive s (pcId st pc) = true → 1 < livePcs s → Runs (.hbmTrainingDone [(st, pc)]) s fun t =>
       pcLive t (pcId st pc) = false ∧ t.boot.trained = true ∧ t.str.scrub = true ∧ t.sys.degraded = true ∧
       OnItsWay t 0x06060006 .event [] s.sys.drill) ∧
     (livePcs s = 0 → Runs (.hbmTrainingDone []) s fun t => t.boot.noPc = true ∧ OnItsWay t 0x06060008 .event [] s.sys.drill)) ∧
   (∀ (s : State), s.sys.st = .boot → s.die = .serving → s.boot.beadTest = true → s.boot.overwrite = true ∨ s.boot.noPc = true →
     s.lead.discovered = true →
     (s.knl.withdrawn = false → s.frm.noWidth = false → s.boot.noPc = false → Runs .bootExit s fun t => t.sys.st = .holding ∧
       t.sys.degraded = (s.frm.retired.isSome || decide (livePcs s < 256) || s.knl.repTether || s.knl.repLead ||
         !((linkAt s 0).up && (linkAt s 1).up)) ∧ t.sys.replace = t.sys.degraded ∧ t.mem = s.mem ∧ t.str = s.str) ∧
     (s.knl.withdrawn = true ∨ s.frm.noWidth = true ∨ s.boot.noPc = true → Runs .bootExit s fun t => t.sys.st = .withdrawn ∧
       t.sys.replace = true ∧ t.mem = s.mem)) ∧
   (∀ (s : State), s.boot.beadTest = false ∨ s.lead.discovered = false → exec .bootExit s = .next s) ∧
   (∀ (s : State), s.die ≠ .off → s.sys.st = .boot → Runs .startupTimeout s fun t =>
     OnItsWay t 0x05010004 (.device true) [] s.sys.drill ∧ t.sys = s.sys))

/-- R514, R538, R619, R622, R626, R632 to R634: rails and power failure. A power failure is recorded, saves the time and asks for a device
reset; a main rail out of range takes the compute die's power and counts a reset; the loss of standby power leaves MRAM alone. -/
def Obligations.PowerFails : Prop :=
  (∀ (s : State), Releasable s → s.shp.railsLate = false → Runs .railsLate s fun t => t.shp.railsLate = true ∧ t.sys = s.sys ∧
    (s.tly.full = false → ∃ x, t.tly.store = s.tly.store ++ [x] ∧ (s.tly.store.length + 1 ≠ 393088 → x.code = 0x090F0003))) ∧
  (∀ (s : State) (step : BitVec 32), s.shp.standby = true → s.die = .off → Runs (.railOrderFault step) s fun t =>
    t.shp.railFault = true ∧ t.die = .off ∧ t.sys = s.sys) ∧
  (∀ (s : State) (rail mv : BitVec 32),
    (s.die = .off → Runs (.railOutOfRange rail mv) s fun t => t = { s with shp := { s.shp with railFault := false } }) ∧
    (s.die ≠ .off → Runs (.railOutOfRange rail mv) s fun t => t.die = .off ∧ t.mem.hbm = [] ∧ t.str.image = none ∧ t.sec.job = none ∧
      t.tly.buffer = [] ∧ t.sec.owner = s.sec.owner ∧
      (s.shp.pwrFail = false → t.knl.resets = (s.shp.time :: s.knl.resets).take 8) ∧
      (s.shp.pwrFail = true → t.knl.resets = s.knl.resets))) ∧
  (∀ (s : State), s.shp.standby = true → s.shp.pwrFail = false → s.die ≠ .off → Runs .powerFail s fun t => t.shp.pwrFail = true ∧
    t.shp.saved = s.shp.time ∧ OnItsWay t 0x090F0001 (.device false) [] s.sys.drill ∧ t.sys = s.sys ∧ t.mem = s.mem) ∧
  (∀ (s : State), Runs .powerFailRelease s fun t => t = { s with shp := { s.shp with pwrFail := false } }) ∧
  (∀ (s : State), s.shp.standby = true → Runs .vstbyLoss s fun t => t.shp.standby = false ∧ t.die = .off ∧ t.shp.saved = s.shp.time ∧
    t.shp.serving = false ∧ t.shp.pwrFail = false ∧ (∀ l, linkAt t l = {}) ∧ t.sec.debug = false ∧
    (s.die ≠ .off → t.mem.hbm = [] ∧ t.str.image = none ∧ t.tly.buffer = []) ∧ MramKept s t) ∧
  (∀ (s : State), s.shp.standby = true → Runs .shepherdTimeSave s fun t => t = { s with shp := { s.shp with saved := s.shp.time } })

/-- (1) R515, R517 to R524: the leash. A holder toggles, and fences itself when its own output stops; a Shepherd whose peer has lapsed takes
the leash under a higher epoch and broadcasts it; position 0 reclaims it from position 1 by a role request, and position 1
yields to a second holder. A restart stops the output.

(2) R520, R528, R529, R532, R533, R578, R638: the tray bus, telemetry and the thermal trip, which holds the device off until its sensor
has cooled. -/
def Obligations.LeashAndTray : Prop :=
  ((∀ (s : State), s.shp.serving = true → s.shp.leash = .active → drilling s 5 = false →
     (Runs .leashToggle s fun t => t = { s with shp := { s.shp with leashO := !s.shp.leashO, drivers := true } }) ∧
     (Runs .leashSelfFence s fun t => t = { s with shp := { s.shp with drivers := false } }) ∧
     (s.shp.pos = 1 → 2 ≤ s.shp.peerOk → Runs .leashYield s fun t => t.shp.leash = .standby ∧ t.shp.drivers = false ∧
       t.shp.epoch = s.shp.epoch ∧ t.sys = s.sys) ∧
     (s.shp.pos = 1 → Runs .roleRequest s fun t => t = { s with shp := { s.shp with roleRequested := true } }) ∧
     (s.shp.pos = 1 → s.shp.roleRequested = true → Runs .getacccr s fun t =>
       t = { s with shp := { s.shp with leash := .standby, drivers := false, roleRequested := false } })) ∧
   (∀ (s : State), s.shp.serving = true → s.shp.leash = .standby ∨ s.shp.leash = .watch ∨ s.shp.leash = .claiming →
     (max s.shp.epoch.toNat s.shp.epochSeen.toNat = 0xFFFFFFFF → Runs .leashLapse s fun t => t.shp.leash = s.shp.leash ∧
       t.shp.epoch = s.shp.epoch ∧ t.shp.peerOk = 0 ∧ (s.die ≠ .off → OnItsWay t 0x0D0F0006 .event [] s.sys.drill)) ∧
     (max s.shp.epoch.toNat s.shp.epochSeen.toNat < 0xFFFFFFFF → drilling s 5 = false → Runs .leashLapse s fun t => t.shp.leash = .active ∧
       t.shp.peerOk = 0 ∧ (s.die ≠ .off → OnItsWay t 0x0D0F0001 .absorbed [] s.sys.drill) ∧
       t.shp.drivers = true ∧ t.shp.leashO = !s.shp.leashO ∧
       t.shp.epoch.toNat = max s.shp.epoch.toNat s.shp.epochSeen.toNat + 1 ∧ t.shp.broadcast = some (t.shp.epoch, s.shp.pos) ∧
       t.sys = s.sys ∧ t.mem = s.mem)) ∧
   (∀ (s : State), s.shp.serving = false ∨ s.shp.leash = .active ∨ s.shp.leash = .ineligible → Runs .leashLapse s fun t =>
     t = { s with shp := { s.shp with peerOk := 0 } }) ∧
   (∀ (s : State), s.shp.serving = true → s.shp.leash = .watch → 3 ≤ s.shp.peerOk → reclaimDue s = true → Runs .roleRequest s fun t =>
     t = { s with shp := { s.shp with leash := .claiming } }) ∧
   (∀ (s : State), s.shp.serving = true → s.shp.leash = .claiming →
     (max s.shp.epoch.toNat s.shp.epochSeen.toNat < 0xFFFFFFFF → drilling s 5 = false → Runs .getacccr s fun t => t.shp.leash = .active ∧
       t.shp.lastReclaim = some s.shp.time ∧ t.shp.epoch.toNat = max s.shp.epoch.toNat s.shp.epochSeen.toNat + 1 ∧ t.sys = s.sys) ∧
     (Runs .claimTimeout s fun t => t = { s with shp := { s.shp with leash := .watch, peerOk := 0 } })) ∧
   (∀ (s : State) (interval : Nat) (e : BitVec 32), eligible s = true → Runs (.leashPeerEdge interval e) s fun t =>
     t.shp.peerOk = (if 1750 ≤ interval ∧ interval ≤ 2250 then s.shp.peerOk + 1 else 0) ∧
     t.shp.epochSeen.toNat = max s.shp.epochSeen.toNat e.toNat ∧
     t = { s with shp := { s.shp with peerOk := t.shp.peerOk, epochSeen := t.shp.epochSeen } }) ∧
   (∀ (s : State), s.shp.serving = true → Runs .shepherdWatchdog s fun t =>
     t = { s with shp := { s.shp with serving := false, restarting := true, drivers := false } }) ∧
   (∀ (s : State), s.shp.standby = true → s.shp.serving = false → s.shp.rom = false → Runs .shepherdServing s fun t =>
     t.shp.serving = true ∧ t.shp.restarting = false ∧ t.shp.peerOk = 0 ∧ t.shp.drivers = false ∧
     t.shp.leash = (if eligible s = false then .ineligible else if s.shp.pos = 0 then .watch else .standby) ∧ t.sys = s.sys)) ∧
  ((∀ (s : State), s.die ≠ .off → s.shp.serving = true → s.shp.leash = .active →
     (s.shp.stale = false → Runs .actuatorRefused s fun t => t.shp.stale = true ∧ OnItsWay t 0x0D0F0004 .event [] s.sys.drill ∧
       t.sys = s.sys) ∧
     (∀ again, Runs (.trayBusParity again) s fun t => t.shp.busParity = satAdd32 s.shp.busParity 1 ∧
       OnItsWay t 0x0D0F0005 .count [] s.sys.drill ∧ (again = true → OnItsWay t 0x0D0F0005 .event [] s.sys.drill) ∧ t.sys = s.sys) ∧
     (∀ others, Runs (.techPoll true others) s fun t => t = { s with shp := { s.shp with tool := t.shp.tool } } ∧
       t.shp.tool.headD 0 = BitVec.ofNat 32 (b2n s.shp.replace) ∧ t.shp.tool.getD 1 0 = BitVec.ofNat 32 (replaceWord s) ∧
       t.shp.tool.drop 10 = others ∧ ∀ k, k < 8 → t.shp.tool.getD (k + 2) 0 = s.shp.tech.getD k 0) ∧
     ∀ others, exec (.techPoll false others) s = .next s) ∧
   (∀ (s : State) (v : Vector (BitVec 24) 16), s.shp.standby = true → Runs (.telemetrySample v) s fun t =>
     t.shp.sample = s.shp.sample + 1 ∧ (s.sec.telemCoarse = false → ∀ i, i < 15 → vget t.shp.telem i 0 = vget v i 0) ∧
     (s.sec.telemCoarse = true → (∀ i, 4 ≤ i → i < 15 → vget t.shp.telem i 0 = vget v i 0) ∧
       (s.shp.coarseN < 999 → ∀ i, i < 4 → vget t.shp.telem i 0 = vget s.shp.telem i 0)) ∧ vget t.shp.telem 15 0 = 0 ∧
     (s.die ≠ .off → t.knl.temp = BitVec.ofInt 8 ((vget v 3 0).toInt / 10)) ∧ t.mem = s.mem ∧ t.sys = s.sys) ∧
   (∀ (s : State) (k : Fin 9), s.shp.standby = true → s.die ≠ .off → Runs (.thermalTrip k) s fun t => t.shp.thermalHold = some k ∧
     OnItsWay t 0x090F0002 (.device true) (natLE 4 k) s.sys.drill ∧ t.sys = s.sys) ∧
   (∀ (s : State), Runs .thermalRelease s fun t => t = { s with shp := { s.shp with thermalHold := none } }))
end

