-- ==== Sys2Proof/Laws/Memory.lean ====
section
/-!
SUPPORT. The laws of the sparse memories: a read after a write to the same place gives the value written, a write leaves
every other place alone, and every memory operation keeps the canonical form.
-/
namespace Sys2Proof.Machine

/-! ## Sparse maps -/

theorem srising_mono {α : Type} {lo lo' : Nat} (h : lo' ≤ lo) : (m : SMap α) → srising lo m = true → srising lo' m = true
  | [], _ => rfl
  | (k, v) :: rest, hm => by
    simp only [srising, Bool.and_eq_true, decide_eq_true_eq] at hm ⊢
    exact ⟨by omega, hm.2⟩

theorem sget?_of_rising {α : Type} {lo k : Nat} (hk : k < lo) : (m : SMap α) → srising lo m = true → sget? m k = none
  | [], _ => rfl
  | (k', v) :: rest, hm => by
    simp only [srising, Bool.and_eq_true, decide_eq_true_eq] at hm
    have hne : k ≠ k' := by omega
    simp only [sget?, if_neg hne]
    exact sget?_of_rising (by omega) rest hm.2

theorem sget?_sset_same {α : Type} (k : Nat) (v : α) : (m : SMap α) → sget? (sset m k v) k = some v
  | [] => by simp [sset, sget?]
  | (k', v') :: rest => by
    unfold sset
    split
    · simp [sget?]
    · split
      · simp [sget?]
      · rename_i h; simp only [sget?, if_neg h]; exact sget?_sset_same k v rest

theorem sget?_sset_other {α : Type} {k k₂ : Nat} (v : α) (hne : k₂ ≠ k) : (m : SMap α) → sget? (sset m k v) k₂ = sget? m k₂
  | [] => by simp [sset, sget?, hne]
  | (k', v') :: rest => by
    unfold sset
    split
    · simp [sget?, hne]
    · split
      · rename_i h; subst h; simp [sget?, hne]
      · simp only [sget?]; rw [sget?_sset_other v hne rest]

theorem srising_sset {α : Type} {lo k : Nat} (v : α) (hk : lo ≤ k) : (m : SMap α) → srising lo m = true → srising lo (sset m k v) = true
  | [], _ => by simp [sset, srising, hk]
  | (k', v') :: rest, hm => by
    simp only [srising, Bool.and_eq_true, decide_eq_true_eq] at hm
    unfold sset
    split
    · rename_i h
      simp only [srising, Bool.and_eq_true, decide_eq_true_eq]
      exact ⟨hk, by omega, hm.2⟩
    · split
      · rename_i h; subst h
        simp only [srising, Bool.and_eq_true, decide_eq_true_eq]; exact hm
      · simp only [srising, Bool.and_eq_true, decide_eq_true_eq]
        exact ⟨hm.1, srising_sset v (by omega) rest hm.2⟩

theorem sget?_serase_same {α : Type} {lo : Nat} (k : Nat) : (m : SMap α) → srising lo m = true → sget? (serase m k) k = none
  | [], _ => rfl
  | (k', v') :: rest, hm => by
    simp only [srising, Bool.and_eq_true, decide_eq_true_eq] at hm
    unfold serase
    split
    · rename_i h; subst h; exact sget?_of_rising (by omega) rest hm.2
    · rename_i h; simp only [sget?, if_neg h]; exact sget?_serase_same k rest hm.2

theorem sget?_serase_other {α : Type} {k k₂ : Nat} (hne : k₂ ≠ k) : (m : SMap α) → sget? (serase m k) k₂ = sget? m k₂
  | [] => rfl
  | (k', v') :: rest => by
    unfold serase
    split
    · rename_i h; subst h; simp [sget?, hne]
    · simp only [sget?]; rw [sget?_serase_other hne rest]

theorem srising_serase {α : Type} {lo : Nat} (k : Nat) : (m : SMap α) → srising lo m = true → srising lo (serase m k) = true
  | [], _ => rfl
  | (k', v') :: rest, hm => by
    simp only [srising, Bool.and_eq_true, decide_eq_true_eq] at hm
    unfold serase
    split
    · exact srising_mono (by omega) rest hm.2
    · simp only [srising, Bool.and_eq_true, decide_eq_true_eq]
      exact ⟨hm.1, srising_serase k rest hm.2⟩

theorem all_sset {α : Type} {p : Nat × α → Bool} {k : Nat} {v : α} (hv : p (k, v) = true) :
    (m : SMap α) → m.all p = true → (sset m k v).all p = true
  | [], _ => by simp [sset, hv]
  | (k', v') :: rest, hm => by
    simp only [List.all_cons, Bool.and_eq_true] at hm
    unfold sset
    split
    · simp [hv, hm]
    · split
      · simp [hv, hm]
      · simp [hm.1, all_sset hv rest hm.2]

theorem all_serase {α : Type} {p : Nat × α → Bool} (k : Nat) : (m : SMap α) → m.all p = true → (serase m k).all p = true
  | [], _ => rfl
  | (k', v') :: rest, hm => by
    simp only [List.all_cons, Bool.and_eq_true] at hm
    unfold serase
    split
    · exact hm.2
    · simp [hm.1, all_serase k rest hm.2]

/-! ## One byte -/

/-- An empty memory is in canonical form. -/
theorem Mem.wf_nil : Mem.wf [] = true := rfl

/-- Writing a byte keeps the canonical form. -/
theorem mset_wf {m : Mem} (h : m.wf = true) (a : Nat) (b : Byte) : (mset m a b).wf = true := by
  simp only [Mem.wf, Bool.and_eq_true] at h ⊢
  unfold mset ssetD
  split
  · exact ⟨srising_serase a m h.1, all_serase a m h.2⟩
  · rename_i hb
    exact ⟨srising_sset b (Nat.zero_le a) m h.1, all_sset (by simpa using hb) m h.2⟩

/-- A byte reads as it was written. -/
theorem mget_mset_same {m : Mem} (h : m.wf = true) (a : Nat) (b : Byte) : mget (mset m a b) a = b := by
  simp only [Mem.wf, Bool.and_eq_true] at h
  unfold mget mset ssetD sgetD
  split
  · rename_i hb; rw [sget?_serase_same a m h.1, hb]; rfl
  · rw [sget?_sset_same]; rfl

/-- A write leaves every other byte alone. -/
theorem mget_mset_other {m : Mem} {a a' : Nat} (b : Byte) (hne : a' ≠ a) : mget (mset m a b) a' = mget m a' := by
  unfold mget mset ssetD sgetD
  split
  · rw [sget?_serase_other hne]
  · rw [sget?_sset_other b hne]

/-! ## Byte strings -/

/-- Writing a byte string keeps the canonical form. -/
theorem mwrite_wf : (bs : Bytes) → {m : Mem} → m.wf = true → (a : Nat) → (mwrite m a bs).wf = true
  | [], _, h, _ => h
  | b :: bs, _, h, a => mwrite_wf bs (mset_wf h a b) (a + 1)

/-- A byte string leaves the bytes outside it alone. -/
theorem mget_mwrite_outside : (bs : Bytes) → (m : Mem) → (a x : Nat) → (x < a ∨ a + bs.length ≤ x) →
    mget (mwrite m a bs) x = mget m x
  | [], _, _, _, _ => rfl
  | b :: bs, m, a, x, h => by
    simp only [List.length_cons] at h
    rw [mwrite, mget_mwrite_outside bs _ (a + 1) x (by omega), mget_mset_other b (by omega)]

/-- A byte of a written byte string reads as it was written. -/
theorem mget_mwrite_inside : (bs : Bytes) → {m : Mem} → m.wf = true → (a i : Nat) → (hi : i < bs.length) →
    mget (mwrite m a bs) (a + i) = bs[i]
  | [], _, _, _, _, hi => absurd hi (by simp)
  | b :: bs, m, h, a, 0, _ => by
    rw [mwrite, show a + 0 = a from rfl, mget_mwrite_outside bs _ (a + 1) a (by omega), mget_mset_same h]; rfl
  | b :: bs, m, h, a, i + 1, hi => by
    have := mget_mwrite_inside bs (mset_wf h a b) (a + 1) i (by simpa using hi)
    rw [mwrite, show a + (i + 1) = a + 1 + i by omega, this]; rfl

theorem mread_length (m : Mem) : (n a : Nat) → (mread m a n).length = n
  | 0, _ => rfl
  | n + 1, a => by simp [mread, mread_length m n (a + 1)]

/-- Two memories that agree on a range read alike there. -/
theorem mread_congr {m m' : Mem} : (n a : Nat) → (∀ x, a ≤ x → x < a + n → mget m x = mget m' x) → mread m a n = mread m' a n
  | 0, _, _ => rfl
  | n + 1, a, h => by
    simp only [mread]
    rw [h a (by omega) (by omega), mread_congr n (a + 1) fun x h1 h2 => h x (by omega) (by omega)]

/-- A byte string reads as it was written. -/
theorem mread_mwrite : (bs : Bytes) → {m : Mem} → m.wf = true → (a : Nat) → mread (mwrite m a bs) a bs.length = bs
  | [], _, _, _ => rfl
  | b :: bs, m, h, a => by
    simp only [List.length_cons, mread]
    have h0 := mget_mwrite_inside (b :: bs) h a 0 (by simp)
    rw [Nat.add_zero] at h0
    rw [h0, mwrite, mread_mwrite bs (mset_wf h a b) (a + 1)]
    rfl

/-! ## Numbers -/

theorem natLE_length : (k x : Nat) → (natLE k x).length = k
  | 0, _ => rfl
  | k + 1, x => by simp [natLE, natLE_length k]

theorem leNat_natLE : (k x : Nat) → leNat (natLE k x) = x % 256 ^ k
  | 0, x => by simp [natLE, leNat, Nat.mod_one]
  | k + 1, x => by
    have h8 : (2 : Nat) ^ 8 = 256 := rfl
    rw [natLE, leNat, leNat_natLE k, BitVec.toNat_ofNat, h8, Nat.pow_succ', Nat.mod_mul]

theorem leNat_lt : (bs : Bytes) → leNat bs < 256 ^ bs.length
  | [] => by simp [leNat]
  | b :: bs => by
    have := leNat_lt bs
    have hb : b.toNat < 256 := b.isLt
    simp only [leNat, List.length_cons, Nat.pow_succ]
    omega

/-- A number of k bytes is below 256^k. -/
theorem mnat_lt (m : Mem) (a k : Nat) : mnat m a k < 256 ^ k := by
  have := leNat_lt (mread m a k)
  rwa [mread_length] at this

theorem mnat_congr {m m' : Mem} {a k : Nat} (h : ∀ x, a ≤ x → x < a + k → mget m x = mget m' x) : mnat m a k = mnat m' a k := by
  unfold mnat; rw [mread_congr k a h]

/-! ## Vectors -/

theorem vecBytes_length (k : Nat) : (xs : List Nat) → (xs.flatMap (natLE k)).length = k * xs.length
  | [] => by simp
  | x :: xs => by
    simp only [List.flatMap_cons, List.length_append, natLE_length, vecBytes_length k xs, List.length_cons, Nat.mul_succ]; omega

/-- Writing a vector keeps the canonical form. -/
theorem vecWrite_wf {m : Mem} (h : m.wf = true) (a k : Nat) (xs : List Nat) : (vecWrite m a k xs).wf = true := mwrite_wf _ h a

/-- A vector leaves the bytes outside it alone. -/
theorem mget_vecWrite_outside (m : Mem) (a k : Nat) (xs : List Nat) (x : Nat) (h : x < a ∨ a + k * xs.length ≤ x) :
    mget (vecWrite m a k xs) x = mget m x := by
  apply mget_mwrite_outside; rw [vecBytes_length]; exact h

theorem mwrite_append : (bs cs : Bytes) → (m : Mem) → (a : Nat) → mwrite m a (bs ++ cs) = mwrite (mwrite m a bs) (a + bs.length) cs
  | [], _, _, _ => rfl
  | b :: bs, cs, m, a => by
    simp only [List.cons_append, mwrite, List.length_cons]
    rw [mwrite_append bs cs, show a + 1 + bs.length = a + (bs.length + 1) by omega]

/-- Element i of a vector reads as it was written. -/
theorem mnat_vecWrite {m : Mem} (k : Nat) : (xs : List Nat) → m.wf = true → (a i : Nat) → (hi : i < xs.length) →
    mnat (vecWrite m a k xs) (a + k * i) k = xs[i] % 256 ^ k
  | [], _, _, _, hi => absurd hi (by simp)
  | x :: xs, h, a, 0, _ => by
    have hrest : mnat (vecWrite m a k (x :: xs)) (a + k * 0) k = mnat (mwrite m a (natLE k x)) a k := by
      unfold vecWrite
      rw [List.flatMap_cons, mwrite_append, natLE_length, Nat.mul_zero, Nat.add_zero]
      apply mnat_congr
      intro y h1 h2
      exact mget_mwrite_outside _ _ _ _ (by omega)
    rw [hrest]
    unfold mnat
    have hr := mread_mwrite (natLE k x) h a
    rw [natLE_length] at hr
    rw [hr, leNat_natLE]
    rfl
  | x :: xs, h, a, i + 1, hi => by
    have hstep : vecWrite m a k (x :: xs) = vecWrite (mwrite m a (natLE k x)) (a + k) k xs := by
      unfold vecWrite; rw [List.flatMap_cons, mwrite_append, natLE_length]
    have := mnat_vecWrite k xs (mwrite_wf (natLE k x) h a) (a + k) i (by simpa using hi)
    rw [hstep, show a + k * (i + 1) = a + k + k * i by rw [Nat.mul_succ]; omega, this]
    rfl

theorem vecRead_length (m : Mem) (a k n : Nat) : (vecRead m a k n).length = n := by simp [vecRead]

theorem vecRead_getElem (m : Mem) (a k n i : Nat) (hi : i < (vecRead m a k n).length) :
    (vecRead m a k n)[i] = mnat m (a + k * i) k := by simp [vecRead]

/-! ## The memories of the machine -/

theorem vget_vset_same {α : Type} {n : Nat} (v : Vector α n) {i : Nat} (h : i < n) (x d : α) : vget (vset v i x) i d = x := by
  simp [vget, vset, List.getD_eq_getElem?_getD, Vector.toList_setIfInBounds, h]

theorem vget_vset_other {α : Type} {n : Nat} (v : Vector α n) {i j : Nat} (h : j ≠ i) (x d : α) :
    vget (vset v i x) j d = vget v j d := by
  simp [vget, vset, List.getD_eq_getElem?_getD, Vector.toList_setIfInBounds, Ne.symm h]

theorem lmem_setLmem_same (s : State) {c : Nat} (h : c < 16) (m : Mem) : lmem (setLmem s c m) c = m := vget_vset_same _ h _ _

theorem lmem_setLmem_other (s : State) {c c' : Nat} (h : c' ≠ c) (m : Mem) : lmem (setLmem s c m) c' = lmem s c' :=
  vget_vset_other _ h _ _

end Sys2Proof.Machine
end

