-- ==== Sys2Proof/Laws/State.lean ====
section
/-!
SUPPORT. What each update of State leaves alone: one lemma a field an update, each true by rfl, so that no proof unfolds a
record update.
-/
namespace Sys2Proof.Machine

@[simp] theorem setLmem_sys (s : State) (c : Nat) (m : Mem) : (setLmem s c m).sys = s.sys := rfl
@[simp] theorem setLmem_die (s : State) (c : Nat) (m : Mem) : (setLmem s c m).die = s.die := rfl
@[simp] theorem setLmem_knl (s : State) (c : Nat) (m : Mem) : (setLmem s c m).knl = s.knl := rfl
@[simp] theorem setLmem_frm (s : State) (c : Nat) (m : Mem) : (setLmem s c m).frm = s.frm := rfl
@[simp] theorem setLmem_edg (s : State) (c : Nat) (m : Mem) : (setLmem s c m).edg = s.edg := rfl
@[simp] theorem setLmem_str (s : State) (c : Nat) (m : Mem) : (setLmem s c m).str = s.str := rfl
@[simp] theorem setLmem_ld (s : State) (c : Nat) (m : Mem) : (setLmem s c m).ld = s.ld := rfl
@[simp] theorem setLmem_mem (s : State) (c : Nat) (m : Mem) : (setLmem s c m).mem = s.mem := rfl
@[simp] theorem setLmem_brd (s : State) (c : Nat) (m : Mem) : (setLmem s c m).brd = s.brd := rfl
@[simp] theorem setLmem_lead (s : State) (c : Nat) (m : Mem) : (setLmem s c m).lead = s.lead := rfl
@[simp] theorem setLmem_col (s : State) (c : Nat) (m : Mem) : (setLmem s c m).col = s.col := rfl
@[simp] theorem setLmem_tim (s : State) (c : Nat) (m : Mem) : (setLmem s c m).tim = s.tim := rfl
@[simp] theorem setLmem_tet (s : State) (c : Nat) (m : Mem) : (setLmem s c m).tet = s.tet := rfl
@[simp] theorem setLmem_snp (s : State) (c : Nat) (m : Mem) : (setLmem s c m).snp = s.snp := rfl
@[simp] theorem setLmem_gov (s : State) (c : Nat) (m : Mem) : (setLmem s c m).gov = s.gov := rfl
@[simp] theorem setLmem_sec (s : State) (c : Nat) (m : Mem) : (setLmem s c m).sec = s.sec := rfl
@[simp] theorem setLmem_shp (s : State) (c : Nat) (m : Mem) : (setLmem s c m).shp = s.shp := rfl
@[simp] theorem setLmem_tly (s : State) (c : Nat) (m : Mem) : (setLmem s c m).tly = s.tly := rfl
@[simp] theorem setLmem_boot (s : State) (c : Nat) (m : Mem) : (setLmem s c m).boot = s.boot := rfl
@[simp] theorem setLmem_free (s : State) (c : Nat) (m : Mem) : (setLmem s c m).free = s.free := rfl
@[simp] theorem setLmem_pending (s : State) (c : Nat) (m : Mem) : (setLmem s c m).pending = s.pending := rfl

@[simp] theorem boardWrite_sys (s : State) (a : Nat) (b : Bytes) : (boardWrite s a b).sys = s.sys := rfl
@[simp] theorem boardWrite_die (s : State) (a : Nat) (b : Bytes) : (boardWrite s a b).die = s.die := rfl
@[simp] theorem boardWrite_knl (s : State) (a : Nat) (b : Bytes) : (boardWrite s a b).knl = s.knl := rfl
@[simp] theorem boardWrite_frm (s : State) (a : Nat) (b : Bytes) : (boardWrite s a b).frm = s.frm := rfl
@[simp] theorem boardWrite_edg (s : State) (a : Nat) (b : Bytes) : (boardWrite s a b).edg = s.edg := rfl
@[simp] theorem boardWrite_rod (s : State) (a : Nat) (b : Bytes) : (boardWrite s a b).rod = s.rod := rfl
@[simp] theorem boardWrite_str (s : State) (a : Nat) (b : Bytes) : (boardWrite s a b).str = s.str := rfl
@[simp] theorem boardWrite_ld (s : State) (a : Nat) (b : Bytes) : (boardWrite s a b).ld = s.ld := rfl
@[simp] theorem boardWrite_mem (s : State) (a : Nat) (b : Bytes) : (boardWrite s a b).mem = s.mem := rfl
@[simp] theorem boardWrite_lead (s : State) (a : Nat) (b : Bytes) : (boardWrite s a b).lead = s.lead := rfl
@[simp] theorem boardWrite_col (s : State) (a : Nat) (b : Bytes) : (boardWrite s a b).col = s.col := rfl
@[simp] theorem boardWrite_tim (s : State) (a : Nat) (b : Bytes) : (boardWrite s a b).tim = s.tim := rfl
@[simp] theorem boardWrite_tet (s : State) (a : Nat) (b : Bytes) : (boardWrite s a b).tet = s.tet := rfl
@[simp] theorem boardWrite_snp (s : State) (a : Nat) (b : Bytes) : (boardWrite s a b).snp = s.snp := rfl
@[simp] theorem boardWrite_gov (s : State) (a : Nat) (b : Bytes) : (boardWrite s a b).gov = s.gov := rfl
@[simp] theorem boardWrite_sec (s : State) (a : Nat) (b : Bytes) : (boardWrite s a b).sec = s.sec := rfl
@[simp] theorem boardWrite_shp (s : State) (a : Nat) (b : Bytes) : (boardWrite s a b).shp = s.shp := rfl
@[simp] theorem boardWrite_tly (s : State) (a : Nat) (b : Bytes) : (boardWrite s a b).tly = s.tly := rfl
@[simp] theorem boardWrite_boot (s : State) (a : Nat) (b : Bytes) : (boardWrite s a b).boot = s.boot := rfl
@[simp] theorem boardWrite_free (s : State) (a : Nat) (b : Bytes) : (boardWrite s a b).free = s.free := rfl
@[simp] theorem boardWrite_pending (s : State) (a : Nat) (b : Bytes) : (boardWrite s a b).pending = s.pending := rfl

@[simp] theorem jobWrite_sys (s : State) (a : Nat) (b : Bytes) : (jobWrite s a b).sys = s.sys := rfl
@[simp] theorem jobWrite_die (s : State) (a : Nat) (b : Bytes) : (jobWrite s a b).die = s.die := rfl
@[simp] theorem jobWrite_knl (s : State) (a : Nat) (b : Bytes) : (jobWrite s a b).knl = s.knl := rfl
@[simp] theorem jobWrite_frm (s : State) (a : Nat) (b : Bytes) : (jobWrite s a b).frm = s.frm := rfl
@[simp] theorem jobWrite_edg (s : State) (a : Nat) (b : Bytes) : (jobWrite s a b).edg = s.edg := rfl
@[simp] theorem jobWrite_rod (s : State) (a : Nat) (b : Bytes) : (jobWrite s a b).rod = s.rod := rfl
@[simp] theorem jobWrite_str (s : State) (a : Nat) (b : Bytes) : (jobWrite s a b).str = s.str := rfl
@[simp] theorem jobWrite_ld (s : State) (a : Nat) (b : Bytes) : (jobWrite s a b).ld = s.ld := rfl
@[simp] theorem jobWrite_brd (s : State) (a : Nat) (b : Bytes) : (jobWrite s a b).brd = s.brd := rfl
@[simp] theorem jobWrite_lead (s : State) (a : Nat) (b : Bytes) : (jobWrite s a b).lead = s.lead := rfl
@[simp] theorem jobWrite_col (s : State) (a : Nat) (b : Bytes) : (jobWrite s a b).col = s.col := rfl
@[simp] theorem jobWrite_tim (s : State) (a : Nat) (b : Bytes) : (jobWrite s a b).tim = s.tim := rfl
@[simp] theorem jobWrite_tet (s : State) (a : Nat) (b : Bytes) : (jobWrite s a b).tet = s.tet := rfl
@[simp] theorem jobWrite_snp (s : State) (a : Nat) (b : Bytes) : (jobWrite s a b).snp = s.snp := rfl
@[simp] theorem jobWrite_gov (s : State) (a : Nat) (b : Bytes) : (jobWrite s a b).gov = s.gov := rfl
@[simp] theorem jobWrite_sec (s : State) (a : Nat) (b : Bytes) : (jobWrite s a b).sec = s.sec := rfl
@[simp] theorem jobWrite_shp (s : State) (a : Nat) (b : Bytes) : (jobWrite s a b).shp = s.shp := rfl
@[simp] theorem jobWrite_tly (s : State) (a : Nat) (b : Bytes) : (jobWrite s a b).tly = s.tly := rfl
@[simp] theorem jobWrite_boot (s : State) (a : Nat) (b : Bytes) : (jobWrite s a b).boot = s.boot := rfl
@[simp] theorem jobWrite_free (s : State) (a : Nat) (b : Bytes) : (jobWrite s a b).free = s.free := rfl
@[simp] theorem jobWrite_pending (s : State) (a : Nat) (b : Bytes) : (jobWrite s a b).pending = s.pending := rfl

@[simp] theorem setStrips_sys (s : State) (m : BitVec 16) : (setStrips s m).sys = s.sys := rfl
@[simp] theorem setStrips_die (s : State) (m : BitVec 16) : (setStrips s m).die = s.die := rfl
@[simp] theorem setStrips_knl (s : State) (m : BitVec 16) : (setStrips s m).knl = s.knl := rfl
@[simp] theorem setStrips_frm (s : State) (m : BitVec 16) : (setStrips s m).frm = s.frm := rfl
@[simp] theorem setStrips_edg (s : State) (m : BitVec 16) : (setStrips s m).edg = s.edg := rfl
@[simp] theorem setStrips_rod (s : State) (m : BitVec 16) : (setStrips s m).rod = s.rod := rfl
@[simp] theorem setStrips_str (s : State) (m : BitVec 16) : (setStrips s m).str = s.str := rfl
@[simp] theorem setStrips_ld (s : State) (m : BitVec 16) : (setStrips s m).ld = s.ld := rfl
@[simp] theorem setStrips_mem (s : State) (m : BitVec 16) : (setStrips s m).mem = s.mem := rfl
@[simp] theorem setStrips_brd (s : State) (m : BitVec 16) : (setStrips s m).brd = s.brd := rfl
@[simp] theorem setStrips_lead (s : State) (m : BitVec 16) : (setStrips s m).lead = s.lead := rfl
@[simp] theorem setStrips_col (s : State) (m : BitVec 16) : (setStrips s m).col = s.col := rfl
@[simp] theorem setStrips_tim (s : State) (m : BitVec 16) : (setStrips s m).tim = s.tim := rfl
@[simp] theorem setStrips_tet (s : State) (m : BitVec 16) : (setStrips s m).tet = s.tet := rfl
@[simp] theorem setStrips_snp (s : State) (m : BitVec 16) : (setStrips s m).snp = s.snp := rfl
@[simp] theorem setStrips_gov (s : State) (m : BitVec 16) : (setStrips s m).gov = s.gov := rfl
@[simp] theorem setStrips_sec (s : State) (m : BitVec 16) : (setStrips s m).sec = s.sec := rfl
@[simp] theorem setStrips_tly (s : State) (m : BitVec 16) : (setStrips s m).tly = s.tly := rfl
@[simp] theorem setStrips_boot (s : State) (m : BitVec 16) : (setStrips s m).boot = s.boot := rfl
@[simp] theorem setStrips_free (s : State) (m : BitVec 16) : (setStrips s m).free = s.free := rfl
@[simp] theorem setStrips_pending (s : State) (m : BitVec 16) : (setStrips s m).pending = s.pending := rfl

@[simp] theorem setStrand_sys (s : State) (n : Nat) (x : Strand) : (setStrand s n x).sys = s.sys := rfl
@[simp] theorem setStrand_die (s : State) (n : Nat) (x : Strand) : (setStrand s n x).die = s.die := rfl
@[simp] theorem setStrand_knl (s : State) (n : Nat) (x : Strand) : (setStrand s n x).knl = s.knl := rfl
@[simp] theorem setStrand_frm (s : State) (n : Nat) (x : Strand) : (setStrand s n x).frm = s.frm := rfl
@[simp] theorem setStrand_edg (s : State) (n : Nat) (x : Strand) : (setStrand s n x).edg = s.edg := rfl
@[simp] theorem setStrand_rod (s : State) (n : Nat) (x : Strand) : (setStrand s n x).rod = s.rod := rfl
@[simp] theorem setStrand_ld (s : State) (n : Nat) (x : Strand) : (setStrand s n x).ld = s.ld := rfl
@[simp] theorem setStrand_mem (s : State) (n : Nat) (x : Strand) : (setStrand s n x).mem = s.mem := rfl
@[simp] theorem setStrand_brd (s : State) (n : Nat) (x : Strand) : (setStrand s n x).brd = s.brd := rfl
@[simp] theorem setStrand_lead (s : State) (n : Nat) (x : Strand) : (setStrand s n x).lead = s.lead := rfl
@[simp] theorem setStrand_col (s : State) (n : Nat) (x : Strand) : (setStrand s n x).col = s.col := rfl
@[simp] theorem setStrand_tim (s : State) (n : Nat) (x : Strand) : (setStrand s n x).tim = s.tim := rfl
@[simp] theorem setStrand_tet (s : State) (n : Nat) (x : Strand) : (setStrand s n x).tet = s.tet := rfl
@[simp] theorem setStrand_snp (s : State) (n : Nat) (x : Strand) : (setStrand s n x).snp = s.snp := rfl
@[simp] theorem setStrand_gov (s : State) (n : Nat) (x : Strand) : (setStrand s n x).gov = s.gov := rfl
@[simp] theorem setStrand_sec (s : State) (n : Nat) (x : Strand) : (setStrand s n x).sec = s.sec := rfl
@[simp] theorem setStrand_shp (s : State) (n : Nat) (x : Strand) : (setStrand s n x).shp = s.shp := rfl
@[simp] theorem setStrand_tly (s : State) (n : Nat) (x : Strand) : (setStrand s n x).tly = s.tly := rfl
@[simp] theorem setStrand_boot (s : State) (n : Nat) (x : Strand) : (setStrand s n x).boot = s.boot := rfl
@[simp] theorem setStrand_free (s : State) (n : Nat) (x : Strand) : (setStrand s n x).free = s.free := rfl
@[simp] theorem setStrand_pending (s : State) (n : Nat) (x : Strand) : (setStrand s n x).pending = s.pending := rfl

@[simp] theorem setStrandSt_sys (s : State) (n : Nat) (st : BitVec 4) : (setStrandSt s n st).sys = s.sys := rfl
@[simp] theorem setStrandSt_die (s : State) (n : Nat) (st : BitVec 4) : (setStrandSt s n st).die = s.die := rfl
@[simp] theorem setStrandSt_knl (s : State) (n : Nat) (st : BitVec 4) : (setStrandSt s n st).knl = s.knl := rfl
@[simp] theorem setStrandSt_frm (s : State) (n : Nat) (st : BitVec 4) : (setStrandSt s n st).frm = s.frm := rfl
@[simp] theorem setStrandSt_edg (s : State) (n : Nat) (st : BitVec 4) : (setStrandSt s n st).edg = s.edg := rfl
@[simp] theorem setStrandSt_rod (s : State) (n : Nat) (st : BitVec 4) : (setStrandSt s n st).rod = s.rod := rfl
@[simp] theorem setStrandSt_ld (s : State) (n : Nat) (st : BitVec 4) : (setStrandSt s n st).ld = s.ld := rfl
@[simp] theorem setStrandSt_mem (s : State) (n : Nat) (st : BitVec 4) : (setStrandSt s n st).mem = s.mem := rfl
@[simp] theorem setStrandSt_brd (s : State) (n : Nat) (st : BitVec 4) : (setStrandSt s n st).brd = s.brd := rfl
@[simp] theorem setStrandSt_lead (s : State) (n : Nat) (st : BitVec 4) : (setStrandSt s n st).lead = s.lead := rfl
@[simp] theorem setStrandSt_col (s : State) (n : Nat) (st : BitVec 4) : (setStrandSt s n st).col = s.col := rfl
@[simp] theorem setStrandSt_tim (s : State) (n : Nat) (st : BitVec 4) : (setStrandSt s n st).tim = s.tim := rfl
@[simp] theorem setStrandSt_tet (s : State) (n : Nat) (st : BitVec 4) : (setStrandSt s n st).tet = s.tet := rfl
@[simp] theorem setStrandSt_snp (s : State) (n : Nat) (st : BitVec 4) : (setStrandSt s n st).snp = s.snp := rfl
@[simp] theorem setStrandSt_gov (s : State) (n : Nat) (st : BitVec 4) : (setStrandSt s n st).gov = s.gov := rfl
@[simp] theorem setStrandSt_sec (s : State) (n : Nat) (st : BitVec 4) : (setStrandSt s n st).sec = s.sec := rfl
@[simp] theorem setStrandSt_shp (s : State) (n : Nat) (st : BitVec 4) : (setStrandSt s n st).shp = s.shp := rfl
@[simp] theorem setStrandSt_tly (s : State) (n : Nat) (st : BitVec 4) : (setStrandSt s n st).tly = s.tly := rfl
@[simp] theorem setStrandSt_boot (s : State) (n : Nat) (st : BitVec 4) : (setStrandSt s n st).boot = s.boot := rfl
@[simp] theorem setStrandSt_free (s : State) (n : Nat) (st : BitVec 4) : (setStrandSt s n st).free = s.free := rfl
@[simp] theorem setStrandSt_pending (s : State) (n : Nat) (st : BitVec 4) : (setStrandSt s n st).pending = s.pending := rfl

@[simp] theorem stopStrand_sys (s : State) (n : Nat) : (stopStrand s n).sys = s.sys := rfl
@[simp] theorem stopStrand_die (s : State) (n : Nat) : (stopStrand s n).die = s.die := rfl
@[simp] theorem stopStrand_knl (s : State) (n : Nat) : (stopStrand s n).knl = s.knl := rfl
@[simp] theorem stopStrand_frm (s : State) (n : Nat) : (stopStrand s n).frm = s.frm := rfl
@[simp] theorem stopStrand_edg (s : State) (n : Nat) : (stopStrand s n).edg = s.edg := rfl
@[simp] theorem stopStrand_rod (s : State) (n : Nat) : (stopStrand s n).rod = s.rod := rfl
@[simp] theorem stopStrand_ld (s : State) (n : Nat) : (stopStrand s n).ld = s.ld := rfl
@[simp] theorem stopStrand_mem (s : State) (n : Nat) : (stopStrand s n).mem = s.mem := rfl
@[simp] theorem stopStrand_brd (s : State) (n : Nat) : (stopStrand s n).brd = s.brd := rfl
@[simp] theorem stopStrand_lead (s : State) (n : Nat) : (stopStrand s n).lead = s.lead := rfl
@[simp] theorem stopStrand_col (s : State) (n : Nat) : (stopStrand s n).col = s.col := rfl
@[simp] theorem stopStrand_tim (s : State) (n : Nat) : (stopStrand s n).tim = s.tim := rfl
@[simp] theorem stopStrand_tet (s : State) (n : Nat) : (stopStrand s n).tet = s.tet := rfl
@[simp] theorem stopStrand_snp (s : State) (n : Nat) : (stopStrand s n).snp = s.snp := rfl
@[simp] theorem stopStrand_gov (s : State) (n : Nat) : (stopStrand s n).gov = s.gov := rfl
@[simp] theorem stopStrand_sec (s : State) (n : Nat) : (stopStrand s n).sec = s.sec := rfl
@[simp] theorem stopStrand_shp (s : State) (n : Nat) : (stopStrand s n).shp = s.shp := rfl
@[simp] theorem stopStrand_tly (s : State) (n : Nat) : (stopStrand s n).tly = s.tly := rfl
@[simp] theorem stopStrand_boot (s : State) (n : Nat) : (stopStrand s n).boot = s.boot := rfl
@[simp] theorem stopStrand_free (s : State) (n : Nat) : (stopStrand s n).free = s.free := rfl
@[simp] theorem stopStrand_pending (s : State) (n : Nat) : (stopStrand s n).pending = s.pending := rfl

@[simp] theorem issueStrand_sys (s : State) (n : Nat) : (issueStrand s n).sys = s.sys := rfl
@[simp] theorem issueStrand_die (s : State) (n : Nat) : (issueStrand s n).die = s.die := rfl
@[simp] theorem issueStrand_knl (s : State) (n : Nat) : (issueStrand s n).knl = s.knl := rfl
@[simp] theorem issueStrand_frm (s : State) (n : Nat) : (issueStrand s n).frm = s.frm := rfl
@[simp] theorem issueStrand_edg (s : State) (n : Nat) : (issueStrand s n).edg = s.edg := rfl
@[simp] theorem issueStrand_rod (s : State) (n : Nat) : (issueStrand s n).rod = s.rod := rfl
@[simp] theorem issueStrand_ld (s : State) (n : Nat) : (issueStrand s n).ld = s.ld := rfl
@[simp] theorem issueStrand_mem (s : State) (n : Nat) : (issueStrand s n).mem = s.mem := rfl
@[simp] theorem issueStrand_brd (s : State) (n : Nat) : (issueStrand s n).brd = s.brd := rfl
@[simp] theorem issueStrand_lead (s : State) (n : Nat) : (issueStrand s n).lead = s.lead := rfl
@[simp] theorem issueStrand_col (s : State) (n : Nat) : (issueStrand s n).col = s.col := rfl
@[simp] theorem issueStrand_tim (s : State) (n : Nat) : (issueStrand s n).tim = s.tim := rfl
@[simp] theorem issueStrand_tet (s : State) (n : Nat) : (issueStrand s n).tet = s.tet := rfl
@[simp] theorem issueStrand_snp (s : State) (n : Nat) : (issueStrand s n).snp = s.snp := rfl
@[simp] theorem issueStrand_gov (s : State) (n : Nat) : (issueStrand s n).gov = s.gov := rfl
@[simp] theorem issueStrand_sec (s : State) (n : Nat) : (issueStrand s n).sec = s.sec := rfl
@[simp] theorem issueStrand_shp (s : State) (n : Nat) : (issueStrand s n).shp = s.shp := rfl
@[simp] theorem issueStrand_tly (s : State) (n : Nat) : (issueStrand s n).tly = s.tly := rfl
@[simp] theorem issueStrand_boot (s : State) (n : Nat) : (issueStrand s n).boot = s.boot := rfl
@[simp] theorem issueStrand_free (s : State) (n : Nat) : (issueStrand s n).free = s.free := rfl
@[simp] theorem issueStrand_pending (s : State) (n : Nat) : (issueStrand s n).pending = s.pending := rfl

@[simp] theorem setToken_sys (s : State) (i x : Nat) : (setToken s i x).sys = s.sys := rfl
@[simp] theorem setToken_die (s : State) (i x : Nat) : (setToken s i x).die = s.die := rfl
@[simp] theorem setToken_knl (s : State) (i x : Nat) : (setToken s i x).knl = s.knl := rfl
@[simp] theorem setToken_frm (s : State) (i x : Nat) : (setToken s i x).frm = s.frm := rfl
@[simp] theorem setToken_edg (s : State) (i x : Nat) : (setToken s i x).edg = s.edg := rfl
@[simp] theorem setToken_rod (s : State) (i x : Nat) : (setToken s i x).rod = s.rod := rfl
@[simp] theorem setToken_ld (s : State) (i x : Nat) : (setToken s i x).ld = s.ld := rfl
@[simp] theorem setToken_mem (s : State) (i x : Nat) : (setToken s i x).mem = s.mem := rfl
@[simp] theorem setToken_brd (s : State) (i x : Nat) : (setToken s i x).brd = s.brd := rfl
@[simp] theorem setToken_lead (s : State) (i x : Nat) : (setToken s i x).lead = s.lead := rfl
@[simp] theorem setToken_col (s : State) (i x : Nat) : (setToken s i x).col = s.col := rfl
@[simp] theorem setToken_tim (s : State) (i x : Nat) : (setToken s i x).tim = s.tim := rfl
@[simp] theorem setToken_tet (s : State) (i x : Nat) : (setToken s i x).tet = s.tet := rfl
@[simp] theorem setToken_snp (s : State) (i x : Nat) : (setToken s i x).snp = s.snp := rfl
@[simp] theorem setToken_gov (s : State) (i x : Nat) : (setToken s i x).gov = s.gov := rfl
@[simp] theorem setToken_sec (s : State) (i x : Nat) : (setToken s i x).sec = s.sec := rfl
@[simp] theorem setToken_shp (s : State) (i x : Nat) : (setToken s i x).shp = s.shp := rfl
@[simp] theorem setToken_tly (s : State) (i x : Nat) : (setToken s i x).tly = s.tly := rfl
@[simp] theorem setToken_boot (s : State) (i x : Nat) : (setToken s i x).boot = s.boot := rfl
@[simp] theorem setToken_free (s : State) (i x : Nat) : (setToken s i x).free = s.free := rfl
@[simp] theorem setToken_pending (s : State) (i x : Nat) : (setToken s i x).pending = s.pending := rfl

@[simp] theorem setRing_sys (s : State) (r : Nat) (x : Ring) : (setRing s r x).sys = s.sys := rfl
@[simp] theorem setRing_die (s : State) (r : Nat) (x : Ring) : (setRing s r x).die = s.die := rfl
@[simp] theorem setRing_knl (s : State) (r : Nat) (x : Ring) : (setRing s r x).knl = s.knl := rfl
@[simp] theorem setRing_frm (s : State) (r : Nat) (x : Ring) : (setRing s r x).frm = s.frm := rfl
@[simp] theorem setRing_edg (s : State) (r : Nat) (x : Ring) : (setRing s r x).edg = s.edg := rfl
@[simp] theorem setRing_rod (s : State) (r : Nat) (x : Ring) : (setRing s r x).rod = s.rod := rfl
@[simp] theorem setRing_ld (s : State) (r : Nat) (x : Ring) : (setRing s r x).ld = s.ld := rfl
@[simp] theorem setRing_mem (s : State) (r : Nat) (x : Ring) : (setRing s r x).mem = s.mem := rfl
@[simp] theorem setRing_brd (s : State) (r : Nat) (x : Ring) : (setRing s r x).brd = s.brd := rfl
@[simp] theorem setRing_lead (s : State) (r : Nat) (x : Ring) : (setRing s r x).lead = s.lead := rfl
@[simp] theorem setRing_col (s : State) (r : Nat) (x : Ring) : (setRing s r x).col = s.col := rfl
@[simp] theorem setRing_tim (s : State) (r : Nat) (x : Ring) : (setRing s r x).tim = s.tim := rfl
@[simp] theorem setRing_tet (s : State) (r : Nat) (x : Ring) : (setRing s r x).tet = s.tet := rfl
@[simp] theorem setRing_snp (s : State) (r : Nat) (x : Ring) : (setRing s r x).snp = s.snp := rfl
@[simp] theorem setRing_gov (s : State) (r : Nat) (x : Ring) : (setRing s r x).gov = s.gov := rfl
@[simp] theorem setRing_sec (s : State) (r : Nat) (x : Ring) : (setRing s r x).sec = s.sec := rfl
@[simp] theorem setRing_shp (s : State) (r : Nat) (x : Ring) : (setRing s r x).shp = s.shp := rfl
@[simp] theorem setRing_tly (s : State) (r : Nat) (x : Ring) : (setRing s r x).tly = s.tly := rfl
@[simp] theorem setRing_boot (s : State) (r : Nat) (x : Ring) : (setRing s r x).boot = s.boot := rfl
@[simp] theorem setRing_free (s : State) (r : Nat) (x : Ring) : (setRing s r x).free = s.free := rfl
@[simp] theorem setRing_pending (s : State) (r : Nat) (x : Ring) : (setRing s r x).pending = s.pending := rfl

@[simp] theorem produce_sys (s : State) (r : Nat) (l : SegLayout) : (produce s r l).sys = s.sys := rfl
@[simp] theorem produce_die (s : State) (r : Nat) (l : SegLayout) : (produce s r l).die = s.die := rfl
@[simp] theorem produce_knl (s : State) (r : Nat) (l : SegLayout) : (produce s r l).knl = s.knl := rfl
@[simp] theorem produce_frm (s : State) (r : Nat) (l : SegLayout) : (produce s r l).frm = s.frm := rfl
@[simp] theorem produce_edg (s : State) (r : Nat) (l : SegLayout) : (produce s r l).edg = s.edg := rfl
@[simp] theorem produce_rod (s : State) (r : Nat) (l : SegLayout) : (produce s r l).rod = s.rod := rfl
@[simp] theorem produce_ld (s : State) (r : Nat) (l : SegLayout) : (produce s r l).ld = s.ld := rfl
@[simp] theorem produce_mem (s : State) (r : Nat) (l : SegLayout) : (produce s r l).mem = s.mem := rfl
@[simp] theorem produce_brd (s : State) (r : Nat) (l : SegLayout) : (produce s r l).brd = s.brd := rfl
@[simp] theorem produce_lead (s : State) (r : Nat) (l : SegLayout) : (produce s r l).lead = s.lead := rfl
@[simp] theorem produce_col (s : State) (r : Nat) (l : SegLayout) : (produce s r l).col = s.col := rfl
@[simp] theorem produce_tim (s : State) (r : Nat) (l : SegLayout) : (produce s r l).tim = s.tim := rfl
@[simp] theorem produce_tet (s : State) (r : Nat) (l : SegLayout) : (produce s r l).tet = s.tet := rfl
@[simp] theorem produce_snp (s : State) (r : Nat) (l : SegLayout) : (produce s r l).snp = s.snp := rfl
@[simp] theorem produce_gov (s : State) (r : Nat) (l : SegLayout) : (produce s r l).gov = s.gov := rfl
@[simp] theorem produce_sec (s : State) (r : Nat) (l : SegLayout) : (produce s r l).sec = s.sec := rfl
@[simp] theorem produce_shp (s : State) (r : Nat) (l : SegLayout) : (produce s r l).shp = s.shp := rfl
@[simp] theorem produce_tly (s : State) (r : Nat) (l : SegLayout) : (produce s r l).tly = s.tly := rfl
@[simp] theorem produce_boot (s : State) (r : Nat) (l : SegLayout) : (produce s r l).boot = s.boot := rfl
@[simp] theorem produce_free (s : State) (r : Nat) (l : SegLayout) : (produce s r l).free = s.free := rfl
@[simp] theorem produce_pending (s : State) (r : Nat) (l : SegLayout) : (produce s r l).pending = s.pending := rfl

@[simp] theorem release_sys (s : State) (r : Nat) : (release s r).sys = s.sys := rfl
@[simp] theorem release_die (s : State) (r : Nat) : (release s r).die = s.die := rfl
@[simp] theorem release_knl (s : State) (r : Nat) : (release s r).knl = s.knl := rfl
@[simp] theorem release_frm (s : State) (r : Nat) : (release s r).frm = s.frm := rfl
@[simp] theorem release_edg (s : State) (r : Nat) : (release s r).edg = s.edg := rfl
@[simp] theorem release_rod (s : State) (r : Nat) : (release s r).rod = s.rod := rfl
@[simp] theorem release_ld (s : State) (r : Nat) : (release s r).ld = s.ld := rfl
@[simp] theorem release_mem (s : State) (r : Nat) : (release s r).mem = s.mem := rfl
@[simp] theorem release_brd (s : State) (r : Nat) : (release s r).brd = s.brd := rfl
@[simp] theorem release_lead (s : State) (r : Nat) : (release s r).lead = s.lead := rfl
@[simp] theorem release_col (s : State) (r : Nat) : (release s r).col = s.col := rfl
@[simp] theorem release_tim (s : State) (r : Nat) : (release s r).tim = s.tim := rfl
@[simp] theorem release_tet (s : State) (r : Nat) : (release s r).tet = s.tet := rfl
@[simp] theorem release_snp (s : State) (r : Nat) : (release s r).snp = s.snp := rfl
@[simp] theorem release_gov (s : State) (r : Nat) : (release s r).gov = s.gov := rfl
@[simp] theorem release_sec (s : State) (r : Nat) : (release s r).sec = s.sec := rfl
@[simp] theorem release_shp (s : State) (r : Nat) : (release s r).shp = s.shp := rfl
@[simp] theorem release_tly (s : State) (r : Nat) : (release s r).tly = s.tly := rfl
@[simp] theorem release_boot (s : State) (r : Nat) : (release s r).boot = s.boot := rfl
@[simp] theorem release_free (s : State) (r : Nat) : (release s r).free = s.free := rfl
@[simp] theorem release_pending (s : State) (r : Nat) : (release s r).pending = s.pending := rfl

@[simp] theorem setSlot_sys (s : State) (k : Nat) (x : Slot) : (setSlot s k x).sys = s.sys := rfl
@[simp] theorem setSlot_die (s : State) (k : Nat) (x : Slot) : (setSlot s k x).die = s.die := rfl
@[simp] theorem setSlot_knl (s : State) (k : Nat) (x : Slot) : (setSlot s k x).knl = s.knl := rfl
@[simp] theorem setSlot_edg (s : State) (k : Nat) (x : Slot) : (setSlot s k x).edg = s.edg := rfl
@[simp] theorem setSlot_rod (s : State) (k : Nat) (x : Slot) : (setSlot s k x).rod = s.rod := rfl
@[simp] theorem setSlot_str (s : State) (k : Nat) (x : Slot) : (setSlot s k x).str = s.str := rfl
@[simp] theorem setSlot_ld (s : State) (k : Nat) (x : Slot) : (setSlot s k x).ld = s.ld := rfl
@[simp] theorem setSlot_mem (s : State) (k : Nat) (x : Slot) : (setSlot s k x).mem = s.mem := rfl
@[simp] theorem setSlot_brd (s : State) (k : Nat) (x : Slot) : (setSlot s k x).brd = s.brd := rfl
@[simp] theorem setSlot_lead (s : State) (k : Nat) (x : Slot) : (setSlot s k x).lead = s.lead := rfl
@[simp] theorem setSlot_col (s : State) (k : Nat) (x : Slot) : (setSlot s k x).col = s.col := rfl
@[simp] theorem setSlot_tim (s : State) (k : Nat) (x : Slot) : (setSlot s k x).tim = s.tim := rfl
@[simp] theorem setSlot_tet (s : State) (k : Nat) (x : Slot) : (setSlot s k x).tet = s.tet := rfl
@[simp] theorem setSlot_snp (s : State) (k : Nat) (x : Slot) : (setSlot s k x).snp = s.snp := rfl
@[simp] theorem setSlot_gov (s : State) (k : Nat) (x : Slot) : (setSlot s k x).gov = s.gov := rfl
@[simp] theorem setSlot_sec (s : State) (k : Nat) (x : Slot) : (setSlot s k x).sec = s.sec := rfl
@[simp] theorem setSlot_shp (s : State) (k : Nat) (x : Slot) : (setSlot s k x).shp = s.shp := rfl
@[simp] theorem setSlot_tly (s : State) (k : Nat) (x : Slot) : (setSlot s k x).tly = s.tly := rfl
@[simp] theorem setSlot_boot (s : State) (k : Nat) (x : Slot) : (setSlot s k x).boot = s.boot := rfl
@[simp] theorem setSlot_free (s : State) (k : Nat) (x : Slot) : (setSlot s k x).free = s.free := rfl
@[simp] theorem setSlot_pending (s : State) (k : Nat) (x : Slot) : (setSlot s k x).pending = s.pending := rfl

@[simp] theorem setLead_sys (s : State) (i : Nat) (x : Lead) : (setLead s i x).sys = s.sys := rfl
@[simp] theorem setLead_die (s : State) (i : Nat) (x : Lead) : (setLead s i x).die = s.die := rfl
@[simp] theorem setLead_knl (s : State) (i : Nat) (x : Lead) : (setLead s i x).knl = s.knl := rfl
@[simp] theorem setLead_frm (s : State) (i : Nat) (x : Lead) : (setLead s i x).frm = s.frm := rfl
@[simp] theorem setLead_edg (s : State) (i : Nat) (x : Lead) : (setLead s i x).edg = s.edg := rfl
@[simp] theorem setLead_rod (s : State) (i : Nat) (x : Lead) : (setLead s i x).rod = s.rod := rfl
@[simp] theorem setLead_str (s : State) (i : Nat) (x : Lead) : (setLead s i x).str = s.str := rfl
@[simp] theorem setLead_ld (s : State) (i : Nat) (x : Lead) : (setLead s i x).ld = s.ld := rfl
@[simp] theorem setLead_mem (s : State) (i : Nat) (x : Lead) : (setLead s i x).mem = s.mem := rfl
@[simp] theorem setLead_brd (s : State) (i : Nat) (x : Lead) : (setLead s i x).brd = s.brd := rfl
@[simp] theorem setLead_col (s : State) (i : Nat) (x : Lead) : (setLead s i x).col = s.col := rfl
@[simp] theorem setLead_tim (s : State) (i : Nat) (x : Lead) : (setLead s i x).tim = s.tim := rfl
@[simp] theorem setLead_tet (s : State) (i : Nat) (x : Lead) : (setLead s i x).tet = s.tet := rfl
@[simp] theorem setLead_snp (s : State) (i : Nat) (x : Lead) : (setLead s i x).snp = s.snp := rfl
@[simp] theorem setLead_gov (s : State) (i : Nat) (x : Lead) : (setLead s i x).gov = s.gov := rfl
@[simp] theorem setLead_sec (s : State) (i : Nat) (x : Lead) : (setLead s i x).sec = s.sec := rfl
@[simp] theorem setLead_shp (s : State) (i : Nat) (x : Lead) : (setLead s i x).shp = s.shp := rfl
@[simp] theorem setLead_tly (s : State) (i : Nat) (x : Lead) : (setLead s i x).tly = s.tly := rfl
@[simp] theorem setLead_boot (s : State) (i : Nat) (x : Lead) : (setLead s i x).boot = s.boot := rfl
@[simp] theorem setLead_free (s : State) (i : Nat) (x : Lead) : (setLead s i x).free = s.free := rfl
@[simp] theorem setLead_pending (s : State) (i : Nat) (x : Lead) : (setLead s i x).pending = s.pending := rfl

@[simp] theorem setLink_sys (s : State) (l : Nat) (x : TLink) : (setLink s l x).sys = s.sys := rfl
@[simp] theorem setLink_die (s : State) (l : Nat) (x : TLink) : (setLink s l x).die = s.die := rfl
@[simp] theorem setLink_knl (s : State) (l : Nat) (x : TLink) : (setLink s l x).knl = s.knl := rfl
@[simp] theorem setLink_frm (s : State) (l : Nat) (x : TLink) : (setLink s l x).frm = s.frm := rfl
@[simp] theorem setLink_edg (s : State) (l : Nat) (x : TLink) : (setLink s l x).edg = s.edg := rfl
@[simp] theorem setLink_rod (s : State) (l : Nat) (x : TLink) : (setLink s l x).rod = s.rod := rfl
@[simp] theorem setLink_str (s : State) (l : Nat) (x : TLink) : (setLink s l x).str = s.str := rfl
@[simp] theorem setLink_ld (s : State) (l : Nat) (x : TLink) : (setLink s l x).ld = s.ld := rfl
@[simp] theorem setLink_mem (s : State) (l : Nat) (x : TLink) : (setLink s l x).mem = s.mem := rfl
@[simp] theorem setLink_brd (s : State) (l : Nat) (x : TLink) : (setLink s l x).brd = s.brd := rfl
@[simp] theorem setLink_lead (s : State) (l : Nat) (x : TLink) : (setLink s l x).lead = s.lead := rfl
@[simp] theorem setLink_col (s : State) (l : Nat) (x : TLink) : (setLink s l x).col = s.col := rfl
@[simp] theorem setLink_tim (s : State) (l : Nat) (x : TLink) : (setLink s l x).tim = s.tim := rfl
@[simp] theorem setLink_snp (s : State) (l : Nat) (x : TLink) : (setLink s l x).snp = s.snp := rfl
@[simp] theorem setLink_gov (s : State) (l : Nat) (x : TLink) : (setLink s l x).gov = s.gov := rfl
@[simp] theorem setLink_sec (s : State) (l : Nat) (x : TLink) : (setLink s l x).sec = s.sec := rfl
@[simp] theorem setLink_shp (s : State) (l : Nat) (x : TLink) : (setLink s l x).shp = s.shp := rfl
@[simp] theorem setLink_tly (s : State) (l : Nat) (x : TLink) : (setLink s l x).tly = s.tly := rfl
@[simp] theorem setLink_boot (s : State) (l : Nat) (x : TLink) : (setLink s l x).boot = s.boot := rfl
@[simp] theorem setLink_free (s : State) (l : Nat) (x : TLink) : (setLink s l x).free = s.free := rfl
@[simp] theorem setLink_pending (s : State) (l : Nat) (x : TLink) : (setLink s l x).pending = s.pending := rfl

@[simp] theorem setSess_sys (s : State) (l : Nat) (shp : Bool) (x : Sess) : (setSess s l shp x).sys = s.sys := rfl
@[simp] theorem setSess_die (s : State) (l : Nat) (shp : Bool) (x : Sess) : (setSess s l shp x).die = s.die := rfl
@[simp] theorem setSess_knl (s : State) (l : Nat) (shp : Bool) (x : Sess) : (setSess s l shp x).knl = s.knl := rfl
@[simp] theorem setSess_frm (s : State) (l : Nat) (shp : Bool) (x : Sess) : (setSess s l shp x).frm = s.frm := rfl
@[simp] theorem setSess_edg (s : State) (l : Nat) (shp : Bool) (x : Sess) : (setSess s l shp x).edg = s.edg := rfl
@[simp] theorem setSess_rod (s : State) (l : Nat) (shp : Bool) (x : Sess) : (setSess s l shp x).rod = s.rod := rfl
@[simp] theorem setSess_str (s : State) (l : Nat) (shp : Bool) (x : Sess) : (setSess s l shp x).str = s.str := rfl
@[simp] theorem setSess_ld (s : State) (l : Nat) (shp : Bool) (x : Sess) : (setSess s l shp x).ld = s.ld := rfl
@[simp] theorem setSess_mem (s : State) (l : Nat) (shp : Bool) (x : Sess) : (setSess s l shp x).mem = s.mem := rfl
@[simp] theorem setSess_brd (s : State) (l : Nat) (shp : Bool) (x : Sess) : (setSess s l shp x).brd = s.brd := rfl
@[simp] theorem setSess_lead (s : State) (l : Nat) (shp : Bool) (x : Sess) : (setSess s l shp x).lead = s.lead := rfl
@[simp] theorem setSess_col (s : State) (l : Nat) (shp : Bool) (x : Sess) : (setSess s l shp x).col = s.col := rfl
@[simp] theorem setSess_tim (s : State) (l : Nat) (shp : Bool) (x : Sess) : (setSess s l shp x).tim = s.tim := rfl
@[simp] theorem setSess_snp (s : State) (l : Nat) (shp : Bool) (x : Sess) : (setSess s l shp x).snp = s.snp := rfl
@[simp] theorem setSess_gov (s : State) (l : Nat) (shp : Bool) (x : Sess) : (setSess s l shp x).gov = s.gov := rfl
@[simp] theorem setSess_sec (s : State) (l : Nat) (shp : Bool) (x : Sess) : (setSess s l shp x).sec = s.sec := rfl
@[simp] theorem setSess_shp (s : State) (l : Nat) (shp : Bool) (x : Sess) : (setSess s l shp x).shp = s.shp := rfl
@[simp] theorem setSess_tly (s : State) (l : Nat) (shp : Bool) (x : Sess) : (setSess s l shp x).tly = s.tly := rfl
@[simp] theorem setSess_boot (s : State) (l : Nat) (shp : Bool) (x : Sess) : (setSess s l shp x).boot = s.boot := rfl
@[simp] theorem setSess_free (s : State) (l : Nat) (shp : Bool) (x : Sess) : (setSess s l shp x).free = s.free := rfl
@[simp] theorem setSess_pending (s : State) (l : Nat) (shp : Bool) (x : Sess) : (setSess s l shp x).pending = s.pending := rfl

@[simp] theorem tetSend_sys (s : State) (l : Nat) (shp : Bool) (b : TBody) : (tetSend s l shp b).sys = s.sys := rfl
@[simp] theorem tetSend_die (s : State) (l : Nat) (shp : Bool) (b : TBody) : (tetSend s l shp b).die = s.die := rfl
@[simp] theorem tetSend_knl (s : State) (l : Nat) (shp : Bool) (b : TBody) : (tetSend s l shp b).knl = s.knl := rfl
@[simp] theorem tetSend_frm (s : State) (l : Nat) (shp : Bool) (b : TBody) : (tetSend s l shp b).frm = s.frm := rfl
@[simp] theorem tetSend_edg (s : State) (l : Nat) (shp : Bool) (b : TBody) : (tetSend s l shp b).edg = s.edg := rfl
@[simp] theorem tetSend_rod (s : State) (l : Nat) (shp : Bool) (b : TBody) : (tetSend s l shp b).rod = s.rod := rfl
@[simp] theorem tetSend_str (s : State) (l : Nat) (shp : Bool) (b : TBody) : (tetSend s l shp b).str = s.str := rfl
@[simp] theorem tetSend_ld (s : State) (l : Nat) (shp : Bool) (b : TBody) : (tetSend s l shp b).ld = s.ld := rfl
@[simp] theorem tetSend_mem (s : State) (l : Nat) (shp : Bool) (b : TBody) : (tetSend s l shp b).mem = s.mem := rfl
@[simp] theorem tetSend_brd (s : State) (l : Nat) (shp : Bool) (b : TBody) : (tetSend s l shp b).brd = s.brd := rfl
@[simp] theorem tetSend_lead (s : State) (l : Nat) (shp : Bool) (b : TBody) : (tetSend s l shp b).lead = s.lead := rfl
@[simp] theorem tetSend_col (s : State) (l : Nat) (shp : Bool) (b : TBody) : (tetSend s l shp b).col = s.col := rfl
@[simp] theorem tetSend_tim (s : State) (l : Nat) (shp : Bool) (b : TBody) : (tetSend s l shp b).tim = s.tim := rfl
@[simp] theorem tetSend_snp (s : State) (l : Nat) (shp : Bool) (b : TBody) : (tetSend s l shp b).snp = s.snp := rfl
@[simp] theorem tetSend_gov (s : State) (l : Nat) (shp : Bool) (b : TBody) : (tetSend s l shp b).gov = s.gov := rfl
@[simp] theorem tetSend_sec (s : State) (l : Nat) (shp : Bool) (b : TBody) : (tetSend s l shp b).sec = s.sec := rfl
@[simp] theorem tetSend_shp (s : State) (l : Nat) (shp : Bool) (b : TBody) : (tetSend s l shp b).shp = s.shp := rfl
@[simp] theorem tetSend_tly (s : State) (l : Nat) (shp : Bool) (b : TBody) : (tetSend s l shp b).tly = s.tly := rfl
@[simp] theorem tetSend_boot (s : State) (l : Nat) (shp : Bool) (b : TBody) : (tetSend s l shp b).boot = s.boot := rfl
@[simp] theorem tetSend_free (s : State) (l : Nat) (shp : Bool) (b : TBody) : (tetSend s l shp b).free = s.free := rfl
@[simp] theorem tetSend_pending (s : State) (l : Nat) (shp : Bool) (b : TBody) : (tetSend s l shp b).pending = s.pending := rfl

@[simp] theorem respond_sys (s : State) (r : Req) (shp : Bool) (type status : Nat) (payload : Bytes) : (respond s r shp type status payload).sys = s.sys := rfl
@[simp] theorem respond_die (s : State) (r : Req) (shp : Bool) (type status : Nat) (payload : Bytes) : (respond s r shp type status payload).die = s.die := rfl
@[simp] theorem respond_knl (s : State) (r : Req) (shp : Bool) (type status : Nat) (payload : Bytes) : (respond s r shp type status payload).knl = s.knl := rfl
@[simp] theorem respond_frm (s : State) (r : Req) (shp : Bool) (type status : Nat) (payload : Bytes) : (respond s r shp type status payload).frm = s.frm := rfl
@[simp] theorem respond_edg (s : State) (r : Req) (shp : Bool) (type status : Nat) (payload : Bytes) : (respond s r shp type status payload).edg = s.edg := rfl
@[simp] theorem respond_rod (s : State) (r : Req) (shp : Bool) (type status : Nat) (payload : Bytes) : (respond s r shp type status payload).rod = s.rod := rfl
@[simp] theorem respond_str (s : State) (r : Req) (shp : Bool) (type status : Nat) (payload : Bytes) : (respond s r shp type status payload).str = s.str := rfl
@[simp] theorem respond_ld (s : State) (r : Req) (shp : Bool) (type status : Nat) (payload : Bytes) : (respond s r shp type status payload).ld = s.ld := rfl
@[simp] theorem respond_mem (s : State) (r : Req) (shp : Bool) (type status : Nat) (payload : Bytes) : (respond s r shp type status payload).mem = s.mem := rfl
@[simp] theorem respond_brd (s : State) (r : Req) (shp : Bool) (type status : Nat) (payload : Bytes) : (respond s r shp type status payload).brd = s.brd := rfl
@[simp] theorem respond_lead (s : State) (r : Req) (shp : Bool) (type status : Nat) (payload : Bytes) : (respond s r shp type status payload).lead = s.lead := rfl
@[simp] theorem respond_col (s : State) (r : Req) (shp : Bool) (type status : Nat) (payload : Bytes) : (respond s r shp type status payload).col = s.col := rfl
@[simp] theorem respond_tim (s : State) (r : Req) (shp : Bool) (type status : Nat) (payload : Bytes) : (respond s r shp type status payload).tim = s.tim := rfl
@[simp] theorem respond_snp (s : State) (r : Req) (shp : Bool) (type status : Nat) (payload : Bytes) : (respond s r shp type status payload).snp = s.snp := rfl
@[simp] theorem respond_gov (s : State) (r : Req) (shp : Bool) (type status : Nat) (payload : Bytes) : (respond s r shp type status payload).gov = s.gov := rfl
@[simp] theorem respond_sec (s : State) (r : Req) (shp : Bool) (type status : Nat) (payload : Bytes) : (respond s r shp type status payload).sec = s.sec := rfl
@[simp] theorem respond_shp (s : State) (r : Req) (shp : Bool) (type status : Nat) (payload : Bytes) : (respond s r shp type status payload).shp = s.shp := rfl
@[simp] theorem respond_tly (s : State) (r : Req) (shp : Bool) (type status : Nat) (payload : Bytes) : (respond s r shp type status payload).tly = s.tly := rfl
@[simp] theorem respond_boot (s : State) (r : Req) (shp : Bool) (type status : Nat) (payload : Bytes) : (respond s r shp type status payload).boot = s.boot := rfl
@[simp] theorem respond_free (s : State) (r : Req) (shp : Bool) (type status : Nat) (payload : Bytes) : (respond s r shp type status payload).free = s.free := rfl
@[simp] theorem respond_pending (s : State) (r : Req) (shp : Bool) (type status : Nat) (payload : Bytes) : (respond s r shp type status payload).pending = s.pending := rfl

@[simp] theorem respondCode_sys (s : State) (r : Req) (shp : Bool) (type code : Nat) : (respondCode s r shp type code).sys = s.sys := rfl
@[simp] theorem respondCode_die (s : State) (r : Req) (shp : Bool) (type code : Nat) : (respondCode s r shp type code).die = s.die := rfl
@[simp] theorem respondCode_knl (s : State) (r : Req) (shp : Bool) (type code : Nat) : (respondCode s r shp type code).knl = s.knl := rfl
@[simp] theorem respondCode_frm (s : State) (r : Req) (shp : Bool) (type code : Nat) : (respondCode s r shp type code).frm = s.frm := rfl
@[simp] theorem respondCode_edg (s : State) (r : Req) (shp : Bool) (type code : Nat) : (respondCode s r shp type code).edg = s.edg := rfl
@[simp] theorem respondCode_rod (s : State) (r : Req) (shp : Bool) (type code : Nat) : (respondCode s r shp type code).rod = s.rod := rfl
@[simp] theorem respondCode_str (s : State) (r : Req) (shp : Bool) (type code : Nat) : (respondCode s r shp type code).str = s.str := rfl
@[simp] theorem respondCode_ld (s : State) (r : Req) (shp : Bool) (type code : Nat) : (respondCode s r shp type code).ld = s.ld := rfl
@[simp] theorem respondCode_mem (s : State) (r : Req) (shp : Bool) (type code : Nat) : (respondCode s r shp type code).mem = s.mem := rfl
@[simp] theorem respondCode_brd (s : State) (r : Req) (shp : Bool) (type code : Nat) : (respondCode s r shp type code).brd = s.brd := rfl
@[simp] theorem respondCode_lead (s : State) (r : Req) (shp : Bool) (type code : Nat) : (respondCode s r shp type code).lead = s.lead := rfl
@[simp] theorem respondCode_col (s : State) (r : Req) (shp : Bool) (type code : Nat) : (respondCode s r shp type code).col = s.col := rfl
@[simp] theorem respondCode_tim (s : State) (r : Req) (shp : Bool) (type code : Nat) : (respondCode s r shp type code).tim = s.tim := rfl
@[simp] theorem respondCode_snp (s : State) (r : Req) (shp : Bool) (type code : Nat) : (respondCode s r shp type code).snp = s.snp := rfl
@[simp] theorem respondCode_gov (s : State) (r : Req) (shp : Bool) (type code : Nat) : (respondCode s r shp type code).gov = s.gov := rfl
@[simp] theorem respondCode_sec (s : State) (r : Req) (shp : Bool) (type code : Nat) : (respondCode s r shp type code).sec = s.sec := rfl
@[simp] theorem respondCode_shp (s : State) (r : Req) (shp : Bool) (type code : Nat) : (respondCode s r shp type code).shp = s.shp := rfl
@[simp] theorem respondCode_tly (s : State) (r : Req) (shp : Bool) (type code : Nat) : (respondCode s r shp type code).tly = s.tly := rfl
@[simp] theorem respondCode_boot (s : State) (r : Req) (shp : Bool) (type code : Nat) : (respondCode s r shp type code).boot = s.boot := rfl
@[simp] theorem respondCode_free (s : State) (r : Req) (shp : Bool) (type code : Nat) : (respondCode s r shp type code).free = s.free := rfl
@[simp] theorem respondCode_pending (s : State) (r : Req) (shp : Bool) (type code : Nat) : (respondCode s r shp type code).pending = s.pending := rfl

@[simp] theorem setEngine_sys (s : State) (e : Nat) (o : Option CollOp) : (setEngine s e o).sys = s.sys := rfl
@[simp] theorem setEngine_die (s : State) (e : Nat) (o : Option CollOp) : (setEngine s e o).die = s.die := rfl
@[simp] theorem setEngine_knl (s : State) (e : Nat) (o : Option CollOp) : (setEngine s e o).knl = s.knl := rfl
@[simp] theorem setEngine_frm (s : State) (e : Nat) (o : Option CollOp) : (setEngine s e o).frm = s.frm := rfl
@[simp] theorem setEngine_edg (s : State) (e : Nat) (o : Option CollOp) : (setEngine s e o).edg = s.edg := rfl
@[simp] theorem setEngine_rod (s : State) (e : Nat) (o : Option CollOp) : (setEngine s e o).rod = s.rod := rfl
@[simp] theorem setEngine_str (s : State) (e : Nat) (o : Option CollOp) : (setEngine s e o).str = s.str := rfl
@[simp] theorem setEngine_ld (s : State) (e : Nat) (o : Option CollOp) : (setEngine s e o).ld = s.ld := rfl
@[simp] theorem setEngine_mem (s : State) (e : Nat) (o : Option CollOp) : (setEngine s e o).mem = s.mem := rfl
@[simp] theorem setEngine_brd (s : State) (e : Nat) (o : Option CollOp) : (setEngine s e o).brd = s.brd := rfl
@[simp] theorem setEngine_lead (s : State) (e : Nat) (o : Option CollOp) : (setEngine s e o).lead = s.lead := rfl
@[simp] theorem setEngine_tim (s : State) (e : Nat) (o : Option CollOp) : (setEngine s e o).tim = s.tim := rfl
@[simp] theorem setEngine_tet (s : State) (e : Nat) (o : Option CollOp) : (setEngine s e o).tet = s.tet := rfl
@[simp] theorem setEngine_snp (s : State) (e : Nat) (o : Option CollOp) : (setEngine s e o).snp = s.snp := rfl
@[simp] theorem setEngine_gov (s : State) (e : Nat) (o : Option CollOp) : (setEngine s e o).gov = s.gov := rfl
@[simp] theorem setEngine_sec (s : State) (e : Nat) (o : Option CollOp) : (setEngine s e o).sec = s.sec := rfl
@[simp] theorem setEngine_shp (s : State) (e : Nat) (o : Option CollOp) : (setEngine s e o).shp = s.shp := rfl
@[simp] theorem setEngine_tly (s : State) (e : Nat) (o : Option CollOp) : (setEngine s e o).tly = s.tly := rfl
@[simp] theorem setEngine_boot (s : State) (e : Nat) (o : Option CollOp) : (setEngine s e o).boot = s.boot := rfl
@[simp] theorem setEngine_free (s : State) (e : Nat) (o : Option CollOp) : (setEngine s e o).free = s.free := rfl
@[simp] theorem setEngine_pending (s : State) (e : Nat) (o : Option CollOp) : (setEngine s e o).pending = s.pending := rfl

@[simp] theorem setEdgeOps_sys (s : State) (ops : List EdgeOp) : (setEdgeOps s ops).sys = s.sys := rfl
@[simp] theorem setEdgeOps_die (s : State) (ops : List EdgeOp) : (setEdgeOps s ops).die = s.die := rfl
@[simp] theorem setEdgeOps_knl (s : State) (ops : List EdgeOp) : (setEdgeOps s ops).knl = s.knl := rfl
@[simp] theorem setEdgeOps_frm (s : State) (ops : List EdgeOp) : (setEdgeOps s ops).frm = s.frm := rfl
@[simp] theorem setEdgeOps_rod (s : State) (ops : List EdgeOp) : (setEdgeOps s ops).rod = s.rod := rfl
@[simp] theorem setEdgeOps_str (s : State) (ops : List EdgeOp) : (setEdgeOps s ops).str = s.str := rfl
@[simp] theorem setEdgeOps_ld (s : State) (ops : List EdgeOp) : (setEdgeOps s ops).ld = s.ld := rfl
@[simp] theorem setEdgeOps_mem (s : State) (ops : List EdgeOp) : (setEdgeOps s ops).mem = s.mem := rfl
@[simp] theorem setEdgeOps_brd (s : State) (ops : List EdgeOp) : (setEdgeOps s ops).brd = s.brd := rfl
@[simp] theorem setEdgeOps_lead (s : State) (ops : List EdgeOp) : (setEdgeOps s ops).lead = s.lead := rfl
@[simp] theorem setEdgeOps_col (s : State) (ops : List EdgeOp) : (setEdgeOps s ops).col = s.col := rfl
@[simp] theorem setEdgeOps_tim (s : State) (ops : List EdgeOp) : (setEdgeOps s ops).tim = s.tim := rfl
@[simp] theorem setEdgeOps_tet (s : State) (ops : List EdgeOp) : (setEdgeOps s ops).tet = s.tet := rfl
@[simp] theorem setEdgeOps_snp (s : State) (ops : List EdgeOp) : (setEdgeOps s ops).snp = s.snp := rfl
@[simp] theorem setEdgeOps_gov (s : State) (ops : List EdgeOp) : (setEdgeOps s ops).gov = s.gov := rfl
@[simp] theorem setEdgeOps_sec (s : State) (ops : List EdgeOp) : (setEdgeOps s ops).sec = s.sec := rfl
@[simp] theorem setEdgeOps_shp (s : State) (ops : List EdgeOp) : (setEdgeOps s ops).shp = s.shp := rfl
@[simp] theorem setEdgeOps_tly (s : State) (ops : List EdgeOp) : (setEdgeOps s ops).tly = s.tly := rfl
@[simp] theorem setEdgeOps_boot (s : State) (ops : List EdgeOp) : (setEdgeOps s ops).boot = s.boot := rfl
@[simp] theorem setEdgeOps_free (s : State) (ops : List EdgeOp) : (setEdgeOps s ops).free = s.free := rfl
@[simp] theorem setEdgeOps_pending (s : State) (ops : List EdgeOp) : (setEdgeOps s ops).pending = s.pending := rfl

@[simp] theorem setCur_sys (s : State) (op : FrameOp) : (setCur s op).sys = s.sys := rfl
@[simp] theorem setCur_die (s : State) (op : FrameOp) : (setCur s op).die = s.die := rfl
@[simp] theorem setCur_knl (s : State) (op : FrameOp) : (setCur s op).knl = s.knl := rfl
@[simp] theorem setCur_edg (s : State) (op : FrameOp) : (setCur s op).edg = s.edg := rfl
@[simp] theorem setCur_rod (s : State) (op : FrameOp) : (setCur s op).rod = s.rod := rfl
@[simp] theorem setCur_str (s : State) (op : FrameOp) : (setCur s op).str = s.str := rfl
@[simp] theorem setCur_ld (s : State) (op : FrameOp) : (setCur s op).ld = s.ld := rfl
@[simp] theorem setCur_mem (s : State) (op : FrameOp) : (setCur s op).mem = s.mem := rfl
@[simp] theorem setCur_brd (s : State) (op : FrameOp) : (setCur s op).brd = s.brd := rfl
@[simp] theorem setCur_lead (s : State) (op : FrameOp) : (setCur s op).lead = s.lead := rfl
@[simp] theorem setCur_col (s : State) (op : FrameOp) : (setCur s op).col = s.col := rfl
@[simp] theorem setCur_tim (s : State) (op : FrameOp) : (setCur s op).tim = s.tim := rfl
@[simp] theorem setCur_tet (s : State) (op : FrameOp) : (setCur s op).tet = s.tet := rfl
@[simp] theorem setCur_snp (s : State) (op : FrameOp) : (setCur s op).snp = s.snp := rfl
@[simp] theorem setCur_gov (s : State) (op : FrameOp) : (setCur s op).gov = s.gov := rfl
@[simp] theorem setCur_sec (s : State) (op : FrameOp) : (setCur s op).sec = s.sec := rfl
@[simp] theorem setCur_shp (s : State) (op : FrameOp) : (setCur s op).shp = s.shp := rfl
@[simp] theorem setCur_tly (s : State) (op : FrameOp) : (setCur s op).tly = s.tly := rfl
@[simp] theorem setCur_boot (s : State) (op : FrameOp) : (setCur s op).boot = s.boot := rfl
@[simp] theorem setCur_free (s : State) (op : FrameOp) : (setCur s op).free = s.free := rfl
@[simp] theorem setCur_pending (s : State) (op : FrameOp) : (setCur s op).pending = s.pending := rfl

@[simp] theorem setGov_sys (s : State) (g : Gov) : (setGov s g).sys = s.sys := rfl
@[simp] theorem setGov_die (s : State) (g : Gov) : (setGov s g).die = s.die := rfl
@[simp] theorem setGov_knl (s : State) (g : Gov) : (setGov s g).knl = s.knl := rfl
@[simp] theorem setGov_frm (s : State) (g : Gov) : (setGov s g).frm = s.frm := rfl
@[simp] theorem setGov_edg (s : State) (g : Gov) : (setGov s g).edg = s.edg := rfl
@[simp] theorem setGov_rod (s : State) (g : Gov) : (setGov s g).rod = s.rod := rfl
@[simp] theorem setGov_str (s : State) (g : Gov) : (setGov s g).str = s.str := rfl
@[simp] theorem setGov_ld (s : State) (g : Gov) : (setGov s g).ld = s.ld := rfl
@[simp] theorem setGov_mem (s : State) (g : Gov) : (setGov s g).mem = s.mem := rfl
@[simp] theorem setGov_brd (s : State) (g : Gov) : (setGov s g).brd = s.brd := rfl
@[simp] theorem setGov_lead (s : State) (g : Gov) : (setGov s g).lead = s.lead := rfl
@[simp] theorem setGov_col (s : State) (g : Gov) : (setGov s g).col = s.col := rfl
@[simp] theorem setGov_tim (s : State) (g : Gov) : (setGov s g).tim = s.tim := rfl
@[simp] theorem setGov_tet (s : State) (g : Gov) : (setGov s g).tet = s.tet := rfl
@[simp] theorem setGov_snp (s : State) (g : Gov) : (setGov s g).snp = s.snp := rfl
@[simp] theorem setGov_sec (s : State) (g : Gov) : (setGov s g).sec = s.sec := rfl
@[simp] theorem setGov_shp (s : State) (g : Gov) : (setGov s g).shp = s.shp := rfl
@[simp] theorem setGov_tly (s : State) (g : Gov) : (setGov s g).tly = s.tly := rfl
@[simp] theorem setGov_boot (s : State) (g : Gov) : (setGov s g).boot = s.boot := rfl
@[simp] theorem setGov_free (s : State) (g : Gov) : (setGov s g).free = s.free := rfl
@[simp] theorem setGov_pending (s : State) (g : Gov) : (setGov s g).pending = s.pending := rfl

@[simp] theorem setKnl_sys (s : State) (k : Knl) : (setKnl s k).sys = s.sys := rfl
@[simp] theorem setKnl_die (s : State) (k : Knl) : (setKnl s k).die = s.die := rfl
@[simp] theorem setKnl_frm (s : State) (k : Knl) : (setKnl s k).frm = s.frm := rfl
@[simp] theorem setKnl_edg (s : State) (k : Knl) : (setKnl s k).edg = s.edg := rfl
@[simp] theorem setKnl_rod (s : State) (k : Knl) : (setKnl s k).rod = s.rod := rfl
@[simp] theorem setKnl_str (s : State) (k : Knl) : (setKnl s k).str = s.str := rfl
@[simp] theorem setKnl_ld (s : State) (k : Knl) : (setKnl s k).ld = s.ld := rfl
@[simp] theorem setKnl_mem (s : State) (k : Knl) : (setKnl s k).mem = s.mem := rfl
@[simp] theorem setKnl_brd (s : State) (k : Knl) : (setKnl s k).brd = s.brd := rfl
@[simp] theorem setKnl_lead (s : State) (k : Knl) : (setKnl s k).lead = s.lead := rfl
@[simp] theorem setKnl_col (s : State) (k : Knl) : (setKnl s k).col = s.col := rfl
@[simp] theorem setKnl_tim (s : State) (k : Knl) : (setKnl s k).tim = s.tim := rfl
@[simp] theorem setKnl_tet (s : State) (k : Knl) : (setKnl s k).tet = s.tet := rfl
@[simp] theorem setKnl_snp (s : State) (k : Knl) : (setKnl s k).snp = s.snp := rfl
@[simp] theorem setKnl_gov (s : State) (k : Knl) : (setKnl s k).gov = s.gov := rfl
@[simp] theorem setKnl_sec (s : State) (k : Knl) : (setKnl s k).sec = s.sec := rfl
@[simp] theorem setKnl_shp (s : State) (k : Knl) : (setKnl s k).shp = s.shp := rfl
@[simp] theorem setKnl_tly (s : State) (k : Knl) : (setKnl s k).tly = s.tly := rfl
@[simp] theorem setKnl_boot (s : State) (k : Knl) : (setKnl s k).boot = s.boot := rfl
@[simp] theorem setKnl_free (s : State) (k : Knl) : (setKnl s k).free = s.free := rfl
@[simp] theorem setKnl_pending (s : State) (k : Knl) : (setKnl s k).pending = s.pending := rfl

@[simp] theorem setSnp_sys (s : State) (n : Snp) : (setSnp s n).sys = s.sys := rfl
@[simp] theorem setSnp_die (s : State) (n : Snp) : (setSnp s n).die = s.die := rfl
@[simp] theorem setSnp_knl (s : State) (n : Snp) : (setSnp s n).knl = s.knl := rfl
@[simp] theorem setSnp_frm (s : State) (n : Snp) : (setSnp s n).frm = s.frm := rfl
@[simp] theorem setSnp_edg (s : State) (n : Snp) : (setSnp s n).edg = s.edg := rfl
@[simp] theorem setSnp_rod (s : State) (n : Snp) : (setSnp s n).rod = s.rod := rfl
@[simp] theorem setSnp_str (s : State) (n : Snp) : (setSnp s n).str = s.str := rfl
@[simp] theorem setSnp_ld (s : State) (n : Snp) : (setSnp s n).ld = s.ld := rfl
@[simp] theorem setSnp_mem (s : State) (n : Snp) : (setSnp s n).mem = s.mem := rfl
@[simp] theorem setSnp_brd (s : State) (n : Snp) : (setSnp s n).brd = s.brd := rfl
@[simp] theorem setSnp_lead (s : State) (n : Snp) : (setSnp s n).lead = s.lead := rfl
@[simp] theorem setSnp_col (s : State) (n : Snp) : (setSnp s n).col = s.col := rfl
@[simp] theorem setSnp_tim (s : State) (n : Snp) : (setSnp s n).tim = s.tim := rfl
@[simp] theorem setSnp_tet (s : State) (n : Snp) : (setSnp s n).tet = s.tet := rfl
@[simp] theorem setSnp_gov (s : State) (n : Snp) : (setSnp s n).gov = s.gov := rfl
@[simp] theorem setSnp_sec (s : State) (n : Snp) : (setSnp s n).sec = s.sec := rfl
@[simp] theorem setSnp_shp (s : State) (n : Snp) : (setSnp s n).shp = s.shp := rfl
@[simp] theorem setSnp_tly (s : State) (n : Snp) : (setSnp s n).tly = s.tly := rfl
@[simp] theorem setSnp_boot (s : State) (n : Snp) : (setSnp s n).boot = s.boot := rfl
@[simp] theorem setSnp_free (s : State) (n : Snp) : (setSnp s n).free = s.free := rfl
@[simp] theorem setSnp_pending (s : State) (n : Snp) : (setSnp s n).pending = s.pending := rfl

@[simp] theorem setShp_sys (s : State) (h : Shp) : (setShp s h).sys = s.sys := rfl
@[simp] theorem setShp_die (s : State) (h : Shp) : (setShp s h).die = s.die := rfl
@[simp] theorem setShp_knl (s : State) (h : Shp) : (setShp s h).knl = s.knl := rfl
@[simp] theorem setShp_frm (s : State) (h : Shp) : (setShp s h).frm = s.frm := rfl
@[simp] theorem setShp_edg (s : State) (h : Shp) : (setShp s h).edg = s.edg := rfl
@[simp] theorem setShp_rod (s : State) (h : Shp) : (setShp s h).rod = s.rod := rfl
@[simp] theorem setShp_str (s : State) (h : Shp) : (setShp s h).str = s.str := rfl
@[simp] theorem setShp_ld (s : State) (h : Shp) : (setShp s h).ld = s.ld := rfl
@[simp] theorem setShp_mem (s : State) (h : Shp) : (setShp s h).mem = s.mem := rfl
@[simp] theorem setShp_brd (s : State) (h : Shp) : (setShp s h).brd = s.brd := rfl
@[simp] theorem setShp_lead (s : State) (h : Shp) : (setShp s h).lead = s.lead := rfl
@[simp] theorem setShp_col (s : State) (h : Shp) : (setShp s h).col = s.col := rfl
@[simp] theorem setShp_tim (s : State) (h : Shp) : (setShp s h).tim = s.tim := rfl
@[simp] theorem setShp_tet (s : State) (h : Shp) : (setShp s h).tet = s.tet := rfl
@[simp] theorem setShp_snp (s : State) (h : Shp) : (setShp s h).snp = s.snp := rfl
@[simp] theorem setShp_gov (s : State) (h : Shp) : (setShp s h).gov = s.gov := rfl
@[simp] theorem setShp_sec (s : State) (h : Shp) : (setShp s h).sec = s.sec := rfl
@[simp] theorem setShp_tly (s : State) (h : Shp) : (setShp s h).tly = s.tly := rfl
@[simp] theorem setShp_boot (s : State) (h : Shp) : (setShp s h).boot = s.boot := rfl
@[simp] theorem setShp_free (s : State) (h : Shp) : (setShp s h).free = s.free := rfl
@[simp] theorem setShp_pending (s : State) (h : Shp) : (setShp s h).pending = s.pending := rfl

@[simp] theorem setSec_sys (s : State) (c : Sec) : (setSec s c).sys = s.sys := rfl
@[simp] theorem setSec_die (s : State) (c : Sec) : (setSec s c).die = s.die := rfl
@[simp] theorem setSec_knl (s : State) (c : Sec) : (setSec s c).knl = s.knl := rfl
@[simp] theorem setSec_frm (s : State) (c : Sec) : (setSec s c).frm = s.frm := rfl
@[simp] theorem setSec_edg (s : State) (c : Sec) : (setSec s c).edg = s.edg := rfl
@[simp] theorem setSec_rod (s : State) (c : Sec) : (setSec s c).rod = s.rod := rfl
@[simp] theorem setSec_str (s : State) (c : Sec) : (setSec s c).str = s.str := rfl
@[simp] theorem setSec_ld (s : State) (c : Sec) : (setSec s c).ld = s.ld := rfl
@[simp] theorem setSec_mem (s : State) (c : Sec) : (setSec s c).mem = s.mem := rfl
@[simp] theorem setSec_brd (s : State) (c : Sec) : (setSec s c).brd = s.brd := rfl
@[simp] theorem setSec_lead (s : State) (c : Sec) : (setSec s c).lead = s.lead := rfl
@[simp] theorem setSec_col (s : State) (c : Sec) : (setSec s c).col = s.col := rfl
@[simp] theorem setSec_tim (s : State) (c : Sec) : (setSec s c).tim = s.tim := rfl
@[simp] theorem setSec_tet (s : State) (c : Sec) : (setSec s c).tet = s.tet := rfl
@[simp] theorem setSec_snp (s : State) (c : Sec) : (setSec s c).snp = s.snp := rfl
@[simp] theorem setSec_gov (s : State) (c : Sec) : (setSec s c).gov = s.gov := rfl
@[simp] theorem setSec_shp (s : State) (c : Sec) : (setSec s c).shp = s.shp := rfl
@[simp] theorem setSec_tly (s : State) (c : Sec) : (setSec s c).tly = s.tly := rfl
@[simp] theorem setSec_boot (s : State) (c : Sec) : (setSec s c).boot = s.boot := rfl
@[simp] theorem setSec_free (s : State) (c : Sec) : (setSec s c).free = s.free := rfl
@[simp] theorem setSec_pending (s : State) (c : Sec) : (setSec s c).pending = s.pending := rfl

@[simp] theorem setTim_sys (s : State) (t : Tim) : (setTim s t).sys = s.sys := rfl
@[simp] theorem setTim_die (s : State) (t : Tim) : (setTim s t).die = s.die := rfl
@[simp] theorem setTim_knl (s : State) (t : Tim) : (setTim s t).knl = s.knl := rfl
@[simp] theorem setTim_frm (s : State) (t : Tim) : (setTim s t).frm = s.frm := rfl
@[simp] theorem setTim_edg (s : State) (t : Tim) : (setTim s t).edg = s.edg := rfl
@[simp] theorem setTim_rod (s : State) (t : Tim) : (setTim s t).rod = s.rod := rfl
@[simp] theorem setTim_str (s : State) (t : Tim) : (setTim s t).str = s.str := rfl
@[simp] theorem setTim_ld (s : State) (t : Tim) : (setTim s t).ld = s.ld := rfl
@[simp] theorem setTim_mem (s : State) (t : Tim) : (setTim s t).mem = s.mem := rfl
@[simp] theorem setTim_brd (s : State) (t : Tim) : (setTim s t).brd = s.brd := rfl
@[simp] theorem setTim_lead (s : State) (t : Tim) : (setTim s t).lead = s.lead := rfl
@[simp] theorem setTim_col (s : State) (t : Tim) : (setTim s t).col = s.col := rfl
@[simp] theorem setTim_tet (s : State) (t : Tim) : (setTim s t).tet = s.tet := rfl
@[simp] theorem setTim_snp (s : State) (t : Tim) : (setTim s t).snp = s.snp := rfl
@[simp] theorem setTim_gov (s : State) (t : Tim) : (setTim s t).gov = s.gov := rfl
@[simp] theorem setTim_sec (s : State) (t : Tim) : (setTim s t).sec = s.sec := rfl
@[simp] theorem setTim_shp (s : State) (t : Tim) : (setTim s t).shp = s.shp := rfl
@[simp] theorem setTim_tly (s : State) (t : Tim) : (setTim s t).tly = s.tly := rfl
@[simp] theorem setTim_boot (s : State) (t : Tim) : (setTim s t).boot = s.boot := rfl
@[simp] theorem setTim_free (s : State) (t : Tim) : (setTim s t).free = s.free := rfl
@[simp] theorem setTim_pending (s : State) (t : Tim) : (setTim s t).pending = s.pending := rfl

@[simp] theorem setNorm_sys (s : State) (e : Nat) (x : NormEntry) : (setNorm s e x).sys = s.sys := rfl
@[simp] theorem setNorm_die (s : State) (e : Nat) (x : NormEntry) : (setNorm s e x).die = s.die := rfl
@[simp] theorem setNorm_knl (s : State) (e : Nat) (x : NormEntry) : (setNorm s e x).knl = s.knl := rfl
@[simp] theorem setNorm_frm (s : State) (e : Nat) (x : NormEntry) : (setNorm s e x).frm = s.frm := rfl
@[simp] theorem setNorm_edg (s : State) (e : Nat) (x : NormEntry) : (setNorm s e x).edg = s.edg := rfl
@[simp] theorem setNorm_str (s : State) (e : Nat) (x : NormEntry) : (setNorm s e x).str = s.str := rfl
@[simp] theorem setNorm_ld (s : State) (e : Nat) (x : NormEntry) : (setNorm s e x).ld = s.ld := rfl
@[simp] theorem setNorm_mem (s : State) (e : Nat) (x : NormEntry) : (setNorm s e x).mem = s.mem := rfl
@[simp] theorem setNorm_brd (s : State) (e : Nat) (x : NormEntry) : (setNorm s e x).brd = s.brd := rfl
@[simp] theorem setNorm_lead (s : State) (e : Nat) (x : NormEntry) : (setNorm s e x).lead = s.lead := rfl
@[simp] theorem setNorm_col (s : State) (e : Nat) (x : NormEntry) : (setNorm s e x).col = s.col := rfl
@[simp] theorem setNorm_tim (s : State) (e : Nat) (x : NormEntry) : (setNorm s e x).tim = s.tim := rfl
@[simp] theorem setNorm_tet (s : State) (e : Nat) (x : NormEntry) : (setNorm s e x).tet = s.tet := rfl
@[simp] theorem setNorm_snp (s : State) (e : Nat) (x : NormEntry) : (setNorm s e x).snp = s.snp := rfl
@[simp] theorem setNorm_gov (s : State) (e : Nat) (x : NormEntry) : (setNorm s e x).gov = s.gov := rfl
@[simp] theorem setNorm_sec (s : State) (e : Nat) (x : NormEntry) : (setNorm s e x).sec = s.sec := rfl
@[simp] theorem setNorm_shp (s : State) (e : Nat) (x : NormEntry) : (setNorm s e x).shp = s.shp := rfl
@[simp] theorem setNorm_tly (s : State) (e : Nat) (x : NormEntry) : (setNorm s e x).tly = s.tly := rfl
@[simp] theorem setNorm_boot (s : State) (e : Nat) (x : NormEntry) : (setNorm s e x).boot = s.boot := rfl
@[simp] theorem setNorm_free (s : State) (e : Nat) (x : NormEntry) : (setNorm s e x).free = s.free := rfl
@[simp] theorem setNorm_pending (s : State) (e : Nat) (x : NormEntry) : (setNorm s e x).pending = s.pending := rfl

@[simp] theorem setFwSlot_sys (s : State) (i : Nat) (x : FwSlot) : (setFwSlot s i x).sys = s.sys := rfl
@[simp] theorem setFwSlot_die (s : State) (i : Nat) (x : FwSlot) : (setFwSlot s i x).die = s.die := rfl
@[simp] theorem setFwSlot_knl (s : State) (i : Nat) (x : FwSlot) : (setFwSlot s i x).knl = s.knl := rfl
@[simp] theorem setFwSlot_frm (s : State) (i : Nat) (x : FwSlot) : (setFwSlot s i x).frm = s.frm := rfl
@[simp] theorem setFwSlot_edg (s : State) (i : Nat) (x : FwSlot) : (setFwSlot s i x).edg = s.edg := rfl
@[simp] theorem setFwSlot_rod (s : State) (i : Nat) (x : FwSlot) : (setFwSlot s i x).rod = s.rod := rfl
@[simp] theorem setFwSlot_str (s : State) (i : Nat) (x : FwSlot) : (setFwSlot s i x).str = s.str := rfl
@[simp] theorem setFwSlot_ld (s : State) (i : Nat) (x : FwSlot) : (setFwSlot s i x).ld = s.ld := rfl
@[simp] theorem setFwSlot_mem (s : State) (i : Nat) (x : FwSlot) : (setFwSlot s i x).mem = s.mem := rfl
@[simp] theorem setFwSlot_brd (s : State) (i : Nat) (x : FwSlot) : (setFwSlot s i x).brd = s.brd := rfl
@[simp] theorem setFwSlot_lead (s : State) (i : Nat) (x : FwSlot) : (setFwSlot s i x).lead = s.lead := rfl
@[simp] theorem setFwSlot_col (s : State) (i : Nat) (x : FwSlot) : (setFwSlot s i x).col = s.col := rfl
@[simp] theorem setFwSlot_tim (s : State) (i : Nat) (x : FwSlot) : (setFwSlot s i x).tim = s.tim := rfl
@[simp] theorem setFwSlot_tet (s : State) (i : Nat) (x : FwSlot) : (setFwSlot s i x).tet = s.tet := rfl
@[simp] theorem setFwSlot_snp (s : State) (i : Nat) (x : FwSlot) : (setFwSlot s i x).snp = s.snp := rfl
@[simp] theorem setFwSlot_gov (s : State) (i : Nat) (x : FwSlot) : (setFwSlot s i x).gov = s.gov := rfl
@[simp] theorem setFwSlot_shp (s : State) (i : Nat) (x : FwSlot) : (setFwSlot s i x).shp = s.shp := rfl
@[simp] theorem setFwSlot_tly (s : State) (i : Nat) (x : FwSlot) : (setFwSlot s i x).tly = s.tly := rfl
@[simp] theorem setFwSlot_boot (s : State) (i : Nat) (x : FwSlot) : (setFwSlot s i x).boot = s.boot := rfl
@[simp] theorem setFwSlot_free (s : State) (i : Nat) (x : FwSlot) : (setFwSlot s i x).free = s.free := rfl
@[simp] theorem setFwSlot_pending (s : State) (i : Nat) (x : FwSlot) : (setFwSlot s i x).pending = s.pending := rfl

@[simp] theorem setRestore_sys (s : State) (x : Option Restore) : (setRestore s x).sys = s.sys := rfl
@[simp] theorem setRestore_die (s : State) (x : Option Restore) : (setRestore s x).die = s.die := rfl
@[simp] theorem setRestore_knl (s : State) (x : Option Restore) : (setRestore s x).knl = s.knl := rfl
@[simp] theorem setRestore_frm (s : State) (x : Option Restore) : (setRestore s x).frm = s.frm := rfl
@[simp] theorem setRestore_edg (s : State) (x : Option Restore) : (setRestore s x).edg = s.edg := rfl
@[simp] theorem setRestore_rod (s : State) (x : Option Restore) : (setRestore s x).rod = s.rod := rfl
@[simp] theorem setRestore_str (s : State) (x : Option Restore) : (setRestore s x).str = s.str := rfl
@[simp] theorem setRestore_ld (s : State) (x : Option Restore) : (setRestore s x).ld = s.ld := rfl
@[simp] theorem setRestore_mem (s : State) (x : Option Restore) : (setRestore s x).mem = s.mem := rfl
@[simp] theorem setRestore_brd (s : State) (x : Option Restore) : (setRestore s x).brd = s.brd := rfl
@[simp] theorem setRestore_lead (s : State) (x : Option Restore) : (setRestore s x).lead = s.lead := rfl
@[simp] theorem setRestore_col (s : State) (x : Option Restore) : (setRestore s x).col = s.col := rfl
@[simp] theorem setRestore_tim (s : State) (x : Option Restore) : (setRestore s x).tim = s.tim := rfl
@[simp] theorem setRestore_tet (s : State) (x : Option Restore) : (setRestore s x).tet = s.tet := rfl
@[simp] theorem setRestore_gov (s : State) (x : Option Restore) : (setRestore s x).gov = s.gov := rfl
@[simp] theorem setRestore_sec (s : State) (x : Option Restore) : (setRestore s x).sec = s.sec := rfl
@[simp] theorem setRestore_shp (s : State) (x : Option Restore) : (setRestore s x).shp = s.shp := rfl
@[simp] theorem setRestore_tly (s : State) (x : Option Restore) : (setRestore s x).tly = s.tly := rfl
@[simp] theorem setRestore_boot (s : State) (x : Option Restore) : (setRestore s x).boot = s.boot := rfl
@[simp] theorem setRestore_free (s : State) (x : Option Restore) : (setRestore s x).free = s.free := rfl
@[simp] theorem setRestore_pending (s : State) (x : Option Restore) : (setRestore s x).pending = s.pending := rfl

@[simp] theorem setLaunch_sys (s : State) (l : BitVec 48) : (setLaunch s l).sys = s.sys := rfl
@[simp] theorem setLaunch_die (s : State) (l : BitVec 48) : (setLaunch s l).die = s.die := rfl
@[simp] theorem setLaunch_knl (s : State) (l : BitVec 48) : (setLaunch s l).knl = s.knl := rfl
@[simp] theorem setLaunch_frm (s : State) (l : BitVec 48) : (setLaunch s l).frm = s.frm := rfl
@[simp] theorem setLaunch_edg (s : State) (l : BitVec 48) : (setLaunch s l).edg = s.edg := rfl
@[simp] theorem setLaunch_rod (s : State) (l : BitVec 48) : (setLaunch s l).rod = s.rod := rfl
@[simp] theorem setLaunch_str (s : State) (l : BitVec 48) : (setLaunch s l).str = s.str := rfl
@[simp] theorem setLaunch_ld (s : State) (l : BitVec 48) : (setLaunch s l).ld = s.ld := rfl
@[simp] theorem setLaunch_mem (s : State) (l : BitVec 48) : (setLaunch s l).mem = s.mem := rfl
@[simp] theorem setLaunch_brd (s : State) (l : BitVec 48) : (setLaunch s l).brd = s.brd := rfl
@[simp] theorem setLaunch_lead (s : State) (l : BitVec 48) : (setLaunch s l).lead = s.lead := rfl
@[simp] theorem setLaunch_col (s : State) (l : BitVec 48) : (setLaunch s l).col = s.col := rfl
@[simp] theorem setLaunch_tim (s : State) (l : BitVec 48) : (setLaunch s l).tim = s.tim := rfl
@[simp] theorem setLaunch_snp (s : State) (l : BitVec 48) : (setLaunch s l).snp = s.snp := rfl
@[simp] theorem setLaunch_gov (s : State) (l : BitVec 48) : (setLaunch s l).gov = s.gov := rfl
@[simp] theorem setLaunch_sec (s : State) (l : BitVec 48) : (setLaunch s l).sec = s.sec := rfl
@[simp] theorem setLaunch_shp (s : State) (l : BitVec 48) : (setLaunch s l).shp = s.shp := rfl
@[simp] theorem setLaunch_tly (s : State) (l : BitVec 48) : (setLaunch s l).tly = s.tly := rfl
@[simp] theorem setLaunch_boot (s : State) (l : BitVec 48) : (setLaunch s l).boot = s.boot := rfl
@[simp] theorem setLaunch_free (s : State) (l : BitVec 48) : (setLaunch s l).free = s.free := rfl
@[simp] theorem setLaunch_pending (s : State) (l : BitVec 48) : (setLaunch s l).pending = s.pending := rfl

@[simp] theorem setDieCursor_sys (s : State) (c : BitVec 19) : (setDieCursor s c).sys = s.sys := rfl
@[simp] theorem setDieCursor_die (s : State) (c : BitVec 19) : (setDieCursor s c).die = s.die := rfl
@[simp] theorem setDieCursor_knl (s : State) (c : BitVec 19) : (setDieCursor s c).knl = s.knl := rfl
@[simp] theorem setDieCursor_frm (s : State) (c : BitVec 19) : (setDieCursor s c).frm = s.frm := rfl
@[simp] theorem setDieCursor_edg (s : State) (c : BitVec 19) : (setDieCursor s c).edg = s.edg := rfl
@[simp] theorem setDieCursor_rod (s : State) (c : BitVec 19) : (setDieCursor s c).rod = s.rod := rfl
@[simp] theorem setDieCursor_str (s : State) (c : BitVec 19) : (setDieCursor s c).str = s.str := rfl
@[simp] theorem setDieCursor_ld (s : State) (c : BitVec 19) : (setDieCursor s c).ld = s.ld := rfl
@[simp] theorem setDieCursor_mem (s : State) (c : BitVec 19) : (setDieCursor s c).mem = s.mem := rfl
@[simp] theorem setDieCursor_brd (s : State) (c : BitVec 19) : (setDieCursor s c).brd = s.brd := rfl
@[simp] theorem setDieCursor_lead (s : State) (c : BitVec 19) : (setDieCursor s c).lead = s.lead := rfl
@[simp] theorem setDieCursor_col (s : State) (c : BitVec 19) : (setDieCursor s c).col = s.col := rfl
@[simp] theorem setDieCursor_tim (s : State) (c : BitVec 19) : (setDieCursor s c).tim = s.tim := rfl
@[simp] theorem setDieCursor_tet (s : State) (c : BitVec 19) : (setDieCursor s c).tet = s.tet := rfl
@[simp] theorem setDieCursor_snp (s : State) (c : BitVec 19) : (setDieCursor s c).snp = s.snp := rfl
@[simp] theorem setDieCursor_gov (s : State) (c : BitVec 19) : (setDieCursor s c).gov = s.gov := rfl
@[simp] theorem setDieCursor_sec (s : State) (c : BitVec 19) : (setDieCursor s c).sec = s.sec := rfl
@[simp] theorem setDieCursor_shp (s : State) (c : BitVec 19) : (setDieCursor s c).shp = s.shp := rfl
@[simp] theorem setDieCursor_boot (s : State) (c : BitVec 19) : (setDieCursor s c).boot = s.boot := rfl
@[simp] theorem setDieCursor_free (s : State) (c : BitVec 19) : (setDieCursor s c).free = s.free := rfl
@[simp] theorem setDieCursor_pending (s : State) (c : BitVec 19) : (setDieCursor s c).pending = s.pending := rfl

@[simp] theorem setSideCursor_sys (s : State) (c : BitVec 19) : (setSideCursor s c).sys = s.sys := rfl
@[simp] theorem setSideCursor_die (s : State) (c : BitVec 19) : (setSideCursor s c).die = s.die := rfl
@[simp] theorem setSideCursor_knl (s : State) (c : BitVec 19) : (setSideCursor s c).knl = s.knl := rfl
@[simp] theorem setSideCursor_frm (s : State) (c : BitVec 19) : (setSideCursor s c).frm = s.frm := rfl
@[simp] theorem setSideCursor_edg (s : State) (c : BitVec 19) : (setSideCursor s c).edg = s.edg := rfl
@[simp] theorem setSideCursor_rod (s : State) (c : BitVec 19) : (setSideCursor s c).rod = s.rod := rfl
@[simp] theorem setSideCursor_str (s : State) (c : BitVec 19) : (setSideCursor s c).str = s.str := rfl
@[simp] theorem setSideCursor_ld (s : State) (c : BitVec 19) : (setSideCursor s c).ld = s.ld := rfl
@[simp] theorem setSideCursor_mem (s : State) (c : BitVec 19) : (setSideCursor s c).mem = s.mem := rfl
@[simp] theorem setSideCursor_brd (s : State) (c : BitVec 19) : (setSideCursor s c).brd = s.brd := rfl
@[simp] theorem setSideCursor_lead (s : State) (c : BitVec 19) : (setSideCursor s c).lead = s.lead := rfl
@[simp] theorem setSideCursor_col (s : State) (c : BitVec 19) : (setSideCursor s c).col = s.col := rfl
@[simp] theorem setSideCursor_tim (s : State) (c : BitVec 19) : (setSideCursor s c).tim = s.tim := rfl
@[simp] theorem setSideCursor_tet (s : State) (c : BitVec 19) : (setSideCursor s c).tet = s.tet := rfl
@[simp] theorem setSideCursor_snp (s : State) (c : BitVec 19) : (setSideCursor s c).snp = s.snp := rfl
@[simp] theorem setSideCursor_gov (s : State) (c : BitVec 19) : (setSideCursor s c).gov = s.gov := rfl
@[simp] theorem setSideCursor_sec (s : State) (c : BitVec 19) : (setSideCursor s c).sec = s.sec := rfl
@[simp] theorem setSideCursor_shp (s : State) (c : BitVec 19) : (setSideCursor s c).shp = s.shp := rfl
@[simp] theorem setSideCursor_boot (s : State) (c : BitVec 19) : (setSideCursor s c).boot = s.boot := rfl
@[simp] theorem setSideCursor_free (s : State) (c : BitVec 19) : (setSideCursor s c).free = s.free := rfl
@[simp] theorem setSideCursor_pending (s : State) (c : BitVec 19) : (setSideCursor s c).pending = s.pending := rfl

/-! ## The unit that an update replaces -/

@[simp] theorem setGov_gov (s : State) (g : Gov) : (setGov s g).gov = g := rfl
@[simp] theorem setKnl_knl (s : State) (k : Knl) : (setKnl s k).knl = k := rfl
@[simp] theorem setSnp_snp (s : State) (n : Snp) : (setSnp s n).snp = n := rfl
@[simp] theorem setShp_shp (s : State) (h : Shp) : (setShp s h).shp = h := rfl
@[simp] theorem setSec_sec (s : State) (c : Sec) : (setSec s c).sec = c := rfl
@[simp] theorem setTim_tim (s : State) (t : Tim) : (setTim s t).tim = t := rfl

end Sys2Proof.Machine
end

