-- ==== Sys2Proof/Laws/Strands.lean ====
section
/-!
SUPPORT. Strands, tokens and codes: what an update of one does to the others.
-/
namespace Sys2Proof.Machine

/-! ## Strands -/

theorem strand_setStrand_same (s : State) {n : Nat} (h : n < 43) (x : Strand) : strand (setStrand s n x) n = x :=
  vget_vset_same _ h _ _

theorem strand_setStrand_other (s : State) {n m : Nat} (h : m ≠ n) (x : Strand) : strand (setStrand s n x) m = strand s m :=
  vget_vset_other _ h _ _

theorem strand_congr {s t : State} (h : t.str.strands = s.str.strands) (n : Nat) : strand t n = strand s n := by
  unfold strand; rw [h]

/-- Issuing from a state whose strands are those of s. -/
theorem issued_issueStrand {s t : State} (h : t.str.strands = s.str.strands) {n : Nat} (hn : n < 43) :
    Issued s (issueStrand t n) n := by
  refine ⟨?_, fun m hm => ?_⟩
  · unfold issueStrand; rw [strand_setStrand_same _ hn, strand_congr h]
  · unfold issueStrand; rw [strand_setStrand_other _ hm, strand_congr h]

/-! ## Tokens -/

theorem sgetD_ssetD_same {α : Type} [DecidableEq α] {m : SMap α} (h : srising 0 m = true) (d : α) (k : Nat) (v : α) :
    sgetD (ssetD d m k v) k d = v := by
  unfold sgetD ssetD
  split
  · rename_i hv; rw [sget?_serase_same k m h, hv]; rfl
  · rw [sget?_sset_same]; rfl

theorem sgetD_ssetD_other {α : Type} [DecidableEq α] (m : SMap α) (d : α) {k k' : Nat} (hne : k' ≠ k) (v : α) :
    sgetD (ssetD d m k v) k' d = sgetD m k' d := by
  unfold sgetD ssetD
  split
  · rw [sget?_serase_other hne]
  · rw [sget?_sset_other v hne]

theorem srising_ssetD {α : Type} [DecidableEq α] {m : SMap α} (h : srising 0 m = true) (d : α) (k : Nat) (v : α) :
    srising 0 (ssetD d m k v) = true := by
  unfold ssetD
  split
  · exact srising_serase k m h
  · exact srising_sset v (Nat.zero_le k) m h

/-- A token holds what it was set to. -/
theorem token_setToken_same {s : State} (h : srising 0 s.str.tok = true) (i : Nat) {x : Nat} (hx : x < 65536) :
    token (setToken s i x) i = x := by
  unfold token setToken
  simp only
  rw [sgetD_ssetD_same h, BitVec.toNat_ofNat, Nat.mod_eq_of_lt hx]

/-- Setting a token leaves the others alone. -/
theorem token_setToken_other (s : State) {i k : Nat} (hne : k ≠ i) (x : Nat) : token (setToken s i x) k = token s k := by
  unfold token setToken
  simp only
  rw [sgetD_ssetD_other _ _ hne]

theorem token_lt (s : State) (i : Nat) : token s i < 65536 := (sgetD s.str.tok i 0).isLt

theorem token_congr {s t : State} (h : t.str.tok = s.str.tok) (i : Nat) : token t i = token s i := by
  unfold token; rw [h]

/-! ## Codes (R429, R430) -/

/-- While the compute die is released, a code joins the codes on their way to the Kennel. -/
theorem raise_inflight {s : State} (h : s.die ≠ .off) (code : Nat) (eff : Effect) (detail : Bytes) :
    (raise s code eff detail).knl.inflight =
      s.knl.inflight ++ [⟨BitVec.ofNat 32 code, eff, detail, s.sys.drill⟩] := by
  have hc : ∀ t : State, (countCode t code).knl = t.knl ∧ (countCode t code).sys = t.sys ∧ (countCode t code).die = t.die := by
    intro t; unfold countCode; split <;> exact ⟨rfl, rfl, rfl⟩
  have he : ∀ (t : State) (u : EvUnit) (b : Nat), (setEvent t u b).knl.inflight = t.knl.inflight ∧
      (setEvent t u b).sys = t.sys ∧ (setEvent t u b).die = t.die := by
    intro t u b; cases u <;> exact ⟨rfl, rfl, rfl⟩
  unfold raise
  cases hb : eventBit code with
  | none => simp [(hc s).2.2, h, (hc s).1, (hc s).2.1]
  | some ub =>
    obtain ⟨u, b⟩ := ub
    simp only
    rw [(hc _).2.2, (he s u b).2.2, if_neg h]
    simp [(hc _).1, (hc _).2.1, (he s u b).1, (he s u b).2.1]

/-- Raising a code changes no strand, token, ring or image. -/
@[simp] theorem raise_str (s : State) (code : Nat) (eff : Effect) (detail : Bytes) : (raise s code eff detail).str = s.str := by
  have hc : ∀ t : State, (countCode t code).str = t.str := by intro t; unfold countCode; split <;> rfl
  have he : ∀ (t : State) (u : EvUnit) (b : Nat), (setEvent t u b).str = t.str := by intro t u b; cases u <;> rfl
  have hr : ∀ t r, (storeRec t r).str = t.str := by intro t r; unfold storeRec; split <;> [rfl; (split <;> rfl)]
  have hs : ∀ t, (shepherdRecord t code eff detail).str = t.str := by
    intro t; unfold shepherdRecord techCode; split <;> [simp only [hr]; rfl]
  unfold raise
  cases hb : eventBit code with
  | none => simp only; split <;> [rw [hs, hc]; exact hc s]
  | some ub => obtain ⟨u, b⟩ := ub; simp only; split <;> [rw [hs, hc, he]; exact (hc _).trans (he _ _ _)]

end Sys2Proof.Machine
end

