-- ==== Sys2Proof/Laws/Canonical.lean ====
section
/-!
SUPPORT. The shared operations over memory, strands, rings and slots keep every memory in its canonical form.
-/
namespace Sys2Proof

open Machine

/-- A map of check values in its canonical form: rising block numbers, and no block that reads as one of zeros. -/
abbrev CheckForm (c : SMap Word) : Prop := srising 0 c = true ∧ c.all (fun e => e.2 != zeroCheck) = true

theorem checkForm_ssetD {c : SMap Word} (h : CheckForm c) (k : Nat) (v : Word) : CheckForm (ssetD zeroCheck c k v) := by
  unfold ssetD
  split
  · exact ⟨srising_serase k c h.1, all_serase k c h.2⟩
  · rename_i hv
    exact ⟨srising_sset v (Nat.zero_le k) c h.1, all_sset (by simpa using hv) c h.2⟩

theorem checkForm_checkWrite (m : Mem) (a : Nat) (b : Bytes) :
    (n k : Nat) → {c : SMap Word} → CheckForm c → CheckForm (checkWrite m a b n k c)
  | 0, _, _, h => h
  | n + 1, k, _, h => checkForm_checkWrite m a b n (k + 1) (checkForm_ssetD h k _)

/-- A write leaves the check values in their canonical form. -/
theorem checkForm_checksAfter (m : Mem) {c : SMap Word} (h : CheckForm c) (a : Nat) (b : Bytes) : CheckForm (checksAfter m c a b) := by
  unfold checksAfter
  split
  · exact h
  · exact checkForm_checkWrite m a b _ _ h

/-- A state is canonical when the memories of a canonical one stand in it. -/
theorem Canonical.of_eq {s t : State} (h : Canonical s) (h1 : t.mem = s.mem) (h2 : t.brd = s.brd) (h3 : t.rod = s.rod)
    (h4 : t.snp.mirror = s.snp.mirror) (h5 : t.str.tok = s.str.tok) : Canonical t where
  hbm := h1 ▸ h.hbm
  board := h2 ▸ h.board
  locals c := by unfold lmem; rw [h3]; exact h.locals c
  mirror := h4 ▸ h.mirror
  norm := h3 ▸ h.norm
  tokens := h5 ▸ h.tokens
  checks := by rw [h1, h2]; exact h.checks

theorem Canonical.boardWrite {s : State} (h : Canonical s) (a : Nat) (b : Bytes) : Canonical (Machine.boardWrite s a b) :=
  { h with
    board := mwrite_wf b h.board a
    checks := by
      simp only [List.forall_mem_cons] at h ⊢
      obtain ⟨h1, h2, _⟩ := List.forall_mem_cons.mp h.checks |>.imp_right List.forall_mem_cons.mp
      exact ⟨checkForm_checksAfter _ h1 a b, h2, by simp⟩ }

theorem Canonical.jobWrite {s : State} (h : Canonical s) (a : Nat) (b : Bytes) : Canonical (Machine.jobWrite s a b) :=
  { h with
    hbm := mwrite_wf b h.hbm a
    checks := by
      simp only [List.forall_mem_cons] at h ⊢
      obtain ⟨h1, h2, _⟩ := List.forall_mem_cons.mp h.checks |>.imp_right List.forall_mem_cons.mp
      exact ⟨h1, checkForm_checksAfter _ h2 a b, by simp⟩ }

theorem Canonical.setLmem {s : State} (h : Canonical s) {c : Nat} (hc : c < 16) {m : Mem} (hm : m.wf = true) : Canonical (Machine.setLmem s c m) :=
  { h with
    locals := fun c' => by
      by_cases e : c' = c
      · subst e; rw [lmem_setLmem_same s hc]; exact hm
      · rw [lmem_setLmem_other s e]; exact h.locals c' }

theorem Canonical.setToken {s : State} (h : Canonical s) (i x : Nat) : Canonical (Machine.setToken s i x) :=
  { h with tokens := srising_ssetD h.tokens 0 i _ }

@[simp] theorem canonical_setStrand (s : State) (n : Nat) (x : Strand) : Canonical (setStrand s n x) ↔ Canonical s :=
  ⟨fun h => h.of_eq rfl rfl rfl rfl rfl, fun h => h.of_eq rfl rfl rfl rfl rfl⟩

@[simp] theorem canonical_issueStrand (s : State) (n : Nat) : Canonical (issueStrand s n) ↔ Canonical s :=
  ⟨fun h => h.of_eq rfl rfl rfl rfl rfl, fun h => h.of_eq rfl rfl rfl rfl rfl⟩

@[simp] theorem canonical_setRing (s : State) (r : Nat) (x : Ring) : Canonical (setRing s r x) ↔ Canonical s :=
  ⟨fun h => h.of_eq rfl rfl rfl rfl rfl, fun h => h.of_eq rfl rfl rfl rfl rfl⟩

@[simp] theorem canonical_setSlot (s : State) (k : Nat) (x : Slot) : Canonical (setSlot s k x) ↔ Canonical s :=
  ⟨fun h => h.of_eq rfl rfl rfl rfl rfl, fun h => h.of_eq rfl rfl rfl rfl rfl⟩

@[simp] theorem canonical_setLead (s : State) (i : Nat) (x : Lead) : Canonical (setLead s i x) ↔ Canonical s :=
  ⟨fun h => h.of_eq rfl rfl rfl rfl rfl, fun h => h.of_eq rfl rfl rfl rfl rfl⟩

/-- Protecting a page before a write changes no memory (R481). -/
theorem Canonical.protectPage {s : State} (h : Canonical s) (a : Nat) : Canonical (Machine.protectPage s a) := by
  unfold Machine.protectPage
  repeat' split
  all_goals exact h.of_eq rfl rfl rfl rfl rfl

theorem Canonical.protect {s : State} (h : Canonical s) (a len : Nat) : Canonical (Machine.protect s a len) := by
  unfold Machine.protect
  split
  · exact h
  · generalize List.range _ = l
    induction l generalizing s with
    | nil => exact h
    | cons i l ih => exact ih (h.protectPage _)

theorem Canonical.hbmWrite {s : State} (h : Canonical s) (a : Nat) (b : Bytes) : Canonical (Machine.hbmWrite s a b) :=
  (h.protect a b.length).jobWrite a b

/-- A write at a location keeps every memory in its canonical form. -/
theorem Canonical.locWrite {s : State} (h : Canonical s) (l : Nat) (b : Bytes) : Canonical (Machine.locWrite s l b) := by
  unfold Machine.locWrite
  split
  · exact h.boardWrite _ b
  · exact h.hbmWrite _ b

end Sys2Proof
end

