-- ==== Sys2Proof/Laws/Cipher.lean ====
section
/-!
SUPPORT. The lengths of what the ciphers answer, and that GCM opens what it has sealed, without evaluating a block.
-/
namespace Sys2Proof.Machine

theorem xorBytes_length (a b : Bytes) : (xorBytes a b).length = min a.length b.length := by simp [xorBytes]

/-- A text under a key stream, twice. -/
theorem xorBytes_xorBytes : (b k : Bytes) → b.length ≤ k.length → xorBytes (xorBytes b k) k = b
  | [], _, _ => by simp [xorBytes]
  | _ :: _, [], h => by simp at h
  | x :: b, y :: k, h => by
    have ih := xorBytes_xorBytes b k (by simpa using h)
    simp only [xorBytes, List.zipWith_cons_cons] at ih ⊢
    rw [ih, BitVec.xor_assoc, BitVec.xor_self, BitVec.xor_zero]

theorem zeros_length (n : Nat) : (zeros n).length = n := by simp [zeros]

theorem natBE_length (k x : Nat) : (natBE k x).length = k := by simp [natBE, natLE_length]

theorem keyNext_length {win : List Bytes} (h : ∀ x ∈ win, x.length = 4) (hne : win ≠ []) (i : Nat) : (keyNext win i).length = 4 := by
  have hl : (win.getLastD []).length = 4 := by
    rw [List.getLastD_eq_getLast?, List.getLast?_eq_some_getLast hne]; exact h _ (List.getLast_mem hne)
  have hh : (win.headD []).length = 4 := by
    obtain ⟨x, xs, rfl⟩ := List.exists_cons_of_ne_nil hne; exact h x (by simp)
  simp only [keyNext, xorBytes_length, hh]
  generalize win.getLastD [] = t at hl ⊢
  split
  · simp [xorBytes_length, hl, zeros_length]
  · split <;> simp [hl]

theorem keyGroups_shape : (n i : Nat) → (win : List Bytes) → (∀ x ∈ win, x.length = 4) → win ≠ [] →
    (keyGroups n i win).length = n ∧ ∀ x ∈ keyGroups n i win, x.length = 4
  | 0, _, _, _, _ => by simp [keyGroups]
  | n + 1, i, win, h, hne => by
    have ih := keyGroups_shape n (i + 1) (win.drop 1 ++ [keyNext win i]) (fun x hx => by
      rcases List.mem_append.mp hx with hx | hx
      · exact h x (List.mem_of_mem_drop hx)
      · rw [List.mem_singleton.mp hx]; exact keyNext_length h hne i) (by simp)
    refine ⟨by rw [keyGroups, List.length_cons, ih.1], fun x hx => ?_⟩
    rcases List.mem_cons.mp hx with rfl | hx
    · obtain ⟨y, ys, rfl⟩ := List.exists_cons_of_ne_nil hne; exact h y (by simp)
    · exact ih.2 x hx

theorem pieces_shape (k : Nat) : (n : Nat) → (b : Bytes) → k * n ≤ b.length →
    (pieces k n b).length = n ∧ ∀ x ∈ pieces k n b, x.length = k
  | 0, _, _ => by simp [pieces]
  | n + 1, b, h => by
    rw [Nat.mul_succ] at h
    have ih := pieces_shape k n (b.drop k) (by rw [List.length_drop]; omega)
    refine ⟨by simp [pieces, ih.1], fun x hx => ?_⟩
    rcases List.mem_cons.mp hx with rfl | hx
    · rw [List.length_take]; omega
    · exact ih.2 x hx

theorem length_flatten_of {k : Nat} : (l : List Bytes) → (∀ x ∈ l, x.length = k) → l.flatten.length = k * l.length
  | [], _ => by simp
  | x :: l, h => by
    rw [List.flatten_cons, List.length_append, h x (by simp), length_flatten_of l (fun y hy => h y (by simp [hy])),
      List.length_cons, Nat.mul_succ, Nat.add_comm]

theorem roundKeys_shape {key : Bytes} (h : key.length = 32) : roundKeys key ≠ [] ∧ ∀ x ∈ roundKeys key, x.length = 16 := by
  have h1 := pieces_shape 4 8 key (by omega)
  have h2 := keyGroups_shape 60 8 (pieces 4 8 key) h1.2 (fun h0 => by rw [h0] at h1; simp at h1)
  have h3 := pieces_shape 16 15 (keyGroups 60 8 (pieces 4 8 key)).flatten (by rw [length_flatten_of _ h2.2, h2.1])
  exact ⟨fun h0 => by rw [roundKeys] at h0; rw [h0] at h3; simp at h3, h3.2⟩

theorem subShift_length (b : Bytes) : (subShift b).length = 16 := by simp [subShift]

theorem aesRounds_length : (ks : List Bytes) → (b : Bytes) → (∀ x ∈ ks, x.length = 16) → b.length = 16 → (aesRounds ks b).length = 16
  | [], _, _, h => h
  | [k], b, hk, _ => by simp [aesRounds, xorBytes_length, subShift_length, hk k (by simp)]
  | k :: k' :: ks, b, hk, _ => by
    refine aesRounds_length (k' :: ks) _ (fun x hx => hk x (by simp [hx])) ?_
    rw [xorBytes_length, hk k (by simp), List.length_flatMap]
    have := pieces_shape 4 4 (subShift b) (by simp [subShift_length])
    simp [mixColumn, this.1]

theorem aesBlock_length {ks : List Bytes} {b : Bytes} (hne : ks ≠ []) (hk : ∀ x ∈ ks, x.length = 16) (hb : b.length = 16) :
    (aesBlock ks b).length = 16 := by
  obtain ⟨k, ks, rfl⟩ := List.exists_cons_of_ne_nil hne
  exact aesRounds_length _ _ (fun x hx => hk x (List.mem_of_mem_drop hx)) (by simp [xorBytes_length, hb, hk k (by simp)])

theorem gcmTag_length {key nonce : Bytes} (hk : key.length = 32) (hn : nonce.length = 12) (aad ct : Bytes) :
    (gcmTag (roundKeys key) nonce aad ct).length = 16 := by
  have h := roundKeys_shape hk
  simp [gcmTag, xorBytes_length, natBE_length, aesBlock_length h.1 h.2 (b := nonce ++ natBE 4 1) (by simp [hn, natBE_length])]

theorem gcmStream_length (ks : List Bytes) (nonce : Bytes) (n : Nat) : (gcmStream ks nonce n).length = n := by
  simp only [gcmStream, List.length_append, List.length_take, zeros_length]; omega

theorem gcmText_length (ks : List Bytes) (nonce b : Bytes) : (gcmText ks nonce b).length = b.length := by
  simp [gcmText, xorBytes_length, gcmStream_length]

/-- The text has the length of the ciphertext without its tag. -/
theorem gcmOpen_length {key nonce aad c d : Bytes} (h : gcmOpen key nonce aad c = some d) : d.length = c.length - 16 := by
  simp only [gcmOpen] at h
  split at h
  · cases h; simp [gcmText_length]
  · cases h

/-- GCM opens what it has sealed, under a key of 32 bytes and a nonce of 12. -/
theorem gcmOpen_gcmSeal {key nonce : Bytes} (hk : key.length = 32) (hn : nonce.length = 12) (aad b : Bytes) :
    gcmOpen key nonce aad (gcmSeal key nonce aad b) = some b := by
  have ht := gcmTag_length hk hn aad (gcmText (roundKeys key) nonce b)
  simp only [gcmOpen, gcmSeal, List.length_append, ht, Nat.add_sub_cancel]
  rw [List.drop_left, List.take_left, if_pos rfl]
  simp only [gcmText, Option.some.injEq]
  rw [xorBytes_length, gcmStream_length, Nat.min_self]
  exact xorBytes_xorBytes _ _ (by simp [gcmStream_length])

theorem sha256_length (m : Bytes) : (sha256 m).length = 32 := by simp [sha256, natBE_length]

end Sys2Proof.Machine
end

