-- ==== Sys2Proof/Laws/Rods.lean ====
section
/-!
SUPPORT. What the common issue of a Rods instruction can do: it issues with its effect, or it is refused.
-/
namespace Sys2Proof.Machine

/-! ## The common issue -/

/-- An instruction that is not refused has its effect and issues. -/
theorem rodsIssue_issues {s : State} {c op : Nat} {refusal : State → BitVec 128 → Option Nat}
    {eff : State → BitVec 128 → State} (hb : begun s (18 + c) op = true) (hi : idle s (18 + c) = true)
    (hr : refusal s (strand s (18 + c)).word = none) :
    rodsIssue s c op refusal eff = issueStrand (eff s (strand s (18 + c)).word) (18 + c) := by
  unfold rodsIssue; simp [hb, hi, hr]

/-- An instruction that is refused stops its strand. -/
theorem rodsIssue_refused {s : State} {c op code : Nat} {refusal : State → BitVec 128 → Option Nat}
    {eff : State → BitVec 128 → State} (hb : begun s (18 + c) op = true) (hi : idle s (18 + c) = true)
    (hr : refusal s (strand s (18 + c)).word = some code) : rodsIssue s c op refusal eff = refuse s (18 + c) code := by
  unfold rodsIssue; simp [hb, hi, hr]

/-- An instruction that cannot issue yet changes nothing. -/
theorem rodsIssue_waits {s : State} {c op : Nat} {refusal : State → BitVec 128 → Option Nat}
    {eff : State → BitVec 128 → State} (h : begun s (18 + c) op = false ∨ idle s (18 + c) = false) :
    rodsIssue s c op refusal eff = s := by
  unfold rodsIssue; rcases h with h | h <;> simp [h]

theorem opersRefusal_none {rs ss : List Oper} (h : opersOk rs ss = true) : opersRefusal rs ss = none := by
  simp [opersRefusal, h]

theorem opersRefusal_some {rs ss : List Oper} (h : opersOk rs ss = false) : opersRefusal rs ss = some 0x0B040001 := by
  simp [opersRefusal, h]

/-- An effect on local memory alone that writes inside `len` bytes at `d`. -/
theorem localFrame_issue {s : State} {c n d len : Nat} {m : Mem} (hc : c < 16)
    (hm : ∀ a, a < d ∨ d + len ≤ a → mget m a = mget (lmem s c) a) : LocalFrame s (issueStrand (setLmem s c m) n) c d len := by
  refine ⟨fun a ha => ?_, fun c' hc' => ?_, rfl⟩
  · show mget (lmem (setLmem s c m) c) a = _
    rw [lmem_setLmem_same s hc, hm a ha]
  · show lmem (setLmem s c m) c' = _
    rw [lmem_setLmem_other s hc']

/-- Local memory after such an instruction. -/
theorem lmem_issue {s : State} {c n : Nat} {m : Mem} (hc : c < 16) : lmem (issueStrand (setLmem s c m) n) c = m :=
  lmem_setLmem_same s hc m

/-- What a vector written at `d` of cluster c's local memory leaves alone, and what it reads as. -/
theorem vecWrite_issue {s : State} {c n d k : Nat} {xs : List Nat} (hc : c < 16) (hn : n < 43) (hw : (lmem s c).wf = true) :
    let t := issueStrand (setLmem s c (vecWrite (lmem s c) d k xs)) n
    Issued s t n ∧ LocalFrame s t c d (xs.length * k) ∧
      ∀ j, (h : j < xs.length) → mnat (lmem t c) (d + k * j) k = xs[j] % 256 ^ k := by
  refine ⟨issued_issueStrand rfl hn, localFrame_issue hc fun a ha => ?_, fun j hj => ?_⟩
  · apply mget_vecWrite_outside; rw [Nat.mul_comm k]; exact ha
  · rw [lmem_issue hc, mnat_vecWrite k xs hw]

end Sys2Proof.Machine
end

