-- ==== Sys2Proof/Laws/Verify.lean ====
section
/-!
SUPPORT. Empty memories verify against their check values (R298 to R300), so that what reads them may complete.
-/
namespace Sys2Proof.Machine

/-- A memory that lists nothing reads as zeros. -/
theorem mread_nil : (a n : Nat) → mread [] a n = zeros n
  | _, 0 => rfl
  | a, n + 1 => by
    have h := mread_nil (a + 1) n
    simp only [mread, zeros, List.replicate_succ] at h ⊢
    rw [h]; rfl

theorem blockVerifies_nil (k : Nat) : blockVerifies [] [] k = true := by
  simp only [blockVerifies, mread_nil, checkAt, sgetD, sget?, zeroCheck, Option.getD_none, beq_self_eq_true]

theorem rangeVerifies_nil (a n : Nat) : rangeVerifies [] [] a n = true := by
  simp [rangeVerifies, blockVerifies_nil]

/-- Does a sparse map list no key from `a` on, below `a + n`? -/
def unlisted {α : Type} (m : SMap α) (a n : Nat) : Bool := m.all fun e => decide (e.1 < a) || decide (a + n ≤ e.1)

theorem sget?_unlisted {α : Type} {a n k : Nat} (h1 : a ≤ k) (h2 : k < a + n) : (m : SMap α) → unlisted m a n = true → sget? m k = none
  | [], _ => rfl
  | (k', v) :: rest, h => by
    simp only [unlisted, List.all_cons, Bool.and_eq_true, Bool.or_eq_true, decide_eq_true_eq] at h
    have hne : ¬k = k' := by omega
    rw [sget?, if_neg hne]
    exact sget?_unlisted h1 h2 rest h.2

/-- Addresses that a memory does not list read as zeros. -/
theorem mread_unlisted {m : Mem} {a n : Nat} (h : unlisted m a n = true) : mread m a n = zeros n := by
  rw [← mread_nil a n]
  refine mread_congr n a fun x h1 h2 => ?_
  simp only [mget, sgetD, sget?_unlisted h1 h2 m h, sget?]

/-- The blocks of a range in which a memory lists no byte and no check value verify. -/
theorem rangeVerifies_unlisted {m : Mem} {c : SMap Word} {a n : Nat}
    (hm : unlisted m (blockBytes * (a / blockBytes)) (blockBytes * ((a + n - 1) / blockBytes - a / blockBytes + 1)) = true)
    (hc : unlisted c (a / blockBytes) ((a + n - 1) / blockBytes - a / blockBytes + 1) = true) : rangeVerifies m c a n = true := by
  simp only [rangeVerifies, Bool.or_eq_true, List.all_eq_true, List.mem_range]
  refine .inr fun i hi => ?_
  have hb : unlisted m (blockBytes * (a / blockBytes + i)) blockBytes = true := by
    simp only [unlisted, List.all_eq_true, Bool.or_eq_true, decide_eq_true_eq] at hm ⊢
    intro e he
    have := hm e he
    simp only [blockBytes] at this hi ⊢
    omega
  simp only [blockVerifies, checkAt, sgetD, sget?_unlisted (by omega) (by omega : a / blockBytes + i < _) c hc, mread_unlisted hb, zeroCheck,
    Option.getD_none, beq_self_eq_true]

/-- A read within one Board block that verifies. -/
theorem locVerifies_board {s : State} {l n k : Nat} (hl : locBoard l = true) (h1 : locAddr l / blockBytes = k)
    (h2 : (locAddr l + n - 1) / blockBytes = k) (hb : blockVerifies s.brd.mem s.brd.check k = true) : locVerifies s l n = true := by
  rw [locVerifies, if_pos hl, rangeVerifies, h1, h2, Nat.sub_self]
  simp [hb]

/-- Are the Board and HBM empty? -/
def memoriesEmpty (s : State) : Bool :=
  decide (s.brd.mem = []) && decide (s.brd.check = []) && decide (s.mem.hbm = []) && decide (s.mem.check = [])

theorem locVerifies_empty {s : State} (h : memoriesEmpty s = true) (l n : Nat) : locVerifies s l n = true := by
  simp only [memoriesEmpty, Bool.and_eq_true, decide_eq_true_eq] at h
  obtain ⟨⟨⟨h1, h2⟩, h3⟩, h4⟩ := h
  unfold locVerifies; split <;> simp only [h1, h2, h3, h4, rangeVerifies_nil]

theorem rowsVerify_empty {s : State} (h : memoriesEmpty s = true) (l p r n : Nat) : rowsVerify s l p r n = true := by
  simp [rowsVerify, locVerifies_empty h]

theorem rodsVerifies_empty {s : State} (h : memoriesEmpty s = true) (c : Nat) (w : BitVec 128) : rodsVerifies s c w = true := by
  have h' := h
  simp only [memoriesEmpty, Bool.and_eq_true, decide_eq_true_eq] at h'
  obtain ⟨⟨⟨h1, h2⟩, _⟩, _⟩ := h'
  unfold rodsVerifies
  split
  · simp [locVerifies_empty h, h1, h2, rangeVerifies_nil]
  · simp [h1, h2, rangeVerifies_nil]
  · simp [rowsVerify_empty h, locVerifies_empty h]
  · rfl

/-- A segment that is there and in which the Board lists no byte and no check value may be consumed. -/
theorem feedReady_unlisted {s : State} {r : Nat} (h : ringReady s r = true) :
    let a := segAddr s r (ring s r).c
    let n := (segNow s r).rows * (segNow s r).rowBytes + (segNow s r).aux
    let k := (a + n - 1) / blockBytes - a / blockBytes + 1
    unlisted s.brd.mem (blockBytes * (a / blockBytes)) (blockBytes * k) = true → unlisted s.brd.check (a / blockBytes) k = true →
    feedReady s r = true := by
  intro a n k hm hc
  simp only [feedReady, h, Bool.true_and]
  exact rangeVerifies_unlisted hm hc

theorem mapsVerify_empty {s : State} (h : memoriesEmpty s = true) (d : Bytes) (w i j : Nat) : mapsVerify s d w i j = true := by
  simp [mapsVerify, locVerifies_empty h]

theorem sourceVerifies_empty {s : State} (h : memoriesEmpty s = true) (d : Bytes) (w i j : Nat) : sourceVerifies s d w i j = true := by
  simp [sourceVerifies, rowsVerify_empty h, mapsVerify_empty h]

theorem fetchVerifies_empty {s : State} (h : memoriesEmpty s = true) (n : Nat) (w : BitVec 128) : fetchVerifies s n w = true := by
  have h' := h
  simp only [memoriesEmpty, Bool.and_eq_true, decide_eq_true_eq] at h'
  obtain ⟨⟨⟨h1, h2⟩, _⟩, _⟩ := h'
  simp [fetchVerifies, h1, h2, rangeVerifies_nil, rowsVerify_empty h, locVerifies_empty h]

theorem optVerifies_empty {s : State} (h : memoriesEmpty s = true) (d : Bytes) (w : BitVec 128) : optVerifies s d w = true := by
  simp [optVerifies, rowsVerify_empty h]

/-- Over empty memories a Fetch or Rods instruction completes as soon as its strand may. -/
theorem canComplete_empty {s : State} (h : memoriesEmpty s = true) {n : Nat} (h1 : 1 < n) (h2 : n ≤ 33) :
    canComplete s n = (running s && !idle s n && !(strand s n).dead && !creditHeld s n) := by
  have h0 : n ≠ 0 := by omega
  have h1' : n ≠ 1 := by omega
  simp only [canComplete, h0, h1', h2, if_false, if_true, fetchVerifies_empty h, optVerifies_empty h, rodsVerifies_empty h, ite_self,
    Bool.and_true]

end Sys2Proof.Machine
end

