-- ==== Sys2Proof/Machine/Wire.lean ====
section
/-!
DEFINITION. The bytes of the frames that the device keeps until they are acknowledged: lead frames (spec/09 R335, R336, Tables
9-4, 9-5) and Tether frames (spec/11 R396, Table 11-1; spec/15 R557, R558). A payload whose layout the spec does not give is free
(log 54).
-/
namespace Sys2Proof.Machine

/-! ## Lead frames -/

/-- The bytes of a LINK, MGMT or header payload (log 54): at most 64. -/
def openPayload (what : String) (ins : Bytes) : Bytes := Config.made what ins (min 64 (Config.payloadLen what))

/-- The bytes of an element of a collective, `size` of them. -/
def elemBytes (size : Nat) (v : List (BitVec 64)) : Bytes := v.flatMap fun x => natLE size x.toNat

/-- The payload of a COLL frame (R352, R353, R355). -/
def collBody (size : Nat) : CollMsg → Bytes
  | .header k r e c o => openPayload "HEADER" (natLE 1 k.toNat ++ natLE 1 r.toNat ++ natLE 1 e.toNat ++ natLE 4 c.toNat ++ natLE 4 o.toNat)
  | .quanta _ _ q => q.flatMap fun x => natLE 2 (x.signExtend 16).toNat
  | .elems _ _ v => elemBytes size v
  | .parts _ _ v => v.flatMap fun p => elemBytes size p.2

/-- The bytes of a round-up report. -/
def reportBytes (m : RuReport) : Bytes := natLE 4 m.sender.toNat ++ natLE 8 m.jobId.toNat ++ natLE 4 m.armId.toNat ++ natLE 16 m.auth.toNat

/-- The payload of a lead frame. -/
def leadPayload : TxBody → Bytes
  | .link (.ack q) => openPayload "ACK" (natLE 8 q.toNat)
  | .link (.nak q) => openPayload "NAK" (natLE 8 q.toNat)
  | .link (.credit c n) => openPayload "CREDIT" (natLE 1 c ++ natLE 2 n)
  | .data f _ => f.payload
  | .coll _ _ size m => collBody size m
  | .abort o c h => Config.made "ABORT" (natLE 4 o.toNat ++ [c, h]) 16
  | .ruFrame k f => openPayload "ROUNDUP" (ascii (ruName k) ++ lfBytes f ++ natLE 16 f.auth.toNat)
  | .ruReport k m => openPayload "ROUNDUP" (ascii (ruName k) ++ reportBytes m)
  | .keyConfirm => openPayload "KEYCONFIRM" []
  | .mirrorBegin m j b p => openPayload "MIRROR_BEGIN" (natLE 8 m.toNat ++ natLE 8 j.toNat ++ natLE 8 b.toNat ++ natLE 4 p.toNat)
  | .mirrorRefused => openPayload "MIRROR_REFUSED" []
  | .relayDone ds => openPayload "RELAY_DONE" (ds.flatMap fun d => natLE 4 d.1 ++ natLE 32 d.2.toNat)
  | .discovery r => openPayload "DISCOVERY" (natLE 3 r.id.toNat ++ natLE 1 r.port.toNat ++ natLE 1 r.lanes.toNat)
  | .relane l => openPayload "RELANE" (natLE 4 l.toNat)
  | .timeAdvert i h => openPayload "TIME_ADVERT" (natLE 3 i.toNat ++ [h])
  | .timeRequest => openPayload "TIME_REQUEST" []
  | .timeReply t u v => openPayload "TIME_REPLY" (natLE 6 t.toNat ++ natLE 6 u.toNat ++ natLE 1 (b2n v))
where
  /-- The name of a round-up frame's kind. -/
  ruName : RuKind → String
    | .arm => "RU_ARM"
    | .armack => "RU_ARMACK"
    | .ready => "RU_READY"
    | .commit => "RU_COMMIT"
    | .commitack => "RU_COMMITACK"
    | .cancel => "RU_CANCEL"

/-- TYPE (Table 9-5). -/
def leadType : TxBody → Byte
  | .data _ _ => 0x01
  | .coll _ _ _ _ => 0x02
  | .link _ => 0x03
  | .abort _ _ _ => 0x04
  | _ => 0x05

/-- DEST, SRC and HOPLIMIT: of a DATA frame its own, else the neighbour, this device and 1 (R335, R349). -/
def leadEnds (s : State) (i : Nat) : TxBody → Nat × Nat × Nat
  | .data f _ => (f.dest.toNat, f.src.toNat, f.hopLimit.toNat)
  | _ => (peerId s i, ownId s, 1)

/-- STREAM. -/
def leadStream : TxBody → Nat
  | .data f _ => f.stream.toNat
  | .coll p q _ _ => p.toNat + 2 ^ 16 * q.toNat
  | _ => 0

/-- CHECK: a DATA frame carries its own (R337), another frame that of its payload. -/
def leadCrc (b : TxBody) : Nat :=
  match b with
  | .data f _ => f.check.toNat
  | _ => if (leadPayload b).isEmpty then 0 else (crc32c (leadPayload b)).toNat

/-- The bytes of a header, with HCRC after them (Tables 9-4, 11-1). -/
def withHcrc (b : Bytes) : Bytes := b ++ natLE 4 (crc32c b).toNat

/-- The 32 header bytes of a frame that lead i sends with SEQ `seq`; GEN is 0 outside a job (Table 9-4). -/
def leadHeader (s : State) (i : Nat) (inJob : Bool) (seq : BitVec 64) (b : TxBody) : Bytes :=
  let (dest, src, hops) := leadEnds s i b
  withHcrc ([leadType b, if inJob then s.str.gen else 0] ++ natLE 2 (leadPayload b).length ++
    natLE 4 (dest + 2 ^ 24 * (hops % 256)) ++ natLE 4 (src + 2 ^ 24 * (hops / 256)) ++
    natLE 4 (leadStream b) ++ natLE 8 seq.toNat ++ natLE 4 (leadCrc b))

/-- The GCM nonce of a lead frame: the sender's ID, its lead number and SEQ (R336). -/
def leadNonce (s : State) (i : Nat) (seq : BitVec 64) : Bytes := natLE 3 (ownId s) ++ natLE 1 i ++ natLE 8 seq.toNat

/-- A frame as lead i sends it, in clear, or under the lead's key (R336). -/
def leadWire (s : State) (i : Nat) (key : Option (BitVec 256)) (seq : BitVec 64) (b : TxBody) : Bytes :=
  let head := leadHeader s i key.isSome seq b
  match key with
  | none => head ++ leadPayload b
  | some k => head ++ gcmSeal (natLE 32 k.toNat) (leadNonce s i seq) head (leadPayload b)

/-- Every frame that lead i has sent and that is not acknowledged: those of the numbering before its key, then the others (R338;
log 50). -/
def leadFrames (s : State) (i : Nat) : List Bytes :=
  let x := leadAt s i
  (x.old.map fun f => leadWire s i none f.1 f.2.2) ++ x.sent.map fun f => leadWire s i x.key f.1 f.2.2

/-! ## Tether frames -/

/-- TYPE, STATUS, REQ_ID and payload of a frame toward the node (Tables 11-1, 11-2, 13-4; log 54). -/
def tetherParts : TBody → Byte × Byte × BitVec 32 × Bytes
  | .response t st q p => (t, st, q, p)
  | .notify r c b => (0x0B, 0, 0, [Config.reason (reasonName r)] ++ natLE 4 c.toNat ++ b)
  | .page _ m p k q o b =>
    (0x0A, 0, 0, [0x01, 0, 0, 0] ++ natLE 8 m.toNat ++ natLE 4 p.toNat ++ natLE 4 k.toNat ++ natLE 4 q.toNat ++ natLE 4 o.toNat ++ b)
  | .shardEnd _ m p k n d =>
    (0x0A, 0, 0, [0x02] ++ openPayload "SHARD_END"
      (natLE 8 m.toNat ++ natLE 4 p.toNat ++ natLE 4 k.toNat ++ natLE 4 n.toNat ++ natLE 32 d.toNat))
  | .manifest _ o l b => (0x0A, 0, 0, [0x03] ++ openPayload "MANIFEST" (natLE 4 o.toNat ++ natLE 1 (b2n l)) ++ b)
where
  /-- The name of a reason. -/
  reasonName : Reason → String
    | .stateChange => "STATE_SEQ"
    | .loadResult => "LOAD"
    | .jobEnd => "JOB_END"
    | .ready => "READY"
    | .cancelled => "CANCELLED"
    | .restoreResult => "RESTORE"

/-- The 24 header bytes of a Tether frame (Table 11-1). -/
def tetherHeader (seq : BitVec 64) (b : TBody) : Bytes :=
  let (t, st, q, p) := tetherParts b
  withHcrc ([t, st] ++ natLE 2 p.length ++ natLE 4 q.toNat ++ natLE 8 seq.toNat ++
    natLE 4 (if p.isEmpty then 0 else (crc32c p).toNat))

/-- The GCM nonce of a frame from the device on link l (R558). -/
def tetherNonce (l : Nat) (seq : BitVec 64) : Bytes := [0x01] ++ natLE 1 l ++ zeros 2 ++ natLE 8 seq.toNat

/-- The key of a session: the bootstrap key while none is open (R557). -/
def frameKey (x : Sess) : Bytes := if x.isOpen then natLE 32 x.key.toNat else zeros 32

/-- A frame as the device sends it on link l in session x (R396). -/
def tetherWire (x : Sess) (l : Nat) (seq : BitVec 64) (b : TBody) : Bytes :=
  let (_, _, _, p) := tetherParts b
  let head := tetherHeader seq b
  head ++ gcmSeal (frameKey x) (tetherNonce l seq) head p

/-- Every frame of a session that link l has sent and that is not acknowledged (R396). -/
def tetherFrames (s : State) (l : Nat) (shp : Bool) : List Bytes :=
  let x := sess s l shp
  x.sent.map fun f => tetherWire x l f.1 f.2

end Sys2Proof.Machine
end

