-- ==== Sys2Proof/Tests/Slice0.lean ====
section
/-!
SUPPORT. The model's own tests: which operands are refused, witnesses that the statements' hypotheses can be met, and a few single
steps against the spec's worked values.
-/
namespace Sys2Proof.Tests
set_option Elab.async false

open Sys2Proof.Machine

/-! ## States for the witnesses -/

/-- An instruction word: its opcode and the other fields as (lowest bit, value). -/
def wd (op : Nat) (fs : List (Nat × Nat)) : BitVec 128 := BitVec.ofNat 128 (op * 2 ^ 120 + (fs.map fun f => f.2 * 2 ^ f.1).sum)

/-- Bytes laid over bytes. -/
def patch (b : Bytes) (off : Nat) (v : Bytes) : Bytes := b.take off ++ v ++ b.drop (off + v.length)

/-- Fields (offset, length, value) laid over bytes. -/
def fields (b : Bytes) (fs : List (Nat × Nat × Nat)) : Bytes := fs.foldl (fun b f => patch b f.1 (natLE f.2.1 f.2.2)) b

/-- Byte i of a list of fields, the last that covers it. -/
def fieldByte (fs : List (Nat × Nat × Nat)) (i : Nat) : Byte :=
  fs.foldl (fun b f => if f.1 ≤ i ∧ i < f.1 + f.2.1 then BitVec.ofNat 8 (f.2.2 / 256 ^ (i - f.1)) else b) 0

/-- A program image of 2,560 bytes: the manifest at 0x100, the code directory at 0x200, tokens at 0x500, rings at 0x600 and code at
0x800, with further fields given by offset. -/
def im (fs : List (Nat × Nat × Nat)) : Bytes := (List.range 0xA00).map (fieldByte ([(0x18, 4, 0x100), (0x1C, 4, 0x80), (0x20, 4, 0x200),
  (0x24, 4, 0x2B0), (0x28, 4, 0x500), (0x2C, 4, 0x100), (0x30, 4, 0x600), (0x34, 4, 0x200), (0x100, 8, 0x100000)] ++ fs))

/-- Fields of an image that gives strand n its code, at 0x800. -/
def code (n : Nat) (ws : List (BitVec 128)) : List (Nat × Nat × Nat) :=
  [(0x200 + 16 * n, 4, 0x800), (0x204 + 16 * n, 4, ws.length)] ++ ws.zipIdx.map fun x => (0x800 + 16 * x.2, 16, x.1.toNat)

/-- Fields of an image that declare ring r. -/
def ringDecl (r kind producer consumer base bytes count : Nat) : List (Nat × Nat × Nat) :=
  [(0x600 + 32 * r, 1, kind), (0x601 + 32 * r, 1, producer), (0x602 + 32 * r, 1, consumer), (0x604 + 32 * r, 4, base),
   (0x608 + 32 * r, 4, bytes), (0x60C + 32 * r, 4, count)]

/-- A device that executes a job. -/
def job : State := { State.reset with sys := { st := .running }, die := .serving }

/-- With a program. -/
def prog (s : State) (fs : List (Nat × Nat × Nat)) : State := { s with str := { s.str with image := some (im fs) } }

/-- With strand n at a begun instruction. -/
def at_ (s : State) (n : Nat) (w : BitVec 128) : State := setStrand s n { st := 1, phase := .begun, word := w, index := 3 }

/-- Cluster c with bytes of local memory. -/
def loc (s : State) (c a : Nat) (b : Bytes) : State := setLmem s c (mwrite (lmem s c) a b)

/-- With bytes on the Board. -/
def board (s : State) (a : Nat) (b : Bytes) : State := boardWrite s a b

/-- With bytes in HBM. -/
def inHbm (s : State) (a : Nat) (b : Bytes) : State := jobWrite s a b

/-- Is every memory in its canonical form? -/
def canonicalB (s : State) : Bool :=
  s.mem.hbm.wf && s.brd.mem.wf && s.rod.mem.toList.all Mem.wf &&
  (match s.snp.mirror with | some m => Mem.wf m.data | none => true) && srising 0 s.rod.norm && srising 0 s.str.tok &&
  [s.brd.check, s.mem.check].all fun c => srising 0 c && c.all (fun e => e.2 != zeroCheck)

theorem canonical_of_canonicalB {s : State} (h : canonicalB s = true) : Canonical s := by
  simp only [canonicalB, Bool.and_eq_true] at h
  obtain ⟨⟨⟨⟨⟨⟨h1, h2⟩, h3⟩, h4⟩, h5⟩, h6⟩, h7⟩ := h
  refine ⟨h1, h2, fun c => ?_, fun m hm => ?_, h5, h6, fun c hc => ?_⟩
  · simp only [lmem, vget, List.getD_eq_getElem?_getD]
    rcases hc : s.rod.mem.toList[c]? with _ | x
    · rfl
    · simpa using List.all_eq_true.mp h3 x (List.mem_of_getElem? hc)
  · rw [hm] at h4; exact h4
  · simpa using List.all_eq_true.mp h7 c hc

/-- With strand n's begun instruction in flight. -/
def fly (s : State) (n : Nat) : State :=
  let x := strand s n
  setStrand s n { x with inflight := [(x.index.toNat, x.word)], index := x.index + 1, phase := .fetch }
/-! ## Rods -/

/-- Format V with layout T. -/
def vt (op d a b c n t : Nat) : BitVec 128 := wd op [(65, d), (50, a), (35, b), (20, c), (4, n - 1), (1, t)]
/-- Format V with layout F. -/
def vf (op d a b c n t inf check : Nat) : BitVec 128 := wd op [(65, d), (50, a), (35, b), (20, c), (4, n - 1), (2, t), (1, inf), (0, check)]
/-- Cluster 15 with two vectors at 0x40 and 0x80. -/
def rodData : State := loc (loc job 15 0x40 (natLE 4 0xFFFFFFFF ++ natLE 4 0x80000000 ++ natLE 4 5)) 15 0x80 (natLE 4 1 ++ natLE 4 0x80000000 ++ natLE 4 7)
/-- At an integer instruction, in place. -/
def sInt (op t : Nat) : State := at_ rodData 33 (vt op 1 1 2 0 3 t)
/-- Floating-point data. -/
def sFloat (op t : Nat) : State := at_ (loc (loc (loc job 15 0x40 (natLE 4 0x3F800000 ++ natLE 4 0x7F800000 ++ natLE 4 0x7FC00001)) 15 0x80
  (natLE 4 0x40490FDB ++ natLE 4 0xFF800000 ++ natLE 4 7)) 15 0xC0 (natLE 4 0x3F800000 ++ natLE 4 0 ++ natLE 4 0)) 33 (vf op 0 1 2 3 3 t 0 1)
/-- At the first place past local memory. -/
def sOut : State := at_ job 33 (vt 0x20 0x7FFF 0 0 0 17 2)
/-- At CVT. -/
def sCvt (src dst sat : Nat) : State := at_ rodData 33 (wd 0x4C [(65, 8), (50, 1), (47, dst), (46, sat), (4, 2), (1, src), (0, 1)])
/-- At MAP. -/
def sMap : State := at_ (loc rodData 15 0x400 (natLE 8 0x0807060504030201)) 33 (wd 0x4D [(65, 8), (50, 2), (20, 16), (4, 11)])
/-- At GELUD or SILUD. -/
def sDual (op : Nat) : State := at_ rodData 33 (wd op [(65, 8), (50, 1), (20, 16), (4, 2), (0, 1)])
/-- At LOAD from a location. -/
def sLoadB : State := at_ (board job 0x1000 (natLE 8 0x1122334455667788)) 18 (wd 0x10 [(65, 0x7FFF), (64, 1), (30, 0x40)])
/-- At LOAD from HBM. -/
def sLoadH : State := at_ (prog (inHbm job 0xFFFC0 (natLE 8 0x1122334455667788)) []) 18 (wd 0x10 [(65, 0x7FFF), (30, 0x3FFF)])
/-- At LOAD from ring 5. -/
def sLoadR (p : Nat) : State :=
  setRing (at_ (prog (board job 0x4000 (natLE 8 77)) (ringDecl 5 3 1 18 0x4000 0x100 2)) 18 (wd 0x10 [(65, 1), (64, 1), (30, 1), (15, 2), (9, 5), (8, 1)]))
    5 { p := p, c := 0, segs := [⟨4, 64, 0⟩] }
/-- At STORE to the Board or to HBM. -/
def sStore (b : Nat) : State := at_ (prog (loc job 0 0x40 (natLE 8 0x1122334455667788)) []) 18 (wd 0x11 [(65, 1), (64, b), (30, 0x40)])
/-- A region of U32 elements, indices with one outside it, and values. -/
def sGather (op : Nat) : State := at_ (board (loc (loc (loc job 0 0x40 (natLE 4 0x1000 ++ natLE 4 4 ++ natLE 1 3))
  0 0x80 (natLE 4 3 ++ natLE 4 0 ++ natLE 4 3 ++ natLE 4 4)) 0 0xC0 (natLE 4 10 ++ natLE 4 11 ++ natLE 4 0xFFFFFFFF ++ natLE 4 13))
  0x1000 (natLE 8 0x100000002 ++ natLE 8 0x300000004)) 18 (wd op [(65, 3), (50, 2), (35, 1), (4, 3)])
/-- At TPOSE of two rows of three elements. -/
def sTpose : State := at_ (board (loc job 0 0x40 (fields (zeros 64) [(0, 8, 2 ^ 63 + 0x1000), (8, 8, 2 ^ 63 + 0x2000), (0x10, 4, 64), (0x14, 4, 64),
  (0x18, 2, 2), (0x1A, 2, 3), (0x1C, 1, 2), (0x20, 8, locNone), (0x28, 8, locNone)])) 0x1000 (natLE 8 0x060504030201)) 18 (wd 0x15 [(65, 1)])
/-- At SORT, descending or not. -/
def sSort (kt desc : Nat) : State := at_ rodData 33 (wd 0x60 [(65, 1), (50, 2), (4, 2), (2, kt), (1, desc)])
/-- Hash parameters and strings, one too long. -/
def sHash (op : Nat) (q : Nat) : State := at_ (loc (loc (loc job 0 0x40 (natLE 4 0x6463626 ++ natLE 4 5)) 0 0x100 (natLE 2 0x4103)) 0 0x140
  (natLE 8 99 ++ natLE 2 q)) 18 (wd op [(65, 8), (50, 1), (35, 4), (20, 5), (4, 1)])
/-- Two pairs of strings. -/
def sPair (op : Nat) : State := at_ (loc (loc (loc (loc (loc job 0 0x40 (natLE 4 0x100 ++ natLE 4 0x200 ++ natLE 4 0x300 ++ natLE 4 0x400)) 0 0x100
  (natLE 8 0x6E657474696B)) 0 0x200 (natLE 2 0x0006)) 0 0x300 (natLE 8 0x676E6974746973)) 0 0x400 (natLE 2 0x0107)) 18 (wd op [(65, 0x20), (50, 1), (4, 1)])
/-- At a norm instruction on the last entry. -/
def sNorm (op : Nat) (fs : List (Nat × Nat)) : State :=
  { at_ rodData 33 (wd op fs) with rod := { rodData.rod with norm := [(4096, { terms := 1 }), (4351, { terms := 3, nf := 1 })] } }
/-! ## Strands -/

/-- A word of any strand, with even parity. -/
def pw (op : Nat) (fs : List (Nat × Nat)) : BitVec 128 :=
  let w := (wd op fs).toNat
  wd op (fs ++ [(81, onesIn w 81 47 % 2), (80, onesIn w 0 81 % 2)])
/-- Strand n at its next word. -/
def sNext (n : Nat) (w : BitVec 128) : State := setStrand (prog job (code n [w])) n { st := 1 }
/-- A strand waiting on token 1023, which holds x. -/
def sWait (x : Nat) : State := setToken (setStrand job 42 { st := 2, phase := .waiting, word := wd 0 [(119, 1), (109, 1023), (97, 4095)] }) 1023 x
/-- At a common opcode, in its section of `len` words. -/
def sCommon (n op len : Nat) : State := at_ (setToken (prog job (code n (List.replicate len 0))) 5 10) n (wd op [(96, 1), (86, 5), (82, 3)])
/-- An ADD of cluster 2 in flight behind which a second one stands. -/
def sDone : State := setStrand (prog job []) 20 { st := 1, inflight := [(3, pw 0x20 [(96, 1), (86, 5), (82, 15)]), (4, 0)] }
/-- Tokens at the limit. -/
def sTok (x : Nat) : State := setToken job 5 x
/-! ## The Frame -/

/-- A descriptor of two rows by three by two columns of int8, its tensors on the Board. -/
def frameDesc (slots : Nat) : Bytes := fields (zeros 128) [(0, 4, 2), (4, 4, 3), (8, 4, 2), (0xC, 1, 0), (0xD, 1, 0), (0xF, 1, 1), (0x10, 1, 1), (0x18, 8, slots),
  (0x20, 8, 2 ^ 63 + 0x10000), (0x28, 8, 2 ^ 63 + 0x20000), (0x30, 8, locNone), (0x38, 4, 64), (0x40, 8, 2 ^ 63 + 0x30000),
  (0x48, 8, 2 ^ 63 + 0x40000), (0x50, 8, locNone), (0x58, 4, 64)]
/-- A MATMUL: its descriptor at 0x1000, its record at 0x2000, its rings 1 and 2. -/
def mmWord (rec_ : Nat) : BitVec 128 := wd 0x10 [(58, 0x40), (36, rec_), (30, 1), (24, 2)]
/-- A job with the Frame's rings. -/
def frameJob : State := { prog job (ringDecl 1 1 17 0 0x8000 0x4000 4 ++ ringDecl 2 2 17 0 0x18000 0x4000 4) with shp := { on := 0xFFFF } }
/-- At MATMUL; its descriptor names slot k. -/
def sMatmul (k : Nat) : State := at_ (board frameJob 0x1000 (frameDesc k)) 0 (mmWord 0)
/-- An operation. -/
def fop : FrameOp := { num := 7, index := 3, word := mmWord 0x80, desc := frameDesc 15, width := 1024 }
/-- The Frame with its operations. -/
def frame (s : State) (ops : List FrameOp) : State := setStrand { s with frm := { s.frm with ops := ops } } 0 { st := 1, index := 4 }
/-- An operation whose B ring has its chunk, or not; in its slot. -/
def sSeat (p : Nat) (st : BitVec 2) : State :=
  setSlot (setRing (frame frameJob [fop]) 2 { p := p, segs := [⟨3, bRowBytes (frameDesc 0) 1024, 0⟩] }) 15 { st := st }
/-- One tile. -/
def tile (q : Int) : TileRun := { idx := 0, ti := 0, tj := 0, slot := 15, q := q, qg := q + 1 }
/-- A pass whose rows and chunk are there. -/
def sPass : State := setRing (frame frameJob [{ fop with group := some [tile 0], seat := some (zeros 6144) }]) 1 { p := 1, segs := [aLayout (frameDesc 0) 0] }
/-- A begun pass whose last carry has not landed. -/
def sLand : State := frame job [{ fop with landing := [⟨[15]⟩] }]
/-- A row group of one tile that overflowed. -/
def sStep : State := frame frameJob [{ fop with pass := 1, group := some [{ tile 0 with stopped := true }] }]
/-- A recount window of 512 tiles that has ended. -/
def sWin : State := { job with knl := { job.knl with t := 512 } }
/-- A selected tile whose digest agrees with a replay that meets no fault. -/
def selTile : SelTile := let t : SelTile := { idx := 0, ti := 0, tj := 0, q := 0 }
  { t with d0 := replayDigest fop t (recountTile frameJob fop false t []) }
/-- The operation with its tile selected for recount. -/
def sRec : State := frame frameJob [{ fop with pass := 1, sel := [selTile] }]
/-- A fault that flips one bit of a cell. -/
def flip (b : Nat) : CarryFault := ⟨0, 1, 1, 1, BitVec.ofNat 48 b⟩
/-- The operation with a mismatch to classify. -/
def sClass (d1 : List Word) : State := frame frameJob [{ fop with pass := 1, mismatch := some { selTile with d1 := d1 } }]
/-- A start-up's bead test. -/
def sBead : State := { State.reset with die := .serving, shp := { on := 0xFFFF } }
/-- A substitution that is decided. -/
def sSubst : State := { frame job [fop] with frm := { (frame job [fop]).frm with subst := [⟨1, 15, 64, 1⟩], colFail := vset State.reset.frm.colFail 15 64 } }
/-- Strips that sleep. -/
def sWake : State := frame job [fop]
/-- The Frame's oldest operation, wholly streamed. -/
def sFDone (rec_ : Nat) : State := setStrand (frame (prog job []) [{ fop with word := mmWord rec_, pass := 1 }, fop]) 0
  { st := 1, inflight := [(3, pw 0x10 [(96, 1), (86, 5), (82, 1), (58, 0x40), (36, rec_)])] }
/-- The same on the rotated mapping. -/
def flipR (b : Nat) : CarryFault := ⟨0, 1, 349, 350, BitVec.ofNat 48 b⟩
/-! ## Edge, Fetch and training -/

/-- A drain descriptor: binary32, ring 3, no records. -/
def drainDesc : Bytes := fields (zeros 128) [(0, 1, 9), (0x0C, 4, 0xFF800000), (0x10, 4, 0x7F800000), (0x14, 4, 0x7F800000), (0x18, 4, 0xFFFFFFFF),
  (0x20, 2, 3), (0x34, 4, 0xFFFFFFFF), (0x44, 4, 0xFFFFFFFF), (0x48, 4, 0xFFFFFFFF)]
/-- A job with the Edge's ring. -/
def edgeJob' : State := prog job (ringDecl 3 3 1 18 0x9000 0x400 2)
/-- A DRAIN of slot 15 at fill tag 3. -/
def drainWord : BitVec 128 := wd 0x10 [(76, 15), (68, 3), (46, 0x40)]
/-- A slot of two rows by two columns. -/
def fullSlot (st : BitVec 2) (tag : BitVec 8) : Slot := { st := st, tag := tag, cells := [[1, 2], [3, 0xFFFFFFFFFFFF]], m := 2, n := 2 }
/-- At DRAIN. -/
def sDrain (st : BitVec 2) (tag : BitVec 8) : State := setSlot (at_ (board edgeJob' 0x1000 drainDesc) 1 drainWord) 15 (fullSlot st tag)
/-- The Edge with an operation. -/
def edgeOp (p : EdgePhase) : EdgeOp := { num := 4, index := 3, word := drainWord, desc := drainDesc, sweep := false, phase := p }
/-- The Edge at its drain. -/
def sDrainOp (p : EdgePhase) (produced : Nat) : State :=
  setRing (setSlot { setStrand edgeJob' 1 { st := 1 } with edg := { ops := [{ edgeOp .tail with num := 3 }, edgeOp p] } } 15 (fullSlot (if p = .rows then 3 else 2) 3)) 3 { p := produced }
/-- At SWEEP to MX FP8, of two rows of three. -/
def sSweep (produced : Nat) : State :=
  setRing (at_ (board (board edgeJob' 0x1000 (fields (zeros 64) [(0, 1, 9), (1, 1, 3), (4, 4, 2), (8, 4, 3), (0xC, 4, 0x2000), (0x10, 4, 64), (0x14, 4, 0xFFFFFFFF),
    (0x18, 2, 3), (0x1C, 4, 0x3000), (0x20, 4, 0xFFFFFFFF), (0x24, 4, 0xFFFFFFFF)])) 0x2000 (natLE 8 0x3F80000040490FDB)) 1 (wd 0x11 [(58, 0x40)])) 3 { p := produced }
/-- The Edge's oldest operation at its tail. -/
def sEdgeDone : State := setStrand { edgeJob' with edg := { ops := [{ edgeOp .tail with prod := some (128, 64) }] } } 1
  { st := 1, inflight := [(3, pw 0x10 [(96, 1), (86, 5), (82, 1)])] }
/-- A Fetch descriptor: two rows of 64 bytes from HBM at 0x100 to the Board at 0x5000, or one side alone. -/
def fetchDesc (src dst : Nat) : Bytes := fields (zeros 64) [(0, 8, src), (8, 8, dst), (0x10, 4, 64), (0x14, 4, 2), (0x18, 4, if src = locNone then 0 else 64),
  (0x1C, 4, if dst = locNone then 0 else 128), (0x20, 8, locNone)]
/-- A job with the rings of Fetch engine 15. -/
def fetchJob : State := prog job (ringDecl 1 1 17 0 0x8000 0x100 2 ++ ringDecl 4 3 1 17 0x9000 0x400 2)
/-- At COPY. -/
def sCopy (src dst : Nat) : State := at_ (inHbm (board fetchJob 0x1000 (fetchDesc src dst)) 0x100 (natLE 8 77)) 17 (wd 0x10 [(58, 0x40)])
/-- At FEED of ring 1. -/
def sFeed (p : Nat) : State := setRing (at_ (inHbm (board fetchJob 0x1000 (fetchDesc 0x100 locNone)) 0x100 (natLE 8 77)) 17 (wd 0x11 [(74, 1), (52, 0x40)])) 1 { p := p }
/-- At WRITEOUT of ring 4. -/
def sWout (p : Nat) : State := setRing (at_ (board (board fetchJob 0x9040 (natLE 8 77)) 0x1000 (fetchDesc locNone (2 ^ 63 + 0x5000))) 17 (wd 0x12 [(74, 4), (52, 0x40)]))
  4 { p := p, cursor := 64, segs := [⟨3, 64, 0⟩] }
/-- A Fetch instruction in flight. -/
def sFetchDone (w : BitVec 128) : State := setRing (setStrand fetchJob 17 { st := 1, inflight := [(3, w)], desc := fetchDesc 0x100 locNone }) 4 { p := 1, segs := [⟨3, 64, 0⟩] }
/-- A weight-table entry of two rows by three columns, its tensors apart. -/
def entryFields (rule flags : Nat) : List (Nat × Nat × Nat) := [(0x126, 2, 1), (0x38, 4, 0x700), (0x3C, 4, 64), (0x700, 8, 0x1000), (0x708, 8, 0x2000), (0x710, 8, 0x3000), (0x718, 8, 0x4000),
  (0x720, 4, 2), (0x724, 4, 3), (0x728, 1, 9), (0x729, 1, flags), (0x72A, 2, 4095), (0x72C, 1, rule)]
/-- At OPT by a rule. -/
def sOpt (rule : Nat) : State := at_ (inHbm (board (board (prog job (entryFields rule 4)) 0x1000
  (fields (zeros 64) [(0, 4, 0x3F000000), (4, 4, 0x3F000000), (8, 4, 0x3F000000), (12, 4, 0x3F000000), (16, 4, 0x3F000000), (20, 4, 0), (24, 4, 0x3F800000), (28, 4, 0x3F800000),
    (0x20, 8, 2 ^ 63 + 0x2000), (0x28, 4, 64), (0x2C, 1, 9)])) 0x2000 (natLE 8 0x3F80000040000000)) 0x3000 (natLE 8 0x3F80000040490FDB)) 33
  (wd 0x78 [(66, 0), (52, 0), (31, 2), (9, 0x40)])
/-! ## Collectives and leads -/

/-- Fields of an image whose routing section has one direct entry, for device 5 on lead 1 with no alternative, and one plan. -/
def routing (members up down : Nat) : List (Nat × Nat × Nat) := [(0x40, 4, 0x900), (0x44, 4, 0x100), (0x900, 4, 5), (0x904, 4, 1), (0x90A, 2, 1),
  (0x940, 8, 2 ^ 63 + 2 ^ 60), (0x980, 4, members), (0x98C, 1, 0), (0x98D, 1, up), (0x98E, 1, down), (0x98F, 1, 0xFF), (0x988, 4, 9)]
/-- A lead in service. -/
def upLead : Lead := { up := true, keyed := true, key := some 7, lanes := 0xFFFF, credit := Vector.replicate 4 3 }
/-- Leads 0 and 1 in service, with the peers 8 and 10, of device 9. -/
def withLeads (s : State) : State := { s with lead := { s.lead with activeId := 9, planUse := Vector.replicate 8 0x006, expectUse := vset (vset s.lead.expectUse 0 8) 1 10, peer := vset (vset s.lead.peer 0 (some ⟨8, 0, 16, 100⟩)) 1 (some ⟨10, 0, 16, 100⟩), lead := vset (vset s.lead.lead 0 upLead) 1 { upLead with lanes := 0xFFFF0000 } } }
/-- A COLL word. -/
def collWord (kind rop ecode : Nat) : BitVec 128 := wd 0x10 [(76, kind), (72, rop), (68, ecode), (46, 0x40)]
/-- At COLL on engine 7: kind, ROP, ECODE, count, root, and the members of its plan. -/
def sColl (kind rop ecode root members bound : Nat) : State :=
  let a := at_ (board (withLeads (prog job (routing members 0xFF (if members = 1 then 0 else 3)))) 0x1000 (fields (zeros 64) [(0, 8, 2 ^ 63 + 0x2000),
    (8, 8, 2 ^ 63 + 0x3000), (0x10, 4, 2), (0x14, 4, 0), (0x18, 4, root)])) 41 (collWord kind rop ecode)
  { a with brd := { a.brd with check := [] }, col := { a.col with bound := if bound < 8 then [(0, bound)] else [] } }
/-- A collective that waits for the header of leads 0 and 1. -/
def collOp : CollOp := { index := 3, plan := 0, seq := 4, kind := 1, rop := 1, ecode := 13, count := 2, root := 9, dst := 2 ^ 63, src := [], headers := [0, 1], pass := 0, missing := [0, 1] }
/-- Engine 7 with it. -/
def sEngine : State := setEngine { sColl 1 1 13 0 3 7 with col := { (sColl 1 1 13 0 3 7).col with bound := [(0, 7)] } } 7 (some collOp)
/-- A job's leads, lead 0 with frames that are not acknowledged. -/
def sLeads : State := setLead (withLeads (prog job (routing 3 0xFF 3))) 0 { upLead with sent := [(4, 2, .timeRequest), (5, 2, .timeRequest)], resend := some 4, nak := some (9, 2) }
/-- Lead 1 with a frame that waits for a credit. -/
def sStall : State := setLead (withLeads (prog job (routing 3 0xFF 3))) 1 { upLead with credit := Vector.replicate 4 0, waiting := [(3, .timeRequest)] }
/-- A routed frame. -/
def dframe (dest : BitVec 24) (hop : BitVec 16) : LeadFrame := ⟨dest, 8, hop, 0, 0, [1]⟩
/-- Lead 1 waits for its key confirmation. -/
def sKey : State := setLead sLeads 1 { upLead with keyed := false }
/-- Lead 1 has only its last two lanes. -/
def sLane (lanes : BitVec 32) : State := setLead sLeads 1 { upLead with lanes := lanes }
/-- Lead 1 re-lanes. -/
def sRelane : State := setLead sLeads 1 { upLead with relaning := true, sent := [(4, 2, .timeRequest)] }
/-- Discovery, with plan entries 0 and 1. -/
def sDisc (p0 p1 : Word) : State := { sLeads with die := .serving, lead := { sLeads.lead with discovering := true, lead := Vector.replicate 8 {}, planUse := vset (vset (Vector.replicate 8 0) 0 p0) 1 p1 } }
/-! ## Snapshots -/

/-- A generation of a capture page and two pages at job address 0x40000. -/
def gen : Gen := { marker := 4, position := 2, target := 1, route := 1, shards := [⟨none, 1⟩, ⟨some 0x40000, 2⟩], capture := [1], copied := [0] }
/-- A job that copies a generation, with sessions on both links. -/
def sGen (g : Gen) : State := { prog job [(0x108, 8, 0xC0000)] with
  snp := { gen := some g }, tet := { link := Vector.replicate 2 { up := true, die := { isOpen := true } } } }
/-- Step 5 before a SNAP of one region, and strand 5 at STEP. -/
def sSnap (target : Nat) (copying : Bool) : State :=
  let s := setStrand (setStrand (board (prog job ([(0x108, 8, 0x80000), (0x110, 8, 0x80000)] ++ code 42 [pw 1 [], pw 0x10 [(78, target), (56, 0x40)]])) 0x1000
    (natLE 8 1 ++ zeros 56 ++ natLE 8 0x40000 ++ natLE 8 0x80000)) 42 { st := 6, phase := .begun, word := pw 1 [], index := 0 }) 5 { st := 6, phase := .begun, word := pw 1 [], index := 7 }
  ({ s with str := { s.str with marker := 5 }, snp := { step5 := true, gen := some { gen with ended := !copying } } } : State)
/-- A SNAP that does not follow its STEP. -/
def sSnapAlone (skip : Bool) : State := let s := at_ (prog job []) 42 (wd 0x10 [(78, 1)]); { s with snp := { skipSnap := skip } }
/-- At SNAP_FENCE. -/
def sFence (copying : Bool) : State := let s := at_ (prog job []) 42 (wd 0x11 []); { s with snp := { gen := some { gen with ended := !copying } } }
/-- A device with partner lead 1 and a mirror region. -/
def sPartner (m : Option Mirror) : State := { withLeads (prog job [(0x110, 8, 0x80000)]) with
  snp := { partnerValid := true, partnerLead := 1, mirror := m }, tet := { link := Vector.replicate 2 { up := true, die := { isOpen := true } } } }
/-- A mirror of two pages. -/
def mirror (got taken : Nat) : Mirror := { lead := 1, marker := 3, jobId := 4, bytes := 0x80000, position := 5, got := got, taken := taken }
/-- A relayed mirror whose last shard storage has not answered. -/
def relayed : Mirror := { mirror 0x80000 2 with relayed := [(0, 7), (1, 8)], answered := [0] }
/-! ## Requests, registers and grants -/

/-- A request on link 1. -/
def rq (p : Parity := .even) : Req := ⟨1, 77, p, 3⟩
/-- An enrolled device whose die serves, with both sessions open on link 1. -/
def served (s : State) : State := { s with
  die := .serving, sec := { s.sec with owner := some 5 }, shp := { s.shp with standby := true, serving := true }
  tet := { s.tet with link := Vector.replicate 2 { up := true, die := { isOpen := true, serial := 9 }, shp := { isOpen := true, serial := 9 } } } }
/-- The same, in HOLDING. -/
def holding : State := served { State.reset with sys := { st := .holding } }
/-- The same, executing a job with a host token 5 and code for strand 18. -/
def jobServed : State := served (prog job ([(0x514, 4, 0xC00000 + 42 * 65536)] ++ code 18 [0]))
/-- A grant of the device. -/
def grant (s : State) (action addr value : BitVec 32) : Grant := ⟨0x50394752, action, BitVec.ofNat 256 (leNat deviceDigest), s.sec.challenge, addr, value, true, true, action == 1⟩
/-! ## Loading and round-up -/

/-- A job key. -/
def jkey : JobKey := { jobId := 4, master := 0x123456789, nonce := 7, epochW := 1, epochR := 2 }
/-- With the job key. -/
def keyed (s : State) : State := { s with sec := { s.sec with job := some jkey }, str := { s.str with job := 4 } }
/-- A load of 8 bytes, of which 4 have come. -/
def sLoading : State := { keyed holding with ld := { active := true, job := 4, bytes := 8, data := [(0, 1), (1, 0), (2, 3), (3, 4)] } }
/-- The least image, without its digest: a manifest, a directory and nothing to run. -/
def bareFields : List (Nat × Nat × Nat) := [(0, 4, 0x50394750), (4, 2, 1), (8, 8, 1088), (0x10, 4, 1), (0x18, 4, 0x100),
  (0x1C, 4, 0x80), (0x20, 4, 0x180), (0x24, 4, 0x2B0), (0x118, 8, locNone)]
def bare : Bytes := (List.range 1088).map (fieldByte bareFields)
/-- With its digest. -/
def bareImage : Bytes := (List.range 1088).map (fieldByte (bareFields ++
  [(0x50, 32, 0xc9356ca2d9db1832ecc44400cc6485c099e0a49d17b4fd0351a355377e335e60)]))
/-- A load whose bytes have all come. -/
def sLoaded (im : Bytes) : State := { keyed holding with ld := { active := true, ended := true, job := 4, bytes := BitVec.ofNat 64 im.length, data := im.zipIdx.map fun x => (x.2, x.1) } }
/-- A device that can be armed: its program, key, leads and time. -/
def sArmable (up : Nat) : State := let s := keyed (served (withLeads (prog State.reset (routing 3 up 2 ++ code 5 [0]))))
  { s with sys := { st := .holding }, tim := { valid := true, counter := 1000 }, lead := { s.lead with result := 1 } }
/-- A launch frame with its AUTH. -/
def lframe (kind : BitVec 8) (plan : BitVec 16) (armId : BitVec 32) (time : BitVec 64) : LaunchFrame :=
  let f : LaunchFrame := { kind := kind, depth := 2, plan := plan, armId := armId, jobId := 4, time := time, reserved := 0, auth := 0 }
  { f with auth := ruAuth jkey (lfBytes f) }
/-- An armed device. -/
def sArmed (up : Nat) (phase : RuPhase) : State := let s := sArmable up
  { s with sys := { st := .armed }, tet := { s.tet with phase := phase, root := up == 0xFF, plan := 0, depth := 2, armId := 6, armedOnce := true, deadline := 500000, children := 0 } }
/-- A child's report. -/
def report : RuReport := { sender := 10, jobId := 4, armId := 6, auth := ruAuth jkey (repBytes 10 4 6) }
/-- An armed device whose launch time has come. -/
def sLaunch : State := let s := sArmed 0xFF .committed; { s with tet := { s.tet with launch := 1000 } }
/-! ## Markers, codes, teardown and the Kennel -/

/-- A job whose strands 18 and 42 are at STEP; `w` follows strand 42's. -/
def sMarker (w : BitVec 128) : State :=
  let s := prog job (code 18 [pw 1 []] ++ [(0x200 + 16 * 42, 4, 0x900), (0x204 + 16 * 42, 4, 2), (0x900, 16, (pw 1 []).toNat), (0x910, 16, w.toNat)])
  setStrand (setStrand s 18 { st := 6, phase := .begun, word := pw 1 [], index := 0 }) 42 { st := 6, phase := .begun, word := pw 1 [], index := 0 }
/-- A job whose strand 18 has ended. -/
def sEnded : State := setStrand (prog job (code 18 [0])) 18 { st := 7, index := 0 }
/-- A job with codes on their way. -/
def sCodes (s : State) (eff : Effect) : State := { s with knl := { s.knl with inflight := [⟨0x06070001, .event, [], false⟩, ⟨0x02030001, eff, [1, 2], false⟩], temp := 40 } }
/-- A teardown at a stage. -/
def sTear (st : TdStage) : State := { keyed jobServed with sys := { st := .draining }, str := { (keyed jobServed).str with teardown := st }, mem := { hbm := [(5, 6)] } }
/-- The HBM overwrite at the end of a teardown. -/
def sScrub (d : DevState) (w : Bool) : State := { served State.reset with sys := { st := d }, str := { scrub := true }, mem := { hbm := [(5, 6)] }, knl := { withdrawAtEnd := w } }
/-- A job whose strand 18 waits for token 3. -/
def sHang (us : Nat) (c : Bool) : State := let s := setStrand (prog job (code 18 [0])) 18 { st := 2, phase := .waiting, word := wd 0 [(106, 3)] }
  { s with knl := { s.knl with waitCond := c, waitUs := us } }
/-- An island that stalled. -/
def sStalled (i : Island) : State := let s := sArmed 0xFF .armed; { s with knl := { s.knl with stalled := [i] } }
/-- The same with an enrolled layer whose norm holds a non-finite mark. -/
def sMarkerStop : State :=
  let s := sMarker 0
  let i := fields (img s) [(0x38, 4, 0x980), (0x3C, 4, 64), (0x126, 2, 1), (0x9A9, 1, 4), (0x9AD, 1, 2)]
  ({ s with str := { s.str with image := some i }, rod := { s.rod with norm := [(0, { terms := 1, nf := 1, updated := true })] } } : State)
/-! ## The governor and the Tally -/

/-- A governor with its pool (2^-8 nJ), three domains powered, and grains that wait. -/
def sGov (pool : Int) (short : Bool) (waiting : List Grain) : State := { jobServed with
  gov := { pool := pool, short := short, waiting := waiting, staticUs := 100, periodE := 1000, sumM := 100, sumP := 100, ucal := Vector.replicate 20 1000, ucalEnable := true }, shp := { jobServed.shp with on := 7 } }
/-- A record. -/
def rec_ (seq : BitVec 64) : TRec := ⟨seq, 0, 0, 0, 0x05010001, [], 0⟩
/-- A Tally that flushes. -/
def sTally (full : Bool) (since : Word) : State := { holding with tly := { buffer := [rec_ 7, rec_ 8], store := [rec_ 6], next := 9, full := full, flushing := true, droppedSince := since } }
/-! ## Secrecy and restore -/

/-- An operator's certificate. -/
def cert (serial : BitVec 32) : OpCert := { magic := 0x50394F50, serial := serial, scope := 3, reserved := 0, key := 77, sigOk := true }
/-- A link with a handshake in each session. -/
def sHand : State := { holding with tet := { link := Vector.replicate 2 { up := true, die := { hs := some ⟨9, 77, 78, 3, 4⟩ }, shp := { hs := some ⟨9, 77, 78, 3, 4⟩ } }, held := [(.ready, 0, [1])] } }
/-- A device with an ephemeral key. -/
def sEph : State := { holding with sec := { holding.sec with eph := some ⟨4, 7, 1⟩ } }
/-- A device with a staged firmware image. -/
def sFw : State := { holding with sec := { holding.sec with fw := vset holding.sec.fw 1 { image := some [(0, 5)] }, svn := #v[3, 3, 3] } }
/-- A program whose manifest takes 0xC0000 bytes of HBM, which can be restored. -/
def sRestorable : State := keyed (served (prog { State.reset with sys := { st := .holding } } ([(0x50, 4, 9), (0x10, 4, 1), (0x100, 8, 0xC0000)] ++ code 18 [pw 1 [], pw 2 []])))
/-- A generation's manifest: its header, the capture page's shard and a shard of one page at job address 0x40000. -/
def manifest (pages : Nat) : Bytes := patch ((List.range 256).map (fieldByte [(8, 8, 4), (0x10, 8, 6), (0x18, 4, 0), (0x1C, 4, 1),
  (0x20, 3, 0xFFFFFF), (0x24, 4, 2), (0x80, 4, 1), (0xC0, 4, pages), (0xC8, 8, 0x40000)])) 0x28 (programDigest (img sRestorable))
/-- A restore under way. -/
def sRestoring (x : Restore) : State := { sRestorable with snp := { restore := some x } }
/-- A stored page of which only the first byte is missing. -/
def nearlyWhole : SMap Byte := (List.range 262159).map fun i => (i + 1, 0)
/-- What a restore holds when both its pages are whole: the capture page tells that strand 18 stands at its STEP. -/
def allWhole (st : Nat) : Restore := { manifest := patch (patch (manifest 1) 0xA0 (sha256 [1])) 0xE0 (sha256 [2]), accepted := true, whole := [(0, [1]), (1, [2])], capture := fields (zeros 0x1000) [(0x18 + 8 * 18, 4, st - 6), (0x1C + 8 * 18, 1, st)] }
/-! ## Tether links, time, memory happenings and drills -/

/-- Link 1 with frames that are not acknowledged, link 0 with or without its sessions. -/
def sTether (fails naks : SMap Nat) (other : Bool) : State :=
  let x : Sess := { isOpen := true, seq := 8, sent := [(5, .notify .ready 0 [1]), (6, .manifest 0 0 true [2]), (7, .response 1 0 7 [])], resend := some 6, rx := 3, fails := fails, naks := naks, bulk := [.manifest 1 0 true [3]] }
  { sArmable 0xFF with tet := { link := #v[{ up := other, die := { isOpen := true }, shp := { isOpen := true } }, { up := true, die := x, shp := x }] } }
/-- Both links down. -/
def sNoLink (lost : Bool) (s : State) : State := { s with tet := { s.tet with link := Vector.replicate 2 { lost := lost, retry := 5 } } }
/-- A time unit. -/
def sTime (t : Tim) : State := { withLeads holding with tim := t }
/-- An HBM channel: what has happened to it lately, and strand 4 with an instruction in flight. -/
def sPc (n : Nat) (re : Bool) (st : DevState) : State :=
  let s := setStrand (served (prog job (code 4 [0]))) 4 { st := 1, inflight := [(0, 5)] }
  { s with sys := { st := st }, mem := { s.mem with pcRetrains := [(pcId 7 31, List.replicate n 5)], retraining := if re then [(7, 31)] else [] } }
/-- A job in which drills are enabled. -/
def sDrill (en : BitVec 8) (last : Option Nat) : State := { jobServed with snp := { drillEnable := en, drillLast := last } }
/-! ## Start-up, power and the Shepherd -/

/-- A powered package whose compute die can be released, Kerrin's slots with the images given. -/
def sRelease (a b : Option Word) : State := { State.reset with
  shp := { State.reset.shp with standby := true, serving := true, calOk := true, kerrinOk := true }
  sec := { State.reset.sec with owner := some 5, svn := #v[3, 3, 3], fw := vset (vset State.reset.sec.fw 2 { svn := a }) 3 { svn := b } } }
/-- A die that starts up. -/
def sBoot (die : Die) (b : Boot) : State := { served State.reset with sys := { st := .boot }, die := die, boot := b }
/-- A Shepherd that keeps the leash, at a position. -/
def sLeash (l : Leash) (pos : BitVec 2) : State := { holding with shp := { holding.shp with leash := l, pos := pos, leashEn := true } }
/-! ## Operands -/

/-- Row k of the integer instructions of two sources and of one. -/
def rowI (k : Nat) (c : Fin 16) := (intRows c).getD k (.add 0, 0, fun _ _ _ => 0)
def rowJ (k : Nat) (c : Fin 16) := (intRows1 c).getD k (.add 0, 0, fun _ _ => 0)
/-- With strand n's begun instruction in flight, which read the descriptor d. -/
def fl (s : State) (n : Nat) (d : Bytes) : State := fly (setStrand s n { strand s n with desc := d }) n
/-- The digests of a replay that met a flipped bit, and the operation that classifies them. -/
def dig (b : Nat) : List Word := replayDigest fop selTile (recountTile frameJob fop false selTile [flip b])
def opC (d1 : List Word) : FrameOp := { fop with pass := 1, mismatch := some { selTile with d1 := d1 } }
/-- A drain whose check of non-finite values ends the job. -/
def dd2 : Bytes := fields drainDesc [(0x1C, 4, 0x02020202)]
/-- A frame that arrives on lead l with SEQ n. -/
def ar (l : Fin 8) (n : Nat) : Arrival := ⟨l, BitVec.ofNat 64 n, 0⟩
def sL2 : State := setLead sLeads 0 { upLead with nak := some (9, 1) }
/-- A grain of three credits of strand n. -/
def g1 (n rank : Nat) : Grain := ⟨n, 1, 3, rank, 2⟩
/-- A drift period's sums. -/
def sd (m p : Nat) (c : BitVec 16) : State := { sGov 0 false [] with gov := { sumM := m, sumP := p, driftCount := c } }
/-- Codes on their way. -/
def R1 (_ : Effect) : Raised := ⟨0x06070001, .event, [], false⟩
def R2 (eff : Effect) : Raised := ⟨0x02030001, eff, [1, 2], false⟩
def sm : State := sMarker (pw 0x10 [(78, 1), (56, 0x40)])
def lsh (l : Leash) (p : BitVec 2) (f : Shp → Shp) : State := { sLeash l p with shp := f (sLeash l p).shp }

/-! ## Memories in canonical form, and forms that Lean decides -/

theorem canonical_job : Canonical job := canonical_of_canonicalB (by decide +kernel)
@[simp] theorem canonical_prog (s : State) (fs) : Canonical (prog s fs) ↔ Canonical s :=
  ⟨fun h => h.of_eq rfl rfl rfl rfl rfl, fun h => h.of_eq rfl rfl rfl rfl rfl⟩
theorem canonical_at (s : State) (n : Nat) (w) : Canonical (at_ s n w) ↔ Canonical s := canonical_setStrand _ _ _
theorem canonical_fly (s : State) (n : Nat) : Canonical (fly s n) ↔ Canonical s := canonical_setStrand _ _ _
theorem canonical_fl (s : State) (n : Nat) (d) : Canonical (fl s n d) ↔ Canonical s :=
  (canonical_fly _ _).trans (canonical_setStrand _ _ _)
theorem canonical_board {s : State} (h : Canonical s) (a b) : Canonical (board s a b) := h.boardWrite a b
theorem canonical_inHbm {s : State} (h : Canonical s) (a b) : Canonical (inHbm s a b) := h.jobWrite a b
theorem canonical_loc {s : State} (h : Canonical s) {c : Nat} (hc : c < 16) (a b) : Canonical (loc s c a b) :=
  h.setLmem hc (mwrite_wf b (h.locals c) a)
theorem canonical_rodData : Canonical rodData := canonical_loc (canonical_loc canonical_job (by decide) _ _) (by decide) _ _
/-- The same over empty memories. -/
def blank (s : State) : State :=
  { s with brd := { s.brd with mem := [], check := [] }, mem := { s.mem with hbm := [], check := [] } }
/-- A routed frame whose check holds, or not; one with the payload b. -/
def df (dest : BitVec 24) (hop : BitVec 16) (ck : Bool) : LeadFrame := ⟨dest, 8, hop, 0, if ck then crc32c [1] else 3, [1]⟩
def dfb (b : Bytes) : LeadFrame := ⟨9, 8, 1, 0, crc32c b, b⟩
theorem locked_iff (s : State) (g : Option Nat) : locked s g ↔ (g.any fun i => i == 7 || s.sec.lock.getLsbD i) = true := by
  cases g <;> simp [locked]

theorem shardsApart_gen : ShardsApart gen.shards := by
  intro p x h
  have hg : gen.shards = [⟨none, 1⟩, ⟨some 0x40000, 2⟩] := rfl
  rw [hg] at h ⊢
  have key : ∀ k, k < 2 → x = 0x40000 + k * pageBytes → x % pageBytes = 0 ∧
      ∀ y, x ≤ y → y < x + pageBytes → genPage [⟨none, 1⟩, ⟨some 0x40000, 2⟩] 0 y = some (1 + k) := by
    intro k hk hx
    simp only [pageBytes] at hx ⊢
    refine ⟨by omega, fun y h1 h2 => ?_⟩
    have hy : 0x40000 ≤ y ∧ y < 0x40000 + 2 * 0x40000 := by omega
    simp only [genPage, pageBytes, hy, and_self, if_true]
    congr 1; omega
  rcases p with _ | _ | _ | p
  · simp [genPageAddr] at h
  · exact key 0 (by decide) (by simp [genPageAddr, pageBytes] at h ⊢; omega)
  · exact key 1 (by decide) (by simp [genPageAddr, pageBytes] at h ⊢; omega)
  · simp [genPageAddr] at h

theorem natLE_leNat : (x : Bytes) → natLE x.length (leNat x) = x
  | [] => rfl
  | b :: x => by
    have h : leNat (b :: x) = b.toNat + 256 * leNat x := by simp [leNat]
    have hb := b.isLt
    have e1 : (b.toNat + 256 * leNat x) / 256 = leNat x := by omega
    have e2 : BitVec.ofNat 8 (b.toNat + 256 * leNat x) = b := by
      apply BitVec.eq_of_toNat_eq; rw [BitVec.toNat_ofNat]; omega
    rw [h, List.length_cons, natLE, e1, e2, natLE_leNat x]
theorem natLE_leNat_of {k : Nat} {x : Bytes} (h : x.length = k) : natLE k (leNat x) = x := by subst h; exact natLE_leNat x
/-- The tests' grant names the device whatever its identity key is. -/
theorem grant_device (s : State) (a ad v : BitVec 32) : natLE 32 (grant s a ad v).device.toNat = deviceDigest := by
  have hl : deviceDigest.length = 32 := sha256_length _
  have hx := leNat_lt deviceDigest
  rw [hl] at hx
  have e : (grant s a ad v).device.toNat = leNat deviceDigest := by
    show (BitVec.ofNat 256 (leNat deviceDigest)).toNat = _
    rw [BitVec.toNat_ofNat]; exact Nat.mod_eq_of_lt (by simpa using hx)
  rw [e]; exact natLE_leNat_of hl
theorem grantOkTo5_grant (s : State) (a ad v : BitVec 32) (h : a = 1 ∨ (a = 2 ∧ ad = 0 ∧ v = 0)) :
    grantOkTo5 s (grant s a ad v) = true := by
  have hd := grant_device s a ad v
  unfold grantOkTo5
  rw [hd]
  rcases h with rfl | ⟨rfl, rfl, rfl⟩ <;> simp [grantFormOk, grant]
theorem grant_passes {s : State} {a ad v : BitVec 32} (h : a = 1 ∨ (a = 2 ∧ ad = 0 ∧ v = 0)) (hs : Admits s rq kKeyShp)
    (hd : s.die = .serving) (hm : s.sec.opcertMin ≤ (sess s rq.link true).serial) : GrantPasses s rq (grant s a ad v) a ad :=
  ⟨hs, rfl, hd, grantOkTo5_grant s a ad v h, rfl, rfl, hm⟩
/-- An admitted request, by a Bool that Lean evaluates. -/
def admitsB (s : State) (r : Req) (k : ReqKind) : Bool :=
  (linkAt s r.link).up && (s.sec.owner.isSome || k.early) && (!k.shp || s.shp.serving || s.shp.rom && k.rom) &&
    (k.shp || s.die == .serving) && (k.boot || (sess s r.link k.shp).isOpen) && r.parity != .command && Nat.blt r.ahead maxAhead
theorem admits_of_admitsB {s : State} {r : Req} {k : ReqKind} (h : admitsB s r k = true) : Admits s r k := by
  simp only [admitsB, Bool.and_eq_true, Bool.or_eq_true, Bool.not_eq_true', beq_iff_eq, bne_iff_ne] at h
  obtain ⟨⟨⟨⟨⟨⟨h1, h2⟩, h3⟩, h4⟩, h5⟩, h6⟩, h7⟩ := h
  refine ⟨h1, h2, fun hk => ?_, fun hk => ?_, h5, h6, Nat.blt_eq.mp h7⟩
  · rcases h3 with (h | h) | h
    · simp [hk] at h
    · exact .inl h
    · exact .inr h
  · simpa [hk] using h4
/-- The served device with every group locked, and a Tally that holds records. -/
def jl : State := { jobServed with sec := { jobServed.sec with lock := 15 } }
def tl : State := { holding with tly := { store := [rec_ 7, rec_ 8], buffer := [rec_ 9], next := 10, full := true, overflow := 3, dropped := 1 } }
def row0 : WriteRow := (valueRows[0]?).getD ⟨0, none, fun s _ => s⟩

/-! ## Frames of a round-up -/

/-- A launch frame whose reserved bits are set, and one whose AUTH is wrong. -/
def lfr : LaunchFrame :=
  let f : LaunchFrame := { kind := 1, depth := 2, plan := 0, armId := 6, jobId := 4, time := 5000, reserved := 9, auth := 0 }
  { f with auth := ruAuth jkey (lfBytes f) }
def forged : LaunchFrame := { lfr with auth := ~~~lfr.auth }
theorem not_self (x : BitVec 128) : (x == ~~~x) = false := by
  apply beq_eq_false_iff_ne.mpr
  intro h
  have := congrArg (·.getLsbD 0) h
  simp at this
theorem lfAuthOk_of {s : State} (h : s.sec.job = some jkey) (f g : LaunchFrame) (hb : lfBytes f = lfBytes g)
    (ha : f.auth = ruAuth jkey (lfBytes g)) : lfAuthOk s f = true := by
  rw [lfAuthOk, h, Option.any_some, hb, ha]; exact beq_self_eq_true _
theorem lfAuthOk_lframe {s : State} (h : s.sec.job = some jkey) (kind plan armId time) : lfAuthOk s (lframe kind plan armId time) = true :=
  lfAuthOk_of h _ { kind := kind, depth := 2, plan := plan, armId := armId, jobId := 4, time := time, reserved := 0, auth := 0 }
    (by simp only [lfBytes, lframe]) (by simp only [lframe])
theorem lfAuthOk_lfr {s : State} (h : s.sec.job = some jkey) : lfAuthOk s lfr = true :=
  lfAuthOk_of h _ { kind := 1, depth := 2, plan := 0, armId := 6, jobId := 4, time := 5000, reserved := 9, auth := 0 }
    (by simp only [lfBytes, lfr]) (by simp only [lfr])
theorem lfAuthOk_forged {s : State} (h : s.sec.job = some jkey) : lfAuthOk s forged = false := by
  have hf : lfBytes forged = lfBytes lfr := by simp only [lfBytes, forged]
  have hl : ruAuth jkey (lfBytes lfr) = lfr.auth := by simp only [lfBytes, lfr]
  rw [lfAuthOk, h, Option.any_some, hf, hl]; exact not_self _
theorem repAuthOk_report {s : State} (h : s.sec.job = some jkey) : repAuthOk s report = true := by
  simp only [repAuthOk, h, Option.any_some, report]; exact beq_self_eq_true _
theorem launchForm_lframe {s : State} (h : s.sec.job = some jkey) (kind plan armId time) (ht : time.toNat < 2 ^ 48) :
    LaunchForm s (lframe kind plan armId time) kind := ⟨lfAuthOk_lframe h _ _ _ _, rfl, rfl, ht⟩

/-! ## All drained -/

theorem drained_of {s : State} (hr : s.str.rings.toList.all (fun x => x.p == x.c) = true)
    (hs : ∀ k, k < 16 → (slot s k).st = 0) : Drained s := by
  refine ⟨fun r => ?_, hs⟩
  simp only [ring, vget, List.getD_eq_getElem?_getD]
  rcases h : s.str.rings.toList[r]? with _ | x
  · rfl
  · simpa using List.all_eq_true.mp hr x (List.mem_of_getElem? h)
theorem not_drained {s : State} (k : Nat) (hk : k < 16) (h : (slot s k).st ≠ 0) : ¬ Drained s := fun d => h (d.2 k hk)

/-! ## Sealed keys and pages -/

theorem kdf_length (key label ctx : Bytes) : (kdf key label ctx 256).length = 32 := by
  have h : ceilDiv 256 256 = 1 := by decide
  simp [kdf, h, List.range_one, hmac, sha256_length]
theorem natLE_inj {k x y : Nat} (hx : x < 256 ^ k) (hy : y < 256 ^ k) (h : natLE k x = natLE k y) : x = y := by
  have := congrArg leNat h
  rwa [leNat_natLE, leNat_natLE, Nat.mod_eq_of_lt hx, Nat.mod_eq_of_lt hy] at this
/-- What the tag does not verify does not open. -/
theorem gcmOpen_none {key nonce aad ct t : Bytes} (ht : t.length = 16) (h : t ≠ gcmTag (roundKeys key) nonce aad ct) :
    gcmOpen key nonce aad (ct ++ t) = none := by
  simp only [gcmOpen, List.length_append, ht, Nat.add_sub_cancel, List.drop_left, List.take_left, if_neg h]
/-- The job key 0x1234 wrapped for the ephemeral key of sEph. -/
def eph1 : JobEph := ⟨4, 7, 1⟩
@[irreducible] def wrapped1 : Bytes := gcmSeal (wrapKey sEph eph1 99) (zeros 12) (natLE 8 eph1.jobId.toNat) (natLE 32 (0x1234 : BitVec 256).toNat)
def wr1 : BitVec 256 := BitVec.ofNat 256 (leNat (wrapped1.take 32))
def wr2 : BitVec 128 := BitVec.ofNat 128 (leNat (wrapped1.drop 32))
theorem wrapped1_length : wrapped1.length = 48 := by
  have h := gcmTag_length (key := wrapKey sEph eph1 99) (nonce := zeros 12) (kdf_length _ _ _) (zeros_length _)
  simp only [wrapped1, gcmSeal, List.length_append, gcmText_length, natLE_length, h]
theorem wr1_bytes : natLE 32 wr1.toNat = wrapped1.take 32 := by
  have hl : (wrapped1.take 32).length = 32 := by simp [wrapped1_length]
  have hx := leNat_lt (wrapped1.take 32)
  rw [hl] at hx
  rw [wr1, BitVec.toNat_ofNat, Nat.mod_eq_of_lt (Nat.lt_of_lt_of_eq hx (by norm_num))]
  exact natLE_leNat_of hl
theorem wr2_bytes : natLE 16 wr2.toNat = wrapped1.drop 32 := by
  have hl : (wrapped1.drop 32).length = 16 := by simp [wrapped1_length]
  have hx := leNat_lt (wrapped1.drop 32)
  rw [hl] at hx
  rw [wr2, BitVec.toNat_ofNat, Nat.mod_eq_of_lt (Nat.lt_of_lt_of_eq hx (by norm_num))]
  exact natLE_leNat_of hl
theorem unwrap_wr : unwrap sEph eph1 99 wr1 wr2 = some 0x1234 := by
  rw [unwrap, wr1_bytes, wr2_bytes, List.take_append_drop, wrapped1, gcmOpen_gcmSeal (key := wrapKey sEph eph1 99) (kdf_length _ _ _) (zeros_length _),
    Option.map_some, leNat_natLE]
  decide
theorem unwrap_forged : unwrap sEph eph1 99 wr1 (~~~wr2) = none := by
  have ht := gcmTag_length (key := wrapKey sEph eph1 99) (nonce := zeros 12) (kdf_length _ _ _) (zeros_length _)
  have hc : (gcmText (roundKeys (wrapKey sEph eph1 99)) (zeros 12) (natLE 32 (0x1234 : BitVec 256).toNat)).length = 32 := by
    rw [gcmText_length, natLE_length]
  have h1 : wrapped1.take 32 = gcmText (roundKeys (wrapKey sEph eph1 99)) (zeros 12) (natLE 32 (0x1234 : BitVec 256).toNat) := by
    rw [wrapped1, gcmSeal, List.take_left' hc]
  have h2 : wrapped1.drop 32 = gcmTag (roundKeys (wrapKey sEph eph1 99)) (zeros 12) (natLE 8 eph1.jobId.toNat)
      (gcmText (roundKeys (wrapKey sEph eph1 99)) (zeros 12) (natLE 32 (0x1234 : BitVec 256).toNat)) := by
    rw [wrapped1, gcmSeal, List.drop_left' hc]
  have hn : natLE 16 (~~~wr2).toNat ≠ gcmTag (roundKeys (wrapKey sEph eph1 99)) (zeros 12) (natLE 8 eph1.jobId.toNat)
      (gcmText (roundKeys (wrapKey sEph eph1 99)) (zeros 12) (natLE 32 (0x1234 : BitVec 256).toNat)) := by
    rw [← h2, ← wr2_bytes]
    intro h
    have := BitVec.eq_of_toNat_eq (natLE_inj (~~~wr2).isLt wr2.isLt h)
    have := congrArg (·.getLsbD 0) this
    simp at this
  rw [unwrap, wr1_bytes, h1, gcmOpen_none (natLE_length _ _) hn]; rfl
/-- A stored page but for its first byte, as a restore keeps it, and whole. -/
def tailRun (c : Bytes) : SMap Byte := ((c.drop 1).zipIdx 1).map fun x => (x.2, x.1)
theorem putRun_tail {c : Bytes} (h : c ≠ []) : putRun (tailRun c) 0 (c.take 1) = c.zipIdx.map fun x => (x.2, x.1) := by
  rcases c with _ | ⟨b, _ | ⟨b2, bs⟩⟩
  · exact absurd rfl h
  · rfl
  · simp [tailRun, putRun, sset]
theorem pageKey_length (k : JobKey) (e : Word) (p m : Nat) : (pageKey k e p m).length = 32 := by unfold pageKey; exact kdf_length _ _ _
theorem pageNonce_length (k p : Nat) : (pageNonce k p).length = 12 := by simp [pageNonce, natLE_length, zeros_length]
/-- Page k of generation 6, sealed, and a restore that lacks its first byte. -/
def sealedAs (k : Nat) (b : Bytes) : Bytes := gcmSeal (pageKey jkey jkey.epochR 0 6) (pageNonce k 0) (pageAad jkey 0 6 k 0) b
theorem sealedAs_length (k : Nat) (b : Bytes) : (sealedAs k b).length = b.length + 16 := by
  have h := gcmTag_length (pageKey_length jkey jkey.epochR 0 6) (pageNonce_length k 0)
  unfold sealedAs gcmSeal
  simp only [List.length_append, gcmText_length, h]
theorem sealedAs_opens {s : State} {m : Bytes} (hj : s.sec.job = some jkey) (hp : fld m 0x18 4 = 0) (hm : fld m 0x10 8 = 6) (k : Nat)
    (b : Bytes) : openPage s m k 0 (sealedAs k b) = some b := by
  simp only [openPage, hp, hm, hj, Option.bind_some]
  exact gcmOpen_gcmSeal (pageKey_length _ _ _ _) (pageNonce_length _ _) _ _
def sealedPage (k : Nat) : Bytes := sealedAs k (zeros pageBytes)
def lacking (k : Nat) : Restore := { manifest := manifest 1, accepted := true, pieces := [(k, tailRun (sealedPage k))] }
theorem sealedPage_length (k : Nat) : (sealedPage k).length = storedBytes :=
  (sealedAs_length k (zeros pageBytes)).trans (congrArg (· + 16) (zeros_length pageBytes))
theorem lacking_whole (k : Nat) : putRun (sgetD (lacking k).pieces k []) 0 ((sealedPage k).take 1) =
    (sealedPage k).zipIdx.map fun x => (x.2, x.1) := by
  have hs : ∀ v : SMap Byte, sgetD [(k, v)] k [] = v := fun v => by simp [sgetD, sget?]
  rw [show (lacking k).pieces = [(k, tailRun (sealedPage k))] from rfl, hs]
  have hl := sealedPage_length k
  exact putRun_tail (List.ne_nil_of_length_pos (by rw [hl]; exact Nat.succ_pos 262159))
theorem whole_length (c : Bytes) : (c.zipIdx.map fun x => (x.2, x.1)).length = c.length := by simp
theorem whole_bytes (c : Bytes) : (c.zipIdx.map fun x => (x.2, x.1)).map Prod.snd = c := by
  simp [List.map_map, Function.comp_def]
theorem lacking_opens (k : Nat) : openPage (sRestoring (lacking k)) (manifest 1) k 0 (sealedPage k) = some (zeros pageBytes) := by
  exact sealedAs_opens rfl (by decide +kernel) (by decide +kernel) k (zeros pageBytes)
theorem piece_of {x : Restore} {shard off : BitVec 32} {b : Bytes} (hx : x.accepted = true) (hr : restoreOk (sRestoring x) = true)
    (hb : bulkOk (sRestoring x) (1 : Fin 2) = true) (hl : b.length ≤ 1) (ho : off.toNat < 100)
    (hp : 0 < ((manShards x.manifest).map Shard.pages).getD shard.toNat 0) : PieceOf (sRestoring x) x 1 shard 0 off b := by
  refine ⟨hb, ?_, by omega, by simp only [storedBytes]; omega, hp⟩
  rw [restoring, if_pos hr]
  show Option.filter _ (some x) = some x
  simp [hx]


/-! ## The hypotheses of each statement, met -/

def stepRunsFrontA := { holding with pending := [.thermalRelease, .snap] }
/-- States that meet the hypotheses of `StepRunsFront`, clause by clause. -/
theorem hyps_StepRunsFront :
    stepRunsFrontA.pending = [Instr.thermalRelease, Instr.snap] := by
  decide +kernel

def idleStepTicksA := { holding with tim := { slew := 5, counter := 0xFFFFFFFFFFFF } }
/-- States that meet the hypotheses of `IdleStepTicks`, clause by clause. -/
theorem hyps_IdleStepTicks :
    (idleStepTicksA.pending = [] ∧ idleStepTicksA.die ≠ .off) ∧
    (State.reset.pending = [] ∧ State.reset.die = .off) ∧
    ((sTether [] [] true).pending = [] ∧ (sTether [] [] true).die ≠ .off ∧ (sTether [] [] true).tim.slew = 0) := by
  repeat' apply And.intro
  all_goals decide +kernel

/-- States that meet the hypotheses of `CanonicalKept`, clause by clause. -/
theorem hyps_CanonicalKept : ∃ t, Canonical State.reset ∧ step State.reset = .next t :=
  ⟨_, canonical_of_canonicalB (by decide +kernel), rfl⟩

/-- States that meet the hypotheses of `RodsIntegers` (RodsIntegerOfTwo), clause by clause. -/
theorem hyps_RodsIntegerOfTwo (t : Fin 3) (op : Nat) :
    Canonical (sInt op (t + 2)) ∧ ∀ x ∈ intRows 15, let s := sInt x.2.1 (t + 2); let w := (strand s 33).word; let k := tyBytes (fType w)
      begun s 33 x.2.1 = true ∧ idle s 33 = true ∧ fType w ∈ [2, 3, 4] ∧ opersOk [(fD w, fN w * k)] [(fA w, fN w * k), (fB w, fN w * k)] = true :=
  ⟨(canonical_at _ _ _).mpr canonical_rodData, by revert t; decide +kernel⟩

/-- States that meet the hypotheses of `RodsIntegers` (RodsIntegerOfOne), clause by clause. -/
theorem hyps_RodsIntegerOfOne (t : Fin 3) (op : Nat) :
    Canonical (sInt op (t + 2)) ∧ ∀ x ∈ intRows1 15, let s := sInt x.2.1 (t + 2); let w := (strand s 33).word; let k := tyBytes (fType w)
      begun s 33 x.2.1 = true ∧ idle s 33 = true ∧ fType w ∈ [2, 3, 4] ∧ opersOk [(fD w, fN w * k)] [(fA w, fN w * k)] = true :=
  ⟨(canonical_at _ _ _).mpr canonical_rodData, by revert t; decide +kernel⟩

/-- States that meet the hypotheses of `RodsIntegers` (RodsCompareAndSelect), clause by clause. -/
theorem hyps_RodsCompareAndSelect :
    (let w := (strand (sInt 48 2) 33).word;
     Canonical (sInt 48 2) ∧ idle (sInt 48 2) 33 = true ∧ begun (sInt 48 2) 33 48 = true ∧
     opersOk [(fD w, fN w * tyBytes (fType w))] [(fA w, fN w * tyBytes (fType w)), (fB w, fN w * tyBytes (fType w))] = true) ∧
    (let w := (strand (sInt 52 2) 33).word;
     Canonical (sInt 52 2) ∧ idle (sInt 52 2) 33 = true ∧ begun (sInt 52 2) 33 52 = true ∧
     opersOk [(fD w, fN w * tyBytes (fType w))] [(fA w, fN w * tyBytes (fType w)), (fB w, fN w * tyBytes (fType w)), (fC w, fN w * tyBytes (fType w))] = true) := by
  repeat' apply And.intro
  all_goals first | decide +kernel | exact canonical_of_canonicalB (by decide +kernel)

/-- States that meet the hypotheses of `RodsIntegers` (RodsOperandsRefused), clause by clause. -/
theorem hyps_RodsOperandsRefused :
    let s := sOut; let w := (strand s 33).word; let k := tyBytes (fType w)
    (∃ x ∈ intRows 15, begun s 33 x.2.1 = true) ∧ idle s 33 = true ∧
    opersOk [(fD w, fN w * k)] [(fA w, fN w * k), (fB w, fN w * k)] = false := by decide +kernel

/-- States that meet the hypotheses of `RodsFloats` (RodsFloatingPoint), clause by clause. -/
theorem hyps_RodsFloatingPoint (t : Fin 2) (op : Nat) :
    Canonical (sFloat op t) ∧ (∀ x ∈ floatRows 15, let s := sFloat x.2.1 t; let w := (strand s 33).word; let n := fN w * tyBytes (fFtype w)
      begun s 33 x.2.1 = true ∧ idle s 33 = true ∧
      opersOk [(fD w, n)] ([(fA w, n), (fB w, n), (fC w, n)].take x.2.2.1) = true) :=
  ⟨(canonical_at _ _ _).mpr (canonical_loc (canonical_loc (canonical_loc canonical_job (by decide) _ _) (by decide) _ _) (by decide) _ _),
   by revert t; decide +kernel⟩

/-- States that meet the hypotheses of `RodsFloats` (RodsSpecialInputs), clause by clause. -/
theorem hyps_RodsSpecialInputs : (f32 0x7FC00001).isNan = true ∧ Config.Fn.exp ∈ [Config.Fn.exp, Config.Fn.exp2] ∧
    Config.Fn.log2 ∈ [Config.Fn.log, Config.Fn.log2] ∧ Config.Fn.rsqrt ∈ [Config.Fn.log, Config.Fn.log2, Config.Fn.rsqrt] ∧
    f32 0x80000001 ≠ .nan ∧ f32 0x80000001 ≠ .inf true ∧ (f32 0x80000001).dy.m < 0 := by decide

/-- States that meet the hypotheses of `RodsFloats` (RodsConvertMapDual), clause by clause. -/
theorem hyps_RodsConvertMapDual :
    (let s := sCvt 0 0 0; let w := (strand s 33).word;
     Canonical s ∧ idle s 33 = true ∧ begun s 33 76 = true ∧
     opersOk [(fD w, fN w * tyBytes (wFld w 49 47))] [(fA w, fN w * tyBytes (fType w))] = true ∧
     (¬(fCheck w = true ∧ 0 < if 5 ≤ wFld w 49 47 then nonfiniteCount (wFld w 49 47) (List.map (fun j => cvtElem (fType w) (wFld w 49 47) (bitOf w.toNat 46) (mnat (lmem s 15) (fA w + tyBytes (fType w) * j) (tyBytes (fType w)))) (List.range (fN w))) else 0))) ∧
    (let s := sCvt 2 6 1; let w := (strand s 33).word;
     Canonical s ∧ idle s 33 = true ∧ begun s 33 76 = true ∧
     opersOk [(fD w, fN w * tyBytes (wFld w 49 47))] [(fA w, fN w * tyBytes (fType w))] = true ∧
     (fCheck w = true ∧ 0 < if 5 ≤ wFld w 49 47 then nonfiniteCount (wFld w 49 47) (List.map (fun j => cvtElem (fType w) (wFld w 49 47) (bitOf w.toNat 46) (mnat (lmem s 15) (fA w + tyBytes (fType w) * j) (tyBytes (fType w)))) (List.range (fN w))) else 0)) ∧
    (let w := (strand sMap 33).word;
     Canonical sMap ∧ idle sMap 33 = true ∧ begun sMap 33 77 = true ∧ opersOk [(fD w, fN w)] [(fA w, fN w), (fC w, 256)] = true) ∧
    (let s := sDual 92; let w := (strand s 33).word; let e := fFtype w;
     Canonical s ∧ idle s 33 = true ∧ begun s 33 92 = true ∧
     opersOk [(fD w, fN w * tyBytes e), (fC w, fN w * tyBytes e)] [(fA w, fN w * tyBytes e)] = true ∧
     (fCheck w = true ∧ 0 < nonfiniteCount e (List.map (fun (x : Word) => toTy e (fInf w) (activate 7 0 x)) (List.map (fun j => tyTo32 e (mnat (lmem s 15) (fA w + tyBytes e * j) (tyBytes e))) (List.range (fN w)))) + nonfiniteCount e (List.map (fun (x : Word) => toTy e (fInf w) (derivFn Config.Fn.dgelu x)) (List.map (fun j => tyTo32 e (mnat (lmem s 15) (fA w + tyBytes e * j) (tyBytes e))) (List.range (fN w)))))) := by
  repeat' apply And.intro
  all_goals first | decide +kernel | exact canonical_of_canonicalB (by decide +kernel)

/-- States that meet the hypotheses of `RodsMovesGatherScatterTranspose` (RodsMoves), clause by clause. -/
theorem hyps_RodsMoves :
    Canonical (blank (fly sLoadH 18)) ∧ Finishing (blank (fly sLoadH 18)) 0 (wd 16 [(65, 32767), (30, 16383)]) ∧
    wOp (wd 16 [(65, 32767), (30, 16383)]) = 16 := by
  repeat' apply And.intro
  all_goals first | decide +kernel | exact (canComplete_empty (by decide +kernel) (by decide) (by decide)).trans (by decide +kernel) | exact canonical_of_canonicalB (by decide +kernel) | exact ⟨3, [], by decide +kernel⟩

/-- States that meet the hypotheses of `RodsMovesGatherScatterTranspose` (RodsGatherScatter), clause by clause. -/
theorem hyps_RodsGatherScatter :
    (let w := wd 18 [(65, 3), (50, 2), (35, 1), (4, 3)]; let s := blank (fly (sGather 18) 18);
     Canonical s ∧ Finishing s 0 w ∧ wOp w = 18 ∧
     (((List.map (fun j => mnat (lmem s 0) (fA w + 4 * j) 4) (List.range (fN w))).any fun i => decide ((region (lmem s 0) w).len ≤ i)) = true)) ∧
    (let w := wd 19 [(65, 3), (50, 2), (35, 1), (4, 3)]; let s := blank (fly (sGather 19) 18);
     Canonical s ∧ Finishing s 0 w ∧ wOp w = 19 ∧
     (((List.map (fun j => mnat (lmem s 0) (fA w + 4 * j) 4) (List.range (fN w))).any fun i => decide ((region (lmem s 0) w).len ≤ i)) = true)) ∧
    (let w := wd 20 [(65, 3), (50, 2), (35, 1), (4, 3)]; let s := blank (fly (sGather 20) 18);
     Canonical s ∧ Finishing s 0 w ∧ wOp w = 20 ∧ tyBytes (region (lmem s 0) w).ty = 4 ∧
     (((List.map (fun j => mnat (lmem s 0) (fA w + 4 * j) 4) (List.range (fN w))).any fun i => decide ((region (lmem s 0) w).len ≤ i)) = true)) := by
  repeat' apply And.intro
  all_goals first | decide +kernel | exact (canComplete_empty (by decide +kernel) (by decide) (by decide)).trans (by decide +kernel) | exact canonical_of_canonicalB (by decide +kernel) | exact ⟨3, [], by decide +kernel⟩

/-- States that meet the hypotheses of `RodsMovesGatherScatterTranspose` (RodsTranspose), clause by clause. -/
theorem hyps_RodsTranspose :
    (Canonical sTpose ∧ begun sTpose 18 21 = true ∧ idle sTpose 18 = true ∧ tposeRefusal 0 sTpose (strand sTpose 18).word = none) ∧
    (Canonical (blank (fly sTpose 18)) ∧ Finishing (blank (fly sTpose 18)) 0 (wd 21 [(65, 1)]) ∧ wOp (wd 21 [(65, 1)]) = 21 ∧
     tposeRefusal 0 (blank (fly sTpose 18)) (wd 21 [(65, 1)]) = none) := by
  repeat' apply And.intro
  all_goals first | decide +kernel | exact (canonical_at _ _ _).mpr (canonical_board (canonical_loc canonical_job (by decide) _ _) _ _) | exact (canComplete_empty (by decide +kernel) (by decide) (by decide)).trans (by decide +kernel) | exact canonical_of_canonicalB (by decide +kernel) | exact ⟨3, [], by decide +kernel⟩

/-- States that meet the hypotheses of `RodsSortHashStringsNorms` (RodsSort), clause by clause. -/
theorem hyps_RodsSort :
    let w := (strand (sSort 0 0) 33).word;
     Canonical (sSort 0 0) ∧ begun (sSort 0 0) 33 96 = true ∧ idle (sSort 0 0) 33 = true ∧
     (opersOk [(fD w, fN w * if wFld w 3 2 = 3 then 8 else 4), (fA w, fN w * 4)] [] = true) := by
  repeat' apply And.intro
  all_goals first | decide +kernel | exact canonical_of_canonicalB (by decide +kernel)

/-- States that meet the hypotheses of `RodsSortHashStringsNorms` (RodsHashes), clause by clause. -/
theorem hyps_RodsHashes :
    (let s := sHash 97 0; let w := (strand s 18).word;
     Canonical s ∧ idle s 18 = true ∧ begun s 18 97 = true ∧ hashBlock 0 false s w = none ∧
     opersOk [(fD w, 8 * fN w)] [(fA w, 8 * fN w), (fC w, 64)] = true) ∧
    (let s := sHash 98 0; let w := (strand s 18).word;
     Canonical s ∧ idle s 18 = true ∧ begun s 18 98 = true ∧ hashBlock 0 false s w = none ∧
     opersOk [(fD w, 8 * fN w)] [(fA w, 64 * fN w), (fB w, fN w), (fC w, 64)] = true ∧
     (((List.range (fN w)).any fun j => decide (64 < BitVec.toNat (mget (lmem s 0) (fB w + j)))) = true)) ∧
    (let s := sHash 99 515; let w := (strand s 18).word;
     Canonical s ∧ idle s 18 = true ∧ begun s 18 99 = true ∧ hashBlock 0 true s w = none ∧
     opersOk [(fD w, 4 * (mnat (lmem s 0) (fC w + 8) 1 + 1) * fN w)] [(fA w, 64 * fN w), (fB w, fN w), (fC w, 64)] = true ∧
     (((List.range (fN w)).any fun j => decide (64 < BitVec.toNat (mget (lmem s 0) (fB w + j)))) = true)) := by
  repeat' apply And.intro
  all_goals first | decide +kernel | exact canonical_of_canonicalB (by decide +kernel)

/-- States that meet the hypotheses of `RodsSortHashStringsNorms` (RodsStringPairs), clause by clause. -/
theorem hyps_RodsStringPairs :
    (let s := sPair 100;
     Canonical s ∧ idle s 18 = true ∧ pairRefusal 0 s (strand s 18).word = none ∧ begun s 18 100 = true) ∧
    (let s := sPair 101;
     Canonical s ∧ idle s 18 = true ∧ pairRefusal 0 s (strand s 18).word = none ∧ begun s 18 101 = true) := by
  repeat' apply And.intro
  all_goals first | decide +kernel | exact canonical_of_canonicalB (by decide +kernel)

/-- At NORM into the first entry of the optimizer's. -/
def normS : State := sNorm 112 [(50, 1), (37, 4096), (4, 2)]
/-- States that meet the hypotheses of `RodsSortHashStringsNorms` (RodsNormStore), clause by clause. -/
theorem hyps_RodsNormStore :
    (Canonical normS ∧ idle normS 33 = true ∧
     begun normS 33 112 = true ∧
     opersOk [] [(fA (strand normS 33).word, fN (strand normS 33).word * tyBytes (fFtype (strand normS 33).word))] = true) ∧
    (let w := wd 112 [(50, 1), (37, 4096), (4, 2)];
     Canonical (fly normS 33) ∧ Finishing (fly normS 33) 15 w ∧
     wOp w = 112) := by
  repeat' apply And.intro
  all_goals first | decide +kernel | exact canonical_of_canonicalB (by decide +kernel) | exact ⟨3, [], by decide +kernel⟩

/-- States that meet the hypotheses of `DecodeAndCommonOpcodes` (DecodeTakesTheNextWord), clause by clause. -/
theorem hyps_DecodeTakesTheNextWord :
    (canDecode (sNext 42 (pw 0 [])) 42 = true ∧
     decodeCheck 42 (codeWord (img (sNext 42 (pw 0 []))) 42 (strand (sNext 42 (pw 0 [])) 42).index.toNat) = none) ∧
    (canDecode (sNext 0 (pw 17 [])) 0 = true ∧
     decodeCheck 0 (codeWord (img (sNext 0 (pw 17 []))) 0 (strand (sNext 0 (pw 17 [])) 0).index.toNat) = some 184877825) := by
  repeat' apply And.intro
  all_goals decide +kernel

/-- States that meet the hypotheses of `ZeroCountsAreRefused`, clause by clause. -/
theorem hyps_ZeroCountsAreRefused :
    canDecode (sNext 0 (pw 16 [(96, 1)])) 0 = true ∧
    parityEven (codeWord (img (sNext 0 (pw 16 [(96, 1)]))) 0 (strand (sNext 0 (pw 16 [(96, 1)])) 0).index.toNat) = true ∧
    opAssigned 0 (wOp (codeWord (img (sNext 0 (pw 16 [(96, 1)]))) 0 (strand (sNext 0 (pw 16 [(96, 1)])) 0).index.toNat)) = true ∧
    wsZero (codeWord (img (sNext 0 (pw 16 [(96, 1)]))) 0 (strand (sNext 0 (pw 16 [(96, 1)])) 0).index.toNat) = true ∧
    (wWen (codeWord (img (sNext 0 (pw 16 [(96, 1)]))) 0 (strand (sNext 0 (pw 16 [(96, 1)])) 0).index.toNat) = true ∧ wWcnt (codeWord (img (sNext 0 (pw 16 [(96, 1)]))) 0 (strand (sNext 0 (pw 16 [(96, 1)])) 0).index.toNat) = 0 ∨ wSen (codeWord (img (sNext 0 (pw 16 [(96, 1)]))) 0 (strand (sNext 0 (pw 16 [(96, 1)])) 0).index.toNat) = true ∧ wSinc (codeWord (img (sNext 0 (pw 16 [(96, 1)]))) 0 (strand (sNext 0 (pw 16 [(96, 1)])) 0).index.toNat) = 0) := by
  repeat' apply And.intro
  all_goals decide +kernel

/-- States that meet the hypotheses of `TokenWait`, clause by clause. -/
theorem hyps_TokenWait :
    (let s := sWait 4095;
     Canonical s ∧ running s = true ∧ halted s 42 = false ∧ (strand s 42).phase = Phase.waiting ∧
     wWcnt (strand s 42).word ≤ token s (wWtok (strand s 42).word)) ∧
    (let s := sWait 4094;
     Canonical s ∧ running s = true ∧ halted s 42 = false ∧ (strand s 42).phase = Phase.waiting ∧
     token s (wWtok (strand s 42).word) < wWcnt (strand s 42).word) := by
  repeat' apply And.intro
  all_goals first | decide +kernel | exact canonical_of_canonicalB (by decide +kernel)

/-- States that meet the hypotheses of `TokenSignals` (SignalsOfOneCycleAddUp), clause by clause. -/
theorem hyps_SignalsOfOneCycleAddUp :
    Canonical (sTok 65520) := by
  first | decide +kernel | exact canonical_of_canonicalB (by decide +kernel)

/-- States that meet the hypotheses of `TokenSignals` (SignalOverflow), clause by clause. -/
theorem hyps_SignalOverflow :
    let l : List Signal := [⟨0, 5, 15⟩, ⟨3, 5, 1⟩]
    (sTok 65520).die ≠ .off ∧ (∃ g ∈ l, g.tok = 5) ∧ 65535 < signalled (sTok 65520) l 5 ∧ ∀ g ∈ l, g.tok = 5 ∧ g.strand < 43 := by
  decide +kernel

/-- States that meet the hypotheses of `DecodeAndCommonOpcodes` (CommonOpcodes), clause by clause. -/
theorem hyps_CommonOpcodes :
    (let s := sCommon 20 0 5;
     (∀ g ∈ wordSignal 20 (strand s 20).word, token s g.tok + g.inc ≤ 65535) ∧ begun s 20 0 = true ∧ unitFree s 20 = true ∧
     (strand s 20).index.toNat + 1 ≠ codeCount (img s) 20) ∧
    (let s := sCommon 42 0 4;
     (∀ g ∈ wordSignal 42 (strand s 42).word, token s g.tok + g.inc ≤ 65535) ∧ begun s 42 0 = true ∧ unitFree s 42 = true ∧
     (strand s 42).index.toNat + 1 = codeCount (img s) 42) ∧
    ((∀ g ∈ wordSignal 20 (strand (sCommon 20 1 5) 20).word, token (sCommon 20 1 5) g.tok + g.inc ≤ 65535) ∧
     begun (sCommon 20 1 5) 20 1 = true) ∧
    (let s := sCommon 20 2 5;
     (∀ g ∈ wordSignal 20 (strand s 20).word, token s g.tok + g.inc ≤ 65535) ∧ begun s 20 2 = true ∧ unitFree s 20 = true) := by
  repeat' apply And.intro
  all_goals decide +kernel

def instructionCompletesA := { sDone with sys := { st := .draining } }
/-- States that meet the hypotheses of `Completions` (InstructionCompletes), clause by clause. -/
theorem hyps_InstructionCompletes :
    ((strand sDone 20).inflight = [(3, pw 32 [(96, 1), (86, 5), (82, 15)]), (4, 0)] ∧ wOp (pw 32 [(96, 1), (86, 5), (82, 15)]) ≠ 120 ∧
     3 + 1 ≠ codeCount (img sDone) 20 ∧ canComplete sDone 20 = true ∧
     (∀ g ∈ wordSignal 20 (pw 32 [(96, 1), (86, 5), (82, 15)]), token sDone g.tok + g.inc ≤ 65535)) ∧
    ((strand sDone 20).inflight = [(3, pw 32 [(96, 1), (86, 5), (82, 15)]), (4, 0)] ∧ wOp (pw 32 [(96, 1), (86, 5), (82, 15)]) ≠ 120 ∧
     3 + 1 ≠ codeCount (img sDone) 20 ∧ canComplete sDone 20 = true ∧
     (∀ g ∈ wordSignal 20 (pw 32 [(96, 1), (86, 5), (82, 15)]), token sDone g.tok + g.inc ≤ 65535) ∧
     wSen (pw 32 [(96, 1), (86, 5), (82, 15)]) = true) ∧
    ((strand instructionCompletesA 20).inflight = [(3, pw 32 [(96, 1), (86, 5), (82, 15)]), (4, 0)] ∧
     wOp (pw 32 [(96, 1), (86, 5), (82, 15)]) ≠ 120 ∧ 3 + 1 ≠ codeCount (img instructionCompletesA) 20 ∧
     canComplete instructionCompletesA 20 = false) := by
  repeat' apply And.intro
  all_goals decide +kernel

/-- States that meet the hypotheses of `ExactSums` (GuaranteedQuantumNeverOverflows), clause by clause. -/
theorem hyps_GuaranteedQuantumNeverOverflows : 1 ≤ 1048576 ∧ 1048576 ≤ 1048576 ∧
    ∀ j : Nat, j < 1048576 → aboveCeil ((fun _ => (Fv.fin false 1 0, Fv.fin true 1 0)) j : Fv × Fv).1 0 = false ∧
      aboveCeil ((fun _ => (Fv.fin false 1 0, Fv.fin true 1 0)) j : Fv × Fv).2 0 = false := by
  have h : aboveCeil (.fin false 1 0) 0 = false ∧ aboveCeil (.fin true 1 0) 0 = false := by decide
  exact ⟨by decide, by decide, fun _ _ => h⟩

/-- States that meet the hypotheses of `FrameBegins` (MatmulIssues), clause by clause. -/
theorem hyps_MatmulIssues :
    (let s := sMatmul 15;
     begun s 0 16 = true ∧ matmulRefusals s (strand s 0).word (mread s.brd.mem (wFld (strand s 0).word 79 58 * 64) 128) = []) ∧
    (let s := sMatmul 16;
     begun s 0 16 = true ∧ matmulRefusals s (strand s 0).word (mread s.brd.mem (wFld (strand s 0).word 79 58 * 64) 128) ≠ []) := by
  repeat' apply And.intro
  all_goals decide +kernel

/-- Ceilings of 511 for both operands, their blocks with their check values. -/
def sLoose : State :=
  let m := mwrite (mwrite [] 0x20000 (natLE 2 511)) 0x40000 (natLE 2 511)
  let s := sSeat 1 0
  { s with brd := { s.brd with mem := m, check := [(64, crc32c (mread m (blockBytes * 64) blockBytes)), (128, crc32c (mread m (blockBytes * 128) blockBytes))] } }
theorem sLoose_maps : ((groupTiles sLoose fop.desc fop.width (nextGroup fop)).all fun x => mapsVerify sLoose fop.desc fop.width x.ti x.tj) = true := by
  have h64 : blockVerifies sLoose.brd.mem sLoose.brd.check 64 = true := by
    simp only [blockVerifies, checkAt, sgetD, sLoose, sget?, if_true, Option.getD_some, beq_self_eq_true]
  have h128 : blockVerifies sLoose.brd.mem sLoose.brd.check 128 = true := by
    simp only [blockVerifies, checkAt, sgetD, sLoose, sget?, if_true, Option.getD_some, beq_self_eq_true, reduceIte, Nat.reduceEqDiff]
  have ha : ceilDiv (fdK fop.desc) (64 * mapCols (img sLoose)) = 1 := by decide +kernel
  have hb : (0 * (fop.width / 64) + ceilDiv (tileCols fop.desc fop.width 0) 64 - 1) / mapCols (img sLoose) -
      0 * (fop.width / 64) / mapCols (img sLoose) + 1 = 1 := by decide +kernel
  have hm : mapsVerify sLoose fop.desc fop.width 0 0 = true := by
    unfold mapsVerify
    simp only [ha, hb, Bool.or_eq_true, Bool.and_eq_true, List.all_eq_true, List.mem_range]
    refine .inr ⟨fun q hq => ?_, fun q hq => ?_⟩
    all_goals obtain rfl : q = 0 := by omega
    · exact locVerifies_board (k := 64) (by decide +kernel) (by decide +kernel) (by decide +kernel) h64
    · exact locVerifies_board (k := 128) (by decide +kernel) (by decide +kernel) (by decide +kernel) h128
  have ht : (groupTiles sLoose fop.desc fop.width (nextGroup fop)).all (fun x => x.ti == 0 && x.tj == 0) = true := by decide +kernel
  simp only [List.all_eq_true, Bool.and_eq_true, beq_iff_eq] at ht ⊢
  intro x hx
  rw [(ht x hx).1, (ht x hx).2]
  exact hm

/-- States that meet the hypotheses of `FrameBegins` (FrameSeatsAndBegins), clause by clause. -/
theorem hyps_FrameSeatsAndBegins :
    (let s := sSeat 1 0;
     s.frm.ops[seatIdx s.frm.ops]? = some fop ∧ frameLive s fop = true ∧ fop.seat = none ∧ creditHeld s 0 = false ∧
     substHolds s fop = false ∧
     stripsOn s &&& stripMask s (stripsNeeded fop.desc fop.width) = stripMask s (stripsNeeded fop.desc fop.width) ∧
     feedReady s (wFld fop.word 29 24) = true ∧
     (segNow s (wFld fop.word 29 24) = { rows := chunkLen fop.desc (seatPass fop % chunks fop.desc), rowBytes := bRowBytes fop.desc fop.width, aux := if isMx (fdB fop.desc) = true then ceilDiv (chunkLen fop.desc (seatPass fop % chunks fop.desc)) 32 * roundUpTo fop.width 64 else 0 })) ∧
    (let e := groupTiles (sSeat 1 0) fop.desc fop.width (nextGroup fop);
     curOp (sSeat 1 0) = some fop ∧ frameLive (sSeat 1 0) fop = true ∧ fop.pass < passes fop.desc fop.width ∧ fop.group = none ∧
     ((e.all fun (x : TileRun) => (slot (sSeat 1 0) x.slot).st == 0) = true) ∧
     ((e.all fun (x : TileRun) => mapsVerify (sSeat 1 0) fop.desc fop.width x.ti x.tj) = true) ∧
     (fdSeq fop.desc = true ∨ (e.all fun (x : TileRun) => decide (x.q ≤ 511)) = true)) ∧
    (let s := sSeat 0 1;
     s.frm.ops[seatIdx s.frm.ops]? = some fop ∧ frameLive s fop = true ∧ fop.seat = none ∧ creditHeld s 0 = false ∧
     substHolds s fop = false ∧
     stripsOn s &&& stripMask s (stripsNeeded fop.desc fop.width) = stripMask s (stripsNeeded fop.desc fop.width) ∧
     feedReady s (wFld fop.word 29 24) = false ∧ seatIdx s.frm.ops = curIdx s.frm.ops ∧ fop.active = none) ∧
    (curOp (sSeat 0 1) = some fop ∧ frameLive (sSeat 0 1) fop = true ∧ fop.pass < passes fop.desc fop.width ∧ fop.group = none ∧
     (((groupTiles (sSeat 0 1) fop.desc fop.width (nextGroup fop)).any fun (x : TileRun) => (slot (sSeat 0 1) x.slot).st != 0) = true)) ∧
    (let e := sLoose; let e2 := groupTiles e fop.desc fop.width (nextGroup fop);
     curOp e = some fop ∧ frameLive e fop = true ∧ fop.pass < passes fop.desc fop.width ∧ fop.group = none ∧
     ((e2.all fun (x : TileRun) => (slot e x.slot).st == 0) = true) ∧
     ((e2.all fun (x : TileRun) => mapsVerify (e) fop.desc fop.width x.ti x.tj) = true) ∧
     fdSeq fop.desc = false ∧
     ((e2.any fun (x : TileRun) => decide (511 < x.q)) = true)) := by
  have hf : feedReady (sSeat 1 0) (wFld fop.word 29 24) = true :=
    feedReady_unlisted (by decide +kernel) (by decide +kernel) (by decide +kernel)
  have hm : ∀ i j, mapsVerify (sSeat 1 0) fop.desc fop.width i j = true := mapsVerify_empty (by decide +kernel) _ _
  repeat' apply And.intro
  all_goals first | simp only [hf] | simp only [sLoose_maps] | (simp only [hm, List.all_eq_true, implies_true]; done) | decide +kernel

def framePassA := { fop with group := some [tile 0], seat := some (zeros 6144) }
def framePassB := { sPass with str := { sPass.str with rings := (frameJob).str.rings } }
/-- States that meet the hypotheses of `FramePassesAndStepBack` (FramePass), clause by clause. -/
theorem hyps_FramePass :
    (let e := ring sPass (wFld framePassA.word 35 30); let e2 := framePassA.pass % chunks framePassA.desc;
     curOp sPass = some framePassA ∧ frameLive sPass framePassA = true ∧ creditHeld sPass 0 = false ∧ framePassA.group = some [tile 0] ∧
     framePassA.seat = some (zeros 6144) ∧ framePassA.active = none ∧ substHolds sPass framePassA = false ∧
     framePassA.pass < passes framePassA.desc framePassA.width ∧ replayDue framePassA = none ∧ 0 < [tile 0].length ∧
     e.c + [tile 0].length ≤ e.p ∧ (List.map TileRun.slot [tile 0]).Nodup ∧
     (∀ (j : Nat) (x : TileRun), [tile 0][j]? = some x → (List.drop j e.segs).head? = some (aLayout framePassA.desc x.ti) ∧ x.slot < 16 ∧ rangeVerifies sPass.brd.mem sPass.brd.check (segAddr sPass (wFld framePassA.word 35 30) (e.c + j)) (tileRows framePassA.desc x.ti * aRowBytes framePassA.desc + (if isMx (fdA framePassA.desc) then 64 * tileRows framePassA.desc x.ti else 0)) = true ∧ (fdSeq framePassA.desc = true ∨ rangeRow sPass framePassA.desc framePassA.width x e2 (tileA sPass framePassA j x) (tileB framePassA (zeros 6144)) (tileRows framePassA.desc x.ti) (tileCols framePassA.desc framePassA.width x.tj) (chunkLen framePassA.desc e2) = none)) ∧
     wFld framePassA.word 35 30 < 64) ∧
    (curOp framePassB = some framePassA ∧ frameLive framePassB framePassA = true ∧ creditHeld framePassB 0 = false ∧
     framePassA.group = some [tile 0] ∧ framePassA.seat = some (zeros 6144) ∧ framePassA.active = none ∧
     substHolds framePassB framePassA = false ∧ framePassA.pass < passes framePassA.desc framePassA.width ∧ replayDue framePassA = none ∧
     feedReady framePassB (wFld framePassA.word 35 30) = false) ∧
    (fdSeq fop.desc = false ∧ (tile 0).stopped = false ∧
     (rangeRow sPass fop.desc fop.width (tile 0) 0 (fun (r k : Nat) => Fv.fin false (r + k) (-10)) (fun (k c : Nat) => Fv.fin true (k + c) (-10)) (tileRows fop.desc (tile 0).ti) (tileCols fop.desc fop.width (tile 0).tj) (chunkLen fop.desc 0) = none) ∧
     1 < tileRows fop.desc (tile 0).ti ∧ 1 < tileCols fop.desc fop.width (tile 0).tj) := by
  repeat' apply And.intro
  all_goals first | decide +kernel | exact rfl | (rintro (_ | j) x h <;> [(cases h; exact ⟨by decide +kernel, by decide +kernel, rangeVerifies_nil _ _, by decide +kernel⟩); simp at h])

def lastCarryTurnsSlotsFullA := { fop with landing := [⟨[15]⟩] }
/-- States that meet the hypotheses of `FramePassesAndStepBack` (LastCarryTurnsSlotsFull), clause by clause. -/
theorem hyps_LastCarryTurnsSlotsFull :
    running sLand = true ∧ sLand.frm.ops = [lastCarryTurnsSlotsFullA] ∧ lastCarryTurnsSlotsFullA.landing = [{ slots := [15] }] ∧
    lastCarryTurnsSlotsFullA.dead = false ∧ 15 < 16 := by
  repeat' apply And.intro
  all_goals decide +kernel

def stepBackReplaysA := { fop with pass := 1, group := some [{ tile 0 with stopped := true }] }
def stepBackReplaysB := { tile 0 with stopped := true }
/-- States that meet the hypotheses of `FramePassesAndStepBack` (StepBackReplays), clause by clause. -/
theorem hyps_StepBackReplays :
    curOp sStep = some stepBackReplaysA ∧ replayDue stepBackReplaysA = some [stepBackReplaysB] ∧
    frameLive sStep stepBackReplaysA = true ∧ creditHeld sStep 0 = false ∧ fdSeq stepBackReplaysA.desc = false ∧
    (((List.filter needsReplay [stepBackReplaysB]).all fun (t : TileRun) => decide (t.qg ≤ 511)) = true) ∧
    (((List.filter needsReplay [stepBackReplaysB]).all fun (t : TileRun) => sourceVerifies sStep stepBackReplaysA.desc stepBackReplaysA.width t.ti t.tj) = true) ∧
    (∀ x ∈ List.filter needsReplay [stepBackReplaysB], ∀ c < chunks stepBackReplaysA.desc, sourceRange sStep stepBackReplaysA x c = none) ∧
    stepBackReplaysB.slot < 16 ∧ 0 < fdK stepBackReplaysA.desc := by
  repeat' apply And.intro
  all_goals first | (simp only [sourceVerifies_empty (show memoriesEmpty sStep = true by decide +kernel), List.all_eq_true, implies_true]; done) | decide +kernel

def recountsA := { fop with pass := 1, sel := [selTile] }
/-- States that meet the hypotheses of `RecountsAndClassification` (Recounts), clause by clause. -/
theorem hyps_Recounts :
    (running sWin = true ∧ sWin.knl.t = sWin.knl.winStart + BitVec.setWidth 64 sWin.knl.n) ∧
    (curOp sRec = some recountsA ∧ recountDue recountsA = some selTile ∧ frameLive sRec recountsA = true ∧ creditHeld sRec 0 = false ∧
     sourceVerifies sRec recountsA.desc recountsA.width selTile.ti selTile.tj = true ∧
     (recountTile sRec recountsA true selTile []).stop = none ∧
     replayDigest recountsA selTile (recountTile sRec recountsA true selTile []) = selTile.d0 ∧ physStrip sRec 0 < 16) ∧
    (curOp sRec = some recountsA ∧ recountDue recountsA = some selTile ∧ frameLive sRec recountsA = true ∧ creditHeld sRec 0 = false ∧
     sourceVerifies sRec recountsA.desc recountsA.width selTile.ti selTile.tj = true ∧
     (recountTile sRec recountsA true selTile [flipR 5]).stop = none ∧
     replayDigest recountsA selTile (recountTile sRec recountsA true selTile [flipR 5]) ≠ selTile.d0) := by
  repeat' apply And.intro
  all_goals first | (simp only [sourceVerifies_empty (show memoriesEmpty sRec = true by decide +kernel)]) | decide +kernel

/-- The tile under classification, whose second replay gave the digests of one flipped bit. -/
def selClass : SelTile := { selTile with d1 := dig 1 }
/-- States that meet the hypotheses of `RecountsAndClassification` (Classification), clause by clause. -/
theorem hyps_Classification :
    let op := opC (dig 1); let s := sClass (dig 1)
    let r2 := fun f => recountTile s op false selClass f; let r3 := fun f => recountTile s op true selClass f
    let g2 := fun f => replayDigest op selClass (r2 f); let g3 := fun f => replayDigest op selClass (r3 f)
    (curOp s = some op ∧ op.mismatch = some selClass ∧ frameLive s op = true ∧ creditHeld s 0 = false ∧ s.knl.detSet = false ∧
      sourceVerifies s op.desc op.width selClass.ti selClass.tj = true) ∧
    ((r2 []).stop = none ∧ (r3 []).stop = none ∧ g2 [] = selClass.d0 ∧ g3 [] = selClass.d0) ∧
    ((r2 [flip 2]).stop = none ∧ (r3 [flipR 2]).stop = none ∧ g2 [flip 2] ≠ selClass.d0 ∧ g3 [flipR 2] = g2 [flip 2]) ∧
    ((r3 [flipR 3]).stop = none ∧ g3 [flipR 3] ≠ g2 [flip 2]) ∧
    ((r3 [flipR 1]).stop = none ∧ g3 [flipR 1] ≠ selClass.d0 ∧ g3 [flipR 1] = selClass.d1) ∧
    (beadOut s 349 349 = false ∧ onPath s op selClass (some 349) 349 = false) ∧
    (beadOut s 1 1 = false ∧ onPath s op selClass (some 1) 1 = true) := by
  intro op s r2 r3 g2 g3
  have hv : sourceVerifies s op.desc op.width selClass.ti selClass.tj = true := sourceVerifies_empty (by decide +kernel) _ _ _ _
  exact ⟨⟨by decide +kernel, by decide +kernel, by decide +kernel, by decide +kernel, by decide +kernel, hv⟩, by decide +kernel⟩

/-- States that meet the hypotheses of `BeadMap`, clause by clause. -/
theorem hyps_BeadMap :
    (sBead.die = .serving ∧ sBead.sys.st = .boot) ∧
    (beadOut sBead 1039 1038 = false ∧ 1039 % 65 = 64 ∧ 1038 % 65 ≠ 64 ∧ vget sBead.frm.rowFail (1039 / 65) 0 = 0x7F) ∧
    (beadOut sBead 1039 1039 = false ∧ ¬(1039 % 65 = 64 ∧ 1039 % 65 ≠ 64 ∧ vget sBead.frm.rowFail (1039 / 65) 0 = 0x7F) ∧
     vget sBead.frm.colFail (1039 / 65) 0 = 0x7F) ∧
    (sSubst.die ≠ .off ∧ sSubst.frm.subst ≠ [] ∧ (sSubst.frm.ops.all fun op => seatPass op == 0) = true) ∧
    (running sWake = true ∧ fop ∈ sWake.frm.ops ∧ (stripMask sWake (stripsNeeded fop.desc fop.width)).getLsbD 0 = true) := by
  decide +kernel

def frameCompletesA := { fop with word := mmWord 0x80, pass := 1 }
def frameCompletesB := { fop with word := mmWord 0, pass := 1 }
/-- States that meet the hypotheses of `Completions` (FrameCompletes), clause by clause. -/
theorem hyps_FrameCompletes :
    (let s := sFDone 128;
     Canonical s ∧ (strand s 0).inflight = [(3, pw 16 [(96, 1), (86, 5), (82, 1), (58, 64), (36, 128)])] ∧ running s = true ∧
     (strand s 0).dead = false ∧ creditHeld s 0 = false ∧ 3 + 1 ≠ codeCount (img s) 0 ∧ s.frm.ops = [frameCompletesA, fop] ∧
     streamed frameCompletesA = true ∧ frameCompletesA.landing = [] ∧ frameCompletesA.dead = false ∧
     (∀ g ∈ wordSignal 0 (pw 16 [(96, 1), (86, 5), (82, 1), (58, 64), (36, 128)]), token s g.tok + g.inc ≤ 65535) ∧
     wFld frameCompletesA.word 57 36 * 64 ≠ 0) ∧
    (let s := sFDone 0;
     Canonical s ∧ (strand s 0).inflight = [(3, pw 16 [(96, 1), (86, 5), (82, 1), (58, 64), (36, 0)])] ∧ running s = true ∧
     (strand s 0).dead = false ∧ creditHeld s 0 = false ∧ 3 + 1 ≠ codeCount (img s) 0 ∧ s.frm.ops = [frameCompletesB, fop] ∧
     streamed frameCompletesB = true ∧ frameCompletesB.landing = [] ∧ frameCompletesB.dead = false ∧
     (∀ g ∈ wordSignal 0 (pw 16 [(96, 1), (86, 5), (82, 1), (58, 64), (36, 0)]), token s g.tok + g.inc ≤ 65535) ∧
     wFld frameCompletesB.word 57 36 * 64 = 0) := by
  repeat' apply And.intro
  all_goals first | decide +kernel | exact canonical_of_canonicalB (by decide +kernel)

def drainTakesItsSlotA := { edgeOp .tail with num := 3 }
/-- States that meet the hypotheses of `Drains` (DrainTakesItsSlot), clause by clause. -/
theorem hyps_DrainTakesItsSlot :
    (let s := sDrain 2 3; let w := (strand s 1).word; let e := slot s (wFld w 79 76); let d := mread s.brd.mem (wFld w 67 46 * 64) 128;
     begun s 1 16 = true ∧ edgeFree s = true ∧ drainRefusal s (wFld w 67 46 * 64) d = none ∧
     tagDiff (BitVec.ofNat 8 (wFld w 75 68)) e.tag = 0 ∧ e.st = 2 ∧ drainBeginRefusal s d e = none) ∧
    (let s := sDrain 2 2; let w := (strand s 1).word; let e := slot s (wFld w 79 76);
     begun s 1 16 = true ∧ edgeFree s = true ∧ drainRefusal s (wFld w 67 46 * 64) (mread s.brd.mem (wFld w 67 46 * 64) 128) = none ∧
     (0 < tagDiff (BitVec.ofNat 8 (wFld w 75 68)) e.tag ∨ tagDiff (BitVec.ofNat 8 (wFld w 75 68)) e.tag = 0 ∧ e.st = 1)) ∧
    (let s := sDrain 2 4; let w := (strand s 1).word; let e := slot s (wFld w 79 76);
     begun s 1 16 = true ∧ edgeFree s = true ∧ drainRefusal s (wFld w 67 46 * 64) (mread s.brd.mem (wFld w 67 46 * 64) 128) = none ∧
     (tagDiff (BitVec.ofNat 8 (wFld w 75 68)) e.tag < 0 ∨ tagDiff (BitVec.ofNat 8 (wFld w 75 68)) e.tag = 0 ∧ (e.st = 0 ∨ e.st = 3))) ∧
    (let s := sDrainOp EdgePhase.slotWait 0; let e2 := edgeOp EdgePhase.slotWait; let e := slot s (wFld e2.word 79 76);
     running s = true ∧ (strand s 1).dead = false ∧ s.edg.ops = [drainTakesItsSlotA] ++ [edgeOp EdgePhase.slotWait] ∧ e2.phase = EdgePhase.slotWait ∧ e.st = 2 ∧
     e.tag = BitVec.ofNat 8 (wFld e2.word 75 68) ∧ drainBeginRefusal s e2.desc e = none) := by
  repeat' apply And.intro
  all_goals decide +kernel

def drainWritesItsTileA := let s := sDrainOp .rows 1; setSlot { s with edg := { s.edg with ops := [{ edgeOp .rows with desc := dd2 }] } } 15 { fullSlot 3 3 with nonfinite := true }
def drainWritesItsTileB := { edgeOp .rows with desc := dd2 }
/-- States that meet the hypotheses of `Drains` (DrainWritesItsTile), clause by clause. -/
theorem hyps_DrainWritesItsTile :
    (let e := edgeOp EdgePhase.rows; let s := sDrainOp EdgePhase.rows 0; let e2 := drainRun s e.desc (slot s (wFld e.word 79 76));
     Canonical s ∧ running s = true ∧ s.edg.ops = [drainTakesItsSlotA] ++ [edgeOp EdgePhase.rows] ∧ e.phase = EdgePhase.rows ∧
     e.sweep = false ∧ e.dead = false ∧ (strand s 1).dead = false ∧ creditHeld s 1 = false ∧ edgeCredit s (ddRing e.desc) = true ∧ e2.stop = false ∧
     (((endCodes e.desc e2.cnt).all fun (c : Nat × Nat) => c.2 != 2) = true) ∧ wFld e.word 79 76 < 16 ∧ ddRowRec e.desc = false ∧
     ddColRec e.desc = false ∧ ddAddr e.desc 68 = addrNone ∧ ddAddr e.desc 72 = addrNone) ∧
    (let s := sDrainOp EdgePhase.rows 2; let e := edgeOp EdgePhase.rows;
     Canonical s ∧ running s = true ∧ s.edg.ops = [drainTakesItsSlotA] ++ [edgeOp EdgePhase.rows] ∧ e.phase = EdgePhase.rows ∧
     e.sweep = false ∧ e.dead = false ∧ (strand s 1).dead = false ∧ creditHeld s 1 = false ∧ edgeCredit s (ddRing e.desc) = false) ∧
    (let e := drainRun drainWritesItsTileA drainWritesItsTileB.desc (slot drainWritesItsTileA (wFld drainWritesItsTileB.word 79 76));
     Canonical drainWritesItsTileA ∧ running drainWritesItsTileA = true ∧ drainWritesItsTileA.edg.ops = [] ++ [drainWritesItsTileB] ∧
     drainWritesItsTileB.phase = EdgePhase.rows ∧ drainWritesItsTileB.sweep = false ∧ drainWritesItsTileB.dead = false ∧
     (strand drainWritesItsTileA 1).dead = false ∧ creditHeld drainWritesItsTileA 1 = false ∧ edgeCredit drainWritesItsTileA (ddRing drainWritesItsTileB.desc) = true ∧
     (e.stop = true ∨ ((endCodes drainWritesItsTileB.desc e.cnt).any fun (c : Nat × Nat) => c.2 == 2) = true) ∧
     (16973828, ddSev drainWritesItsTileB.desc 3).2 = 2) := by
  repeat' apply And.intro
  all_goals first | decide +kernel | exact canonical_job | exact rfl | exact canonical_of_canonicalB (by decide +kernel)

/-- States that meet the hypotheses of `SweepConverts`, clause by clause. -/
theorem hyps_SweepConverts :
    (let s := sSweep 1; let d := mread s.brd.mem (wFld (strand s 1).word 79 58 * 64) 64;
     Canonical s ∧ begun s 1 17 = true ∧ edgeFree s = true ∧ sweepRefusal s (wFld (strand s 1).word 79 58 * 64) d = none ∧
     edgeCredit s (sdRing d) = true ∧ fld d 32 4 = addrNone ∧ fld d 36 4 = addrNone) ∧
    (let s := sSweep 2; let e := wFld (strand s 1).word 79 58 * 64;
     Canonical s ∧ begun s 1 17 = true ∧ edgeFree s = true ∧ sweepRefusal s e (mread s.brd.mem e 64) = none ∧
     edgeCredit s (sdRing (mread s.brd.mem e 64)) = false) := by
  repeat' apply And.intro
  all_goals first | decide +kernel | exact (canonical_setRing _ _ _).mpr ((canonical_at _ _ _).mpr (canonical_board (canonical_board ((canonical_prog _ _).mpr canonical_job) _ _) _ _))

def edgeCompletesA := { edgeOp .tail with prod := some (128, 64) }
/-- States that meet the hypotheses of `Completions` (EdgeCompletes), clause by clause. -/
theorem hyps_EdgeCompletes :
    (strand sEdgeDone 1).inflight = [(3, pw 16 [(96, 1), (86, 5), (82, 1)])] ∧ running sEdgeDone = true ∧
    (strand sEdgeDone 1).dead = false ∧ creditHeld sEdgeDone 1 = false ∧ 3 + 1 ≠ codeCount (img sEdgeDone) 1 ∧
    sEdgeDone.edg.ops = [edgeCompletesA] ∧ edgeCompletesA.phase = EdgePhase.tail ∧ edgeCompletesA.dead = false ∧
    edgeCompletesA.prod = some (128, 64) ∧
    (∀ g ∈ wordSignal 1 (pw 16 [(96, 1), (86, 5), (82, 1)]), token sEdgeDone g.tok + g.inc ≤ 65535) ∧
    ((if edgeCompletesA.sweep = true then sdRing edgeCompletesA.desc else ddRing edgeCompletesA.desc) < 64) := by
  repeat' apply And.intro
  all_goals decide +kernel

/-- States that meet the hypotheses of `ChecksFollowWrites`, clause by clause. -/
theorem hyps_ChecksFollowWrites : Mem.wf [] = true ∧ srising (α := BitVec 32) 0 [] = true ∧ ∀ k, blockVerifies [] [] k = true :=
  ⟨rfl, rfl, fun k => blockVerifies_nil k⟩

/-- States that meet the hypotheses of `FetchInstructions` (FetchCopies), clause by clause. -/
theorem hyps_FetchCopies :
    (let s := sCopy 0x100 0x4000;
     Canonical s ∧ begun s 17 0x10 = true ∧ idle s 17 = true ∧
     fetchDescOk s 0x10 (mread s.brd.mem (fetchDescAddr 0x10 (strand s 17).word) 64) = true) ∧
    (let s := sCopy 0x100 0x140;
     Canonical s ∧ begun s 17 0x10 = true ∧ idle s 17 = true ∧
     fetchDescOk s 0x10 (mread s.brd.mem (fetchDescAddr 0x10 (strand s 17).word) 64) = false) ∧
    (let s := blank (fl (sCopy 0x100 (2 ^ 63 + 0x5000)) 17 (fetchDesc 0x100 (2 ^ 63 + 0x5000)));
     Canonical s ∧ Ends s 17 (wd 0x10 [(58, 64)]) ∧ wOp (wd 0x10 [(58, 64)]) = 0x10 ∧ fetchDescOk s 0x10 (strand s 17).desc = true ∧
     locBoard (cdDst (strand s 17).desc) = true) ∧
    (let s := blank (fl (sCopy 0x100 0x4000) 17 (fetchDesc 0x100 0x4000));
     Canonical s ∧ Ends s 17 (wd 0x10 [(58, 64)]) ∧ wOp (wd 0x10 [(58, 64)]) = 0x10 ∧ fetchDescOk s 0x10 (strand s 17).desc = true ∧
     ¬locBoard (cdDst (strand s 17).desc) = true) := by
  repeat' apply And.intro
  all_goals first | decide +kernel | exact (canonical_at _ _ _).mpr (canonical_inHbm (canonical_board ((canonical_prog _ _).mpr canonical_job) _ _) _ _) | exact (canComplete_empty (by decide +kernel) (by decide) (by decide)).trans (by decide +kernel) | exact canonical_of_canonicalB (by decide +kernel) | exact ⟨3, [], by decide +kernel⟩

/-- States that meet the hypotheses of `FetchInstructions` (FetchFeeds), clause by clause. -/
theorem hyps_FetchFeeds :
    (let s := sFeed 1; let d := mread s.brd.mem (fetchDescAddr 17 (strand s 17).word) 64; let e := wFld (strand s 17).word 79 74;
     Canonical s ∧ begun s 17 17 = true ∧ idle s 17 = true ∧ fetchDescOk s 17 d = true ∧
     (ringKind (img s) e = 1 ∨ ringKind (img s) e = 2) ∧ ringProducer (img s) e = 15 + 2 ∧
     cdRows d * cdRow d + cdAuxBytes d ≤ ringSegBytes (img s) e ∧ ringFree s e = true) ∧
    (let s := sFeed 2; let d := mread s.brd.mem (fetchDescAddr 17 (strand s 17).word) 64; let e := wFld (strand s 17).word 79 74;
     Canonical s ∧ begun s 17 17 = true ∧ idle s 17 = true ∧ fetchDescOk s 17 d = true ∧
     (ringKind (img s) e = 1 ∨ ringKind (img s) e = 2) ∧ ringProducer (img s) e = 15 + 2 ∧
     cdRows d * cdRow d + cdAuxBytes d ≤ ringSegBytes (img s) e ∧ ringFree s e = false) ∧
    (let s := blank (fl (sFeed 1) 17 (fetchDesc 256 locNone));
     Canonical s ∧ Ends s 17 (wd 17 [(74, 1), (52, 64)]) ∧ wOp (wd 17 [(74, 1), (52, 64)]) = 17) := by
  repeat' apply And.intro
  all_goals first | decide +kernel | exact (canonical_setRing _ _ _).mpr ((canonical_at _ _ _).mpr (canonical_inHbm (canonical_board ((canonical_prog _ _).mpr canonical_job) _ _) _ _)) | exact (canComplete_empty (by decide +kernel) (by decide) (by decide)).trans (by decide +kernel) | exact canonical_of_canonicalB (by decide +kernel) | exact ⟨3, [], by decide +kernel⟩

/-- States that meet the hypotheses of `FetchInstructions` (FetchWritesOut), clause by clause. -/
theorem hyps_FetchWritesOut :
    (let s := sWout 1; let w := (strand s 17).word; let d := mread s.brd.mem (fetchDescAddr 18 w) 64; let e := wFld w 79 74;
     Canonical s ∧ begun s 17 18 = true ∧ idle s 17 = true ∧ fetchDescOk s 18 d = true ∧ ringKind (img s) e = 3 ∧
     ringConsumer (img s) e = 15 + 2 ∧ cdRows d * cdRow d ≤ ringSegBytes (img s) e ∧ ringReady s e = true ∧
     (ring s e).cursor + cdRows d * cdRow d ≤ (segNow s e).rows * (segNow s e).rowBytes + (segNow s e).aux) ∧
    (let s := sWout 0; let w := (strand s 17).word; let d := mread s.brd.mem (fetchDescAddr 18 w) 64; let e := wFld w 79 74;
     Canonical s ∧ begun s 17 18 = true ∧ idle s 17 = true ∧ fetchDescOk s 18 d = true ∧ ringKind (img s) e = 3 ∧
     ringConsumer (img s) e = 15 + 2 ∧ cdRows d * cdRow d ≤ ringSegBytes (img s) e ∧ ringReady s e = false) ∧
    (let s := blank (fl (sWout 1) 17 (fetchDesc locNone (2 ^ 63 + 20480)));
     Canonical s ∧ Ends s 17 (wd 18 [(74, 4), (52, 64)]) ∧ wOp (wd 18 [(74, 4), (52, 64)]) = 18 ∧
     fetchDescOk s 18 (strand s 17).desc = true ∧ locBoard (cdDst (strand s 17).desc) = true) := by
  repeat' apply And.intro
  all_goals first | decide +kernel | exact (canonical_setRing _ _ _).mpr ((canonical_at _ _ _).mpr (canonical_board (canonical_board ((canonical_prog _ _).mpr canonical_job) _ _) _ _)) | exact (canComplete_empty (by decide +kernel) (by decide) (by decide)).trans (by decide +kernel) | exact canonical_of_canonicalB (by decide +kernel) | exact ⟨3, [], by decide +kernel⟩

/-- States that meet the hypotheses of `Optimizer` (OptUpdatesItsPiece), clause by clause. -/
theorem hyps_OptUpdatesItsPiece :
    (Canonical (sOpt 1) ∧ begun (sOpt 1) 33 120 = true ∧ idle (sOpt 1) 33 = true ∧ optRefusal (sOpt 1) (strand (sOpt 1) 33).word = none) ∧
    (let w := wd 120 [(66, 0), (52, 0), (31, 2), (9, 64)]; let s := blank (fl (sOpt 1) 33 (mread (sOpt 1).brd.mem 4096 64));
     Canonical s ∧ Finishing s 15 w ∧ wOp w = 120 ∧ oRow0 w + oRows w ≤ weRows (weightEntry (img s) (wFld w 79 66))) := by
  repeat' apply And.intro
  all_goals first | decide +kernel | exact (canonical_at _ _ _).mpr (canonical_inHbm (canonical_board (canonical_board ((canonical_prog _ _).mpr canonical_job) _ _) _ _) _ _) | exact (canComplete_empty (by decide +kernel) (by decide) (by decide)).trans (by decide +kernel) | exact canonical_of_canonicalB (by decide +kernel) | exact ⟨3, [], by decide +kernel⟩

/-- States that meet the hypotheses of `Collectives` (CollIssues), clause by clause. -/
theorem hyps_CollIssues :
    (let s := sColl 2 0 9 0 3 8; let w := (strand s 41).word; let e := collOf s 7 w;
     begun s 41 16 = true ∧ idle s 41 = true ∧ wFld w 79 76 = 2 ∧ collBad s w e = false ∧
     (sget? s.col.bound e.plan = none ∨ sget? s.col.bound e.plan = some 7) ∧ collVerifies s w e = true) ∧
    (let s := sColl 3 0 9 9 3 1; let w := (strand s 41).word;
     begun s 41 16 = true ∧ idle s 41 = true ∧ wFld w 79 76 = 3 ∧ collBad s w (collOf s 7 w) = false ∧
     sget? s.col.bound (collOf s 7 w).plan = some 1 ∧ 1 ≠ 7) ∧
    (let s := sColl 2 0 9 9 3 1; let w := (strand s 41).word;
     begun s 41 16 = true ∧ idle s 41 = true ∧ wFld w 79 76 = 2 ∧ collBad s w (collOf s 7 w) = true) ∧
    (let s := sColl 3 0 9 9 3 8; let w := (strand s 41).word; let e := collOf s 7 w;
     (Instr.collBroadcast 7, 3) ∈ [(Instr.collReduce 7, 0), (Instr.collAllreduce 7, 1), (Instr.collAllgather 7, 2), (Instr.collBroadcast 7, 3)] ∧
     begun s 41 16 = true ∧ idle s 41 = true ∧ wFld w 79 76 = 3 ∧ collBad s w e = false ∧
     (sget? s.col.bound e.plan = none ∨ sget? s.col.bound e.plan = some 7) ∧ collVerifies s w e = true) ∧
    (let s := sColl 3 0 9 9 3 1; let w := (strand s 41).word;
     (Instr.collBroadcast 7, 3) ∈ [(Instr.collReduce 7, 0), (Instr.collAllreduce 7, 1), (Instr.collAllgather 7, 2), (Instr.collBroadcast 7, 3)] ∧
     begun s 41 16 = true ∧ idle s 41 = true ∧ wFld w 79 76 = 3 ∧ collBad s w (collOf s 7 w) = false ∧
     sget? s.col.bound (collOf s 7 w).plan = some 1 ∧ 1 ≠ 7) ∧
    (let s := sColl 3 0 9 8 3 8; let w := (strand s 41).word;
     (Instr.collBroadcast 7, 3) ∈ [(Instr.collReduce 7, 0), (Instr.collAllreduce 7, 1), (Instr.collAllgather 7, 2), (Instr.collBroadcast 7, 3)] ∧
     begun s 41 16 = true ∧ idle s 41 = true ∧ wFld w 79 76 = 3 ∧ collBad s w (collOf s 7 w) = true) ∧
    (let s := sColl 1 2 11 0 3 7; let w := (strand s 41).word; let e := collOf s 7 w;
     (Instr.collAllreduce 7, 1) ∈ [(Instr.collReduce 7, 0), (Instr.collAllreduce 7, 1), (Instr.collAllgather 7, 2), (Instr.collBroadcast 7, 3)] ∧
     begun s 41 16 = true ∧ idle s 41 = true ∧ wFld w 79 76 = 1 ∧ collBad s w e = false ∧
     (sget? s.col.bound e.plan = none ∨ sget? s.col.bound e.plan = some 7) ∧ collVerifies s w e = true) := by
  repeat' apply And.intro
  all_goals first | decide +kernel | (unfold collVerifies locVerifies; rw [if_pos (by decide +kernel)]; exact rangeVerifies_unlisted (by decide +kernel) (by decide +kernel))

/-- States that meet the hypotheses of `Collectives` (CollOfOneMember), clause by clause. -/
theorem hyps_CollOfOneMember :
    let s := sColl 2 0 9 0 1 8; let w := (strand s 41).word; let e := collOf s 7 w;
     Canonical s ∧ begun s 41 16 = true ∧ idle s 41 = true ∧ wFld w 79 76 = 2 ∧ collBad s w e = false ∧ sget? s.col.bound e.plan = none ∧
     e.rop = 0 ∧ plMembers (img s) e.plan = 1 ∧ collRoot s e = true ∧ collVerifies s w e = true := by
  repeat' apply And.intro
  all_goals first | decide +kernel | exact canonical_of_canonicalB (by decide +kernel) | (unfold collVerifies locVerifies; rw [if_pos (by decide +kernel)]; exact rangeVerifies_unlisted (by decide +kernel) (by decide +kernel))

/-- States that meet the hypotheses of `Collectives` (CollSumsInAnyOrder), clause by clause. -/
theorem hyps_CollSumsInAnyOrder :
    collOp.rop = 1 ∧ [1311768467294899695, 7].Perm [7, 1311768467294899695] ∧ [1311768467294899695, 7] ≠ [] := by
  repeat' apply And.intro
  all_goals decide +kernel

def collFramesA := { sEngine with col := { sEngine.col with bound := [] } }
/-- States that meet the hypotheses of `Collectives` (CollFrames), clause by clause. -/
theorem hyps_CollFrames :
    (JobArrives collFramesA (ar 1 3) ∧ sget? collFramesA.col.bound (0) = none) ∧
    (running sEngine = true ∧ JobArrives sEngine (ar 1 3) ∧
     1 ∈ neighbours (img sEngine) collOp.plan ∧ collOp.plan < 65536 ∧
     sget? sEngine.col.bound collOp.plan = some 7 ∧ engine sEngine 7 = some collOp ∧ sEngine.col.inbox = [] ∧
     1 ∈ collOp.headers ∧ collOp.done = false ∧ collOp.dead = false ∧
     headerOk collOp 4 1 1 13 2 9 = true ∧ (∃ l' ∈ collOp.headers, l' ≠ 1)) ∧
    (running sEngine = true ∧ JobArrives sEngine (ar 1 3) ∧
     1 ∈ neighbours (img sEngine) collOp.plan ∧ collOp.plan < 65536 ∧
     sget? sEngine.col.bound collOp.plan = some 7 ∧ engine sEngine 7 = some collOp ∧ sEngine.col.inbox = [] ∧
     1 ∈ collOp.headers ∧ collOp.done = false ∧ collOp.dead = false ∧
     headerOk collOp 5 1 1 13 2 9 = false) ∧
    (sEngine.die ≠ .off ∧ engine sEngine 7 = some collOp ∧ collWaits collOp = true) := by
  repeat' apply And.intro
  all_goals first | decide +kernel

/-- States that meet the hypotheses of `LeadLinkLayer` (LeadAcknowledgements), clause by clause. -/
theorem hyps_LeadAcknowledgements :
    (let e := leadAt sLeads (ar 0 9).lead;
     Arrives sLeads (ar 0 9) ∧ e.owed < 7 ∧ e.old = [] ∧ (∃ f ∈ e.old ++ e.sent, f.1 = 4)) ∧
    (let e := leadAt sLeads (ar 0 9).lead;
     e.up = true ∧ e.old ++ e.sent = [(4, 2, TxBody.timeRequest), (5, 2, TxBody.timeRequest)]) := by
  repeat' apply And.intro
  all_goals decide +kernel

def leadRejectsA := { ar 0 9 with gen := 3 }
/-- States that meet the hypotheses of `LeadLinkLayer` (LeadRejects), clause by clause. -/
theorem hyps_LeadRejects :
    (sLeads.die ≠ .off ∧ leadUp sLeads 0 = true ∧ (Option.all (fun q => q.1 == 8) (leadAt sLeads 0).nak = false)) ∧
    (sLeads.die ≠ .off ∧ leadUp sLeads 0 = true ∧ (Option.all (fun q => q.1 == 9) (leadAt sLeads 0).nak = true) ∧
     failures (leadAt sLeads 0) 9 = 3) ∧
    (sLeads.die ≠ .off ∧ leadUp sLeads 0 = true ∧ (Option.all (fun q => q.1 == 9) (leadAt sLeads 0).nak = true)) ∧
    (sL2.die ≠ .off ∧ leadUp sL2 0 = true ∧ (Option.all (fun q => q.1 == 9) (leadAt sL2 0).nak = true) ∧
     failures (leadAt sL2 0) 9 < 3) ∧
    (leadUp sLeads (ar 0 9).lead = true ∧ (ar 0 9).gen = sLeads.str.gen ∧ (leadAt sLeads (ar 0 9).lead).keyed = true ∧
     leadFrameOk (df 9 1 false) = true ∧ (df 9 1 false).check ≠ crc32c (df 9 1 false).payload) ∧
    (leadUp sLeads leadRejectsA.lead = true ∧ (leadRejectsA.gen ≠ sLeads.str.gen ∨ (leadAt sLeads leadRejectsA.lead).keyed = false)) := by
  repeat' apply And.intro
  all_goals first | decide +kernel

/-- States that meet the hypotheses of `LeadLinkLayer` (LeadCredits), clause by clause. -/
theorem hyps_LeadCredits :
    (Arrives sLeads (ar 0 9) ∧ (leadAt sLeads (ar 0 9).lead).owed < 7 ∧ (leadAt sLeads (ar 0 9).lead).waiting = []) ∧
    (let e := leadAt sStall (ar 1 0).lead;
     Arrives sStall (ar 1 0) ∧ e.owed < 7 ∧ e.waiting = [(3, TxBody.timeRequest)] ∧ bodyClass TxBody.timeRequest = 3 ∧
     vget e.credit 3 0 = 0 ∧ 1 ≤ 5 ∧ 1 ≤ creditCap sStall (ar 1 0).lead 3 ∧ e.relaning = false) ∧
    ((leadAt sStall 1).up = true ∧ sStall.die ≠ .off ∧ vget (leadAt sStall 1).credit 3 0 = 0 ∧
     (∃ (b : TxBody), (3, b) ∈ (leadAt sStall 1).waiting)) := by
  repeat' apply And.intro
  all_goals first | decide +kernel | exact ⟨.timeRequest, by decide +kernel⟩

/-- States that meet the hypotheses of `LeadFramesLanesDiscovery` (LeadFrames), clause by clause. -/
theorem hyps_LeadFrames :
    (let e := df 9 1 true;
     sLeads.die ≠ .off ∧ leadFrameOk e = true ∧ JobArrives sLeads (ar 0 9) ∧ e.check = crc32c e.payload ∧ e.dest.toNat = ownId sLeads) ∧
    (let e := df 5 0 true;
     sLeads.die ≠ .off ∧ leadFrameOk e = true ∧ JobArrives sLeads (ar 0 9) ∧ e.check = crc32c e.payload ∧ e.dest.toNat ≠ ownId sLeads ∧
     (e.hopLimit = 0 ∨ frameLead sLeads e.dest.toNat = none)) ∧
    (let e := df 5 3 true;
     sLeads.die ≠ .off ∧ leadFrameOk e = true ∧ JobArrives sLeads (ar 0 9) ∧ e.check = crc32c e.payload ∧ e.dest.toNat ≠ ownId sLeads ∧
     e.hopLimit ≠ 0 ∧ frameLead sLeads e.dest.toNat = some 1 ∧ 1 ≠ (ar 0 9).lead) ∧
    (sKey.die ≠ .off ∧ leadUp sKey (ar 1 9).lead = true ∧ (leadAt sKey (ar 1 9).lead).key ≠ none ∧
     (leadAt sKey (ar 1 9).lead).keyed = false) ∧
    (sKey.die ≠ .off ∧ leadUp sKey (ar 1 9).lead = true ∧ (leadAt sKey (ar 1 9).lead).key ≠ none ∧
     (leadAt sKey (ar 1 9).lead).keyed = false) ∧
    (sEngine.die ≠ .off ∧ JobArrives sEngine (ar 1 9) ∧ sEngine.lead.abortSeen = false ∧ sEngine.lead.abortSent = false) := by
  repeat' apply And.intro
  all_goals first | decide +kernel

/-- States that meet the hypotheses of `LeadFramesLanesDiscovery` (LeadLanes), clause by clause. -/
theorem hyps_LeadLanes :
    (sLeads.die ≠ .off ∧ (List.find? (fun i => leadUp sLeads i && bitOf (leadAt sLeads i).lanes.toNat 31) allLeads = some 1) ∧
     laneCount (onesIn ((leadAt sLeads 1).lanes.toNat - 2 ^ 31) 0 32) ≠ 0) ∧
    (let s := sLane 196608;
     s.die ≠ .off ∧ (List.find? (fun i => leadUp s i && bitOf (leadAt s i).lanes.toNat 17) allLeads = some 1) ∧
     laneCount (onesIn ((leadAt s 1).lanes.toNat - 2 ^ 17) 0 32) = 0) ∧
    (sLeads.die ≠ .off ∧ leadUp sLeads 1 = true) ∧
    ((leadAt sRelane 1).relaning = true ∧ (leadAt sRelane 1).waiting = []) := by
  repeat' apply And.intro
  all_goals decide +kernel

/-- States that meet the hypotheses of `LeadFramesLanesDiscovery` (LeadDiscovery), clause by clause. -/
theorem hyps_LeadDiscovery :
    ((sDisc 6 262).lead.discovering = true ∧ planValid (sDisc 6 262) = true ∧ planLanes (sDisc 6 262) 1 ≠ 0) ∧
    ((sDisc 6 262).lead.discovering = true ∧ (sDisc 6 262).die ≠ .off ∧ planValid (sDisc 6 262) = true) ∧
    ((sDisc 6 279).lead.discovering = true ∧ (sDisc 6 279).die ≠ .off ∧ planValid (sDisc 6 279) = false) := by
  repeat' apply And.intro
  all_goals decide +kernel

/-- States that meet the hypotheses of `CopyBeforeWrite`, clause by clause. -/
theorem hyps_CopyBeforeWrite :
    (sGen gen).snp.gen = some gen ∧ gen.ended = false ∧ ShardsApart gen.shards ∧
    (sget? gen.saved 1 ≠ none ∧ 1 ∈ gen.copied ∨ sget? gen.saved 1 = none ∧ 1 ∉ gen.copied ∨ genPageAddr gen.shards 1 = none) := by
  repeat' apply And.intro
  all_goals first | decide +kernel | exact shardsApart_gen

def snapTakesTheMarkerA := let s := sSnap 1 false; { s with snp := { s.snp with lastTaken := some 5 } }
/-- States that meet the hypotheses of `Snaps` (SnapTakesTheMarker), clause by clause. -/
theorem hyps_SnapTakesTheMarker :
    (running (sSnap 1 true) = true ∧ (sSnap 1 true).snp.step5 = true ∧ copying (sSnap 1 true) = true) ∧
    (let s := sSnap 1 false;
     running s = true ∧ s.snp.step5 = true ∧ copying s = false ∧ (strand s 42).st = 6 ∧ snapOk s (stepSnapWord s) = true ∧
     (∀ g ∈ wordSignal 42 (stepSnapWord s), token (snapWait s (stepSnapWord s)) g.tok + g.inc ≤ 65535)) ∧
    (running snapTakesTheMarkerA = true ∧ snapTakesTheMarkerA.snp.step5 = true ∧ copying snapTakesTheMarkerA = false ∧
     snapOk snapTakesTheMarkerA (stepSnapWord snapTakesTheMarkerA) = false) ∧
    ((sSnapAlone true).snp.step5 = false ∧ begun (sSnapAlone true) 42 16 = true ∧ (sSnapAlone true).snp.skipSnap = true) ∧
    (let s := sSnapAlone false;
     s.snp.step5 = false ∧ begun s 42 16 = true ∧ s.snp.skipSnap = false) := by
  repeat' apply And.intro
  all_goals decide +kernel

/-- States that meet the hypotheses of `Snaps` (SnapFenceWaits), clause by clause. -/
theorem hyps_SnapFenceWaits :
    (begun (sFence true) 42 17 = true ∧ idle (sFence true) 42 = true ∧ copying (sFence true) = true) ∧
    (begun (sFence false) 42 17 = true ∧ idle (sFence false) 42 = true ∧ copying (sFence false) = false) := by
  repeat' apply And.intro
  all_goals decide +kernel

def snapCopiesA := let s := sGen gen; { s with snp := { s.snp with stall := true }}
def snapCopiesB := { gen with saved := [(1,[]),(5,[])] }
def snapCopiesC := { gen with sent := [2,1,0], answered := [1,0] }
def snapCopiesD := { gen with sent := [0,1] , copied := [0,1]}
def snapCopiesE := { gen with sent := [0,1], copied := [0,1] }
/-- States that meet the hypotheses of `Snaps` (SnapCopies), clause by clause. -/
theorem hyps_SnapCopies :
    (snapCopiesA.snp.gen = some gen ∧ gen.ended = false ∧ genPageAddr gen.shards (2) = some 524288 ∧
     ShardsApart gen.shards ∧ 2 ∉ gen.copied ∧ List.length gen.saved < reservePages snapCopiesA) ∧
    ((sGen snapCopiesB).snp.gen = some snapCopiesB ∧ snapCopiesB.ended = false ∧
     genPageAddr snapCopiesB.shards (2) = some 524288 ∧ ShardsApart snapCopiesB.shards ∧
     2 ∉ snapCopiesB.copied ∧ reservePages (sGen snapCopiesB) ≤ List.length snapCopiesB.saved) ∧
    ((sGen snapCopiesC).snp.gen = some snapCopiesC ∧ snapCopiesC.ended = false ∧ copyDone snapCopiesC = true ∧
     (sGen snapCopiesC).snp.hold = false) ∧
    ((sGen gen).snp.gen = some gen ∧ gen.ended = false ∧ (sGen gen).die = .serving ∧ nextPage gen = some 0 ∧
     toPartner gen (pageShard gen.shards 0 0).1 = false ∧ pageVerifies (sGen gen) gen 0 = true ∧ dieLink (sGen gen) = some 0) := by
  repeat' apply And.intro
  all_goals first | decide +kernel | exact shardsApart_gen

def mirrorsA := let s := sPartner none; { s with snp := { s.snp with gen := some { gen with route := 2, kept := [(1,[3])], sent := [1,0] } } }
def mirrorsB := { gen with route := 2, kept := [(1,[3])], sent := [1,0] }
/-- States that meet the hypotheses of `MirrorsAndStorage` (Mirrors), clause by clause. -/
theorem hyps_Mirrors :
    (let s := sPartner none;
     s.die ≠ .off ∧ Arrives s (ar 1 3) ∧
     s.snp.partnerValid = true ∧ s.snp.partnerLead.toNat = (ar 1 3).lead ∧ (BitVec.ofNat 64 524288).toNat ≤ mirrorRegion (img s) ∧ s.snp.mirror = none) ∧
    (let s := sPartner none;
     s.die ≠ .off ∧ Arrives s (ar 1 3) ∧
     ¬(s.snp.partnerValid = true ∧ s.snp.partnerLead.toNat = (ar 1 3).lead ∧ (BitVec.ofNat 64 524289).toNat ≤ mirrorRegion (img s) ∧ s.snp.mirror = none)) ∧
    (let e := mirror 262144 0; let s := sPartner (some e);
     Canonical s ∧ JobArrives s (ar 1 3) ∧ leadFrameOk (dfb [1, 2, 3]) = true ∧ (dfb [1, 2, 3]).check = crc32c (dfb [1, 2, 3]).payload ∧
     s.snp.mirror = some e ∧ e.lead = (ar 1 3).lead ∧ e.got + List.length (dfb [1, 2, 3]).payload ≤ e.bytes.toNat) ∧
    (mirrorsA.die ≠ .off ∧ Arrives mirrorsA (ar 1 3) ∧ mirrorsA.snp.gen = some mirrorsB ∧ 2 ≤ mirrorsB.route ∧ mirrorsB.ended = false ∧
     (ar 1 3).lead = mirrorsA.snp.partnerLead.toNat) := by
  repeat' apply And.intro
  all_goals first | decide +kernel | exact canonical_of_canonicalB (by decide +kernel)

def storageAnswersA := { gen with digests := [(0,1),(1,2)], answered := [0] }
def storageAnswersB := { relayed with answered := [] }
def storageAnswersC := let s := sPartner none; { s with snp := { s.snp with gen := some { gen with route := 3, answered := [0] } } }
def storageAnswersD := { gen with route := 3, answered := [0] }
def storageAnswersE := { gen with phase := .manifestSent, ended := true }
def storageAnswersF := { gen with digests := [(0, 3)] }
/-- States that meet the hypotheses of `MirrorsAndStorage` (StorageAnswers), clause by clause. -/
theorem hyps_StorageAnswers :
    ((sGen storageAnswersA).snp.older = [] ∧ (sGen storageAnswersA).snp.gen = some storageAnswersA ∧
     sget? storageAnswersA.digests 1 ≠ none ∧ toPartner storageAnswersA 1 = false ∧ 1 ∉ storageAnswersA.answered) ∧
    ((sPartner (some relayed)).snp.mirror = some relayed ∧ ((relayed.relayed.any fun (r : Nat × BitVec 256) => r.1 == 1) = true) ∧
     1 ∉ relayed.answered ∧
     (relayed.got = relayed.bytes.toNat ∧ relayed.taken * pageBytes = relayed.got ∧ (relayed.relayed.all fun (r : Nat × BitVec 256) => (1 :: relayed.answered).contains r.1) = true)) ∧
    ((sPartner (some storageAnswersB)).snp.mirror = some storageAnswersB ∧
     ((storageAnswersB.relayed.any fun (r : Nat × BitVec 256) => r.1 == 1) = true) ∧ 1 ∉ storageAnswersB.answered ∧
     (¬(storageAnswersB.got = storageAnswersB.bytes.toNat ∧ storageAnswersB.taken * pageBytes = storageAnswersB.got ∧ (storageAnswersB.relayed.all fun (r : Nat × BitVec 256) => (1 :: storageAnswersB.answered).contains r.1) = true))) ∧
    (storageAnswersC.snp.older = [] ∧ storageAnswersC.snp.gen = some storageAnswersD ∧ Arrives storageAnswersC (ar 1 3) ∧
     (ar 1 3).lead = storageAnswersC.snp.partnerLead.toNat ∧ (∃ k ∈ partnerShards storageAnswersD, k ∉ storageAnswersD.answered)) ∧
    ((sGen storageAnswersE).snp.older = [] ∧ (sGen storageAnswersE).snp.gen = some storageAnswersE ∧
     storageAnswersE.phase = GenPhase.manifestSent ∧ storageAnswersE.ended = true) ∧
    (let s := sGen storageAnswersF;
     s.die ≠ .off ∧ s.snp.older = [] ∧ s.snp.gen = some storageAnswersF ∧ s.snp.hold = false ∧ awaitsStorage storageAnswersF = true ∧
     (awaitsStorage storageAnswersF = true ∨ awaitsRelay storageAnswersF = true)) := by
  repeat' apply And.intro
  all_goals decide +kernel

def requestsRefusedA := { holding with tet := {} }
def requestsRefusedB := { holding with die := .off }
def requestsRefusedC := { holding with sec := {} }
def requestsRefusedD := { rq with ahead := 64 }
/-- States that meet the hypotheses of `RequestsRefused`, clause by clause. -/
theorem hyps_RequestsRefused :
    ((linkAt requestsRefusedA rq.link).up = false) ∧
    ((linkAt requestsRefusedB rq.link).up = true ∧ rq.ahead < 64 ∧ requestsRefusedB.die ≠ .serving ∧ requestsRefusedB.sec.owner ≠ none ∧
     ((BitVec.ofNat 64 65552).toNat < 1048576 ∨ 1114112 ≤ (BitVec.ofNat 64 65552).toNat)) ∧
    ((linkAt requestsRefusedB rq.link).up = true ∧ rq.ahead < 64 ∧ requestsRefusedB.die ≠ .serving ∧ requestsRefusedB.sec.owner ≠ none ∧
     1048576 ≤ (BitVec.ofNat 64 1048576).toNat ∧ (BitVec.ofNat 64 1048576).toNat < 1114112) ∧
    ((linkAt requestsRefusedC rq.link).up = true ∧ rq.ahead < 64 ∧ requestsRefusedC.die = .serving ∧
     (requestsRefusedC.sec.owner = none ∨ (sess requestsRefusedC (rq.link) false).isOpen = false)) ∧
    (let e := rq Parity.command;
     (linkAt holding e.link).up = true ∧ e.ahead < 64 ∧ holding.die = .serving ∧ holding.sec.owner ≠ none ∧
     (sess holding (e.link) false).isOpen = true ∧ e.parity = Parity.command ∧ 67174403 ≠ 168689665) ∧
    (Admits holding (rq Parity.access) kWrite ∧ (rq Parity.access).parity = Parity.access ∧ 67174402 ≠ 168689665) ∧
    (Admits holding rq kWrite ∧ rq.parity = Parity.even ∧ (BitVec.ofNat 64 65554).toNat % 4 ≠ 0) ∧
    (Admits holding rq kWrite ∧ rq.parity = Parity.even ∧ (BitVec.ofNat 64 1048572).toNat % 4 = 0 ∧
     dieReg holding ((BitVec.ofNat 64 1048572).toNat) = none) ∧
    ((linkAt holding requestsRefusedD.link).up = true ∧ 64 ≤ requestsRefusedD.ahead) ∧
    (reservedOk 0 = true ∧ Admits holding rq { type := (BitVec.ofNat 64 0).toNat }) ∧
    (reservedOk 1 = false) := by
  repeat' apply And.intro
  all_goals decide +kernel

def readsAnswerA := { holding with tim := { holding.tim with counter := 0x123456789ABC }, tly := { store := [rec_ 7, rec_ 8], next := 0x100000009 } }
def readsAnswerB := { holding with shp := { holding.shp with time := 0x123456789ABC } }
/-- States that meet the hypotheses of `ReadsAnswer`, clause by clause. -/
theorem hyps_ReadsAnswer :
    (Admits holding rq kStatus) ∧
    (requestsRefusedB.die ≠ .serving ∧ (linkAt requestsRefusedB rq.link).up = true ∧ requestsRefusedB.sec.owner ≠ none ∧
     requestsRefusedB.shp.serving = true ∧ rq.parity ≠ Parity.command ∧ rq.ahead < 64 ∧
     (linkAt requestsRefusedB rq.link).shp.isOpen = true) ∧
    (Admits holding rq kRead ∧ rq.parity = Parity.even ∧
     (∀ i < 4 + 1, accessErr (dieReg holding) ((BitVec.ofNat 64 65536).toNat + 4 * i) = none ∧ dieTouch holding ((BitVec.ofNat 64 65536).toNat + 4 * i) = holding)) ∧
    (Admits readsAnswerA rq kRead ∧ rq.parity = Parity.even) ∧
    (Admits readsAnswerB rq kSide ∧ rq.parity = Parity.even) ∧
    (Admits holding rq kSide ∧ rq.parity = Parity.even ∧ accessErr (shpFile holding) ((BitVec.ofNat 64 1048576).toNat) = none ∧
     shpFileTouch holding ((BitVec.ofNat 64 1048576).toNat) = holding) ∧
    (Admits holding rq kSide ∧ rq.parity = Parity.even) := by
  repeat' apply And.intro
  all_goals decide +kernel

def registerWritesA := { jobServed with sec := { jobServed.sec with lock := 15 } }
/-- States that meet the hypotheses of `RegisterWrites`, clause by clause. -/
theorem hyps_RegisterWrites :
    (Admits holding rq kWrite ∧ rq.parity = .even) ∧ (∃ x ∈ valueRows ++ eventRows, x.group = some 1 ∧ ¬ locked holding x.group) ∧
    (Admits registerWritesA rq kWrite ∧ rq.parity = .even) ∧ (∃ x ∈ valueRows ++ eventRows, locked registerWritesA x.group) := by
  repeat' apply And.intro
  all_goals first | decide +kernel | (simp only [locked_iff]; decide +kernel)

def commandWritesA := { holding with tim := { epochLo := 1000000, mode := 1, marks := 5 } }
def commandWritesB := { holding with str := { jobServed.str with disable := 0xFFFFFFFF, image := none }, shp := { holding.shp with on := 0x3FFFFFFFFFFFF }  }
def commandWritesC := { holding with str := { jobServed.str with disable := 0xFFFFFFFF, image := none }, shp := { holding.shp with on := 0x3FFFFFFFFFFFF } }
/-- States that meet the hypotheses of `CommandWrites`, clause by clause. -/
theorem hyps_CommandWrites :
    (let e := BitVec.ofNat 64 983045;
     Admits jobServed rq kWrite ∧ rq.parity = Parity.even ∧ Canonical jobServed ∧
     running jobServed = true ∧ tokDeclared (img jobServed) (e.toNat % 1024) = true ∧ tokHost (img jobServed) (e.toNat % 1024) = true ∧ e.toNat / 65536 % 16 ≠ 0 ∧ token jobServed (e.toNat % 1024) + e.toNat / 65536 % 16 ≤ 65535) ∧
    (let e := BitVec.ofNat 64 5;
     Admits jobServed rq kWrite ∧ rq.parity = Parity.even ∧ Canonical jobServed ∧
     ¬(running jobServed = true ∧ tokDeclared (img jobServed) (e.toNat % 1024) = true ∧ tokHost (img jobServed) (e.toNat % 1024) = true ∧ e.toNat / 65536 % 16 ≠ 0 ∧ token jobServed (e.toNat % 1024) + e.toNat / 65536 % 16 ≤ 65535)) ∧
    (Admits jobServed rq kWrite ∧ rq.parity = Parity.even ∧ ¬locked jobServed (some 1) ∧
     4294967295 &&& ~~~jobServed.str.disable &&& unitsInUse jobServed ≠ 0) ∧
    (Admits jobServed rq kWrite ∧ rq.parity = Parity.even ∧ ¬locked jobServed (some 1) ∧
     2 &&& ~~~jobServed.str.disable &&& unitsInUse jobServed = 0) ∧
    (Admits jobServed rq kWrite ∧ rq.parity = Parity.even ∧ jobServed.sys.st = .running) ∧
    (Admits jobServed rq kWrite ∧ rq.parity = Parity.even ∧ (jobServed.sys.st ≠ .holding ∨ loaded jobServed = true)) ∧
    (Admits holding rq kWrite ∧ rq.parity = Parity.even ∧ holding.sys.st ≠ .running ∧ holding.sys.st ≠ .armed) ∧
    (Admits holding rq kWrite ∧ rq.parity = Parity.even) ∧
    (Admits holding rq kWrite ∧ rq.parity = Parity.even ∧ holding.sys.st = .holding ∧ loaded holding = false) ∧
    (Admits holding rq kWrite ∧ rq.parity = Parity.even) ∧
    (let e := BitVec.ofNat 16 ((BitVec.ofNat 64 393216).toNat / 65536) - commandWritesA.tim.marks;
     Admits commandWritesA rq kWrite ∧ rq.parity = Parity.even ∧
     (BitVec.toNat commandWritesA.tim.epochLo + 2 ^ 32 * ((BitVec.ofNat 64 393216).toNat % 65536)) % 1000000 = 0 ∧ 1 ≤ e.toNat ∧ e.toNat ≤ 1000 ∧ commandWritesA.tim.mode = 1) ∧
    (let e := BitVec.ofNat 16 ((BitVec.ofNat 64 327680).toNat / 65536) - commandWritesA.tim.marks;
     Admits commandWritesA rq kWrite ∧ rq.parity = Parity.even ∧
     ¬((BitVec.toNat commandWritesA.tim.epochLo + 2 ^ 32 * ((BitVec.ofNat 64 327680).toNat % 65536)) % 1000000 = 0 ∧ 1 ≤ e.toNat ∧ e.toNat ≤ 1000 ∧ commandWritesA.tim.mode = 1)) ∧
    (commandWritesB.die = .serving ∧ BitVec.getLsbD commandWritesB.str.disable 0 = true ∧ (unitsInUse commandWritesB).getLsbD 0 = false ∧
     0 < 8) ∧
    (commandWritesC.die = .serving ∧ BitVec.getLsbD commandWritesC.str.disable 8 = true ∧ (unitsInUse commandWritesC).getLsbD 8 = false ∧
     8 ≤ 8) := by
  repeat' apply And.intro
  all_goals first | decide +kernel | (rw [locked_iff]; decide +kernel) | exact canonical_of_canonicalB (by decide +kernel)

/-- A grant whose magic number is wrong. -/
def grantsCheckedA : Grant := { Tests.grant holding 1 0x10010 5 with magic := 1 }
/-- States that meet the hypotheses of `Grants` (GrantsChecked), clause by clause. -/
theorem hyps_GrantsChecked :
    (Admits holding (rq Parity.access) kKeyShp ∧ holding.die = .serving ∧ (Tests.grant holding 1 0x10010 5).action ≠ 2 ∧
     (rq Parity.access).parity = Parity.access) ∧
    (Admits holding rq kKeyShp ∧ holding.die = .serving ∧ grantsCheckedA.action ≠ 2 ∧ rq.parity = Parity.even ∧
     grantOkTo5 holding grantsCheckedA = false) ∧
    (Admits holding rq kKeyShp ∧ holding.die = .serving ∧ (Tests.grant holding 1 0x10011 5).action ≠ 2 ∧ rq.parity = Parity.even ∧
     grantOkTo5 holding (Tests.grant holding 1 0x10011 5) = true ∧
     grantAccessErr holding (Tests.grant holding 1 0x10011 5).address.toNat = some 0x0B010004) := by
  have h : grantFormOk grantsCheckedA = false := rfl
  have h2 : grantOkTo5 holding grantsCheckedA = false := by unfold grantOkTo5; rw [h]; rfl
  exact ⟨⟨admits_of_admitsB (by decide +kernel), by decide +kernel, by unfold Tests.grant; decide, rfl⟩, ⟨admits_of_admitsB (by decide +kernel), by decide +kernel, by unfold grantsCheckedA Tests.grant; decide, rfl, h2⟩,
    admits_of_admitsB (by decide +kernel), by decide +kernel, by unfold Tests.grant; decide, rfl, grantOkTo5_grant _ _ _ _ (by decide), by decide +kernel⟩

/-- States that meet the hypotheses of `Grants` (GrantsWrite), clause by clause. -/
theorem hyps_GrantsWrite :
    (row0 ∈ valueRows ∧ GrantPasses jl rq (Tests.grant jl 1 row0.addr 5) 1 row0.addr) ∧
    (GrantPasses holding rq (Tests.grant holding 1 0xE0004 0xFFFFFFFF) 1 0xE0004) ∧
    (Admits holding rq kKeyShp ∧ rq.parity = Parity.even ∧ holding.die = .serving ∧ holding.sys.st ≠ .armed ∧
     grantOkTo5 holding (Tests.grant holding 2 0 0) = true ∧ (Tests.grant holding 2 0 0).action = 2 ∧
     holding.sec.opcertMin ≤ (sess holding (rq.link) true).serial) := by
  exact ⟨⟨List.mem_cons_self, grant_passes (by decide) (admits_of_admitsB (by decide +kernel)) (by decide +kernel) (by decide +kernel)⟩, grant_passes (by decide) (admits_of_admitsB (by decide +kernel)) (by decide +kernel) (by decide +kernel),
    admits_of_admitsB (by decide +kernel), rfl, by decide +kernel, by decide +kernel, grantOkTo5_grant _ _ _ _ (by decide), rfl, by decide +kernel⟩

def grantsActA : State := { holding with shp := { holding.shp with held := some default } }
def grantsActB : State := { holding with gov := { holding.gov with measValid := true, meas := Vector.replicate 20 9 } }
/-- States that meet the hypotheses of `GrantsAct`, clause by clause. -/
theorem hyps_GrantsAct :
    (GrantPasses holding rq (Tests.grant holding 1 0x1003C 0xC0000503) 1 0x1003C ∧ (Tests.grant holding 1 0x1003C 0xC0000503).value.getLsbD 30 = true) ∧
    (GrantPasses tl rq (Tests.grant tl 1 0xF102C 1) 1 0xF102C ∧ (Tests.grant tl 1 0xF102C 1).value.getLsbD 0 = true ∧ tl.tly.droppedSince = 0) ∧
    (GrantPasses holding rq (Tests.grant holding 1 0x10001C 1) 1 0x10001C ∧ (Tests.grant holding 1 0x10001C 1).value.getLsbD 0 = true) ∧
    (GrantPasses grantsActA rq (Tests.grant grantsActA 1 0x100028 0x80000000) 1 0x100028 ∧ (Tests.grant grantsActA 1 0x100028 0x80000000).value.getLsbD 31 = true) ∧
    (GrantPasses grantsActB rq (Tests.grant grantsActB 1 0xD001C 2) 1 0xD001C ∧ (Tests.grant grantsActB 1 0xD001C 2).value.getLsbD 1 = true ∧ grantsActB.gov.measValid = true) ∧
    (GrantPasses holding rq (Tests.grant holding 1 0xD001C 2) 1 0xD001C ∧ (Tests.grant holding 1 0xD001C 2).value.getLsbD 1 = true ∧ holding.gov.measValid = false) ∧
    GrantPasses holding rq (Tests.grant holding 1 0xD0200 7) 1 (BitVec.ofNat 32 (0xD0200 + 4 * (0 : Fin 20).val)) := by
  exact ⟨⟨grant_passes (by decide) (admits_of_admitsB (by decide +kernel)) (by decide +kernel) (by decide +kernel), rfl⟩,
    ⟨grant_passes (by decide) (admits_of_admitsB (by decide +kernel)) (by decide +kernel) (by decide +kernel), rfl, by decide +kernel⟩,
    ⟨grant_passes (by decide) (admits_of_admitsB (by decide +kernel)) (by decide +kernel) (by decide +kernel), rfl⟩,
    ⟨grant_passes (by decide) (admits_of_admitsB (by decide +kernel)) (by decide +kernel) (by decide +kernel), rfl⟩,
    ⟨grant_passes (by decide) (admits_of_admitsB (by decide +kernel)) (by decide +kernel) (by decide +kernel), rfl, by decide +kernel⟩,
    ⟨grant_passes (by decide) (admits_of_admitsB (by decide +kernel)) (by decide +kernel) (by decide +kernel), rfl, by decide +kernel⟩,
    grant_passes (by decide) (admits_of_admitsB (by decide +kernel)) (by decide +kernel) (by decide +kernel)⟩

def loadsBytesA := {sLoading with ld := { sLoading.ld with bytes := 4 } }
/-- States that meet the hypotheses of `Loading` (LoadsBytes), clause by clause. -/
theorem hyps_LoadsBytes :
    (let s := keyed holding;
     Admits s rq kLoadBegin ∧ s.sys.st = .holding ∧ loaded s = false ∧ s.ld.active = false ∧ s.str.scrub = false ∧
     (∃ (k : JobKey), s.sec.job = some k ∧ k.jobId = 4)) ∧
    (Admits sLoading rq kLoadBegin ∧
     (sLoading.sys.st ≠ .holding ∨ loaded sLoading = true ∨ sLoading.ld.active = true ∨ sLoading.str.scrub = true)) ∧
    (let e := BitVec.ofNat 64 5;
     bulkOk sLoading 1 = true ∧ 1 ≤ [1, 2, 3, 4].length ∧ [1, 2, 3, 4].length ≤ 4088 ∧ sLoading.ld.active = true ∧
     (sLoading.ld.bytes.toNat < e.toNat + [1, 2, 3, 4].length ∨ ∃ c ∈ sLoading.ld.data, e.toNat ≤ c.1 ∧ c.1 < e.toNat + [1, 2, 3, 4].length)) ∧
    (let e := BitVec.ofNat 64 7;
     bulkOk sLoading 1 = true ∧ 1 ≤ [0].length ∧ [0].length ≤ 4088 ∧ sLoading.ld.active = true ∧
     e.toNat + [0].length ≤ sLoading.ld.bytes.toNat ∧ (∀ c ∈ sLoading.ld.data, c.1 < e.toNat ∨ e.toNat + [0].length ≤ c.1)) ∧
    (Admits sLoading rq kLoadEnd ∧ sLoading.ld.active = true ∧ sLoading.ld.ended = false ∧
     List.length sLoading.ld.data < sLoading.ld.bytes.toNat) ∧
    (Admits loadsBytesA rq kLoadEnd ∧ loadsBytesA.ld.active = true ∧ loadsBytesA.ld.ended = false ∧
     loadsBytesA.ld.bytes.toNat ≤ List.length loadsBytesA.ld.data) := by
  repeat' apply And.intro
  all_goals decide +kernel

theorem firstBelow_none {p : Nat → Bool} (h : ∀ i, p i = false) : (n : Nat) → firstBelow p n = none
  | 0 => rfl
  | n + 1 => by simp [firstBelow, firstBelow_none h n, h n]
/-- An image without a token section passes check 7, if its words use none. -/
theorem no_tokens {im : Bytes} (h : secSize im 2 = 0) (ht : manFld im 0x24 2 = 0)
    (hw : (List.range 43).findSome? (stranded im) = none) : check7 im = none := by
  have e : ∀ i, tokEntry im i = 0 := fun i => by rw [tokEntry, if_pos h]
  have d : ∀ i, tokDeclared im i = false := fun i => by rw [tokDeclared, e]; decide
  have m : ∀ i, tokMalformed im i = false := fun i => by simp [tokMalformed, d, e]
  have l : indicesWhere 1024 (tokDeclared im) = [] := by simp [indicesWhere, d]
  unfold check7
  simp only [firstBelow_none m, l, ht, hw, List.length_nil, Nat.lt_irrefl, if_false, Option.map_none]
theorem bare_image : loadImage (sLoaded bareImage) = bareImage := by decide +kernel
/-- The smallest image passes every check; its digest was computed apart from the model. -/
theorem bare_loads : loadFailure (sLoaded bareImage) bareImage = none := by
  have h1 : check1 bareImage bareImage.length = none := by decide +kernel
  have h2 : check2 bareImage bareImage.length = none := by decide +kernel
  have h3 : check3 bareImage bareImage.length = none := by decide +kernel
  have h4 : check4 (sLoaded bareImage) bareImage = none := by decide +kernel
  have h5 : check5 (sLoaded bareImage) bareImage = none := by decide +kernel
  have h6 : check6 bareImage = none := by decide +kernel
  have h7 : check7 bareImage = none := no_tokens (by decide +kernel) (by decide +kernel) (by decide +kernel)
  have h8 : check8 (sLoaded bareImage) bareImage = none := by decide +kernel
  have h9 : check9 bareImage = none := by decide +kernel
  have h10 : check10 (sLoaded bareImage) bareImage = none := by decide +kernel
  have h11 : check11 bareImage = none := by decide +kernel
  have h12 : check12 bareImage = none := by decide +kernel
  unfold loadFailure
  simp only [h1, h2, h3, h4, h5, h6, h7, h8, h9, h10, h11, h12]; rfl
/-- States that meet the hypotheses of `Loading` (LoadChecks), clause by clause. -/
theorem hyps_LoadChecks :
    (let s := sLoaded [];
     s.ld.active = true ∧ s.ld.ended = true ∧ s.die = .serving ∧ loadFailure s (loadImage s) = some (0x0B050001, 0)) ∧
    (let s := sLoaded bareImage;
     s.ld.active = true ∧ s.ld.ended = true ∧ s.die = .serving ∧ loadFailure s (loadImage s) = none) := by
  refine ⟨by decide +kernel, rfl, rfl, rfl, ?_⟩
  show loadFailure _ (loadImage (sLoaded bareImage)) = none
  rw [bare_image]; exact bare_loads

def launchArmsB := let s := sArmable 0xFF; { s with tim := {} }
def launchArmsC := let s := sArmable 0xFF; { s with lead := { s.lead with result := 3 }, str := {} }
/-- States that meet the hypotheses of `LaunchAtTheRoot` (LaunchArms), clause by clause. -/
theorem hyps_LaunchArms :
    (let s := sArmable 255;
     Admits s rq kLaunch ∧ s.sec.job = some jkey ∧ LaunchForm s (lframe 1 0 6 5000) 1 ∧ armRefusal s (lframe 1 0 6 5000) none = none) ∧
    (Admits (sArmable 255) rq kLaunch ∧ (sArmable 255).sec.job = some jkey ∧ lfAuthOk (sArmable 255) forged = false) ∧
    (let s := sArmable 255;
     Admits s rq kLaunch ∧ s.sec.job = some jkey ∧ LaunchForm s (lframe 1 0 6 500) 1 ∧
     armRefusal s (lframe 1 0 6 500) none = some (134938628, 6)) ∧
    (Admits (sArmable 255) rq kLaunch ∧ (sArmable 255).sec.job = some jkey ∧
     Instr.launchCommit rq forged ∈ [Instr.launchArm rq forged, Instr.launchCommit rq forged, Instr.launchCancel rq forged] ∧
     lfAuthOk (sArmable 255) forged = false) ∧
    (Admits (sArmable 255) rq kLaunch ∧ (sArmable 255).sec.job = some jkey ∧
     Instr.launchCancel rq lfr ∈ [Instr.launchArm rq lfr, Instr.launchCommit rq lfr, Instr.launchCancel rq lfr] ∧
     lfAuthOk (sArmable 255) lfr = true ∧ launchFieldBad lfr = some 24) ∧
    (Admits launchArmsB rq kLaunch ∧ launchArmsB.sec.job = some jkey ∧ launchArmsB.tim.valid = false) ∧
    (Admits launchArmsC rq kLaunch ∧ launchArmsC.sec.job = some jkey ∧ launchArmsC.tim.valid = true ∧
     (launchArmsC.lead.result = 3 ∨ launchArmsC.lead.result = 4)) ∧
    (Admits (sArmable 255) rq kLaunch ∧ LaunchForm (sArmable 255) (lframe 1 0 6 500) 1 ∧
     armRefusal (sArmable 255) (lframe 1 0 6 500) none = some (134938628, 6)) := by
  repeat' with_reducible apply And.intro
  all_goals first
    | (with_reducible refine launchForm_lframe (by decide +kernel) _ _ _ _ (by decide +kernel))
    | (with_reducible refine lfAuthOk_lframe (by decide +kernel) _ _ _ _)
    | (with_reducible refine lfAuthOk_lfr (by decide +kernel))
    | (with_reducible refine lfAuthOk_forged (by decide +kernel))
    | (with_reducible refine repAuthOk_report (by decide +kernel))
    | (with_reducible refine admits_of_admitsB (by decide +kernel))
    | decide +kernel

def launchCommitsA := {sArmed 0xFF .armed with tim := { valid := true, counter := 500000}}
def launchCommitsB := let s := sArmed 0xFF .committed; { s with tet := { s.tet with launch := 5000 }}
/-- States that meet the hypotheses of `LaunchAtTheRoot` (LaunchCommits), clause by clause. -/
theorem hyps_LaunchCommits :
    (let s := sArmed 255 .ready; let e := BitVec.setWidth 48 (lframe 2 0 6 134000).time;
     Admits s rq kLaunch ∧ LaunchForm s (lframe 2 0 6 134000) 2 ∧ s.tim.valid = true ∧ s.tet.phase ≠ .committed ∧ timeAhead s e = true ∧
     (s.tet.phase ≠ .ready ∨ diff48 e s.tim.counter < ruMargin s)) ∧
    (let s := sArmed 255 .ready; let e := lframe 2 0 6 400000;
     Admits s rq kLaunch ∧ LaunchForm s e 2 ∧ s.tim.valid = true ∧ s.tet.phase ≠ .committed ∧
     timeAhead s (BitVec.setWidth 48 e.time) = true ∧ s.sys.st = .armed ∧ s.tet.root = true ∧ s.tet.phase = .ready ∧
     e.armId = s.tet.armId ∧ deadlinePassed s = false ∧ ruMargin s ≤ diff48 (BitVec.setWidth 48 e.time) s.tim.counter ∧
     leadUp s 1 = true) ∧
    (let s := sArmed 255 .ready;
     Admits s rq kLaunch ∧ LaunchForm s (lframe 2 0 6 1000) 2 ∧ s.tim.valid = true ∧ s.tet.phase ≠ .committed ∧
     timeAhead s (BitVec.setWidth 48 (lframe 2 0 6 1000).time) = false) ∧
    (let s := sArmed 255 .ready;
     Admits s rq kLaunch ∧ LaunchForm s (lframe 3 0 6 0) 3 ∧ s.sys.st = .armed ∧ s.knl.withdrawAtEnd = false) ∧
    (let s := sArmed 255 .armed;
     s.die ≠ .off ∧ s.sys.st = .armed ∧ s.tet.phase ≠ .idle ∧ s.knl.withdrawAtEnd = false ∧ 1 ∈ ruDown s ∧
     s.tet.children.getLsbD 1 = false) ∧
    (let s := sArmed 255 .armed;
     s.die ≠ .off ∧ s.sys.st = .armed ∧ s.knl.withdrawAtEnd = false ∧ (s.tet.phase = .committed ∨ deadlinePassed s = false)) ∧
    (launchCommitsA.die ≠ .off ∧ launchCommitsA.sys.st = .armed ∧ launchCommitsA.knl.withdrawAtEnd = false ∧
     launchCommitsA.tet.phase ≠ .committed ∧ deadlinePassed launchCommitsA = true) ∧
    (let s := sArmed 255 .committed; let e := lframe 2 0 6 5000;
     Admits s rq kLaunch ∧ LaunchForm s e 2 ∧ s.sys.st = .armed ∧ s.tet.root = true ∧ s.tet.phase = .committed ∧ e.armId = s.tet.armId ∧
     BitVec.setWidth 48 e.time ≠ s.tet.launch ∧ s.knl.withdrawAtEnd = false) ∧
    (let e := lframe 2 0 6 5000;
     Admits launchCommitsB rq kLaunch ∧ LaunchForm launchCommitsB e 2 ∧ launchCommitsB.sys.st = .armed ∧ launchCommitsB.tet.root = true ∧
     launchCommitsB.tet.phase = .committed ∧ e.armId = launchCommitsB.tet.armId ∧
     BitVec.setWidth 48 e.time = launchCommitsB.tet.launch) := by
  repeat' with_reducible apply And.intro
  all_goals first
    | (with_reducible refine launchForm_lframe (by decide +kernel) _ _ _ _ (by decide +kernel))
    | (with_reducible refine lfAuthOk_lframe (by decide +kernel) _ _ _ _)
    | (with_reducible refine lfAuthOk_lfr (by decide +kernel))
    | (with_reducible refine lfAuthOk_forged (by decide +kernel))
    | (with_reducible refine repAuthOk_report (by decide +kernel))
    | (with_reducible refine admits_of_admitsB (by decide +kernel))
    | decide +kernel

def roundUpFramesA := let s := sArmed 0xFF .committed; setLead s 0 { leadAt s 0 with rx := 3 }
def roundUpFramesB := let s := sArmed 0 .armed; { s with tim := { valid := true, counter := 500000}}
/-- States that meet the hypotheses of `RoundUpFrames`, clause by clause. -/
theorem hyps_RoundUpFrames :
    (¬Arrives roundUpFramesA (ar 0 2)) ∧
    (let s := sArmable 0;
     s.die ≠ .off ∧ Arrives s (ar 0 2) ∧ lfAuthOk s (lframe 1 0 6 5000) = true ∧
     armRefusal s (lframe 1 0 6 5000) (some (ar 0 2).lead) = none) ∧
    ((sArmable 0).die ≠ .off ∧ Arrives (sArmable 0) (ar 0 2) ∧ lfAuthOk (sArmable 0) forged = false) ∧
    (let s := sArmable 0;
     s.die ≠ .off ∧ Arrives s (ar 1 2) ∧ lfAuthOk s (lframe 1 0 6 5000) = true ∧
     armRefusal s (lframe 1 0 6 5000) (some (ar 1 2).lead) = some (134938628, 5)) ∧
    ((sArmable 0).die ≠ .off ∧ Arrives (sArmable 0) (ar 0 2) ∧ lfAuthOk (sArmable 0) forged = false ∧
     Instr.ruCommit (ar 0 2) forged ∈ [Instr.ruArm (ar 0 2) forged, Instr.ruCommit (ar 0 2) forged, Instr.ruCancel (ar 0 2) forged]) ∧
    (let s := sArmed 0 .armed;
     ReportOk s (ar 1 2) report ∧ s.tet.phase ≠ .committed ∧ s.tet.phase = .armed ∧ s.tet.readySent = false) ∧
    (ReportOk (sArmed 0 .committed) (ar 1 2) report ∧ (sArmed 0 .committed).tet.phase = .committed) ∧
    (let s := sArmed 0 .armed; let e := lframe 2 0 6 5000;
     s.die ≠ .off ∧ Arrives s (ar 0 2) ∧ lfAuthOk s e = true ∧ s.sys.st = .armed ∧ e.armId = s.tet.armId ∧ ruUp s = some (ar 0 2).lead ∧
     s.tet.phase ≠ .committed ∧ deadlinePassed s = false ∧ timeAhead s (BitVec.setWidth 48 e.time) = true ∧ s.tet.phase ≠ .idle ∧
     s.knl.withdrawAtEnd = false ∧ leadUp s 1 = true) ∧
    (roundUpFramesB.die ≠ .off ∧ Arrives roundUpFramesB (ar 0 2) ∧ lfAuthOk roundUpFramesB (lframe 2 0 6 5000) = true ∧
     roundUpFramesB.sys.st = .armed ∧ (lframe 2 0 6 5000).armId = roundUpFramesB.tet.armId ∧ ruUp roundUpFramesB = some (ar 0 2).lead ∧
     roundUpFramesB.tet.phase ≠ .committed ∧ deadlinePassed roundUpFramesB = true) ∧
    (let s := sArmed 0 .committed; let e := lframe 2 0 6 5000;
     s.die ≠ .off ∧ Arrives s (ar 0 2) ∧ lfAuthOk s e = true ∧ s.sys.st = .armed ∧ e.armId = s.tet.armId ∧ ruUp s = some (ar 0 2).lead ∧
     s.tet.phase = .committed ∧ BitVec.setWidth 48 e.time ≠ s.tet.launch ∧ s.knl.withdrawAtEnd = false) := by
  repeat' with_reducible apply And.intro
  all_goals first
    | (with_reducible refine lfAuthOk_lframe (by decide +kernel) _ _ _ _)
    | (with_reducible refine lfAuthOk_forged (by decide +kernel))
    | (with_reducible refine repAuthOk_report (by decide +kernel))
    | (unfold ReportOk Arrives; refine ⟨by decide +kernel, by decide +kernel, by decide +kernel, repAuthOk_report (by decide +kernel), by decide +kernel, by decide +kernel, by decide +kernel⟩)
    | (unfold Arrives; decide +kernel)
    | decide +kernel

def jobStartsA := {sLaunch with tim := { valid := true, counter := 999}}
def jobStartsB := { sLaunch with str := { sLaunch.str with image := sLaunch.str.image.map fun i => patch i 0x118 (natLE 8 locNone) } }
/-- States that meet the hypotheses of `JobStarts`, clause by clause. -/
theorem hyps_JobStarts :
    (sLaunch.sys.st = .armed ∧ sLaunch.tet.phase = .committed ∧ 0 ≤ diff48 sLaunch.tim.counter sLaunch.tet.launch ∧
     sLaunch.snp.restored = false) ∧
    (jobStartsA.sys.st = .armed ∧ jobStartsA.tet.phase = .committed ∧ diff48 jobStartsA.tim.counter jobStartsA.tet.launch < 0) ∧
    (Admits (keyed jobServed) rq kAbort ∧ (keyed jobServed).sys.st = .running) ∧
    (let s := sArmed 0 .committed;
     Admits s rq kAbort ∧ s.sys.st = .armed ∧ s.knl.withdrawAtEnd = false) ∧
    (Admits holding rq kAbort ∧ holding.sys.st ≠ .running ∧ holding.sys.st ≠ .armed) ∧
    (jobStartsB.sys.st = .armed ∧ jobStartsB.tet.phase = .committed ∧ 0 ≤ diff48 jobStartsB.tim.counter jobStartsB.tet.launch ∧
     jobStartsB.snp.restored = false ∧ ratioTable (img jobStartsB) = locNone) := by
  repeat' apply And.intro
  all_goals decide +kernel

/-- States that meet the hypotheses of `MarkersAndJobEnd` (MarkerCommits), clause by clause. -/
theorem hyps_MarkerCommits :
    (AtMarker (sMarker 0) ∧ Drained (sMarker 0) ∧ (ratioWatch (sMarker 0)).2 = false ∧ ¬SnapFollows (sMarker 0)) ∧
    (AtMarker sMarkerStop ∧ Drained sMarkerStop ∧ (ratioWatch sMarkerStop).2 = true) ∧
    (AtMarker (setSlot (sMarker 0) 3 { st := 1 }) ∧ ¬Drained (setSlot (sMarker 0) 3 { st := 1 })) ∧
    (18 < 43 ∧ participates (setStrand (sMarker 0) 18 { st := 1 }) 18 = true ∧
     ((strand (setStrand (sMarker 0) 18 { st := 1 }) 18).st ≠ 6 ∧ (strand (setStrand (sMarker 0) 18 { st := 1 }) 18).st ≠ 7 ∨ (strand (setStrand (sMarker 0) 18 { st := 1 }) 18).inflight ≠ [])) ∧
    (AtMarker sm ∧ Drained sm ∧ (ratioWatch sm).2 = false ∧ SnapFollows sm) := by
  repeat' with_reducible apply And.intro
  all_goals first
    | (with_reducible refine drained_of (by decide +kernel) (by decide +kernel))
    | (with_reducible refine not_drained 3 (by decide) (by decide +kernel))
    | (with_reducible refine not_drained 15 (by decide) (by decide +kernel))
    | (unfold SnapFollows; decide +kernel)
    | (unfold AtMarker; decide +kernel)
    | decide +kernel

/-- States that meet the hypotheses of `MarkersAndJobEnd` (JobEnds), clause by clause. -/
theorem hyps_JobEnds :
    (running sEnded = true ∧ (∀ r ∈ sEnded.knl.inflight, r.eff ≠ Effect.jobEnding ∧ ∀ (b : Bool), r.eff ≠ Effect.device b) ∧
     (∃ n < 43, participates sEnded n = true) ∧
     (∀ n < 43, participates sEnded n = true → (strand sEnded n).st = 7 ∧ (strand sEnded n).inflight = []) ∧ Drained sEnded) ∧
    (running (setSlot sEnded 15 { st := 1 }) = true ∧
     (∀ r ∈ (setSlot sEnded 15 { st := 1 }).knl.inflight, r.eff ≠ Effect.jobEnding ∧ ∀ (b : Bool), r.eff ≠ Effect.device b) ∧
     (∃ n < 43, participates (setSlot sEnded 15 { st := 1 }) n = true) ∧
     (∀ n < 43, participates (setSlot sEnded 15 { st := 1 }) n = true → (strand (setSlot sEnded 15 { st := 1 }) n).st = 7 ∧ (strand (setSlot sEnded 15 { st := 1 }) n).inflight = []) ∧
     ¬Drained (setSlot sEnded 15 { st := 1 })) ∧
    (18 < 43 ∧ participates (sMarker 0) 18 = true ∧ (strand (sMarker 0) 18).st ≠ 7) := by
  repeat' with_reducible apply And.intro
  all_goals first
    | (with_reducible refine drained_of (by decide +kernel) (by decide +kernel))
    | (with_reducible refine not_drained 3 (by decide) (by decide +kernel))
    | (with_reducible refine not_drained 15 (by decide) (by decide +kernel))
    | decide +kernel

def codesCollectedA := { holding with tly := { holding.tly with buffer := List.replicate 65536 (rec_ 1), next := 9 } }
/-- States that meet the hypotheses of `CodesAndCorrections` (CodesCollected), clause by clause. -/
theorem hyps_CodesCollected :
    ((sCodes holding Effect.count).die ≠ .off ∧
     takeLeast (sCodes holding Effect.count).knl.inflight = some (R2 Effect.count, [R1 Effect.event]) ∧
     (R2 Effect.count).eff ≠ Effect.jobEnding ∧ (∀ (b : Bool), (R2 Effect.count).eff ≠ Effect.device b) ∧
     effRecord (R2 Effect.count).eff = false) ∧
    (let s := sCodes holding Effect.event;
     s.die ≠ .off ∧ takeLeast s.knl.inflight = some (R2 Effect.event, [R1 Effect.event]) ∧ (R2 Effect.event).eff ≠ Effect.jobEnding ∧
     (∀ (b : Bool), (R2 Effect.event).eff ≠ Effect.device b) ∧ effRecord (R2 Effect.event).eff = true ∧ s.tly.buffer.length < 65536 ∧
     s.shp.pwrFail = false) ∧
    (let s := sCodes codesCollectedA Effect.event;
     s.die ≠ .off ∧ takeLeast s.knl.inflight = some (R2 Effect.event, [R1 Effect.event]) ∧ (R2 Effect.event).eff ≠ Effect.jobEnding ∧
     (∀ (b : Bool), (R2 Effect.event).eff ≠ Effect.device b) ∧ effRecord (R2 Effect.event).eff = true ∧ 65536 ≤ s.tly.buffer.length) ∧
    (let s := sCodes jobServed Effect.jobEnding;
     s.die ≠ .off ∧ takeLeast s.knl.inflight = some (R2 Effect.jobEnding, [R1 Effect.event]) ∧
     (R2 Effect.jobEnding).eff = Effect.jobEnding ∧ s.sys.st = .running ∧ commanded (R2 Effect.jobEnding).code = false) ∧
    (let s := sCodes holding Effect.jobEnding;
     s.die ≠ .off ∧ takeLeast s.knl.inflight = some (R2 Effect.jobEnding, [R1 Effect.event]) ∧
     (R2 Effect.jobEnding).eff = Effect.jobEnding ∧ s.sys.st ≠ .running ∧ s.sys.st ≠ .armed) ∧
    (let s := sCodes (sArmed 0 .ready) Effect.jobEnding;
     s.die ≠ .off ∧ takeLeast s.knl.inflight = some (R2 Effect.jobEnding, [R1 Effect.event]) ∧
     (R2 Effect.jobEnding).eff = Effect.jobEnding ∧ s.sys.st = .armed ∧ s.knl.withdrawAtEnd = false) := by
  repeat' apply And.intro
  all_goals decide +kernel

def memoryCorrectionsA := { jobServed with mem := { pcCorr := [(0,1023)] }}
def memoryCorrectionsB := { jobServed with mem := { pcCorr := [(pcId 7 31,1024)], pcTimes := [(pcId 7 31, List.replicate 15 0)] }}
/-- States that meet the hypotheses of `CodesAndCorrections` (MemoryCorrections), clause by clause. -/
theorem hyps_MemoryCorrections :
    (jobServed.die ≠ .off) ∧
    (sDone.die ≠ .off) ∧
    (jobServed.die ≠ .off) ∧
    (jobServed.die ≠ .off) ∧
    (jobServed.die ≠ .off) ∧
    (memoryCorrectionsA.die ≠ .off ∧ pcLive memoryCorrectionsA (pcId 0 0) = true ∧
     (recent memoryCorrectionsA 1000 (sgetD memoryCorrectionsA.mem.pcTimes (pcId 0 0) [])).length < 15) ∧
    (memoryCorrectionsB.die ≠ .off ∧ pcLive memoryCorrectionsB (pcId 7 31) = true ∧
     15 ≤ (recent memoryCorrectionsB 1000 (sgetD memoryCorrectionsB.mem.pcTimes (pcId 7 31) [])).length ∧
     memoryCorrectionsB.die = .serving ∧ (7, 31) ∉ memoryCorrectionsB.mem.retraining ∧
     (recent memoryCorrectionsB 10000000 (sgetD memoryCorrectionsB.mem.pcRetrains (pcId 7 31) [])).length < 3) := by
  repeat' apply And.intro
  all_goals decide +kernel

/-- States that meet the hypotheses of `Teardown`, clause by clause. -/
theorem hyps_Teardown :
    ((sTear TdStage.draining).str.teardown = TdStage.draining ∧ (sTear TdStage.draining).knl.resetPending = false) ∧
    ((sTear TdStage.scrubbed).str.teardown = TdStage.scrubbed) ∧
    ((sTear TdStage.scrubbed).die ≠ .off ∧ (sTear TdStage.scrubbed).str.teardown ≠ TdStage.none) ∧
    (let s := sScrub .draining false;
     s.die ≠ .off ∧ s.str.scrub = true ∧ s.snp.drillActive = none ∧ s.sys.st = .draining ∧ s.str.teardown = TdStage.none ∧
     s.knl.withdrawAtEnd = false) ∧
    (let s := sScrub .draining true;
     s.die ≠ .off ∧ s.str.scrub = true ∧ s.snp.drillActive = none ∧ s.sys.st = .draining ∧ s.str.teardown = TdStage.none ∧
     s.knl.withdrawAtEnd = true) ∧
    (let s := sScrub .boot true;
     s.die ≠ .off ∧ s.str.scrub = true ∧ s.snp.drillActive = none ∧ s.sys.st = .boot) := by
  repeat' apply And.intro
  all_goals decide +kernel

def hangsAndHeartbeatsA := {sTear .draining with knl := { missed := [(.kennel, 4)], stallReset := some .kennel} }
/-- States that meet the hypotheses of `HangsAndBands` (HangsAndHeartbeats), clause by clause. -/
theorem hyps_HangsAndHeartbeats :
    (let s := sHang 100 true;
     running s = true ∧ s.knl.waitCond = true ∧ max 20 (min 10000 s.knl.hangCfg.toNat) ≤ s.knl.waitUs) ∧
    (let s := sHang 99 true;
     running s = true ∧ s.snp.step5 = false ∧ (s.knl.waitCond = false ∨ s.knl.waitUs < max 20 (min 10000 s.knl.hangCfg.toNat))) ∧
    (holding.die ≠ .off) ∧
    (holding.die ≠ .off ∧ Island.tether ∉ holding.knl.stalled ∧ missedBeats holding Island.tether < 4) ∧
    (holding.die ≠ .off ∧ Island.tether ∉ holding.knl.stalled ∧ (true = true ∨ 4 ≤ missedBeats holding Island.tether) ∧
     islandAbsorbed Island.tether = true) ∧
    (holding.die ≠ .off ∧ Island.kennel ∉ holding.knl.stalled ∧ (true = true ∨ 4 ≤ missedBeats holding Island.kennel) ∧
     islandAbsorbed Island.kennel = false ∧ holding.knl.stallReset ≠ some Island.kennel) ∧
    (hangsAndHeartbeatsA.die ≠ .off ∧ Island.kennel ∉ hangsAndHeartbeatsA.knl.stalled ∧
     (false = true ∨ 4 ≤ missedBeats hangsAndHeartbeatsA Island.kennel) ∧ islandAbsorbed Island.kennel = false ∧
     hangsAndHeartbeatsA.knl.stallReset = some Island.kennel ∧ hangsAndHeartbeatsA.str.teardown ≠ TdStage.none) ∧
    (Island.tether ∈ (sStalled Island.tether).knl.stalled) ∧
    (let s := sStalled (Island.leadGroup 0);
     s.die ≠ .off ∧ Island.leadGroup 0 ∈ s.knl.stalled ∧ GroupSurvives s 0) ∧
    (let s := sStalled (Island.phy 7);
     s.die = .serving ∧ Island.phy 7 ∈ s.knl.stalled ∧ s.snp.drillActive = none ∧
     (∀ (pc : Fin 32), (recent s 10000000 (sgetD s.mem.pcRetrains (pcId 7 pc) [])).length < 3)) ∧
    (holding.die ≠ .off ∧ Island.tether ∉ holding.knl.stalled ∧ missedBeats holding Island.tether < 4) ∧
    (holding.die ≠ .off ∧ Island.tether ∉ holding.knl.stalled ∧ (true = true ∨ 4 ≤ missedBeats holding Island.tether) ∧
     islandAbsorbed Island.tether = true) ∧
    (holding.die ≠ .off ∧ Island.kennel ∉ holding.knl.stalled ∧ (true = true ∨ 4 ≤ missedBeats holding Island.kennel) ∧
     islandAbsorbed Island.kennel = false ∧ holding.knl.stallReset ≠ some Island.kennel) ∧
    (hangsAndHeartbeatsA.die ≠ .off ∧ Island.kennel ∉ hangsAndHeartbeatsA.knl.stalled ∧
     (false = true ∨ 4 ≤ missedBeats hangsAndHeartbeatsA Island.kennel) ∧ islandAbsorbed Island.kennel = false ∧
     hangsAndHeartbeatsA.knl.stallReset = some Island.kennel ∧ hangsAndHeartbeatsA.str.teardown ≠ TdStage.none) ∧
    (holding.die ≠ .off) ∧
    (Island.tether ∈ (sStalled Island.tether).knl.stalled ∧ 0 < 2) := by
  repeat' apply And.intro
  all_goals first | decide +kernel | (unfold GroupSurvives; decide +kernel)

def deviceResetA := {sArmed 0 .ready with knl := { resetPending := true, resetCounted := true, inflight := [R1 .event] }}
def deviceResetB := {sTear .draining with knl := { resetPending := true, resetCounted := false, inflight := [R1 .event], resets := [1,2,3,4,5,6,7,8], withdrawn := true }}
/-- States that meet the hypotheses of `DeviceReset`, clause by clause. -/
theorem hyps_DeviceReset :
    (deviceResetA.knl.resetPending = true ∧ deviceResetA.die ≠ .off ∧ deviceResetA.shp.pwrFail = false ∧
     deviceResetA.shp.restarting = false) ∧
    (deviceResetB.knl.resetPending = true ∧ deviceResetB.die ≠ .off ∧ deviceResetB.shp.pwrFail = false ∧
     deviceResetB.shp.restarting = false ∧ deviceResetB.knl.withdrawn = true) ∧
    ((holding.knl.resetPending = false ∨ holding.shp.pwrFail = true ∨ holding.shp.restarting = true)) := by
  repeat' apply And.intro
  all_goals decide +kernel

def thermalBandsA := {holding with knl := { band := 3, d := 2} }
/-- States that meet the hypotheses of `HangsAndBands` (ThermalBands), clause by clause. -/
theorem hyps_ThermalBands :
    (holding.die ≠ .off ∧ holding.knl.band.toNat < bandOf ((75 : BitVec 8).toInt) ∧ (75 : BitVec 8).toInt < 95 ∧
     (holding.knl.band.toNat = 0 ∨ 62 + 10 * holding.knl.band.toNat < (75 : BitVec 8).toInt)) ∧
    (holding.die ≠ .off ∧ bandOf ((74 : BitVec 8).toInt) ≤ holding.knl.band.toNat) ∧
    (holding.die ≠ .off ∧ holding.knl.band.toNat < bandOf ((95 : BitVec 8).toInt) ∧ 95 ≤ (95 : BitVec 8).toInt) ∧
    (thermalBandsA.die ≠ .off ∧ 0 < thermalBandsA.knl.band.toNat ∧ (92 : BitVec 8).toInt ≤ 62 + 10 * thermalBandsA.knl.band.toNat) := by
  repeat' apply And.intro
  all_goals decide +kernel

/-- States that meet the hypotheses of `GovernorPool` (GovernorTicks), clause by clause. -/
theorem hyps_GovernorTicks :
    ((sGov 0 false []).die ≠ .off ∧ (sGov 0 false []).gov.short = false) ∧
    ((sGov 0 true []).die ≠ .off) := by
  repeat' apply And.intro
  all_goals decide +kernel

/-- States that meet the hypotheses of `GrainsGranted`, clause by clause. -/
theorem hyps_GrainsGranted :
    ((sGov (-1) true []).die ≠ .off ∧ grainOrder (sGov (-1) true []) [g1 18 1] = [g1 18 1] ∧
     grantOk (sGov (-1) true []) (g1 18 1) = false ∧ 18 ≤ (g1 18 1).strand ∧ (g1 18 1).strand ≤ 33) ∧
    ((sGov 100000000 true [g1 18 1]).die ≠ .off ∧ grainOrder (sGov 100000000 true [g1 18 1]) [] = [g1 18 1] ∧
     grantOk (sGov 100000000 true [g1 18 1]) (g1 18 1) = true ∧ 18 ≤ (g1 18 1).strand ∧ (g1 18 1).strand ≤ 33) ∧
    ((∃ g ∈ (sGov 100000000 true [g1 18 1]).gov.waiting, g.strand = 18) ∧ 18 ∉ (sGov 100000000 true [g1 18 1]).gov.aged) ∧
    ((∀ g ∈ (sGov 100000000 true [g1 18 1]).gov.waiting, g.strand ≠ 17)) ∧
    ((sGov (-1) true []).die ≠ .off ∧ grainOrder (sGov (-1) true []) [g1 1 1] = [g1 1 1] ∧ grantOk (sGov (-1) true []) (g1 1 1) = false ∧
     (g1 1 1).strand = 1) ∧
    ((sGov 100000000 true [g1 1 1]).die ≠ .off ∧ grainOrder (sGov 100000000 true [g1 1 1]) [] = [g1 1 1] ∧
     grantOk (sGov 100000000 true [g1 1 1]) (g1 1 1) = true ∧ (g1 1 1).strand = 1) := by
  repeat' apply And.intro
  all_goals decide +kernel

/-- States that meet the hypotheses of `GovernorPool` (FeedbackAndDrift), clause by clause. -/
theorem hyps_FeedbackAndDrift :
    ((sGov 100000000 true [g1 18 1]).die ≠ .off ∧ 14500000 < 14500001) ∧
    ((sGov 100000000 false [g1 18 1]).die ≠ .off) ∧
    (let e := sd 92 100 5;
     e.die ≠ .off ∧ e.gov.sumP ≠ 0 ∧ 92 * e.gov.sumP ≤ 100 * e.gov.sumM ∧ 100 * e.gov.sumM ≤ 108 * e.gov.sumP) ∧
    (let e := sd 109 100 5;
     e.die ≠ .off ∧ e.gov.sumP ≠ 0 ∧ (100 * e.gov.sumM < 92 * e.gov.sumP ∨ 108 * e.gov.sumP < 100 * e.gov.sumM)) ∧
    ((sGov 0 true []).die ≠ .off) := by
  repeat' apply And.intro
  all_goals decide +kernel

def calibrationA := {holding with gov := { measuring := true}, knl := { band := 3 } }
/-- States that meet the hypotheses of `CalibrationAndTally` (Calibration), clause by clause. -/
theorem hyps_Calibration :
    (calibrationA.gov.measuring = true) ∧
    (holding.gov.measuring = false) := by
  repeat' apply And.intro
  all_goals decide +kernel

def tallyFlushesA := { holding with tly := { buffer := List.replicate 32768 (rec_ 1) } }
/-- States that meet the hypotheses of `CalibrationAndTally` (TallyFlushes), clause by clause. -/
theorem hyps_TallyFlushes :
    (let s := sTally false 0;
     s.tly.flushing = true ∧ s.shp.restarting = false ∧ s.tly.full = false ∧ s.tly.droppedSince = 0 ∧
     s.tly.store.length + s.tly.buffer.length < 393088) ∧
    (let s := sTally true 0;
     s.tly.flushing = true ∧ s.shp.restarting = false ∧ s.tly.full = true ∧ s.tly.droppedSince = 0) ∧
    (let s := sTally false 5;
     s.tly.flushing = true ∧ s.shp.restarting = false ∧ s.tly.full = false ∧ s.tly.droppedSince ≠ 0 ∧ s.shp.pwrFail = false ∧
     s.tly.store.length + s.tly.buffer.length + 1 < 393088) ∧
    ((holding.tly.flushing = false ∨ holding.shp.restarting = true)) ∧
    ((sTally false 5).die ≠ .off ∧ (sTally false 5).tly.buffer ≠ []) ∧
    (tallyFlushesA.die ≠ .off ∧ 32768 ≤ tallyFlushesA.tly.buffer.length) := by
  repeat' apply And.intro
  all_goals decide +kernel

def sessionsOpenA := {holding with sec := { holding.sec with opcertMin := 10 } }
/-- States that meet the hypotheses of `SessionsAndIdentity` (SessionsOpen), clause by clause. -/
theorem hyps_SessionsOpen :
    (Admits holding rq (kHello true) ∧ holding.die ≠ .off ∧ certOk holding true (cert 9) = true) ∧
    (Admits sessionsOpenA rq (kHello true) ∧ sessionsOpenA.die ≠ .off ∧ certOk sessionsOpenA true (cert 9) = false) ∧
    (Admits holding rq (kHello true) ∧ holding.die ≠ .off ∧ (sess holding (rq.link) true).hs = none) ∧
    (Admits sHand rq (kHello false) ∧ sHand.die ≠ .off ∧
     (sess sHand (rq.link) false).hs = some { serial := 9, opKey := 77, peer := 78, draw := 3, hash := 4 }) ∧
    (Admits sHand rq (kHello true) ∧ sHand.die ≠ .off ∧
     (sess sHand (rq.link) true).hs = some { serial := 9, opKey := 77, peer := 78, draw := 3, hash := 4 }) ∧
    (Admits sHand rq (kHello true) ∧ sHand.die ≠ .off ∧
     (sess sHand (rq.link) true).hs = some { serial := 9, opKey := 77, peer := 78, draw := 3, hash := 4 }) := by
  repeat' apply And.intro
  all_goals decide +kernel

/-- The binding of the certificate [1, 2] to signer 6. -/
def bnd : BitVec 128 := ruAuth jkey (natLE 8 jkey.jobId.toNat ++ natLE 4 (6 : BitVec 24).toNat ++ sha256 [1, 2])
theorem bindOk_bnd : bindOk (keyed holding) 6 [1, 2] bnd = true := by
  have h : (keyed holding).sec.job = some jkey := rfl
  rw [bindOk, h, Option.any_some, bnd]; exact beq_self_eq_true _
/-- States that meet the hypotheses of `JobKeys`, clause by clause. -/
theorem hyps_JobKeys :
    (Admits sEph rq kJob ∧ KeyReady sEph) ∧
    (Admits sEph rq kJob ∧ ((∀ (k : JobKey), sEph.sec.job = some k → k.jobId ≠ 4) ∨ loaded sEph = true)) ∧
    (Admits sEph rq kJob ∧ sEph.sec.eph = some eph1 ∧ eph1.jobId = 4 ∧ sEph.sec.job = none ∧ sEph.sec.debug = false ∧
     unwrap sEph eph1 99 wr1 wr2 = some 0x1234) ∧
    (Admits sEph rq kJob ∧ sEph.sec.eph = some eph1 ∧ eph1.jobId = 4 ∧ sEph.sec.job = none ∧ sEph.sec.debug = false ∧
     unwrap sEph eph1 99 wr1 (~~~wr2) = none) ∧
    (let s := keyed holding;
     Admits s rq kJob ∧ s.sys.st = .holding ∧ loaded s = false ∧ (∃ (k : JobKey), s.sec.job = some k ∧ k.jobId = 4) ∧
     s.ld.active = false) ∧
    (Admits (sArmable 0) rq kJob ∧ ¬KeyReady (sArmable 0)) ∧
    (Admits sEph rq kJob ∧
     (sEph.sec.eph = none ∨ (∃ (e : JobEph), sEph.sec.eph = some e ∧ e.jobId ≠ 5) ∨ sEph.sec.job ≠ none ∨ sEph.sec.debug = true)) ∧
    (Admits (keyed holding) rq kJob ∧ bindOk (keyed holding) 6 [1, 2] bnd = true ∧
     ((List.filter (fun (p : BitVec 24 × Bytes) => p.1 != 6) (keyed holding).sec.peers).length < 8)) ∧
    (Admits (keyed holding) rq kJob ∧
     (bindOk (keyed holding) 7 [1, 2] bnd = false ∨ false = false ∨
       8 ≤ (List.filter (fun (p : BitVec 24 × Bytes) => p.1 != 7) (keyed holding).sec.peers).length)) := by
  have a1 : Admits sEph rq kJob := admits_of_admitsB (by decide +kernel)
  have a2 : Admits (keyed holding) rq kJob := admits_of_admitsB (by decide +kernel)
  have e : sEph.sec.eph = some eph1 := by decide +kernel
  have j : sEph.sec.job = none := by decide +kernel
  have d : sEph.sec.debug = false := by decide +kernel
  refine ⟨⟨a1, by unfold KeyReady; decide +kernel⟩, ⟨a1, .inl fun k h => ?_⟩, ⟨a1, e, rfl, j, d, unwrap_wr⟩,
    ⟨a1, e, rfl, j, d, unwrap_forged⟩, ⟨a2, by decide +kernel, by decide +kernel, ⟨jkey, rfl, rfl⟩, by decide +kernel⟩,
    ⟨admits_of_admitsB (by decide +kernel), by unfold KeyReady; decide +kernel⟩, ⟨a1, .inr (.inl ⟨eph1, e, by decide⟩)⟩,
    ⟨a2, bindOk_bnd, by decide +kernel⟩, a2, .inr (.inl rfl)⟩
  rw [j] at h; cases h

def identityA := {holding with sec := {}}
/-- States that meet the hypotheses of `SessionsAndIdentity` (Identity), clause by clause. -/
theorem hyps_Identity :
    (Admits holding rq kIdentity ∧ holding.die ≠ .off ∧ (holding.sec.owner ≠ none ∨ true = false)) ∧
    (Admits holding rq kIdentity ∧ holding.die ≠ .off) ∧
    (Admits holding rq kIdentity ∧ holding.die ≠ .off) ∧
    (Admits identityA rq kIdentity ∧ identityA.die ≠ .off ∧ identityA.sec.owner = none) ∧
    (Admits identityA rq kIdentity ∧ identityA.die ≠ .off) := by
  repeat' apply And.intro
  all_goals decide +kernel

/-- States that meet the hypotheses of `FirmwareAndDebug`, clause by clause. -/
theorem hyps_FirmwareAndDebug :
    (Admits holding rq kFw ∧ holding.die ≠ .off ∧ (zeros 4080).length ≤ 4080) ∧
    (Admits sFw rq kFw ∧ sFw.die ≠ .off ∧ (vget sFw.sec.fw (idleSlot sFw 0) {}).image ≠ none ∧ vget sFw.sec.svn 0 0 ≤ 3 ∧
     2 < vget sFw.sec.svn 0 0) ∧
    (let s : State := { holding with sec := { holding.sec with debugPending := true } };
     s.sec.debugPending = true ∧ s.sys.st ≠ .running ∧ s.sys.st ≠ .armed ∧ s.sys.st ≠ .faulted ∧ s.sys.st ≠ .draining) ∧
    (let s : State := { jobServed with sec := { jobServed.sec with debugPending := true } };
     s.sec.debugPending = true ∧ s.sys.st = .running) := by
  refine ⟨⟨admits_of_admitsB (by decide +kernel), ?_⟩, ⟨admits_of_admitsB (by decide +kernel), ?_⟩, ?_, ?_⟩
  all_goals decide +kernel

/-- The bytes of a page that is whole with the piece that comes, and what they open to for a marker. -/
def got (k : Nat) : SMap Byte := putRun (sgetD (lacking k).pieces k []) 0 ((sealedPage k).take 1)
def opens (k : Nat) (marker : BitVec 64) : Option Bytes :=
  if fld (manifest 1) 0x10 8 = marker.toNat ∧ fld (manifest 1) 0x18 4 = (0 : BitVec 32).toNat then
    openPage (sRestoring (lacking k)) (manifest 1) k 0 ((got k).map Prod.snd) else none
theorem got_length (k : Nat) : (got k).length = storedBytes := by rw [got, lacking_whole, whole_length]; exact sealedPage_length k
theorem opens_6 (k : Nat) : opens k 6 = some (zeros pageBytes) := by
  have h6 : fld (manifest 1) 0x10 8 = (6 : BitVec 64).toNat := by decide +kernel
  have hp : fld (manifest 1) 0x18 4 = (0 : BitVec 32).toNat := by decide +kernel
  rw [opens, if_pos ⟨h6, hp⟩, got, lacking_whole, whole_bytes]; exact lacking_opens k
theorem opens_7 (k : Nat) : opens k 7 = none := by
  have h6 : fld (manifest 1) 0x10 8 = 6 := by decide +kernel
  rw [opens, h6]; exact if_neg (fun h => absurd h.1 (by decide))
theorem restoring_canonical (x : Restore) : Canonical (sRestoring x) := by
  have hc : Canonical sRestorable := canonical_of_canonicalB (by decide +kernel)
  exact ⟨hc.hbm, hc.board, hc.locals, fun m h => (by cases h), hc.norm, hc.tokens, hc.checks⟩
/-- One byte of a stored page has come. -/
def begunX : Restore := { manifest := manifest 1, accepted := true }
theorem piece_1 : PieceOf (sRestoring (lacking 1)) (lacking 1) 1 1 0 0 ((sealedPage 1).take 1) :=
  piece_of rfl (by decide +kernel) (by decide +kernel) (List.length_take_le 1 _) (by decide) (by decide +kernel)
theorem piece_0 : PieceOf (sRestoring (lacking 0)) (lacking 0) 1 0 0 0 ((sealedPage 0).take 1) :=
  piece_of rfl (by decide +kernel) (by decide +kernel) (List.length_take_le 1 _) (by decide) (by decide +kernel)
theorem piece_begun : PieceOf (sRestoring begunX) begunX 1 1 0 5 [7] :=
  piece_of rfl (by decide +kernel) (by decide +kernel) (by decide) (by decide) (by decide +kernel)
theorem shapeOk_manifest : shapeOk sRestorable (manifest 1) = true := by
  have hd : ((manifest 1).drop 0x28).take 32 = programDigest (img sRestorable) := by
    rw [manifest, patch, List.append_assoc, List.drop_left' (by simp), List.take_left' (show (programDigest (img sRestorable)).length = 32 by unfold programDigest; exact sha256_length _)]
  have h : (fld (manifest 1) 0x08 8 == sRestorable.str.job.toNat && fld (manifest 1) 0x18 4 == imagePosition (img sRestorable) &&
      fld (manifest 1) 0x1C 4 == jobDevices (img sRestorable) && fld (manifest 1) 0x06 1 == fld (img sRestorable) 0x06 1) = true := by
    decide +kernel
  simp only [shapeOk, hd, h, Bool.true_and]; exact beq_self_eq_true _
theorem hyps_RestoreTakes_manifest :
    (Admits holding rq kCkpt ∧ holding.snp.restore = none ∧ restoreOk holding = false) ∧
    (Admits sRestorable rq kCkpt ∧ (manifest 1).length ≤ 4064 ∧ sRestorable.snp.restore = none ∧ restoreOk sRestorable = true) ∧
    (signerOk sRestorable (manifest 1) true = true ∧ shapeOk sRestorable (manifest 1) = true ∧ shardsIn sRestorable (manifest 1) = true) ∧
    signerOk sRestorable (manifest 1) false = false ∧
    (signerOk sRestorable (manifest 9) true = true ∧ (shapeOk sRestorable (manifest 9) = false ∨ shardsIn sRestorable (manifest 9) = false)) := by
  refine ⟨⟨admits_of_admitsB (by decide +kernel), ?_⟩, ⟨admits_of_admitsB (by decide +kernel), ?_⟩, ⟨?_, shapeOk_manifest, ?_⟩, ?_, ?_, .inr ?_⟩
  all_goals decide +kernel
/-- States that meet the hypotheses of `Restores` (RestoreTakes), clause by clause. -/
theorem hyps_RestoreTakes :
    (PieceOf (sRestoring begunX) begunX 1 1 0 5 [7] ∧ (putRun (sgetD begunX.pieces 1 []) 5 [7]).length < storedBytes) ∧
    (PieceOf (sRestoring (lacking 1)) (lacking 1) 1 1 0 0 ((sealedPage 1).take 1) ∧ (got 1).length = storedBytes ∧
     opens 1 7 = none ∧ opens 1 6 = some (zeros pageBytes) ∧
     genPageAddr (manShards (manifest 1)) 1 = some 0x40000 ∧ Canonical (sRestoring (lacking 1))) ∧
    (PieceOf (sRestoring (lacking 0)) (lacking 0) 1 0 0 0 ((sealedPage 0).take 1) ∧ (got 0).length = storedBytes ∧
     opens 0 6 = some (zeros pageBytes) ∧ Canonical (sRestoring (lacking 0))) := by
  exact ⟨⟨piece_begun, by decide +kernel⟩, ⟨piece_1, got_length 1, opens_7 1, opens_6 1, by decide +kernel, restoring_canonical _⟩,
    piece_0, got_length 0, opens_6 0, restoring_canonical _⟩

def restoreEndsA := { sLaunch with str := { sRestorable.str with marker := 6 }, snp := { restored := true, restoredPage := (allWhole 6).capture } }
/-- States that meet the hypotheses of `Restores` (RestoreEnds), clause by clause. -/
theorem hyps_RestoreEnds :
    restoreEndsA.sys.st = .armed ∧ restoreEndsA.tet.phase = .committed ∧ 0 ≤ diff48 restoreEndsA.tim.counter restoreEndsA.tet.launch ∧
    restoreEndsA.snp.restored = true := by
  repeat' apply And.intro
  all_goals decide +kernel

/-- States that meet the hypotheses of `TetherLinkLayer` (TetherAcknowledges), clause by clause. -/
theorem hyps_TetherAcknowledges :
    ((sTether [(6, 2)] [(6, 2)] true).die ≠ .off ∧ (linkAt (sTether [(6, 2)] [(6, 2)] true) 1).up = true ∧
     (∃ f ∈ (sess (sTether [(6, 2)] [(6, 2)] true) 1 true).sent, f.1 = 6) ∧
     3 ≤ sgetD (sess (sTether [(6, 2)] [(6, 2)] true) 1 true).naks ((BitVec.ofNat 64 6).toNat) 0 + 1) ∧
    ((sTether [(6, 2)] [(6, 2)] true).die ≠ .off ∧ (linkAt (sTether [(6, 2)] [(6, 2)] true) 1).up = true ∧
     3 ≤ sgetD (sess (sTether [(6, 2)] [(6, 2)] true) 1 true).fails ((BitVec.ofNat 64 6).toNat) 0 + 1) ∧
    ((sTether [(6, 1)] [(6, 1)] true).die ≠ .off ∧ (linkAt (sTether [(6, 1)] [(6, 1)] true) 1).up = true ∧ rq.link = 1 ∧
     (List.length (zeros 0) = 0 ∨ 4088 < List.length (zeros 0))) ∧
    ((sTether [(6, 1)] [(6, 1)] true).die ≠ .off ∧ (linkAt (sTether [(6, 1)] [(6, 1)] true) 1).up = true ∧ rq.link = 1 ∧
     4064 < List.length (zeros 4065)) ∧
    ((sTether [(6, 1)] [(6, 1)] true).die ≠ .off ∧ (linkAt (sTether [(6, 1)] [(6, 1)] true) 1).up = true ∧ rq.link = 1 ∧
     4080 < List.length (zeros 4081)) ∧
    ((sTether [] [] true).die ≠ .off ∧ (linkAt (sTether [] [] true) 1).up = true ∧
     (sess (sTether [] [] true) 1 true).resend = some 6) ∧
    ((sTether [] [] true).die ≠ .off ∧ (linkAt (sTether [] [] true) 1).up = true ∧
     (∃ f ∈ (sess (sTether [] [] true) 1 true).sent, f.1 = 6) ∧
     sgetD (sess (sTether [] [] true) 1 true).naks ((BitVec.ofNat 64 6).toNat) 0 + 1 < 3) ∧
    ((sTether [] [] true).die ≠ .off ∧ (linkAt (sTether [] [] true) 1).up = true ∧
     (sess (sTether [] [] true) 1 true).sent = [(5, TBody.notify Reason.ready 0 [1]), (6, TBody.manifest 0 0 true [2]), (7, TBody.response 1 0 7 [])]) ∧
    ((sTether [] [] true).die ≠ .off ∧ (linkAt (sTether [] [] true) 1).up = true ∧
     sgetD (sess (sTether [] [] true) 1 true).fails ((BitVec.ofNat 64 6).toNat) 0 + 1 < 3) ∧
    ((sTether [] [] false).die ≠ .off ∧ (linkAt (sTether [] [] false) 1).up = true ∧
     (∀ f ∈ (sess (sTether [] [] false) 1 true).sent, f.1 ≠ 4)) := by
  repeat' apply And.intro
  all_goals decide +kernel

/-- States that meet the hypotheses of `TetherLinkLayer` (TetherLinks), clause by clause. -/
theorem hyps_TetherLinks :
    ((sTether [] [] false).die ≠ .off ∧ (linkAt (sTether [] [] false) 1).up = true) ∧
    ((sTether [] [] true).die ≠ .off ∧ (linkAt (sTether [] [] true) 1).up = true ∧ (linkAt (sTether [] [] true) (1 - 1)).up = true ∧
     (sess (sTether [] [] true) (1 - 1) false).isOpen = true ∧ (sess (sTether [] [] true) (1 - 1) true).isOpen = true) ∧
    (let s := sNoLink true holding;
     s.shp.standby = true ∧ (linkAt s 1).up = false ∧ (linkAt s 1).lost = true) ∧
    ((sNoLink false holding).shp.standby = true ∧ (linkAt (sNoLink false holding) 0).up = false) ∧
    (let s := sNoLink true holding;
     s.die ≠ .off ∧ s.shp.standby = true ∧ (linkAt s 0).up = false ∧ (linkAt s 1).up = false ∧ s.sys.st ≠ .running ∧ s.sys.st ≠ .armed) ∧
    (let s := sNoLink true jobServed;
     s.die ≠ .off ∧ s.shp.standby = true ∧ (linkAt s 0).up = false ∧ (linkAt s 1).up = false ∧ s.sys.st = .running) ∧
    (let s := sNoLink true (sArmed 0 .ready);
     s.die ≠ .off ∧ s.shp.standby = true ∧ (linkAt s 0).up = false ∧ (linkAt s 1).up = false ∧ s.sys.st = .armed ∧
     s.knl.withdrawAtEnd = false) := by
  repeat' apply And.intro
  all_goals decide +kernel

/-- States that meet the hypotheses of `Time` (TimeReference), clause by clause. -/
theorem hyps_TimeReference :
    ((sTime { marks := 65535, goodEdges := 98, forceLead := true }).die ≠ .off ∧
     (sTime { marks := 65535, goodEdges := 98, forceLead := true }).tim.epochPending = none ∧ (1000050 - 1000000 : Int).natAbs ≤ 50 ∧
     (sTime { marks := 65535, goodEdges := 98, forceLead := true }).tim.forceLead = true) ∧
    ((sTime { counter := 2100000, goodEdges := 99 }).die ≠ .off ∧
     (sTime { counter := 2100000, goodEdges := 99 }).tim.epochPending = none ∧ (999950 - 1000000 : Int).natAbs ≤ 50 ∧
     (sTime { counter := 2100000, goodEdges := 99 }).tim.forceLead = false ∧
     99 ≤ (sTime { counter := 2100000, goodEdges := 99 }).tim.goodEdges ∧
     (markerError (sTime { counter := 2100000, goodEdges := 99 }).tim.counter).natAbs ≤ 100000) ∧
    ((sTime { counter := 2900000, mode := 1, goodEdges := 100, refLock := true }).die ≠ .off ∧
     (sTime { counter := 2900000, mode := 1, goodEdges := 100, refLock := true }).tim.refLock = true) ∧
    ((sTime { counter := 2900000, goodEdges := 3, parent := some 3 }).die ≠ .off ∧
     (sTime { counter := 2900000, goodEdges := 3, parent := some 3 }).tim.refLock = false) ∧
    ((sTime { frac := 5, marks := 65535, forceLead := true, epochPending := some (0, 5000000) }).die ≠ .off ∧
     (sTime { frac := 5, marks := 65535, forceLead := true, epochPending := some (0, 5000000) }).tim.epochPending = some ((sTime { frac := 5, marks := 65535, forceLead := true, epochPending := some (0, 5000000) }).tim.marks + 1, 5000000) ∧
     (sTime { frac := 5, marks := 65535, forceLead := true, epochPending := some (0, 5000000) }).tim.forceLead = true ∧
     (1000000 - 1000000 : Int).natAbs ≤ 50 ∧
     (sTime { frac := 5, marks := 65535, forceLead := true, epochPending := some (0, 5000000) }).tim.valid = false) ∧
    ((sTime { frac := 5, valid := true, marks := 65535, forceLead := true, epochPending := some (0, 5000000) }).die ≠ .off ∧
     (sTime { frac := 5, valid := true, marks := 65535, forceLead := true, epochPending := some (0, 5000000) }).tim.epochPending = some ((sTime { frac := 5, valid := true, marks := 65535, forceLead := true, epochPending := some (0, 5000000) }).tim.marks + 1, 5000000) ∧
     (sTime { frac := 5, valid := true, marks := 65535, forceLead := true, epochPending := some (0, 5000000) }).tim.forceLead = true ∧
     (1000000 - 1000000 : Int).natAbs ≤ 50 ∧
     (sTime { frac := 5, valid := true, marks := 65535, forceLead := true, epochPending := some (0, 5000000) }).tim.valid = true ∧
     (sTime { frac := 5, valid := true, marks := 65535, forceLead := true, epochPending := some (0, 5000000) }).tim.counter ≠ 5000000) ∧
    ((sTime { counter := 5000000, valid := true, marks := 65535, forceLead := true, epochPending := some (0, 5000000) }).die ≠ .off ∧
     (sTime { counter := 5000000, valid := true, marks := 65535, forceLead := true, epochPending := some (0, 5000000) }).tim.epochPending = some ((sTime { counter := 5000000, valid := true, marks := 65535, forceLead := true, epochPending := some (0, 5000000) }).tim.marks + 1, 5000000) ∧
     (sTime { counter := 5000000, valid := true, marks := 65535, forceLead := true, epochPending := some (0, 5000000) }).tim.forceLead = true ∧
     (1000000 - 1000000 : Int).natAbs ≤ 50 ∧
     (sTime { counter := 5000000, valid := true, marks := 65535, forceLead := true, epochPending := some (0, 5000000) }).tim.valid = true) ∧
    ((sTime { counter := 281474976710655 }).die ≠ .off ∧ (sTime { counter := 281474976710655 }).tim.counter = 281474976710655) := by
  repeat' apply And.intro
  all_goals decide +kernel

/-- States that meet the hypotheses of `Time` (TimeOverLeads), clause by clause. -/
theorem hyps_TimeOverLeads :
    ((sTime { }).die ≠ .off ∧
     (List.foldl (fun a (h : Fin 8 × BitVec 24 × BitVec 8) => min a h.2.1.toNat) (ownId (sTime { })) (List.filter (fun (h : Fin 8 × BitVec 24 × BitVec 8) => inRack (sTime { }) h.1) [(0, 8, 0), (1, 8, 3)]) ≠ ownId (sTime { }))) ∧
    ((sTime { valid := true }).die ≠ .off ∧
     (List.foldl (fun a (h : Fin 8 × BitVec 24 × BitVec 8) => min a h.2.1.toNat) (ownId (sTime { valid := true })) (List.filter (fun (h : Fin 8 × BitVec 24 × BitVec 8) => inRack (sTime { valid := true }) h.1) []) = ownId (sTime { valid := true }))) ∧
    ((sTime { mode := 2, parent := some 0 }).die ≠ .off ∧ (sTime { mode := 2, parent := some 0 }).tim.parent = some 0 ∧
     inRack (sTime { mode := 2, parent := some 0 }) 0 = true) ∧
    ((sTime { mode := 2, parent := some 0 }).die ≠ .off ∧ (sTime { mode := 2, parent := some 0 }).tim.parent = some 0 ∧
     inRack (sTime { mode := 2, parent := some 0 }) 0 = true ∧ (sTime { mode := 2, parent := some 0 }).tim.mode = 2) ∧
    ((sTime { mode := 2, parent := some 0 }).die ≠ .off ∧ (sTime { mode := 2, parent := some 0 }).tim.parent = some 0 ∧
     inRack (sTime { mode := 2, parent := some 0 }) 0 = true ∧ (sTime { mode := 2, parent := some 0 }).tim.mode = 2 ∧
     (sTime { mode := 2, parent := some 0 }).tim.valid = false) ∧
    ((sTime { mode := 2, parent := some 0 }).die ≠ .off ∧ (sTime { mode := 2, parent := some 0 }).tim.parent = some 0 ∧
     inRack (sTime { mode := 2, parent := some 0 }) 0 = true ∧ (sTime { mode := 2, parent := some 0 }).tim.mode = 2 ∧
     (diff48 1000 0 - diff48 2500 2000) % 2 = 0) ∧
    ((sTime { valid := true, mode := 2, parent := some 0 }).die ≠ .off ∧
     (sTime { valid := true, mode := 2, parent := some 0 }).tim.parent = some 0 ∧
     inRack (sTime { valid := true, mode := 2, parent := some 0 }) 0 = true ∧
     (sTime { valid := true, mode := 2, parent := some 0 }).tim.mode = 2 ∧
     ((sTime { valid := true, mode := 2, parent := some 0 }).tim.valid = true ∨ true = false)) ∧
    ((sTime { valid := true, mode := 1, parent := some 0 }).die ≠ .off ∧
     (sTime { valid := true, mode := 1, parent := some 0 }).tim.parent = some 0 ∧
     inRack (sTime { valid := true, mode := 1, parent := some 0 }) 0 = true ∧
     (sTime { valid := true, mode := 1, parent := some 0 }).tim.mode ≠ 2 ∧ (diff48 1000 0 - diff48 2500 2000).natAbs ≤ 2000) ∧
    ((sTime { valid := true, mode := 1, parent := some 0, offsetRun := 15 }).die ≠ .off ∧
     (sTime { valid := true, mode := 1, parent := some 0, offsetRun := 15 }).tim.parent = some 0 ∧
     inRack (sTime { valid := true, mode := 1, parent := some 0, offsetRun := 15 }) 0 = true ∧
     (sTime { valid := true, mode := 1, parent := some 0, offsetRun := 15 }).tim.mode ≠ 2 ∧
     2000 < (diff48 9000 0 - diff48 2500 2000).natAbs ∧
     (sTime { valid := true, mode := 1, parent := some 0, offsetRun := 15 }).tim.offsetRun = 15) ∧
    ((sTime { valid := true, mode := 1, parent := some 0, offsetRun := 5 }).die ≠ .off ∧
     (sTime { valid := true, mode := 1, parent := some 0, offsetRun := 5 }).tim.parent = some 0 ∧
     inRack (sTime { valid := true, mode := 1, parent := some 0, offsetRun := 5 }) 0 = true ∧
     (sTime { valid := true, mode := 1, parent := some 0, offsetRun := 5 }).tim.mode ≠ 2 ∧
     2000 < (diff48 9000 0 - diff48 2500 2000).natAbs ∧
     (sTime { valid := true, mode := 1, parent := some 0, offsetRun := 5 }).tim.offsetRun ≠ 15) ∧
    ((sTime { counter := 77, valid := true }).die ≠ .off ∧ inRack (sTime { counter := 77, valid := true }) 1 = true) ∧
    ((sTime { counter := 77, valid := true }).die ≠ .off ∧ inRack (sTime { counter := 77, valid := true }) 5 = false) := by
  repeat' apply And.intro
  all_goals decide +kernel

/-- States that meet the hypotheses of `MemoriesAndDrills` (MemoryHappenings), clause by clause. -/
theorem hyps_MemoryHappenings :
    (let s := sPc 0 false .running;
     s.die = .serving ∧ pcLive s (pcId 7 31) = true ∧ s.snp.drillActive = none ∧ (7, 31) ∉ s.mem.retraining ∧
     RetrainsLeft s (pcId 7 31)) ∧
    (let s := sPc 3 false .holding;
     s.die = .serving ∧ pcLive s (pcId 7 31) = true ∧ s.snp.drillActive = none ∧ (7, 31) ∉ s.mem.retraining ∧
     ¬RetrainsLeft s (pcId 7 31) ∧ s.sys.st = .holding) ∧
    (let s := sPc 2 true .holding;
     s.die = .serving ∧ pcLive s (pcId 7 31) = true ∧ s.snp.drillActive = none ∧ (7, 31) ∈ s.mem.retraining) ∧
    (let s := sPc 3 false .armed;
     s.die = .serving ∧ pcLive s (pcId 7 31) = true ∧ s.snp.drillActive = none ∧
     recent s 1000000 (sgetD s.mem.pcUncorr (pcId 7 31) []) = [] ∧ (recent s 1000 (sgetD s.mem.pcTimes (pcId 7 31) [])).length < 15 ∧
     (7, 31) ∉ s.mem.retraining ∧ ¬RetrainsLeft s (pcId 7 31)) := by
  repeat' apply And.intro
  all_goals first | decide +kernel | (unfold RetrainsLeft; decide +kernel)

def drillsA := let s := sDrill 32 none; { s with shp := { s.shp with leash := .active } }
/-- States that meet the hypotheses of `MemoriesAndDrills` (Drills), clause by clause. -/
theorem hyps_Drills :
    (drillOk drillsA = true ∧ drillDue drillsA = some 5 ∧ leashIs drillsA Leash.active = true) ∧
    (let e := withLeads (sDrill 1 none);
     drillOk e = true ∧ drillDue e = some 0 ∧ drillLane e = some (0, 15)) ∧
    (drillDue (sDrill 76 none) = some 2 ∧ (2 = 2 ∨ 2 = 3 ∨ 2 = 6) ∧ drillOk (sDrill 76 none) = true) ∧
    (drillDue (sDrill 1 none) = some 0 ∧ injectable (sDrill 1 none) 0 = false) ∧
    (let s := sDrill 2 none;
     drillOk s = true ∧ drillDue s = some 1 ∧ s.die = .serving ∧ drillPcs s ≠ []) ∧
    (drillOk (sDrill 16 none) = true ∧ drillDue (sDrill 16 none) = some 4) ∧
    (drillDue (sDrill 140 (some 6)) = some 7 ∧ drillOk (sDrill 140 (some 6)) = true) ∧
    (drillOk holding = false) ∧
    (drillDue (sDrill 140 (some 6)) = some 7 ∧ running (sDrill 140 (some 6)) = true) ∧
    (drillDue (sDrill 140 (some 6)) = some 7) := by
  repeat' apply And.intro
  all_goals decide +kernel

/-- States that meet the hypotheses of `StartUp` (Starts), clause by clause. -/
theorem hyps_Starts :
    (State.reset.shp.standby = false ∧ State.reset.die = .off) ∧
    (let s := sRelease (some 3) none;
     Releasable s ∧ (fwOk s 1 false = true ∨ fwOk s 1 true = true)) ∧
    (let s := sRelease (some 2) none;
     Releasable s ∧ fwOk s 1 false = false ∧ fwOk s 1 true = false) ∧
    (¬Releasable holding) := by
  repeat' apply And.intro
  all_goals first | decide +kernel | (unfold Releasable; decide +kernel)

def bootStagesA := { sBoot .released {} with mem := { extRate := true, qualified := 0xFE } }
def bootStagesB := { sBoot .serving {} with shp := { holding.shp with ramping := 0x3FFFFFFFFFFFF } }
def bootStagesC := { jobServed with shp := { holding.shp with ramping := 0x3FFFFFFFFFFFF } }
def bootStagesD := { sBoot .serving {} with mem := { (sBoot .serving {}).mem with live := 0 } }
def bootStagesE := let s := sBoot .serving { beadTest := true, overwrite := true, trained := true }; { s with lead := { s.lead with discovered := true }, tet := {} }
def bootStagesF := let s := sBoot .serving { beadTest := true, noPc := true, trained := true }; { s with lead := { s.lead with discovered := true } }
/-- States that meet the hypotheses of `StartUp` (BootStages), clause by clause. -/
theorem hyps_BootStages :
    ((sBoot .released { }).die = .released) ∧
    (bootStagesA.die = .released ∧ bootStagesA.mem.extRate = true ∧ bootStagesA.mem.qualified ≠ 255) ∧
    (bootStagesB.shp.ramping.getLsbD 3 = true ∧ (3 < 22 ∨ 29 < 3)) ∧
    (bootStagesC.shp.ramping.getLsbD 22 = true ∧ 22 ≤ 22 ∧ 22 ≤ 29) ∧
    (bootStagesC.shp.ramping.getLsbD 29 = true ∧ bootStagesC.die ≠ .off) ∧
    ((sBoot .serving { }).sys.st = .boot ∧ (sBoot .serving { }).die = .serving ∧ (sBoot .serving { }).boot.trained = false ∧
     livePcs (sBoot .serving { }) ≠ 0) ∧
    ((sBoot .serving { }).sys.st = .boot ∧ (sBoot .serving { }).die = .serving ∧ (sBoot .serving { }).boot.trained = false ∧
     pcLive (sBoot .serving { }) (pcId 7 31) = true ∧ 1 < livePcs (sBoot .serving { })) ∧
    (bootStagesD.sys.st = .boot ∧ bootStagesD.die = .serving ∧ bootStagesD.boot.trained = false ∧ livePcs bootStagesD = 0) ∧
    (bootStagesE.sys.st = .boot ∧ bootStagesE.die = .serving ∧ bootStagesE.boot.beadTest = true ∧
     (bootStagesE.boot.overwrite = true ∨ bootStagesE.boot.noPc = true) ∧ bootStagesE.lead.discovered = true ∧
     bootStagesE.knl.withdrawn = false ∧ bootStagesE.frm.noWidth = false ∧ bootStagesE.boot.noPc = false) ∧
    (bootStagesF.sys.st = .boot ∧ bootStagesF.die = .serving ∧ bootStagesF.boot.beadTest = true ∧
     (bootStagesF.boot.overwrite = true ∨ bootStagesF.boot.noPc = true) ∧ bootStagesF.lead.discovered = true ∧
     (bootStagesF.knl.withdrawn = true ∨ bootStagesF.frm.noWidth = true ∨ bootStagesF.boot.noPc = true)) ∧
    (((sBoot .serving { }).boot.beadTest = false ∨ (sBoot .serving { }).lead.discovered = false)) ∧
    ((sBoot .serving { }).die ≠ .off ∧ (sBoot .serving { }).sys.st = .boot) := by
  repeat' apply And.intro
  all_goals decide +kernel

def powerFailsA := { keyed jobServed with shp := { jobServed.shp with pwrFail := true }, tly := { buffer := [rec_ 1] } }
def powerFailsB := { keyed jobServed with tly := { buffer := [rec_ 1] } }
/-- States that meet the hypotheses of `PowerFails`, clause by clause. -/
theorem hyps_PowerFails :
    (let s := sRelease (some 3) none;
     Releasable s ∧ s.shp.railsLate = false ∧ s.tly.full = false) ∧
    ((sRelease (some 3) none).shp.standby = true ∧ (sRelease (some 3) none).die = .off) ∧
    ((sRelease (some 3) none).die = .off) ∧
    ((keyed jobServed).die ≠ .off ∧ (keyed jobServed).shp.pwrFail = false) ∧
    (powerFailsA.die ≠ .off ∧ powerFailsA.shp.pwrFail = true) ∧
    ((keyed jobServed).shp.standby = true ∧ (keyed jobServed).shp.pwrFail = false ∧ (keyed jobServed).die ≠ .off) ∧
    (powerFailsB.shp.standby = true ∧ powerFailsB.die ≠ .off) ∧
    ((sRelease (some 3) none).shp.standby = true) ∧
    (holding.shp.standby = true) := by
  repeat' apply And.intro
  all_goals decide +kernel

def leashKeptA := lsh .active 1 fun x => { x with peerOk := 2, roleRequested := true }
def leashKeptB := lsh .claiming 0 fun x => { x with epochSeen := 0xFFFFFFFF }
def leashKeptC := lsh .watch 0 fun x => { x with peerOk := 3 }
def leashKeptD := lsh .claiming 0 fun x => { x with epochSeen := 7 }
def leashKeptE := { sLeash .active 0 with shp := { (sLeash .active 0).shp with serving := false } }
/-- States that meet the hypotheses of `LeashAndTray` (LeashKept), clause by clause. -/
theorem hyps_LeashKept :
    (let s := sLeash Leash.active 1;
     s.shp.serving = true ∧ s.shp.leash = Leash.active ∧ drilling s 5 = false ∧ s.shp.pos = 1) ∧
    (leashKeptA.shp.serving = true ∧ leashKeptA.shp.leash = Leash.active ∧ drilling leashKeptA 5 = false ∧ leashKeptA.shp.pos = 1 ∧
     2 ≤ leashKeptA.shp.peerOk ∧ leashKeptA.shp.roleRequested = true) ∧
    (let s := sLeash Leash.standby 1;
     s.shp.serving = true ∧ (s.shp.leash = Leash.standby ∨ s.shp.leash = Leash.watch ∨ s.shp.leash = Leash.claiming) ∧
     max (BitVec.toNat s.shp.epoch) (BitVec.toNat s.shp.epochSeen) < 4294967295 ∧ drilling s 5 = false ∧ s.die ≠ .off) ∧
    (leashKeptB.shp.serving = true ∧
     (leashKeptB.shp.leash = Leash.standby ∨ leashKeptB.shp.leash = Leash.watch ∨ leashKeptB.shp.leash = Leash.claiming) ∧
     max (BitVec.toNat leashKeptB.shp.epoch) (BitVec.toNat leashKeptB.shp.epochSeen) = 4294967295 ∧ leashKeptB.die ≠ .off) ∧
    (let s := sLeash Leash.active 1;
     (s.shp.serving = false ∨ s.shp.leash = Leash.active ∨ s.shp.leash = Leash.ineligible)) ∧
    (leashKeptC.shp.serving = true ∧ leashKeptC.shp.leash = Leash.watch ∧ 3 ≤ leashKeptC.shp.peerOk ∧ reclaimDue leashKeptC = true) ∧
    (leashKeptD.shp.serving = true ∧ leashKeptD.shp.leash = Leash.claiming ∧
     max (BitVec.toNat leashKeptD.shp.epoch) (BitVec.toNat leashKeptD.shp.epochSeen) < 4294967295 ∧ drilling leashKeptD 5 = false) ∧
    (eligible (sLeash Leash.active 1) = true) ∧
    ((sLeash Leash.active 1).shp.serving = true) ∧
    (leashKeptE.shp.standby = true ∧ leashKeptE.shp.serving = false ∧ leashKeptE.shp.rom = false) := by
  repeat' apply And.intro
  all_goals decide +kernel

/-- States that meet the hypotheses of `LeashAndTray` (TrayAndTelemetry), clause by clause. -/
theorem hyps_TrayAndTelemetry :
    (let s := sLeash Leash.active 1;
     s.die ≠ .off ∧ s.shp.serving = true ∧ s.shp.leash = Leash.active ∧ s.shp.stale = false) ∧
    (let s := sLeash Leash.active 1;
     s.die ≠ .off ∧ s.shp.serving = true ∧ s.shp.leash = Leash.active) ∧
    (let s := sLeash Leash.active 1;
     s.die ≠ .off ∧ s.shp.serving = true ∧ s.shp.leash = Leash.active) ∧
    (let s := sLeash Leash.active 1;
     s.die ≠ .off ∧ s.shp.serving = true ∧ s.shp.leash = Leash.active) ∧
    (let s := sLeash Leash.active 1;
     s.die ≠ .off ∧ s.shp.serving = true ∧ s.shp.leash = Leash.active) ∧
    (holding.shp.standby = true ∧ holding.die ≠ .off) ∧
    (holding.shp.standby = true ∧ holding.die ≠ .off) := by
  repeat' apply And.intro
  all_goals decide +kernel

/-! ## Ill-formed commands, one for each check of WellFormed -/

/-- A launch frame of KIND k, and a grant of address a. -/
def wfLaunch (k : BitVec 8) : LaunchFrame := ⟨k, 1, 0, 6, 4, 5000, 0, 0⟩
def wfGrant (action a : BitVec 32) : Grant := ⟨0x50394752, action, 0, 0, a, 0, true, true, true⟩
theorem test_wf_loadData : (Instr.loadData 0 0 []).wf = false := by decide
theorem test_wf_mirrorPage : (Instr.mirrorPage ⟨0, 0, 0⟩ ⟨1, 2, 3, 0, 0, []⟩).wf = false := by decide
theorem test_wf_dataFrameReceived : (Instr.dataFrameReceived ⟨0, 0, 0⟩ ⟨1, 2, 3, 0, 0, List.replicate 2049 0⟩).wf = false := by decide +kernel
theorem test_wf_launchArm : (Instr.launchArm rq (wfLaunch 2)).wf = false := by decide
theorem test_wf_launchCommit : (Instr.launchCommit rq (wfLaunch 3)).wf = false := by decide
theorem test_wf_launchCancel : (Instr.launchCancel rq (wfLaunch 1)).wf = false := by decide
theorem test_wf_reservedMessage : (Instr.reservedMessage rq 1).wf = false := by decide
theorem test_wf_escalateClear : (Instr.escalateClear (wfGrant 1 0x10010) rq).wf = false := by decide
theorem test_wf_tallyClear : (Instr.tallyClear (wfGrant 1 0xF1028) rq).wf = false := by decide
theorem test_wf_packageReset : (Instr.packageReset (wfGrant 1 0x10003C) rq).wf = false := by decide
theorem test_wf_sampleRelease : (Instr.sampleRelease (wfGrant 1 0x10001C) rq).wf = false := by decide
theorem test_wf_adopt : (Instr.adopt (wfGrant 1 0xD0018) rq).wf = false := by decide
theorem test_wf_govUcalWrite : (Instr.govUcalWrite (wfGrant 1 0xD0250) rq).wf = false := by decide
theorem test_wf_grantRegWrite : (Instr.grantRegWrite rq (wfGrant 2 0)).wf = false := by decide
theorem test_wf_grantDebugUnlock : (Instr.grantDebugUnlock rq (wfGrant 1 0)).wf = false := by decide
theorem test_wf_fwData : (Instr.fwData rq 0 0 (List.replicate 4081 0)).wf = false := by decide +kernel
theorem test_wf_restoreManifest : (Instr.restoreManifest rq 0 true (List.replicate 4065 0) true).wf = false := by decide +kernel
theorem test_wf_restorePage : (Instr.restorePage 0 6 0 1 0 0 (List.replicate 4065 0)).wf = false := by decide +kernel

/-! ## The spec's worked values, and published vectors of the algorithms it names -/

/-- Example 7-1's drain word. -/
def workedDrain : BitVec 128 := 0x108500030A45306200042C0000000000
/-- Example 7-1: the Edge accepts the word and reads its fields. -/
theorem test_worked_word : decodeCheck 1 workedDrain = none ∧ wOp workedDrain = 0x10 ∧ wWtok workedDrain = 40 ∧ wWcnt workedDrain = 1 ∧
    wStok workedDrain = 41 ∧ wSinc workedDrain = 1 ∧ wFld workedDrain 79 76 = 3 ∧ wFld workedDrain 75 68 = 6 ∧
    wFld workedDrain 67 46 = 0x80010 ∧ wFld workedDrain 45 42 = 0b1011 := by decide
/-- Example 7-1: bit 46 turned. -/
theorem test_worked_parity : decodeCheck 1 (workedDrain ^^^ 1#128 <<< 46) = some 0x04050101 := by decide
/-- Example 7-1: W_TOK left in place without W_EN, under even parity. -/
theorem test_worked_wait : decodeCheck 1 (workedDrain ^^^ 1#128 <<< 119 ^^^ 1#128 <<< 81) = some 0x0B050303 := by decide
/-- Example 5-1: one letter of a surname differs. -/
theorem test_edit : editDistance (ascii "MARVENKO") (ascii "MARVENCO") = 1 := by decide
theorem test_edit_same : editDistance (ascii "MARVENKO") (ascii "MARVENKO") = 0 := by decide
/-- Example 5-1: the similarities of the given names. -/
theorem test_jaroWinkler : jaroWinkler (ascii "TESSALY") (ascii "TESALY") = 0x7BBC ∧
    jaroWinkler (ascii "TESSALY") (ascii "TOMIS") = 0x47EC := by decide
/-- The check value of CRC-32C's published parameters (R298). -/
theorem test_crc32c : crc32c (ascii "123456789") = 0xE3069283 := by decide +kernel
/-- FIPS 180-4's digest of "abc". -/
theorem test_sha256 : (sha256 (ascii "abc")).take 8 = [0xba, 0x78, 0x16, 0xbf, 0x8f, 0x01, 0xcf, 0xea] := by decide +kernel
/-- FIPS 197's S-box at its worked byte. -/
theorem test_sbox : subByte 0x53 = 0xED := by decide +kernel
/-- R611, R612: standby power starts the Shepherd; a compute-die release without it changes nothing. -/
theorem test_release_needs_standby : exec .computeDieRelease State.reset = .next State.reset := rfl

end Sys2Proof.Tests
end

section
/-!
SUPPORT. The queue's front, and the state as manufactured (logs 1 to 3): O1 and O3.
-/
namespace Sys2Proof.Machine

/-- Settles O1, by the step's own two cases. -/
theorem stepRunsFront : Obligations.StepRunsFront := by
  intro s c rest hq
  unfold step
  rw [hq]

/-- A vector of one value holds it everywhere, and the default beyond its end. -/
theorem vget_replicate {α : Type} (n i : Nat) (d : α) : vget (Vector.replicate n d) i d = d := by
  simp only [vget, Vector.toList_replicate, List.getD_eq_getElem?_getD, List.getElem?_replicate]
  split <;> rfl

/-- The memories of the package as manufactured are in their canonical form: each lists nothing. -/
theorem canonical_reset : Canonical State.reset where
  hbm := rfl
  board := rfl
  locals c := by rw [lmem, show State.reset.rod.mem = Vector.replicate 16 [] from rfl, vget_replicate]; rfl
  mirror _ h := by cases h
  norm := rfl
  tokens := rfl
  checks c hc := by
    have hnil : c = [] := by simpa [State.reset] using hc
    subst hnil
    exact ⟨rfl, rfl⟩

/-- Settles O3: every field as the state's defaults give it. -/
theorem resetState : Obligations.ResetState := by
  refine ⟨canonical_reset, rfl, rfl, rfl, rfl, rfl, rfl, rfl, rfl, fun l => ?_, fun i => ?_⟩
  · rw [linkAt, show State.reset.tet.link = Vector.replicate 2 {} from rfl, vget_replicate]
  · rw [leadAt, show State.reset.lead.lead = Vector.replicate 8 {} from rfl, vget_replicate]

end Sys2Proof.Machine
end

section
/-!
SUPPORT. What stands before a request of the Tether (R395, R399, R402, R408, R445, R557; logs 26, 59, 117), what a response leaves in its
session, and what raising a code changes: O32.
-/
namespace Sys2Proof.Machine

/-! ## Links and sessions -/

theorem linkAt_setLink_same (s : State) (l : Fin 2) (x : TLink) : linkAt (setLink s l x) l = x := vget_vset_same _ l.isLt _ _

theorem linkAt_setLink_other (s : State) {l l' : Nat} (h : l' ≠ l) (x : TLink) : linkAt (setLink s l x) l' = linkAt s l' :=
  vget_vset_other _ h _ _

theorem linkAt_congr {s t : State} (h : t.tet.link = s.tet.link) (l : Nat) : linkAt t l = linkAt s l := by
  unfold linkAt; rw [h]

theorem sess_congr {s t : State} (h : t.tet.link = s.tet.link) (l : Nat) (shp : Bool) : sess t l shp = sess s l shp := by
  unfold sess; rw [linkAt_congr h]

theorem sess_setSess_same (s : State) (l : Fin 2) (shp : Bool) (x : Sess) : sess (setSess s l shp x) l shp = x := by
  unfold setSess sess
  rw [linkAt_setLink_same]
  cases shp <;> rfl

theorem sess_setSess_other (s : State) {l : Fin 2} {shp : Bool} {l' : Nat} {p : Bool} (h : l' ≠ l.val ∨ p ≠ shp) (x : Sess) :
    sess (setSess s l shp x) l' p = sess s l' p := by
  unfold setSess sess
  by_cases hl : l' = l.val
  · subst hl
    rw [linkAt_setLink_same]
    cases p <;> cases shp <;> simp at h ⊢
  · rw [linkAt_setLink_other s hl]

/-- An accepted frame leaves every session open or closed as it was. -/
theorem sess_tetRecv_isOpen (s : State) (l : Fin 2) (shp : Bool) (l' : Nat) (p : Bool) :
    (sess (tetRecv s l shp) l' p).isOpen = (sess s l' p).isOpen := by
  unfold tetRecv
  by_cases h : l' = l.val ∧ p = shp
  · obtain ⟨rfl, rfl⟩ := h
    rw [sess_setSess_same]
  · rw [sess_setSess_other s (by tauto)]

/-- A request was accepted in its session, and a response sent there, with nothing else on the links in between: the request is
answered. -/
theorem answered_respond {s u : State} {r : Req} {k : ReqKind} (hu : u.tet.link = (tetRecv s r.link k.shp).tet.link)
    (status : Nat) (payload : Bytes) : Answered s (respond u r k.shp k.type status payload) r k status payload := by
  have hx : ∀ l p, sess u l p = sess (tetRecv s r.link k.shp) l p := fun l p => sess_congr hu l p
  refine ⟨?_, fun l p h => ?_⟩
  · rw [respond, tetSend, sess_setSess_same, hx, tetRecv, sess_setSess_same]
  · rw [respond, tetSend, sess_setSess_other _ h, hx, tetRecv, sess_setSess_other _ h]

/-! ## What stands before a request -/

/-- The compute die serves, or the request is the Shepherd's: it is answered in the session of its own kind. -/
theorem answersShp_eq {s : State} {k : ReqKind} (h : k.shp = false → s.die = .serving) (r : Req) : answersShp s r k = k.shp := by
  unfold answersShp
  cases hk : k.shp
  · simp [h hk]
  · rfl

/-- While the compute die does not serve, a request that is its own is answered in the link's Shepherd session where one is open. -/
theorem answersShp_die {s : State} {k : ReqKind} (hk : k.shp = false) (h : s.die ≠ .serving) (r : Req) :
    answersShp s r k = (linkAt s r.link).shp.isOpen := by
  simp [answersShp, hk, h]

/-- An accepted frame changes nothing on which the server of a request rests. -/
theorem answersShp_tetRecv (s : State) (r : Req) (k : ReqKind) (shp : Bool) : answersShp (tetRecv s r.link shp) r k = answersShp s r k := by
  have h := sess_tetRecv_isOpen s r.link shp r.link true
  simp only [sess, if_true] at h
  unfold answersShp
  rw [h]
  rfl

/-- Nothing arrives on a link that is down. -/
theorem request_down {s : State} {r : Req} (h : (linkAt s r.link).up = false) (k : ReqKind) (f : State → State) :
    request s r k f = s := by
  unfold request
  rw [h]
  rfl

/-- What stands before a request on a link that is up, in its order, read from the state as the request comes. -/
theorem request_up {s : State} {r : Req} (hup : (linkAt s r.link).up = true) (k : ReqKind) (f : State → State) :
    request s r k f =
      if maxAhead ≤ r.ahead then respond (tetRecv s r.link (answersShp s r k)) r (answersShp s r k) k.type 3 []
      else if s.sec.owner.isNone && !k.early then refuseReq (tetRecv s r.link (answersShp s r k)) r k 0x0A0E0001
      else if k.shp && !(s.shp.serving || (s.shp.rom && k.rom)) then respond (tetRecv s r.link (answersShp s r k)) r true k.type 2 []
      else if !k.shp && s.die != .serving then notAvailable (tetRecv s r.link (answersShp s r k)) r k
      else if !k.boot && !(sess s r.link k.shp).isOpen then refuseReq (tetRecv s r.link (answersShp s r k)) r k 0x0A0E0001
      else if r.parity = .command then refuseReq (tetRecv s r.link (answersShp s r k)) r k 0x04010003
      else f (tetRecv s r.link (answersShp s r k)) := by
  unfold request
  rw [hup]
  simp only [answersShp_tetRecv, sess_tetRecv_isOpen]
  rfl

/-- R399: the request beyond 64 outstanding. -/
theorem request_full {s : State} {r : Req} (hup : (linkAt s r.link).up = true) (h : 64 ≤ r.ahead) (k : ReqKind) (f : State → State) :
    request s r k f = respond (tetRecv s r.link (answersShp s r k)) r (answersShp s r k) k.type 3 [] := by
  rw [request_up hup]
  exact if_pos h

/-- R408: a request that only the compute die could serve, while it does not. -/
theorem request_notServing {s : State} {r : Req} {k : ReqKind} (hup : (linkAt s r.link).up = true) (ha : r.ahead < 64)
    (hd : s.die ≠ .serving) (ho : s.sec.owner ≠ none) (hk : k.shp = false) (f : State → State) :
    request s r k f = notAvailable (tetRecv s r.link (linkAt s r.link).shp.isOpen) r k := by
  rw [request_up hup, answersShp_die hk hd]
  simp [maxAhead, ha, ho, hk, hd]

/-- R554, R557: before enrolment, and outside a session. -/
theorem request_noSession {s : State} {r : Req} {k : ReqKind} (hup : (linkAt s r.link).up = true) (ha : r.ahead < 64)
    (hd : s.die = .serving) (hk : k.shp = false) (he : k.early = false) (hb : k.boot = false)
    (h : s.sec.owner = none ∨ (sess s r.link false).isOpen = false) (f : State → State) :
    request s r k f = refuseReq (tetRecv s r.link k.shp) r k 0x0A0E0001 := by
  rw [request_up hup, answersShp_eq fun _ => hd]
  rcases h with h | h <;> simp [maxAhead, ha, hk, hd, he, hb, h]

/-- R445: odd parity of the command. -/
theorem request_oddCommand {s : State} {r : Req} {k : ReqKind} (hup : (linkAt s r.link).up = true) (ha : r.ahead < 64)
    (hd : s.die = .serving) (hk : k.shp = false) (ho : s.sec.owner ≠ none) (h : (sess s r.link false).isOpen = true)
    (hp : r.parity = .command) (f : State → State) :
    request s r k f = refuseReq (tetRecv s r.link k.shp) r k 0x04010003 := by
  rw [request_up hup, answersShp_eq fun _ => hd]
  simp [maxAhead, ha, hk, hd, ho, h, hp]

/-- A request that nothing stands before is served. -/
theorem request_admitted {s : State} {r : Req} {k : ReqKind} (h : Admits s r k) (f : State → State) :
    request s r k f = f (tetRecv s r.link k.shp) := by
  obtain ⟨hup, howner, hshp, hdie, hopen, hpar, hahead⟩ := h
  have howner' : (s.sec.owner.isNone && !k.early) = false := by
    rcases howner with h | h
    · simp [Option.isSome_iff_ne_none.mp h]
    · simp [h]
  have hshp' : (k.shp && !(s.shp.serving || (s.shp.rom && k.rom))) = false := by
    cases hk : k.shp
    · rfl
    · rcases hshp hk with h | ⟨h, h'⟩ <;> simp [*]
  have hdie' : (!k.shp && s.die != .serving) = false := by
    cases hk : k.shp
    · simp [hdie hk]
    · rfl
  have hopen' : (!k.boot && !(sess s r.link k.shp).isOpen) = false := by
    rcases hopen with h | h <;> simp [h]
  rw [request_up hup, answersShp_eq hdie, if_neg (Nat.not_le.mpr hahead), howner', hshp', hdie', hopen', if_neg hpar]
  rfl

/-- An admitted request of the compute die finds it serving. -/
theorem admits_serving {s : State} {r : Req} {k : ReqKind} (h : Admits s r k) (hk : k.shp = false) : s.die = .serving := by
  obtain ⟨_, _, _, hdie, _⟩ := h
  exact hdie hk

/-- A die that serves is released, whatever frame has been accepted. -/
theorem tetRecv_released {s : State} (hd : s.die = .serving) (l : Nat) (shp : Bool) : (tetRecv s l shp).die ≠ .off := by
  rw [show (tetRecv s l shp).die = s.die from rfl, hd]
  decide

/-! ## What registers read after an accepted frame -/

/-- What an accepted frame leaves of every link: all but the counting of its session. -/
theorem linkAt_tetRecv (s : State) (l : Fin 2) (shp : Bool) (l' : Nat) :
    (linkAt (tetRecv s l shp) l').up = (linkAt s l').up ∧ (linkAt (tetRecv s l shp) l').lost = (linkAt s l').lost ∧
    (linkAt (tetRecv s l shp) l').retry = (linkAt s l').retry ∧
    (linkAt (tetRecv s l shp) l').die.isOpen = (linkAt s l').die.isOpen ∧
    (linkAt (tetRecv s l shp) l').shp.isOpen = (linkAt s l').shp.isOpen := by
  unfold tetRecv setSess
  by_cases hl : l' = l.val
  · subst hl
    rw [linkAt_setLink_same]
    cases shp <;> exact ⟨rfl, rfl, rfl, rfl, rfl⟩
  · rw [linkAt_setLink_other s hl]
    exact ⟨rfl, rfl, rfl, rfl, rfl⟩

theorem tetReg_tetRecv (s : State) (l : Fin 2) (shp : Bool) (off : Nat) : tetReg (tetRecv s l shp) off = tetReg s off := by
  have h0 := linkAt_tetRecv s l shp 0
  have h1 := linkAt_tetRecv s l shp 1
  have hs : tetStatus (tetRecv s l shp) = tetStatus s := by
    simp only [tetStatus, perLink, h0, h1]
    rfl
  simp only [tetReg, hs, h0, h1]
  rfl

theorem secReg_tetRecv (s : State) (l : Fin 2) (shp : Bool) (off : Nat) : secReg (tetRecv s l shp) off = secReg s off := by
  simp only [secReg, perLink, linkAt_tetRecv]
  rfl

theorem dieReg_tetRecv (s : State) (l : Fin 2) (shp : Bool) (addr : Nat) : dieReg (tetRecv s l shp) addr = dieReg s addr := by
  simp only [dieReg, tetReg_tetRecv, secReg_tetRecv]
  rfl

/-! ## Codes -/

/-- Raising a code while the compute die is released, where no counter is named for the code. -/
theorem raise_released {s : State} (h : s.die ≠ .off) {code : Nat} {u : EvUnit} {b : Nat} (hb : eventBit code = some (u, b))
    (hc : ∀ t, countCode t code = t) (eff : Effect) (detail : Bytes) :
    raise s code eff detail = { setEvent s u b with
      knl := { (setEvent s u b).knl with
        inflight := s.knl.inflight ++ [⟨BitVec.ofNat 32 code, eff, detail, s.sys.drill⟩] } } := by
  have hset : (setEvent s u b).die = s.die ∧ (setEvent s u b).knl.inflight = s.knl.inflight ∧ (setEvent s u b).sys = s.sys := by
    cases u <;> exact ⟨rfl, rfl, rfl⟩
  obtain ⟨hdie, hin, hsys⟩ := hset
  unfold raise
  rw [hb]
  simp only [hc, hdie, if_neg h, hin, hsys]

/-- A code whose EVENT bit is SEC's changes SEC's EVENT and the codes on their way. -/
theorem raise_onlySec {s : State} (h : s.die ≠ .off) {code b : Nat} (hb : eventBit code = some (.sec, b))
    (hc : ∀ t, countCode t code = t) (eff : Effect) (detail : Bytes) :
    raise s code eff detail = { s with
      sec := { s.sec with event := orBit s.sec.event b }
      knl := { s.knl with inflight := s.knl.inflight ++ [⟨BitVec.ofNat 32 code, eff, detail, s.sys.drill⟩] } } :=
  raise_released h hb hc eff detail

/-- A code whose EVENT bit is the Kennel's changes the Kennel's EVENT and the codes on their way. -/
theorem raise_onlyKnl {s : State} (h : s.die ≠ .off) {code b : Nat} (hb : eventBit code = some (.knl, b))
    (hc : ∀ t, countCode t code = t) (eff : Effect) (detail : Bytes) :
    raise s code eff detail = { s with
      knl := { s.knl with
        event := orBit s.knl.event b
        inflight := s.knl.inflight ++ [⟨BitVec.ofNat 32 code, eff, detail, s.sys.drill⟩] } } :=
  raise_released h hb hc eff detail

/-- A code that has no EVENT bit and no counter is only on its way. -/
theorem raise_noEvent {s : State} (h : s.die ≠ .off) {code : Nat} (hb : eventBit code = none)
    (hc : ∀ t, countCode t code = t) (eff : Effect) (detail : Bytes) :
    raise s code eff detail =
      { s with knl := { s.knl with inflight := s.knl.inflight ++ [⟨BitVec.ofNat 32 code, eff, detail, s.sys.drill⟩] } } := by
  unfold raise
  rw [hb]
  simp only [hc, if_neg h]

/-! ## Refused requests -/

/-- Nothing changed between s and t but what refusing a request does: its code's EVENT bit, the Kennel's or SEC's, the code on its way,
and the Tether's links. -/
def OnlyRefusal (s t : State) : Prop :=
  t = { s with
    knl := { s.knl with inflight := t.knl.inflight, event := t.knl.event }
    sec := { s.sec with event := t.sec.event }
    tet := { s.tet with link := t.tet.link } }

/-- A request of the compute die that is refused with a code of SEC. -/
theorem refuseReq_sec {s : State} {r : Req} {k : ReqKind} (hd : s.die = .serving) {code b : Nat}
    (hb : eventBit code = some (.sec, b)) (hc : ∀ t, countCode t code = t) :
    let t := refuseReq (tetRecv s r.link k.shp) r k code
    OnItsWay t code .refusedTally [] s.sys.drill ∧ Answered s t r k 1 (natLE 4 code) ∧ OnlyRefusal s t ∧ t.knl.event = s.knl.event := by
  simp only [refuseReq, respondCode]
  rw [raise_onlySec (tetRecv_released hd _ _) hb hc]
  exact ⟨List.mem_append_right _ (List.mem_singleton.mpr rfl), answered_respond rfl .., rfl, rfl⟩

/-- A request of the compute die that is refused with a code of the Kennel. -/
theorem refuseReq_knl {s : State} {r : Req} {k : ReqKind} (hd : s.die = .serving) {code b : Nat}
    (hb : eventBit code = some (.knl, b)) (hc : ∀ t, countCode t code = t) :
    let t := refuseReq (tetRecv s r.link k.shp) r k code
    OnItsWay t code .refusedTally [] s.sys.drill ∧ Answered s t r k 1 (natLE 4 code) ∧ OnlyRefusal s t ∧ t.sec = s.sec := by
  simp only [refuseReq, respondCode]
  rw [raise_onlyKnl (tetRecv_released hd _ _) hb hc]
  exact ⟨List.mem_append_right _ (List.mem_singleton.mpr rfl), answered_respond rfl .., rfl, rfl⟩

/-! ## REG_WRITE -/

/-- R445: a REG_WRITE whose register access has odd parity. -/
theorem regWrite_oddAccess {s : State} {r : Req} (h : Admits s r kWrite) (hp : r.parity = .access) (addr v : Nat) :
    regWrite s r addr v = refuseReq (tetRecv s r.link kWrite.shp) r kWrite 0x04010002 := by
  unfold regWrite serveWrite
  rw [request_admitted (k := { kWrite with named := shpAddr addr }) h, if_pos hp]
  rfl

/-- R1, R6: a REG_WRITE whose address no register has. -/
theorem regWrite_accessErr {s : State} {r : Req} (h : Admits s r kWrite) (hp : r.parity = .even) {addr code : Nat}
    (he : accessErr (dieReg s) addr = some code) (v : Nat) :
    regWrite s r addr v = respondCode (tetRecv s r.link kWrite.shp) r kWrite.shp kWrite.type code := by
  have he' : accessErr (dieReg (tetRecv s r.link kWrite.shp)) addr = some code := by simpa only [accessErr, dieReg_tetRecv] using he
  unfold regWrite serveWrite
  rw [request_admitted (k := { kWrite with named := shpAddr addr }) h, if_neg (by rw [hp]; decide)]
  simp only [he']

/-- A REG_WRITE that reaches its register and that no rule refuses. -/
theorem regWrite_done {s t : State} {r : Req} (h : Admits s r kWrite) (hp : r.parity = .even) {addr v : Nat}
    (he : accessErr (dieReg s) addr = none) (hw : writeDie (tetRecv s r.link kWrite.shp) false addr v = okWrite t) :
    regWrite s r addr v = done t r kWrite := by
  have he' : accessErr (dieReg (tetRecv s r.link kWrite.shp)) addr = none := by simpa only [accessErr, dieReg_tetRecv] using he
  unfold regWrite serveWrite
  rw [request_admitted (k := { kWrite with named := shpAddr addr }) h, if_neg (by rw [hp]; decide)]
  simp only [he']
  rw [show ({ kWrite with named := shpAddr addr } : ReqKind).shp = kWrite.shp from rfl, hw]
  rfl

/-- A REG_WRITE runs to the state that `regWrite` makes. -/
theorem runs_regWrite {s t : State} {r : Req} {addr value : BitVec 32} {P : State → Prop}
    (h : regWrite s r addr.toNat value.toNat = t) (ht : P t) : Runs (.regWrite r addr value) s P :=
  ⟨t, congrArg Host.Outcome.next h, ht⟩

/-- R6, R7, R408: how the Shepherd answers a REG_WRITE while the compute die does not serve. -/
theorem notAvailable_write (s : State) (r : Req) (addr : Nat) :
    let k : ReqKind := { kWrite with shp := (linkAt s r.link).shp.isOpen }
    let t := notAvailable (tetRecv s r.link k.shp) r { kWrite with named := shpAddr addr }
    (shpAddr addr = true → Answered s t r k 1 (natLE 4 0x0B010005)) ∧ (shpAddr addr = false → Answered s t r k 2 []) ∧
    t = { s with tet := { s.tet with link := t.tet.link } } := by
  intro k t
  obtain ⟨-, -, -, -, hstand⟩ := linkAt_tetRecv s r.link k.shp r.link
  have ht : t = if shpAddr addr then respond (tetRecv s r.link k.shp) r k.shp k.type 1 (natLE 4 0x0B010005)
      else respond (tetRecv s r.link k.shp) r k.shp k.type 2 [] := by
    simp only [t, notAvailable, respondCode, standIn, hstand]
    rfl
  rw [ht]
  refine ⟨fun h => ?_, fun h => ?_, ?_⟩
  · rw [if_pos h]; exact answered_respond rfl ..
  · rw [h]; exact answered_respond rfl ..
  · split <;> rfl

/-- Settles O32: the checks of `request` in their order, then those of the register access. -/
theorem requestsRefused : Obligations.RequestsRefused := by
  intro s r addr value quiet refused
  have refusedSec (h : regWrite s r addr.toNat value.toNat = refuseReq (tetRecv s r.link kWrite.shp) r kWrite 0x0A0E0001)
      (hd : s.die = .serving) : refused 0x0A0E0001 := by
    obtain ⟨hway, hans, hframe, hknl⟩ := refuseReq_sec (r := r) (k := kWrite) hd (code := 0x0A0E0001) rfl fun _ => rfl
    exact runs_regWrite h ⟨hway, hans, hframe, fun _ => hknl, fun h => absurd rfl h⟩
  have refusedKnl {code b : Nat} (h : regWrite s r addr.toNat value.toNat = refuseReq (tetRecv s r.link kWrite.shp) r kWrite code)
      (hd : s.die = .serving) (hb : eventBit code = some (.knl, b)) (hc : ∀ t, countCode t code = t) (hne : code ≠ 0x0A0E0001) :
      refused code := by
    obtain ⟨hway, hans, hframe, hsec⟩ := refuseReq_knl (r := r) (k := kWrite) hd hb hc
    exact runs_regWrite h ⟨hway, hans, hframe, fun h => absurd h hne, fun _ => hsec⟩
  refine ⟨fun hdown => ?down, fun hup ha => ?full, fun hup ha hd ho => ?notServing,
    fun hup ha hd => ⟨fun h => ?noSession, fun ho hs hp => ?oddCommand⟩,
    fun h => ⟨fun hp => ?oddAccess, fun hp hal => ?unaligned, fun hp hal hreg => ?noRegister⟩,
    fun type ht h => ?reserved, fun type ht => ?notReserved⟩
  case down =>
    refine congrArg Host.Outcome.next ?_
    unfold regWrite serveWrite
    exact request_down hdown ..
  case full =>
    refine runs_regWrite (by unfold regWrite serveWrite; exact request_full hup ha ..) ⟨?_, rfl⟩
    exact answered_respond (k := { kWrite with shp := answersShp s r kWrite }) rfl ..
  case notServing =>
    obtain ⟨hnamed, hother, hframe⟩ := notAvailable_write s r addr.toNat
    refine runs_regWrite (by unfold regWrite serveWrite; exact request_notServing hup ha hd ho rfl _)
      ⟨fun h1 h2 => hnamed ?_, fun h => hother ?_, hframe⟩
    · simp only [shpAddr, decide_eq_true_eq]; omega
    · simp only [shpAddr, decide_eq_false_iff_not]; omega
  case noSession =>
    refine refusedSec ?_ hd
    unfold regWrite serveWrite
    exact request_noSession hup ha hd rfl rfl rfl h _
  case oddCommand =>
    refine refusedKnl ?_ hd rfl (fun _ => rfl) (by decide)
    unfold regWrite serveWrite
    exact request_oddCommand hup ha hd rfl ho hs hp _
  case oddAccess => exact refusedKnl (regWrite_oddAccess h hp ..) (admits_serving h rfl) rfl (fun _ => rfl) (by decide)
  case unaligned => exact runs_regWrite (regWrite_accessErr h hp (if_pos hal) _) ⟨answered_respond rfl .., rfl⟩
  case noRegister =>
    have he : accessErr (dieReg s) addr.toNat = some 0x0B010005 := by simp [accessErr, hal, hreg]
    exact runs_regWrite (regWrite_accessErr h hp he _) ⟨answered_respond rfl .., rfl⟩
  case reserved =>
    have hrun : reservedMessage s r type.toNat = respond { tetRecv s r.link false with
        knl := { s.knl with inflight :=
          s.knl.inflight ++ [⟨0x080B000A, .refused, natLE 4 type.toNat ++ natLE 4 r.id.toNat, s.sys.drill⟩] } }
        r false type.toNat 1 (natLE 4 0x080B000A) := by
      unfold reservedMessage
      rw [request_admitted h, raise_noEvent (tetRecv_released (admits_serving h rfl) _ _) rfl fun _ => rfl]
      rfl
    refine ⟨_, congrArg Host.Outcome.next ((if_pos ht).trans hrun), ?_, ?_, rfl⟩
    · exact List.mem_append_right _ (List.mem_singleton.mpr rfl)
    · exact answered_respond (k := { type := type.toNat }) rfl ..
  case notReserved => exact congrArg Host.Outcome.next (if_neg (by rw [ht]; decide))

end Sys2Proof.Machine
end

section
/-!
SUPPORT. What a REG_WRITE does to each register of the model's tables (R3, R563; log 100): O34.
-/
namespace Sys2Proof.Machine

/-- A write of a register of a lock group, or of none (R563). -/
def groupWrite (s : State) (g : Option Nat) (f : State → State) : State :=
  match g with
  | some i => lockWrite s false i f
  | none => f s

/-- A bit of a word's number is the word's bit. -/
theorem bitOf_toNat {n : Nat} (v : BitVec n) (i : Nat) : bitOf v.toNat i = v.getLsbD i := by
  rw [bitOf, BitVec.getLsbD, Nat.testBit_eq_decide_div_mod_eq]
  rfl

theorem lockedTo_iff (s : State) (i : Nat) : lockedTo s false i = true ↔ locked s (some i) := by
  simp [lockedTo, locked, bitOf_toNat]

theorem groupWrite_unlocked {s : State} {g : Option Nat} (h : ¬ locked s g) (f : State → State) : groupWrite s g f = f s := by
  cases g with
  | none => rfl
  | some i => exact if_neg fun hl => h ((lockedTo_iff s i).mp hl)

theorem groupWrite_locked {s : State} {g : Option Nat} (h : locked s g) (f : State → State) :
    groupWrite s g f = raise s 0x0A0E0002 .event := by
  cases g with
  | none => obtain ⟨i, hi, _⟩ := h; cases hi
  | some i => exact if_pos ((lockedTo_iff s i).mpr h)

/-- The register of a row is there, and a write of it does what the row says, unless the row's lock group is locked. -/
def RowWrites (row : WriteRow) : Prop :=
  ∀ (u : State) (v : BitVec 32), accessErr (dieReg u) row.addr.toNat = none ∧
    writeDie u false row.addr.toNat v.toNat = okWrite (groupWrite u row.group fun t => row.write t v)

theorem clearBits_toNat (ev v : Word) : clearBits ev v.toNat = ev &&& ~~~v := by
  rw [clearBits, BitVec.ofNat_toNat, BitVec.setWidth_eq]

theorem planBits_toNat (v : BitVec 32) : BitVec.ofNat 32 (v.toNat &&& planBits) = v &&& 0x73FF := by
  apply BitVec.eq_of_toNat_eq
  rw [BitVec.toNat_ofNat, BitVec.toNat_and]
  exact Nat.mod_eq_of_lt (lt_of_le_of_lt Nat.and_le_left v.isLt)

/-- The EVENT registers clear the bits at which the value has ones. -/
theorem eventRows_write : ∀ row ∈ eventRows, RowWrites row := by
  simp only [eventRows, ← clearBits_toNat, List.forall_mem_cons, List.not_mem_nil, false_imp_iff, implies_true, and_true]
  and_intros
  all_goals exact fun u v => ⟨rfl, rfl⟩

/-- The eight registers of LEAD_PLAN. -/
theorem planRow_write (i : Nat) (hi : i < 8) : RowWrites ⟨BitVec.ofNat 32 (0x80040 + 4 * i), some 0, fun s v =>
    { s with lead := { s.lead with plan := vset s.lead.plan i (v &&& 0x73FF) } }⟩ := by
  simp only [← planBits_toNat]
  interval_cases i <;> exact fun u v => ⟨rfl, rfl⟩

/-- The eight registers of LEAD_EXPECT. -/
theorem expectRow_write (i : Nat) (hi : i < 8) : RowWrites ⟨BitVec.ofNat 32 (0x80060 + 4 * i), some 0, fun s v =>
    { s with lead := { s.lead with expect := vset s.lead.expect i (v.setWidth 24) } }⟩ := by
  simp only [← BitVec.ofNat_toNat]
  interval_cases i <;> exact fun u v => ⟨rfl, rfl⟩

/-- The registers that hold the value written, cut to their fields. -/
theorem valueRows_write : ∀ row ∈ valueRows, RowWrites row := by
  simp only [valueRows, List.forall_mem_append, List.forall_mem_cons, List.not_mem_nil, false_imp_iff, implies_true, and_true,
    List.forall_mem_map, List.mem_range]
  refine ⟨⟨⟨?hangCfg, ?extRate, ?selfId, ?colTimeout, ?epochLo, ?tetTimeout, ?partner, ?snpTimeout, ?budget, ?derate, ?cursor⟩,
    planRow_write⟩, expectRow_write⟩
  case epochLo =>
    refine fun u v => ⟨rfl, ?_⟩
    show okWrite (setTim u { u.tim with epochLo := BitVec.ofNat 32 v.toNat }) = _
    rw [BitVec.ofNat_toNat, BitVec.setWidth_eq]
    rfl
  case derate =>
    refine fun u v => ⟨rfl, ?_⟩
    show okWrite (lockWrite u false 3 fun s => setGov s { s.gov with derate := BitVec.ofNat 32 v.toNat }) = _
    rw [BitVec.ofNat_toNat, BitVec.setWidth_eq]
    rfl
  all_goals
    simp only [← BitVec.ofNat_toNat, ← bitOf_toNat]
    exact fun u v => ⟨rfl, rfl⟩

/-- Read-only registers are there, and a write leaves them. -/
theorem constRows_write : ∀ a ∈ constRows, ∀ (u : State) (v : Nat), accessErr (dieReg u) a.toNat = none ∧
    writeDie u false a.toNat v = okWrite u := by
  simp only [constRows, List.forall_mem_cons, List.not_mem_nil, false_imp_iff, implies_true, and_true]
  and_intros
  all_goals exact fun u v => ⟨rfl, rfl⟩

/-- What a row's write makes of the state does not touch the links, nor read them. -/
def RowLocal (row : WriteRow) : Prop := ∀ (s : State) (l : Vector TLink 2) (v : BitVec 32),
  row.write { s with tet := { s.tet with link := l } } v = { row.write s v with tet := { (row.write s v).tet with link := l } }

theorem rows_local : ∀ row ∈ valueRows ++ eventRows, RowLocal row := by
  simp only [valueRows, eventRows, List.forall_mem_append, List.forall_mem_cons, List.not_mem_nil, false_imp_iff, implies_true, and_true,
    List.forall_mem_map, List.mem_range]
  and_intros
  all_goals intros; exact fun s l v => rfl

/-- Settles O34, by the rows' writes: each is an access without error whose write ends in `groupWrite` or leaves the state. -/
theorem registerWrites : Obligations.RegisterWrites := by
  refine ⟨fun s r v h hp row hrow => ?_, fun s r v h hp a ha => ?_⟩
  · have hwrite : RowWrites row := by
      rcases List.mem_append.mp hrow with h | h
      · exact valueRows_write row h
      · exact eventRows_write row h
    obtain ⟨hacc, -⟩ := hwrite s v
    obtain ⟨-, hdie⟩ := hwrite (tetRecv s r.link kWrite.shp) v
    refine ⟨fun hl => ?_, fun hl => ?_⟩
    · rw [groupWrite_unlocked (s := tetRecv s r.link kWrite.shp) hl] at hdie
      have hloc : row.write (tetRecv s r.link kWrite.shp) v = { row.write s v with
          tet := { (row.write s v).tet with link := (tetRecv s r.link kWrite.shp).tet.link } } := rows_local row hrow s _ v
      rw [hloc] at hdie
      exact runs_regWrite (regWrite_done h hp hacc hdie) ⟨answered_respond rfl .., rfl⟩
    · have hu := tetRecv_released (admits_serving h rfl) r.link kWrite.shp
      rw [groupWrite_locked (s := tetRecv s r.link kWrite.shp) hl, raise_onlySec hu rfl fun _ => rfl] at hdie
      exact runs_regWrite (regWrite_done h hp hacc hdie)
        ⟨answered_respond rfl .., List.mem_append_right _ (List.mem_singleton.mpr rfl), rfl⟩
  · obtain ⟨hacc, -⟩ := constRows_write a ha s v.toNat
    obtain ⟨-, hdie⟩ := constRows_write a ha (tetRecv s r.link kWrite.shp) v.toNat
    exact runs_regWrite (regWrite_done h hp hacc hdie) ⟨answered_respond rfl .., rfl⟩

end Sys2Proof.Machine
end

section
/-!
SUPPORT. The queue of waiting commands (log 3): every operation of the model leaves it as it is. One lemma an operation, in the
order of the model's files; that every command runs, O4, is assembled from them.
-/
namespace Sys2Proof.Machine

/-- The queue of whichever state a condition chooses. -/
@[simp] theorem pending_ite (c : Prop) [Decidable c] (a b : State) :
    (if c then a else b).pending = if c then a.pending else b.pending :=
  apply_ite State.pending c a b

/-- A fold over a larger value keeps the queue of the state in it where each of its steps does. -/
theorem foldl_state_pending {α β : Type} {f : β → α → β} (st : β → State) (hf : ∀ r x, (st (f r x)).pending = (st r).pending)
    (xs : List α) (r : β) : (st (xs.foldl f r)).pending = (st r).pending := by
  induction xs generalizing r with
  | nil => rfl
  | cons x xs ih => rw [List.foldl_cons, ih, hf]

/-- A fold of state changes that each keep the queue keeps it. -/
@[simp] theorem foldl_pending {α : Type} {f : State → α → State} (hf : ∀ s x, (f s x).pending = s.pending) (xs : List α) (s : State) :
    (xs.foldl f s).pending = s.pending :=
  foldl_state_pending id hf xs s

/-! ## Memory, power domains and strands -/

@[simp] theorem clearHbm_pending (s : State) : (clearHbm s).pending = s.pending := by rfl

@[simp] theorem startRamps_pending (s : State) : (startRamps s).pending = s.pending := by rfl

@[simp] theorem requestDomains_pending (s : State) (m : BitVec 50) : (requestDomains s m).pending = s.pending := by rfl

@[simp] theorem gateDomains_pending (s : State) (m : BitVec 50) : (gateDomains s m).pending = s.pending := by rfl

@[simp] theorem protectPage_pending (s : State) (a : Nat) : (protectPage s a).pending = s.pending := by
  unfold protectPage
  repeat' split
  all_goals simp

@[simp] theorem protect_pending (s : State) (a len : Nat) : (protect s a len).pending = s.pending := by simp [protect]

@[simp] theorem hbmWrite_pending (s : State) (a : Nat) (b : Bytes) : (hbmWrite s a b).pending = s.pending := by simp [hbmWrite]

@[simp] theorem locWrite_pending (s : State) (l : Nat) (b : Bytes) : (locWrite s l b).pending = s.pending := by simp [locWrite]

@[simp] theorem setHold_pending (s : State) (n : Nat) (h : BitVec 4) : (setHold s n h).pending = s.pending := by rfl

@[simp] theorem draw_pending (s : State) : (draw s).2.pending = s.pending := by rfl

/-! ## Status and sending over the Tether -/

@[simp] theorem snapshot_pending (s : State) : (snapshot s).2.pending = s.pending := by rfl

@[simp] theorem tetBulk_pending (s : State) (l : Nat) (b : TBody) : (tetBulk s l b).pending = s.pending := by rfl

@[simp] theorem notify_pending (s : State) (reason : Reason) (code : Nat) : (notify s reason code).pending = s.pending := by
  simp only [notify]
  split <;> simp

@[simp] theorem sendHeld_pending (s : State) : (sendHeld s).pending = s.pending := by
  simp only [sendHeld]
  split
  · rw [foldl_pending fun _ _ => tetSend_pending ..]
  · rfl

/-! ## Codes and SYS_STATE -/

@[simp] theorem setEvent_pending (s : State) (u : EvUnit) (b : Nat) : (setEvent s u b).pending = s.pending := by
  unfold setEvent
  split <;> simp

@[simp] theorem countCode_pending (s : State) (code : Nat) : (countCode s code).pending = s.pending := by
  unfold countCode
  split <;> simp

@[simp] theorem storeRec_pending (s : State) (r : TRec) : (storeRec s r).pending = s.pending := by simp [storeRec]

@[simp] theorem techCode_pending (s : State) (code : Word) : (techCode s code).pending = s.pending := by rfl

@[simp] theorem shepherdRecord_pending (s : State) (code : Nat) (eff : Effect) (detail : Bytes) :
    (shepherdRecord s code eff detail).pending = s.pending := by
  simp [shepherdRecord]

@[simp] theorem raise_pending (s : State) (code : Nat) (eff : Effect) (detail : Bytes) : (raise s code eff detail).pending = s.pending := by
  unfold raise
  split <;> simp

@[simp] theorem raiseSev_pending (s : State) (code sev : Nat) (detail : Bytes) : (raiseSev s code sev detail).pending = s.pending := by
  unfold raiseSev
  split <;> simp

@[simp] theorem raiseAll_pending (s : State) (cs : List (Nat × Effect × Bytes)) : (raiseAll s cs).pending = s.pending := by simp [raiseAll]

@[simp] theorem issueFault_pending (s : State) (n : Nat) : (issueFault s n).pending = s.pending := by simp [issueFault]

@[simp] theorem refuse_pending (s : State) (n code : Nat) : (refuse s n code).pending = s.pending := by simp [refuse]

@[simp] theorem sysChange_pending (s : State) (st : DevState) (degraded drill replace : Bool) :
    (sysChange s st degraded drill replace).pending = s.pending := by
  simp [sysChange]

@[simp] theorem goState_pending (s : State) (st : DevState) : (goState s st).pending = s.pending := by simp [goState]

@[simp] theorem endDrill_pending (s : State) : (endDrill s).pending = s.pending := by simp [endDrill]

@[simp] theorem drillHandled_pending (s : State) (k : Nat) : (drillHandled s k).pending = s.pending := by simp [drillHandled]

@[simp] theorem discardProgram_pending (s : State) : (discardProgram s).pending = s.pending := by rfl

@[simp] theorem loadResult_pending (s : State) (code detail : Nat) : (loadResult s code detail).pending = s.pending := by simp [loadResult]

@[simp] theorem failLoad_pending (s : State) : (failLoad s).pending = s.pending := by simp [failLoad]

/-! ## Decode, token waits, signals and the common opcodes -/

@[simp] theorem decodeFault_pending (s : State) (n op code : Nat) : (decodeFault s n op code).pending = s.pending := by simp [decodeFault]

@[simp] theorem instructionDecode_pending (s : State) (n : Nat) : (instructionDecode s n).pending = s.pending := by
  simp only [instructionDecode]
  repeat' split
  all_goals simp

@[simp] theorem tokenWaitSatisfied_pending (s : State) (n : Nat) : (tokenWaitSatisfied s n).pending = s.pending := by
  simp [tokenWaitSatisfied]

@[simp] theorem applyToken_pending (sigs : List Signal) (s : State) (t : Nat) : (applyToken sigs s t).pending = s.pending := by
  simp only [applyToken]
  split
  · rfl
  · rw [raise_pending, foldl_pending fun _ _ => stopStrand_pending ..]

@[simp] theorem applySignals_pending (s : State) (sigs : List Signal) : (applySignals s sigs).pending = s.pending := by simp [applySignals]

@[simp] theorem countDone_pending (s : State) (n : Nat) : (countDone s n).pending = s.pending := by simp [countDone]

@[simp] theorem ranPast_pending (s : State) (n idx : Nat) : (ranPast s n idx).pending = s.pending := by simp [ranPast]

@[simp] theorem nopStrand_pending (s : State) (n : Nat) : (nopStrand s n).pending = s.pending := by simp [nopStrand]

@[simp] theorem stepStrand_pending (s : State) (n : Nat) : (stepStrand s n).pending = s.pending := by simp [stepStrand]

@[simp] theorem endStrand_pending (s : State) (n : Nat) : (endStrand s n).pending = s.pending := by simp [endStrand]

/-! ## Sending on a lead, the replace request and keys -/

@[simp] theorem leadSend_pending (s : State) (i : Nat) (b : TxBody) : (leadSend s i b).pending = s.pending := by simp [leadSend]

@[simp] theorem leadSendAll_pending (s : State) (is : List Nat) (b : TxBody) : (leadSendAll s is b).pending = s.pending := by
  simp [leadSendAll]

@[simp] theorem leadRecv_pending (s : State) (i : Nat) (seq : BitVec 64) : (leadRecv s i seq).pending = s.pending := by rfl

@[simp] theorem freeBuffers_pending (s : State) (i c n : Nat) : (freeBuffers s i c n).pending = s.pending := by simp [freeBuffers]

@[simp] theorem onKept_pending (s : State) (a : Arrival) (f : State → State) (hf : ∀ t, (f t).pending = t.pending) :
    (onKept s a f).pending = s.pending := by
  simp [onKept, hf]

@[simp] theorem onLead_pending (s : State) (a : Arrival) (c : Nat) (f : State → State) (hf : ∀ t, (f t).pending = t.pending) :
    (onLead s a c f).pending = s.pending := by
  simp [onLead, hf]

@[simp] theorem linkFreed_pending (s : State) (i : Nat) : (linkFreed s i).pending = s.pending := by simp [linkFreed]

@[simp] theorem onLink_pending (s : State) (a : Arrival) (f : State → State) (hf : ∀ t, (f t).pending = t.pending) :
    (onLink s a f).pending = s.pending := by
  simp [onLink, hf]

@[simp] theorem dropLeadKeys_pending (s : State) : (dropLeadKeys s).pending = s.pending := by rfl

@[simp] theorem degrade_pending (s : State) (fresh : Bool) : (degrade s fresh).pending = s.pending := by simp [degrade]

@[simp] theorem degradeTether_pending (s : State) : (degradeTether s).pending = s.pending := by simp [degradeTether]

@[simp] theorem degradeLead_pending (s : State) : (degradeLead s).pending = s.pending := by simp [degradeLead]

/-! ## What a read captures -/

@[simp] theorem dieTouch_pending (s : State) (addr : Nat) : (dieTouch s addr).pending = s.pending := by
  unfold dieTouch
  split <;> simp

@[simp] theorem shpTouch_pending (s : State) (off : Nat) : (shpTouch s off).pending = s.pending := by
  unfold shpTouch
  split <;> simp

/-! ## Frames of a Tether link -/

@[simp] theorem onTether_pending (s : State) (l : Nat) (f : State → State) (hf : ∀ t, (f t).pending = t.pending) :
    (onTether s l f).pending = s.pending := by
  simp [onTether, hf]

@[simp] theorem addRetry_pending (s : State) (l n : Nat) : (addRetry s l n).pending = s.pending := by rfl

@[simp] theorem resendFrom_pending (s : State) (l : Nat) (shp : Bool) (seq : BitVec 64) : (resendFrom s l shp seq).pending = s.pending := by
  simp [resendFrom]

@[simp] theorem tetRecv_pending (s : State) (l : Nat) (shp : Bool) : (tetRecv s l shp).pending = s.pending := by rfl

@[simp] theorem moveFrame_pending (s : State) (l : Nat) (shp : Bool) (b : TBody) : (moveFrame s l shp b).pending = s.pending := by
  unfold moveFrame
  repeat' split
  all_goals simp

@[simp] theorem moveFrames_pending (s : State) (l : Nat) (shp : Bool) (fs : List (BitVec 64 × TBody)) :
    (moveFrames s l shp fs).pending = s.pending := by
  simp [moveFrames]

@[simp] theorem moveBulk_pending (s : State) (l : Nat) (bs : List TBody) : (moveBulk s l bs).pending = s.pending := by simp [moveBulk]

@[simp] theorem loseTether_pending (s : State) (l : Nat) : (loseTether s l).pending = s.pending := by simp [loseTether]

@[simp] theorem tetherFrameReject_pending (s : State) (l : Nat) (shp : Bool) (seq : BitVec 64) (tagFailed : Bool) :
    (tetherFrameReject s l shp seq tagFailed).pending = s.pending := by
  simp [tetherFrameReject]

@[simp] theorem wrongLength_pending (s : State) (l : Nat) (shp : Bool) : (wrongLength s l shp).pending = s.pending := by simp [wrongLength]

@[simp] theorem tetherNak_pending (s : State) (l : Nat) (shp : Bool) (seq : BitVec 64) : (tetherNak s l shp seq).pending = s.pending := by
  simp [tetherNak]

@[simp] theorem tetherAckTimeout_pending (s : State) (l : Nat) (shp : Bool) : (tetherAckTimeout s l shp).pending = s.pending := by
  refine onTether_pending s l _ fun t => ?_
  split
  · rfl
  · exact resendFrom_pending ..

@[simp] theorem tetherAck_pending (s : State) (l : Nat) (shp : Bool) (seq : BitVec 64) : (tetherAck s l shp seq).pending = s.pending :=
  onTether_pending s l _ fun _ => rfl

/-! ## Requests and reads -/

@[simp] theorem refuseReq_pending (s : State) (r : Req) (k : ReqKind) (code : Nat) (detail : Bytes) :
    (refuseReq s r k code detail).pending = s.pending := by
  simp [refuseReq]

@[simp] theorem done_pending (s : State) (r : Req) (k : ReqKind) (payload : Bytes) : (done s r k payload).pending = s.pending := by rfl

@[simp] theorem notAvailable_pending (s : State) (r : Req) (k : ReqKind) : (notAvailable s r k).pending = s.pending := by
  simp [notAvailable]

@[simp] theorem request_pending (s : State) (r : Req) (k : ReqKind) (f : State → State) (hf : ∀ t, (f t).pending = t.pending) :
    (request s r k f).pending = s.pending := by
  simp [request, hf]

@[simp] theorem bulk_pending (s : State) (l : Nat) (f : State → State) (hf : ∀ t, (f t).pending = t.pending) :
    (bulk s l f).pending = s.pending := by
  simp [bulk, hf]

@[simp] theorem shepherdStatus_pending (s : State) (r : Req) : (shepherdStatus s r).pending = s.pending := by simp [shepherdStatus]

@[simp] theorem statusRead_pending (s : State) (r : Req) : (statusRead s r).pending = s.pending := by simp [statusRead]

@[simp] theorem readWords_pending (file : State → Nat → Option Nat) (touch : State → Nat → State) (n : Nat) (s : State) (addr : Nat)
    (htouch : ∀ t x, (touch t x).pending = t.pending) :
    (readWords file touch n s addr).2.2.pending = s.pending := by
  induction n generalizing s addr with
  | zero => rfl
  | succ n ih =>
    simp only [readWords]
    split
    · rfl
    · simp [ih, htouch]

@[simp] theorem serveRead_pending (s : State) (r : Req) (k : ReqKind) (file : State → Nat → Option Nat) (touch : State → Nat → State)
    (addr n : Nat) (htouch : ∀ t x, (touch t x).pending = t.pending) :
    (serveRead s r k file touch addr n).pending = s.pending := by
  refine request_pending s r k _ fun t => ?_
  have ht := readWords_pending file touch n t addr htouch
  split
  · exact refuseReq_pending ..
  · split <;> rename_i h <;> rw [h] at ht <;> simpa using ht

@[simp] theorem shpFileTouch_pending (s : State) (addr : Nat) : (shpFileTouch s addr).pending = s.pending := shpTouch_pending ..

@[simp] theorem sideRead_pending (s : State) (r : Req) (addr : Nat) : (sideRead s r addr).pending = s.pending := by simp [sideRead]

@[simp] theorem reservedMessage_pending (s : State) (r : Req) (type : Nat) : (reservedMessage s r type).pending = s.pending := by
  simp [reservedMessage]

/-! ## The Edge -/

@[simp] theorem redUpdate_pending (s : State) (a : Nat) (init : Bool) (xs : List Fv) : (redUpdate s a init xs).1.pending = s.pending := by
  simp only [redUpdate]
  repeat' split
  all_goals simp

@[simp] theorem redUpdates_pending (s : State) (base : Nat) (init : Bool) (xs : List (Nat × List Fv)) :
    (redUpdates s base init xs).1.pending = s.pending := by
  induction xs generalizing s with
  | nil => rfl
  | cons x xs ih => simp [redUpdates, ih]

@[simp] theorem summaryUpdate_pending (s : State) (a : Nat) (init : Bool) (vs : List Fv) :
    (summaryUpdate s a init vs).pending = s.pending := by
  rfl

@[simp] theorem countUpdate_pending (s : State) (a : Nat) (init : Bool) (k : DrainCnt) (exc : Bool) (cycles outWait throttle : Nat) :
    (countUpdate s a init k exc cycles outWait throttle).pending = s.pending := by
  rfl

@[simp] theorem outHold_pending (s : State) (waits : Bool) : (outHold s waits).pending = s.pending := by rfl

@[simp] theorem drainBegin_pending (s : State) (op : EdgeOp) : (drainBegin s op).pending = s.pending := by
  simp only [drainBegin]
  split <;> simp

@[simp] theorem drainIssue_pending (s : State) : (drainIssue s).pending = s.pending := by
  simp only [drainIssue]
  repeat' split
  all_goals simp

@[simp] theorem drainSlotReady_pending (s : State) : (drainSlotReady s).pending = s.pending := by
  unfold drainSlotReady
  split <;> simp

@[simp] theorem edgeJob_pending (s : State) (k : DrainCnt) : (edgeJob s k).pending = s.pending := by rfl

@[simp] theorem raiseSevs_pending (s : State) (cs : List (Nat × Nat)) : (raiseSevs s cs).pending = s.pending := by simp [raiseSevs]

@[simp] theorem drainWrite_pending (s : State) (op : EdgeOp) (k : Slot) (run : DrainRun) (exc : Bool) (outWait throttle : Nat) :
    (drainWrite s op k run exc outWait throttle).pending = s.pending := by
  simp only [drainWrite]
  repeat' split
  all_goals simp

@[simp] theorem drainStop_pending (s : State) (op : EdgeOp) : (drainStop s op).pending = s.pending := by rfl

@[simp] theorem drainLastRow_pending (s : State) (outWait throttle : Nat) : (drainLastRow s outWait throttle).pending = s.pending := by
  unfold drainLastRow
  split <;> simp

@[simp] theorem sweepCodes_pending (s : State) (k : DrainCnt) : (sweepCodes s k).pending = s.pending := by simp [sweepCodes]

@[simp] theorem sweepIssue_pending (s : State) (throttle : Nat) : (sweepIssue s throttle).pending = s.pending := by
  simp only [sweepIssue]
  repeat' split
  all_goals simp

@[simp] theorem edgeComplete_pending (s : State) : (edgeComplete s).pending = s.pending := by
  unfold edgeComplete
  repeat' split
  all_goals simp

/-! ## The Fetch engines -/

@[simp] theorem writeRows_pending (s : State) (loc pitch row rows : Nat) (b : Bytes) :
    (writeRows s loc pitch row rows b).pending = s.pending := by
  simp [writeRows]

@[simp] theorem issueFetch_pending (s : State) (n : Nat) (d : Bytes) : (issueFetch s n d).pending = s.pending := by rfl

@[simp] theorem copyIssue_pending (s : State) (n : Nat) : (copyIssue s n).pending = s.pending := by simp [copyIssue]

@[simp] theorem feedIssue_pending (s : State) (n : Nat) : (feedIssue s n).pending = s.pending := by simp [feedIssue]

@[simp] theorem writeoutIssue_pending (s : State) (n : Nat) : (writeoutIssue s n).pending = s.pending := by simp [writeoutIssue]

@[simp] theorem fetchComplete_pending (s : State) (n : Nat) (w : BitVec 128) : (fetchComplete s n w).pending = s.pending := by
  simp [fetchComplete]

/-! ## The Rods -/

@[simp] theorem rodsIssue_pending (s : State) (c op : Nat) (refusal : State → BitVec 128 → Option Nat) (eff : State → BitVec 128 → State)
    (heff : ∀ t x, (eff t x).pending = t.pending) :
    (rodsIssue s c op refusal eff).pending = s.pending := by
  simp only [rodsIssue]
  repeat' split
  all_goals simp [heff]

@[simp] theorem onLocal_pending (c : Nat) (f : Mem → BitVec 128 → Mem) (s : State) (w : BitVec 128) :
    (onLocal c f s w).pending = s.pending := by
  rfl

@[simp] theorem map2_pending (c : Nat) (f : Nat → Nat → Nat → Nat) (s : State) (w : BitVec 128) : (map2 c f s w).pending = s.pending := by
  rfl

@[simp] theorem map1_pending (c : Nat) (f : Nat → Nat → Nat) (s : State) (w : BitVec 128) : (map1 c f s w).pending = s.pending := by rfl

@[simp] theorem intOp2_pending (s : State) (c op : Nat) (f : Nat → Nat → Nat → Nat) : (intOp2 s c op f).pending = s.pending := by
  simp [intOp2]

@[simp] theorem intOp1_pending (s : State) (c op : Nat) (f : Nat → Nat → Nat) : (intOp1 s c op f).pending = s.pending := by simp [intOp1]

@[simp] theorem selIssue_pending (s : State) (c : Nat) : (selIssue s c).pending = s.pending := by simp [selIssue]

@[simp] theorem checkWritten_pending (s : State) (chk : Bool) (n : Nat) : (checkWritten s chk n).pending = s.pending := by
  simp [checkWritten]

@[simp] theorem floatEff_pending (c : Nat) (f : Word → Word → Word → Word) (s : State) (w : BitVec 128) :
    (floatEff c f s w).pending = s.pending := by
  simp [floatEff]

@[simp] theorem floatOp_pending (s : State) (c op srcs : Nat) (f : Word → Word → Word → Word) :
    (floatOp s c op srcs f).pending = s.pending := by
  simp [floatOp]

@[simp] theorem cvtIssue_pending (s : State) (c : Nat) : (cvtIssue s c).pending = s.pending := by simp [cvtIssue]

@[simp] theorem mapIssue_pending (s : State) (c : Nat) : (mapIssue s c).pending = s.pending := by simp [mapIssue]

@[simp] theorem fnOp_pending (s : State) (c op : Nat) (f : Word → Word) : (fnOp s c op f).pending = s.pending := by simp [fnOp]

@[simp] theorem dualIssue_pending (s : State) (c op act : Nat) (f : Config.Fn) : (dualIssue s c op act f).pending = s.pending := by
  simp [dualIssue]

@[simp] theorem loadIssue_pending (s : State) (c : Nat) : (loadIssue s c).pending = s.pending := by
  simp only [loadIssue]
  repeat' split
  all_goals simp

@[simp] theorem loadDone_pending (s : State) (c : Nat) (w : BitVec 128) : (loadDone s c w).pending = s.pending := by simp [loadDone]

@[simp] theorem storeIssue_pending (s : State) (c : Nat) : (storeIssue s c).pending = s.pending := by simp [storeIssue]

@[simp] theorem storeDone_pending (s : State) (c : Nat) (w : BitVec 128) : (storeDone s c w).pending = s.pending := by simp [storeDone]

@[simp] theorem indexCheck_pending (s : State) (idx : List Nat) (len : Nat) : (indexCheck s idx len).pending = s.pending := by
  simp [indexCheck]

@[simp] theorem gatherIssue_pending (s : State) (c : Nat) : (gatherIssue s c).pending = s.pending := by simp [gatherIssue]

@[simp] theorem gatherDone_pending (s : State) (c : Nat) (w : BitVec 128) : (gatherDone s c w).pending = s.pending := by simp [gatherDone]

@[simp] theorem scatterDone_pending (s : State) (c : Nat) (w : BitVec 128) (f : Nat → Nat → Nat) :
    (scatterDone s c w f).pending = s.pending := by
  simp [scatterDone]

@[simp] theorem setTposeReq_pending (s : State) (c : Nat) (on : Bool) : (setTposeReq s c on).pending = s.pending := by rfl

@[simp] theorem tposeIssue_pending (s : State) (c : Nat) : (tposeIssue s c).pending = s.pending := by simp [tposeIssue]

@[simp] theorem tposeDone_pending (s : State) (c : Nat) (w : BitVec 128) : (tposeDone s c w).pending = s.pending := by
  have hrows : ∀ (s : State) (l : Nat → Nat) (b : Nat → Bytes) (n : Nat),
      ((List.range n).foldl (fun s i => locWrite s (l i) (b i)) s).pending = s.pending :=
    fun s l b n => foldl_pending (fun _ _ => locWrite_pending ..) _ _
  simp only [tposeDone, setTposeReq_pending]
  split
  · exact hrows ..
  · exact (locWrite_pending ..).trans (hrows ..)

@[simp] theorem sortIssue_pending (s : State) (c : Nat) : (sortIssue s c).pending = s.pending := by simp [sortIssue]

@[simp] theorem hash64Issue_pending (s : State) (c : Nat) : (hash64Issue s c).pending = s.pending := by simp [hash64Issue]

@[simp] theorem lenCheck_pending (s : State) (m : Mem) (n : Nat) (lens : List Nat) : (lenCheck s m n lens).pending = s.pending := by
  simp only [lenCheck]
  split <;> simp

@[simp] theorem hashstrIssue_pending (s : State) (c : Nat) : (hashstrIssue s c).pending = s.pending := by simp [hashstrIssue]

@[simp] theorem minhashIssue_pending (s : State) (c : Nat) : (minhashIssue s c).pending = s.pending := by simp [minhashIssue]

@[simp] theorem pairIssue_pending (s : State) (c op : Nat) (f : Bytes → Bytes → Nat) : (pairIssue s c op f).pending = s.pending := by
  simp [pairIssue]

@[simp] theorem normIssue_pending (s : State) (c : Nat) : (normIssue s c).pending = s.pending := by simp [normIssue]

@[simp] theorem normDone_pending (s : State) (c : Nat) (w : BitVec 128) : (normDone s c w).pending = s.pending := by rfl

@[simp] theorem normrdIssue_pending (s : State) (c : Nat) : (normrdIssue s c).pending = s.pending :=
  rodsIssue_pending s c 0x71 _ _ fun _ _ => rfl

@[simp] theorem normclrIssue_pending (s : State) (c : Nat) : (normclrIssue s c).pending = s.pending :=
  rodsIssue_pending s c 0x72 _ _ fun _ _ => setNorm_pending ..

@[simp] theorem rodsComplete_pending (s : State) (c : Nat) (w : BitVec 128) : (rodsComplete s c w).pending = s.pending := by
  unfold rodsComplete
  split <;> simp

/-! ## OPT and the ratio watch -/

@[simp] theorem hbmPut_pending (s : State) (k : Nat) (xs : List (Nat × Nat)) : (hbmPut s k xs).pending = s.pending := by simp [hbmPut]

@[simp] theorem optWriteRow_pending (s : State) (b : Bytes) (r : Nat) (x : OptRow) (old : List Word) :
    (optWriteRow s b r x old).pending = s.pending := by
  simp [optWriteRow]

@[simp] theorem optMaps_pending (s : State) (b : Bytes) (row0 rows : Nat) : (optMaps s b row0 rows).pending = s.pending := by simp [optMaps]

@[simp] theorem optEff_pending (s : State) (d : Bytes) (w : BitVec 128) : (optEff s d w).pending = s.pending := by
  simp only [optEff, pending_ite, raise_pending, optMaps_pending, ite_self]
  exact foldl_state_pending Prod.fst (fun _ _ => optWriteRow_pending ..) _ _

@[simp] theorem optIssue_pending (s : State) (c : Nat) : (optIssue s c).pending = s.pending := by simp [optIssue]

@[simp] theorem optDone_pending (s : State) (c : Nat) (w : BitVec 128) : (optDone s c w).pending = s.pending := by simp [optDone]

@[simp] theorem ratioWrite_pending (s : State) (layer marker : Nat) (r : RatioEntry) :
    (ratioWrite s layer marker r).pending = s.pending := by
  simp [ratioWrite]

@[simp] theorem watchLayer_pending (marker : Nat) (acc : State × WatchSum) (b : Bytes) :
    (watchLayer marker acc b).1.pending = acc.1.pending := by
  simp only [watchLayer]
  split <;> simp

@[simp] theorem ratioWatch_pending (s : State) : (ratioWatch s).1.pending = s.pending := by
  simp only [ratioWatch]
  refine (foldl_pending (fun _ _ => raiseSev_pending ..) _ _).trans ?_
  exact foldl_state_pending Prod.fst (fun _ _ => watchLayer_pending ..) _ _

/-! ## Loading -/

@[simp] theorem refuseLoad_pending (s : State) (r : Req) (k : ReqKind) (code : Nat) : (refuseLoad s r k code).pending = s.pending := by
  simp [refuseLoad]

@[simp] theorem loadBegin_pending (s : State) (r : Req) (jobId imageBytes : BitVec 64) :
    (loadBegin s r jobId imageBytes).pending = s.pending := by
  simp [loadBegin]

@[simp] theorem loadData_pending (s : State) (link : Nat) (offset : BitVec 64) (b : Bytes) :
    (loadData s link offset b).pending = s.pending := by
  simp [loadData]

@[simp] theorem loadEnd_pending (s : State) (r : Req) : (loadEnd s r).pending = s.pending := by simp [loadEnd]

@[simp] theorem acceptImage_pending (s : State) (im : Bytes) : (acceptImage s im).pending = s.pending := by rfl

@[simp] theorem loadCheck_pending (s : State) : (loadCheck s).pending = s.pending := by
  simp only [loadCheck]
  repeat' split
  all_goals simp

/-! ## The Frame -/

@[simp] theorem matmulIssue_pending (s : State) : (matmulIssue s).pending = s.pending := by
  simp only [matmulIssue]
  repeat' split
  all_goals simp

@[simp] theorem frameRefuse_pending (s : State) (op : FrameOp) (code : Nat) : (frameRefuse s op code).pending = s.pending := by
  simp [frameRefuse]

@[simp] theorem seatChunk_pending (s : State) (waited : Nat) : (seatChunk s waited).pending = s.pending := by
  simp only [seatChunk]
  split <;> simp

@[simp] theorem rowGroupBegin_pending (s : State) (waited : Nat) : (rowGroupBegin s waited).pending = s.pending := by
  unfold rowGroupBegin
  split <;> simp

@[simp] theorem recountStart_pending (s : State) : (recountStart s).pending = s.pending := by rfl

@[simp] theorem windowEnd_pending (s : State) : (windowEnd s).pending = s.pending := by simp [windowEnd]

@[simp] theorem tileBegins_pending (s : State) : (tileBegins s).2.pending = s.pending := by simp [tileBegins]

@[simp] theorem beginSlot_pending (s : State) (op : FrameOp) (t : TileRun) : (beginSlot s op t).pending = s.pending := by rfl

@[simp] theorem raiseTile_pending (s : State) (codes : List Nat) : (raiseTile s codes).pending = s.pending := by simp [raiseTile]

@[simp] theorem storeTile_pending (s : State) (k : Nat) (out : TileOut) : (storeTile s k out).pending = s.pending := by simp [storeTile]

@[simp] theorem streamTiles_pending (op : FrameOp) (chunk : Nat) (bseg : Bytes) (fs : List CarryFault) (ra pos : Nat) (s : State)
    (ts : List TileRun) :
    (streamTiles op chunk bseg fs ra pos s ts).2.1.pending = s.pending := by
  induction ts generalizing pos s with
  | nil => rfl
  | cons t ts ih =>
    simp only [streamTiles]
    repeat' split
    all_goals simp [ih]

@[simp] theorem clearReplay_pending (s : State) : (clearReplay s).pending = s.pending := by rfl

@[simp] theorem passDone_pending (s : State) (op : FrameOp) (tiles : List TileRun) : (passDone s op tiles).pending = s.pending := by
  simp [passDone]

@[simp] theorem passBegin_pending (s : State) (feedWait seatWait throttle : Nat) (faults : List CarryFault) :
    (passBegin s feedWait seatWait throttle faults).pending = s.pending := by
  simp only [passBegin]
  repeat' split
  all_goals simp

@[simp] theorem replayChunk_pending (op : FrameOp) (chunk : Nat) (fs : List CarryFault) (pos : Nat) (s : State) (ts : List TileRun) :
    (replayChunk op chunk fs pos s ts).2.1.pending = s.pending := by
  induction ts generalizing pos s with
  | nil => rfl
  | cons t ts ih =>
    simp only [replayChunk]
    generalize sourcePass s op false t chunk _ fs pos = out
    split
    · exact storeTile_pending ..
    · simp [ih]

@[simp] theorem replayGroup_pending (s : State) (op : FrameOp) (fs : List CarryFault) (ts : List TileRun) :
    (replayGroup s op fs ts).2.1.pending = s.pending := by
  refine foldl_state_pending (fun (r : List TileRun × State × Bool) => r.2.1) (fun r c => ?_) _ _
  split
  · rfl
  · exact replayChunk_pending ..

@[simp] theorem stepBackReplay_pending (s : State) (throttle : Nat) (faults : List CarryFault) :
    (stepBackReplay s throttle faults).pending = s.pending := by
  unfold stepBackReplay
  split
  · rfl
  · split
    · rfl
    · simp only
      split
      · rfl
      · split
        · exact (foldl_pending (fun _ _ => raise_pending ..) _ _).trans ((stopStrand_pending ..).trans (setCur_pending ..))
        · split
          · rfl
          · simp only [pending_ite, stopStrand_pending, setCur_pending, setEvent_pending, replayGroup_pending, ite_self]
            exact foldl_pending (fun _ _ => setSlot_pending ..) _ _

@[simp] theorem lastCarryWritten_pending (s : State) : (lastCarryWritten s).pending = s.pending := by
  unfold lastCarryWritten
  repeat' split
  all_goals try rfl
  simp only [clearReplay_pending]
  rw [foldl_pending fun _ _ => setSlot_pending ..]

@[simp] theorem enterNoWidth_pending (s : State) : (enterNoWidth s).pending = s.pending := by
  simp only [enterNoWidth]
  repeat' split
  all_goals simp

@[simp] theorem retireStrip_pending (s : State) (b : Nat) : (retireStrip s b).pending = s.pending := by simp [retireStrip]

@[simp] theorem useColumn_pending (s : State) (p o : Nat) : (useColumn s p o).pending = s.pending := by simp [useColumn]

@[simp] theorem useRow_pending (s : State) (b o : Nat) : (useRow s b o).pending = s.pending := by simp [useRow]

@[simp] theorem mapOutBead_pending (s : State) (row col : Nat) : (mapOutBead s row col).pending = s.pending := by simp [mapOutBead]

@[simp] theorem mapOutColumn_pending (s : State) (col : Nat) : (mapOutColumn s col).pending = s.pending := by simp [mapOutColumn]

@[simp] theorem mapOutRow_pending (s : State) (row : Nat) : (mapOutRow s row).pending = s.pending := by simp [mapOutRow]

@[simp] theorem mapOutBeads_pending (s : State) (failed : List (Fin 1040 × Fin 1040)) : (mapOutBeads s failed).pending = s.pending := by
  simp [mapOutBeads]

@[simp] theorem keepStrips_pending (s : State) (ps : List Nat) : (keepStrips s ps).pending = s.pending := by rfl

@[simp] theorem recountReplay_pending (s : State) (throttle : Nat) (faults : List CarryFault) :
    (recountReplay s throttle faults).pending = s.pending := by
  unfold recountReplay
  repeat' split
  all_goals simp

@[simp] theorem setDet_pending (s : State) (op : FrameOp) (t : SelTile) (verdict row col : Nat) (clean : BitVec 64) :
    (setDet s op t verdict row col clean).pending = s.pending := by
  simp [setDet]

@[simp] theorem verdict_pending (s : State) (op : FrameOp) (t : SelTile) (beadCycles : Nat) (d2 d3 : List Word)
    (failed : List (Fin 1040 × Fin 1040)) :
    (verdict s op t beadCycles d2 d3 failed).pending = s.pending := by
  simp only [verdict]
  repeat' split
  all_goals simp

@[simp] theorem classificationReplay_pending (s : State) (beadCycles : Nat) (faults2 faults3 : List CarryFault)
    (failed : List (Fin 1040 × Fin 1040)) :
    (classificationReplay s beadCycles faults2 faults3 failed).pending = s.pending := by
  unfold classificationReplay
  repeat' split
  all_goals simp

@[simp] theorem beadTest_pending (s : State) (failed : List (Fin 1040 × Fin 1040)) : (beadTest s failed).pending = s.pending := by
  simp [beadTest]

@[simp] theorem spareSubstitution_pending (s : State) : (spareSubstitution s).pending = s.pending := by
  simp only [spareSubstitution]
  repeat' split
  all_goals simp

@[simp] theorem stripWake_pending (s : State) (p : Nat) : (stripWake s p).pending = s.pending := by simp [stripWake]

@[simp] theorem frameComplete_pending (s : State) : (frameComplete s).pending = s.pending := by
  unfold frameComplete
  split <;> simp

/-! ## Launch and round-up -/

@[simp] theorem toParent_pending (s : State) (b : TxBody) : (toParent s b).pending = s.pending := by
  unfold toParent
  split <;> simp

@[simp] theorem disarm_pending (s : State) : (disarm s).pending = s.pending := by simp [disarm]

@[simp] theorem cancelWith_pending (s : State) (f : LaunchFrame) : (cancelWith s f).pending = s.pending := by simp [cancelWith]

@[simp] theorem cancelRoundUp_pending (s : State) : (cancelRoundUp s).pending = s.pending := by simp [cancelRoundUp]

@[simp] theorem checkReady_pending (s : State) : (checkReady s).pending = s.pending := by simp [checkReady]

@[simp] theorem keyLead_pending (s : State) (i : Nat) : (keyLead s i).pending = s.pending := by
  unfold keyLead
  split <;> simp

@[simp] theorem acceptArm_pending (s : State) (f : LaunchFrame) (way : Option Nat) : (acceptArm s f way).pending = s.pending := by
  simp only [acceptArm, checkReady_pending]
  rw [foldl_pending fun _ _ => keyLead_pending .., leadSendAll_pending, toParent_pending, goState_pending]

@[simp] theorem refuseLaunch_pending (s : State) (r : Req) (code : Nat) (eff : Effect) (detail : Nat) :
    (refuseLaunch s r code eff detail).pending = s.pending := by
  simp [refuseLaunch]

@[simp] theorem armAtRoot_pending (s : State) (r : Req) (f : LaunchFrame) : (armAtRoot s r f).pending = s.pending := by
  unfold armAtRoot
  split <;> simp

@[simp] theorem commitAtRoot_pending (s : State) (r : Req) (f : LaunchFrame) : (commitAtRoot s r f).pending = s.pending := by
  simp [commitAtRoot]

@[simp] theorem launch_pending (s : State) (r : Req) (f : LaunchFrame) : (launch s r f).pending = s.pending := by
  unfold launch
  split <;> simp

@[simp] theorem dropAuth_pending (s : State) : (dropAuth s).pending = s.pending := by simp [dropAuth]

@[simp] theorem ruArm_pending (s : State) (a : Arrival) (f : LaunchFrame) : (ruArm s a f).pending = s.pending := by
  refine onLead_pending s a 3 _ fun t => ?_
  split
  · exact dropAuth_pending ..
  · split <;> simp

@[simp] theorem childReport_pending (s : State) (a : Arrival) (m : RuReport) (f : State → State) (hf : ∀ t, (f t).pending = t.pending) :
    (childReport s a m f).pending = s.pending := by
  simp [childReport, hf]

@[simp] theorem childAck_pending (s : State) (i : Nat) : (childAck s i).pending = s.pending := by rfl

@[simp] theorem ruArmack_pending (s : State) (a : Arrival) (m : RuReport) : (ruArmack s a m).pending = s.pending := by simp [ruArmack]

@[simp] theorem ruReady_pending (s : State) (a : Arrival) (m : RuReport) : (ruReady s a m).pending = s.pending := by simp [ruReady]

@[simp] theorem ruCommit_pending (s : State) (a : Arrival) (f : LaunchFrame) : (ruCommit s a f).pending = s.pending := by simp [ruCommit]

@[simp] theorem ruCommitack_pending (s : State) (a : Arrival) (m : RuReport) : (ruCommitack s a m).pending = s.pending := by
  simp [ruCommitack]

@[simp] theorem ruCancel_pending (s : State) (a : Arrival) (f : LaunchFrame) : (ruCancel s a f).pending = s.pending := by simp [ruCancel]

@[simp] theorem ruAckTimeout_pending (s : State) (i : Nat) : (ruAckTimeout s i).pending = s.pending := by simp [ruAckTimeout]

@[simp] theorem armDeadline_pending (s : State) : (armDeadline s).pending = s.pending := by simp [armDeadline]

@[simp] theorem zeroCounters_pending (s : State) : (zeroCounters s).pending = s.pending := by rfl

@[simp] theorem startStrands_pending (s : State) : (startStrands s).pending = s.pending := by simp [startStrands]

@[simp] theorem zeroRatios_pending (s : State) : (zeroRatios s).pending = s.pending := by
  unfold zeroRatios
  split
  · rfl
  · exact jobWrite_pending ..

@[simp] theorem jobStart_pending (s : State) : (jobStart s).pending = s.pending := by simp [jobStart]

@[simp] theorem launchTimeReached_pending (s : State) : (launchTimeReached s).pending = s.pending := by simp [launchTimeReached]

/-! ## Snapshots and the mirror -/

@[simp] theorem sendNode_pending (s : State) (bs : List TBody) : (sendNode s bs).pending = s.pending := by
  unfold sendNode
  split <;> simp

@[simp] theorem putGen_pending (s : State) (i : Nat) (g : Option Gen) : (putGen s i g).pending = s.pending := by simp [putGen]

@[simp] theorem checkManifest_pending (s : State) (i : Nat) (g : Gen) : (checkManifest s i g).pending = s.pending := by simp [checkManifest]

@[simp] theorem startMirror_pending (s : State) (g : Gen) : (startMirror s g).pending = s.pending := by
  unfold startMirror
  repeat' split
  all_goals simp

@[simp] theorem takeGeneration_pending (s : State) (w : BitVec 128) : (takeGeneration s w).pending = s.pending := by simp [takeGeneration]

@[simp] theorem stepSix_pending (s : State) (extra : List Signal) : (stepSix s extra).pending = s.pending := by simp [stepSix]

@[simp] theorem snapWait_pending (s : State) (w : BitVec 128) : (snapWait s w).pending = s.pending := by simp [snapWait]

@[simp] theorem runSnap_pending (s : State) : (runSnap s).pending = s.pending := by simp [runSnap]

@[simp] theorem skipSnap_pending (s : State) : (skipSnap s).pending = s.pending := by simp [skipSnap]

@[simp] theorem snap_pending (s : State) : (snap s).pending = s.pending := by simp [snap]

@[simp] theorem fenceDone_pending (s : State) : (fenceDone s).pending = s.pending := by
  unfold fenceDone
  split <;> simp

@[simp] theorem snapFence_pending (s : State) : (snapFence s).pending = s.pending := by simp [snapFence]

@[simp] theorem holdEnds_pending (s : State) (us : Nat) : (holdEnds s us).pending = s.pending := by simp [holdEnds]

@[simp] theorem untag_pending (s : State) : (untag s).pending = s.pending := by rfl

@[simp] theorem abandon_pending (s : State) (i : Nat) : (abandon s i).pending = s.pending := by simp [abandon]

@[simp] theorem pagePush_pending (s : State) (page us : Nat) : (pagePush s page us).pending = s.pending := by
  unfold pagePush
  repeat' split
  all_goals simp

@[simp] theorem endShard_pending (s : State) (g : Gen) (k : Nat) : (endShard s g k).1.pending = s.pending := by
  simp only [endShard]
  split <;> simp

@[simp] theorem sendStorage_pending (s : State) (g : Gen) (p : Nat) (b : Bytes) : (sendStorage s g p b).1.pending = s.pending := by
  simp [sendStorage]

@[simp] theorem snapPageSend_pending (s : State) : (snapPageSend s).pending = s.pending := by
  unfold snapPageSend
  repeat' split
  all_goals simp

@[simp] theorem endOfCopying_pending (s : State) (us : Nat) : (endOfCopying s us).pending = s.pending := by
  unfold endOfCopying
  split <;> simp

@[simp] theorem ownStored_pending (s : State) (ctx : BitVec 8) (k : Nat) : (ownStored s ctx k).pending = s.pending := by
  unfold ownStored
  split <;> simp

@[simp] theorem relayEnds_pending (s : State) (m : Mirror) : (relayEnds s m).pending = s.pending := by simp [relayEnds]

@[simp] theorem relayStored_pending (s : State) (ctx : BitVec 8) (k : Nat) : (relayStored s ctx k).pending = s.pending := by
  unfold relayStored
  split <;> simp

@[simp] theorem shardStored_pending (s : State) (ctx : BitVec 8) (k : Nat) (relayed : Bool) :
    (shardStored s ctx k relayed).pending = s.pending := by
  simp [shardStored]

@[simp] theorem manifestStored_pending (s : State) (ctx : BitVec 8) : (manifestStored s ctx).pending = s.pending := by
  unfold manifestStored
  split <;> simp

@[simp] theorem storageFailed_pending (s : State) (ctx : BitVec 8) : (storageFailed s ctx).pending = s.pending := by
  unfold storageFailed
  split <;> simp

@[simp] theorem ckptTimeout_pending (s : State) : (ckptTimeout s).pending = s.pending := by
  unfold ckptTimeout
  split <;> simp

@[simp] theorem mirrorBegin_pending (s : State) (a : Arrival) (marker jobId bytes : BitVec 64) (position : BitVec 32) :
    (mirrorBegin s a marker jobId bytes position).pending = s.pending := by
  simp [mirrorBegin]

@[simp] theorem storeAll_pending (s : State) (g : Gen) : (storeAll s g).pending = s.pending := by simp [storeAll]

@[simp] theorem mirrorBeginRefused_pending (s : State) (a : Arrival) : (mirrorBeginRefused s a).pending = s.pending := by
  refine onLead_pending s a 3 _ fun t => ?_
  split
  · rfl
  · simp

@[simp] theorem relayShard_pending (s : State) (k n : Nat) : (relayShard s k n).pending = s.pending := by
  unfold relayShard
  split <;> simp

@[simp] theorem relayDone_pending (s : State) (a : Arrival) (ds : List (Nat × BitVec 256)) : (relayDone s a ds).pending = s.pending := by
  refine onLead_pending s a 3 _ fun t => ?_
  split
  · rfl
  · simp

@[simp] theorem partnerLost_pending (fuel : Nat) (s : State) : (partnerLost fuel s).pending = s.pending := by
  induction fuel generalizing s with
  | zero => rfl
  | succ k ih =>
    unfold partnerLost
    split
    · rfl
    · simp [ih]

@[simp] theorem partnerLeadLost_pending (s : State) (l : Nat) : (partnerLeadLost s l).pending = s.pending := by simp [partnerLeadLost]

@[simp] theorem pagesAcked_pending (s : State) (ps : List Nat) : (pagesAcked s ps).pending = s.pending := by
  unfold pagesAcked
  split <;> simp

/-! ## Time -/

@[simp] theorem chooseMode_pending (s : State) : (chooseMode s).pending = s.pending := by rfl

@[simp] theorem refBroken_pending (s : State) (mag : ℤ) : (refBroken s mag).pending = s.pending := by simp [refBroken]

@[simp] theorem goodEdge_pending (s : State) : (goodEdge s).pending = s.pending := by rfl

@[simp] theorem initCounter_pending (s : State) (c : BitVec 48) (f : BitVec 32) : (initCounter s c f).pending = s.pending := by rfl

@[simp] theorem applyEpoch_pending (s : State) : (applyEpoch s).pending = s.pending := by
  simp only [applyEpoch]
  repeat' split
  all_goals simp

@[simp] theorem steerRef_pending (s : State) : (steerRef s).pending = s.pending := by simp [steerRef]

@[simp] theorem frameMarkerEdge_pending (s : State) (interval : Nat) : (frameMarkerEdge s interval).pending = s.pending := by
  simp [frameMarkerEdge]

@[simp] theorem refClockAbsent_pending (s : State) : (refClockAbsent s).pending = s.pending := by simp [refClockAbsent]

@[simp] theorem markerEdgeMissing_pending (s : State) : (markerEdgeMissing s).pending = s.pending := by simp [markerEdgeMissing]

@[simp] theorem ownSource_pending (s : State) : (ownSource s).pending = s.pending := by rfl

@[simp] theorem chooseParent_pending (s : State) (heard : List (Nat × Nat × Nat)) : (chooseParent s heard).pending = s.pending := by
  simp only [chooseParent]
  repeat' split
  all_goals simp

@[simp] theorem timeAdvert_pending (s : State) (heard : List (Nat × Nat × Nat)) : (timeAdvert s heard).pending = s.pending := by
  simp [timeAdvert]

@[simp] theorem steerLead_pending (s : State) (th : ℤ) : (steerLead s th).pending = s.pending := by rfl

@[simp] theorem checkOffset_pending (s : State) (th : ℤ) : (checkOffset s th).pending = s.pending := by simp [checkOffset]

@[simp] theorem childExchange_pending (s : State) (t1 t2 t3 t4 : BitVec 48) (parentInit : Bool) :
    (childExchange s t1 t2 t3 t4 parentInit).pending = s.pending := by
  unfold childExchange
  split <;> simp

@[simp] theorem parentExchange_pending (s : State) (l : Nat) : (parentExchange s l).pending = s.pending := by simp [parentExchange]

@[simp] theorem timeExchange_pending (s : State) (x : TimeExchange) : (timeExchange s x).pending = s.pending := by
  unfold timeExchange
  split <;> simp

@[simp] theorem timeCounterWrap_pending (s : State) : (timeCounterWrap s).pending = s.pending := by simp [timeCounterWrap]

@[simp] theorem epochSubmit_pending (s : State) (hi : BitVec 32) : (epochSubmit s hi).1.pending = s.pending := by
  unfold epochSubmit
  split <;> simp

/-! ## The leads -/

@[simp] theorem unroutable_pending (s : State) (f : LeadFrame) : (unroutable s f).pending = s.pending := by simp [unroutable]

@[simp] theorem reroute_pending (s : State) (fs : List LeadFrame) : (reroute s fs).pending = s.pending := by
  refine foldl_pending (fun t f => ?_) _ _
  split <;> simp

@[simp] theorem dropLead_pending (s : State) (i : Nat) : (dropLead s i).pending = s.pending := by rfl

@[simp] theorem dropParent_pending (s : State) (i : Nat) : (dropParent s i).pending = s.pending := by simp [dropParent]

@[simp] theorem loseLead_pending (s : State) (i : Nat) : (loseLead s i).pending = s.pending := by simp [loseLead]

@[simp] theorem relaneOn_pending (s : State) (i left lane : Nat) : (relaneOn s i left lane).pending = s.pending := by
  simp only [relaneOn]
  split
  · exact loseLead_pending ..
  · exact raise_pending ..

@[simp] theorem relane_pending (s : State) (i lane : Nat) : (relane s i lane).pending = s.pending := relaneOn_pending ..

@[simp] theorem groupReset_pending (s : State) (g : Nat) : (groupReset s g).pending = s.pending := by
  refine foldl_pending (fun t i => ?_) _ _
  simp only [pending_ite, relaneOn_pending, ite_self]

@[simp] theorem laneFailure_pending (s : State) (lane : Nat) : (laneFailure s lane).pending = s.pending := by
  unfold laneFailure
  split <;> simp

@[simp] theorem relaneComplete_pending (s : State) (i : Nat) : (relaneComplete s i).pending = s.pending := by simp [relaneComplete]

@[simp] theorem countDrop_pending (s : State) (i : Nat) (tag : Bool) (seq : BitVec 64) : (countDrop s i tag seq).pending = s.pending := by
  simp [countDrop]

@[simp] theorem dropFrame_pending (s : State) (i : Nat) (seq : BitVec 64) (cause : Nat) (lane : Option Nat) :
    (dropFrame s i seq cause lane).pending = s.pending := by
  unfold dropFrame
  repeat' split
  all_goals simp

@[simp] theorem leadReject_pending (s : State) (i : Nat) (seq : BitVec 64) (cause : Nat) (lane : Option Nat) :
    (leadReject s i seq cause lane).pending = s.pending := by
  simp [leadReject]

@[simp] theorem resendAt_pending (s : State) (i : Nat) (q : Option (BitVec 64)) : (resendAt s i q).pending = s.pending := by simp [resendAt]

@[simp] theorem leadNak_pending (s : State) (a : Arrival) (seq : BitVec 64) : (leadNak s a seq).pending = s.pending := by simp [leadNak]

@[simp] theorem leadAckTimeout_pending (s : State) (i : Nat) : (leadAckTimeout s i).pending = s.pending := by simp [leadAckTimeout]

@[simp] theorem leadAck_pending (s : State) (a : Arrival) (seq : BitVec 64) : (leadAck s a seq).pending = s.pending := by simp [leadAck]

@[simp] theorem creditReturn_pending (s : State) (a : Arrival) (c n : Nat) : (creditReturn s a c n).pending = s.pending :=
  onLink_pending s a _ fun _ => rfl

@[simp] theorem creditStall_pending (s : State) (i c : Nat) : (creditStall s i c).pending = s.pending := by simp [creditStall]

@[simp] theorem keyConfirm_pending (s : State) (a : Arrival) (ok : Bool) : (keyConfirm s a ok).pending = s.pending := by simp [keyConfirm]

@[simp] theorem onJobFrame_pending (s : State) (a : Arrival) (f : State → State) (hf : ∀ t, (f t).pending = t.pending) :
    (onJobFrame s a f).pending = s.pending := by
  simp [onJobFrame, hf]

@[simp] theorem onData_pending (s : State) (a : Arrival) (f : LeadFrame) (act : State → State) (hact : ∀ t, (act t).pending = t.pending) :
    (onData s a f act).pending = s.pending := by
  simp [onData, hact]

@[simp] theorem forward_pending (s : State) (f : LeadFrame) : (forward s f).pending = s.pending := by
  unfold forward
  split <;> simp

@[simp] theorem dataFrameReceived_pending (s : State) (a : Arrival) (f : LeadFrame) : (dataFrameReceived s a f).pending = s.pending := by
  simp [dataFrameReceived]

@[simp] theorem mirrorPage_pending (s : State) (a : Arrival) (f : LeadFrame) : (mirrorPage s a f).pending = s.pending := by
  refine onData_pending s a f _ fun t => ?_
  split
  · simp
  · rfl

@[simp] theorem stopColl_pending (s : State) : (stopColl s).pending = s.pending := by rfl

@[simp] theorem abortReceived_pending (s : State) (a : Arrival) (origin : BitVec 24) (cls hops : BitVec 8) :
    (abortReceived s a origin cls hops).pending = s.pending := by
  simp [abortReceived]

@[simp] theorem discoveryMgmt_pending (s : State) (i : Nat) (p : PeerReport) : (discoveryMgmt s i p).pending = s.pending := by
  simp [discoveryMgmt]

@[simp] theorem sendDiscovery_pending (s : State) (i : Nat) : (sendDiscovery s i).pending = s.pending := by simp [sendDiscovery]

@[simp] theorem beginDiscovery_pending (s : State) : (beginDiscovery s).pending = s.pending := by simp [beginDiscovery]

@[simp] theorem bringUp_pending (s : State) (i : Nat) : (bringUp s i).pending = s.pending := by simp [bringUp]

@[simp] theorem allDown_pending (s : State) : (allDown s).pending = s.pending := by simp [allDown]

@[simp] theorem cablingCheck_pending (s : State) : (cablingCheck s).pending = s.pending := by simp [cablingCheck]

@[simp] theorem discoveryEnd_pending (s : State) : (discoveryEnd s).pending = s.pending := by simp [discoveryEnd]

/-! ## Collectives -/

@[simp] theorem collSend_pending (s : State) (op : CollOp) (l : Nat) (m : CollMsg) : (collSend s op l m).pending = s.pending := by
  simp [collSend]

@[simp] theorem elemPass_pending (s : State) (e : Nat) (op : CollOp) : (elemPass s e op).pending = s.pending := by simp [elemPass]

@[simp] theorem collWrite_pending (s : State) (op : CollOp) : (collWrite s op).pending = s.pending := by simp [collWrite]

@[simp] theorem passDown_pending (s : State) (e : Nat) (op : CollOp) : (passDown s e op).pending = s.pending := by simp [passDown]

@[simp] theorem passUp_pending (s : State) (e : Nat) (op : CollOp) : (passUp s e op).pending = s.pending := by
  unfold passUp
  split <;> simp

@[simp] theorem collUse_pending (s : State) (e : Nat) (op : CollOp) (f : CollIn) : (collUse s e op f).pending = s.pending := by
  unfold collUse
  split <;> simp

@[simp] theorem collRun_pending (fuel : Nat) (s : State) (e : Nat) : (collRun fuel s e).pending = s.pending := by
  induction fuel generalizing s with
  | zero => rfl
  | succ k ih =>
    unfold collRun
    repeat' split
    all_goals simp [ih]

@[simp] theorem collStart_pending (s : State) (e : Nat) (w : BitVec 128) (op : CollOp) : (collStart s e w op).pending = s.pending := by
  simp [collStart]

@[simp] theorem collIssue_pending (s : State) (e kind : Nat) : (collIssue s e kind).pending = s.pending := by simp [collIssue]

@[simp] theorem collReceived_pending (s : State) (a : Arrival) (plan seq : BitVec 16) (m : CollMsg) :
    (collReceived s a plan seq m).pending = s.pending := by
  refine onJobFrame_pending s a _ fun t => onKept_pending t a _ fun u => ?_
  simp only
  split
  · simp
  · split <;> simp

@[simp] theorem neighbourTimeout_pending (s : State) (e : Nat) : (neighbourTimeout s e).pending = s.pending := by
  unfold neighbourTimeout
  split <;> simp

@[simp] theorem collComplete_pending (s : State) (e : Nat) : (collComplete s e).pending = s.pending := by rfl

/-! ## Completion -/

@[simp] theorem unitComplete_pending (s : State) (n : Nat) (w : BitVec 128) : (unitComplete s n w).pending = s.pending := by
  simp [unitComplete]

@[simp] theorem completeUnits_pending (s : State) (seen : List Nat) (done : List (Fin 43 × Bool)) :
    (completeUnits s seen done).1.pending = s.pending := by
  induction done generalizing s seen with
  | nil => rfl
  | cons x xs ih =>
    simp only [completeUnits]
    repeat' split
    all_goals simp [ih]

@[simp] theorem instructionComplete_pending (s : State) (done : List (Fin 43 × Bool)) :
    (instructionComplete s done).pending = s.pending := by
  simp [instructionComplete]

/-! ## The governor -/

@[simp] theorem noteShort_pending (s : State) : (noteShort s).pending = s.pending := by simp [noteShort]

@[simp] theorem govTick_pending (s : State) : (govTick s).pending = s.pending := by
  simp only [govTick]
  repeat' split
  all_goals simp

@[simp] theorem creditWait_pending (s : State) (n : Nat) (waits : Bool) : (creditWait s n waits).pending = s.pending := by simp [creditWait]

@[simp] theorem grantGrain_pending (s : State) (g : Grain) : (grantGrain s g).pending = s.pending := by simp [grantGrain]

@[simp] theorem grantAll_pending (s : State) (gs : List Grain) : (grantAll s gs).1.pending = s.pending := by
  induction gs generalizing s with
  | nil => rfl
  | cons g gs ih =>
    unfold grantAll
    split <;> simp [ih]

@[simp] theorem grainGrant_pending (s : State) (arrived : List Grain) : (grainGrant s arrived).pending = s.pending := by simp [grainGrant]

@[simp] theorem grainAged_pending (s : State) (n : Nat) : (grainAged s n).pending = s.pending := by simp [grainAged]

@[simp] theorem feedbackPeriod_pending (s : State) (measured : Nat) : (feedbackPeriod s measured).pending = s.pending := by
  simp [feedbackPeriod]

@[simp] theorem driftWindow_pending (s : State) : (driftWindow s).pending = s.pending := by simp [driftWindow]

@[simp] theorem deferAdjust_pending (s : State) : (deferAdjust s).pending = s.pending := by simp [deferAdjust]

@[simp] theorem measureCmd_pending (s : State) : (measureCmd s).1.pending = s.pending := by
  unfold measureCmd
  split <;> simp

@[simp] theorem calibrationDone_pending (s : State) (values : Vector (BitVec 32) 20) : (calibrationDone s values).pending = s.pending := by
  simp [calibrationDone]

@[simp] theorem setUser_pending (s : State) (ucal : Vector Word 20) (enable : Bool) : (setUser s ucal enable).pending = s.pending := by
  simp [setUser]

@[simp] theorem adoptCmd_pending (s : State) : (adoptCmd s).1.pending = s.pending := by
  unfold adoptCmd
  split <;> simp

@[simp] theorem restoreFactory_pending (s : State) : (restoreFactory s).pending = s.pending := by simp [restoreFactory]

/-! ## Memory faults and retraining -/

@[simp] theorem killStrand_pending (s : State) (n : Nat) : (killStrand s n).pending = s.pending := by simp [killStrand]

@[simp] theorem dropChannel_pending (s : State) (i : Nat) : (dropChannel s i).pending = s.pending := by rfl

@[simp] theorem loseChannel_pending (s : State) (i : Nat) : (loseChannel s i).pending = s.pending := by simp [loseChannel]

@[simp] theorem startRetrain_pending (s : State) (stack : Fin 8) (pc : Fin 32) : (startRetrain s stack pc).pending = s.pending := by
  simp [startRetrain]

@[simp] theorem memCorrected_pending (s : State) (stack : Fin 8) (pc : Fin 32) (page : Nat) :
    (memCorrected s stack pc page).pending = s.pending := by
  simp [memCorrected]

@[simp] theorem hbmEccReread_pending (s : State) (stack : Fin 8) (pc : Fin 32) (page n : Nat) (ok : Bool) :
    (hbmEccReread s stack pc page n ok).pending = s.pending := by
  simp [hbmEccReread]

@[simp] theorem checkValueReread_pending (s : State) (i row n : Nat) (ok : Bool) : (checkValueReread s i row n ok).pending = s.pending := by
  simp [checkValueReread]

@[simp] theorem pcRetrain_pending (s : State) (stack : Fin 8) (pc : Fin 32) : (pcRetrain s stack pc).pending = s.pending := by
  simp [pcRetrain]

@[simp] theorem pcRetrainDone_pending (s : State) (stack : Fin 8) (pc : Fin 32) (ok : Bool) :
    (pcRetrainDone s stack pc ok).pending = s.pending := by
  simp [pcRetrainDone]

/-! ## The Tally -/

@[simp] theorem addRecord_pending (s : State) (code : Word) (detail : Bytes) (drill : Bool) :
    (addRecord s code detail drill).pending = s.pending := by
  simp [addRecord]

@[simp] theorem beginFlush_pending (s : State) : (beginFlush s).pending = s.pending := by simp [beginFlush]

@[simp] theorem storeNow_pending (s : State) (r : State → TRec) : (storeNow s r).pending = s.pending := by simp [storeNow]

@[simp] theorem storeDropped_pending (s : State) : (storeDropped s).pending = s.pending := by simp [storeDropped]

@[simp] theorem flushNow_pending (s : State) : (flushNow s).pending = s.pending := by simp [flushNow]

@[simp] theorem clearTally_pending (s : State) : (clearTally s).pending = s.pending := by simp [clearTally]

/-! ## The Kennel -/

@[simp] theorem takeSample_pending (s : State) (code : Word) : (takeSample s code).pending = s.pending := by simp [takeSample]

@[simp] theorem preCollect_pending (s : State) (code : Word) : (preCollect s code).pending = s.pending := by simp [preCollect]

@[simp] theorem startTeardown_pending (s : State) (fault : Bool) : (startTeardown s fault).pending = s.pending := by simp [startTeardown]

@[simp] theorem sendAbort_pending (s : State) (code : Word) : (sendAbort s code).pending = s.pending := by simp [sendAbort]

@[simp] theorem faultEndsDrill_pending (s : State) : (faultEndsDrill s).pending = s.pending := by simp [faultEndsDrill]

@[simp] theorem endJob_pending (s : State) (code : Word) : (endJob s code).pending = s.pending := by simp [endJob]

@[simp] theorem recordCode_pending (s : State) (r : Raised) : (recordCode s r).pending = s.pending := by simp [recordCode]

@[simp] theorem pendReset_pending (s : State) (counted : Bool) : (pendReset s counted).pending = s.pending := by simp [pendReset]

@[simp] theorem deviceCode_pending (s : State) (code : Word) (counted : Bool) : (deviceCode s code counted).pending = s.pending := by
  simp [deviceCode]

@[simp] theorem applyEffect_pending (s : State) (r : Raised) : (applyEffect s r).pending = s.pending := by
  unfold applyEffect
  split <;> simp

@[simp] theorem collect_pending (s : State) : (collect s).pending = s.pending := by
  unfold collect
  split <;> simp

@[simp] theorem codeCollected_pending (s : State) (d : Detected) : (codeCollected s d).pending = s.pending := by
  unfold codeCollected
  repeat' split
  all_goals simp

@[simp] theorem afterCommit_pending (s : State) : (afterCommit s).pending = s.pending := by simp [afterCommit]

@[simp] theorem commitMarker_pending (s : State) : (commitMarker s).pending = s.pending := by rfl

@[simp] theorem markerCommit_pending (s : State) : (markerCommit s).pending = s.pending := by simp [markerCommit]

@[simp] theorem jobEnd_pending (s : State) : (jobEnd s).pending = s.pending := by simp [jobEnd]

@[simp] theorem freeInbox_pending (s : State) : (freeInbox s).pending = s.pending := by simp [freeInbox]

@[simp] theorem scrubContext_pending (s : State) : (scrubContext s).pending = s.pending := by simp [scrubContext]

@[simp] theorem destroyJobKey_pending (s : State) : (destroyJobKey s).pending = s.pending := by simp [destroyJobKey]

@[simp] theorem newIdleKey_pending (s : State) : (newIdleKey s).pending = s.pending := by rfl

@[simp] theorem contextReset_pending (s : State) : (contextReset s).pending = s.pending := by simp [contextReset]

@[simp] theorem teardownEnds_pending (s : State) : (teardownEnds s).pending = s.pending := by
  simp only [teardownEnds]
  repeat' split
  all_goals simp

@[simp] theorem hbmScrubComplete_pending (s : State) : (hbmScrubComplete s).pending = s.pending := by simp [hbmScrubComplete]

@[simp] theorem hangCheck_pending (s : State) : (hangCheck s).pending = s.pending := by simp [hangCheck]

@[simp] theorem hangThreshold_pending (s : State) : (hangThreshold s).pending = s.pending := by simp [hangThreshold]

@[simp] theorem heartbeat_pending (s : State) (missing : List Island) : (heartbeat s missing).pending = s.pending := by simp [heartbeat]

@[simp] theorem islandStall_pending (s : State) (i : Island) (stopFailed : Bool) : (islandStall s i stopFailed).pending = s.pending := by
  simp only [islandStall]
  repeat' split
  all_goals simp

@[simp] theorem tetherIslandReset_pending (s : State) : (tetherIslandReset s).pending = s.pending := by
  unfold tetherIslandReset
  exact foldl_pending (fun t l => (addRetry_pending ..).trans (setSess_pending ..)) _ _

@[simp] theorem islandReset_pending (s : State) (i : Island) : (islandReset s i).pending = s.pending := by
  unfold islandReset
  repeat' split
  all_goals simp

@[simp] theorem escalate_pending (s : State) : (escalate s).pending = s.pending := by simp [escalate]

@[simp] theorem drainCodes_pending (s : State) : (drainCodes s).pending = s.pending := by simp [drainCodes]

@[simp] theorem resetDie_pending (s : State) : (resetDie s).pending = s.pending := by rfl

@[simp] theorem deviceReset_pending (s : State) : (deviceReset s).pending = s.pending := by simp [deviceReset]

@[simp] theorem setBand_pending (s : State) (b : Nat) (t : BitVec 8) : (setBand s b t).pending = s.pending := by simp [setBand]

@[simp] theorem bandRise_pending (s : State) (t : BitVec 8) : (bandRise s t).pending = s.pending := by simp [bandRise]

@[simp] theorem bandFall_pending (s : State) (t : BitVec 8) : (bandFall s t).pending = s.pending := by simp [bandFall]

/-! ## Start-up -/

@[simp] theorem newChallenge_pending (s : State) : (newChallenge s).pending = s.pending := by rfl

@[simp] theorem runFw_pending (s : State) (kind : Nat) (b : Bool) : (runFw s kind b).pending = s.pending := by rfl

@[simp] theorem imageRefused_pending (s : State) : (imageRefused s).pending = s.pending := by simp [imageRefused]

@[simp] theorem bootFw_pending (s : State) (kind : Nat) : (bootFw s kind).1.pending = s.pending := by
  simp only [bootFw]
  repeat' split
  all_goals simp

@[simp] theorem raiseSvn_pending (s : State) (k : Nat) : (raiseSvn s k).pending = s.pending := by rfl

@[simp] theorem bootCal_pending (s : State) : (bootCal s).pending = s.pending := by simp [bootCal]

@[simp] theorem packageStart_pending (s : State) : (packageStart s).pending = s.pending := by simp [packageStart]

@[simp] theorem checkStraps_pending (s : State) : (checkStraps s).pending = s.pending := by simp [checkStraps]

@[simp] theorem standbyPowerGood_pending (s : State) (pos : BitVec 2) (leashEn : Bool) (images : Vector (Option (BitVec 32)) 5) :
    (standbyPowerGood s pos leashEn images).pending = s.pending := by
  simp [standbyPowerGood]

@[simp] theorem packageReset_pending (s : State) : (packageReset s).pending = s.pending := by simp [packageReset]

@[simp] theorem releaseDie_pending (s : State) : (releaseDie s).pending = s.pending := by rfl

@[simp] theorem computeDieRelease_pending (s : State) : (computeDieRelease s).pending = s.pending := by simp [computeDieRelease]

@[simp] theorem beginBringUp_pending (s : State) : (beginBringUp s).pending = s.pending := by simp [beginBringUp]

@[simp] theorem chooseRate_pending (s : State) : (chooseRate s).pending = s.pending := by simp [chooseRate]

@[simp] theorem kerrinServing_pending (s : State) : (kerrinServing s).pending = s.pending := by simp [kerrinServing]

@[simp] theorem settleDomain_pending (s : State) (d : Nat) : (settleDomain s d).pending = s.pending := by simp [settleDomain]

@[simp] theorem domainPowerGood_pending (s : State) (d : Nat) : (domainPowerGood s d).pending = s.pending := by simp [domainPowerGood]

@[simp] theorem domainPgTimeout_pending (s : State) (d : Nat) : (domainPgTimeout s d).pending = s.pending := by simp [domainPgTimeout]

@[simp] theorem hbmTrainingDone_pending (s : State) (failed : List (Fin 8 × Fin 32)) : (hbmTrainingDone s failed).pending = s.pending := by
  simp [hbmTrainingDone]

@[simp] theorem settleTether_pending (s : State) : (settleTether s).pending = s.pending := by simp [settleTether]

@[simp] theorem leaveBoot_pending (s : State) : (leaveBoot s).pending = s.pending := by simp [leaveBoot]

@[simp] theorem railsLate_pending (s : State) : (railsLate s).pending = s.pending := by simp [railsLate]

@[simp] theorem railOrderFault_pending (s : State) (step : BitVec 32) : (railOrderFault s step).pending = s.pending := by
  simp [railOrderFault]

@[simp] theorem losePower_pending (s : State) : (losePower s).pending = s.pending := by rfl

@[simp] theorem railFault_pending (s : State) (rail mv : BitVec 32) : (railFault s rail mv).pending = s.pending := by simp [railFault]

@[simp] theorem railOutOfRange_pending (s : State) (rail mv : BitVec 32) : (railOutOfRange s rail mv).pending = s.pending := by
  simp [railOutOfRange]

@[simp] theorem saveTime_pending (s : State) : (saveTime s).pending = s.pending := by rfl

@[simp] theorem powerFail_pending (s : State) : (powerFail s).pending = s.pending := by simp [powerFail]

@[simp] theorem vstbyLoss_pending (s : State) : (vstbyLoss s).pending = s.pending := by simp [vstbyLoss]

/-! ## The Shepherd -/

@[simp] theorem shepherdWatchdog_pending (s : State) : (shepherdWatchdog s).pending = s.pending := by simp [shepherdWatchdog]

@[simp] theorem shepherdServing_pending (s : State) : (shepherdServing s).pending = s.pending := by simp [shepherdServing]

@[simp] theorem toggle_pending (s : State) : (toggle s).pending = s.pending := by rfl

@[simp] theorem raiseEpoch_pending (s : State) : (raiseEpoch s).pending = s.pending := by rfl

@[simp] theorem takeLeash_pending (s : State) (f : State → State) (hf : ∀ t, (f t).pending = t.pending) :
    (takeLeash s f).pending = s.pending := by
  simp [takeLeash, hf]

@[simp] theorem stopLeash_pending (s : State) : (stopLeash s).pending = s.pending := by rfl

@[simp] theorem leashToggle_pending (s : State) : (leashToggle s).pending = s.pending := by simp [leashToggle]

@[simp] theorem leashSelfFence_pending (s : State) : (leashSelfFence s).pending = s.pending := by
  simp only [leashSelfFence]
  repeat' split
  all_goals simp

@[simp] theorem leashLapse_pending (s : State) : (leashLapse s).pending = s.pending := by simp [leashLapse]

@[simp] theorem leashPeerEdge_pending (s : State) (interval : Nat) (epochSeen : BitVec 32) :
    (leashPeerEdge s interval epochSeen).pending = s.pending := by
  simp [leashPeerEdge]

@[simp] theorem roleRequest_pending (s : State) : (roleRequest s).pending = s.pending := by simp [roleRequest]

@[simp] theorem getacccr_pending (s : State) : (getacccr s).pending = s.pending := by simp [getacccr]

@[simp] theorem leashYield_pending (s : State) : (leashYield s).pending = s.pending := by simp [leashYield]

@[simp] theorem actuatorRefused_pending (s : State) : (actuatorRefused s).pending = s.pending := by simp [actuatorRefused]

@[simp] theorem trayBusParity_pending (s : State) (resendFails : Bool) : (trayBusParity s resendFails).pending = s.pending := by
  simp [trayBusParity]

@[simp] theorem techPoll_pending (s : State) (toolAnswers : Bool) (others : List Word) :
    (techPoll s toolAnswers others).pending = s.pending := by
  simp [techPoll]

@[simp] theorem telemetrySample_pending (s : State) (v : Vector (BitVec 24) 16) : (telemetrySample s v).pending = s.pending := by
  simp [telemetrySample]

@[simp] theorem thermalTrip_pending (s : State) (sensor : Fin 9) : (thermalTrip s sensor).pending = s.pending := by simp [thermalTrip]

/-! ## Drills -/

@[simp] theorem pickOne_pending {α : Type} (s : State) (xs : List α) : (pickOne s xs).2.pending = s.pending := by rfl

@[simp] theorem drillFault_pending (s : State) (k : Nat) : (drillFault s k).pending = s.pending := by
  simp only [drillFault]
  repeat' split
  all_goals simp

@[simp] theorem beginDrill_pending (s : State) (k : Nat) : (beginDrill s k).pending = s.pending := by simp [beginDrill]

@[simp] theorem drillInject_pending (s : State) : (drillInject s).pending = s.pending := by
  unfold drillInject
  split <;> simp

@[simp] theorem drillSkip_pending (s : State) : (drillSkip s).pending = s.pending := by
  unfold drillSkip
  split <;> simp

/-! ## Register writes and grants -/

@[simp] theorem lockWrite_pending (s : State) (owner : Bool) (g : Nat) (f : State → State) (hf : ∀ t, (f t).pending = t.pending) :
    (lockWrite s owner g f).pending = s.pending := by
  unfold lockWrite
  split
  · exact raise_pending ..
  · exact hf s

@[simp] theorem clearEvent_pending (s : State) (u : EvUnit) (v : Nat) : (clearEvent s u v).pending = s.pending := by
  unfold clearEvent
  split <;> simp

@[simp] theorem okWrite_pending (s : State) : (okWrite s).1.pending = s.pending := by rfl

@[simp] theorem ownerOnly_pending (s : State) (code : Nat) : (ownerOnly s code).1.pending = s.pending := by simp [ownerOnly]

@[simp] theorem clearEscalation_pending (s : State) : (clearEscalation s).pending = s.pending := by simp [clearEscalation]

@[simp] theorem writeEscalate_pending (s : State) (owner : Bool) (v : Nat) : (writeEscalate s owner v).1.pending = s.pending := by
  have h := lockWrite_pending s owner 7
    (fun s => setKnl s { s.knl with windowH := BitVec.ofNat 8 (field v 15 8), limit := BitVec.ofNat 4 (field v 3 0) }) fun _ => rfl
  unfold writeEscalate
  repeat' split
  all_goals simp [h]

@[simp] theorem writeKnlReset_pending (s : State) (v : Nat) : (writeKnlReset s v).pending = s.pending := by simp [writeKnlReset]

@[simp] theorem writeKnl_pending (s : State) (owner : Bool) (off v : Nat) : (writeKnl s owner off v).1.pending = s.pending := by
  unfold writeKnl
  split
  · exact lockWrite_pending s owner 1 _ fun _ => rfl
  · exact writeEscalate_pending ..
  · exact lockWrite_pending s owner 7 _ fun _ => rfl
  · exact writeKnlReset_pending ..
  · rfl

@[simp] theorem tokSignal_pending (s : State) (v : Nat) : (tokSignal s v).1.pending = s.pending := by
  simp only [tokSignal]
  split <;> simp

@[simp] theorem disableUnits_pending (s : State) (v : Nat) : (disableUnits s v).pending = s.pending := by simp [disableUnits]

@[simp] theorem writeStr_pending (s : State) (owner : Bool) (off v : Nat) : (writeStr s owner off v).1.pending = s.pending := by
  unfold writeStr
  split <;> simp

@[simp] theorem writeLead_pending (s : State) (owner : Bool) (off v : Nat) : (writeLead s owner off v).1.pending = s.pending := by
  unfold writeLead
  repeat' split
  all_goals simp

@[simp] theorem writeTim_pending (s : State) (owner : Bool) (off v : Nat) : (writeTim s owner off v).1.pending = s.pending := by
  unfold writeTim
  split <;> simp

@[simp] theorem writeSnp_pending (s : State) (owner : Bool) (off v : Nat) : (writeSnp s owner off v).1.pending = s.pending := by
  unfold writeSnp
  split
  · exact lockWrite_pending s owner 0 _ fun _ => rfl
  · exact lockWrite_pending s owner 1 _ fun _ => rfl
  · exact lockWrite_pending s owner 7 _ fun _ => rfl
  · rfl

@[simp] theorem writeCalCmd_pending (s : State) (v : Nat) : (writeCalCmd s v).1.pending = s.pending := by
  unfold writeCalCmd
  repeat' split
  all_goals simp

@[simp] theorem writeUcalCtl_pending (s : State) (owner : Bool) (v : Nat) : (writeUcalCtl s owner v).1.pending = s.pending := by
  unfold writeUcalCtl
  repeat' split
  all_goals simp

@[simp] theorem writeGov_pending (s : State) (owner : Bool) (off v : Nat) : (writeGov s owner off v).1.pending = s.pending := by
  unfold writeGov
  split
  · exact lockWrite_pending s owner 3 _ fun _ => rfl
  · exact lockWrite_pending s owner 3 _ fun _ => rfl
  · exact writeCalCmd_pending ..
  · exact writeUcalCtl_pending ..
  · split
    · exact lockWrite_pending s owner 7 _ fun t => setUser_pending ..
    · rfl

@[simp] theorem writeSec_pending (s : State) (owner : Bool) (off v : Nat) : (writeSec s owner off v).1.pending = s.pending := by
  unfold writeSec
  split <;> simp

@[simp] theorem writeTally_pending (s : State) (owner : Bool) (off v : Nat) (cur : State → BitVec 19 → State)
    (hcur : ∀ t x, (cur t x).pending = t.pending) :
    (writeTally s owner off v cur).1.pending = s.pending := by
  unfold writeTally
  repeat' split
  all_goals simp [hcur]

@[simp] theorem writeDie_pending (s : State) (owner : Bool) (addr v : Nat) : (writeDie s owner addr v).1.pending = s.pending := by
  simp only [writeDie]
  split
  · exact clearEvent_pending ..
  · split
    · exact writeKnl_pending ..
    · exact writeStr_pending ..
    · split
      · exact lockWrite_pending s owner 2 _ fun _ => rfl
      · rfl
    · exact writeLead_pending ..
    · split
      · exact lockWrite_pending s owner 1 _ fun _ => rfl
      · rfl
    · exact writeTim_pending ..
    · split
      · exact lockWrite_pending s owner 1 _ fun _ => rfl
      · rfl
    · exact writeSnp_pending ..
    · exact writeGov_pending ..
    · exact writeSec_pending ..
    · exact writeTally_pending s owner _ v _ fun _ _ => setDieCursor_pending ..
    · rfl

@[simp] theorem writeShp_pending (s : State) (owner : Bool) (addr v : Nat) : (writeShp s owner addr v).1.pending = s.pending := by
  -- The offset is a variable here, since the kernel cannot evaluate `addr - 0x100000` under the match.
  obtain ⟨off, hoff⟩ : ∃ off, off = addr - 0x100000 := ⟨_, rfl⟩
  generalize hp : writeShp s owner addr v = p
  delta writeShp at hp
  rw [← hoff] at hp
  dsimp only at hp
  split at hp <;> subst hp
  · exact clearEvent_pending ..
  · repeat' split
    all_goals simp
  · repeat' split
    all_goals simp
  · split
    · exact writeSec_pending ..
    · split
      · exact writeTally_pending s owner _ v _ fun _ _ => setSideCursor_pending ..
      · rfl

@[simp] theorem serveWrite_pending (s : State) (r : Req) (k : ReqKind) (file : State → Nat → Option Nat)
    (write : State → Bool → Nat → Nat → State × Option Nat) (addr v : Nat) (hwrite : ∀ t o a x, (write t o a x).1.pending = t.pending) :
    (serveWrite s r k file write addr v).pending = s.pending := by
  refine request_pending s r k _ fun t => ?_
  have ht := hwrite t false addr v
  split
  · exact refuseReq_pending ..
  · split
    · exact respondCode_pending ..
    · split <;> rename_i h <;> rw [h] at ht <;> simpa using ht

@[simp] theorem regWrite_pending (s : State) (r : Req) (addr v : Nat) : (regWrite s r addr v).pending = s.pending := by simp [regWrite]

@[simp] theorem unitDrainDone_pending (s : State) (b : Nat) : (unitDrainDone s b).pending = s.pending := by simp [unitDrainDone]

@[simp] theorem grantFails_pending (s : State) (r : Req) (detail : Bytes) : (grantFails s r detail).pending = s.pending := by
  simp [grantFails]

@[simp] theorem beginUnlock_pending (s : State) : (beginUnlock s).pending = s.pending := by simp [beginUnlock]

@[simp] theorem endOldSessions_pending (s : State) : (endOldSessions s).pending = s.pending := by rfl

@[simp] theorem grantAnswer_pending (s : State) (r : Req) (err : Option Nat) : (grantAnswer s r err).pending = s.pending := by
  unfold grantAnswer
  repeat' split
  all_goals simp

@[simp] theorem ownerWrite_pending (s : State) (addr v : Nat) : (ownerWrite s addr v).1.pending = s.pending := by
  unfold ownerWrite
  split <;> simp

@[simp] theorem grant_pending (s : State) (r : Req) (g : Grant) : (grant s r g).pending = s.pending := by
  refine request_pending s r kKeyShp _ fun t => ?_
  repeat' split
  all_goals simp

/-! ## The Tether links -/

@[simp] theorem tetherUp_pending (s : State) (l : Nat) : (tetherUp s l).pending = s.pending := by simp [tetherUp]

@[simp] theorem bothLinksLost_pending (s : State) : (bothLinksLost s).pending = s.pending := by simp [bothLinksLost]

@[simp] theorem tetherAbort_pending (s : State) (r : Req) : (tetherAbort s r).pending = s.pending := by simp [tetherAbort]

/-! ## Secrecy -/

@[simp] theorem endSession_pending (s : State) (l : Nat) (shp : Bool) : (endSession s l shp).pending = s.pending := by simp [endSession]

@[simp] theorem hello_pending (s : State) (r : Req) (shepherd : Bool) (cert : OpCert) (key : BitVec 512) (nonce : BitVec 128) :
    (hello s r shepherd cert key nonce).pending = s.pending := by
  simp [hello]

@[simp] theorem openSession_pending (s : State) (l : Nat) (shepherd : Bool) (h : Handshake) :
    (openSession s l shepherd h).pending = s.pending := by
  simp [openSession]

@[simp] theorem finish_pending (s : State) (r : Req) (shepherd sigOk : Bool) : (finish s r shepherd sigOk).pending = s.pending := by
  refine request_pending s r _ _ fun t => ?_
  repeat' split
  all_goals simp

@[simp] theorem refuseJob_pending (s : State) (r : Req) (kind : Nat) : (refuseJob s r kind).pending = s.pending := by simp [refuseJob]

@[simp] theorem jobEphemeral_pending (s : State) (r : Req) (jobId : BitVec 64) : (jobEphemeral s r jobId).pending = s.pending := by
  simp [jobEphemeral]

@[simp] theorem overwriteHbm_pending (s : State) : (overwriteHbm s).pending = s.pending := by rfl

@[simp] theorem jobKey_pending (s : State) (r : Req) (jobId : BitVec 64) (node : BitVec 512) (wrapped : BitVec 256) (tag : BitVec 128)
    (epochW epochR : Word) :
    (jobKey s r jobId node wrapped tag epochW epochR).pending = s.pending := by
  refine request_pending s r kJob _ fun t => ?_
  split
  · split
    · simp only
      split <;> simp
    · simp
  · simp

@[simp] theorem jobDrop_pending (s : State) (r : Req) (jobId : BitVec 64) : (jobDrop s r jobId).pending = s.pending := by simp [jobDrop]

@[simp] theorem peerCert_pending (s : State) (r : Req) (signer : BitVec 24) (cert : Bytes) (bind : BitVec 128) (chains : Bool) :
    (peerCert s r signer cert bind chains).pending = s.pending := by
  simp [peerCert]

@[simp] theorem debugUnlock_pending (s : State) : (debugUnlock s).pending = s.pending := by simp [debugUnlock]

@[simp] theorem enroll_pending (s : State) (r : Req) (key : BitVec 512) (voucherOk : Bool) :
    (enroll s r key voucherOk).pending = s.pending := by
  simp [enroll]

@[simp] theorem attest_pending (s : State) (r : Req) (nonce : BitVec 128) : (attest s r nonce).pending = s.pending := by simp [attest]

@[simp] theorem fwData_pending (s : State) (r : Req) (kind off : Nat) (b : Bytes) : (fwData s r kind off b).pending = s.pending := by
  simp [fwData]

@[simp] theorem fwCommit_pending (s : State) (r : Req) (kind : Nat) (svn : Option Word) : (fwCommit s r kind svn).pending = s.pending := by
  simp [fwCommit]

/-! ## Restore -/

@[simp] theorem refuseRestore_pending (s : State) (r : Req) : (refuseRestore s r).pending = s.pending := by simp [refuseRestore]

@[simp] theorem manifestWhole_pending (s : State) (r : Req) (m : Bytes) (sigOk : Bool) :
    (manifestWhole s r m sigOk).pending = s.pending := by
  simp [manifestWhole]

@[simp] theorem restoreManifest_pending (s : State) (r : Req) (off : Nat) (last : Bool) (b : Bytes) (sigOk : Bool) :
    (restoreManifest s r off last b sigOk).pending = s.pending := by
  simp [restoreManifest]

@[simp] theorem writePage_pending (s : State) (x : Restore) (p : Nat) (plain : Bytes) : (writePage s x p plain).pending = s.pending := by
  unfold writePage
  repeat' split
  all_goals simp

@[simp] theorem pageWhole_pending (s : State) (x : Restore) (p : Nat) (stored : Bytes) (plain : Option Bytes) :
    (pageWhole s x p stored plain).pending = s.pending := by
  unfold pageWhole
  split <;> simp

@[simp] theorem restorePage_pending (s : State) (l : Nat) (marker : BitVec 64) (position : BitVec 32) (shard page off : Nat) (b : Bytes) :
    (restorePage s l marker position shard page off b).pending = s.pending := by
  refine bulk_pending s l _ fun t => ?_
  repeat' split
  all_goals simp

@[simp] theorem restoreDone_pending (s : State) (x : Restore) : (restoreDone s x).pending = s.pending := by rfl

@[simp] theorem restoreResult_pending (s : State) (x : Restore) : (restoreResult s x).pending = s.pending := by
  unfold restoreResult
  split <;> simp

@[simp] theorem restoreEnd_pending (s : State) (r : Req) : (restoreEnd s r).pending = s.pending := by
  refine request_pending s r kCkpt _ fun t => ?_
  split <;> simp

/-- Settles O4: each arm of `exec` goes on to the state that the command's meaning makes, and each meaning keeps the queue. -/
theorem everyCommandRuns : Obligations.EveryCommandRuns := by
  intro c s
  cases c <;> exact ⟨_, rfl, by simp⟩

end Sys2Proof.Machine
end

section
/-!
SUPPORT. The exact sums of a chunk (R24, R25, R28), and the bound on an aligned product that the guaranteed quantum gives (R27, R29): O17.
-/
namespace Sys2Proof.Machine

/-! ## A carry cell over a chunk -/

/-- The sums S_k of R28: the exact sum of a cell's value before and the first `n` aligned products. -/
def runningSum (q : Int) (ab : Nat → Fv × Fv) (c : BitVec 48) (n : Nat) : Int :=
  c.toInt + ((List.range n).map fun k => alignedProduct q (ab k).1 (ab k).2).sum

@[simp] theorem runningSum_zero (q : Int) (ab : Nat → Fv × Fv) (c : BitVec 48) : runningSum q ab c 0 = c.toInt := by simp [runningSum]

theorem runningSum_succ (q : Int) (ab : Nat → Fv × Fv) (c : BitVec 48) (n : Nat) :
    runningSum q ab c (n + 1) = runningSum q ab c n + alignedProduct q (ab n).1 (ab n).2 := by
  rw [runningSum, List.sum_range_succ, ← add_assoc, runningSum]

/-- One value of k more: a product is added to the carry, and the flag tells whether that sum, too, left the range. -/
theorem exactCell_succ (q : Int) (ab : Nat → Fv × Fv) (n : Nat) (hit : Nat → BitVec 48) (c : BitVec 48) :
    let r := exactCell q ab n hit c
    let x := r.1.toInt + alignedProduct q (ab n).1 (ab n).2
    exactCell q ab (n + 1) hit c = (BitVec.ofInt 48 x ^^^ hit n, r.2 || outside48 x) := by
  simp [exactCell, List.range_succ]

/-- Without faults the carry is the exact sum modulo 2^48. -/
theorem exactCell_fst (q : Int) (ab : Nat → Fv × Fv) (n : Nat) (c : BitVec 48) :
    (exactCell q ab n (fun _ => 0) c).1 = BitVec.ofInt 48 (runningSum q ab c n) := by
  induction n with
  | zero => simp [exactCell, BitVec.ofInt_toInt]
  | succ n ih =>
    rw [exactCell_succ, runningSum_succ, BitVec.ofInt_add, BitVec.ofInt_add, BitVec.ofInt_toInt, ih]
    exact BitVec.xor_zero

theorem outside48_eq_false {x : Int} : outside48 x = false ↔ -(2 ^ 47) ≤ x ∧ x < 2 ^ 47 := by
  simp [outside48]

theorem outside48_toInt (c : BitVec 48) : outside48 c.toInt = false :=
  outside48_eq_false.mpr ⟨c.le_toInt, c.toInt_lt⟩

/-- A sum inside the accumulator's range is read back unchanged. -/
theorem toInt_ofInt_of_inside {x : Int} (h : outside48 x = false) : (BitVec.ofInt 48 x).toInt = x :=
  have ⟨hlo, hhi⟩ := outside48_eq_false.mp h
  BitVec.toInt_ofInt_eq_self (by decide) hlo hhi

/-- The flag is set exactly when a running sum left the range: until the first one does, the carry is that running sum itself. -/
theorem exactCell_snd (q : Int) (ab : Nat → Fv × Fv) (n : Nat) (c : BitVec 48) :
    (exactCell q ab n (fun _ => 0) c).2 = true ↔ ∃ j, j < n ∧ outside48 (runningSum q ab c (j + 1)) = true := by
  induction n with
  | zero => simp [exactCell]
  | succ n ih =>
    rw [Nat.exists_lt_succ_right, ← ih, exactCell_succ, Bool.or_eq_true]
    by_cases hflag : (exactCell q ab n (fun _ => 0) c).2 = true
    · simp only [hflag, true_or]
    · have hin : outside48 (runningSum q ab c n) = false := by
        cases n with
        | zero => simpa using outside48_toInt c
        | succ m => exact Bool.eq_false_iff.mpr fun hm => hflag (ih.mpr ⟨m, m.lt_succ_self, hm⟩)
      rw [exactCell_fst, toInt_ofInt_of_inside hin, runningSum_succ]

/-! ## Exact values -/

/-- The rational number that an exact value stands for. -/
def Dy.val (x : Dy) : ℚ := x.m * 2 ^ x.e

theorem cast_pow2 {e : Int} (h : 0 ≤ e) : ((pow2 e : Nat) : ℚ) = 2 ^ e := by
  rw [pow2, Nat.cast_pow, Nat.cast_ofNat, ← zpow_natCast, Int.toNat_of_nonneg h]

theorem Dy.at_mul (x : Dy) {e : Int} (h : e ≤ x.e) : (x.at e : ℚ) * 2 ^ e = x.val := by
  rw [Dy.at, Int.cast_mul, Int.cast_natCast, cast_pow2 (by omega), mul_assoc, ← zpow_add₀ two_ne_zero, sub_add_cancel, Dy.val]

theorem Dy.lt_iff (x y : Dy) : x.lt y = true ↔ x.val < y.val := by
  rw [← x.at_mul (min_le_left x.e y.e), ← y.at_mul (min_le_right x.e y.e), mul_lt_mul_iff_left₀ (by positivity), Int.cast_lt]
  simp [Dy.lt]

theorem Dy.val_mul (x y : Dy) : (x.mul y).val = x.val * y.val := by
  rw [Dy.val, Dy.mul, Int.cast_mul, zpow_add₀ two_ne_zero, mul_mul_mul_comm]; rfl

theorem Dy.val_abs (x : Dy) : x.abs.val = |x.val| := by
  simp [Dy.val, Dy.abs, abs_mul]

/-- A finite value that is not above its ceiling is at most 2^e in magnitude (R18). -/
theorem abs_val_le_of_aboveCeil {v : Fv} {e : Int} (hfin : v.isFin = true) (h : aboveCeil v e = false) : |v.dy.val| ≤ 2 ^ e := by
  by_cases hm : v.dy.m = 0
  · rw [Dy.val, hm, Int.cast_zero, zero_mul, abs_zero]; positivity
  · have hlt : ¬ (Dy.mk 1 e).lt v.dy.abs = true := by simpa [aboveCeil, hfin, hm] using h
    rw [Dy.lt_iff, Dy.val_abs, not_lt] at hlt
    simpa [Dy.val] using hlt

/-! ## Alignment (R24) -/

/-- Rounding m / 2^s does not pass an integer bound on it. -/
theorem abs_rneShift_le {m N : Int} {s : Nat} (h : |m| ≤ N * (2 ^ s : Nat)) : |rneShift m s| ≤ N := by
  have hd : (0 : Int) < (2 ^ s : Nat) := by positivity
  obtain ⟨hlo, hhi⟩ := abs_le.mp h
  rw [← neg_mul] at hlo
  have hq : -N ≤ m / (2 ^ s : Nat) := Int.le_ediv_of_mul_le hd hlo
  unfold rneShift
  generalize ((2 ^ s : Nat) : Int) = d at *
  have hqN : m / d ≤ N := Int.ediv_le_of_le_mul hd hhi
  rcases hqN.lt_or_eq with hlt | heq
  · simp only [abs_le]
    split_ifs <;> omega
  · have hr : 2 * (m - m / d * d) < d := by rw [heq]; omega
    simp only [if_pos hr, abs_le]
    omega

/-- A value of at most N quanta is aligned to at most N. -/
theorem Dy.abs_align_le {x : Dy} {q : Int} {N : Int} (h : |x.val| ≤ N * 2 ^ q) : |x.align q| ≤ N := by
  have hq : (0 : ℚ) < 2 ^ q := by positivity
  unfold Dy.align
  split
  next hle =>
    rw [← x.at_mul hle, abs_mul, abs_of_pos hq, mul_le_mul_iff_left₀ hq] at h
    exact_mod_cast h
  next hlt =>
    have hs : (2 : ℚ) ^ q = (2 ^ (q - x.e).toNat : Nat) * 2 ^ x.e := by
      have hpow := cast_pow2 (e := q - x.e) (by omega)
      rw [pow2] at hpow
      rw [hpow, ← zpow_add₀ two_ne_zero, sub_add_cancel]
    rw [Dy.val, abs_mul, abs_of_pos (a := (2 : ℚ) ^ x.e) (by positivity), hs, ← mul_assoc, mul_le_mul_iff_left₀ (by positivity)] at h
    exact abs_rneShift_le (by exact_mod_cast h)

/-- The aligned product of operands not above their ceilings, where 2^(E_A + E_B) is at most N quanta. -/
theorem abs_alignedProduct_le {a b : Fv} {ea eb q N : Int} (ha : aboveCeil a ea = false) (hb : aboveCeil b eb = false) (hN : 0 ≤ N)
    (hq : (2 : ℚ) ^ (ea + eb) ≤ N * 2 ^ q) : |alignedProduct q a b| ≤ N := by
  unfold alignedProduct
  split
  next hfin =>
    obtain ⟨hfa, hfb⟩ := Bool.and_eq_true_iff.mp hfin
    refine Dy.abs_align_le (le_trans ?_ hq)
    rw [Dy.val_mul, abs_mul, zpow_add₀ two_ne_zero]
    exact mul_le_mul (abs_val_le_of_aboveCeil hfa ha) (abs_val_le_of_aboveCeil hfb hb) (abs_nonneg _) (by positivity)
  next => simpa using hN

/-! ## The guaranteed quantum (R27) -/

theorem le_two_pow_ceilLog2 (k : Nat) : k ≤ 2 ^ ceilLog2 k := by
  unfold ceilLog2
  split
  · simpa
  · have := Nat.lt_log2_self (n := k - 1)
    omega

theorem ceilLog2_le {k n : Nat} (h : k ≤ 2 ^ n) : ceilLog2 k ≤ n := by
  unfold ceilLog2
  split
  · exact n.zero_le
  · exact (Nat.log2_lt (by omega)).mpr (by omega)

/-- The largest product that the ceilings admit is at most 2^(46 - L) quanta at the guaranteed quantum. -/
theorem two_zpow_le_quantum (ea eb : Int) {k : Nat} (hk : k ≤ 2 ^ 46) :
    (2 : ℚ) ^ (ea + eb) ≤ ((2 ^ (46 - ceilLog2 k) : Nat) : Int) * 2 ^ quantum ea eb k true := by
  have hL : ceilLog2 k ≤ 46 := ceilLog2_le hk
  have hq : ea + eb + ceilLog2 k + 1 - 47 ≤ quantum ea eb k true := le_max_left _ _
  rw [Int.cast_natCast, Nat.cast_pow, Nat.cast_ofNat, ← zpow_natCast, ← zpow_add₀ two_ne_zero]
  exact zpow_le_zpow_right₀ one_le_two (by omega)

/-- From a zeroed cell, `n` products of at most N each sum to at most n N. -/
theorem abs_runningSum_le {q N : Int} {ab : Nat → Fv × Fv} {n : Nat} (h : ∀ j, j < n → |alignedProduct q (ab j).1 (ab j).2| ≤ N) :
    |runningSum q ab 0 n| ≤ n * N := by
  induction n with
  | zero => simp
  | succ n ih =>
    rw [runningSum_succ, Nat.cast_succ, add_one_mul]
    exact (abs_add_le _ _).trans (add_le_add (ih fun j hj => h j (by omega)) (h n n.lt_succ_self))

/-- R29: over at most K values, each operand at most its ceiling, no running sum at the guaranteed quantum passes 2^46. -/
theorem abs_runningSum_guaranteed_le {ea eb : Int} {k n : Nat} {ab : Nat → Fv × Fv} (hk : k ≤ 2 ^ 46) (hn : n ≤ k)
    (h : ∀ j, j < n → aboveCeil (ab j).1 ea = false ∧ aboveCeil (ab j).2 eb = false) :
    |runningSum (quantum ea eb k true) ab 0 n| ≤ 2 ^ 46 := by
  have hp : ∀ j, j < n → |alignedProduct (quantum ea eb k true) (ab j).1 (ab j).2| ≤ (2 ^ (46 - ceilLog2 k) : Nat) := fun j hj =>
    abs_alignedProduct_le (h j hj).1 (h j hj).2 (Int.natCast_nonneg _) (two_zpow_le_quantum ea eb hk)
  have hsum : n * 2 ^ (46 - ceilLog2 k) ≤ 2 ^ 46 := calc
    n * 2 ^ (46 - ceilLog2 k) ≤ 2 ^ ceilLog2 k * 2 ^ (46 - ceilLog2 k) := Nat.mul_le_mul_right _ (hn.trans (le_two_pow_ceilLog2 k))
    _ = 2 ^ 46 := by rw [← pow_add, Nat.add_sub_cancel' (ceilLog2_le hk)]
  exact (abs_runningSum_le hp).trans (by exact_mod_cast hsum)

/-- Settles O17: (1) by induction over the chunk, the carry being the running sum until one leaves the range; (2) as each running sum at the
guaranteed quantum stays within 2^46. -/
theorem exactSums : Obligations.ExactSums := by
  refine ⟨fun q ab ks c => ⟨exactCell_fst q ab ks c, exactCell_snd q ab ks c⟩, fun ea eb k ks ab _ hk hks h => ?_⟩
  rw [← Bool.not_eq_true, exactCell_snd]
  rintro ⟨j, hj, hout⟩
  obtain ⟨hlo, hhi⟩ := abs_le.mp <|
    abs_runningSum_guaranteed_le (n := j + 1) (hk.trans (by decide)) (by omega) fun i hi => h i (by omega)
  refine absurd hout (Bool.eq_false_iff.mp (outside48_eq_false.mpr ⟨?_, ?_⟩)) <;> omega

end Sys2Proof.Machine
end

section
/-!
SUPPORT. Carry slots and rings after an update of one, and what a code of the Frame or of the Edge changes as it is raised: for O19, O21 and
O22.
-/
namespace Sys2Proof.Machine

/-! ## Carry slots and rings -/

theorem slot_setSlot_same (s : State) {k : Nat} (h : k < 16) (x : Slot) : slot (setSlot s k x) k = x := vget_vset_same _ h _ _

theorem slot_setSlot_other (s : State) {k j : Nat} (h : j ≠ k) (x : Slot) : slot (setSlot s k x) j = slot s j := vget_vset_other _ h _ _

theorem slot_congr {s t : State} (h : t.frm.slots = s.frm.slots) (k : Nat) : slot t k = slot s k := by
  unfold slot; rw [h]

theorem ring_setRing_same (s : State) {r : Nat} (h : r < 64) (x : Ring) : ring (setRing s r x) r = x := vget_vset_same _ h _ _

theorem ring_congr {s t : State} (h : t.str.rings = s.str.rings) (r : Nat) : ring t r = ring s r := by
  unfold ring; rw [h]

/-- A ring beyond the 64 has nothing in it. -/
theorem ring_lt_of_produced {s : State} {r : Nat} (h : (ring s r).c < (ring s r).p) : r < 64 := by
  by_contra hr
  have hnone : ring s r = {} := by simp [ring, vget, List.getD_eq_getElem?_getD, hr]
  simp [hnone] at h

/-! ## Codes of the Frame and of the Edge -/

/-- A code whose EVENT bit is one of unit u's, and for which no counter is named. -/
def UnitCode (u : EvUnit) (code : Nat) : Prop := (∃ b, eventBit code = some (u, b)) ∧ ∀ t, countCode t code = t

/-- A code of the Frame changes the Frame's EVENT and the codes on their way. -/
theorem raise_onlyFrm {s : State} (h : s.die ≠ .off) {code b : Nat} (hb : eventBit code = some (.frm, b))
    (hc : ∀ t, countCode t code = t) (eff : Effect) (detail : Bytes) :
    raise s code eff detail = { s with
      frm := { s.frm with event := orBit s.frm.event b }
      knl := { s.knl with inflight := s.knl.inflight ++ [⟨BitVec.ofNat 32 code, eff, detail, s.sys.drill⟩] } } :=
  raise_released h hb hc eff detail

/-- A code of the Edge changes the Edge's EVENT and the codes on their way. -/
theorem raise_onlyEdg {s : State} (h : s.die ≠ .off) {code b : Nat} (hb : eventBit code = some (.edg, b))
    (hc : ∀ t, countCode t code = t) (eff : Effect) (detail : Bytes) :
    raise s code eff detail = { s with
      edg := { s.edg with event := orBit s.edg.event b }
      knl := { s.knl with inflight := s.knl.inflight ++ [⟨BitVec.ofNat 32 code, eff, detail, s.sys.drill⟩] } } :=
  raise_released h hb hc eff detail

/-- While a job runs the compute die is released. -/
theorem running_released {s : State} (h : running s = true) : s.die ≠ .off := by
  rw [running, Bool.and_eq_true, decide_eq_true_eq, decide_eq_true_eq] at h
  simp [h.2]

end Sys2Proof.Machine
end

section
/-!
SUPPORT. Bead tests of one failed bead, spare substitutions and the waking of strips (R77, R79, R80, R82): O21.
-/
namespace Sys2Proof.Machine

/-! ## Bead tests -/

/-- One bead is no whole column. -/
theorem wholeCols_singleton (r c : Nat) : wholeCols [(r, c)] = [] := by
  refine List.filter_eq_nil_iff.mpr fun c' _ hall => ?_
  obtain ⟨r', hr', hne⟩ : ∃ r', r' < 1040 ∧ r' ≠ r := by
    by_cases h : r = 0
    · exact ⟨1, by omega, by omega⟩
    · exact ⟨0, by omega, by omega⟩
  have := List.all_eq_true.mp hall r' (List.mem_range.mpr hr')
  simp [hne] at this

/-- One bead is no whole row: of three strips, one is neither retired nor the bead's. -/
theorem wholeRows_singleton (s : State) (r c : Nat) : wholeRows s [(r, c)] = [] := by
  refine List.filter_eq_nil_iff.mpr fun r' _ hall => ?_
  obtain ⟨c', hc', hne, hret⟩ : ∃ c', c' < 1040 ∧ c' ≠ c ∧ ∀ x ∈ s.frm.retired, x.val ≠ c' / 65 := by
    cases s.frm.retired with
    | none =>
      by_cases h : c = 0
      · exact ⟨1, by omega, by omega, by simp⟩
      · exact ⟨0, by omega, by omega, by simp⟩
    | some x =>
      have hsome : ∃ p, p < 3 ∧ p ≠ c / 65 ∧ x.val ≠ p := by
        by_contra hno
        push Not at hno
        have h0 := hno 0
        have h1 := hno 1
        have h2 := hno 2
        omega
      obtain ⟨p, hp, hpc, hpx⟩ := hsome
      exact ⟨65 * p, by omega, by omega, by simpa using by omega⟩
  have hfail := List.all_eq_true.mp hall c' (List.mem_range.mpr hc')
  cases hr : s.frm.retired with
  | none => simp [hr, hne] at hfail
  | some x => simp [hr, hne, hret x hr] at hfail

theorem mapOutBeads_singleton (s : State) (b : Fin 1040 × Fin 1040) : mapOutBeads s [b] = mapOutBead s b.1 b.2 := by
  simp [mapOutBeads, wholeCols_singleton, wholeRows_singleton]

/-- R80, step 1: a bead that no unused spare row holds takes its strip's spare column, if that is free. -/
theorem mapOutBead_column {s : State} {row col : Nat} (hout : beadOut s row col = false)
    (hrow : ¬(row % 65 = 64 ∧ col % 65 ≠ 64 ∧ vget s.frm.rowFail (row / 65) 0 = 0x7F)) (hfree : vget s.frm.colFail (col / 65) 0 = 0x7F) :
    mapOutBead s row col = useColumn s (col / 65) (col % 65) := by
  simp only [mapOutBead, hout, spareRowFree, spareColFree, beq_iff_eq, if_neg hrow, hfree, Bool.false_eq_true, if_false, if_true]

/-- A bead of an unused spare row is entered at offset 64 of its band (R80). -/
theorem mapOutBead_spareRow {s : State} {row col : Nat} (hout : beadOut s row col = false)
    (hrow : row % 65 = 64 ∧ col % 65 ≠ 64 ∧ vget s.frm.rowFail (row / 65) 0 = 0x7F) :
    mapOutBead s row col = useRow s (row / 65) 64 := by
  simp only [mapOutBead, hout, spareRowFree, beq_iff_eq, if_pos hrow, Bool.false_eq_true, if_false]

/-- The bead test of a start-up maps out what failed and gates the strips. -/
theorem beadTest_boot {s : State} (hd : s.die = .serving) {failed : List (Fin 1040 × Fin 1040)}
    (hb : (mapOutBeads s failed).sys.st = .boot) :
    beadTest s failed =
      let u := mapOutBeads s failed
      { setStrips u 0 with boot := { u.boot with beadTest := true } } := by
  simp only [beadTest, hd, hb, not_true_eq_false, ne_eq, if_false, if_true]

/-- A spare column is entered in the bead map; the rest of the map, SYS_STATE and the other units stay. -/
theorem useColumn_map (s : State) (p o : Nat) : (useColumn s p o).frm.colFail = vset s.frm.colFail p (BitVec.ofNat 7 o) ∧
    (useColumn s p o).frm.rowFail = s.frm.rowFail ∧ (useColumn s p o).frm.retired = s.frm.retired ∧ (useColumn s p o).sys = s.sys := by
  unfold useColumn
  simp only
  split <;> exact ⟨rfl, rfl, rfl, rfl⟩

theorem stripsOn_setStrips (s : State) (m : BitVec 16) : stripsOn (setStrips s m) = m := by
  unfold stripsOn setStrips
  ext i hi
  simp

/-- The start-up's bead test of a bead that takes its strip's spare column. -/
theorem beadTest_column {s : State} (hd : s.die = .serving) (hb : s.sys.st = .boot) {b : Fin 1040 × Fin 1040}
    (hout : beadOut s b.1 b.2 = false)
    (hrow : ¬(b.1.val % 65 = 64 ∧ b.2.val % 65 ≠ 64 ∧ vget s.frm.rowFail (b.1.val / 65) 0 = 0x7F))
    (hfree : vget s.frm.colFail (b.2.val / 65) 0 = 0x7F) :
    Runs (.beadTest [b]) s fun t => vget t.frm.colFail (b.2.val / 65) 0x7F = BitVec.ofNat 7 (b.2.val % 65) ∧
      t.frm.rowFail = s.frm.rowFail ∧ t.frm.retired = s.frm.retired ∧ stripsOn t = 0 ∧ t.boot.beadTest = true := by
  have hmap : mapOutBeads s [b] = useColumn s (b.2.val / 65) (b.2.val % 65) := by
    rw [mapOutBeads_singleton, mapOutBead_column hout hrow hfree]
  obtain ⟨hcol, hrowFail, hret, hsys⟩ := useColumn_map s (b.2.val / 65) (b.2.val % 65)
  refine ⟨beadTest s [b], rfl, ?_⟩
  rw [beadTest_boot hd (by rw [hmap, hsys, hb]), hmap]
  refine ⟨?_, hrowFail, hret, stripsOn_setStrips _ 0, rfl⟩
  show vget (useColumn s _ _).frm.colFail _ _ = _
  rw [hcol, vget_vset_same _ (by omega)]

/-- The start-up's bead test of a bead of an unused spare row. -/
theorem beadTest_spareRow {s : State} (hd : s.die = .serving) (hb : s.sys.st = .boot) {b : Fin 1040 × Fin 1040}
    (hout : beadOut s b.1 b.2 = false)
    (hrow : b.1.val % 65 = 64 ∧ b.2.val % 65 ≠ 64 ∧ vget s.frm.rowFail (b.1.val / 65) 0 = 0x7F) :
    Runs (.beadTest [b]) s fun t => vget t.frm.rowFail (b.1.val / 65) 0x7F = 64 ∧
      t.frm.colFail = s.frm.colFail ∧ t.frm.retired = s.frm.retired ∧ t.frm.subst = s.frm.subst := by
  have hmap : mapOutBeads s [b] = useRow s (b.1.val / 65) 64 := by rw [mapOutBeads_singleton, mapOutBead_spareRow hout hrow]
  refine ⟨beadTest s [b], rfl, ?_⟩
  rw [beadTest_boot hd (by rw [hmap]; exact hb), hmap]
  exact ⟨vget_vset_same _ (by omega) _ _, rfl, rfl, rfl⟩

/-! ## Substitutions and waking -/

/-- One code of the Frame raised for each of a list, with a detail of each. -/
theorem foldl_raise_onlyFrm {α : Type} {code b : Nat} (hb : eventBit code = some (.frm, b)) (hc : ∀ t, countCode t code = t) (eff : Effect)
    (detail : α → Bytes) (xs : List α) {s : State} (h : s.die ≠ .off) : ∃ e,
    xs.foldl (fun s x => raise s code eff (detail x)) s = { s with
      frm := { s.frm with event := e }
      knl := { s.knl with
        inflight := s.knl.inflight ++ xs.map fun x => ⟨BitVec.ofNat 32 code, eff, detail x, s.sys.drill⟩ } } := by
  induction xs generalizing s with
  | nil => exact ⟨s.frm.event, by simp⟩
  | cons x xs ih =>
    rw [List.foldl_cons, raise_onlyFrm h hb hc]
    obtain ⟨e, he⟩ := ih (s := { s with
      frm := { s.frm with event := orBit s.frm.event b }
      knl := { s.knl with inflight := s.knl.inflight ++ [⟨BitVec.ofNat 32 code, eff, detail x, s.sys.drill⟩] } }) h
    exact ⟨e, by rw [he]; simp⟩

/-- R82: between two operations the substitutions decided take effect, and each is reported. -/
theorem spareSubstitution_takesEffect {s : State} (hd : s.die ≠ .off) (hs : s.frm.subst ≠ [])
    (hops : s.frm.ops.all (fun op => seatPass op == 0) = true) :
    Runs .spareSubstitution s fun t => t.frm.subst = [] ∧ t.frm.rowMap = s.frm.rowFail ∧ t.frm.colMap = s.frm.colFail ∧
      t.frm.rowFail = s.frm.rowFail ∧ t.frm.colFail = s.frm.colFail ∧
      (∀ x ∈ s.frm.subst, OnItsWay t 0x01020005 .event (natLE 4 x.unit ++ natLE 4 x.offset ++ natLE 4 x.step) s.sys.drill) ∧
      t.mem = s.mem ∧ t.brd = s.brd ∧ t.str = s.str := by
  have hgo : ¬(s.frm.subst.isEmpty || s.frm.ops.any fun op => decide (0 < seatPass op)) = true := by
    simp only [List.all_eq_true, beq_iff_eq] at hops
    simpa [hs, Nat.pos_iff_ne_zero] using hops
  obtain ⟨e, he⟩ := foldl_raise_onlyFrm (code := 0x01020005) rfl (fun _ => rfl) .event
    (fun x : Subst => d4 x.unit ++ d4 x.offset ++ d4 x.step) s.frm.subst hd
  refine ⟨spareSubstitution s, rfl, ?_⟩
  rw [spareSubstitution, if_neg hgo, he]
  simp only
  repeat' split
  all_goals
    exact ⟨rfl, rfl, rfl, rfl, rfl, fun x hx => List.mem_append_right _ (List.mem_map.mpr ⟨x, hx, rfl⟩), rfl, rfl, rfl⟩

/-- A bit of a union of masks. -/
theorem getLsbD_foldl_or {α : Type} {n : Nat} (f : α → BitVec n) (xs : List α) (m : BitVec n) (i : Nat) :
    (xs.foldl (fun m x => m ||| f x) m).getLsbD i = (m.getLsbD i || xs.any fun x => (f x).getLsbD i) := by
  induction xs generalizing m with
  | nil => simp
  | cons x xs ih => rw [List.foldl_cons, ih, BitVec.getLsbD_or, List.any_cons, Bool.or_assoc]

/-- A strip that an issued operation needs wakes (R77). -/
theorem stripWake_needed {s : State} {p : Nat} (hr : running s = true) {op : FrameOp} (hop : op ∈ s.frm.ops)
    (hp : (stripMask s (stripsNeeded op.desc op.width)).getLsbD p = true) :
    stripWake s p = setStrips s (stripsOn s ||| BitVec.ofNat 16 (2 ^ p)) := by
  have hneed : (s.frm.ops.foldl (fun m op => m ||| stripMask s (stripsNeeded op.desc op.width)) 0).getLsbD p = true := by
    rw [getLsbD_foldl_or, List.any_eq_true.mpr ⟨op, hop, hp⟩, Bool.or_true]
  simp only [stripWake, hr, bitOf_toNat, hneed, and_self, if_true]

/-- Settles O21: the bead test maps one bead out by R80's steps; the substitutions and the waking by their lemmas. -/
theorem beadMap : Obligations.BeadMap := by
  refine ⟨fun s failed hd hb => ⟨?_, ?_⟩, fun s hd hs hops => spareSubstitution_takesEffect hd hs hops, fun s p op hr hop hp => ?_⟩
  · rintro b rfl hout
    exact ⟨beadTest_column hd hb hout, fun h1 h2 h3 => beadTest_spareRow hd hb hout ⟨h1, h2, h3⟩⟩
  · rintro rfl
    refine ⟨beadTest s [], rfl, ?_⟩
    rw [beadTest_boot (failed := []) hd hb]
    exact ⟨stripsOn_setStrips _ 0, rfl⟩
  · refine ⟨_, congrArg Host.Outcome.next (stripWake_needed hr hop hp), ?_, fun q hq => ?_, rfl⟩
    · rw [stripsOn_setStrips, BitVec.getLsbD_or, BitVec.getLsbD_ofNat]
      simp [Nat.testBit_two_pow_self]
    · rw [stripsOn_setStrips, BitVec.getLsbD_or, BitVec.getLsbD_ofNat]
      simp [Ne.symm hq]

end Sys2Proof.Machine
end

section
/-!
SUPPORT. DRAIN from its issue to its last row (R70, R103, R105, R106, R121, R122): what its rows are, the bytes that they form in the segment, and
what reporting them changes: O22.
-/
namespace Sys2Proof.Machine

/-! ## Issue -/

/-- A drain whose slot suits its descriptor begins: it joins the Edge's operations, and its slot turns Draining. -/
theorem drainBegin_begins {s : State} {op : EdgeOp} (h : drainBeginRefusal s op.desc (slot s (wFld op.word 79 76)) = none) :
    drainBegin s op = setSlot (setEdgeOps s (s.edg.ops ++ [{ op with phase := .rows }])) (wFld op.word 79 76)
      { slot s (wFld op.word 79 76) with st := 3 } := by
  simp only [drainBegin, h]
  rfl

/-- The operation that the Edge strand's DRAIN becomes as it issues. -/
def issuedDrain (s : State) : EdgeOp :=
  { num := s.edg.issued, index := (strand s 1).index.toNat, word := (strand s 1).word
    desc := mread s.brd.mem (wFld (strand s 1).word 67 46 * 64) 128, sweep := false, phase := .slotWait }

/-- The state in which the Edge strand's instruction has issued and is counted. -/
def edgeIssued (s : State) : State := issueStrand { s with edg := { s.edg with issued := s.edg.issued + 1 } } 1

/-- A DRAIN whose descriptor is sound is refused, begins or waits by its slot's tag and state (R70, R103). -/
theorem drainIssue_sound {s : State} (hb : begun s 1 0x10 = true) (he : edgeFree s = true)
    (hr : drainRefusal s (wFld (strand s 1).word 67 46 * 64) (issuedDrain s).desc = none) :
    drainIssue s =
      let k := slot s (wFld (strand s 1).word 79 76)
      let diff := tagDiff (BitVec.ofNat 8 (wFld (strand s 1).word 75 68)) k.tag
      if diff < 0 ∨ (diff = 0 ∧ (k.st = 0 ∨ k.st = 3)) then refuse s 1 0x0B020008
      else if diff = 0 ∧ k.st = 2 then drainBegin (edgeIssued s) (issuedDrain s)
      else setHold (setEdgeOps (edgeIssued s) ((edgeIssued s).edg.ops ++ [issuedDrain s])) 1 4 := by
  simp only [issuedDrain] at hr
  simp only [drainIssue, hb, he, Bool.and_self, if_true, hr]
  rfl

/-- A refusal of the Edge strand with a code that has no EVENT bit of its own sets the Edge's ISSUE_FAULT. -/
theorem refuse_edge {s : State} (h : s.die ≠ .off) {code : Nat} (hb : eventBit code = none) (hc : ∀ t, countCode t code = t) :
    refuse s 1 code = { stopStrand s 1 with
      edg := { s.edg with event := orBit s.edg.event 7 }
      knl := { s.knl with inflight := s.knl.inflight ++ [⟨BitVec.ofNat 32 code, .jobEnding, [], s.sys.drill⟩] } } :=
  raise_noEvent (s := issueFault (stopStrand s 1) 1) h hb hc .jobEnding []

theorem begun_running {s : State} {n op : Nat} (h : begun s n op = true) : running s = true := by
  simp only [begun, Bool.and_eq_true] at h
  obtain ⟨⟨⟨⟨hr, -⟩, -⟩, -⟩, -⟩ := h
  exact hr

/-- The slot that a drain's word names is one of the 16. -/
theorem drainSlot_lt (w : BitVec 128) : wFld w 79 76 < 16 := Nat.mod_lt _ (by decide)

/-- A waiting drain begins when its slot is Full at its fill tag (R70). -/
theorem drainSlotReady_begins {s : State} {before : List EdgeOp} {op : EdgeOp} (hr : running s = true) (hd : (strand s 1).dead = false)
    (hops : s.edg.ops = before ++ [op]) (hp : op.phase = .slotWait) (hst : (slot s (wFld op.word 79 76)).st = 2)
    (htag : (slot s (wFld op.word 79 76)).tag = BitVec.ofNat 8 (wFld op.word 75 68)) :
    drainSlotReady s = drainBegin (setHold (setEdgeOps s before) 1 0) op := by
  simp only [drainSlotReady, hops, List.getLast?_concat, List.dropLast_concat, hr, hd, hp, hst, htag, and_self, if_true]

section
variable {s : State} (hb : begun s 1 0x10 = true) (he : edgeFree s = true)
  (hr : drainRefusal s (wFld (strand s 1).word 67 46 * 64) (issuedDrain s).desc = none)
include hb he hr

/-- A DRAIN whose slot is Full at its fill tag issues and turns the slot Draining. -/
theorem drain_begins
    (hdiff : tagDiff (BitVec.ofNat 8 (wFld (strand s 1).word 75 68)) (slot s (wFld (strand s 1).word 79 76)).tag = 0)
    (hst : (slot s (wFld (strand s 1).word 79 76)).st = 2)
    (hbegin : drainBeginRefusal s (issuedDrain s).desc (slot s (wFld (strand s 1).word 79 76)) = none) :
    let i := wFld (strand s 1).word 79 76
    Runs .drain s fun t => Issued s t 1 ∧
      t.edg = { s.edg with ops := s.edg.ops ++ [{ issuedDrain s with phase := .rows }], issued := s.edg.issued + 1 } ∧
      slot t i = { slot s i with st := 3 } ∧ (∀ k, k ≠ i → slot t k = slot s k) ∧
      t = { s with edg := t.edg, str := { s.str with strands := t.str.strands }, frm := { s.frm with slots := t.frm.slots } } := by
  have hdrain : drainIssue s = drainBegin (edgeIssued s) (issuedDrain s) := by
    rw [drainIssue_sound hb he hr]
    simp [hdiff, hst]
  exact ⟨_, congrArg Host.Outcome.next (hdrain.trans (drainBegin_begins hbegin)), issued_issueStrand rfl (by decide), rfl,
    slot_setSlot_same _ (drainSlot_lt _) _, fun k hk => slot_setSlot_other _ hk _, rfl⟩

/-- A DRAIN whose slot has not reached its fill tag, or fills at it, issues and waits for its slot. -/
theorem drain_waits
    (hwait : 0 < tagDiff (BitVec.ofNat 8 (wFld (strand s 1).word 75 68)) (slot s (wFld (strand s 1).word 79 76)).tag ∨
      tagDiff (BitVec.ofNat 8 (wFld (strand s 1).word 75 68)) (slot s (wFld (strand s 1).word 79 76)).tag = 0 ∧
        (slot s (wFld (strand s 1).word 79 76)).st = 1) :
    let x := strand s 1
    Runs .drain s fun t => t.edg = { s.edg with ops := s.edg.ops ++ [issuedDrain s], issued := s.edg.issued + 1 } ∧
      strand t 1 = { x with inflight := x.inflight ++ [(x.index.toNat, x.word)], index := x.index + 1, phase := .fetch, st := 1, hold := 4 } ∧
      (∀ m, m ≠ 1 → strand t m = strand s m) ∧ t = { s with edg := t.edg, str := { s.str with strands := t.str.strands } } := by
  have hdrain : drainIssue s = setHold (setEdgeOps (edgeIssued s) ((edgeIssued s).edg.ops ++ [issuedDrain s])) 1 4 := by
    rw [drainIssue_sound hb he hr]
    rcases hwait with hpos | ⟨hzero, hst⟩
    · simp [not_lt.mpr hpos.le, hpos.ne']
    · simp [hzero, hst]
  obtain ⟨hself, hother⟩ : Issued s (edgeIssued s) 1 := issued_issueStrand rfl (by decide)
  exact ⟨_, congrArg Host.Outcome.next hdrain, rfl,
    (strand_setStrand_same _ (by decide) _).trans (congrArg (fun y : Strand => { y with hold := 4 }) hself),
    fun m hm => (strand_setStrand_other _ hm _).trans (hother m hm), rfl⟩

/-- A DRAIN whose slot has passed its fill tag, or is Empty or Draining at it, is refused. -/
theorem drain_refused
    (hlate : tagDiff (BitVec.ofNat 8 (wFld (strand s 1).word 75 68)) (slot s (wFld (strand s 1).word 79 76)).tag < 0 ∨
      tagDiff (BitVec.ofNat 8 (wFld (strand s 1).word 75 68)) (slot s (wFld (strand s 1).word 79 76)).tag = 0 ∧
        ((slot s (wFld (strand s 1).word 79 76)).st = 0 ∨ (slot s (wFld (strand s 1).word 79 76)).st = 3)) :
    Runs .drain s fun t => RefusedAtIssue s t 1 0x0B020008 ∧ t.frm = s.frm ∧ t.edg.ops = s.edg.ops := by
  have hdrain : drainIssue s = refuse s 1 0x0B020008 := (drainIssue_sound hb he hr).trans (if_pos hlate)
  rw [refuse_edge (running_released (begun_running hb)) rfl fun _ => rfl] at hdrain
  exact ⟨_, congrArg Host.Outcome.next hdrain,
    ⟨strand_setStrand_same _ (by decide) _, fun m hm => strand_setStrand_other _ hm _, rfl⟩, rfl, rfl⟩

end

/-! ## What a drain reports -/

/-- Between s and t the Edge only set EVENT bits, raised codes and left the Board's memory as b. -/
def EdgeReports (s t : State) (b : Brd) : Prop :=
  ∃ e l, t = { s with brd := b, edg := { s.edg with event := e }, knl := { s.knl with inflight := s.knl.inflight ++ l } }

theorem EdgeReports.refl (s : State) : EdgeReports s s s.brd := ⟨s.edg.event, [], by simp⟩

theorem EdgeReports.trans {s t u : State} {b c : Brd} (h : EdgeReports s t b) (h' : EdgeReports t u c) : EdgeReports s u c := by
  obtain ⟨e, l, rfl⟩ := h
  obtain ⟨e', l', rfl⟩ := h'
  exact ⟨e', l ++ l', by simp⟩

/-- Two reports one after the other, where the Board stays. -/
theorem EdgeReports.andThen {s t u : State} (h : EdgeReports s t s.brd) (h' : EdgeReports t u t.brd) : EdgeReports s u s.brd := by
  have hb : t.brd = s.brd := by obtain ⟨e, l, rfl⟩ := h; rfl
  exact h.trans (hb ▸ h')

theorem EdgeReports.die {s t : State} {b : Brd} (h : EdgeReports s t b) : t.die = s.die := by
  obtain ⟨e, l, rfl⟩ := h; rfl

theorem EdgeReports.sys {s t : State} {b : Brd} (h : EdgeReports s t b) : t.sys = s.sys := by
  obtain ⟨e, l, rfl⟩ := h; rfl

/-- A code that is on its way stays so while the Edge reports. -/
theorem EdgeReports.onItsWay {s t : State} {b : Brd} (h : EdgeReports s t b) {code : Nat} {eff : Effect} {detail : Bytes} {drill : Bool}
    (hs : OnItsWay s code eff detail drill) : OnItsWay t code eff detail drill := by
  obtain ⟨e, l, rfl⟩ := h; exact List.mem_append_left _ hs

theorem edgeReports_boardWrite (s : State) (a : Nat) (b : Bytes) : EdgeReports s (boardWrite s a b) (boardWrite s a b).brd :=
  ⟨s.edg.event, [], by simp [boardWrite]⟩

theorem edgeReports_raise {s : State} (h : s.die ≠ .off) {code : Nat} (hc : UnitCode .edg code) (eff : Effect) (detail : Bytes) :
    EdgeReports s (raise s code eff detail) s.brd := by
  obtain ⟨⟨b, hb⟩, hc⟩ := hc
  exact ⟨_, _, raise_onlyEdg h hb hc eff detail⟩

/-- Codes of the Edge raised with their severities: each of severity 2 is on its way, job-ending. -/
theorem raiseSevs_reports {cs : List (Nat × Nat)} (hcs : ∀ c ∈ cs, UnitCode .edg c.1) {s : State} (h : s.die ≠ .off) :
    EdgeReports s (raiseSevs s cs) s.brd ∧ ∀ c ∈ cs, c.2 = 2 → OnItsWay (raiseSevs s cs) c.1 .jobEnding [] s.sys.drill := by
  induction cs generalizing s with
  | nil => exact ⟨.refl s, by simp⟩
  | cons c cs ih =>
    obtain ⟨hc, hcs⟩ := List.forall_mem_cons.mp hcs
    have hone : EdgeReports s (raiseSev s c.1 c.2) s.brd := by
      unfold raiseSev
      split
      · exact .refl s
      · exact edgeReports_raise h hc ..
      · exact edgeReports_raise h hc ..
    obtain ⟨hrest, hway⟩ := ih hcs (s := raiseSev s c.1 c.2) (by rwa [hone.die])
    rw [hone.sys] at hway
    refine ⟨hone.andThen hrest, List.forall_mem_cons.mpr ⟨fun h2 => hrest.onItsWay ?_, hway⟩⟩
    rw [h2]
    show _ ∈ (raise s c.1 .jobEnding).knl.inflight
    rw [raise_inflight h]
    exact List.mem_append_right _ (List.mem_singleton.mpr rfl)

/-! ## The rows of a drain -/

/-- The rows of a drain below n, as far as they are drained. -/
def drainRunTo (s : State) (d : Bytes) (k : Slot) (n : Nat) : DrainRun := (List.range n).foldl (drainRow s d k (slotCols s k)) {}

theorem drainRunTo_succ (s : State) (d : Bytes) (k : Slot) (n : Nat) :
    drainRunTo s d k (n + 1) = drainRow s d k (slotCols s k) (drainRunTo s d k n) n := by
  simp [drainRunTo, List.range_succ]

theorem drainRow_of_stop {s : State} {d : Bytes} {k : Slot} {cols : Nat} {run : DrainRun} (h : run.stop = true) (r : Nat) :
    drainRow s d k cols run r = run := by
  simp [drainRow, h]

/-- The elements of a drain's rows below n. -/
def drainRows (s : State) (d : Bytes) (k : Slot) (n : Nat) : List (List ElemOut) :=
  (List.range n).map fun r => (List.range (slotCols s k)).map (drainElem s d k r)

/-- A drain that no job-ending code has stopped has drained every row. -/
theorem drainRunTo_rows {s : State} {d : Bytes} {k : Slot} {n : Nat} (h : (drainRunTo s d k n).stop = false) :
    (drainRunTo s d k n).rows = drainRows s d k n := by
  induction n with
  | zero => rfl
  | succ n ih =>
    rw [drainRunTo_succ] at h ⊢
    have hgo : (drainRunTo s d k n).stop = false := by
      by_contra hstop
      rw [drainRow_of_stop (by simpa using hstop)] at h
      exact hstop h
    simp only [drainRow, hgo, Bool.false_eq_true, if_false, ih hgo]
    simp [drainRows, List.range_succ]

theorem drainRun_rows {s : State} {d : Bytes} {k : Slot} (h : (drainRun s d k).stop = false) :
    (drainRun s d k).rows = drainRows s d k (slotRows k) :=
  drainRunTo_rows h

/-- The codes that a row can raise are the Edge's. -/
theorem rowCodes_edge (d : Bytes) (seen : List Nat) (row : List ElemOut) : ∀ c ∈ rowCodes d seen row, UnitCode .edg c.1 := by
  intro c hc
  obtain ⟨hc, -⟩ := List.mem_filter.mp hc
  simp only [List.mem_append, List.mem_ite_nil_right, List.mem_singleton] at hc
  rcases hc with ((⟨-, rfl⟩ | ⟨-, rfl⟩) | ⟨-, rfl⟩) | ⟨-, rfl⟩ <;> exact ⟨⟨_, rfl⟩, fun _ => rfl⟩

/-- The codes that a drain can raise before its end are the Edge's. -/
theorem drainRunTo_codes (s : State) (d : Bytes) (k : Slot) (n : Nat) : ∀ c ∈ (drainRunTo s d k n).codes, UnitCode .edg c.1 := by
  induction n with
  | zero => simp [drainRunTo]
  | succ n ih =>
    rw [drainRunTo_succ]
    unfold drainRow
    split
    · exact ih
    · exact List.forall_mem_append.mpr ⟨ih, rowCodes_edge _ _ _⟩

theorem drainRun_codes (s : State) (d : Bytes) (k : Slot) : ∀ c ∈ (drainRun s d k).codes, UnitCode .edg c.1 :=
  drainRunTo_codes s d k _

/-- The codes that a drain can raise at its end are the Edge's. -/
theorem endCodes_edge (d : Bytes) (k : DrainCnt) : ∀ c ∈ endCodes d k, UnitCode .edg c.1 := by
  refine List.forall_mem_append.mpr ⟨?_, ?_⟩
  · split
    · split
      · exact List.forall_mem_singleton.mpr ⟨⟨_, rfl⟩, fun _ => rfl⟩
      · simp
    · simp
  · split
    · exact List.forall_mem_singleton.mpr ⟨⟨_, rfl⟩, fun _ => rfl⟩
    · simp

/-! ## The bytes of a drain's segment -/

/-- The bytes of one row, each element of w bytes, filled to rb bytes with zeros (R306). -/
def drainRowBytes (w rb : Nat) (row : List ElemOut) : Bytes :=
  let b := row.flatMap fun e => natLE w e.code
  b ++ zeros (rb - b.length)

/-- The bytes that a drain writes in its segment: its rows, and its ceiling block where every row was drained (R306). -/
def drainBytes (s : State) (d : Bytes) (k : Slot) (rows : List (List ElemOut)) : Bytes :=
  let lay := drainLayout s d k
  rows.flatMap (drainRowBytes (outBytes (ddOut d)) lay.rowBytes) ++
    (if lay.aux = 0 || !decide (rows.length = lay.rows) then []
     else ceilBlock (mapCols (img s)) (rows.map fun row => row.map ElemOut.written) (slotCols s k))

theorem le_roundUpTo {a b : Nat} (hb : 0 < b) : a ≤ roundUpTo a b := by
  have := Nat.lt_div_mul_add hb (a := a + b - 1)
  unfold roundUpTo ceilDiv
  omega

theorem drainRowBytes_codes (w rb : Nat) (row : List ElemOut) :
    drainRowBytes w rb row = (row.map ElemOut.code).flatMap (natLE w) ++ zeros (rb - w * row.length) := by
  have hlen := vecBytes_length w (row.map ElemOut.code)
  rw [List.flatMap_map, List.length_map] at hlen
  simp only [drainRowBytes, hlen, List.flatMap_map]

theorem drainRowBytes_length {w rb : Nat} {row : List ElemOut} (h : w * row.length ≤ rb) : (drainRowBytes w rb row).length = rb := by
  rw [drainRowBytes_codes, List.length_append, vecBytes_length, List.length_map, zeros_length]
  omega

/-- Pieces of one length, one after another. -/
theorem length_flatMap_of {α : Type} {f : α → Bytes} {n : Nat} {xs : List α} (h : ∀ x ∈ xs, (f x).length = n) :
    (xs.flatMap f).length = n * xs.length := by
  rw [List.flatMap_def, length_flatten_of _ (by simpa using h), List.length_map]

/-- A line of a ceiling block is 64 bytes (R293). -/
theorem ceilLine_length {g : Nat} (hg : g ≤ 32) (rows : List (List Fv)) (cols j i : Nat) : (ceilLine g rows cols j i).length = 64 := by
  have hes := length_flatMap_of (xs := List.range (min g (ceilDiv cols 64 - g * j)))
    (f := fun c => natLE 2 (ofSigned 16 (ceilingOf (((rows.drop (64 * i)).take 64).flatMap fun row =>
      (row.drop (64 * (g * j + c))).take 64)))) fun _ _ => natLE_length 2 _
  rw [List.length_range] at hes
  simp only [ceilLine, List.length_append, zeros_length, hes]
  omega

/-- The ceiling block of a tile, which is at most one line wide (R293, R306). -/
theorem ceilBlock_length {g cols : Nat} (hg0 : 0 < g) (hg : g ≤ 32) (hcols : cols ≤ 64 * g) (rows : List (List Fv)) :
    (ceilBlock g rows cols).length ≤ 64 * ceilDiv rows.length 64 := by
  have hinner : ∀ j, ((List.range (ceilDiv rows.length 64)).flatMap (ceilLine g rows cols j)).length = 64 * ceilDiv rows.length 64 := by
    intro j
    rw [length_flatMap_of fun i _ => ceilLine_length hg rows cols j i, List.length_range]
  have hone : ceilDiv cols (64 * g) ≤ 1 := Nat.lt_succ_iff.mp (Nat.div_lt_of_lt_mul (by omega))
  rw [ceilBlock, length_flatMap_of fun j _ => hinner j, List.length_range]
  exact (Nat.mul_le_mul_left _ hone).trans_eq (Nat.mul_one _)

/-- A tile is at most as wide as a line of a ceiling map (R293, R306). -/
theorem slotCols_le_mapCols (s : State) (k : Slot) : slotCols s k ≤ 64 * mapCols (img s) := by
  refine (Nat.min_le_left _ _).trans ?_
  unfold imageWidth mapCols
  split <;> omega

theorem mapCols_bounds (im : Bytes) : 0 < mapCols im ∧ mapCols im ≤ 32 := by
  unfold mapCols
  split <;> omega

section
variable (s : State) (d : Bytes) (k : Slot)

/-- A row of a drain takes its row stride of the segment (R306). -/
theorem drainRowBytes_drainRows {n : Nat} : ∀ row ∈ drainRows s d k n,
    (drainRowBytes (outBytes (ddOut d)) (drainLayout s d k).rowBytes row).length = (drainLayout s d k).rowBytes := by
  refine List.forall_mem_map.mpr fun r _ => drainRowBytes_length ?_
  rw [List.length_map, List.length_range, Nat.mul_comm]
  exact le_roundUpTo (by decide)

/-- A drain of every row stays within its segment (R306). -/
theorem drainBytes_length : (drainBytes s d k (drainRows s d k (slotRows k))).length ≤
    (drainLayout s d k).rows * (drainLayout s d k).rowBytes + (drainLayout s d k).aux := by
  have hrows : (drainRows s d k (slotRows k)).length = slotRows k := by simp [drainRows]
  rw [drainBytes, List.length_append, length_flatMap_of (drainRowBytes_drainRows s d k), hrows, Nat.mul_comm]
  refine Nat.add_le_add_left ?_ _
  split
  · exact Nat.zero_le _
  · next haux =>
    obtain ⟨hg0, hg⟩ := mapCols_bounds (img s)
    refine (ceilBlock_length hg0 hg (slotCols_le_mapCols s k) _).trans ?_
    simp only [drainLayout, ite_eq_right_iff, Bool.or_eq_true, decide_eq_true_eq, not_or, Classical.not_imp] at haux
    obtain ⟨⟨hfmt, -⟩, -⟩ := haux
    rw [List.length_map, hrows, drainLayout, if_pos hfmt]

end

/-- An element of a vector that stands inside a longer byte string reads as it was written. -/
theorem mnat_mwrite_inside {m : Mem} (hm : m.wf = true) (k a : Nat) (pre post : Bytes) (xs : List Nat) {i : Nat} (hi : i < xs.length) :
    mnat (mwrite m a (pre ++ (xs.flatMap (natLE k) ++ post))) (a + pre.length + k * i) k = xs[i] % 256 ^ k := by
  rw [mwrite_append, mwrite_append, ← mnat_vecWrite k xs (mwrite_wf pre hm a) (a + pre.length) i hi]
  refine mnat_congr fun x _ hx => mget_mwrite_outside _ _ _ _ (.inl ?_)
  rw [vecBytes_length]
  have := Nat.mul_le_mul_left k (Nat.succ_le_of_lt hi)
  rw [Nat.mul_succ] at this
  omega

/-- Each element of a drain reads, at its place in the segment, as it was converted. -/
theorem mnat_drainBytes {s : State} (d : Bytes) (k : Slot) {m : Mem} (hm : m.wf = true) (seg : Nat) {r c : Nat} (hr : r < slotRows k)
    (hc : c < slotCols s k) :
    mnat (mwrite m seg (drainBytes s d k (drainRows s d k (slotRows k))))
      (seg + r * (drainLayout s d k).rowBytes + c * outBytes (ddOut d)) (outBytes (ddOut d)) =
      (drainElem s d k r c).code % 256 ^ outBytes (ddOut d) := by
  obtain ⟨rows, hrows⟩ : ∃ rows, rows = drainRows s d k (slotRows k) := ⟨_, rfl⟩
  have hlen : r < rows.length := by simpa [hrows, drainRows] using hr
  have hrow : rows[r] = (List.range (slotCols s k)).map (drainElem s d k r) := by simp [hrows, drainRows]
  have hpre : ((rows.take r).flatMap (drainRowBytes (outBytes (ddOut d)) (drainLayout s d k).rowBytes)).length =
      (drainLayout s d k).rowBytes * r := by
    rw [length_flatMap_of fun row h => drainRowBytes_drainRows s d k row (hrows ▸ List.mem_of_mem_take h), List.length_take,
      min_eq_left hlen.le]
  have hsplit : rows.flatMap (drainRowBytes (outBytes (ddOut d)) (drainLayout s d k).rowBytes) =
      (rows.take r).flatMap (drainRowBytes (outBytes (ddOut d)) (drainLayout s d k).rowBytes) ++
        (drainRowBytes (outBytes (ddOut d)) (drainLayout s d k).rowBytes rows[r] ++
          (rows.drop (r + 1)).flatMap (drainRowBytes (outBytes (ddOut d)) (drainLayout s d k).rowBytes)) := by
    conv_lhs => rw [← List.take_append_drop r rows, List.drop_eq_getElem_cons hlen, List.flatMap_append, List.flatMap_cons]
  rw [← hrows, drainBytes, hsplit, drainRowBytes_codes, hrow, List.append_assoc, List.append_assoc, List.append_assoc,
    Nat.mul_comm r, ← hpre, Nat.mul_comm c,
    mnat_mwrite_inside hm _ _ _ _ _ (by simpa using hc)]
  simp

/-! ## The last row -/

/-- The codes that a drain raises at its end: none where a row's code has stopped it (R121, R122). -/
def drainEnds (d : Bytes) (run : DrainRun) : List (Nat × Nat) := if run.stop then [] else endCodes d run.cnt

/-- Slot i of contents k turns Empty where every row of it was drained (R106). -/
def slotDrained (i : Nat) (k : Slot) (run : DrainRun) (u : State) : State :=
  if run.rows.length = slotRows k then setSlot u i { k with st := 0, cells := [] } else u

/-- What a drain of slot i does before it writes: it reports what its rows call for, empties its slot, and reports what its end calls
for (R106, R121, R122). -/
def drainReports (d : Bytes) (i : Nat) (k : Slot) (run : DrainRun) (u : State) : State :=
  let v := if 0 < run.cnt.shifts then setEvent u .edg 6 else u
  raiseSevs (slotDrained i k run (raiseSevs v run.codes)) (drainEnds d run)

theorem EdgeReports.slotDrained {s t : State} {b : Brd} (h : EdgeReports s t b) (i : Nat) (k : Slot) (run : DrainRun) :
    EdgeReports (Machine.slotDrained i k run s) (Machine.slotDrained i k run t) b := by
  obtain ⟨e, l, rfl⟩ := h
  unfold Machine.slotDrained
  split <;> exact ⟨e, l, rfl⟩

/-- A slot turned Empty is of the Frame, and changes nothing else. -/
theorem slotDrained_eq (i : Nat) (k : Slot) (run : DrainRun) (u : State) : ∃ f, slotDrained i k run u = { u with frm := f } := by
  unfold slotDrained
  split
  · exact ⟨_, rfl⟩
  · exact ⟨u.frm, rfl⟩

/-- Beside the emptied slot a drain's reports are EVENT bits of the Edge and codes on their way, the job-ending ones among them. -/
theorem drainReports_reports {d : Bytes} {i : Nat} {k : Slot} {run : DrainRun} (hrun : ∀ c ∈ run.codes, UnitCode .edg c.1) {u : State}
    (hd : u.die ≠ .off) : EdgeReports (slotDrained i k run u) (drainReports d i k run u) u.brd ∧
      ∀ c ∈ run.codes, c.2 = 2 → OnItsWay (drainReports d i k run u) c.1 .jobEnding [] u.sys.drill := by
  have hends : ∀ c ∈ drainEnds d run, UnitCode .edg c.1 := by
    unfold drainEnds
    split
    · simp
    · exact endCodes_edge d run.cnt
  unfold drainReports
  have hshift : EdgeReports u (if 0 < run.cnt.shifts then setEvent u .edg 6 else u) u.brd := by
    split
    · exact ⟨orBit u.edg.event 6, [], by simp [setEvent]⟩
    · exact .refl u
  generalize (if 0 < run.cnt.shifts then setEvent u .edg 6 else u) = v at hshift
  obtain ⟨hrows, hway⟩ := raiseSevs_reports hrun (s := v) (by rwa [hshift.die])
  have hslot := (hshift.andThen hrows).slotDrained i k run
  obtain ⟨f, hf⟩ := slotDrained_eq i k run u
  obtain ⟨g, hg⟩ := slotDrained_eq i k run (raiseSevs v run.codes)
  rw [hf] at hslot ⊢
  obtain ⟨hend, -⟩ := raiseSevs_reports hends (s := slotDrained i k run (raiseSevs v run.codes)) (by rwa [hslot.die])
  refine ⟨hslot.andThen hend, fun c hc h2 => hend.onItsWay ?_⟩
  rw [hg, ← hshift.sys]
  exact hway c hc h2

/-- The Edge's last operation drains its rows, and no fault, stop or wait for a grain holds it (R106, R122, R587). -/
structure DrainsRows (s : State) (before : List EdgeOp) (op : EdgeOp) : Prop where
  runs    : running s = true
  ops     : s.edg.ops = before ++ [op]
  phase   : op.phase = .rows
  sweep   : op.sweep = false
  opLive  : op.dead = false
  live    : (strand s 1).dead = false
  granted : creditHeld s 1 = false

/-- Without a credit of its ring the drain is held (R105). -/
theorem drainLastRow_held {s : State} {before : List EdgeOp} {op : EdgeOp} (h : DrainsRows s before op)
    (hc : edgeCredit s (ddRing op.desc) = false) (outWait throttle : Nat) : drainLastRow s outWait throttle = outHold s true := by
  simp only [drainLastRow, h.ops, List.getLast?_concat, h.runs, h.phase, h.sweep, h.opLive, h.live, h.granted, hc]
  rfl

/-- The state in which the Edge, no longer held, has added the counts of the operation's drain to the job's (R135). -/
def drainCounted (s : State) (op : EdgeOp) : State :=
  edgeJob (outHold s false) (drainRun s op.desc (slot s (wFld op.word 79 76))).cnt

/-- With a credit the drain reads its slot and writes its segment; a job-ending severity stops it. -/
theorem drainLastRow_credit {s : State} {before : List EdgeOp} {op : EdgeOp} (h : DrainsRows s before op)
    (hc : edgeCredit s (ddRing op.desc) = true) (outWait throttle : Nat) :
    drainLastRow s outWait throttle =
      let i := wFld op.word 79 76
      let run := drainRun s op.desc (slot s i)
      let ends := drainEnds op.desc run
      let u := drainWrite (drainReports op.desc i (slot s i) run (drainCounted s op)) op (slot s i) run
        (ends.any fun c => c.1 == 0x01030002) outWait throttle
      if run.stop || ends.any (fun c => c.2 == 2) then drainStop u op
      else
        let lay := drainLayout u op.desc (slot s i)
        setEdgeOps u (u.edg.ops.dropLast ++ [{ op with phase := .tail, prod := some (lay.rows * lay.rowBytes, lay.aux) }]) := by
  simp only [drainLastRow, h.ops, List.getLast?_concat, h.runs, h.phase, h.sweep, h.opLive, h.live, h.granted, hc]
  simp only [decide_eq_true_eq]
  rfl

/-- Between s and t the Edge wrote on the Board, set EVENT bits of its own and raised codes. -/
def EdgeWrites (s t : State) : Prop := ∃ b, EdgeReports s t b

theorem EdgeWrites.boardWrite {s t : State} (h : EdgeWrites s t) (a : Nat) (b : Bytes) : EdgeWrites s (Machine.boardWrite t a b) := by
  obtain ⟨_, h⟩ := h
  exact ⟨_, h.trans (edgeReports_boardWrite t a b)⟩

theorem EdgeWrites.ite {s a b : State} (p : Prop) [Decidable p] (ha : EdgeWrites s a) (hb : EdgeWrites s b) :
    EdgeWrites s (if p then a else b) := by
  split
  · exact ha
  · exact hb

theorem EdgeWrites.redUpdate {s t : State} (h : EdgeWrites s t) (a : Nat) (init : Bool) (xs : List Fv) :
    EdgeWrites s (Machine.redUpdate t a init xs).1 := by
  simp only [Machine.redUpdate, apply_ite Prod.fst]
  exact .ite _ h (h.boardWrite a _)

theorem EdgeWrites.redUpdates {s : State} (base : Nat) (init : Bool) (xs : List (Nat × List Fv)) {t : State} (h : EdgeWrites s t) :
    EdgeWrites s (Machine.redUpdates t base init xs).1 := by
  induction xs generalizing t with
  | nil => exact h
  | cons x xs ih =>
    simp only [Machine.redUpdates]
    exact ih (h.redUpdate ..)

/-- Records updated where they are selected: the state, and the places of those that became held (R115). -/
def selectedRecords (sel : Bool) (s : State) (base : Nat) (init : Bool) (xs : List (Nat × List Fv)) : State × List Nat :=
  if sel then redUpdates s base init xs else (s, [])

/-- The records that became held are reported (R117). -/
def noteHeld (s : State) (held : List Nat) : State :=
  match held with
  | first :: _ => raise s 0x01030006 .event (d4 first ++ d4 held.length)
  | [] => s

/-- The tensor summary and the count record, where the descriptor names them (R119, R124). -/
def drainTotals (s : State) (op : EdgeOp) (k : Slot) (run : DrainRun) (cols : Nat) (exc : Bool) (outWait throttle : Nat) : State :=
  let d := op.desc
  let written := run.rows.map fun row => row.map ElemOut.written
  let t := if ddAddr d 0x44 = addrNone then s else summaryUpdate s (ddAddr d 0x44) (wFld op.word 43 43 == 1) (written.flatMap id)
  let recs := (if ddRowRec d then run.rows.length else 0) + (if ddColRec d then cols else 0)
  let cyc := run.rows.length * drainRowCycles t d k + 48 + ceilDiv recs 4 + outWait + throttle
  if ddAddr d 0x48 = addrNone then t else countUpdate t (ddAddr d 0x48) (wFld op.word 42 42 == 1) run.cnt exc cyc outWait throttle

/-- A drain writes its segment, then its records, then its summary and its count record. -/
theorem drainWrite_eq (s : State) (op : EdgeOp) (k : Slot) (run : DrainRun) (exc : Bool) (outWait throttle : Nat) :
    drainWrite s op k run exc outWait throttle =
      let d := op.desc
      let cols := slotCols s k
      let t := boardWrite s (segAddr s (ddRing d) (edgeSeg s (ddRing d))) (drainBytes s d k run.rows)
      let rows := selectedRecords (ddRowRec d) t (ddAddr d 0x3C) (wFld op.word 45 45 == 1)
        (run.rows.zipIdx.map fun (row, r) => (slotM0 k + r, row.map ElemOut.x))
      let both := selectedRecords (ddColRec d) rows.1 (ddAddr d 0x40) (wFld op.word 44 44 == 1)
        ((List.range cols).map fun c => (slotN0 s k + c, run.rows.map fun row => ((row[c]?).map ElemOut.x).getD .nan))
      drainTotals (noteHeld both.1 (rows.2 ++ both.2)) op k run cols exc outWait throttle := by
  rfl

theorem EdgeWrites.selectedRecords {s t : State} (h : EdgeWrites s t) (sel : Bool) (base : Nat) (init : Bool)
    (xs : List (Nat × List Fv)) : EdgeWrites s (Machine.selectedRecords sel t base init xs).1 := by
  unfold Machine.selectedRecords
  split
  · exact h.redUpdates ..
  · exact h

theorem EdgeWrites.noteHeld {s t : State} (hd : s.die ≠ .off) (h : EdgeWrites s t) (held : List Nat) :
    EdgeWrites s (Machine.noteHeld t held) := by
  cases held with
  | nil => exact h
  | cons first more =>
    obtain ⟨b, h⟩ := h
    have hraise : EdgeReports t (Machine.noteHeld t (first :: more)) t.brd :=
      edgeReports_raise (code := 0x01030006) (by rwa [h.die]) ⟨⟨5, rfl⟩, fun _ => rfl⟩ ..
    exact ⟨_, h.trans hraise⟩

theorem EdgeWrites.drainTotals {s t : State} (h : EdgeWrites s t) (op : EdgeOp) (k : Slot) (run : DrainRun) (cols : Nat) (exc : Bool)
    (outWait throttle : Nat) : EdgeWrites s (Machine.drainTotals t op k run cols exc outWait throttle) := by
  exact .ite _ (.ite _ h (h.boardWrite _ _)) (.boardWrite (.ite _ h (h.boardWrite _ _)) _ _)

/-- Whatever a drain writes, it writes on the Board, and reports the records that became held. -/
theorem drainWrite_writes {s : State} (hd : s.die ≠ .off) (op : EdgeOp) (k : Slot) (run : DrainRun) (exc : Bool)
    (outWait throttle : Nat) : EdgeWrites s (drainWrite s op k run exc outWait throttle) := by
  rw [drainWrite_eq]
  have hsegment : EdgeWrites s s := ⟨_, .refl s⟩
  exact ((((hsegment.boardWrite _ _).selectedRecords ..).selectedRecords ..).noteHeld hd _).drainTotals ..

/-- A drain of no records, summary or count record writes its segment alone. -/
theorem drainWrite_plain {s : State} {op : EdgeOp} (hrow : ddRowRec op.desc = false) (hcol : ddColRec op.desc = false)
    (hsum : ddAddr op.desc 0x44 = addrNone) (hcnt : ddAddr op.desc 0x48 = addrNone) (k : Slot) (run : DrainRun) (exc : Bool)
    (outWait throttle : Nat) : drainWrite s op k run exc outWait throttle =
      boardWrite s (segAddr s (ddRing op.desc) (edgeSeg s (ddRing op.desc))) (drainBytes s op.desc k run.rows) := by
  rw [drainWrite_eq]
  simp [drainTotals, selectedRecords, noteHeld, hrow, hcol, hsum, hcnt]

/-- R106, R122: the state after a drain that nothing stops, of a descriptor with no record, summary or count record. -/
theorem drainLastRow_completes {s : State} {before : List EdgeOp} {op : EdgeOp} (h : DrainsRows s before op)
    (hc : edgeCredit s (ddRing op.desc) = true) {k : Slot} (hk : slot s (wFld op.word 79 76) = k)
    (hstop : (drainRun s op.desc k).stop = false)
    (hends : (endCodes op.desc (drainRun s op.desc k).cnt).all (fun c => c.2 != 2) = true)
    (hrow : ddRowRec op.desc = false) (hcol : ddColRec op.desc = false) (hsum : ddAddr op.desc 0x44 = addrNone)
    (hcnt : ddAddr op.desc 0x48 = addrNone) (outWait throttle : Nat) :
    let u := setSlot (drainCounted s op) (wFld op.word 79 76) { k with st := 0, cells := [] }
    let lay := drainLayout s op.desc k
    ∃ e l, drainLastRow s outWait throttle = { u with
      brd := (boardWrite s (segAddr s (ddRing op.desc) (edgeSeg s (ddRing op.desc)))
        (drainBytes s op.desc k (drainRows s op.desc k (slotRows k)))).brd
      edg := { u.edg with
        event := e
        ops := before ++ [{ op with phase := .tail, prod := some (lay.rows * lay.rowBytes, lay.aux) }] }
      knl := { s.knl with inflight := s.knl.inflight ++ l } } := by
  intro u lay
  have hrows := drainRun_rows hstop
  obtain ⟨⟨e, l, he⟩, -⟩ := drainReports_reports (d := op.desc) (i := wFld op.word 79 76) (k := k) (drainRun_codes s op.desc k)
    (u := drainCounted s op) (running_released h.runs)
  have hwhole : slotDrained (wFld op.word 79 76) k (drainRun s op.desc k) (drainCounted s op) = u :=
    if_pos (by rw [hrows, drainRows, List.length_map, List.length_range])
  have hgo : ((drainRun s op.desc k).stop || (drainEnds op.desc (drainRun s op.desc k)).any fun c => c.2 == 2) = false := by
    simpa [drainEnds, hstop, List.any_eq_false, List.all_eq_true] using hends
  rw [hwhole] at he
  rw [drainLastRow_credit h hc]
  simp only [hk, hgo, Bool.false_eq_true, if_false]
  rw [drainWrite_plain hrow hcol hsum hcnt, he, hrows]
  refine ⟨e, l, ?_⟩
  have hops : s.edg.ops.dropLast = before := by rw [h.ops, List.dropLast_concat]
  rw [← hops]
  rfl

/-- R122: the state after a drain that a job-ending severity stops. -/
theorem drainLastRow_stops {s : State} {before : List EdgeOp} {op : EdgeOp} (h : DrainsRows s before op)
    (hc : edgeCredit s (ddRing op.desc) = true) {run : DrainRun} (hrun : drainRun s op.desc (slot s (wFld op.word 79 76)) = run)
    (hbad : run.stop = true ∨ (endCodes op.desc run.cnt).any (fun c => c.2 == 2) = true) (outWait throttle : Nat) :
    ∃ u, drainLastRow s outWait throttle = drainStop u op ∧
      (∀ c ∈ run.codes, c.2 = 2 → OnItsWay u c.1 .jobEnding [] s.sys.drill) ∧
      ∃ f b e l, u = { drainCounted s op with
        frm := f, brd := b, edg := { (drainCounted s op).edg with event := e }, knl := { s.knl with inflight := s.knl.inflight ++ l } } := by
  have hd : (drainCounted s op).die ≠ .off := running_released h.runs
  obtain ⟨hrep, hway⟩ := drainReports_reports (d := op.desc) (i := wFld op.word 79 76) (k := slot s (wFld op.word 79 76))
    (hrun ▸ drainRun_codes s op.desc _) hd
  obtain ⟨f, hf⟩ := slotDrained_eq (wFld op.word 79 76) (slot s (wFld op.word 79 76)) run (drainCounted s op)
  rw [hf] at hrep
  obtain ⟨b, hwrite⟩ := drainWrite_writes (by rwa [hrep.die]) op (slot s (wFld op.word 79 76)) run
    ((drainEnds op.desc run).any fun c => c.1 == 0x01030002) outWait throttle
  have hbad' : (run.stop || (drainEnds op.desc run).any fun c => c.2 == 2) = true := by
    unfold drainEnds
    rcases hbad with hstop | hend
    · simp [hstop]
    · split <;> simp_all
  obtain ⟨e, l, he⟩ := hrep.trans hwrite
  refine ⟨_, ?_, fun c hcode h2 => hwrite.onItsWay (hway c hcode h2), f, b, e, l, he⟩
  rw [drainLastRow_credit h hc]
  simp only [hrun, hbad', if_true]

/-- An Edge operation that a job-ending severity stopped never completes. -/
theorem canComplete_edge_dead {t : State} {op : EdgeOp} (h : t.edg.ops = [op]) (hd : op.dead = true) : canComplete t 1 = false := by
  simp [canComplete, edgeCanComplete, h, hd]

/-- Settles O22: the issue by the slot's tag and state, the last row by whether the ring has a credit and a job-ending severity stops
the drain. -/
theorem drains : Obligations.Drains := by
  refine ⟨⟨fun s hb he hr => ⟨drain_begins hb he hr, drain_waits hb he hr, drain_refused hb he hr⟩, ?ready⟩, ?lastRow⟩
  case ready =>
    intro s before op hr hd hops hp i hst htag hbegin
    have hready := (drainSlotReady_begins hr hd hops hp hst htag).trans (drainBegin_begins hbegin)
    exact ⟨_, congrArg Host.Outcome.next hready, rfl, slot_setSlot_same _ (drainSlot_lt _) _, fun k hk => slot_setSlot_other _ hk _,
      strand_setStrand_same _ (by decide) _, rfl⟩
  case lastRow =>
    intro s before op outWait throttle hcan hr hops hp hs hd hlive hgrain d i k run lay seg
    have h : DrainsRows s before op := ⟨hr, hops, hp, hs, hd, hlive, hgrain⟩
    refine ⟨fun hc => ?held, fun hc hstop hends _ hrow hcol hsum hcnt => ?done, fun hc hbad => ?stopped⟩
    case held =>
      exact ⟨_, congrArg Host.Outcome.next (drainLastRow_held h hc outWait throttle), rfl, strand_setStrand_same _ (by decide) _, rfl, rfl⟩
    case done =>
      obtain ⟨e, l, ht⟩ := drainLastRow_completes h hc rfl hstop hends hrow hcol hsum hcnt outWait throttle
      refine ⟨_, congrArg Host.Outcome.next ht, slot_setSlot_same _ (drainSlot_lt _) _, fun j hj => slot_setSlot_other _ hj _,
        strand_setStrand_same _ (by decide) _, rfl, rfl, rfl, rfl, rfl, fun r c hrow hcol => ?_, fun a ha => ?_, rfl, rfl⟩
      · exact mnat_drainBytes d k hcan.board seg hrow hcol
      · refine mget_mwrite_outside _ _ _ _ (ha.imp_right fun ha => (Nat.add_le_add_left (drainBytes_length s d k) seg).trans ?_)
        rwa [← Nat.add_assoc]
    case stopped =>
      obtain ⟨u, ht, hway, f, b, e, l, rfl⟩ := drainLastRow_stops h hc rfl hbad outWait throttle
      have hstopped : s.edg.ops.dropLast ++ [{ op with phase := .tail, dead := true }] =
          before ++ [{ op with phase := .tail, dead := true }] := by rw [hops, List.dropLast_concat]
      refine ⟨_, congrArg Host.Outcome.next ht, hstopped, congrArg Strand.st (strand_setStrand_same _ (by decide) _), ?_, rfl, hway,
        rfl, rfl⟩
      rintro rfl
      exact canComplete_edge_dead hstopped rfl

end Sys2Proof.Machine
end

section
/-!
SUPPORT. What a pass, its last carry and a step-back replay leave in the carry slots (R29, R55 to R58, R62, R67, R73), each tile's arithmetic
being that of the state before them, which they do not touch: O19.
-/
namespace Sys2Proof.Machine

/-! ## What the Frame changes as it streams -/

/-- Between s and t the Frame only changed carry slots, set EVENT bits of its own and raised codes. -/
def FrameStores (s t : State) : Prop :=
  ∃ e x l, t = { s with frm := { s.frm with event := e, slots := x }, knl := { s.knl with inflight := l } }

/-- Between s and t the Frame streamed: it changed, besides, rings, holds, its flags and the count of tiles begun. Nothing of it is an
operand of a tile. -/
def FrameStreams (s t : State) : Prop :=
  ∃ e x p o n r y, t = { s with
    frm := { s.frm with event := e, slots := x, replay := p, rotated := o }, knl := n, str := { s.str with rings := r, strands := y } }

theorem FrameStores.refl (s : State) : FrameStores s s := ⟨_, _, _, rfl⟩

theorem FrameStores.trans {s t u : State} (h : FrameStores s t) (h' : FrameStores t u) : FrameStores s u := by
  obtain ⟨e, x, l, rfl⟩ := h
  obtain ⟨e', x', l', rfl⟩ := h'
  exact ⟨e', x', l', rfl⟩

theorem FrameStores.die {s t : State} (h : FrameStores s t) : t.die = s.die := by
  obtain ⟨e, x, l, rfl⟩ := h; rfl

theorem FrameStores.streams {s t : State} (h : FrameStores s t) : FrameStreams s t := by
  obtain ⟨e, x, l, rfl⟩ := h
  exact ⟨e, x, _, _, _, _, _, rfl⟩

theorem FrameStreams.refl (s : State) : FrameStreams s s := (FrameStores.refl s).streams

theorem FrameStreams.trans {s t u : State} (h : FrameStreams s t) (h' : FrameStreams t u) : FrameStreams s u := by
  obtain ⟨e, x, p, o, n, r, y, rfl⟩ := h
  obtain ⟨e', x', p', o', n', r', y', rfl⟩ := h'
  exact ⟨e', x', p', o', n', r', y', rfl⟩

theorem FrameStreams.die {s t : State} (h : FrameStreams s t) : t.die = s.die := by
  obtain ⟨e, x, p, o, n, r, y, rfl⟩ := h; rfl

/-- A tile's arithmetic reads nothing that streaming changes. -/
theorem FrameStreams.tilePass {s t : State} (h : FrameStreams s t) : Machine.tilePass t = Machine.tilePass s := by
  obtain ⟨e, x, p, o, n, r, y, rfl⟩ := h; rfl

theorem FrameStreams.sourcePass {s t : State} (h : FrameStreams s t) : Machine.sourcePass t = Machine.sourcePass s := by
  obtain ⟨e, x, p, o, n, r, y, rfl⟩ := h; rfl

theorem FrameStreams.rangeRow {s t : State} (h : FrameStreams s t) : Machine.rangeRow t = Machine.rangeRow s := by
  obtain ⟨e, x, p, o, n, r, y, rfl⟩ := h; rfl

theorem FrameStreams.brd {s t : State} (h : FrameStreams s t) : t.brd = s.brd := by
  obtain ⟨e, x, p, o, n, r, y, rfl⟩ := h; rfl

theorem FrameStreams.image {s t : State} (h : FrameStreams s t) : t.str.image = s.str.image := by
  obtain ⟨e, x, p, o, n, r, y, rfl⟩ := h; rfl

theorem frameStores_setSlot (s : State) (k : Nat) (x : Slot) : FrameStores s (setSlot s k x) := ⟨_, _, _, rfl⟩

theorem frameStreams_release (s : State) (r : Nat) : FrameStreams s (release s r) := ⟨_, _, _, _, _, _, _, rfl⟩

/-- Codes of the Frame raised for a tile. -/
theorem raiseTile_stores {codes : List Nat} (hc : ∀ c ∈ codes, UnitCode .frm c) {s : State} (h : s.die ≠ .off) :
    FrameStores s (raiseTile s codes) ∧ (raiseTile s codes).frm.slots = s.frm.slots := by
  induction codes generalizing s with
  | nil => exact ⟨.refl s, rfl⟩
  | cons c codes ih =>
    obtain ⟨⟨⟨b, hb⟩, hcnt⟩, hcodes⟩ := List.forall_mem_cons.mp hc
    have hone := raise_onlyFrm h hb hcnt (if c = 0x01020001 then .jobEnding else .event) []
    have hstores : FrameStores s (raise s c (if c = 0x01020001 then .jobEnding else .event)) := ⟨_, _, _, hone⟩
    obtain ⟨hrest, hslots⟩ := ih hcodes (s := raise s c (if c = 0x01020001 then .jobEnding else .event)) (by rwa [hstores.die])
    exact ⟨hstores.trans hrest, hslots.trans (by rw [hone])⟩

/-! ## One tile over one chunk -/

/-- The codes of a tile are the Frame's (Table 2-4). -/
theorem tilePass_codes (s : State) (op : FrameOp) (rot : Bool) (t : TileRun) (chunk : Nat) (a b : Nat → Nat → Fv)
    (old : List (List (BitVec 48))) (fs : List CarryFault) (pos : Nat) :
    ∀ c ∈ (tilePass s op rot t chunk a b old fs pos).codes, UnitCode .frm c := by
  intro c hc
  unfold tilePass at hc
  simp only at hc
  split at hc
  · simp only [List.mem_ite_nil_right, List.mem_singleton] at hc
    obtain ⟨-, rfl⟩ := hc
    exact ⟨⟨_, rfl⟩, fun _ => rfl⟩
  · simp only [List.mem_append, List.mem_ite_nil_right, List.mem_singleton] at hc
    rcases hc with ⟨-, rfl⟩ | ⟨-, rfl⟩ <;> exact ⟨⟨_, rfl⟩, fun _ => rfl⟩

/-- Where no value is above its ceiling the operation does not stop at the tile (R18). -/
theorem tilePass_stop {s : State} {op : FrameOp} {t : TileRun} {chunk : Nat} {a b : Nat → Nat → Fv}
    (h : fdSeq op.desc = true ∨ rangeRow s op.desc op.width t chunk a b (tileRows op.desc t.ti) (tileCols op.desc op.width t.tj)
      (chunkLen op.desc chunk) = none) (rot : Bool) (old : List (List (BitVec 48))) (fs : List CarryFault) (pos : Nat) :
    (tilePass s op rot t chunk a b old fs pos).stop = none := by
  unfold tilePass
  simp only
  split
  · rfl
  · next hseq => exact h.resolve_left hseq

/-- Whether a tile is selected for recount changes nothing of its arithmetic. -/
theorem tilePass_sel (s : State) (op : FrameOp) (rot : Bool) (t : TileRun) (sel : Bool) (chunk : Nat) (a b : Nat → Nat → Fv)
    (old : List (List (BitVec 48))) (fs : List CarryFault) (pos : Nat) :
    (tilePass s op rot { t with sel := sel } chunk a b old fs pos).cells = (tilePass s op rot t chunk a b old fs pos).cells := by
  cases hseq : fdSeq op.desc <;> simp only [tilePass, hseq] <;> rfl

/-- In exact mode, where no value is above its ceiling, a tile that has not stopped takes its chunk (R24, R25, R28, R75). -/
theorem tilePass_exact {s : State} {op : FrameOp} {t : TileRun} {chunk : Nat} {a b : Nat → Nat → Fv} (hseq : fdSeq op.desc = false)
    (hstop : t.stopped = false)
    (hrange : rangeRow s op.desc op.width t chunk a b (tileRows op.desc t.ti) (tileCols op.desc op.width t.tj)
      (chunkLen op.desc chunk) = none) (rot : Bool) (old : List (List (BitVec 48))) (pos : Nat) :
    let rows := tileRows op.desc t.ti
    let cols := tileCols op.desc op.width t.tj
    let ks := chunkLen op.desc chunk
    let nf := t.nonfinite || chunkNonfinite a b rows cols ks
    let out := tileChunk false t.q a b rows cols ks (fun _ _ _ => 0) old
    tilePass s op rot t chunk a b old [] pos =
      { t := { t with nonfinite := nf, stopped := out.2 && decide (t.q ≠ t.qg) && !nf }, cells := out.1
        codes := if nf && !t.nonfinite then [0x01020002] else [] } := by
  simp only [tilePass, hseq, hstop, hrange, List.isEmpty_nil, Bool.false_eq_true, if_false, if_true, Bool.false_or, Option.isSome_none,
    List.append_nil]

theorem cellAt_tileChunk (q : Int) (a b : Nat → Nat → Fv) {rows cols r c : Nat} (ks : Nat) (hit : Nat → Nat → Nat → BitVec 48)
    (cs : List (List (BitVec 48))) (hr : r < rows) (hc : c < cols) :
    cellAt (tileChunk false q a b rows cols ks hit cs).1 r c =
      (exactCell q (fun k => (a r k, b k c)) ks (hit r c) (cellAt cs r c)).1 := by
  simp [cellAt, tileChunk, List.getD_eq_getElem?_getD, hr, hc]

/-! ## The tiles of a pass -/

/-- A tile's cells and its flag stand in its slot, and the codes of the tile are raised. -/
theorem storeTile_stores {s : State} (hd : s.die ≠ .off) {out : TileOut} (hc : ∀ c ∈ out.codes, UnitCode .frm c) (k : Nat) :
    FrameStores s (storeTile s k out) ∧
      (k < 16 → slot (storeTile s k out) k = { slot s k with cells := out.cells, nonfinite := out.t.nonfinite }) ∧
      ∀ j, j ≠ k → slot (storeTile s k out) j = slot s j := by
  obtain ⟨hraise, hslots⟩ := raiseTile_stores hc (s := setSlot s k { slot s k with cells := out.cells, nonfinite := out.t.nonfinite }) hd
  refine ⟨(frameStores_setSlot ..).trans hraise, fun hk => ?_, fun j hj => ?_⟩
  · exact (slot_congr hslots k).trans (slot_setSlot_same _ hk _)
  · exact (slot_congr hslots j).trans (slot_setSlot_other _ hj _)

/-- A tile that begins is counted for the recount (R433); the Frame and the rings stay. -/
theorem tileBegins_streams (s : State) :
    FrameStreams s (tileBegins s).2 ∧ (tileBegins s).2.frm = s.frm ∧ (tileBegins s).2.str = s.str := by
  unfold tileBegins windowEnd
  simp only
  split <;> exact ⟨⟨_, _, _, _, _, _, _, rfl⟩, rfl, rfl⟩

/-- The cells that a tile finds as a pass of this chunk reaches it (R58). -/
def foundCells (s : State) (chunk : Nat) (t : TileRun) : List (List (BitVec 48)) := if chunk = 0 then [] else (slot s t.slot).cells

/-- What streaming one tile leaves: its outcome, and the state in which its segment has been released (R58, R63, R67). -/
def streamTile (op : FrameOp) (chunk : Nat) (bseg : Bytes) (fs : List CarryFault) (pos : Nat) (s : State) (t : TileRun) :
    TileOut × State :=
  let begun := if chunk = 0 then tileBegins s else (t.sel, s)
  let u := begun.2
  let out := tilePass u op false { t with sel := begun.1 } chunk (tileA u op 0 t)
    (segB bseg op.desc op.width (chunkLen op.desc chunk)) (foundCells u chunk t) fs pos
  (out, release (storeTile (if chunk = 0 then beginSlot u op t else u) t.slot out) (wFld op.word 35 30))

/-- The tile at place j of those to come can stream: its A segment is in its place in the ring and verifies, and no value of it is
above its ceiling (R18, R63, R87). -/
structure TileStreams (s : State) (op : FrameOp) (chunk : Nat) (bseg : Bytes) (j : Nat) (x : TileRun) : Prop where
  layout   : ((ring s (wFld op.word 35 30)).segs.drop j).head? = some (aLayout op.desc x.ti)
  slot     : x.slot < 16
  verifies : rangeVerifies s.brd.mem s.brd.check (segAddr s (wFld op.word 35 30) ((ring s (wFld op.word 35 30)).c + j))
    (tileRows op.desc x.ti * aRowBytes op.desc + (if isMx (fdA op.desc) then 64 * tileRows op.desc x.ti else 0)) = true
  range    : fdSeq op.desc = true ∨ rangeRow s op.desc op.width x chunk (tileA s op j x)
    (segB bseg op.desc op.width (chunkLen op.desc chunk)) (tileRows op.desc x.ti) (tileCols op.desc op.width x.tj)
    (chunkLen op.desc chunk) = none

section
variable {s : State} {op : FrameOp} {chunk : Nat} {bseg : Bytes} {x : TileRun}

theorem TileStreams.segNow (h : TileStreams s op chunk bseg 0 x) : Machine.segNow s (wFld op.word 35 30) = aLayout op.desc x.ti := by
  rw [Machine.segNow, ← List.drop_zero (l := (ring s _).segs), h.layout]; rfl

theorem TileStreams.feedReady (h : TileStreams s op chunk bseg 0 x)
    (hring : (ring s (wFld op.word 35 30)).c < (ring s (wFld op.word 35 30)).p) : Machine.feedReady s (wFld op.word 35 30) = true := by
  simp only [Machine.feedReady, h.segNow, ringReady, hring, decide_true, Bool.true_and]
  exact h.verifies

/-- The A segment of a tile, by its number in the ring. -/
theorem tileA_congr {t : State} {i j : Nat} (himg : t.str.image = s.str.image) (hbrd : t.brd = s.brd)
    (hring : (ring t (wFld op.word 35 30)).c + j = (ring s (wFld op.word 35 30)).c + i) : tileA t op j x = tileA s op i x := by
  simp only [tileA, segAddr, img, hring, himg, hbrd]

/-- A tile streams by its arithmetic on what the state before it holds. -/
theorem streamTile_spec (hd : s.die ≠ .off) (h : TileStreams s op chunk bseg 0 x)
    (hring : (ring s (wFld op.word 35 30)).c < (ring s (wFld op.word 35 30)).p) (fs : List CarryFault) (pos : Nat) :
    let u := (streamTile op chunk bseg fs pos s x).2
    (streamTile op chunk bseg fs pos s x).1.stop = none ∧ FrameStreams s u ∧
      ring u (wFld op.word 35 30) = { ring s (wFld op.word 35 30) with
        c := (ring s (wFld op.word 35 30)).c + 1, cursor := 0, segs := (ring s (wFld op.word 35 30)).segs.drop 1 } ∧
      (slot u x.slot).cells = (tilePass s op false x chunk (tileA s op 0 x) (segB bseg op.desc op.width (chunkLen op.desc chunk))
        (foundCells s chunk x) fs pos).cells ∧
      ∀ k, k ≠ x.slot → slot u k = slot s k := by
  obtain ⟨v, hv⟩ : ∃ v, v = (if chunk = 0 then tileBegins s else (x.sel, s)) := ⟨_, rfl⟩
  have hbegun : FrameStreams s v.2 ∧ v.2.frm = s.frm ∧ v.2.str = s.str := by
    rw [hv]
    split
    · exact tileBegins_streams s
    · exact ⟨.refl s, rfl, rfl⟩
  obtain ⟨hstreams, hfrm, hstr⟩ := hbegun
  have hslots : ∀ k, slot v.2 k = slot s k := slot_congr (by rw [hfrm])
  have hrings : ∀ r, ring v.2 r = ring s r := ring_congr (by rw [hstr])
  have hA : tileA v.2 op 0 x = tileA s op 0 x :=
    tileA_congr (by rw [hstr]) hstreams.brd (by rw [hrings])
  have hfound : foundCells v.2 chunk x = foundCells s chunk x := by rw [foundCells, hslots, foundCells]
  obtain ⟨out, hout⟩ : ∃ out, out = tilePass s op false { x with sel := v.1 } chunk (tileA s op 0 x)
    (segB bseg op.desc op.width (chunkLen op.desc chunk)) (foundCells s chunk x) fs pos := ⟨_, rfl⟩
  obtain ⟨w, hw⟩ : ∃ w, w = (if chunk = 0 then beginSlot v.2 op x else v.2) := ⟨_, rfl⟩
  have hslot : FrameStreams s w ∧ w.str = s.str ∧ ∀ k, k ≠ x.slot → slot w k = slot s k := by
    rw [hw]
    split
    · exact ⟨hstreams.trans (frameStores_setSlot ..).streams, hstr, fun k hk => (slot_setSlot_other _ hk _).trans (hslots k)⟩
    · exact ⟨hstreams, hstr, fun k _ => hslots k⟩
  obtain ⟨hbegin, hwstr, hothers⟩ := hslot
  obtain ⟨hstore, hself, hrest⟩ := storeTile_stores (s := w) (out := out) (by rwa [hbegin.die])
    (hout ▸ tilePass_codes _ _ _ _ _ _ _ _ _ _) x.slot
  have hstream : streamTile op chunk bseg fs pos s x = (out, release (storeTile w x.slot out) (wFld op.word 35 30)) := by
    simp only [streamTile, ← hv, ← hw, hstreams.tilePass, hA, hfound, ← hout]
  have hrel : ring (storeTile w x.slot out) (wFld op.word 35 30) = ring s (wFld op.word 35 30) :=
    ring_congr (by obtain ⟨e, y, l, hs⟩ := hstore; rw [hs, ← hwstr]) _
  rw [hstream]
  refine ⟨?_, hbegin.trans (hstore.streams.trans (frameStreams_release ..)), ?_, ?_, fun k hk => (hrest k hk).trans (hothers k hk)⟩
  · exact hout ▸ tilePass_stop (t := { x with sel := v.1 }) h.range ..
  · rw [← hrel]
    exact ring_setRing_same _ (ring_lt_of_produced hring) _
  · exact (congrArg Slot.cells (hself h.slot)).trans (hout ▸ tilePass_sel ..)

/-- The tiles after a tile that has streamed can stream from the state that it leaves. -/
theorem TileStreams.next {j : Nat} {y : TileRun} {u : State} (h : TileStreams s op chunk bseg (j + 1) y) (hu : FrameStreams s u)
    (hring : ring u (wFld op.word 35 30) = { ring s (wFld op.word 35 30) with
      c := (ring s (wFld op.word 35 30)).c + 1, cursor := 0, segs := (ring s (wFld op.word 35 30)).segs.drop 1 }) :
    TileStreams u op chunk bseg j y := by
  have hc : (ring u (wFld op.word 35 30)).c + j = (ring s (wFld op.word 35 30)).c + (j + 1) := by
    rw [hring, Nat.add_right_comm, Nat.add_assoc]
  refine ⟨?_, h.slot, ?_, ?_⟩
  · rw [hring, List.drop_drop, Nat.add_comm]
    exact h.layout
  · rw [hc, hu.brd, segAddr, img, hu.image]
    exact h.verifies
  · rw [tileA_congr hu.image hu.brd hc, hu.rangeRow]
    exact h.range

/-- A tile that can stream does, and the tiles after it stream from there. -/
theorem streamTiles_cons (h : TileStreams s op chunk bseg 0 x)
    (hring : (ring s (wFld op.word 35 30)).c < (ring s (wFld op.word 35 30)).p) (fs : List CarryFault) (pos : Nat) (xs : List TileRun)
    (hstop : (streamTile op chunk bseg fs pos s x).1.stop = none) :
    streamTiles op chunk bseg fs (wFld op.word 35 30) pos s (x :: xs) =
      let r := streamTiles op chunk bseg fs (wFld op.word 35 30) (pos + 1) (streamTile op chunk bseg fs pos s x).2 xs
      ((streamTile op chunk bseg fs pos s x).1.t :: r.1, r.2.1, r.2.2) := by
  have hready := h.feedReady hring
  have hlayout := h.segNow
  simp only [streamTile, tileA, foundCells, Nat.add_zero] at hstop ⊢
  simp only [streamTiles, hready, hlayout, hstop, Bool.not_true, Bool.false_eq_true, ne_eq, not_true_eq_false, if_false, reduceCtorEq,
    and_false, Option.isSome_none]

end

/-- A pass whose tiles can all stream streams them, each into its own slot (R55, R58, R63, R67). -/
theorem streamTiles_whole {op : FrameOp} {chunk : Nat} {bseg : Bytes} (fs : List CarryFault) (xs : List TileRun) {s : State} (pos : Nat)
    (hd : s.die ≠ .off) (hring : (ring s (wFld op.word 35 30)).c + xs.length ≤ (ring s (wFld op.word 35 30)).p)
    (hdup : (xs.map TileRun.slot).Nodup) (h : ∀ j x, xs[j]? = some x → TileStreams s op chunk bseg j x) :
    ∃ ys u, streamTiles op chunk bseg fs (wFld op.word 35 30) pos s xs = (ys, u, .whole) ∧ FrameStreams s u ∧
      (ring u (wFld op.word 35 30)).c = (ring s (wFld op.word 35 30)).c + xs.length ∧
      (ring u (wFld op.word 35 30)).p = (ring s (wFld op.word 35 30)).p ∧
      (∀ j x, xs[j]? = some x → (slot u x.slot).cells =
        (tilePass s op false x chunk (tileA s op j x) (segB bseg op.desc op.width (chunkLen op.desc chunk)) (foundCells s chunk x)
          fs (pos + j)).cells) ∧
      ∀ k, (∀ x ∈ xs, x.slot ≠ k) → slot u k = slot s k := by
  induction xs generalizing s pos with
  | nil => exact ⟨[], s, rfl, .refl s, rfl, rfl, by simp, fun _ _ => rfl⟩
  | cons x xs ih =>
    rw [List.length_cons] at hring
    obtain ⟨hx, hdup⟩ := List.nodup_cons.mp hdup
    have hx' : ∀ y ∈ xs, y.slot ≠ x.slot := fun y hy he => hx (List.mem_map.mpr ⟨y, hy, he⟩)
    have hready : (ring s (wFld op.word 35 30)).c < (ring s (wFld op.word 35 30)).p := by omega
    obtain ⟨hstop, hstreams, hring', hcells, hothers⟩ := streamTile_spec hd (h 0 x rfl) hready fs pos
    generalize hu : (streamTile op chunk bseg fs pos s x).2 = u at *
    obtain ⟨ys, t, hrun, hrest, hc, hp, hrestCells, hrestOthers⟩ := ih (pos + 1) (s := u) (by rwa [hstreams.die])
      (by simp only [hring']; omega) hdup fun j y hy => (h (j + 1) y hy).next hstreams hring'
    refine ⟨(streamTile op chunk bseg fs pos s x).1.t :: ys, t, ?_, hstreams.trans hrest, ?_, ?_, ?_, fun k hk => ?_⟩
    · rw [streamTiles_cons (h 0 x rfl) hready fs pos xs hstop, hu, hrun]
    · simp only [hc, hring', List.length_cons]; omega
    · rw [hp, hring']
    · rintro (_ | j) y hy
      · cases hy
        rw [hrestOthers x.slot hx', hcells, Nat.add_zero]
      · have hy' : y.slot ≠ x.slot := hx' y (List.mem_of_getElem? hy)
        have hA : tileA u op j y = tileA s op (j + 1) y :=
          tileA_congr hstreams.image hstreams.brd (by rw [hring', Nat.add_right_comm, Nat.add_assoc])
        have hfound : foundCells u chunk y = foundCells s chunk y := by rw [foundCells, hothers _ hy', foundCells]
        rw [hrestCells j y hy, hstreams.tilePass, hA, hfound, Nat.add_right_comm, Nat.add_assoc]
    · obtain ⟨hxk, hk⟩ := List.forall_mem_cons.mp hk
      rw [hrestOthers k hk, hothers k hxk.symm]

/-! ## A pass -/

/-- The finished tiles that are selected join the operation's recounts; nothing else of it changes (R433). -/
theorem addSel_eq (s : State) (ts : List TileRun) (q : TileRun → Int) (op : FrameOp) : ∃ l, addSel s op ts q = { op with sel := l } := by
  induction ts generalizing op with
  | nil => exact ⟨op.sel, rfl⟩
  | cons t ts ih =>
    unfold addSel at ih ⊢
    rw [List.foldl_cons]
    split
    · exact (ih _).imp fun l hl => hl
    · exact ih op

/-- A pass that has streamed counts, and its chunk is used up (R62, R73). -/
theorem passDone_eq (s : State) (op : FrameOp) (tiles : List TileRun) : ∃ op', passDone s op tiles = setCur s op' ∧
    op'.pass = op.pass + 1 ∧ op'.seat = op.seat ∧ op'.active = none ∧ op'.desc = op.desc ∧ op'.feedWait = op.feedWait ∧
    op'.seatWait = op.seatWait ∧ op'.throttle = op.throttle := by
  unfold passDone
  simp only
  split
  · obtain ⟨m, hm⟩ := addSel_eq s (tiles.filter fun t => !needsReplay t) (·.q) { op with pass := op.pass + 1, active := none, pos := 0 }
    rw [hm]
    exact ⟨_, rfl, rfl, rfl, rfl, rfl, rfl, rfl, rfl⟩
  · exact ⟨_, rfl, rfl, rfl, rfl, rfl, rfl, rfl, rfl⟩

/-- The operation that streams, its row group begun, with a weight chunk seated that no substitution holds and no replay due: a pass of it
can begin (R56, R73, R82). -/
structure PassReady (s : State) (op : FrameOp) (tiles : List TileRun) (bseg : Bytes) : Prop where
  cur     : curOp s = some op
  live    : frameLive s op = true
  granted : creditHeld s 0 = false
  group   : op.group = some tiles
  seat    : op.seat = some bseg
  active  : op.active = none
  noSubst : substHolds s op = false
  left    : op.pass < passes op.desc op.width
  noDue   : replayDue op = none

/-- The operation as its seated chunk becomes active (R56, R66). -/
def passActive (op : FrameOp) (tiles : List TileRun) : FrameOp :=
  { addPass op ((tiles.map fun t => tileRows op.desc t.ti).sum * rowCycles (fdA op.desc) (fdB op.desc)) (2 * nextGroup op) with
    active := op.seat, seat := none, pos := 0 }

theorem PassReady.passStart {s : State} {op : FrameOp} {tiles : List TileRun} {bseg : Bytes} (h : PassReady s op tiles bseg) :
    Machine.passStart s op tiles = some (passActive op tiles) := by
  simp only [Machine.passStart, h.active, h.seat, h.noSubst]
  simp [passActive, h.seat]

theorem frameLive_released {s : State} {op : FrameOp} (h : frameLive s op = true) : s.die ≠ .off := by
  simp only [frameLive, Bool.and_eq_true] at h
  obtain ⟨⟨hr, -⟩, -⟩ := h
  exact running_released hr

/-- While its first segment is missing or does not verify a pass is held on the ring (R63, R87). -/
theorem passBegin_held {s : State} {op : FrameOp} {tiles : List TileRun} {bseg : Bytes} (h : PassReady s op tiles bseg)
    (hfeed : feedReady s (wFld op.word 35 30) = false) (fw sw th : Nat) (fs : List CarryFault) :
    passBegin s fw sw th fs = setHold s 0 3 := by
  simp only [passBegin, h.cur, h.group, h.live, h.granted, h.noDue, hfeed, h.passStart, not_le.mpr h.left]
  rfl

/-- A pass whose tiles can all stream is done with them all (R55, R58, R62). -/
theorem passBegin_whole {s : State} {op : FrameOp} {tiles : List TileRun} {bseg : Bytes} (h : PassReady s op tiles bseg)
    (hne : 0 < tiles.length) (hring : (ring s (wFld op.word 35 30)).c + tiles.length ≤ (ring s (wFld op.word 35 30)).p)
    (hdup : (tiles.map TileRun.slot).Nodup)
    (hx : ∀ j x, tiles[j]? = some x → TileStreams s op (op.pass % chunks op.desc) bseg j x) (fw sw th : Nat) (fs : List CarryFault) :
    ∃ op' u, passBegin s fw sw th fs = setCur u op' ∧
      (op'.pass = op.pass + 1 ∧ op'.seat = none ∧ op'.active = none ∧ op'.desc = op.desc ∧ op'.feedWait = op.feedWait + fw ∧
        op'.seatWait = op.seatWait + sw ∧ op'.throttle = op.throttle + th) ∧
      FrameStreams s u ∧ (ring u (wFld op.word 35 30)).c = (ring s (wFld op.word 35 30)).c + tiles.length ∧
      (ring u (wFld op.word 35 30)).p = (ring s (wFld op.word 35 30)).p ∧
      (∀ j x, tiles[j]? = some x → (slot u x.slot).cells =
        (tilePass s op false x (op.pass % chunks op.desc) (tileA s op j x) (tileB op bseg)
          (foundCells s (op.pass % chunks op.desc) x) fs j).cells) ∧
      ∀ k, (∀ x ∈ tiles, x.slot ≠ k) → slot u k = slot s k := by
  obtain ⟨x, hx0⟩ : ∃ x, tiles[0]? = some x := ⟨_, List.getElem?_eq_getElem hne⟩
  have hfeed : feedReady s (wFld op.word 35 30) = true := (hx 0 x hx0).feedReady (by omega)
  have hstart : ∀ j x, tiles[j]? = some x →
      TileStreams (setHold (clearReplay s) 0 0) (passActive op tiles) (op.pass % chunks op.desc) bseg j x := fun j x hj =>
    have hs := hx j x hj
    ⟨hs.layout, hs.slot, hs.verifies, hs.range⟩
  obtain ⟨ys, u, hrun, hstreams, hc, hp, hcells, hothers⟩ := streamTiles_whole fs tiles 0 (op := passActive op tiles)
    (s := setHold (clearReplay s) 0 0) (show s.die ≠ .off from frameLive_released h.live) hring hdup hstart
  obtain ⟨op', hdone, hfields⟩ := passDone_eq u { passActive op tiles with
    group := some ys
    cyc := (passActive op tiles).cyc + fw + sw + th
    feedWait := op.feedWait + fw, seatWait := op.seatWait + sw, throttle := op.throttle + th
    anyNonfinite := op.anyNonfinite || ys.any (·.nonfinite)
    anySeqOvf := op.anySeqOvf || ys.any (·.seqOvf) } ys
  refine ⟨op', u, ?_, hfields, .trans ⟨_, _, _, _, _, _, _, rfl⟩ hstreams, hc, hp, fun j x hj => ?_, hothers⟩
  · rw [← hdone]
    have hrun' : streamTiles (passActive op tiles) ((passActive op tiles).pass % chunks (passActive op tiles).desc)
        ((passActive op tiles).active.getD []) fs (wFld op.word 35 30) (passActive op tiles).pos (setHold (clearReplay s) 0 0)
        (List.drop (passActive op tiles).pos tiles) = (ys, u, .whole) := by
      rw [show (passActive op tiles).active.getD [] = bseg by rw [passActive, h.seat]; rfl]
      exact hrun
    simp only [passBegin, h.cur, h.group, h.live, h.granted, h.noDue, hfeed, h.passStart, not_le.mpr h.left, hrun']
    rfl
  · rw [hcells j x hj, Nat.zero_add]
    rfl

/-! ## The last carry of a pass -/

/-- Slots updated one after another: nothing else changes, and no other slot does. -/
theorem foldl_setSlot {α : Type} (key : α → Nat) (f : α → Slot → Slot) (l : List α) (s : State) :
    let u := l.foldl (fun s x => setSlot s (key x) (f x (slot s (key x)))) s
    u = { s with frm := { s.frm with slots := u.frm.slots } } ∧ ∀ k, (∀ x ∈ l, key x ≠ k) → slot u k = slot s k := by
  induction l generalizing s with
  | nil => exact ⟨rfl, fun _ _ => rfl⟩
  | cons x l ih =>
    obtain ⟨hrest, hothers⟩ := ih (setSlot s (key x) (f x (slot s (key x))))
    refine ⟨hrest, fun k hk => ?_⟩
    obtain ⟨hx, hk⟩ := List.forall_mem_cons.mp hk
    exact (hothers k hk).trans (slot_setSlot_other _ hx.symm _)

/-- The slots of finished tiles turn Full, however often one is named (R67). -/
theorem foldl_full {k : Nat} (hk : k < 16) {l : List Nat} (hl : k ∈ l) (s : State) :
    slot (l.foldl (fun s k => setSlot s k { slot s k with st := 2 }) s) k = { slot s k with st := 2 } := by
  induction l generalizing s with
  | nil => exact absurd hl List.not_mem_nil
  | cons j l ih =>
    rw [List.foldl_cons]
    by_cases hj : k = j
    · subst hj
      by_cases hrest : k ∈ l
      · rw [ih hrest, slot_setSlot_same _ hk]
      · have hlater := (foldl_setSlot id (fun _ x => { x with st := 2 }) l (setSlot s k { slot s k with st := 2 })).2 k
          fun x hx he => hrest (he ▸ hx)
        exact hlater.trans (slot_setSlot_same _ hk _)
    · rw [ih (List.mem_of_ne_of_mem hj hl), slot_setSlot_other _ hj]

theorem firstBelow_zero {p : Nat → Bool} (h : p 0 = true) (n : Nat) : firstBelow p (n + 1) = some 0 := by
  induction n with
  | zero => simp [firstBelow, h]
  | succ n ih => rw [firstBelow, ih]

/-- What the last carry of a pass changes. -/
theorem clearReplay_slots {s u : State} {ops : List FrameOp} (h : u = { s with frm := { s.frm with ops := ops, slots := u.frm.slots } }) :
    clearReplay u = { s with frm := { s.frm with
      ops := (clearReplay u).frm.ops, slots := (clearReplay u).frm.slots, replay := false, rotated := false } } := by
  rw [h]; rfl

/-- The oldest operation's oldest begun pass leaves its last carry (R62, R67). -/
theorem lastCarryWritten_head {s : State} {op : FrameOp} {rest : List FrameOp} {l : Landing} {ls : List Landing}
    (hrun : running s = true) (hops : s.frm.ops = op :: rest) (hland : op.landing = l :: ls) (hdead : op.dead = false) :
    lastCarryWritten s = clearReplay (l.slots.foldl (fun s k => setSlot s k { slot s k with st := 2 })
      { s with frm := { s.frm with ops := { op with landing := ls } :: rest } }) := by
  have hfirst : firstBelow (fun i => ((s.frm.ops[i]?).map fun op => !op.landing.isEmpty && !op.dead).getD false)
      s.frm.ops.length = some 0 := by
    rw [hops]
    exact firstBelow_zero (by simp [hland, hdead]) rest.length
  simp only [lastCarryWritten, hrun, hfirst, Bool.not_true, Bool.false_eq_true, if_false]
  simp [hops, hland]

/-! ## A step-back replay -/

/-- Do the source regions of tile x hold a NaN or an infinity in chunk c (R19)? -/
def sourceNonfiniteAt (s : State) (op : FrameOp) (x : TileRun) (c : Nat) : Bool :=
  let d := op.desc
  let k0 := chunkK (fdA d) (fdB d) * c
  chunkNonfinite (fun r k => srcA s d (256 * x.ti + r) (k0 + k)) (fun k n => srcB s d (k0 + k) (op.width * x.tj + n))
    (tileRows d x.ti) (tileCols d op.width x.tj) (chunkLen d c)

/-- Do the source regions of tile x hold a NaN or an infinity in a chunk before chunk n (R19)? -/
def nonfiniteBelow (s : State) (op : FrameOp) (n : Nat) (x : TileRun) : Bool := (List.range n).any (sourceNonfiniteAt s op x)

theorem nonfiniteBelow_succ (s : State) (op : FrameOp) (n : Nat) (x : TileRun) :
    nonfiniteBelow s op (n + 1) x = (nonfiniteBelow s op n x || sourceNonfiniteAt s op x n) := by
  simp [nonfiniteBelow, List.range_succ]

theorem sourceNonfinite_eq (s : State) (op : FrameOp) : sourceNonfinite s op = nonfiniteBelow s op (chunks op.desc) := rfl

/-- A replayed tile after n chunks (R29). -/
def replayTile (s : State) (op : FrameOp) (n : Nat) (x : TileRun) : TileRun :=
  { asReplay x with nonfinite := nonfiniteBelow s op n x }

/-- A tile that needs a replay has met nothing that is not finite (R75). -/
theorem replayTile_zero (s : State) (op : FrameOp) {x : TileRun} (h : needsReplay x = true) : replayTile s op 0 x = asReplay x := by
  rw [needsReplay, Bool.and_eq_true, Bool.not_eq_true'] at h
  rw [replayTile, show nonfiniteBelow s op 0 x = x.nonfinite from h.2.symm]
  rfl

/-- A replayed tile takes its chunk at its guaranteed quantum, where nothing is above its ceiling (R29, R73). -/
theorem sourcePass_replayTile {s : State} {op : FrameOp} {x : TileRun} {n : Nat} (hseq : fdSeq op.desc = false)
    (hrange : sourceRange s op x n = none) (old : List (List (BitVec 48))) (pos : Nat) :
    let d := op.desc
    let k0 := chunkK (fdA d) (fdB d) * n
    sourcePass s op false (replayTile s op n x) n old [] pos =
      { t := replayTile s op (n + 1) x
        cells := (tileChunk false x.qg (fun r k => srcA s d (256 * x.ti + r) (k0 + k))
          (fun k c => srcB s d (k0 + k) (op.width * x.tj + c)) (tileRows d x.ti) (tileCols d op.width x.tj) (chunkLen d n)
          (fun _ _ _ => 0) old).1
        codes := if nonfiniteBelow s op (n + 1) x && !nonfiniteBelow s op n x then [0x01020002] else [] } := by
  have hexact := tilePass_exact (t := replayTile s op n x) hseq rfl hrange false old pos
  refine Eq.trans (by simp only [sourcePass, ite_self]; rfl) (hexact.trans ?_)
  simp [replayTile, nonfiniteBelow_succ, asReplay, sourceNonfiniteAt]

/-- A tile that first meets a NaN or an infinity sets its bit of the Frame's EVENT (R19). -/
theorem storeTile_event {s : State} (hd : s.die ≠ .off) (k : Nat) {out : TileOut} {nf : Bool}
    (hcodes : out.codes = if nf then [0x01020002] else []) :
    (storeTile s k out).frm.event = s.frm.event ||| (if nf then 2 else 0) := by
  rw [storeTile, hcodes]
  cases nf with
  | false => exact (BitVec.or_zero).symm
  | true =>
    exact congrArg (·.frm.event) (raise_onlyFrm (b := 1) (code := 0x01020002) (s := setSlot s k _) hd rfl (fun _ => rfl) .event [])

theorem or_bit (a b : Bool) : ((if a then 2 else 0) ||| (if b then 2 else 0) : Word) = if (a || b) then 2 else 0 := by
  cases a <;> cases b <;> rfl

/-- A tile that meets no value above its ceiling leaves the replay to the tiles after it (R73). -/
theorem replayChunk_cons {op : FrameOp} {chunk : Nat} {fs : List CarryFault} {pos : Nat} {s : State} {t : TileRun} {ts : List TileRun}
    (h : (sourcePass s op false t chunk (foundCells s chunk t) fs pos).stop = none) :
    replayChunk op chunk fs pos s (t :: ts) =
      let out := sourcePass s op false t chunk (foundCells s chunk t) fs pos
      let r := replayChunk op chunk fs (pos + 1) (storeTile s t.slot out) ts
      (out.t :: r.1, r.2.1, r.2.2) := by
  simp only [foundCells] at h ⊢
  simp only [replayChunk, h, Option.isSome_none, Bool.false_eq_true, if_false]

/-- The tiles of a replay group over one chunk, where nothing is above its ceiling (R19, R73). -/
theorem replayChunk_replayTile {s : State} {op : FrameOp} {n : Nat} (hseq : fdSeq op.desc = false) (xs : List TileRun)
    (hrange : ∀ x ∈ xs, sourceRange s op x n = none) {u : State} (hd : s.die ≠ .off) (hu : FrameStores s u) (pos : Nat) :
    ∃ v, replayChunk op n [] pos u (xs.map (replayTile s op n)) = (xs.map (replayTile s op (n + 1)), v, false) ∧
      FrameStores s v ∧
      v.frm.event = u.frm.event ||| (if xs.any fun x => nonfiniteBelow s op (n + 1) x && !nonfiniteBelow s op n x then 2 else 0) ∧
      (∀ k, (∀ x ∈ xs, x.slot ≠ k) → slot v k = slot u k) ∧
      ∀ x, xs = [x] → x.slot < 16 → slot v x.slot = { slot u x.slot with
        cells := (sourcePass s op false (replayTile s op n x) n (foundCells u n x) [] pos).cells
        nonfinite := nonfiniteBelow s op (n + 1) x } := by
  induction xs generalizing u pos with
  | nil => exact ⟨u, rfl, hu, by simp, fun _ _ => rfl, by simp⟩
  | cons x xs ih =>
    obtain ⟨hx, hxs⟩ := List.forall_mem_cons.mp hrange
    obtain ⟨out, hout⟩ : ∃ out, out = sourcePass s op false (replayTile s op n x) n (foundCells u n x) [] pos := ⟨_, rfl⟩
    have hreplay := hout.trans (sourcePass_replayTile hseq hx _ pos)
    obtain ⟨hstore, hself, hothers⟩ := storeTile_stores (s := u) (out := out) (by rwa [hu.die])
      (hout ▸ tilePass_codes _ _ _ _ _ _ _ _ _ _) x.slot
    obtain ⟨v, hrun, hv, hevent, hrest, -⟩ := ih hxs (hu.trans hstore) (pos + 1)
    have hnow : sourcePass u op false (replayTile s op n x) n (foundCells u n (replayTile s op n x)) [] pos = out := by
      rw [hu.streams.sourcePass, hout]; rfl
    have hcons : replayChunk op n [] pos u ((x :: xs).map (replayTile s op n)) = (out.t :: xs.map (replayTile s op (n + 1)), v, false) := by
      rw [List.map_cons, replayChunk_cons (by rw [hnow, hreplay]), hnow]
      exact congrArg (fun r : List TileRun × State × Bool => (out.t :: r.1, r.2.1, r.2.2)) hrun
    refine ⟨v, ?_, hv, ?_, fun k hk => ?_, ?_⟩
    · rw [hcons, hreplay]
      rfl
    · rw [hevent, storeTile_event (by rwa [hu.die]) x.slot (congrArg TileOut.codes hreplay), List.any_cons, BitVec.or_assoc, or_bit]
    · obtain ⟨hxk, hk⟩ := List.forall_mem_cons.mp hk
      rw [hrest k hk, hothers k hxk.symm]
    · rintro y ⟨⟩ hy
      rw [hrest _ (by simp), hself hy, ← hout, hreplay]
      rfl

/-! ## The whole replay group -/

/-- A carry over one chunk after another (R24, R25). -/
theorem exactCell_add (q : Int) (ab : Nat → Fv × Fv) (m n : Nat) (c : BitVec 48) :
    (exactCell q (fun k => ab (m + k)) n (fun _ => 0) (exactCell q ab m (fun _ => 0) c).1).1 =
      (exactCell q ab (m + n) (fun _ => 0) c).1 := by
  induction n with
  | zero => rfl
  | succ n ih => rw [exactCell_succ, ih, ← Nat.add_assoc, exactCell_succ]

theorem chunkK_pos (a b : Nat) : 0 < chunkK a b := by
  unfold chunkK; split <;> decide

/-- Chunk n of a descriptor begins within K (R55). -/
theorem chunk_begins {d : Bytes} {n : Nat} (h : n < chunks d) : chunkK (fdA d) (fdB d) * n < fdK d := by
  have hk := chunkK_pos (fdA d) (fdB d)
  rw [chunks, ceilDiv, Nat.lt_iff_add_one_le, Nat.le_div_iff_mul_le hk, Nat.add_mul, Nat.mul_comm n] at h
  omega

/-- Its chunks take the whole of K. -/
theorem chunks_whole (d : Bytes) : fdK d ≤ chunkK (fdA d) (fdB d) * chunks d := by
  have hk := chunkK_pos (fdA d) (fdB d)
  have hlt := Nat.lt_mul_div_succ (fdK d + chunkK (fdA d) (fdB d) - 1) hk
  rw [Nat.mul_add] at hlt
  rw [chunks, ceilDiv]
  omega

/-- The carry of a replayed tile over the values of k below n (R24, R29). -/
def replayCell (s : State) (op : FrameOp) (x : TileRun) (r c n : Nat) : BitVec 48 :=
  (exactCell x.qg (fun k => (srcA s op.desc (256 * x.ti + r) k, srcB s op.desc k (op.width * x.tj + c))) n (fun _ => 0) 0).1

/-- One chunk more of a replayed tile (R24, R29). -/
theorem sourcePass_replayCell {s : State} {op : FrameOp} {x : TileRun} {n : Nat} (hseq : fdSeq op.desc = false)
    (hrange : sourceRange s op x n = none) (hn : n < chunks op.desc) {r c : Nat} (hr : r < tileRows op.desc x.ti)
    (hc : c < tileCols op.desc op.width x.tj) {old : List (List (BitVec 48))}
    (hold : cellAt old r c = replayCell s op x r c (min (chunkK (fdA op.desc) (fdB op.desc) * n) (fdK op.desc))) (pos : Nat) :
    cellAt (sourcePass s op false (replayTile s op n x) n old [] pos).cells r c =
      replayCell s op x r c (min (chunkK (fdA op.desc) (fdB op.desc) * (n + 1)) (fdK op.desc)) := by
  have hk := chunk_begins hn
  have hlen : chunkK (fdA op.desc) (fdB op.desc) * n + chunkLen op.desc n =
      min (chunkK (fdA op.desc) (fdB op.desc) * (n + 1)) (fdK op.desc) := by
    rw [chunkLen, Nat.mul_add]; omega
  rw [sourcePass_replayTile hseq hrange, cellAt_tileChunk _ _ _ _ _ _ hr hc, hold, Nat.min_eq_left hk.le, ← hlen]
  simp only [replayCell]
  exact exactCell_add x.qg (fun k => (srcA s op.desc (256 * x.ti + r) k, srcB s op.desc k (op.width * x.tj + c))) _ _ 0

/-- What a replay group of the tiles rep has come to after n chunks, from state u to state v; s is the state whose regions it reads. -/
structure Replayed (s : State) (op : FrameOp) (rep : List TileRun) (n : Nat) (u v : State) : Prop where
  stores : FrameStores s v
  event  : v.frm.event = u.frm.event ||| (if rep.any (nonfiniteBelow s op n) then 2 else 0)
  others : ∀ k, (∀ x ∈ rep, x.slot ≠ k) → slot v k = slot u k
  alone  : ∀ x, rep = [x] → x.slot < 16 → ∃ cs nf, slot v x.slot = { slot u x.slot with cells := cs, nonfinite := nf }
  cells  : ∀ x, rep = [x] → x.slot < 16 → ∀ r c, r < tileRows op.desc x.ti → c < tileCols op.desc op.width x.tj →
    cellAt (foundCells v n x) r c = replayCell s op x r c (min (chunkK (fdA op.desc) (fdB op.desc) * n) (fdK op.desc))

theorem any_below_succ (s : State) (op : FrameOp) (n : Nat) (rep : List TileRun) :
    (rep.any (nonfiniteBelow s op n) || rep.any fun x => nonfiniteBelow s op (n + 1) x && !nonfiniteBelow s op n x) =
      rep.any (nonfiniteBelow s op (n + 1)) := by
  induction rep with
  | nil => rfl
  | cons x rep ih =>
    rw [List.any_cons, List.any_cons, List.any_cons, ← ih, nonfiniteBelow_succ]
    cases nonfiniteBelow s op n x <;> cases sourceNonfiniteAt s op x n <;> simp

/-- The chunks of a replay group below n, where nothing is above its ceiling (R73). -/
theorem replayGroup_below {s : State} {op : FrameOp} {rep : List TileRun} (hseq : fdSeq op.desc = false) (hd : s.die ≠ .off)
    (hrange : ∀ x ∈ rep, ∀ c, c < chunks op.desc → sourceRange s op x c = none) {u : State} (hu : FrameStores s u) {n : Nat}
    (hn : n ≤ chunks op.desc) :
    ∃ v, (List.range n).foldl (fun (r : List TileRun × State × Bool) c => if r.2.2 then r else replayChunk op c [] 0 r.2.1 r.1)
        (rep.map (replayTile s op 0), u, false) = (rep.map (replayTile s op n), v, false) ∧ Replayed s op rep n u v := by
  induction n with
  | zero =>
    refine ⟨u, rfl, hu, by simp [nonfiniteBelow], fun _ _ => rfl, fun x _ _ => ⟨_, _, rfl⟩, fun x _ _ r c _ _ => ?_⟩
    simp [foundCells, cellAt, replayCell, exactCell]
  | succ n ih =>
    obtain ⟨v, hrun, hv⟩ := ih (by omega)
    obtain ⟨w, hchunk, hw, hevent, hothers, hself⟩ := replayChunk_replayTile hseq rep (fun x hx => hrange x hx n hn) hd hv.stores 0
    refine ⟨w, ?_, hw, ?_, fun k hk => (hothers k hk).trans (hv.others k hk), fun x hx hs => ?_, fun x hx hs r c hr hc => ?_⟩
    · rw [List.range_succ, List.foldl_append, hrun]
      exact hchunk
    · rw [hevent, hv.event, BitVec.or_assoc, or_bit, any_below_succ]
    · obtain ⟨cs, nf, hslot⟩ := hv.alone x hx hs
      exact ⟨_, _, by rw [hself x hx hs, hslot]⟩
    · rw [foundCells, if_neg n.succ_ne_zero, hself x hx hs]
      exact sourcePass_replayCell hseq (hrange x (by simp [hx]) n hn) hn hr hc (hv.cells x hx hs r c hr hc) 0

/-- Replay passes change the cycle count of the operation alone (R66). -/
theorem addPasses_eq (op : FrameOp) (rc gid n : Nat) : ∃ c l, addPasses op rc gid n = { op with cyc := c, last := l } := by
  induction n with
  | zero => exact ⟨_, _, rfl⟩
  | succ n ih =>
    obtain ⟨c, l, h⟩ := ih
    exact ⟨_, _, by rw [addPasses, h]; rfl⟩

/-- The state in which the slots of the tiles rep hold their guaranteed quantum, each marked as stepped back (R29). -/
def guaranteed (s : State) (rep : List TileRun) : State :=
  (rep.map asReplay).foldl (fun s t => setSlot s t.slot { slot s t.slot with q := BitVec.ofInt 10 t.q, stepped := true }) s

theorem guaranteed_stores (s : State) (rep : List TileRun) :
    FrameStores s (guaranteed s rep) ∧ (guaranteed s rep).frm.event = s.frm.event ∧
      (∀ k, (∀ x ∈ rep, x.slot ≠ k) → slot (guaranteed s rep) k = slot s k) ∧
      ∀ x, rep = [x] → x.slot < 16 →
        slot (guaranteed s rep) x.slot = { slot s x.slot with q := BitVec.ofInt 10 x.qg, stepped := true } := by
  obtain ⟨hstores, hothers⟩ :=
    foldl_setSlot TileRun.slot (fun t x => { x with q := BitVec.ofInt 10 t.q, stepped := true }) (rep.map asReplay) s
  refine ⟨⟨_, _, _, hstores⟩, congrArg (·.frm.event) hstores, fun k hk => hothers k ?_, ?_⟩
  · rintro y hy
    obtain ⟨x, hx, rfl⟩ := List.mem_map.mp hy
    exact hk x hx
  · rintro x rfl hs
    exact slot_setSlot_same s hs _

/-- A step-back replay that is due, at quanta that a slot can hold and from regions that verify, replays the row group's overflowed
tiles and finishes the group (R29, R30, R73). -/
theorem stepBackReplay_done {s : State} {op : FrameOp} {tiles : List TileRun} (hcur : curOp s = some op)
    (hdue : replayDue op = some tiles) (hlive : frameLive s op = true) (hcredit : creditHeld s 0 = false) (hseq : fdSeq op.desc = false)
    (hq : (tiles.filter needsReplay).all (fun t => decide (t.qg ≤ 511)) = true)
    (hsource : (tiles.filter needsReplay).all (fun t => sourceVerifies s op.desc op.width t.ti t.tj) = true)
    (hrange : ∀ x ∈ tiles.filter needsReplay, ∀ c, c < chunks op.desc → sourceRange s op x c = none) (throttle : Nat) :
    ∃ v op', Replayed s op (tiles.filter needsReplay) (chunks op.desc) (guaranteed s (tiles.filter needsReplay)) v ∧
      (op'.group = none ∧ op'.pass = op.pass ∧ op'.stepbacks = op.stepbacks + (tiles.filter needsReplay).length) ∧
      stepBackReplay s throttle [] = setCur { v with frm := { v.frm with
        event := orBit v.frm.event 0, stepbacks := satAdd32 v.frm.stepbacks (tiles.filter needsReplay).length
        replay := true, rotated := false } } op' := by
  obtain ⟨rep, hrep⟩ : ∃ rep, rep = tiles.filter needsReplay := ⟨_, rfl⟩
  rw [← hrep] at hq hsource hrange ⊢
  have hloose : ((rep.map asReplay).filter fun t => decide (511 < t.q)) = [] := by
    refine List.filter_eq_nil_iff.mpr fun y hy => ?_
    obtain ⟨x, hx, rfl⟩ := List.mem_map.mp hy
    rw [decide_eq_true_eq]
    exact not_lt.mpr (of_decide_eq_true (List.all_eq_true.mp hq x hx))
  have hverifies : (rep.map asReplay).all (fun t => sourceVerifies s op.desc op.width t.ti t.tj) = true := by
    rw [List.all_map]; exact hsource
  have hzero : rep.map asReplay = rep.map (replayTile s op 0) :=
    List.map_congr_left fun x hx => (replayTile_zero s op (List.mem_filter.mp (hrep ▸ hx)).2).symm
  obtain ⟨v, hrun, hv⟩ := replayGroup_below hseq (frameLive_released hlive) hrange (guaranteed_stores s rep).1 le_rfl
  have hgroup : replayGroup (guaranteed s rep) op [] (rep.map asReplay) = (rep.map (replayTile s op (chunks op.desc)), v, false) := by
    rw [hzero]; exact hrun
  obtain ⟨c, l, hpasses⟩ := addPasses_eq op (((rep.map (replayTile s op (chunks op.desc))).map fun t => tileRows op.desc t.ti).sum *
    rowCycles (fdA op.desc) (fdB op.desc)) (2 * ((op.pass - 1) / chunks op.desc) + 1) (chunks op.desc)
  obtain ⟨m, hsel⟩ := addSel_eq v (rep.map (replayTile s op (chunks op.desc))) (·.q) { op with cyc := c, last := l }
  rw [guaranteed] at hgroup
  refine ⟨v, _, hv, ?_, by
    simp only [stepBackReplay, hcur, hdue, hlive, hcredit, ← hrep, hloose, hverifies, hgroup, hpasses, hsel, List.length_map]; rfl⟩
  exact ⟨rfl, rfl, rfl⟩

/-! ## O19 -/

/-- Settles O19: the tiles of a pass by induction along the row group (`streamTiles_whole`), the replay group by induction on its chunks
(`replayGroup_below`), whose cells continue one sum over K (`exactCell_add`). -/
theorem framePassesAndStepBack : Obligations.FramePassesAndStepBack := by
  unfold Obligations.FramePassesAndStepBack
  refine ⟨⟨?_, ?_⟩, ?_, ?_⟩
  · intro s op tiles bseg fw sw th faults hcur hlive hcredit hgroup hseat hactive hsubst hleft hdue
    have hready : PassReady s op tiles bseg := ⟨hcur, hlive, hcredit, hgroup, hseat, hactive, hsubst, hleft, hdue⟩
    refine ⟨fun hfeed => ⟨setHold s 0 3, congrArg Host.Outcome.next (passBegin_held hready hfeed fw sw th faults),
      strand_setStrand_same _ (by decide) _, rfl⟩, fun hne hring hdup hx => ?_⟩
    obtain ⟨op', u, hdone, hfields, hstreams, hc, hp, hcells, hothers⟩ := passBegin_whole hready hne hring hdup
      (fun j x hj => have ⟨hlayout, hslot, hverifies, hrange⟩ := hx j x hj; ⟨hlayout, hslot, hverifies, hrange⟩) fw sw th faults
    refine ⟨setCur u op', congrArg Host.Outcome.next hdone, ⟨op', ?_, hfields⟩, fun _ => hc, hp, hcells, hothers, ?_⟩
    · obtain ⟨e, x, p, o, n, r, y, rfl⟩ := hstreams; rfl
    · obtain ⟨e, x, p, o, n, r, y, rfl⟩ := hstreams; exact ⟨rfl, rfl, rfl⟩
  · intro s op t chunk a b old pos r c d rows cols ks hseq hstop hrange hr hc
    rw [tilePass_exact hseq hstop hrange]
    exact cellAt_tileChunk _ _ _ _ _ _ hr hc
  · intro s op rest l ls hrun hops hland hdead
    obtain ⟨hfull, hothers⟩ := foldl_setSlot id (fun _ x => { x with st := 2 }) l.slots
      { s with frm := { s.frm with ops := { op with landing := ls } :: rest } }
    refine ⟨_, congrArg Host.Outcome.next (lastCarryWritten_head hrun hops hland hdead), congrArg (·.frm.ops) hfull,
      fun k hk h16 => foldl_full h16 hk _, fun k hk => hothers k fun x hx he => hk (he ▸ hx), ?_⟩
    exact clearReplay_slots hfull
  · intro s op tiles throttle hcur hdue hlive hcredit hseq rep hq hsource hrange
    obtain ⟨v, op', hv, hfields, hdone⟩ := stepBackReplay_done hcur hdue hlive hcredit hseq hq hsource hrange throttle
    obtain ⟨-, hevent, hothers, halone⟩ := guaranteed_stores s rep
    refine ⟨_, congrArg Host.Outcome.next hdone, ?_, ?_, rfl, ⟨op', ?_, hfields⟩, fun x hx hs hK => ?_,
      fun k hk => (hv.others k hk).trans (hothers k hk), ?_⟩
    · obtain ⟨e, x, l, rfl⟩ := hv.stores; rfl
    · show orBit v.frm.event 0 = _
      rw [hv.event, hevent, orBit, BitVec.or_assoc, sourceNonfinite_eq]
      cases rep.any (nonfiniteBelow s op (chunks op.desc)) <;> rfl
    · obtain ⟨e, x, l, rfl⟩ := hv.stores; rfl
    · obtain ⟨cs, nf, hslot⟩ := hv.alone x hx hs
      rw [halone x hx hs] at hslot
      have hwhole := chunks_whole op.desc
      have hne : chunks op.desc ≠ 0 := fun h0 => by simp [h0] at hwhole; omega
      refine ⟨(congrArg Slot.q hslot :), (congrArg Slot.stepped hslot :), (congrArg Slot.st hslot :), (congrArg Slot.tag hslot :),
        fun r c hr hc => ?_⟩
      have hcell := hv.cells x hx hs r c hr hc
      rw [foundCells, if_neg hne, Nat.min_eq_right hwhole] at hcell
      exact hcell
    · obtain ⟨e, x, l, rfl⟩ := hv.stores; exact ⟨rfl, rfl, rfl, rfl⟩

end Sys2Proof.Machine
end

section
/-!
SUPPORT. SWEEP (R125 to R129): the elements of its piece, the bytes that they and the scales form on the Board, and what the Edge reports of them:
O23.
-/
namespace Sys2Proof.Machine

/-! ## Rows of one length in a memory -/

/-- The beginning of a written byte string reads as it was written. -/
theorem mread_mwrite_append {m : Mem} (hm : m.wf = true) (a : Nat) (bs cs : Bytes) :
    mread (mwrite m a (bs ++ cs)) a bs.length = bs := by
  rw [mwrite_append]
  exact (mread_congr _ _ fun x _ hx => mget_mwrite_outside _ _ _ _ (.inl hx)).trans (mread_mwrite bs hm a)

/-- Of pieces of n bytes each, written one after another, the beginning of piece i reads as it was written. -/
theorem mread_mwrite_flatMap {α : Type} {f : α → Bytes} {n : Nat} (post : Bytes) {bs rest : Bytes} (xs : List α) :
    (∀ x ∈ xs, (f x).length = n) → ∀ {m : Mem}, m.wf = true → ∀ (a : Nat) {i : Nat} (hi : i < xs.length), f xs[i] = bs ++ rest →
      mread (mwrite m a (xs.flatMap f ++ post)) (a + i * n) bs.length = bs := by
  induction xs with
  | nil => exact fun _ _ _ _ _ hi => absurd hi (Nat.not_lt_zero _)
  | cons x xs ih =>
    intro hlen m hm a i hi hf
    obtain ⟨hx, hxs⟩ := List.forall_mem_cons.mp hlen
    rw [List.flatMap_cons, List.append_assoc]
    cases i with
    | zero =>
      rw [List.getElem_cons_zero] at hf
      rw [hf, List.append_assoc, Nat.zero_mul, Nat.add_zero]
      exact mread_mwrite_append hm a bs _
    | succ i =>
      rw [mwrite_append, hx, Nat.succ_mul, Nat.add_comm (i * n) n, ← Nat.add_assoc]
      exact ih hxs (mwrite_wf _ hm a) (a + n) (Nat.lt_of_succ_lt_succ hi) hf

/-! ## What a sweep writes -/

/-- The elements of a sweep's piece (R127, R128). -/
def sweepRows (s : State) (d : Bytes) : List (List ElemOut) :=
  (List.range (sdRows d)).map fun r => (List.range (sdCols d)).map (sweepElem s d r)

theorem sweepRows_length (s : State) (d : Bytes) : (sweepRows s d).length = sdRows d := by simp [sweepRows]

/-- The bytes of one row: its elements packed, filled to rb bytes with zeros (R306). -/
def sweepRowBytes (dst rb : Nat) (row : List ElemOut) : Bytes :=
  let b := packElems dst (row.map ElemOut.code)
  b ++ zeros (rb - b.length)

/-- The bytes that a sweep writes in its segment: its rows and its ceiling block (R306). -/
def sweepBytes (s : State) (d : Bytes) : Bytes :=
  (sweepRows s d).flatMap (sweepRowBytes (sdDst d) (sweepLayout s d).rowBytes) ++
    ceilBlock (mapCols (img s)) ((sweepRows s d).map fun row => row.map ElemOut.written) (sdCols d)

theorem packElems_length (code : Nat) (xs : List Nat) : (packElems code xs).length = packedBytes code xs.length := natLE_length _ _

/-- A row of a sweep takes its row stride of the segment (R306). -/
theorem sweepRowBytes_length (s : State) (d : Bytes) : ∀ row ∈ sweepRows s d,
    (sweepRowBytes (sdDst d) (sweepLayout s d).rowBytes row).length = (sweepLayout s d).rowBytes := by
  refine List.forall_mem_map.mpr fun r _ => ?_
  have hfits : packedBytes (sdDst d) (sdCols d) ≤ (sweepLayout s d).rowBytes := le_roundUpTo (by decide)
  simp only [sweepRowBytes, List.length_append, zeros_length, packElems_length, List.length_map, List.length_range]
  omega

/-- Each row of a sweep reads, at its place in the segment, as its elements packed (R12, R306). -/
theorem mread_sweepBytes (s : State) (d : Bytes) {m : Mem} (hm : m.wf = true) (seg : Nat) {r : Nat} (hr : r < sdRows d) :
    mread (mwrite m seg (sweepBytes s d)) (seg + r * (sweepLayout s d).rowBytes) (packedBytes (sdDst d) (sdCols d)) =
      packElems (sdDst d) ((List.range (sdCols d)).map fun c => (sweepElem s d r c).code) := by
  have hi : r < (sweepRows s d).length := by rwa [sweepRows_length]
  have hcodes : (sweepRows s d)[r].map ElemOut.code = (List.range (sdCols d)).map fun c => (sweepElem s d r c).code := by
    simp [sweepRows]
  have hwidth : (sweepRows s d)[r].length = sdCols d := by simp [sweepRows]
  have hread := mread_mwrite_flatMap (ceilBlock (mapCols (img s)) ((sweepRows s d).map fun row => row.map ElemOut.written) (sdCols d))
    (sweepRows s d) (sweepRowBytes_length s d) hm seg hi rfl
  rwa [packElems_length, List.length_map, hwidth, hcodes] at hread

/-- A row of a sweep ends within the rows of its segment. -/
theorem sweepRow_end (s : State) (d : Bytes) {r : Nat} (hr : r < sdRows d) :
    r * (sweepLayout s d).rowBytes + packedBytes (sdDst d) (sdCols d) ≤ (sweepLayout s d).rows * (sweepLayout s d).rowBytes := calc
  _ ≤ r * (sweepLayout s d).rowBytes + (sweepLayout s d).rowBytes := Nat.add_le_add_left (le_roundUpTo (by decide)) _
  _ = (r + 1) * (sweepLayout s d).rowBytes := (Nat.succ_mul ..).symm
  _ ≤ (sweepLayout s d).rows * (sweepLayout s d).rowBytes := Nat.mul_le_mul_right _ hr

/-- The segment of the Edge's next sweep (R226). -/
def sweepSeg (s : State) (d : Bytes) : Nat := segAddr s (sdRing d) (edgeSeg s (sdRing d))

/-- The segment and the scales written, in this order (R43, R44, R306). -/
def sweepStored (s : State) (d : Bytes) : State :=
  boardWrite (boardWrite s (sweepSeg s d) (sweepBytes s d)) (fld d 0x1C 4) (sweepScales s d)

theorem mread_sweepStored_scales {s : State} (h : s.brd.mem.wf = true) (d : Bytes) :
    mread (sweepStored s d).brd.mem (fld d 0x1C 4) (sweepScales s d).length = sweepScales s d :=
  mread_mwrite _ (mwrite_wf _ h _) _

/-- Scales that stand clear of the segment leave its rows as they were written. -/
theorem mread_sweepStored_row {s : State} (h : s.brd.mem.wf = true) (d : Bytes)
    (hclear : fld d 0x1C 4 + (sweepScales s d).length ≤ sweepSeg s d ∨
      sweepSeg s d + (sweepLayout s d).rows * (sweepLayout s d).rowBytes + (sweepLayout s d).aux ≤ fld d 0x1C 4)
    {r : Nat} (hr : r < sdRows d) :
    mread (sweepStored s d).brd.mem (sweepSeg s d + r * (sweepLayout s d).rowBytes) (packedBytes (sdDst d) (sdCols d)) =
      packElems (sdDst d) ((List.range (sdCols d)).map fun c => (sweepElem s d r c).code) := by
  have hend := sweepRow_end s d hr
  rw [← mread_sweepBytes s d h (sweepSeg s d) hr]
  exact mread_congr _ _ fun x hlo hhi => mget_mwrite_outside _ _ _ _ (by omega)

/-! ## Issue -/

/-- The operation that the Edge strand's SWEEP becomes as it issues: its segment is written. -/
def issuedSweep (s : State) : EdgeOp :=
  let d := mread s.brd.mem (wFld (strand s 1).word 79 58 * 64) 64
  { num := s.edg.issued, index := (strand s 1).index.toNat, word := (strand s 1).word, desc := d, sweep := true, phase := .tail
    prod := some ((sweepLayout s d).rows * (sweepLayout s d).rowBytes, (sweepLayout s d).aux) }

/-- The counts of a sweep's elements. -/
def sweepCnt (s : State) (d : Bytes) : DrainCnt := (sweepRows s d).foldl (fun k row => row.foldl DrainCnt.add k) {}

/-- The tensor summary and the count record, where the descriptor names them (R119, R124, R128), of a piece of the given elements
and counts. -/
def sweepTotals (s : State) (d : Bytes) (w : BitVec 128) (rows : List (List ElemOut)) (cnt : DrainCnt) (throttle : Nat) : State :=
  let t := if fld d 0x20 4 = addrNone then s
    else summaryUpdate s (fld d 0x20 4) (wFld w 57 57 == 1) ((rows.map fun row => row.map ElemOut.written).flatMap id)
  if fld d 0x24 4 = addrNone then t
  else countUpdate t (fld d 0x24 4) (wFld w 56 56 == 1) { sat := cnt.sat, inf := cnt.inf, nonfin := cnt.nonfin } false
    (sweepCycles d + throttle) 0 0

theorem EdgeWrites.sweepTotals {s t : State} (h : EdgeWrites s t) (d : Bytes) (w : BitVec 128) (rows : List (List ElemOut))
    (cnt : DrainCnt) (throttle : Nat) : EdgeWrites s (Machine.sweepTotals t d w rows cnt throttle) :=
  .ite _ (.ite _ h (h.boardWrite _ _)) (.boardWrite (.ite _ h (h.boardWrite _ _)) _ _)

/-- Writing and reporting, the Edge leaves alone what it has at work, the strands, HBM, the Rods and the Frame. -/
theorem EdgeReports.leaves {s t : State} {b : Brd} (h : EdgeReports s t b) :
    t.brd = b ∧ t.edg.ops = s.edg.ops ∧ t.str = s.str ∧ t.mem = s.mem ∧ t.rod = s.rod ∧ t.frm = s.frm := by
  obtain ⟨e, l, rfl⟩ := h; exact ⟨rfl, rfl, rfl, rfl, rfl, rfl⟩

/-- The job's counts go with what the Edge writes and reports (R135). -/
theorem EdgeReports.edgeJob {s t : State} {b : Brd} (h : EdgeReports s t b) (k : DrainCnt) :
    EdgeReports (Machine.edgeJob s k) (Machine.edgeJob t k) b := by
  obtain ⟨e, l, rfl⟩ := h; exact ⟨e, l, rfl⟩

/-- What a sweep raises sets EVENT bits of the Edge and is on its way (R128). -/
theorem sweepCodes_reports {s : State} (h : s.die ≠ .off) (k : DrainCnt) : EdgeReports s (sweepCodes s k) s.brd := by
  have hnonfin : EdgeReports s (if 0 < k.nonfin then raise s 0x01030004 .event else s) s.brd := by
    split
    · exact edgeReports_raise h ⟨⟨_, rfl⟩, fun _ => rfl⟩ ..
    · exact .refl s
  unfold sweepCodes
  generalize (if 0 < k.nonfin then raise s 0x01030004 .event else s) = t at hnonfin ⊢
  refine hnonfin.andThen ?_
  split
  · exact edgeReports_raise (by rwa [hnonfin.die]) ⟨⟨_, rfl⟩, fun _ => rfl⟩ ..
  · exact .refl t

/-- What the Edge, no longer held, has written on the Board as the SWEEP of descriptor d that its strand is at issues (R125, R128). -/
def sweepWritten (s : State) (d : Bytes) (throttle : Nat) : State :=
  let v := outHold s false
  sweepTotals (sweepStored v d) d (strand s 1).word (sweepRows v d) (sweepCnt v d) throttle

/-- The end of the hold changes nothing that a sweep reads or writes. -/
theorem sweepStored_outHold (s : State) (d : Bytes) (waits : Bool) : (sweepStored (outHold s waits) d).brd = (sweepStored s d).brd := rfl

/-- A SWEEP of no summary and no count record writes its segment and its scales alone. -/
theorem sweepWritten_none {d : Bytes} (hsum : fld d 0x20 4 = addrNone) (hcnt : fld d 0x24 4 = addrNone) (s : State) (throttle : Nat) :
    (sweepWritten s d throttle).brd = (sweepStored s d).brd := by
  simp only [sweepWritten, sweepTotals, hsum, hcnt, if_true, sweepStored_outHold]

/-- What a sweep adds to the job's counts (R135). -/
def sweepJob (k : DrainCnt) : DrainCnt := { sat := k.sat, inf := k.inf }

/-- The state in which a SWEEP has written its piece, and has counted and reported it (R125, R128). -/
def sweepReported (s : State) (d : Bytes) (throttle : Nat) : State :=
  let cnt := sweepCnt (outHold s false) d
  sweepCodes (edgeJob (sweepWritten s d throttle) (sweepJob cnt)) cnt

/-- From the end of the hold and the job's counts on, a sweep that has not issued wrote on the Board and reported, and no more. -/
theorem sweepReported_reports {s : State} (h : s.die ≠ .off) (d : Bytes) (throttle : Nat) :
    EdgeReports (edgeJob (outHold s false) (sweepJob (sweepCnt (outHold s false) d))) (sweepReported s d throttle)
      (sweepWritten s d throttle).brd := by
  obtain ⟨b, hwritten⟩ : EdgeWrites (outHold s false) (sweepWritten s d throttle) :=
    .sweepTotals (.boardWrite (.boardWrite ⟨_, .refl _⟩ _ _) _ _) ..
  obtain ⟨hboard, -⟩ := hwritten.leaves
  rw [← hboard] at hwritten
  have hcounted := hwritten.edgeJob (sweepJob (sweepCnt (outHold s false) d))
  exact hcounted.trans (sweepCodes_reports (hcounted.die ▸ h) _)

/-- An operation added to the Edge's as its instruction issues. -/
theorem edgeIssued_append (s : State) (op : EdgeOp) : edgeIssued (setEdgeOps s (s.edg.ops ++ [op])) =
    issueStrand { s with edg := { s.edg with issued := s.edg.issued + 1, ops := s.edg.ops ++ [op] } } 1 := rfl

section
variable {s : State} {d : Bytes} (hb : begun s 1 0x11 = true) (he : edgeFree s = true)
  (hd : mread s.brd.mem (wFld (strand s 1).word 79 58 * 64) 64 = d) (hr : sweepRefusal s (wFld (strand s 1).word 79 58 * 64) d = none)
include hb he hd hr

/-- Without a credit of its ring a SWEEP is held (R105). -/
theorem sweepIssue_held (hc : edgeCredit s (sdRing d) = false) (throttle : Nat) : sweepIssue s throttle = outHold s true := by
  simp only [sweepIssue, hb, he, hd, hr, hc]
  rfl

/-- With a credit a SWEEP writes its piece, counts and reports it, and issues (R125, R128). -/
theorem sweepIssue_credit (hc : edgeCredit s (sdRing d) = true) (throttle : Nat) :
    sweepIssue s throttle = edgeIssued (setEdgeOps (sweepReported s d throttle)
      ((sweepReported s d throttle).edg.ops ++ [issuedSweep s])) := by
  subst hd
  unfold sweepIssue
  rw [hb, he, Bool.and_self, if_pos rfl]
  extract_lets x desc d v lay rows written cnt data scales op ceil s1 s2 s3 s4 u
  rw [show sweepRefusal s desc d = none from hr, show edgeCredit s (sdRing d) = true from hc]
  have hwritten : s4 = sweepWritten s d throttle := rfl
  have hcnt : cnt = sweepCnt v d := rfl
  have hreported : u = sweepReported s d throttle := by rw [sweepReported, ← hwritten, ← hcnt]; rfl
  have hop : op = issuedSweep s := rfl
  rw [← hreported, ← hop]
  exact (edgeIssued_append u op).symm

end

/-- An instruction of the Edge that issues is held no longer, whatever held it before. -/
theorem issued_edgeIssued {s u : State} {h : BitVec 4} (hu : u.str.strands = (setHold s 1 h).str.strands) (ops : List EdgeOp) :
    Issued s (edgeIssued (setEdgeOps u ops)) 1 := by
  obtain ⟨hself, hother⟩ : Issued (setHold s 1 h) (edgeIssued (setEdgeOps u ops)) 1 := issued_issueStrand hu (by decide)
  rw [setHold, strand_setStrand_same _ (by decide)] at hself
  exact ⟨hself, fun m hm => (hother m hm).trans (strand_setStrand_other _ hm _)⟩

/-- Issuing with the Edge's operations replaced leaves the memories and the other units alone. -/
theorem edgeIssued_leaves (u : State) (ops : List EdgeOp) :
    let t := edgeIssued (setEdgeOps u ops)
    t.edg.ops = ops ∧ t.brd = u.brd ∧ t.mem = u.mem ∧ t.rod = u.rod ∧ t.frm = u.frm :=
  ⟨rfl, rfl, rfl, rfl, rfl⟩

/-- What a SWEEP that has written and reported has not changed but for the hold of its strand. -/
theorem sweepReported_leaves {s : State} (h : s.die ≠ .off) (d : Bytes) (throttle : Nat) :
    let u := sweepReported s d throttle
    u.brd = (sweepWritten s d throttle).brd ∧ u.edg.ops = s.edg.ops ∧ u.str = (setHold s 1 0).str ∧ u.mem = s.mem ∧ u.rod = s.rod ∧
      u.frm = s.frm :=
  (sweepReported_reports h d throttle).leaves

/-- Settles O23: the issue by whether the ring has a credit; what stands on the Board by the two writes, of the segment and then of the
scales. -/
theorem sweepConverts : Obligations.SweepConverts := by
  intro s throttle hcan hb he x d lay seg scales hr
  refine ⟨fun hc => ?held, fun hc => ?issued⟩
  case held =>
    exact ⟨_, congrArg Host.Outcome.next (sweepIssue_held hb he rfl hr hc throttle), rfl, strand_setStrand_same _ (by decide) _, rfl⟩
  case issued =>
    obtain ⟨hboard, hops, hstr, hmem, hrod, hfrm⟩ := sweepReported_leaves (running_released (begun_running hb)) d throttle
    refine ⟨_, congrArg Host.Outcome.next (sweepIssue_credit hb he rfl hr hc throttle), ?_⟩
    obtain ⟨hops', hboard', hmem', hrod', hfrm'⟩ := edgeIssued_leaves (sweepReported s d throttle)
      ((sweepReported s d throttle).edg.ops ++ [issuedSweep s])
    rw [hops', hboard', hmem', hrod', hfrm', hops, hboard]
    refine ⟨issued_edgeIssued (congrArg Str.strands hstr) _, rfl, hmem, hrod, hfrm, fun hsum hcnt => ?_⟩
    rw [sweepWritten_none hsum hcnt]
    exact ⟨mread_sweepStored_scales hcan.board d, fun hclear r hrow => mread_sweepStored_row hcan.board d hclear hrow⟩

end Sys2Proof.Machine
end

section
/-!
SUPPORT. OPT over a gradient whose location wraps: O25 as stated does not hold.

Of the gradient the statement asks only that its location has the Board bit. A location moves on by plain addition (`locAdd`), so one in
the last bytes of the locations carries out of that bit: the gradient's first row lies on the Board, its second in HBM at address 0. Where
the master begins there, the second row reads as its gradient the weight that the first has just written, and the statement's right side
reads what stood there before. `optRefusal` refuses such a location at issue (R148, R272, by `locValid`), but the statement's part on
completion speaks of any descriptor that the strand holds.
-/
namespace Sys2Proof.Machine

/-! ## The completion of one instruction -/

/-- An OPT may complete in a running job once every block that it reads verifies (R200, R300). -/
theorem canComplete_opt {s : State} {c : Nat} (hc : c < 16) (hop : wOp (oldestWord s (18 + c)) = 0x78) :
    canComplete s (18 + c) = (running s && !idle s (18 + c) && !(strand s (18 + c)).dead && !creditHeld s (18 + c) &&
      optVerifies s (strand s (18 + c)).desc (oldestWord s (18 + c))) := by
  have hframe : ¬18 + c = 0 := by omega
  have hedge : ¬18 + c = 1 := by omega
  have hfetch : ¬18 + c ≤ 17 := by omega
  have hrods : 18 + c ≤ 33 := by omega
  simp only [canComplete, hop, hframe, hedge, hfetch, hrods, if_true, if_false]

/-- One completion that may happen: the unit's effect, the count, the signal, and the end of the code (R211, R219, R266). -/
theorem instructionComplete_one {s : State} {n : Fin 43} {i : Nat} {w : BitVec 128} {more : List (Nat × BitVec 128)}
    (h : canComplete s n = true) (hin : (strand s n).inflight = (i, w) :: more) :
    let u := unitComplete s n w
    instructionComplete s [(n, true)] =
      ranPast (applySignals (countDone (setStrand u n { strand u n with inflight := more }) n) (wordSignal n w)) n i := by
  simp [instructionComplete, completeUnits, hin, h]

/-! ## The check value of one block -/

/-- The check values of a memory of which block k alone is not all zeros (R298). Irreducible, for no proof evaluates the check value. -/
@[irreducible] def soleCheck (m : Mem) (k : Nat) : SMap Word :=
  ssetD zeroCheck [] k (crc32c (mread m (blockBytes * k) blockBytes))

theorem checkForm_soleCheck (m : Mem) (k : Nat) : CheckForm (soleCheck m k) := by
  rw [soleCheck]
  exact checkForm_ssetD ⟨rfl, rfl⟩ _ _

/-- That block verifies (R300). -/
theorem blockVerifies_soleCheck (m : Mem) (k : Nat) : blockVerifies m (soleCheck m k) k = true := by
  rw [blockVerifies, checkAt, soleCheck, sgetD_ssetD_same rfl, beq_self_eq_true]

/-! ## The state -/

/-- An image whose weight table, at 0x40, holds one binary32 matrix of two rows by one column under rule 1: W at 0x2000, its transpose at
0x3000, the master at 0 and the state at 0x1000. -/
def wrapImage : Bytes :=
  zeros 0x38 ++ natLE 8 0x40 ++ natLE 8 0x2000 ++ natLE 8 0x3000 ++ natLE 8 0 ++ natLE 8 0x1000 ++ natLE 4 2 ++ natLE 4 1 ++
    natLE 4 0xB ++ natLE 4 1

/-- The location of the gradient: 64 bytes before the locations end. -/
def wrapGrad : Nat := 2 ^ 64 - 64

/-- An optimizer descriptor with a learning rate of 1, an admitted parameter block, and a binary32 gradient at a pitch of 64 bytes. -/
def wrapDesc : Bytes :=
  natLE 4 0x3F800000 ++ zeros 12 ++ natLE 4 0x3F800000 ++ zeros 4 ++ natLE 4 0x3F800000 ++ natLE 4 0x3F800000 ++
    natLE 8 wrapGrad ++ natLE 4 64 ++ natLE 4 0xB

/-- OPT of rows 0 and 1 of entry 0. -/
def wrapWord : BitVec 128 := BitVec.ofNat 128 (0x78 * 2 ^ 120 + 2 * 2 ^ 31)

/-- A Board on which the gradient's first element is 1. -/
def wrapBoard : Mem := mwrite [] (locAddr wrapGrad) (natLE 4 0x3F800000)

/-- The block of the Board that holds it. -/
def wrapBlock : Nat := locAddr wrapGrad / blockBytes

/-- A device that executes a job with that image and that Board; HBM is empty, so that every weight is 0. -/
def wrapJob : State :=
  { State.reset with
    sys := { State.reset.sys with st := .running }, die := .serving, str := { State.reset.str with image := some wrapImage }
    brd := { State.reset.brd with mem := wrapBoard, check := soleCheck wrapBoard wrapBlock } }

/-- The same with the OPT in flight at cluster 0. -/
def wrapState : State := setStrand wrapJob 18 { st := 1, inflight := [(0, wrapWord)], desc := wrapDesc }

/-- The state in which that OPT has completed. -/
def wrapDone : State := instructionComplete wrapState [(rodStrand 0, true)]

/-- The one entry of the weight table. -/
def wrapEntry : Bytes := weightEntry (img wrapState) (wFld wrapWord 79 66)

theorem wrapWord_fields : wOp wrapWord = 0x78 ∧ oRow0 wrapWord = 0 ∧ oRows wrapWord = 2 := by decide

theorem wrapDesc_fields : fld wrapDesc 0x20 8 = wrapGrad ∧ fld wrapDesc 0x28 4 = 64 ∧ fld wrapDesc 0x2C 1 = 0xB := by decide

theorem wrapEntry_fields : weRows wrapEntry = 2 ∧ weCols wrapEntry = 1 ∧ weMaster wrapEntry = 0 ∧ masterPitch wrapEntry = 64 ∧
    weRule wrapEntry = 1 := by decide

/-- The gradient's first row lies on the Board; its second lies in HBM at address 0, where the master begins. -/
theorem wrapGrad_rows : locBoard wrapGrad = true ∧ locBoard (locAdd wrapGrad 64) = false ∧ locAddr (locAdd wrapGrad 64) = 0 := by decide

theorem strand_wrapState : strand wrapState 18 = { st := 1, inflight := [(0, wrapWord)], desc := wrapDesc } :=
  strand_setStrand_same _ (by decide) _

theorem inflight_wrapState : (strand wrapState 18).inflight = [(0, wrapWord)] := congrArg Strand.inflight strand_wrapState

theorem oldestWord_wrapState : oldestWord wrapState 18 = wrapWord := by rw [oldestWord, inflight_wrapState]; rfl

theorem brd_wrapState : wrapState.brd = { State.reset.brd with mem := wrapBoard, check := soleCheck wrapBoard wrapBlock } := rfl

/-! ## The statement's hypotheses -/

theorem canonical_wrapState : Canonical wrapState :=
  (canonical_setStrand _ _ _).mpr { canonical_reset with
    board := mwrite_wf _ Mem.wf_nil _
    checks := by
      have hhbm : CheckForm [] := ⟨rfl, rfl⟩
      show ∀ c ∈ [soleCheck wrapBoard wrapBlock, []], CheckForm c
      exact List.forall_mem_cons.mpr ⟨checkForm_soleCheck _ _, List.forall_mem_cons.mpr ⟨hhbm, List.forall_mem_nil _⟩⟩ }

/-- What is read in the empty HBM verifies. -/
theorem locVerifies_wrapState_hbm {l : Nat} (hl : locBoard l = false) (n : Nat) : locVerifies wrapState l n = true := by
  rw [locVerifies, hl]
  exact rangeVerifies_nil _ _

/-- Every block that the OPT reads verifies: those of its two rows of the gradient, and of the master. -/
theorem optVerifies_wrapState : optVerifies wrapState wrapDesc wrapWord = true := by
  obtain ⟨-, hrow0, hrows⟩ := wrapWord_fields
  obtain ⟨hgrad, hpitch, hcode⟩ := wrapDesc_fields
  obtain ⟨-, hcols, hmaster, hmpitch, hrule⟩ := wrapEntry_fields
  obtain ⟨hboard, hhbm, -⟩ := wrapGrad_rows
  have hgrad0 : locVerifies wrapState wrapGrad 4 = true :=
    locVerifies_board (k := wrapBlock) hboard rfl (by decide) (by rw [brd_wrapState]; exact blockVerifies_soleCheck _ _)
  have hgrad1 : locVerifies wrapState (wrapGrad + 64) 4 = true := locVerifies_wrapState_hbm hhbm _
  have hmaster0 : locVerifies wrapState 0 4 = true := locVerifies_wrapState_hbm (by decide) _
  have hmaster1 : locVerifies wrapState 64 4 = true := locVerifies_wrapState_hbm (by decide) _
  simp [optVerifies, rowsVerify, List.range_succ, locAdd, ← wrapEntry.eq_def, hrow0, hrows, hgrad, hpitch, hcode, hcols, hmaster, hmpitch,
    hrule, gradBytes, fmtBits, hgrad0, hgrad1, hmaster0, hmaster1]

theorem canComplete_wrapState : canComplete wrapState 18 = true := by
  rw [canComplete_opt (c := 0) (by decide) (by rw [oldestWord_wrapState]; exact wrapWord_fields.1), oldestWord_wrapState, idle,
    strand_wrapState, optVerifies_wrapState]
  rfl

theorem finishing_wrapState : Finishing wrapState 0 wrapWord := ⟨canComplete_wrapState, 0, [], inflight_wrapState⟩

/-- The tensors of the entry lie apart. -/
theorem regionsApart_wrapState : RegionsApart (optRegions wrapState wrapEntry) := by
  have hregions : optRegions wrapState wrapEntry = [(0, 128), (0x1000, 256), (0x2000, 192), (0x3000, 128)] := by decide
  rw [hregions]
  simp [RegionsApart, Apart]

/-! ## The two rows -/

/-- From the old memory the second row's gradient is 0, and its new weight 0. -/
theorem optRow_wrapState : (optRow wrapState wrapEntry wrapDesc 1 1).1.w = [0] := by decide

/-- The OPT writes 0 - 1 * 1 = -1 in the first row, and then 0 - 1 * (-1) = 1 in the second. -/
theorem wordRow_wrapDone : wordRow wrapDone 0 1 = [0xBF800000] ∧ wordRow wrapDone 64 1 = [0x3F800000] := by
  rw [wrapDone, instructionComplete_one canComplete_wrapState inflight_wrapState]
  decide

/-- Refutes O25: in `wrapState` the second master row holds 1 after the OPT, and the rule's new weight from the old memory is 0. -/
theorem not_optimizer : ¬ Obligations.Optimizer := by
  intro h
  obtain ⟨hgrad, -, -⟩ := wrapDesc_fields
  obtain ⟨hboard, -, -⟩ := wrapGrad_rows
  obtain ⟨-, hdone⟩ := wordRow_wrapDone
  obtain ⟨t, hrun, -, -, -, -, hmaster⟩ :=
    (h.1 wrapState 0 canonical_wrapState).2 wrapWord finishing_wrapState wrapWord_fields.1 (by decide)
  obtain rfl : wrapDone = t := Host.Outcome.next.inj hrun
  have hloc : locBoard (fld (strand wrapState 18).desc 0x20 8) = true := by rw [strand_wrapState, hgrad]; exact hboard
  have hrow : wordRow wrapDone 64 1 = (optRow wrapState wrapEntry (strand wrapState 18).desc 1 1).1.w :=
    hmaster regionsApart_wrapState hloc 1 (by decide)
  rw [strand_wrapState, optRow_wrapState, hdone] at hrow
  exact absurd hrow (by decide)

end Sys2Proof.Machine
end

section
/-!
SUPPORT. The elementwise instructions of the Rods (R168, R170, R173, R176, R269): what an instruction that writes a vector of local memory
leaves, and the value of each integer row: O8.
-/
namespace Sys2Proof.Machine

/-! ## Issue -/

/-- A Rods instruction that nothing refuses runs to the state of its effect, issued. -/
theorem runs_rodsIssue {i : Instr} {s : State} {c op : Nat} {refusal : State → BitVec 128 → Option Nat}
    {eff : State → BitVec 128 → State} {P : State → Prop} (hexec : exec i s = .next (rodsIssue s c op refusal eff))
    (hb : begun s (18 + c) op = true)
    (hidle : idle s (18 + c) = true) (hr : refusal s (strand s (18 + c)).word = none)
    (hP : P (issueStrand (eff s (strand s (18 + c)).word) (18 + c))) : Runs i s P :=
  ⟨_, by rw [hexec, rodsIssue_issues hb hidle hr], hP⟩

/-- An instruction whose effect is a vector of n elements of k bytes at d, element j being `g j`. -/
theorem runs_elementwise {i : Instr} {s : State} {c : Fin 16} {op n d k : Nat} {g v : Nat → Nat} {refusal : State → BitVec 128 → Option Nat}
    {eff : State → BitVec 128 → State} (hexec : exec i s = .next (rodsIssue s c op refusal eff)) (hs : Canonical s)
    (hb : begun s (18 + c) op = true) (hidle : idle s (18 + c) = true) (hr : refusal s (strand s (18 + c)).word = none)
    (heff : eff s (strand s (18 + c)).word = setLmem s c (vecWrite (lmem s c) d k ((List.range n).map g)))
    (hv : ∀ j, g j % 256 ^ k = v j) :
    Runs i s fun t => Issued s t (18 + c) ∧ LocalFrame s t c d (n * k) ∧ ∀ j, j < n → mnat (lmem t c) (d + k * j) k = v j := by
  obtain ⟨hissued, hframe, hread⟩ :=
    vecWrite_issue (n := 18 + c) (d := d) (k := k) (xs := (List.range n).map g) c.isLt (by omega) (hs.locals c)
  rw [List.length_map, List.length_range] at hframe
  refine runs_rodsIssue hexec hb hidle hr ?_
  rw [heff]
  refine ⟨hissued, hframe, fun j hj => ?_⟩
  rw [hread j (by simpa using hj), List.getElem_map, List.getElem_range, hv]

/-- A Rods instruction that is refused stops its strand, and leaves the memories as they are (R71, R269). -/
theorem runs_rodsIssue_refused {i : Instr} {s : State} {c : Fin 16} {op code : Nat} {refusal : State → BitVec 128 → Option Nat}
    {eff : State → BitVec 128 → State} (hexec : exec i s = .next (rodsIssue s c op refusal eff)) (hb : begun s (18 + c) op = true)
    (hidle : idle s (18 + c) = true) (hr : refusal s (strand s (18 + c)).word = some code) (hbit : eventBit code = none)
    (hcount : ∀ t, countCode t code = t) :
    Runs i s fun t => RefusedAtIssue s t (18 + c) code ∧ t.rod.mem = s.rod.mem ∧ t.brd = s.brd ∧ t.mem = s.mem := by
  have hn0 : ¬18 + c.val = 0 := by omega
  have hn1 : ¬18 + c.val = 1 := by omega
  have hn : 18 ≤ 18 + c.val ∧ 18 + c.val ≤ 33 := by omega
  have hdie : s.die ≠ .off := running_released (begun_running hb)
  refine ⟨_, by rw [hexec, rodsIssue_refused hb hidle hr], ?_⟩
  simp only [refuse, issueFault, if_neg hn0, if_neg hn1, if_pos hn]
  rw [raise_noEvent (by exact hdie) hbit hcount]
  exact ⟨⟨strand_setStrand_same s (by omega) _, fun m hm => strand_setStrand_other s hm _, rfl⟩, rfl, rfl, rfl⟩

theorem zipWith_vecRead (f : Nat → Nat → Nat) (m : Mem) (a b k n : Nat) :
    List.zipWith f (vecRead m a k n) (vecRead m b k n) = (List.range n).map fun j => f (mnat m (a + k * j) k) (mnat m (b + k * j) k) := by
  simp [vecRead, List.zipWith_map]

theorem tyBits_pos (t : Nat) : 0 < tyBits t := by
  unfold tyBits tyBytes
  split <;> decide

/-- Elements of a type are below 2 to its bits. -/
theorem mnat_tyBytes_lt (m : Mem) (a t : Nat) : mnat m a (tyBytes t) < 2 ^ tyBits t := by
  rw [tyBits, Nat.pow_mul]
  exact mnat_lt m a (tyBytes t)

theorem two_pow_tyBits (t : Nat) : 2 ^ tyBits t = 256 ^ tyBytes t := by rw [tyBits, Nat.pow_mul]

/-! ## Integers in two's complement -/

theorem ofSigned_of_modEq {w n : Nat} {i : Int} (h : i ≡ n [ZMOD (2 ^ w : Nat)]) : ofSigned w i = n % 2 ^ w := by
  rw [ofSigned, h.eq, ← Int.natCast_mod, Int.toNat_natCast]

theorem toSigned_modEq (w x : Nat) : toSigned w x ≡ x [ZMOD (2 ^ w : Nat)] := by
  have hmod : ((x % 2 ^ w : Nat) : Int) ≡ x [ZMOD (2 ^ w : Nat)] := by
    rw [Int.natCast_mod]; exact Int.mod_modEq _ _
  unfold toSigned
  dsimp only
  split
  · exact (Int.sub_modulus_modEq_iff).mpr hmod
  · exact hmod

theorem tyInt_modEq (t x : Nat) : tyInt t x ≡ x [ZMOD (2 ^ tyBits t : Nat)] := by
  unfold tyInt
  split
  · exact toSigned_modEq _ x
  · exact Int.ModEq.refl _

/-- The unsigned types of R173. -/
theorem tyInt_unsigned {t : Nat} (ht : t = 3 ∨ t = 4) (x : Nat) : tyInt t x = x := if_neg (by omega)

theorem satTy_unsigned {t : Nat} (ht : t = 3 ∨ t = 4) (x : Int) : satTy t x = max 0 (min ((2 ^ tyBits t - 1 : Nat) : Int) x) := by
  have hpow : 1 ≤ 2 ^ tyBits t := Nat.one_le_two_pow
  rw [satTy, tyMin, tyMax, if_neg (by omega), if_neg (by omega), Nat.cast_sub hpow, Nat.cast_one]

theorem ofSigned_natCast {w n : Nat} (h : n < 2 ^ w) : ofSigned w n = n := by
  rw [ofSigned_of_modEq (Int.ModEq.refl _), Nat.mod_eq_of_lt h]

theorem ofSigned_lt (w : Nat) (i : Int) : ofSigned w i < 2 ^ w := by
  have hpos : (0 : Int) < (2 ^ w : Nat) := by positivity
  have := Int.emod_lt_of_pos i hpos
  have := Int.emod_nonneg i hpos.ne'
  rw [ofSigned]; omega

/-! ## The integer rows -/

section
variable {t a b : Nat}

theorem intArith_add : intArith 0x20 t a b = (a + b) % 2 ^ tyBits t :=
  ofSigned_of_modEq (by push_cast; exact (tyInt_modEq t a).add (tyInt_modEq t b))

theorem intArith_sub (hb : b < 2 ^ tyBits t) : intArith 0x21 t a b = (a + 2 ^ tyBits t - b) % 2 ^ tyBits t := by
  refine ofSigned_of_modEq (((tyInt_modEq t a).sub (tyInt_modEq t b)).trans ?_)
  rw [Nat.cast_sub (by omega), Nat.cast_add, add_sub_right_comm]
  exact Int.add_modulus_modEq_iff.mpr (Int.ModEq.refl _) |>.symm

theorem intArith_mul : intArith 0x22 t a b = a * b % 2 ^ tyBits t :=
  ofSigned_of_modEq (by push_cast; exact (tyInt_modEq t a).mul (tyInt_modEq t b))

theorem intArith_adds (ht : t ∈ [2, 3, 4]) : intArith 0x23 t a b =
    if t = 2 then ofSigned 32 (max (-2147483648) (min 2147483647 (toSigned 32 a + toSigned 32 b)))
    else min (a + b) (2 ^ tyBits t - 1) := by
  have htypes : t = 2 ∨ (t = 3 ∨ t = 4) := by simpa using ht
  rcases htypes with rfl | hu
  · rfl
  · have hpow : 1 ≤ 2 ^ tyBits t := Nat.one_le_two_pow
    rw [if_neg (by omega)]
    show ofSigned _ (satTy t (tyInt t a + tyInt t b)) = _
    rw [tyInt_unsigned hu, tyInt_unsigned hu, satTy_unsigned hu,
      show max 0 (min ((2 ^ tyBits t - 1 : Nat) : Int) ((a : Int) + b)) = (min (a + b) (2 ^ tyBits t - 1) : Nat) by omega]
    exact ofSigned_natCast (by omega)

theorem intArith_subs (ht : t ∈ [2, 3, 4]) (ha : a < 2 ^ tyBits t) : intArith 0x24 t a b =
    if t = 2 then ofSigned 32 (max (-2147483648) (min 2147483647 (toSigned 32 a - toSigned 32 b))) else a - b := by
  have htypes : t = 2 ∨ (t = 3 ∨ t = 4) := by simpa using ht
  rcases htypes with rfl | hu
  · rfl
  · rw [if_neg (by omega)]
    show ofSigned _ (satTy t (tyInt t a - tyInt t b)) = _
    rw [tyInt_unsigned hu, tyInt_unsigned hu, satTy_unsigned hu,
      show max 0 (min ((2 ^ tyBits t - 1 : Nat) : Int) ((a : Int) - b)) = (a - b : Nat) by omega]
    exact ofSigned_natCast (by omega)

theorem intArith_neg (ha : a < 2 ^ tyBits t) : intArith 0x25 t a b = (2 ^ tyBits t - a) % 2 ^ tyBits t := by
  refine ofSigned_of_modEq ((tyInt_modEq t a).neg.trans ?_)
  rw [Nat.cast_sub ha.le, sub_eq_neg_add]
  exact Int.add_modulus_modEq_iff.mpr (Int.ModEq.refl _) |>.symm

theorem toSigned_neg_iff {w x : Nat} (hx : x < 2 ^ w) : toSigned w x < 0 ↔ 2 ^ w ≤ 2 * x := by
  unfold toSigned
  rw [Nat.mod_eq_of_lt hx]
  dsimp only
  split <;> omega

theorem intArith_abs (ht : t ∈ [2, 3, 4]) (ha : a < 2 ^ tyBits t) :
    intArith 0x26 t a b = if t = 2 ∧ 2 ^ 31 ≤ a then 2 ^ 32 - a else a := by
  have htypes : t = 2 ∨ (t = 3 ∨ t = 4) := by simpa using ht
  show (if tyInt t a < 0 then ofSigned _ (-tyInt t a) else a) = _
  rcases htypes with rfl | hu
  · have hneg : tyInt 2 a < 0 ↔ 2 ^ 31 ≤ a := (toSigned_neg_iff ha).trans (by simp only [tyBits, tyBytes]; omega)
    simp only [hneg, true_and]
    split
    · have : intArith 0x25 2 a 0 = _ := intArith_neg ha
      simp only [tyBits, tyBytes] at this ha
      exact this.trans (Nat.mod_eq_of_lt (by omega))
    · rfl
  · rw [tyInt_unsigned hu, if_neg (by omega), if_neg (by omega)]

theorem bitOf_top_iff {w x : Nat} (hw : 0 < w) (hx : x < 2 ^ w) : bitOf x (w - 1) = true ↔ 2 ^ w ≤ 2 * x := by
  have hpow : 2 ^ w = 2 * 2 ^ (w - 1) := by rw [← Nat.pow_succ', Nat.succ_eq_add_one, Nat.sub_add_cancel hw]
  have hlt : x / 2 ^ (w - 1) < 2 := Nat.div_lt_of_lt_mul (by omega)
  have hle : 1 ≤ x / 2 ^ (w - 1) ↔ 2 ^ (w - 1) ≤ x := by rw [Nat.one_le_div_iff (by positivity)]
  rw [bitOf, beq_iff_eq, Nat.mod_eq_of_lt hlt]
  omega

/-- An arithmetic shift by k bits of a w-bit number divides the signed number, rounding down. -/
theorem ofSigned_shift {w k x : Nat} (hk : k < w) (hx : x < 2 ^ w) :
    ofSigned w (toSigned w x / 2 ^ k) = if bitOf x (w - 1) then x / 2 ^ k + (2 ^ k - 1) * 2 ^ (w - k) else x / 2 ^ k := by
  have hsplit : 2 ^ w = 2 ^ (w - k) * 2 ^ k := by rw [← Nat.pow_add, Nat.sub_add_cancel hk.le]
  have hquot : x / 2 ^ k < 2 ^ (w - k) := Nat.div_lt_of_lt_mul (by rwa [Nat.mul_comm, ← hsplit])
  have hones : (2 ^ k - 1) * 2 ^ (w - k) = 2 ^ w - 2 ^ (w - k) := by rw [Nat.sub_mul, one_mul, hsplit, Nat.mul_comm]
  have hle : 2 ^ (w - k) ≤ 2 ^ w := Nat.pow_le_pow_right (by decide) (by omega)
  simp only [bitOf_top_iff (by omega : 0 < w) hx, toSigned, Nat.mod_eq_of_lt hx]
  split
  · have hdiv : ((x : Int) - (2 ^ w : Nat)) / 2 ^ k = ((x / 2 ^ k : Nat) : Int) - (2 ^ (w - k) : Nat) := by
      rw [hsplit]; push_cast
      exact Int.sub_mul_ediv_right _ _ (by positivity)
    rw [hdiv, hones]
    refine (ofSigned_of_modEq (n := x / 2 ^ k + (2 ^ w - 2 ^ (w - k))) ?_).trans (Nat.mod_eq_of_lt (by omega))
    rw [show ((x / 2 ^ k + (2 ^ w - 2 ^ (w - k)) : Nat) : Int) = ((x / 2 ^ k : Nat) : Int) - (2 ^ (w - k) : Nat) + (2 ^ w : Nat) by omega]
    exact Int.add_modulus_modEq_iff.mpr (Int.ModEq.refl _) |>.symm
  · exact_mod_cast ofSigned_natCast (by omega : x / 2 ^ k < 2 ^ w)

theorem intLogic_sar (ha : a < 2 ^ tyBits t) :
    intLogic 0x2E t a b = ofSigned (tyBits t) (toSigned (tyBits t) a / 2 ^ (b % tyBits t)) :=
  (ofSigned_shift (Nat.mod_lt _ (tyBits_pos t)) ha).symm

end

/-- The model agrees with a row of the integer opcodes of two sources: the instruction issues by `intOp2`, with a function that gives the row's
result for any two elements of the type. -/
def IntRow (x : Instr × Nat × (Nat → Nat → Nat → Nat)) (c : Fin 16) : Prop :=
  ∃ g, (∀ s, exec x.1 s = .next (intOp2 s c x.2.1 g)) ∧
    ∀ t ∈ [2, 3, 4], ∀ a b, a < 2 ^ tyBits t → b < 2 ^ tyBits t → g t a b % 2 ^ tyBits t = x.2.2 t a b

/-- It is enough that the function's results are the row's and fit the type. -/
theorem intRow_of_eq {i : Instr} {op : Nat} {c : Fin 16} {f g : Nat → Nat → Nat → Nat} (hexec : ∀ s, exec i s = .next (intOp2 s c op g))
    (h : ∀ t ∈ [2, 3, 4], ∀ a b, a < 2 ^ tyBits t → b < 2 ^ tyBits t → g t a b = f t a b ∧ g t a b < 2 ^ tyBits t) : IntRow (i, op, f) c :=
  ⟨g, hexec, fun t ht a b ha hb => by rw [Nat.mod_eq_of_lt (h t ht a b ha hb).2, (h t ht a b ha hb).1]⟩

theorem intRows_model (c : Fin 16) : ∀ x ∈ intRows c, IntRow x c := by
  simp only [intRows, List.forall_mem_cons, List.not_mem_nil, false_implies, implies_true, and_true]
  refine ⟨?add, ?sub, ?mul, ?adds, ?subs, ?and, ?or, ?xor, ?shl, ?shr, ?sar⟩
  case add => exact intRow_of_eq (fun _ => rfl) fun t _ a b _ _ => ⟨intArith_add, ofSigned_lt _ _⟩
  case sub => exact intRow_of_eq (fun _ => rfl) fun t _ a b _ hb => ⟨intArith_sub hb, ofSigned_lt _ _⟩
  case mul => exact intRow_of_eq (fun _ => rfl) fun t _ a b _ _ => ⟨intArith_mul, ofSigned_lt _ _⟩
  case adds => exact intRow_of_eq (fun _ => rfl) fun t ht a b _ _ => ⟨intArith_adds ht, ofSigned_lt _ _⟩
  case subs => exact intRow_of_eq (fun _ => rfl) fun t ht a b ha _ => ⟨intArith_subs ht ha, ofSigned_lt _ _⟩
  case and => exact intRow_of_eq (fun _ => rfl) fun t _ a b ha _ => ⟨rfl, lt_of_le_of_lt Nat.and_le_left ha⟩
  case or => exact intRow_of_eq (fun _ => rfl) fun t _ a b ha hb => ⟨rfl, Nat.or_lt_two_pow ha hb⟩
  case xor => exact intRow_of_eq (fun _ => rfl) fun t _ a b ha hb => ⟨rfl, Nat.xor_lt_two_pow ha hb⟩
  case shl => exact intRow_of_eq (fun _ => rfl) fun t _ a b _ _ => ⟨rfl, Nat.mod_lt _ (by positivity)⟩
  case shr => exact intRow_of_eq (fun _ => rfl) fun t _ a b ha _ => ⟨rfl, lt_of_le_of_lt (Nat.div_le_self _ _) ha⟩
  case sar => exact intRow_of_eq (fun _ => rfl) fun t _ a b ha _ => ⟨intLogic_sar ha, (intLogic_sar ha).symm ▸ ofSigned_lt _ _⟩

/-- The same of the opcodes of one source. -/
def IntRow1 (x : Instr × Nat × (Nat → Nat → Nat)) (c : Fin 16) : Prop :=
  ∃ g, (∀ s, exec x.1 s = .next (intOp1 s c x.2.1 g)) ∧
    ∀ t ∈ [2, 3, 4], ∀ a, a < 2 ^ tyBits t → g t a % 2 ^ tyBits t = x.2.2 t a

theorem intRows1_model (c : Fin 16) : ∀ x ∈ intRows1 c, IntRow1 x c := by
  simp only [intRows1, List.forall_mem_cons, List.not_mem_nil, false_implies, implies_true, and_true]
  refine ⟨⟨_, fun _ => rfl, ?neg⟩, ⟨_, fun _ => rfl, ?abs⟩, ⟨_, fun _ => rfl, ?not⟩⟩
  case neg =>
    intro t _ a ha
    rw [intArith_neg ha, Nat.mod_mod]
  case abs =>
    intro t ht a ha
    rw [intArith_abs ht ha]
    refine Nat.mod_eq_of_lt ?_
    split
    · obtain ⟨rfl, -⟩ := ‹t = 2 ∧ 2 ^ 31 ≤ a›
      show 2 ^ 32 - a < 2 ^ 32
      omega
    · exact ha
  case not =>
    intro t _ a _
    have hpow : 0 < 2 ^ tyBits t := by positivity
    exact Nat.mod_eq_of_lt (by show tyOnes t - a < _; unfold tyOnes; omega)

/-- A comparison issues by `intOp2`, and gives all ones where the row's relation holds of the two numbers. -/
def CmpRow (x : Instr × Nat × (Fv → Fv → Bool)) (c : Fin 16) : Prop :=
  ∃ g, (∀ s, exec x.1 s = .next (intOp2 s c x.2.1 g)) ∧
    ∀ t a b, g t a b = if x.2.2 (tyFv t a) (tyFv t b) then tyOnes t else 0

theorem cmpRows_model (c : Fin 16) : ∀ x ∈ cmpRows c, CmpRow x c := by
  simp only [cmpRows, List.forall_mem_cons, List.not_mem_nil, false_implies, implies_true, and_true]
  exact ⟨⟨_, fun _ => rfl, fun _ _ _ => rfl⟩, ⟨_, fun _ => rfl, fun _ _ _ => rfl⟩, ⟨_, fun _ => rfl, fun _ _ _ => rfl⟩,
    ⟨_, fun _ => rfl, fun _ _ _ => rfl⟩⟩

/-- Settles O8: (1) to (3) each by the common elementwise issue and the values of its rows, (4) by the refusal of the operands. -/
theorem rodsIntegers : Obligations.RodsIntegers := by
  refine ⟨?two, ?one, ?cmp, ?refused⟩
  case two =>
    intro s c i op f hrow hs hb hidle w t k ht hok
    obtain ⟨g, hexec, hval⟩ := intRows_model c _ hrow
    refine runs_elementwise (hexec s) hs hb hidle (opersRefusal_none hok) (congrArg (setLmem s c) (congrArg _ (zipWith_vecRead ..))) fun j => ?_
    rw [← two_pow_tyBits]
    exact hval t ht _ _ (mnat_tyBytes_lt _ _ _) (mnat_tyBytes_lt _ _ _)
  case one =>
    intro s c i op f hrow hs hb hidle w t k ht hok
    obtain ⟨g, hexec, hval⟩ := intRows1_model c _ hrow
    refine runs_elementwise (hexec s) hs hb hidle (opersRefusal_none hok) (congrArg (setLmem s c) (congrArg _ (List.map_map ..))) fun j => ?_
    rw [← two_pow_tyBits]
    exact hval t ht _ (mnat_tyBytes_lt _ _ _)
  case cmp =>
    intro s c hs hidle w t k n
    refine ⟨fun i op f hrow hb hok => ?_, fun hb hok => ?_⟩
    · obtain ⟨g, hexec, hval⟩ := cmpRows_model c _ hrow
      refine runs_elementwise (hexec s) hs hb hidle (opersRefusal_none hok) (congrArg (setLmem s c) (congrArg _ (zipWith_vecRead ..))) fun j => ?_
      have hones : 2 ^ (8 * k) - 1 < 256 ^ k := by
        rw [Nat.pow_mul]; exact Nat.sub_lt (by positivity) one_pos
      rw [hval]
      split
      · exact Nat.mod_eq_of_lt hones
      · exact Nat.zero_mod _
    · refine runs_elementwise rfl hs hb hidle (opersRefusal_none hok) rfl fun j => Nat.mod_eq_of_lt ?_
      split <;> exact mnat_lt _ _ _
  case refused =>
    intro s c i op f hrow hb hidle w k hbad
    obtain ⟨g, hexec, -⟩ := intRows_model c _ hrow
    exact runs_rodsIssue_refused (hexec s) hb hidle (opersRefusal_some hbad) rfl fun _ => rfl

end Sys2Proof.Machine
end

section
/-!
SUPPORT. The floating-point, conversion, map and dual-result instructions of the Rods (R172, R174, R177, R178, R202): what CHECK adds to a
written vector, and the special inputs of the functions: O9.
-/
namespace Sys2Proof.Machine

theorem runs_imp {i : Instr} {s : State} {P Q : State → Prop} (h : Runs i s P) (hPQ : ∀ t, P t → Q t) : Runs i s Q :=
  h.imp fun t ⟨hexec, hP⟩ => ⟨hexec, hPQ t hP⟩

/-! ## Vectors -/

/-- A vector written at d reads back, element by element. -/
theorem mnat_vecWrite_getD {m : Mem} (hm : m.wf = true) (d k : Nat) {xs : List Nat} {j : Nat} (hj : j < xs.length) :
    mnat (vecWrite m d k xs) (d + k * j) k = xs.getD j 0 % 256 ^ k := by
  rw [mnat_vecWrite k xs hm d j hj, List.getD_eq_getElem _ _ hj]

/-- Element j of n elements of k bytes ends within them. -/
theorem element_end {j n : Nat} (k : Nat) (hj : j < n) : k * j + k ≤ k * n := by
  rw [← Nat.mul_succ]
  exact Nat.mul_le_mul_left k hj

/-- Two vectors that lie apart, written one after the other. -/
theorem vecWrite_vecWrite {m : Mem} (hm : m.wf = true) {d e k l : Nat} {ys zs : List Nat}
    (h : d + k * ys.length ≤ e ∨ e + l * zs.length ≤ d) :
    (∀ a, (a < d ∨ d + k * ys.length ≤ a) → (a < e ∨ e + l * zs.length ≤ a) →
      mget (vecWrite (vecWrite m d k ys) e l zs) a = mget m a) ∧
    (∀ j, j < ys.length → mnat (vecWrite (vecWrite m d k ys) e l zs) (d + k * j) k = ys.getD j 0 % 256 ^ k) ∧
    ∀ j, j < zs.length → mnat (vecWrite (vecWrite m d k ys) e l zs) (e + l * j) l = zs.getD j 0 % 256 ^ l := by
  refine ⟨fun a hd he => ?_, fun j hj => ?_, fun j hj => mnat_vecWrite_getD (vecWrite_wf hm d k ys) e l hj⟩
  · rw [mget_vecWrite_outside _ _ _ _ _ he, mget_vecWrite_outside _ _ _ _ _ hd]
  · rw [← mnat_vecWrite_getD hm d k hj]
    have := element_end k hj
    exact mnat_congr fun x _ _ => mget_vecWrite_outside _ _ _ _ _ (by omega)

/-- The results of an instruction that issues lie apart (R168). -/
theorem opersOk_apart {x y : Oper} {sources : List Oper} (h : opersOk [x, y] sources = true) : x.1 + x.2 ≤ y.1 ∨ y.1 + y.2 ≤ x.1 := by
  simp only [opersOk, opersOk.pairwiseApart, operApart, List.all_cons, List.all_nil, Bool.and_true, Bool.and_eq_true,
    decide_eq_true_eq] at h
  exact h.2

theorem vecRead_map {α : Type} (f : Nat → α) (m : Mem) (a k n : Nat) :
    (vecRead m a k n).map f = (List.range n).map fun j => f (mnat m (a + k * j) k) := List.map_map ..

theorem mnat_one (m : Mem) (a : Nat) : mnat m a 1 = (mget m a).toNat := by
  simp [mnat, mread, leNat]

/-! ## CHECK -/

/-- Nothing changed between s and t but what the Rods report of themselves: their EVENT, their count of non-finite elements, and the codes on
their way. -/
def RodsReport (s t : State) : Prop :=
  t = { s with
    rod := { s.rod with event := t.rod.event, jobNonfinite := t.rod.jobNonfinite }
    knl := { s.knl with inflight := t.knl.inflight } }

theorem RodsReport.rodMem {s t : State} (h : RodsReport s t) : t.rod.mem = s.rod.mem := by rw [h]

theorem RodsReport.str {s t : State} (h : RodsReport s t) : t.str = s.str := by rw [h]

theorem RodsReport.lmem {s t : State} (h : RodsReport s t) (c : Nat) : Machine.lmem t c = Machine.lmem s c :=
  congrArg (vget · c []) h.rodMem

/-- A code of the Rods is a report of theirs. -/
theorem raise_rodsReport {s : State} (h : s.die ≠ .off) {code : Nat} (hc : UnitCode .rod code) (eff : Effect) (detail : Bytes) :
    RodsReport s (raise s code eff detail) := by
  obtain ⟨⟨b, hbit⟩, hcount⟩ := hc
  rw [raise_released h hbit hcount]
  rfl

/-- R202: CHECK reports and counts, and changes nothing else. -/
theorem checkWritten_spec {s : State} (h : s.die ≠ .off) (check : Bool) (cnt : Nat) :
    RodsReport s (checkWritten s check cnt) ∧ Checked s (checkWritten s check cnt) check cnt := by
  have hcount : ∀ u : State, countCode u 0x01040002 = u := fun _ => rfl
  simp only [checkWritten, Checked, Bool.and_eq_true, decide_eq_true_eq]
  split
  · rw [raise_released (by exact h) rfl hcount]
    exact ⟨rfl, rfl, List.mem_append_right _ (List.mem_singleton.mpr rfl)⟩
  · exact ⟨rfl, rfl, rfl, rfl⟩

/-- An instruction that leaves m in local memory where its effect writes, at the places `inside`, and else only reports. -/
theorem runs_reported {i : Instr} {s u : State} {c : Fin 16} {op : Nat} {m : Mem} (inside : Nat → Prop)
    {refusal : State → BitVec 128 → Option Nat} {eff : State → BitVec 128 → State}
    (hexec : exec i s = .next (rodsIssue s c op refusal eff)) (hb : begun s (18 + c) op = true)
    (hidle : idle s (18 + c) = true) (hr : refusal s (strand s (18 + c)).word = none)
    (heff : eff s (strand s (18 + c)).word = u) (hu : RodsReport (setLmem s c m) u)
    (hm : ∀ a, ¬ inside a → mget m a = mget (lmem s c) a) :
    Runs i s fun t => Issued s t (18 + c) ∧ CheckedFrame s t c inside ∧ lmem t c = m ∧ t.rod = u.rod ∧ t.knl = u.knl := by
  have hsame : lmem u c = m := by rw [hu.lmem, lmem_setLmem_same s c.isLt]
  have hother : ∀ c', c' ≠ c.val → lmem u c' = lmem s c' := fun c' hc' => by rw [hu.lmem, lmem_setLmem_other s hc']
  refine runs_rodsIssue hexec hb hidle hr ?_
  rw [heff]
  refine ⟨issued_issueStrand (congrArg Str.strands hu.str) (by omega), ⟨fun a ha => ?_, hother, ?_⟩, hsame, rfl, rfl⟩
  · rw [← hm a ha, ← hsame]; rfl
  · rw [hu]; rfl

/-- An instruction whose effect leaves m in local memory, and counts `cnt` non-finite elements under CHECK. -/
theorem runs_checked {i : Instr} {s : State} {c : Fin 16} {op cnt : Nat} {check : Bool} {m : Mem} (inside : Nat → Prop)
    {refusal : State → BitVec 128 → Option Nat} {eff : State → BitVec 128 → State}
    (hexec : exec i s = .next (rodsIssue s c op refusal eff)) (hb : begun s (18 + c) op = true)
    (hidle : idle s (18 + c) = true) (hr : refusal s (strand s (18 + c)).word = none)
    (heff : eff s (strand s (18 + c)).word = checkWritten (setLmem s c m) check cnt)
    (hm : ∀ a, ¬ inside a → mget m a = mget (lmem s c) a) :
    Runs i s fun t => Issued s t (18 + c) ∧ CheckedFrame s t c inside ∧ Checked s t check cnt ∧ lmem t c = m := by
  obtain ⟨hreport, hchecked⟩ := checkWritten_spec (s := setLmem s c m) (running_released (begun_running hb)) check cnt
  refine runs_imp (runs_reported inside hexec hb hidle hr heff hreport hm) ?_
  rintro t ⟨hissued, hframe, hmem, hrod, hknl⟩
  refine ⟨hissued, hframe, ?_, hmem⟩
  unfold Checked OnItsWay at hchecked ⊢
  rw [hrod, hknl]
  exact hchecked

/-- The same of a vector of n elements of k bytes at d. -/
theorem runs_checkedVector {i : Instr} {s : State} {c : Fin 16} {op n d k cnt : Nat} {check : Bool} {xs : List Nat}
    {refusal : State → BitVec 128 → Option Nat} {eff : State → BitVec 128 → State} (hs : Canonical s)
    (hexec : exec i s = .next (rodsIssue s c op refusal eff)) (hb : begun s (18 + c) op = true)
    (hidle : idle s (18 + c) = true) (hr : refusal s (strand s (18 + c)).word = none)
    (heff : eff s (strand s (18 + c)).word = checkWritten (setLmem s c (vecWrite (lmem s c) d k xs)) check cnt) (hlen : xs.length = n) :
    Runs i s fun t => Issued s t (18 + c) ∧ CheckedFrame s t c (fun a => d ≤ a ∧ a < d + n * k) ∧ Checked s t check cnt ∧
      ∀ j, j < n → mnat (lmem t c) (d + k * j) k = xs.getD j 0 % 256 ^ k := by
  subst hlen
  refine runs_imp (runs_checked (fun a => d ≤ a ∧ a < d + xs.length * k) hexec hb hidle hr heff fun a ha => mget_vecWrite_outside _ _ _ _ _ ?_) ?_
  · rw [Nat.mul_comm] at ha; omega
  · rintro t ⟨hissued, hframe, hchecked, hmem⟩
    exact ⟨hissued, hframe, hchecked, fun j hj => by rw [hmem, mnat_vecWrite_getD (hs.locals c) _ _ hj]⟩

/-! ## The rows and the special inputs -/

theorem floatRows_model (c : Fin 16) : ∀ x ∈ floatRows c, ∀ s, exec x.1 s = .next (floatOp s c x.2.1 x.2.2.1 x.2.2.2) := by
  simp only [floatRows, List.forall_mem_cons, List.not_mem_nil, false_implies, implies_true, and_true]
  and_intros <;> exact fun _ => rfl

theorem specialFn_nan (f : Config.Fn) {x : Word} (h : (f32 x).isNan = true) : specialFn f x = nan32 := by
  have hx : f32 x = .nan := by
    cases hv : f32 x <;> simp_all [Fv.isNan]
  rw [specialFn.eq_def, hx]

/-- A number below zero is one with the sign and a magnitude. -/
theorem fin_of_neg {v : Fv} (h : v.dy.m < 0) : ∃ m e, v = .fin true (m + 1) e := by
  cases v with
  | nan => exact absurd h (lt_irrefl 0)
  | inf neg => exact absurd h (lt_irrefl 0)
  | fin neg m e =>
    cases neg with
    | false => exact absurd h (by simp [Fv.dy])
    | true =>
      cases m with
      | zero => exact absurd h (lt_irrefl 0)
      | succ m => exact ⟨m, e, rfl⟩

theorem specialFn_neg {f : Config.Fn} (hf : f ∈ [Config.Fn.log, Config.Fn.log2, Config.Fn.rsqrt]) {x : Word} (h : (f32 x).dy.m < 0) :
    specialFn f x = nan32 := by
  obtain ⟨m, e, hx⟩ := fin_of_neg h
  have hcases : f = .log ∨ f = .log2 ∨ f = .rsqrt := by simpa using hf
  rw [specialFn.eq_def, hx]
  rcases hcases with rfl | rfl | rfl <;> rfl

/-- R178: the special inputs of the functions. -/
theorem specialFn_special :
    (∀ f ∈ [Config.Fn.exp, Config.Fn.exp2], specialFn f 0 = 0x3F800000 ∧ specialFn f 0x80000000 = 0x3F800000 ∧
      specialFn f 0x7F800000 = 0x7F800000 ∧ specialFn f 0xFF800000 = 0) ∧
    (∀ f ∈ [Config.Fn.log, Config.Fn.log2], specialFn f 0 = 0xFF800000 ∧ specialFn f 0x80000000 = 0xFF800000 ∧
      specialFn f 0x3F800000 = 0 ∧ specialFn f 0x7F800000 = 0x7F800000 ∧ specialFn f 0xFF800000 = nan32) ∧
    specialFn .rsqrt 0 = 0x7F800000 ∧ specialFn .rsqrt 0x80000000 = 0xFF800000 ∧ specialFn .rsqrt 0x7F800000 = 0 ∧
      specialFn .rsqrt 0xFF800000 = nan32 := by
  simp only [List.forall_mem_cons, List.not_mem_nil, false_implies, implies_true, and_true]
  and_intros <;> rfl

/-- Settles O9: each instruction by what CHECK adds to its vectors, the functions by the cases of `specialFn`. -/
theorem rodsFloats : Obligations.RodsFloats := by
  obtain ⟨hexp, hlog, hrsqrt⟩ := specialFn_special
  refine ⟨?rows, ⟨fun f x hx => specialFn_nan f hx, hexp, hlog, fun f hf x _ _ hneg => specialFn_neg hf hneg, hrsqrt⟩, ?others⟩
  case rows =>
    intro s c i op srcs f hrow hs hb hidle w t k n out hok
    exact runs_checkedVector hs (floatRows_model c _ hrow s) hb hidle (opersRefusal_none hok) rfl (by simp [out])
  case others =>
    intro s c hs hidle w m
    refine ⟨?cvt, ?map, ?dual⟩
    case cvt =>
      intro hb st dt out hok
      refine runs_checkedVector hs rfl hb hidle (opersRefusal_none hok) ?_ (by simp [out])
      show checkWritten _ _ (if tyFloat dt then _ else 0) = checkWritten _ _ (if 5 ≤ dt then _ else 0)
      simp only [tyFloat, decide_eq_true_eq, vecRead, List.map_map]
      rfl
    case map =>
      intro hb hok
      have heff : ∀ j, (mget m (fC w + mnat m (fA w + 1 * j) 1)).toNat % 256 ^ 1 = (mget m (fC w + (mget m (fA w + j)).toNat)).toNat :=
        fun j => by rw [mnat_one, one_mul]; exact Nat.mod_eq_of_lt (BitVec.isLt _)
      refine runs_imp (runs_elementwise rfl hs hb hidle (opersRefusal_none hok) (congrArg (setLmem s c) (congrArg _ (List.map_map ..))) heff) ?_
      rintro t ⟨hissued, hframe, hread⟩
      rw [mul_one] at hframe
      refine ⟨hissued, hframe, fun j hj => BitVec.eq_of_toNat_eq ?_⟩
      rw [← hread j hj, mnat_one, one_mul]
    case dual =>
      intro i op act g hrow hb t k n xs ys ds hok
      have hexec : exec i s = .next (dualIssue s c op act g) := by
        simp only [List.mem_cons, Prod.mk.injEq, List.not_mem_nil, or_false] at hrow
        rcases hrow with ⟨rfl, rfl, rfl, rfl⟩ | ⟨rfl, rfl, rfl, rfl⟩ <;> rfl
      have hys : ys.length = fN w := by simp [ys, xs]
      have hds : ds.length = fN w := by simp [ds, xs]
      have hn : n = k * fN w := Nat.mul_comm ..
      obtain ⟨hframe, hready, hreadd⟩ := vecWrite_vecWrite (hs.locals c) (d := fD w) (e := fC w) (k := k) (l := k) (ys := ys) (zs := ds)
        (by rw [hys, hds, ← hn]; exact opersOk_apart hok)
      rw [hys, hds, ← hn] at hframe
      refine runs_imp (runs_checked (fun a => (fD w ≤ a ∧ a < fD w + n) ∨ (fC w ≤ a ∧ a < fC w + n)) (check := fCheck w)
        (cnt := nonfiniteCount t ys + nonfiniteCount t ds) hexec hb hidle (opersRefusal_none hok) ?_
        fun a ha => hframe a (by omega) (by omega)) ?_
      · simp only [vecRead_map]
        rfl
      · rintro u ⟨hissued, hchanged, hchecked, hmem⟩
        rw [hmem]
        exact ⟨hissued, hchanged, hchecked, fun j hj => ⟨hready j (hys ▸ hj), hreadd j (hds ▸ hj)⟩⟩

end Sys2Proof.Machine
end

section
/-!
SUPPORT. TPOSE of a row of HBM that crosses address 2^40: O10 as stated does not hold.

A location holds 40 address bits (R272). The statement takes the place of element (r, q) of the source, SRC + r * pitch + q * e, as a location
of its own, whose address is the sum's low 40 bits. `tposeRefusal` asks only that a region ends within HBM_FOOTPRINT, a field of 64 bits. A load
keeps that field below 2^40 (R241), but the statement speaks of every canonical state and bounds it nowhere. Under a footprint above 2^40 a row
may begin below address 2^40 and end beyond it: TPOSE moves the bytes that follow, and the statement's right side reads address 0 of HBM.
-/
namespace Sys2Proof.Machine

/-- An instruction of a cluster other than OPT may complete in a running job once every block that it reads verifies (R200, R300). -/
theorem canComplete_rods {s : State} {c : Nat} (hc : c < 16) (hop : wOp (oldestWord s (18 + c)) ≠ 0x78) :
    canComplete s (18 + c) = (running s && !idle s (18 + c) && !(strand s (18 + c)).dead && !creditHeld s (18 + c) &&
      rodsVerifies s c (oldestWord s (18 + c))) := by
  have hframe : ¬18 + c = 0 := by omega
  have hedge : ¬18 + c = 1 := by omega
  have hfetch : ¬18 + c ≤ 17 := by omega
  have hrods : 18 + c ≤ 33 := by omega
  simp only [canComplete, hop, hframe, hedge, hfetch, hrods, if_true, if_false, Nat.add_sub_cancel_left]

/-! ## The state -/

/-- An image whose manifest, at 0x1C, has a footprint of 2^40 + 64 bytes. -/
def wideImage : Bytes := zeros 0x18 ++ natLE 4 0x1C ++ natLE 8 (2 ^ 40 + 64)

/-- The location of the source: its one row of 68 bytes ends 4 bytes beyond address 2^40. -/
def wideSrc : Nat := 2 ^ 40 - 64

/-- The location of the destination. -/
def wideDst : Nat := 0x10000

/-- A transpose parameter block (R193) of 1 row by 17 columns of 4-byte elements, at pitches of 64 bytes, without ceiling maps. -/
def wideBlock : Bytes :=
  natLE 8 wideSrc ++ natLE 8 wideDst ++ natLE 4 64 ++ natLE 4 64 ++ natLE 2 1 ++ natLE 2 17 ++ natLE 1 4 ++ zeros 3 ++
    natLE 8 locNone ++ natLE 8 locNone ++ zeros 16

/-- TPOSE with its parameter block at local address 0. -/
def wideWord : BitVec 128 := BitVec.ofNat 128 (0x15 * 2 ^ 120)

/-- A device that executes a job with that image, whose HBM holds a 1 at address 0 and else zeros. -/
def wideJob : State :=
  { State.reset with
    sys := { State.reset.sys with st := .running }, die := .serving, str := { State.reset.str with image := some wideImage }
    mem := { State.reset.mem with hbm := [(0, 1)] } }

/-- The same with the parameter block in cluster 0's local memory, and the TPOSE in flight there. -/
def wideState : State := setStrand (setLmem wideJob 0 (mwrite [] 0 wideBlock)) 18 { st := 1, inflight := [(0, wideWord)] }

/-- The state in which that TPOSE has completed. -/
def wideDone : State := instructionComplete wideState [(rodStrand 0, true)]

theorem wideWord_fields : wOp wideWord = 0x15 ∧ fD wideWord = 0 := by decide

theorem lmem_wideState : lmem wideState 0 = mwrite [] 0 wideBlock := lmem_setLmem_same wideJob (by decide) _

theorem block_wideState : mread (lmem wideState 0) (fD wideWord) 64 = wideBlock := by
  rw [lmem_wideState, wideWord_fields.2]
  exact mread_mwrite wideBlock Mem.wf_nil 0

theorem wideBlock_fields : fld wideBlock 0x00 8 = wideSrc ∧ fld wideBlock 0x08 8 = wideDst ∧ fld wideBlock 0x10 4 = 64 ∧
    fld wideBlock 0x14 4 = 64 ∧ fld wideBlock 0x18 2 = 1 ∧ fld wideBlock 0x1A 2 = 17 ∧ fld wideBlock 0x1C 1 = 4 ∧
    fld wideBlock 0x20 8 = locNone := by decide

theorem strand_wideState : strand wideState 18 = { st := 1, inflight := [(0, wideWord)] } := strand_setStrand_same _ (by decide) _

theorem inflight_wideState : (strand wideState 18).inflight = [(0, wideWord)] := congrArg Strand.inflight strand_wideState

theorem oldestWord_wideState : oldestWord wideState 18 = wideWord := by rw [oldestWord, inflight_wideState]; rfl

/-! ## The statement's hypotheses -/

theorem canonical_wideState : Canonical wideState :=
  have hjob : Canonical wideJob := { canonical_reset with hbm := rfl }
  (canonical_setStrand _ _ _).mpr (hjob.setLmem (by decide) (mwrite_wf wideBlock Mem.wf_nil 0))

theorem tposeRefusal_wideState : tposeRefusal 0 wideState wideWord = none := by
  rw [tposeRefusal, block_wideState]
  decide

/-- The two blocks that the source row touches hold zeros, and verify. -/
theorem rodsVerifies_wideState : rodsVerifies wideState 0 wideWord = true := by
  obtain ⟨hsrc, -, hpitch, -, hrows, hcols, he, hmap⟩ := wideBlock_fields
  have hrow : locVerifies wideState wideSrc 68 = true := by
    rw [locVerifies, if_neg (by decide)]
    exact rangeVerifies_unlisted (by decide) (by decide)
  simp only [rodsVerifies, wideWord_fields.1, block_wideState, hsrc, hpitch, hrows, hcols, he, hmap]
  simpa [rowsVerify, locAdd] using hrow

theorem canComplete_wideState : canComplete wideState 18 = true := by
  rw [canComplete_rods (c := 0) (by decide) (by rw [oldestWord_wideState, wideWord_fields.1]; decide), oldestWord_wideState, idle,
    strand_wideState, rodsVerifies_wideState]
  rfl

theorem finishing_wideState : Finishing wideState 0 wideWord := ⟨canComplete_wideState, 0, [], inflight_wideState⟩

/-! ## The element at address 2^40 -/

/-- The element stands in the destination as it stood behind address 2^40: zero. -/
theorem locRead_wideDone : locRead wideDone (wideDst + 16 * 64 + 0 * 4) 4 = zeros 4 := by
  rw [wideDone, instructionComplete_one (n := rodStrand 0) canComplete_wideState inflight_wideState]
  decide

/-- The location of the element that the statement reads is that of address 0. -/
theorem locRead_wideState : locRead wideState (wideSrc + 0 * 64 + 16 * 4) 4 = [1, 0, 0, 0] := by
  rw [locRead, if_neg (by decide), show locAddr (wideSrc + 0 * 64 + 16 * 4) = 0 by decide]
  rfl

/-- Refutes O10: in `wideState` element (0, 16) of the source lies at address 2^40, and its location wraps to address 0. -/
theorem not_rodsMovesGatherScatterTranspose : ¬ Obligations.RodsMovesGatherScatterTranspose := by
  rintro ⟨-, -, htranspose⟩
  obtain ⟨t, hrun, -, -, hmoved⟩ :=
    (htranspose wideState 0 canonical_wideState).2 wideWord finishing_wideState wideWord_fields.1 tposeRefusal_wideState
  obtain rfl : wideDone = t := Host.Outcome.next.inj hrun
  obtain ⟨hsrc, hdst, hsp, hdp, hrows, hcols, he, hmap⟩ := wideBlock_fields
  have hblock : mread (lmem wideState (0 : Fin 16)) (fD wideWord) 64 = wideBlock := block_wideState
  rw [hblock, hsrc, hdst, hsp, hdp, hrows, hcols, he, hmap] at hmoved
  have hread := hmoved rfl (by decide) 16 0 (by decide) (by decide)
  rw [locRead_wideDone, locRead_wideState] at hread
  exact absurd hread (by decide)

end Sys2Proof.Machine
end

section
/-!
SUPPORT. SORT (R179): the stable sort of records by insertion, and what it leaves in local memory, for O11.
-/
namespace Sys2Proof.Machine

/-! ## The order -/

/-- Does a key stand before another in the order asked for (R179)? -/
def sortBefore (desc : Bool) (a b : Nat) : Bool := if desc then decide (b < a) else decide (a < b)

section
variable {desc : Bool} {a b c : Nat}

theorem sortBefore_iff : sortBefore desc a b = true ↔ if desc then b < a else a < b := by
  cases desc <;> simp [sortBefore]

theorem sortBefore_asymm (h : sortBefore desc a b = true) : sortBefore desc b a = false := by
  cases desc <;> simp [sortBefore] at h ⊢ <;> omega

/-- A key before another stands before all that the other does not follow. -/
theorem sortBefore_trans (h : sortBefore desc a b = true) (h' : sortBefore desc c b = false) : sortBefore desc a c = true := by
  cases desc <;> simp [sortBefore] at h h' ⊢ <;> omega

theorem sortBefore_ne (h : sortBefore desc a b = true) : b ≠ a := by
  rintro rfl
  simp [sortBefore] at h

end

/-! ## Insertion -/

/-- Sorted by their order keys: none stands behind one that it belongs before. -/
def SortedKeys (desc : Bool) (l : List (Nat × Nat × Nat)) : Prop := l.Pairwise fun x y => sortBefore desc y.1 x.1 = false

section
variable (desc : Bool) (x : Nat × Nat × Nat)

theorem sortInsert_perm : ∀ l, (sortInsert (sortBefore desc) x l).Perm (x :: l)
  | [] => List.Perm.refl _
  | y :: ys => by
    rw [sortInsert]
    split
    · exact List.Perm.refl _
    · exact ((sortInsert_perm ys).cons y).trans (List.Perm.swap x y ys)

variable {desc x}

theorem sortInsert_sorted : ∀ {l}, SortedKeys desc l → SortedKeys desc (sortInsert (sortBefore desc) x l)
  | [], _ => List.pairwise_singleton _ _
  | y :: ys, h => by
    obtain ⟨hy, hys⟩ := List.pairwise_cons.mp h
    rw [sortInsert]
    split
    · next hxy =>
      refine List.pairwise_cons.mpr ⟨fun z hz => ?_, h⟩
      rcases List.mem_cons.mp hz with rfl | hz
      · exact sortBefore_asymm hxy
      · exact sortBefore_asymm (sortBefore_trans hxy (hy z hz))
    · next hxy =>
      refine List.pairwise_cons.mpr ⟨fun z hz => ?_, sortInsert_sorted hys⟩
      rcases List.mem_cons.mp ((sortInsert_perm desc x ys).mem_iff.mp hz) with rfl | hz
      · exact Bool.eq_false_of_not_eq_true hxy
      · exact hy z hz

/-- Among the records of one key, a record put into a sorted list stands last. -/
theorem sortInsert_filter (key : Nat) : ∀ {l}, SortedKeys desc l →
    (sortInsert (sortBefore desc) x l).filter (fun r => r.1 == key) = (l ++ [x]).filter fun r => r.1 == key
  | [], _ => rfl
  | y :: ys, h => by
    obtain ⟨hy, hys⟩ := List.pairwise_cons.mp h
    rw [sortInsert]
    split
    · next hxy =>
      by_cases hx : x.1 = key
      · have hnone : (y :: ys).filter (fun r => r.1 == key) = [] := by
          refine List.filter_eq_nil_iff.mpr fun z hz => ?_
          have hxz : sortBefore desc x.1 z.1 = true := by
            rcases List.mem_cons.mp hz with rfl | hz
            · exact hxy
            · exact sortBefore_trans hxy (hy z hz)
          simpa [← hx] using sortBefore_ne hxz
        rw [List.filter_append, hnone, List.filter_cons, hnone]
        simp [hx]
      · simp [List.filter_append, List.filter_cons, hx]
    · rw [List.cons_append, List.filter_cons, List.filter_cons, sortInsert_filter key hys]

end

/-! ## The sort -/

/-- The sort of the records xs into a sorted list: a permutation, sorted, with the records of each key in their order. -/
theorem foldl_sortInsert (desc : Bool) : ∀ (xs : List (Nat × Nat × Nat)) {acc}, SortedKeys desc acc →
    let out := xs.foldl (fun acc x => sortInsert (sortBefore desc) x acc) acc
    out.Perm (acc ++ xs) ∧ SortedKeys desc out ∧
      ∀ key, out.filter (fun r => r.1 == key) = (acc ++ xs).filter fun r => r.1 == key
  | [], acc, h => by simpa using h
  | x :: xs, acc, h => by
    obtain ⟨hperm, hsorted, hfilter⟩ := foldl_sortInsert desc xs (sortInsert_sorted (x := x) h)
    refine ⟨hperm.trans (((sortInsert_perm desc x acc).append_right xs).trans List.perm_middle.symm), hsorted, fun key => ?_⟩
    rw [List.foldl_cons, hfilter, List.filter_append, sortInsert_filter key h, ← List.filter_append, List.append_assoc, List.singleton_append]

/-- The record of SORT for a key and its payload: it is ordered by the key's order key. -/
def sortRecord (kt : Nat) (p : Nat × Nat) : Nat × Nat × Nat := (sortKey kt p.1, p)

/-- The keys and payloads in the order that SORT puts them. -/
def sortedPairs (kt : Nat) (desc : Bool) (ps : List (Nat × Nat)) : List (Nat × Nat) :=
  (sortStable (sortBefore desc) (ps.map (sortRecord kt))).map Prod.snd

section
variable (kt : Nat) (desc : Bool) (ps : List (Nat × Nat))

theorem map_snd_sortRecord : (ps.map (sortRecord kt)).map Prod.snd = ps := by
  rw [List.map_map]
  exact List.map_id ps

/-- R179: a permutation, in the order asked for, in which records of equal keys keep their order. -/
theorem sortedPairs_spec : (sortedPairs kt desc ps).Perm ps ∧
    (sortedPairs kt desc ps).Pairwise (fun a b => sortBefore desc (sortKey kt b.1) (sortKey kt a.1) = false) ∧
    ∀ key, (sortedPairs kt desc ps).filter (fun r => sortKey kt r.1 == key) = ps.filter fun r => sortKey kt r.1 == key := by
  obtain ⟨hperm, hsorted, hfilter⟩ := foldl_sortInsert desc (ps.map (sortRecord kt)) (acc := []) List.Pairwise.nil
  rw [List.nil_append] at hperm hfilter
  have hkey : ∀ r ∈ sortStable (sortBefore desc) (ps.map (sortRecord kt)), r.1 = sortKey kt r.2.1 := fun r hr => by
    obtain ⟨p, -, rfl⟩ := List.mem_map.mp (hperm.mem_iff.mp hr)
    rfl
  refine ⟨?_, ?_, fun key => ?_⟩
  · exact (hperm.map Prod.snd).trans (List.Perm.of_eq (map_snd_sortRecord kt ps))
  · refine List.pairwise_map.mpr (hsorted.imp_of_mem fun ha hb hab => ?_)
    rwa [← hkey _ ha, ← hkey _ hb]
  · have hpairs : ((ps.map (sortRecord kt)).filter fun r => r.1 == key).map Prod.snd = ps.filter fun r => sortKey kt r.1 == key := by
      rw [List.filter_map, map_snd_sortRecord]
      rfl
    rw [sortedPairs, List.filter_map, ← hpairs, ← hfilter key]
    exact congrArg _ (List.filter_congr fun r hr => by simp [hkey r hr])

end

/-! ## Records in local memory -/

/-- The record at place j: the j-th key of k bytes at d, and the j-th payload of 4 bytes at e. -/
def pairAt (m : Mem) (d k e j : Nat) : Nat × Nat := (mnat m (d + k * j) k, mnat m (e + 4 * j) 4)

/-- Keys and payloads written as two vectors that lie apart stand there as records. -/
theorem pairAt_vecWrite {m : Mem} (hm : m.wf = true) {d k e : Nat} {ps : List (Nat × Nat)}
    (hapart : d + k * ps.length ≤ e ∨ e + 4 * ps.length ≤ d) (hps : ∀ p ∈ ps, p.1 < 256 ^ k ∧ p.2 < 256 ^ 4) :
    let m' := vecWrite (vecWrite m d k (ps.map Prod.fst)) e 4 (ps.map Prod.snd)
    (List.range ps.length).map (pairAt m' d k e) = ps ∧
      ∀ a, (a < d ∨ d + k * ps.length ≤ a) → (a < e ∨ e + 4 * ps.length ≤ a) → mget m' a = mget m a := by
  obtain ⟨hframe, hkeys, hpayloads⟩ := vecWrite_vecWrite hm (d := d) (e := e) (k := k) (l := 4) (ys := ps.map Prod.fst)
    (zs := ps.map Prod.snd) (by simpa using hapart)
  simp only [List.length_map] at hframe hkeys hpayloads
  refine ⟨List.ext_getElem (by simp) fun j hj hj' => ?_, hframe⟩
  obtain ⟨hfst, hsnd⟩ := hps _ (List.getElem_mem hj')
  rw [List.getElem_map, List.getElem_range, pairAt, hkeys j hj', hpayloads j hj', List.getD_eq_getElem _ _ (by simpa using hj'),
    List.getD_eq_getElem _ _ (by simpa using hj'), List.getElem_map, List.getElem_map, Nat.mod_eq_of_lt hfst, Nat.mod_eq_of_lt hsnd]

theorem zipWith_sortRecord (kt : Nat) (m : Mem) (d k e n : Nat) :
    List.zipWith (fun a b => (sortKey kt a, a, b)) (vecRead m d k n) (vecRead m e 4 n) =
      ((List.range n).map (pairAt m d k e)).map (sortRecord kt) := by
  simp [vecRead, List.zipWith_map, pairAt, sortRecord]

/-- An instruction whose effect is to leave m in local memory. -/
theorem runs_local {i : Instr} {s : State} {c : Fin 16} {op : Nat} {m : Mem} {refusal : State → BitVec 128 → Option Nat}
    {eff : State → BitVec 128 → State} (hexec : exec i s = .next (rodsIssue s c op refusal eff)) (hb : begun s (18 + c) op = true)
    (hidle : idle s (18 + c) = true) (hr : refusal s (strand s (18 + c)).word = none)
    (heff : eff s (strand s (18 + c)).word = setLmem s c m) : Runs i s fun t => Issued s t (18 + c) ∧ lmem t c = m := by
  refine runs_rodsIssue hexec hb hidle hr ?_
  rw [heff]
  exact ⟨issued_issueStrand rfl (by omega), lmem_issue c.isLt⟩

/-- SORT's effect is the two vectors of the sorted records. -/
theorem runs_sort {s : State} {c : Fin 16} (hs : Canonical s) (hb : begun s (18 + c) 0x60 = true) (hidle : idle s (18 + c) = true) :
    let w := (strand s (18 + c)).word
    let kt := wFld w 3 2
    let k := if kt = 3 then 8 else 4
    let recs := fun m => (List.range (fN w)).map (pairAt m (fD w) k (fA w))
    opersOk [(fD w, fN w * k), (fA w, fN w * 4)] [] = true →
    Runs (.sort c) s fun t => Issued s t (18 + c) ∧ recs (lmem t c) = sortedPairs kt (bitOf w.toNat 1) (recs (lmem s c)) ∧
      ∀ a, (a < fD w ∨ fD w + fN w * k ≤ a) → (a < fA w ∨ fA w + fN w * 4 ≤ a) → mget (lmem t c) a = mget (lmem s c) a := by
  intro w kt k recs hok
  obtain ⟨hperm, -, -⟩ := sortedPairs_spec kt (bitOf w.toNat 1) (recs (lmem s c))
  set out := sortedPairs kt (bitOf w.toNat 1) (recs (lmem s c)) with hout
  have hlen : out.length = fN w := by rw [hperm.length_eq]; simp [recs]
  have hbound : ∀ p ∈ out, p.1 < 256 ^ k ∧ p.2 < 256 ^ 4 := fun p hp => by
    obtain ⟨j, -, rfl⟩ := List.mem_map.mp (hperm.mem_iff.mp hp)
    exact ⟨mnat_lt _ _ _, mnat_lt _ _ _⟩
  obtain ⟨hrecs, hframe⟩ := pairAt_vecWrite (hs.locals c) (d := fD w) (e := fA w) (k := k)
    (by rw [hlen, Nat.mul_comm k, Nat.mul_comm 4]; exact opersOk_apart hok) hbound
  rw [hlen] at hrecs hframe
  rw [Nat.mul_comm k, Nat.mul_comm 4] at hframe
  have hwritten : (sortStable (sortBefore (bitOf w.toNat 1)) (List.zipWith (fun a b => (sortKey kt a, a, b))
      (vecRead (lmem s c) (fD w) k (fN w)) (vecRead (lmem s c) (fA w) 4 (fN w)))).map Prod.snd = out := by
    simp only [hout, sortedPairs, zipWith_sortRecord, recs]
  refine runs_imp (runs_local (m := vecWrite (vecWrite (lmem s c) (fD w) k (out.map Prod.fst)) (fA w) 4 (out.map Prod.snd))
    rfl hb hidle (opersRefusal_none hok) ?_) ?_
  · simp only [← hwritten, List.map_map]
    rfl
  · rintro t ⟨hissued, hmem⟩
    rw [hmem]
    exact ⟨hissued, hrecs, hframe⟩

end Sys2Proof.Machine
end

section
/-!
SUPPORT. The instructions over strings (R181, R183, R185): the report of a length above 64, and the vectors that they write, for O11.
-/
namespace Sys2Proof.Machine

/-! ## Strings -/

theorem strAt_length_le (m : Mem) (slots lens i : Nat) : (strAt m slots lens i).length ≤ 64 := by
  rw [strAt]
  split
  · exact Nat.zero_le _
  · next h =>
    rw [mread_length]
    exact Nat.le_of_not_lt h

/-! ## Lengths above 64 -/

theorem raise_onItsWay {s : State} (h : s.die ≠ .off) (code : Nat) (eff : Effect) (detail : Bytes) :
    OnItsWay (raise s code eff detail) code eff detail s.sys.drill := by
  rw [OnItsWay, raise_inflight h]
  exact List.mem_append_right _ (List.mem_singleton.mpr rfl)

/-- Is one of the first n strings, by one of the length arrays, longer than 64 bytes (R185)? -/
def anyLong (m : Mem) (n : Nat) (lens : List Nat) : Bool :=
  (List.range n).any fun i => lens.any fun a => decide (64 < (mget m (a + i)).toNat)

/-- R185: a length above 64 is reported, and nothing else changes; without one nothing does. -/
theorem lenCheck_spec {s : State} (h : s.die ≠ .off) (m : Mem) (n : Nat) (lens : List Nat) :
    RodsReport s (lenCheck s m n lens) ∧
      if anyLong m n lens = true then ∃ d, OnItsWay (lenCheck s m n lens) 0x01040003 .event d s.sys.drill
      else (lenCheck s m n lens).knl = s.knl := by
  have hlong : anyLong m n lens = true ↔ indicesWhere n (fun i => lens.any fun a => decide (64 < (mget m (a + i)).toNat)) ≠ [] := by
    rw [anyLong, indicesWhere, Ne, List.filter_eq_nil_iff, List.any_eq_true]
    push Not
    rfl
  have hcode : UnitCode .rod 0x01040003 := ⟨⟨2, rfl⟩, fun _ => rfl⟩
  rw [lenCheck]
  split
  · next heq =>
    rw [if_pos (hlong.mpr (by rw [heq]; exact List.cons_ne_nil _ _))]
    exact ⟨raise_rodsReport h hcode _ _, _, raise_onItsWay h _ _ _⟩
  · next heq =>
    rw [if_neg (mt hlong.mp (by rw [heq]; simp))]
    exact ⟨rfl, rfl⟩

/-- An instruction over strings that writes a vector of n elements of k bytes at d, the j-th being `g j`. -/
theorem runs_strings {i : Instr} {s : State} {c : Fin 16} {op n d k strs : Nat} {lens : List Nat} {g : Nat → Nat}
    {refusal : State → BitVec 128 → Option Nat} {eff : State → BitVec 128 → State} (hs : Canonical s)
    (hexec : exec i s = .next (rodsIssue s c op refusal eff)) (hb : begun s (18 + c) op = true)
    (hidle : idle s (18 + c) = true) (hr : refusal s (strand s (18 + c)).word = none)
    (heff : eff s (strand s (18 + c)).word =
      lenCheck (setLmem s c (vecWrite (lmem s c) d k ((List.range n).map g))) (lmem s c) strs lens) :
    Runs i s fun t => Issued s t (18 + c) ∧
      (if anyLong (lmem s c) strs lens = true then ∃ d, OnItsWay t 0x01040003 .event d s.sys.drill else t.knl = s.knl) ∧
      t.brd = s.brd ∧ t.mem = s.mem ∧ (∀ a, a < d ∨ d + k * n ≤ a → mget (lmem t c) a = mget (lmem s c) a) ∧
      ∀ j, j < n → mnat (lmem t c) (d + k * j) k = g j % 256 ^ k := by
  have hlen : ((List.range n).map g).length = n := by simp
  obtain ⟨hreport, hlong⟩ := lenCheck_spec (s := setLmem s c (vecWrite (lmem s c) d k ((List.range n).map g)))
    (running_released (begun_running hb)) (lmem s c) strs lens
  refine runs_imp (runs_reported (fun a => d ≤ a ∧ a < d + k * n) hexec hb hidle hr heff hreport
    fun a ha => mget_vecWrite_outside _ _ _ _ _ (by rw [hlen]; omega)) ?_
  rintro t ⟨hissued, ⟨hframe, -, ht⟩, hmem, -, hknl⟩
  refine ⟨hissued, ?_, by rw [ht], by rw [ht], fun a ha => hframe a (by omega), fun j hj => ?_⟩
  · simp only [OnItsWay, hknl] at hlong ⊢
    exact hlong
  · rw [hmem, mnat_vecWrite_getD (hs.locals c) d k (by rwa [hlen]), List.getD_eq_getElem _ _ (by rwa [hlen]), List.getElem_map,
      List.getElem_range]

/-- The signatures of n strings of sz entries each, one behind the other. -/
theorem flatMap_range_map {α : Type} (f : Nat → Nat → α) (sz : Nat) : ∀ n,
    ((List.range n).flatMap fun i => (List.range sz).map (f i)) = (List.range (sz * n)).map fun q => f (q / sz) (q % sz)
  | 0 => by simp
  | n + 1 => by
    rw [List.range_succ, List.flatMap_append, flatMap_range_map f sz n, Nat.mul_succ, List.range_add, List.map_append, List.map_map]
    congr 1
    simp only [List.flatMap_cons, List.flatMap_nil, List.append_nil]
    refine List.map_congr_left fun j hj => ?_
    have hj' : j < sz := List.mem_range.mp hj
    simp [Nat.mul_add_div (by omega : 0 < sz), Nat.div_eq_of_lt hj', Nat.mod_eq_of_lt hj']

/-- An instruction over n strings that writes sz entries of k bytes for each, entry j of string i being `f i j`. -/
theorem runs_signatures {i : Instr} {s : State} {c : Fin 16} {op n sz d k strs : Nat} {lens : List Nat} {f : Nat → Nat → Nat}
    {refusal : State → BitVec 128 → Option Nat} {eff : State → BitVec 128 → State} (hs : Canonical s)
    (hexec : exec i s = .next (rodsIssue s c op refusal eff)) (hb : begun s (18 + c) op = true)
    (hidle : idle s (18 + c) = true) (hr : refusal s (strand s (18 + c)).word = none)
    (heff : eff s (strand s (18 + c)).word = lenCheck (setLmem s c (vecWrite (lmem s c) d k
      ((List.range n).flatMap fun i => (List.range sz).map (f i)))) (lmem s c) strs lens) :
    Runs i s fun t => Issued s t (18 + c) ∧
      (if anyLong (lmem s c) strs lens = true then ∃ d, OnItsWay t 0x01040003 .event d s.sys.drill else t.knl = s.knl) ∧
      t.brd = s.brd ∧ t.mem = s.mem ∧ (∀ a, a < d ∨ d + k * sz * n ≤ a → mget (lmem t c) a = mget (lmem s c) a) ∧
      ∀ i j, i < n → j < sz → mnat (lmem t c) (d + k * (sz * i + j)) k = f i j % 256 ^ k := by
  rw [flatMap_range_map] at heff
  refine runs_imp (runs_strings hs hexec hb hidle hr heff) ?_
  rintro t ⟨hissued, hreports, hbrd, hmem, hframe, hread⟩
  rw [← Nat.mul_assoc] at hframe
  refine ⟨hissued, hreports, hbrd, hmem, hframe, fun i j hi hj => ?_⟩
  have hlt : sz * i + j < sz * n := lt_of_lt_of_le (Nat.add_lt_add_left hj _) (element_end sz hi)
  have hdiv : (sz * i + j) / sz = i := by rw [Nat.mul_add_div (by omega), Nat.div_eq_of_lt hj, Nat.add_zero]
  rw [hread _ hlt, hdiv, Nat.mul_add_mod, Nat.mod_eq_of_lt hj]

/-- EDIT and JW write `f` of each pair of strings (R185). -/
theorem runs_pairs {i : Instr} {s : State} {c : Fin 16} {op : Nat} {f : Bytes → Bytes → Nat} (hs : Canonical s)
    (hexec : exec i s = .next (pairIssue s c op f)) (hb : begun s (18 + c) op = true) (hidle : idle s (18 + c) = true)
    (hr : pairRefusal c s (strand s (18 + c)).word = none) :
    let w := (strand s (18 + c)).word
    let m := lmem s c
    let at_ := fun o => mnat m (fA w + o) 4
    Runs i s fun t => Issued s t (18 + c) ∧ t.brd = s.brd ∧ t.mem = s.mem ∧
      (∀ x, x < fD w ∨ fD w + 4 * fN w ≤ x → mget (lmem t c) x = mget m x) ∧
      ∀ j, j < fN w → mnat (lmem t c) (fD w + 4 * j) 4 = f (strAt m (at_ 0) (at_ 4) j) (strAt m (at_ 8) (at_ 12) j) % 2 ^ 32 := by
  intro w m at_
  refine runs_imp (runs_strings (n := fN w) (k := 4) (strs := fN w) (lens := [at_ 4, at_ 12]) hs hexec hb hidle hr rfl) ?_
  rintro t ⟨hissued, -, hbrd, hmem, hframe, hread⟩
  exact ⟨hissued, hbrd, hmem, hframe, hread⟩

end Sys2Proof.Machine
end

section
/-!
SUPPORT. EDIT (R186): the rows of the Levenshtein table hold the distances of the strings' beginnings, and a distance is the least number
of edits, for O11.
-/
namespace Sys2Proof.Machine

/-! ## The distance by recursion -/

/-- The least cost by which the first byte of a or of b is kept, replaced, inserted or deleted, and the rest after it. -/
def editCost : Bytes → Bytes → Nat
  | [], b => b.length
  | a, [] => a.length
  | x :: a, y :: b => min (min (editCost (x :: a) b + 1) (editCost a (y :: b) + 1)) (editCost a b + if x = y then 0 else 1)
termination_by a b => a.length + b.length

@[simp] theorem editCost_nil_left (b : Bytes) : editCost [] b = b.length := by rw [editCost]

@[simp] theorem editCost_nil_right (a : Bytes) : editCost a [] = a.length := by cases a <;> rw [editCost]; simp

theorem editCost_cons (x y : Byte) (a b : Bytes) : editCost (x :: a) (y :: b) =
    min (min (editCost (x :: a) b + 1) (editCost a (y :: b) + 1)) (editCost a b + if x = y then 0 else 1) := by
  rw [editCost]

theorem edits_length_left : ∀ a : Bytes, Edits a [] a.length
  | [] => .nil
  | x :: a => .delete x (edits_length_left a)

theorem edits_length_right : ∀ b : Bytes, Edits [] b b.length
  | [] => .nil
  | y :: b => .insert y (edits_length_right b)

/-- So many edits turn a into b. -/
theorem edits_editCost : ∀ a b : Bytes, Edits a b (editCost a b)
  | [], b => by rw [editCost_nil_left]; exact edits_length_right b
  | x :: a, [] => by rw [editCost_nil_right]; exact edits_length_left (x :: a)
  | x :: a, y :: b => by
    have hinsert := (edits_editCost (x :: a) b).insert y
    have hdelete := (edits_editCost a (y :: b)).delete x
    have hkeep : Edits (x :: a) (y :: b) (editCost a b + if x = y then 0 else 1) := by
      split
      · next h => subst h; exact .keep x (edits_editCost a b)
      · exact .substitute x y (edits_editCost a b)
    rw [editCost_cons]
    rcases min_choice (min (editCost (x :: a) b + 1) (editCost a (y :: b) + 1)) (editCost a b + if x = y then 0 else 1) with h | h
    · rw [h]
      rcases min_choice (editCost (x :: a) b + 1) (editCost a (y :: b) + 1) with h' | h' <;> rw [h'] <;> assumption
    · rw [h]; exact hkeep
termination_by a b => a.length + b.length

/-- No fewer do. -/
theorem editCost_le {a b : Bytes} {n : Nat} (h : Edits a b n) : editCost a b ≤ n := by
  induction h with
  | nil => simp
  | keep x _ ih => rw [editCost_cons, if_pos rfl]; omega
  | substitute x y _ ih => rw [editCost_cons]; split <;> omega
  | @insert a b n y _ ih =>
    cases a with
    | nil => simpa using ih
    | cons x a => rw [editCost_cons]; omega
  | @delete a b n x _ ih =>
    cases b with
    | nil => simpa using ih
    | cons y b => rw [editCost_cons]; omega

theorem editCost_le_length (a b : Bytes) : editCost a b ≤ a.length + b.length := by
  induction a with
  | nil => simp
  | cons x a ih =>
    have := editCost_le ((edits_editCost a b).delete x)
    rw [List.length_cons]; omega

/-! ## Edits from the ends -/

theorem edits_append {a b a' b' : Bytes} {n n' : Nat} (h : Edits a b n) (h' : Edits a' b' n') : Edits (a ++ a') (b ++ b') (n + n') := by
  induction h with
  | nil => simpa using h'
  | keep x _ ih => exact .keep x ih
  | substitute x y _ ih => rw [Nat.add_right_comm]; exact .substitute x y ih
  | insert y _ ih => rw [Nat.add_right_comm]; exact .insert y ih
  | delete x _ ih => rw [Nat.add_right_comm]; exact .delete x ih

theorem edits_reverse {a b : Bytes} {n : Nat} (h : Edits a b n) : Edits a.reverse b.reverse n := by
  induction h with
  | nil => exact .nil
  | keep x _ ih => simpa using edits_append ih (.keep x .nil)
  | substitute x y _ ih => simpa using edits_append ih (.substitute x y .nil)
  | insert y _ ih => simpa using edits_append ih (.insert y .nil)
  | delete x _ ih => simpa using edits_append ih (.delete x .nil)

/-! ## The table -/

/-- The table's row of a beginning of the one string against those beginnings of the other that reach into `rest`; p, and q before `rest`,
stand reversed. -/
def editEntries (p : Bytes) : (q rest : Bytes) → List Nat
  | _, [] => []
  | q, y :: rest => editCost p (y :: q) :: editEntries p (y :: q) rest

theorem editRow_editEntries (x : Byte) (p : Bytes) : ∀ q rest : Bytes,
    editRow x (editCost (x :: p) q) (editCost p q) rest (editEntries p q rest) = editEntries (x :: p) q rest
  | _, [] => rfl
  | q, y :: rest => by
    simp only [editEntries, editRow]
    rw [← editCost_cons, editRow_editEntries x p (y :: q) rest]

theorem editEntries_nil : ∀ q rest : Bytes, editEntries [] q rest = (List.range rest.length).map fun j => q.length + j + 1
  | _, [] => rfl
  | q, y :: rest => by
    rw [editEntries, editEntries_nil (y :: q) rest, List.length_cons (as := rest), List.range_succ_eq_map, List.map_cons, List.map_map]
    refine congrArg₂ _ (by simp) (List.map_congr_left fun j _ => ?_)
    simp only [List.length_cons, Function.comp_apply]; omega

/-- The last entry is the distance of the whole of `rest` after q. -/
theorem editEntries_getLastD (p : Bytes) : ∀ q rest : Bytes,
    (editEntries p q rest).getLastD (editCost p q) = editCost p (rest.reverse ++ q)
  | _, [] => rfl
  | q, y :: rest => by
    rw [editEntries, List.getLastD_cons, editEntries_getLastD p (y :: q) rest]
    simp

/-- Over the bytes of a the rows grow from the row of what stands before them. -/
theorem foldl_editRow (b : Bytes) : ∀ a p : Bytes,
    (a.zipIdx p.length).foldl (fun row (x, i) => editRow x (i + 1) i b row) (editEntries p [] b) = editEntries (a.reverse ++ p) [] b
  | [], _ => rfl
  | x :: a, p => by
    have hrow : editRow x (p.length + 1) p.length b (editEntries p [] b) = editEntries (x :: p) [] b := by
      simpa using editRow_editEntries x p [] b
    rw [List.zipIdx_cons, List.foldl_cons]
    simp only [hrow]
    simpa using foldl_editRow b a (x :: p)

theorem editDistance_eq (a b : Bytes) : editDistance a b = editCost a.reverse b.reverse := by
  have hrow : (List.range b.length).map (· + 1) = editEntries [] [] b := by simp [editEntries_nil]
  have hlast := editEntries_getLastD a.reverse [] b
  rw [editCost_nil_right, List.length_reverse, List.append_nil] at hlast
  rw [editDistance, hrow, ← hlast]
  exact congrArg (List.getLastD · a.length) (by simpa using foldl_editRow b a [])

/-- R186: the distance is the least number of edits that turn a into b. -/
theorem editDistance_least (a b : Bytes) : Edits a b (editDistance a b) ∧ ∀ n, Edits a b n → editDistance a b ≤ n := by
  rw [editDistance_eq]
  exact ⟨by simpa using edits_reverse (edits_editCost a.reverse b.reverse), fun n h => editCost_le (edits_reverse h)⟩

theorem editDistance_le_length (a b : Bytes) : editDistance a b ≤ a.length + b.length := by
  simpa [editDistance_eq] using editCost_le_length a.reverse b.reverse

end Sys2Proof.Machine
end

section
/-!
SUPPORT. The norm store (R195 to R197), and what the completion of one instruction changes besides its unit's effect (R207, R211, R219 to
R221, R266): O11.
-/
namespace Sys2Proof.Machine

/-! ## What a completion adds to its unit's effect -/

/-- Nothing changed between s and t but what ends an instruction: strands, tokens, instruction numbers, and the codes on their way. -/
def OnlyEnding (s t : State) : Prop :=
  t = { s with
    rod := { s.rod with instnum := t.rod.instnum }
    col := { s.col with instnum := t.col.instnum }
    str := { s.str with strands := t.str.strands, tok := t.str.tok }
    knl := { s.knl with inflight := t.knl.inflight } }

theorem OnlyEnding.refl (s : State) : OnlyEnding s s := rfl

theorem OnlyEnding.trans {s t u : State} (h : OnlyEnding s t) (h' : OnlyEnding t u) : OnlyEnding s u := by
  rw [OnlyEnding] at h h' ⊢
  rw [h'.trans (by rw [h])]

theorem OnlyEnding.die {s t : State} (h : OnlyEnding s t) : t.die = s.die := by rw [h]

theorem onlyEnding_setStrand (s : State) (n : Nat) (x : Strand) : OnlyEnding s (setStrand s n x) := rfl

theorem onlyEnding_countDone (s : State) (n : Nat) : OnlyEnding s (countDone s n) := by
  rw [countDone]
  split
  · rfl
  · split <;> rfl

/-- A code of the strands' own rules has no EVENT bit. -/
theorem onlyEnding_raise {s : State} (h : s.die ≠ .off) {code : Nat} (hb : eventBit code = none) (hc : ∀ t, countCode t code = t)
    (eff : Effect) (detail : Bytes) : OnlyEnding s (raise s code eff detail) := by
  rw [raise_noEvent h hb hc]
  rfl

theorem onlyEnding_foldl {α : Type} {f : State → α → State} {s : State} (hs : s.die ≠ .off)
    (hf : ∀ t x, t.die ≠ .off → OnlyEnding t (f t x)) (xs : List α) : OnlyEnding s (xs.foldl f s) := by
  induction xs generalizing s with
  | nil => exact .refl s
  | cons x xs ih =>
    have h := hf s x hs
    exact h.trans (ih (by rwa [h.die]))

theorem onlyEnding_applySignals {s : State} (h : s.die ≠ .off) (sigs : List Signal) : OnlyEnding s (applySignals s sigs) := by
  refine onlyEnding_foldl h (fun t k ht => ?_) _
  rw [applyToken]
  split
  · rfl
  · have hstop := onlyEnding_foldl ht (f := fun s g => stopStrand s g.strand) (fun u g _ => onlyEnding_setStrand u _ _)
      (sigs.filter fun g => g.tok == k)
    exact hstop.trans (onlyEnding_raise (by rwa [hstop.die]) rfl (fun _ => rfl) _ _)

theorem onlyEnding_ranPast {s : State} (h : s.die ≠ .off) (n idx : Nat) : OnlyEnding s (ranPast s n idx) := by
  rw [ranPast]
  split
  · exact (onlyEnding_setStrand s n _).trans (onlyEnding_raise (by exact h) rfl (fun _ => rfl) _ _)
  · rfl

/-- Together: the strand's instruction leaves the flight and is counted, its signals arrive, and the code may end. -/
theorem onlyEnding_end {s : State} (h : s.die ≠ .off) (n : Nat) (x : Strand) (sigs : List Signal) (idx : Nat) :
    OnlyEnding s (ranPast (applySignals (countDone (setStrand s n x) n) sigs) n idx) := by
  have hcount := (onlyEnding_setStrand s n x).trans (onlyEnding_countDone (setStrand s n x) n)
  have hsignals := hcount.trans (onlyEnding_applySignals (by rwa [hcount.die]) sigs)
  exact hsignals.trans (onlyEnding_ranPast (by rwa [hsignals.die]) _ _)

theorem canComplete_running {s : State} {n : Nat} (h : canComplete s n = true) : running s = true := by
  simp only [canComplete, Bool.and_eq_true] at h
  exact h.1.1.1.1

/-- What a cluster's instruction other than OPT does as it completes, and then nothing but its ending. -/
theorem runs_rodsComplete {s : State} {c : Fin 16} {w : BitVec 128} (h : Finishing s c w) (hop : wOp w ≠ 0x78)
    (hdie : (rodsComplete s c w).die = s.die) :
    Runs (.instructionComplete [(rodStrand c, true)]) s fun t => OnlyEnding (rodsComplete s c w) t := by
  obtain ⟨hcan, i, more, hin⟩ := h
  have hreleased : (rodsComplete s c w).die ≠ .off := hdie ▸ running_released (canComplete_running hcan)
  have hunit : unitComplete s (rodStrand c) w = rodsComplete s c w := by
    have hframe : ¬18 + c.val = 0 := by omega
    have hedge : ¬18 + c.val = 1 := by omega
    have hfetch : ¬18 + c.val ≤ 17 := by omega
    have hrods : 18 + c.val ≤ 33 := by omega
    simp only [unitComplete, rodStrand, hframe, hedge, hfetch, hrods, hop, if_true, if_false, Nat.add_sub_cancel_left]
  refine ⟨_, congrArg Host.Outcome.next (instructionComplete_one (n := rodStrand c) hcan hin), ?_⟩
  rw [hunit]
  exact onlyEnding_end hreleased ..

/-! ## The norm store -/

/-- The order in which two elements are added does not matter. -/
theorem normAdd_comm (x : NormEntry) (a b : Fv) : normAdd (normAdd x a) b = normAdd (normAdd x b) a := by
  cases ha : a.isFin <;> cases hb : b.isFin <;> simp [normAdd, ha, hb, add_right_comm]

theorem foldl_normAdd_perm {a b : List Fv} (h : a.Perm b) (x : NormEntry) : a.foldl normAdd x = b.foldl normAdd x :=
  h.foldl_eq' (fun _ _ _ _ _ => normAdd_comm _ _ _) x

theorem normEntry_congr {s t : State} (h : t.rod.norm = s.rod.norm) (e : Nat) : normEntry t e = normEntry s e := by
  rw [normEntry, normEntry, h]

/-- The entry e of s made x: it reads so, and the others as before. -/
theorem normEntry_of_setNorm {s t : State} (hs : Canonical s) {e : Nat} {x : NormEntry} (ht : t.rod.norm = (setNorm s e x).rod.norm) :
    normEntry t e = x ∧ ∀ e', e' ≠ e → normEntry t e' = normEntry s e' :=
  ⟨(normEntry_congr ht e).trans (sgetD_ssetD_same hs.norm _ _ _),
    fun e' he' => (normEntry_congr ht e').trans (sgetD_ssetD_other _ _ he' _)⟩

/-- A completed NORM adds its elements to the entry (R196). -/
theorem rodsComplete_norm (s : State) (c : Nat) {v : BitVec 128} (hop : wOp v = 0x70) :
    let k := tyBytes (fFtype v)
    let xs := (List.range (fN v)).map fun j => f32 (tyTo32 (fFtype v) (mnat (lmem s c) (fA v + k * j) k))
    rodsComplete s c v = setNorm s (wFld v 49 37) (xs.foldl normAdd (normEntry s (wFld v 49 37))) := by
  simp only [rodsComplete, hop, normDone, vecRead, List.foldl_map]

/-- An instruction whose effect is to make x of the entry e. -/
theorem runs_setNorm {i : Instr} {s : State} {c : Fin 16} {op e : Nat} {x : NormEntry} {refusal : State → BitVec 128 → Option Nat}
    {eff : State → BitVec 128 → State} (hs : Canonical s) (hexec : exec i s = .next (rodsIssue s c op refusal eff))
    (hb : begun s (18 + c) op = true) (hidle : idle s (18 + c) = true) (hr : refusal s (strand s (18 + c)).word = none)
    (heff : eff s (strand s (18 + c)).word = setNorm s e x) :
    Runs i s fun t => Issued s t (18 + c) ∧ normEntry t e = x ∧ (∀ e', e' ≠ e → normEntry t e' = normEntry s e') ∧
      t.rod.mem = s.rod.mem ∧ t.brd = s.brd ∧ t.mem = s.mem := by
  refine runs_rodsIssue hexec hb hidle hr ?_
  rw [heff]
  obtain ⟨hsame, hother⟩ := normEntry_of_setNorm hs (t := issueStrand (setNorm s e x) (18 + c)) rfl
  exact ⟨issued_issueStrand rfl (by omega), hsame, hother, rfl, rfl, rfl⟩

theorem normBytes_length (x : NormEntry) : (normBytes x).length = 32 := by
  simp [normBytes, natLE_length, zeros]

/-! ## The statement -/

theorem orElse_none {a b : Option Nat} (ha : a = none) (hb : b = none) : orElse a b = none := by rw [ha, hb]; rfl

/-- Settles O11: SORT by its insertion, the strings' instructions by `runs_strings`, EDIT by the table of distances, NORM by what its
completion adds to the entry. -/
theorem rodsSortHashStringsNorms : Obligations.RodsSortHashStringsNorms := by
  refine ⟨?sort, ?hashes, ?pairs, fun x a b h => foldl_normAdd_perm h x, ?norms⟩
  case sort =>
    intro s c hs hb hidle w kt k n recs before hok
    refine runs_imp (runs_sort hs hb hidle hok) ?_
    rintro t ⟨hissued, hrecs, hframe⟩
    obtain ⟨hperm, hsorted, hfilter⟩ := sortedPairs_spec kt (bitOf w.toNat 1) (recs (lmem s c))
    have hrecs' : recs (lmem t c) = sortedPairs kt (bitOf w.toNat 1) (recs (lmem s c)) := hrecs
    rw [hrecs']
    refine ⟨hissued, hperm, hsorted.imp fun hab hbefore => ?_, hfilter, hframe⟩
    rw [sortBefore_iff.mpr hbefore] at hab
    cases hab
  case hashes =>
    intro s c hs hidle w m seed long reports
    have hlong : anyLong m (fN w) [fB w] = long := by simp [anyLong, long]
    refine ⟨fun hb hblock hok => ?hash64, fun hb hblock hok => ?hashstr, ?minhash⟩
    case hash64 =>
      rw [Nat.mul_comm 8 (fN w)]
      refine runs_elementwise rfl hs hb hidle (orElse_none hblock (opersRefusal_none hok))
        (congrArg (setLmem s c) (congrArg _ (vecRead_map ..))) fun j => Nat.mod_eq_of_lt (BitVec.isLt _)
    case hashstr =>
      refine runs_imp (runs_strings (n := fN w) (k := 8) (strs := fN w) (lens := [fB w]) hs rfl hb hidle
        (orElse_none hblock (opersRefusal_none hok)) rfl) ?_
      rintro t ⟨hissued, hreports, hbrd, hmem, hframe, hread⟩
      rw [hlong] at hreports
      exact ⟨hissued, hreports, hbrd, hmem, hframe, fun j hj => (hread j hj).trans (Nat.mod_eq_of_lt (BitVec.isLt _))⟩
    case minhash =>
      intro hb hblock sz q hok
      refine runs_imp (runs_signatures hs rfl hb hidle (orElse_none hblock (opersRefusal_none hok)) rfl) ?_
      rintro t ⟨hissued, hreports, hbrd, hmem, hframe, hread⟩
      rw [hlong] at hreports
      exact ⟨hissued, hreports, hbrd, hmem, hframe, hread⟩
  case pairs =>
    intro s c hs hidle w m at_ a b hok
    refine ⟨fun hb => ?edit, fun hb => runs_pairs hs rfl hb hidle hok⟩
    refine runs_imp (runs_pairs hs rfl hb hidle hok) ?_
    rintro t ⟨hissued, hbrd, hmem, hframe, hread⟩
    refine ⟨hissued, hbrd, hmem, hframe, fun j hj => ?_⟩
    have hle := editDistance_le_length (a j) (b j)
    have ha : (a j).length ≤ 64 := strAt_length_le ..
    have hb : (b j).length ≤ 64 := strAt_length_le ..
    rw [hread j hj, Nat.mod_eq_of_lt (lt_of_le_of_lt hle (by omega))]
    exact editDistance_least (a j) (b j)
  case norms =>
    intro s c hs w e
    refine ⟨fun hidle hb hok => ?norm, fun v hfin hop => ?done, fun hidle hb hok => ?normrd, fun hidle hb => ?normclr⟩
    case norm =>
      exact runs_rodsIssue rfl hb hidle (opersRefusal_none hok) ⟨issued_issueStrand rfl (by omega), rfl⟩
    case done =>
      intro k xs
      have hdone : rodsComplete s c v = setNorm s (wFld v 49 37) (xs.foldl normAdd (normEntry s (wFld v 49 37))) :=
        rodsComplete_norm s c hop
      refine runs_imp (runs_rodsComplete hfin (by rw [hop]; decide) (by rw [hdone]; rfl)) ?_
      rw [hdone]
      intro t ht
      obtain ⟨hsame, hother⟩ := normEntry_of_setNorm hs (t := t) (by rw [ht])
      exact ⟨hsame, hother, by rw [ht]; rfl, by rw [ht]; rfl, by rw [ht]; rfl⟩
    case normrd =>
      have hlen : (normBytes (normEntry s e)).length = 32 := normBytes_length _
      refine runs_rodsIssue rfl hb hidle (opersRefusal_none hok) ⟨issued_issueStrand rfl (by omega),
        localFrame_issue c.isLt fun a ha => mget_mwrite_outside _ _ _ _ (by rwa [hlen]), ?_⟩
      rw [lmem_issue c.isLt, ← hlen]
      exact mread_mwrite _ (hs.locals c) _
    case normclr =>
      exact runs_setNorm hs rfl hb hidle rfl rfl

end Sys2Proof.Machine
end

section
/-!
SUPPORT. Decode, token waits and the signals of one cycle (R71, R218 to R223): O12, O13, O15.
-/
namespace Sys2Proof.Machine

/-! ## Decode -/

theorem canDecode_iff {s : State} {n : Nat} : canDecode s n = true ↔ running s = true ∧ participates s n = true ∧ halted s n = false ∧
    (strand s n).st ≠ 6 ∧ (strand s n).phase = .fetch ∧ (strand s n).index.toNat < codeCount (img s) n := by
  simp only [canDecode, Bool.and_eq_true, Bool.not_eq_true', decide_eq_true_eq, and_assoc]

/-- A word whose enabled counts are zero passes checks 1 to 3 and fails check 4 (R223, Table 7-3). -/
theorem decodeCheck_zeroCount {n : Nat} {w : BitVec 128} (hp : parityEven w = true) (ho : opAssigned n (wOp w) = true)
    (hz : wsZero w = true) (h : wWen w = true ∧ wWcnt w = 0 ∨ wSen w = true ∧ wSinc w = 0) : decodeCheck n w = some 0x0B050205 := by
  have hcounts : countsNonzero w = false := by
    rcases h with ⟨he, hc⟩ | ⟨he, hc⟩ <;> simp [countsNonzero, he, hc]
  simp [decodeCheck, hp, ho, hz, hcounts]

/-- A unit's ISSUE_FAULT leaves the strands, the codes on their way, SYS and the die alone. -/
theorem issueFault_frame (s : State) (n : Nat) : (issueFault s n).str = s.str ∧ (issueFault s n).knl.inflight = s.knl.inflight ∧
    (issueFault s n).sys = s.sys ∧ (issueFault s n).die = s.die := by
  unfold issueFault
  repeat' split
  all_goals exact ⟨rfl, rfl, rfl, rfl⟩

theorem decodeFault_frame (s : State) (n op code : Nat) : (decodeFault s n op code).str = s.str ∧
    (decodeFault s n op code).knl.inflight = s.knl.inflight ∧ (decodeFault s n op code).sys = s.sys ∧
    (decodeFault s n op code).die = s.die := by
  unfold decodeFault
  split
  · exact ⟨rfl, rfl, rfl, rfl⟩
  · exact issueFault_frame s n

/-- A word that fails Table 7-3 stops its strand and raises its code, with the strand and the index (R71, R268). -/
theorem runs_decode_fails {s : State} {n : Fin 43} {code : Nat} (h : canDecode s n = true)
    (hc : decodeCheck n (codeWord (img s) n (strand s n).index.toNat) = some code) :
    Runs (.instructionDecode n) s fun t => t.str = (stopStrand s n).str ∧
      OnItsWay t code .jobEnding (natLE 4 n ++ natLE 4 (strand s n).index.toNat) s.sys.drill := by
  obtain ⟨hrun, -⟩ := canDecode_iff.mp h
  obtain ⟨hstr, -, hsys, hdie⟩ := decodeFault_frame (stopStrand s n) n (wOp (codeWord (img s) n (strand s n).index.toNat)) code
  refine ⟨instructionDecode s n, rfl, ?_⟩
  simp only [instructionDecode, h, if_true, hc, raise_str]
  refine ⟨hstr, ?_⟩
  have hway := raise_onItsWay (hdie ▸ running_released hrun : (decodeFault (stopStrand s n) n _ code).die ≠ .off) code .jobEnding
    (d4 n ++ d4 (strand s n).index.toNat)
  rwa [hsys] at hway

/-- A stopped strand issues nothing. -/
theorem begun_halted {s : State} {n : Nat} (h : halted s n = true) (op : Nat) : begun s n op = false := by
  simp [begun, h]

/-- Settles O12: check 4 is the first of Table 7-3 that such a word fails, and a word that fails stops its strand. -/
theorem zeroCountsAreRefused : Obligations.ZeroCountsAreRefused := by
  intro s n h x w hp ho hz hzero
  obtain ⟨-, -, -, -, hfetch, -⟩ := canDecode_iff.mp h
  refine runs_imp (runs_decode_fails h (decodeCheck_zeroCount hp ho hz hzero)) fun t ⟨hstr, hway⟩ => ?_
  have hstrand : strand t n = { x with st := 8 } :=
    (strand_congr (congrArg Str.strands hstr) n).trans (strand_setStrand_same s n.isLt _)
  have hhalted : halted t n = true := by simp [halted, hstrand]
  refine ⟨hway, hstrand, hhalted, token_congr (by rw [hstr]; rfl), ?_, ?_, begun_halted hhalted _⟩
  · rw [hstrand]; exact hfetch
  · rw [hstrand]

/-! ## Token waits -/

theorem tokenWaitSatisfied_begins {s : State} {n : Nat} (hr : running s = true) (hh : halted s n = false)
    (hp : (strand s n).phase = .waiting) (hc : wWcnt (strand s n).word ≤ token s (wWtok (strand s n).word)) :
    tokenWaitSatisfied s n =
      let w := (strand s n).word
      setStrand (setToken s (wWtok w) (token s (wWtok w) - wWcnt w)) n { strand s n with phase := .begun, st := 1 } := by
  simp [tokenWaitSatisfied, hr, hh, hp, hc]

/-- A word whose token holds less than W_CNT waits on. -/
theorem tokenWaitSatisfied_waits {s : State} {n : Nat} (hc : token s (wWtok (strand s n).word) < wWcnt (strand s n).word) :
    tokenWaitSatisfied s n = s :=
  if_neg fun ⟨_, _, _, hle⟩ => Nat.not_le.mpr hc hle

/-- Settles O13: the token is set and the strand begins in one action, which the condition guards. -/
theorem tokenWait : Obligations.TokenWait := by
  intro s n hs hr hh hp w
  refine ⟨fun hc => ⟨_, congrArg Host.Outcome.next (tokenWaitSatisfied_begins hr hh hp hc), ?_, fun k hk => ?_, ?_, fun m hm => ?_, rfl⟩,
    fun hc => congrArg Host.Outcome.next (tokenWaitSatisfied_waits hc)⟩
  · exact token_setToken_same hs.tokens _ (lt_of_le_of_lt (Nat.sub_le ..) (token_lt ..))
  · exact token_setToken_other s hk _
  · exact strand_setStrand_same _ n.isLt _
  · exact strand_setStrand_other _ hm _

/-! ## The signals of one cycle -/

theorem sigSum_eq (sigs : List Signal) (k : Nat) : sigSum sigs k = ((sigs.filter fun g => g.tok == k).map Signal.inc).sum := by
  rw [sigSum, List.sum_eq_foldl, List.foldl_map]

theorem signalled_eq (s : State) (sigs : List Signal) (k : Nat) : signalled s sigs k = token s k + sigSum sigs k := by
  rw [signalled, sigSum_eq]

theorem mem_sigTokens {sigs : List Signal} {k : Nat} : k ∈ sigTokens sigs ↔ ∃ g ∈ sigs, g.tok = k := by
  simp [sigTokens, List.mem_eraseDups]

theorem nodup_eraseDups : ∀ l : List Nat, l.eraseDups.Nodup
  | [] => by simp
  | a :: l => by
    rw [List.eraseDups_cons, List.nodup_cons]
    exact ⟨by simp [List.mem_eraseDups], nodup_eraseDups (l.filter fun b => !b == a)⟩
  termination_by l => l.length
  decreasing_by exact Nat.lt_succ_of_le (List.length_filter_le ..)

theorem nodup_sigTokens (sigs : List Signal) : (sigTokens sigs).Nodup := nodup_eraseDups _

/-- Stopping strands changes no token. -/
theorem foldl_stopStrand_tok (gs : List Signal) (s : State) : (gs.foldl (fun s g => stopStrand s g.strand) s).str.tok = s.str.tok := by
  induction gs generalizing s with
  | nil => rfl
  | cons g gs ih => exact ih _

theorem applyToken_overflow {s : State} {sigs : List Signal} {k : Nat} (h : 65535 < token s k + sigSum sigs k) :
    applyToken sigs s k = raise ((sigs.filter fun g => g.tok == k).foldl (fun s g => stopStrand s g.strand) s) 0x0B050201 .jobEnding :=
  if_neg (Nat.not_le.mpr h)

theorem applyToken_within {s : State} {sigs : List Signal} {k : Nat} (h : token s k + sigSum sigs k ≤ 65535) :
    applyToken sigs s k = setToken s k (token s k + sigSum sigs k) :=
  if_pos h

/-- One token of the cycle leaves the others alone. -/
theorem token_applyToken_other (s : State) (sigs : List Signal) {j k : Nat} (h : k ≠ j) : token (applyToken sigs s j) k = token s k := by
  by_cases hsum : token s j + sigSum sigs j ≤ 65535
  · rw [applyToken_within hsum, token_setToken_other s h]
  · rw [applyToken_overflow (by omega)]
    exact token_congr ((congrArg Str.tok (raise_str ..)).trans (foldl_stopStrand_tok ..)) k

/-- Its own count takes the sum, where it stays within 65,535, and else stays (R220, R221; log 55). -/
theorem token_applyToken_same {s : State} (hs : srising 0 s.str.tok = true) (sigs : List Signal) (k : Nat) :
    token (applyToken sigs s k) k = if signalled s sigs k ≤ 65535 then signalled s sigs k else token s k := by
  rw [signalled_eq]
  split
  · rename_i hsum; rw [applyToken_within hsum, token_setToken_same hs k (by omega)]
  · rename_i hsum
    rw [applyToken_overflow (by omega)]
    exact token_congr ((congrArg Str.tok (raise_str ..)).trans (foldl_stopStrand_tok ..)) k

theorem srising_applyToken {s : State} (hs : srising 0 s.str.tok = true) (sigs : List Signal) (k : Nat) :
    srising 0 (applyToken sigs s k).str.tok = true := by
  by_cases hsum : token s k + sigSum sigs k ≤ 65535
  · rw [applyToken_within hsum]; exact srising_ssetD hs 0 k _
  · rw [applyToken_overflow (by omega), raise_str, foldl_stopStrand_tok]; exact hs

theorem token_foldl_other (sigs : List Signal) {ks : List Nat} {k : Nat} (h : k ∉ ks) (s : State) :
    token (ks.foldl (applyToken sigs) s) k = token s k := by
  induction ks generalizing s with
  | nil => rfl
  | cons j ks ih =>
    rw [List.mem_cons, not_or] at h
    rw [List.foldl_cons, ih h.2, token_applyToken_other s sigs h.1]

/-- Each token of the cycle is judged once, by itself. -/
theorem token_foldl_mem (sigs : List Signal) {ks : List Nat} (hnodup : ks.Nodup) {k : Nat} (h : k ∈ ks) {s : State}
    (hs : srising 0 s.str.tok = true) :
    token (ks.foldl (applyToken sigs) s) k = if signalled s sigs k ≤ 65535 then signalled s sigs k else token s k := by
  induction ks generalizing s with
  | nil => cases h
  | cons j ks ih =>
    obtain ⟨hj, hks⟩ := List.nodup_cons.mp hnodup
    rw [List.foldl_cons]
    by_cases hkj : k = j
    · subst hkj
      rw [token_foldl_other sigs hj, token_applyToken_same hs]
    · have hother := token_applyToken_other s sigs hkj
      rw [ih hks ((List.mem_cons.mp h).resolve_left hkj) (srising_applyToken hs sigs j), signalled_eq, signalled_eq, hother]

theorem token_applySignals {s : State} (hs : srising 0 s.str.tok = true) (sigs : List Signal) (k : Nat) :
    token (applySignals s sigs) k =
      if sigs.any (fun g => g.tok == k) = true ∧ signalled s sigs k ≤ 65535 then signalled s sigs k else token s k := by
  have hany : sigs.any (fun g => g.tok == k) = true ↔ k ∈ sigTokens sigs := by simp [mem_sigTokens]
  by_cases hk : k ∈ sigTokens sigs
  · simp only [hany, hk, true_and]
    exact token_foldl_mem sigs (nodup_sigTokens sigs) hk hs
  · simp only [hany, hk, false_and, if_false]
    exact token_foldl_other sigs hk s

/-- What applying signals keeps: a stopped strand stays stopped, and a code on its way stays on it. -/
structure SignalsKeep (s t : State) : Prop where
  stopped : ∀ n, (strand s n).st = 8 → (strand t n).st = 8
  onWay   : ∀ r ∈ s.knl.inflight, r ∈ t.knl.inflight
  sys     : t.sys = s.sys
  die     : t.die = s.die

theorem SignalsKeep.refl (s : State) : SignalsKeep s s := ⟨fun _ h => h, fun _ h => h, rfl, rfl⟩

theorem SignalsKeep.trans {s t u : State} (h : SignalsKeep s t) (h' : SignalsKeep t u) : SignalsKeep s u :=
  ⟨fun n hn => h'.stopped n (h.stopped n hn), fun r hr => h'.onWay r (h.onWay r hr), h'.sys.trans h.sys, h'.die.trans h.die⟩

theorem SignalsKeep.released {s t : State} (h : SignalsKeep s t) (hd : s.die ≠ .off) : t.die ≠ .off := h.die ▸ hd

theorem signalsKeep_stopStrand (s : State) (n : Nat) : SignalsKeep s (stopStrand s n) := by
  refine ⟨fun m hm => ?_, fun _ h => h, rfl, rfl⟩
  by_cases hmn : m = n
  · subst hmn
    by_cases hlt : m < 43
    · exact congrArg Strand.st (strand_setStrand_same s hlt _)
    · have hnone : strand s m = {} := by simp [strand, vget, List.getD_eq_getElem?_getD, hlt]
      simp [hnone] at hm
  · exact (congrArg Strand.st (strand_setStrand_other s hmn _)).trans hm

theorem signalsKeep_foldl {α : Type} {f : State → α → State} (hf : ∀ t x, t.die ≠ .off → SignalsKeep t (f t x)) (xs : List α) {s : State}
    (hs : s.die ≠ .off) : SignalsKeep s (xs.foldl f s) := by
  induction xs generalizing s with
  | nil => exact .refl s
  | cons x xs ih => exact (hf s x hs).trans (ih ((hf s x hs).released hs))

theorem signalsKeep_raise {s : State} (h : s.die ≠ .off) : SignalsKeep s (raise s 0x0B050201 .jobEnding) := by
  rw [raise_noEvent h rfl fun _ => rfl]
  exact ⟨fun _ h => h, fun r hr => List.mem_append_left _ hr, rfl, rfl⟩

/-- Every sender of a list is stopped. -/
def stopSenders (s : State) (gs : List Signal) : State := gs.foldl (fun s g => stopStrand s g.strand) s

theorem signalsKeep_stopSenders {s : State} (h : s.die ≠ .off) (gs : List Signal) : SignalsKeep s (stopSenders s gs) :=
  signalsKeep_foldl (fun t g _ => signalsKeep_stopStrand t g.strand) gs h

theorem stopSenders_stops {s : State} (h : s.die ≠ .off) {gs : List Signal} {g : Signal} (hg : g ∈ gs) (hlt : g.strand < 43) :
    (strand (stopSenders s gs) g.strand).st = 8 := by
  obtain ⟨before, after, rfl⟩ := List.append_of_mem hg
  have hbefore := signalsKeep_stopSenders h before
  have hkeep := signalsKeep_stopSenders (s := stopStrand (stopSenders s before) g.strand) (hbefore.released h) after
  rw [stopSenders, List.foldl_append, List.foldl_cons]
  exact hkeep.stopped _ (congrArg Strand.st (strand_setStrand_same _ hlt _))

theorem signalsKeep_applyToken {s : State} (h : s.die ≠ .off) (sigs : List Signal) (k : Nat) : SignalsKeep s (applyToken sigs s k) := by
  by_cases hsum : token s k + sigSum sigs k ≤ 65535
  · rw [applyToken_within hsum]; exact ⟨fun _ h => h, fun _ h => h, rfl, rfl⟩
  · have hstops := signalsKeep_stopSenders h (sigs.filter fun g => g.tok == k)
    rw [applyToken_overflow (by omega)]
    exact hstops.trans (signalsKeep_raise (hstops.released h))

/-- Signals that would overflow their token stop their senders and raise 0x0B05_0201 (R221). -/
theorem applyToken_stops {s : State} (h : s.die ≠ .off) {sigs : List Signal} {k : Nat} (hsum : 65535 < signalled s sigs k) :
    OnItsWay (applyToken sigs s k) 0x0B050201 .jobEnding [] s.sys.drill ∧
      ∀ g ∈ sigs, g.tok = k → g.strand < 43 → (strand (applyToken sigs s k) g.strand).st = 8 := by
  have hstops := signalsKeep_stopSenders h (sigs.filter fun g => g.tok == k)
  rw [signalled_eq] at hsum
  rw [applyToken_overflow hsum]
  refine ⟨?_, fun g hg hk hlt => ?_⟩
  · rw [← hstops.sys]
    exact raise_onItsWay (hstops.released h) ..
  · have hmem : g ∈ sigs.filter fun g => g.tok == k := List.mem_filter.mpr ⟨hg, by simpa using hk⟩
    exact (signalsKeep_raise (hstops.released h)).stopped _ (stopSenders_stops h hmem hlt)

/-- Settles O15: each token of the cycle is judged once, and what an overflow stops and raises stays stopped and raised. -/
theorem tokenSignals : Obligations.TokenSignals := by
  refine ⟨fun s sigs k hs => token_applySignals hs.tokens sigs k, fun s sigs k hd hk hsum => ?_⟩
  obtain ⟨before, after, hsplit⟩ := List.append_of_mem (mem_sigTokens.mpr hk)
  have hnot : k ∉ before := by
    have hnodup := nodup_sigTokens sigs
    rw [hsplit, List.nodup_append] at hnodup
    obtain ⟨-, -, hapart⟩ := hnodup
    exact fun hb => hapart k hb k (by simp) rfl
  have happly := fun (t : State) j (ht : t.die ≠ .off) => signalsKeep_applyToken ht sigs j
  have hbefore := signalsKeep_foldl happly before hd
  have hsum' : 65535 < signalled (before.foldl (applyToken sigs) s) sigs k := by
    rwa [signalled_eq, token_foldl_other sigs hnot, ← signalled_eq]
  obtain ⟨hway, hstop⟩ := applyToken_stops (hbefore.released hd) hsum'
  have hafter := signalsKeep_foldl happly after ((happly _ k (hbefore.released hd)).released (hbefore.released hd))
  rw [applySignals, hsplit, List.foldl_append, List.foldl_cons]
  exact ⟨hafter.onWay _ (hbefore.sys ▸ hway), fun g hg hgk hlt => hafter.stopped _ (hstop g hg hgk hlt)⟩

end Sys2Proof.Machine
end

section
/-!
SUPPORT. The completion of one instruction (R62, R77, R88, R93 to R95, R106, R129, R200, R207, R211, R219 to R221, R226, R304, R445; logs 43, 48
and 81): O16.
-/
namespace Sys2Proof.Machine

/-! ## What a unit's effect keeps -/

/-- What the effect of a completing instruction leaves to the strands: they, their tokens and their program, the clusters' instruction
numbers, SYS and the die are as before. -/
structure UnitKeeps (s u : State) : Prop where
  strands : u.str.strands = s.str.strands
  tok     : u.str.tok = s.str.tok
  image   : u.str.image = s.str.image
  instnum : u.rod.instnum = s.rod.instnum
  sys     : u.sys = s.sys
  die     : u.die = s.die

theorem UnitKeeps.refl (s : State) : UnitKeeps s s := ⟨rfl, rfl, rfl, rfl, rfl, rfl⟩

theorem UnitKeeps.trans {s t u : State} (h : UnitKeeps s t) (h' : UnitKeeps t u) : UnitKeeps s u :=
  ⟨h'.strands.trans h.strands, h'.tok.trans h.tok, h'.image.trans h.image, h'.instnum.trans h.instnum, h'.sys.trans h.sys,
    h'.die.trans h.die⟩

theorem UnitKeeps.released {s t : State} (h : UnitKeeps s t) (hd : s.die ≠ .off) : t.die ≠ .off := h.die ▸ hd

theorem UnitKeeps.strand {s t : State} (h : UnitKeeps s t) (n : Nat) : Machine.strand t n = Machine.strand s n := strand_congr h.strands n

theorem UnitKeeps.img {s t : State} (h : UnitKeeps s t) : Machine.img t = Machine.img s := by unfold Machine.img; rw [h.image]

theorem unitKeeps_foldl {α : Type} {f : State → α → State} (hf : ∀ s x, UnitKeeps s (f s x)) (xs : List α) (s : State) :
    UnitKeeps s (xs.foldl f s) := by
  induction xs generalizing s with
  | nil => exact .refl s
  | cons x xs ih => exact (hf s x).trans (ih _)

/-- Saving a page that a write covers changes the generation under way and the reserve's peak (R481). -/
theorem protectPage_eq (s : State) (a : Nat) :
    ∃ g p, protectPage s a = { s with snp := { s.snp with gen := g, peak := p } } := by
  unfold protectPage
  repeat' split
  all_goals exact ⟨_, _, rfl⟩

theorem protect_eq (s : State) (a len : Nat) : ∃ g p, protect s a len = { s with snp := { s.snp with gen := g, peak := p } } := by
  unfold protect
  split
  · exact ⟨_, _, rfl⟩
  · generalize List.range _ = l
    induction l generalizing s with
    | nil => exact ⟨_, _, rfl⟩
    | cons i l ih =>
      obtain ⟨g, p, hpage⟩ := protectPage_eq s ((a / pageBytes + i) * pageBytes)
      obtain ⟨g', p', hrest⟩ := ih (protectPage s ((a / pageBytes + i) * pageBytes))
      exact ⟨g', p', by rw [List.foldl_cons, hrest, hpage]⟩

/-- A write of HBM changes HBM, its check values, and what saving its pages does. -/
theorem hbmWrite_eq (s : State) (a : Nat) (b : Bytes) :
    ∃ g p, hbmWrite s a b = { s with mem := (jobWrite s a b).mem, snp := { s.snp with gen := g, peak := p } } := by
  obtain ⟨g, p, h⟩ := protect_eq s a b.length
  exact ⟨g, p, by rw [hbmWrite, h]; rfl⟩

theorem unitKeeps_locWrite (s : State) (l : Nat) (b : Bytes) : UnitKeeps s (locWrite s l b) := by
  unfold locWrite
  split
  · exact ⟨rfl, rfl, rfl, rfl, rfl, rfl⟩
  · obtain ⟨g, p, h⟩ := hbmWrite_eq s (locAddr l) b
    rw [h]
    exact ⟨rfl, rfl, rfl, rfl, rfl, rfl⟩

theorem unitKeeps_indexCheck {s : State} (h : s.die ≠ .off) (idx : List Nat) (len : Nat) : UnitKeeps s (indexCheck s idx len) := by
  unfold indexCheck
  split
  · rw [raise_released h (u := .rod) (b := 0) rfl fun _ => rfl]
    exact ⟨rfl, rfl, rfl, rfl, rfl, rfl⟩
  · exact .refl s

theorem unitKeeps_loadDone (s : State) (c : Nat) (w : BitVec 128) : UnitKeeps s (loadDone s c w) := by
  unfold loadDone
  split <;> exact ⟨rfl, rfl, rfl, rfl, rfl, rfl⟩

theorem unitKeeps_gatherDone {s : State} (h : s.die ≠ .off) (c : Nat) (w : BitVec 128) : UnitKeeps s (gatherDone s c w) := by
  have hwrite : ∀ m, UnitKeeps s (setLmem s c m) := fun _ => ⟨rfl, rfl, rfl, rfl, rfl, rfl⟩
  exact (hwrite _).trans (unitKeeps_indexCheck ((hwrite _).released h) _ _)

theorem unitKeeps_boardWriteIf (p : Prop) [Decidable p] (s : State) (a : Nat) (b : Bytes) :
    UnitKeeps s (if p then boardWrite s a b else s) := by
  split
  · exact ⟨rfl, rfl, rfl, rfl, rfl, rfl⟩
  · exact .refl s

theorem unitKeeps_scatterDone {s : State} (h : s.die ≠ .off) (c : Nat) (w : BitVec 128) (f : Nat → Nat → Nat) :
    UnitKeeps s (scatterDone s c w f) := by
  simp only [scatterDone]
  generalize region (lmem s c) w = r
  generalize List.zip _ _ = places
  have hout := unitKeeps_foldl (fun (t : State) (p : Nat × Nat) => unitKeeps_boardWriteIf (p.1 < r.len) t
    (r.base + tyBytes r.ty * p.1) (natLE (tyBytes r.ty) (f (mnat t.brd.mem (r.base + tyBytes r.ty * p.1) (tyBytes r.ty)) p.2))) places s
  exact hout.trans (unitKeeps_indexCheck (hout.released h) _ _)

theorem unitKeeps_tposeDone (s : State) (c : Nat) (w : BitVec 128) : UnitKeeps s (tposeDone s c w) := by
  have hreq : ∀ t, UnitKeeps t (setTposeReq t c false) := fun _ => ⟨rfl, rfl, rfl, rfl, rfl, rfl⟩
  have hrows : ∀ (l : Nat → Nat) (b : Nat → Bytes) (n : Nat),
      UnitKeeps s ((List.range n).foldl (fun s i => locWrite s (l i) (b i)) s) :=
    fun _ _ _ => unitKeeps_foldl (fun _ _ => unitKeeps_locWrite ..) _ _
  simp only [tposeDone]
  refine UnitKeeps.trans ?_ (hreq _)
  split
  · exact hrows ..
  · exact (hrows ..).trans (unitKeeps_locWrite ..)

/-- The effect of a cluster's completing instruction. -/
theorem unitKeeps_rodsComplete {s : State} (h : s.die ≠ .off) (c : Nat) (w : BitVec 128) : UnitKeeps s (rodsComplete s c w) := by
  unfold rodsComplete
  split
  · exact unitKeeps_loadDone ..
  · exact unitKeeps_locWrite ..
  · exact unitKeeps_gatherDone h ..
  · exact unitKeeps_scatterDone h ..
  · exact unitKeeps_scatterDone h ..
  · exact unitKeeps_tposeDone ..
  · exact ⟨rfl, rfl, rfl, rfl, rfl, rfl⟩
  · exact .refl s

/-! ## What ends an instruction -/

theorem countDone_rods (s : State) (c : Fin 16) : countDone s (18 + c) =
    { s with rod := { s.rod with instnum := vset s.rod.instnum c (vget s.rod.instnum c 0 + 1) } } := by
  rw [countDone, if_pos (by omega), Nat.add_sub_cancel_left]

theorem countDone_str (s : State) (n : Nat) : (countDone s n).str = s.str := by
  unfold countDone
  repeat' split
  all_goals rfl

theorem ranPast_inside {s : State} {n i : Nat} (h : i + 1 ≠ codeCount (img s) n) : ranPast s n i = s := if_neg h

/-- The signal of one word, where its token does not overflow, changes the tokens alone, by what they hold (R219, R220). -/
theorem applySignals_word {s v : State} (hv : v.str.tok = s.str.tok) {n : Nat} {w : BitVec 128}
    (h : ∀ g ∈ wordSignal n w, token s g.tok + g.inc ≤ 65535) : applySignals v (wordSignal n w) =
      { v with str := { v.str with tok := (applySignals s (wordSignal n w)).str.tok } } := by
  have hsum : ∀ g : Signal, sigSum [g] g.tok = g.inc := fun g => by simp [sigSum]
  unfold wordSignal at h ⊢
  split
  · rename_i hsen
    have hone : ∀ u : State, u.str.tok = s.str.tok → applySignals u [⟨n, wStok w, wSinc w⟩] =
        setToken u (wStok w) (token s (wStok w) + wSinc w) := fun u hu => by
      have hle := h ⟨n, wStok w, wSinc w⟩ (by simp [hsen])
      have hstep : applySignals u [⟨n, wStok w, wSinc w⟩] = applyToken [⟨n, wStok w, wSinc w⟩] u (wStok w) := by
        simp [applySignals, sigTokens, List.eraseDups_cons]
      rw [hstep, applyToken_within (by rw [token_congr hu, hsum ⟨n, wStok w, wSinc w⟩]; exact hle), token_congr hu,
        hsum ⟨n, wStok w, wSinc w⟩]
    rw [hone v hv, hone s rfl, setToken, hv]
    rfl
  · show v = _
    rw [show (applySignals s []).str.tok = v.str.tok from hv.symm]

/-- The state in which strand n's oldest instruction has had its effect u and has left those in flight. -/
def leftFlight (u : State) (n : Nat) (more : List (Nat × BitVec 128)) : State :=
  countDone (setStrand u n { strand u n with inflight := more }) n

theorem leftFlight_str (u : State) (n : Nat) (more : List (Nat × BitVec 128)) :
    (leftFlight u n more).str = (setStrand u n { strand u n with inflight := more }).str := countDone_str ..

theorem img_leftFlight {s u : State} (hu : UnitKeeps s u) (n : Nat) (more : List (Nat × BitVec 128)) :
    img (leftFlight u n more) = img s := by
  rw [← hu.img, img, leftFlight_str]
  rfl

/-- Of the strands, a completion changes its own, which loses its oldest instruction in flight. -/
theorem strand_leftFlight {s u t : State} (hu : UnitKeeps s u) {n : Nat} (hn : n < 43) {more : List (Nat × BitVec 128)}
    (ht : t.str.strands = (leftFlight u n more).str.strands) :
    strand t n = { strand s n with inflight := more } ∧ ∀ m, m ≠ n → strand t m = strand s m := by
  rw [leftFlight_str] at ht
  refine ⟨?_, fun m hm => ?_⟩
  · rw [strand_congr ht, strand_setStrand_same u hn, hu.strand]
  · rw [strand_congr ht, strand_setStrand_other u hm, hu.strand]

/-- An instruction that may not complete changes nothing. -/
theorem instructionComplete_refused {s : State} {n : Fin 43} (h : canComplete s n = false) (ok : Bool) :
    instructionComplete s [(n, ok)] = s := by
  have hunits : completeUnits s [] [(n, ok)] = (s, []) := by
    unfold completeUnits
    split <;> simp [h, completeUnits]
  simp [instructionComplete, hunits, applySignals, sigTokens]

section
variable {s : State} {n : Fin 43} {i : Nat} {w : BitVec 128} {more : List (Nat × BitVec 128)}
  (hcan : canComplete s n = true) (hin : (strand s n).inflight = (i, w) :: more) (hu : UnitKeeps s (unitComplete s n w))
  (hlast : i + 1 ≠ codeCount (img s) n)
include hcan hin hu hlast

/-- The completion of an instruction that is not its strand's last, its signal arriving within 65,535. -/
theorem instructionComplete_signals (hsig : ∀ g ∈ wordSignal n w, token s g.tok + g.inc ≤ 65535) :
    let v := leftFlight (unitComplete s n w) n more
    instructionComplete s [(n, true)] = { v with str := { v.str with tok := (applySignals s (wordSignal n w)).str.tok } } := by
  have htok : (leftFlight (unitComplete s n w) n more).str.tok = s.str.tok := by rw [leftFlight_str]; exact hu.tok
  have hdone := instructionComplete_one hcan hin
  simp only at hdone
  rw [hdone, ← leftFlight, applySignals_word htok hsig, ranPast_inside]
  have himg := img_leftFlight hu n more
  unfold img at himg ⊢
  rw [himg]
  exact hlast

/-- The completion of one whose signal's parity fails: the signal is not applied, and raises 0x0401_0001 (R445). -/
theorem instructionComplete_oddSignal :
    let v := leftFlight (unitComplete s n w) n more
    instructionComplete s [(n, false)] = if wSen w = true then raise v 0x04010001 .jobEnding else v := by
  have hpast : ranPast (leftFlight (unitComplete s n w) n more) n i = leftFlight (unitComplete s n w) n more :=
    ranPast_inside (by rw [img_leftFlight hu]; exact hlast)
  unfold leftFlight at hpast ⊢
  have hnone : ∀ t, applySignals t [] = t := fun t => by simp [applySignals, sigTokens]
  cases hsen : wSen w <;>
    simp [instructionComplete, completeUnits, hin, hcan, hnone, hpast, hsen]

end

/-! ## The clusters -/

theorem unitComplete_rods {w : BitVec 128} (hop : wOp w ≠ 0x78) (s : State) (c : Fin 16) :
    unitComplete s (rodStrand c) w = rodsComplete s c w := by
  have hframe : ¬18 + c.val = 0 := by omega
  have hedge : ¬18 + c.val = 1 := by omega
  have hfetch : ¬18 + c.val ≤ 17 := by omega
  have hrods : 18 + c.val ≤ 33 := by omega
  simp only [unitComplete, rodStrand, hframe, hedge, hfetch, hrods, hop, if_true, if_false, Nat.add_sub_cancel_left]

/-- What the completion of a cluster's instruction leaves, its signal apart: u being the effect. -/
theorem leftFlight_rods (u : State) (c : Fin 16) (more : List (Nat × BitVec 128)) :
    leftFlight u (rodStrand c) more = { setStrand u (18 + c) { strand u (18 + c) with inflight := more } with
      rod := { u.rod with instnum := vset u.rod.instnum c (vget u.rod.instnum c 0 + 1) } } :=
  countDone_rods _ c

/-! ## The Frame and the Edge -/

theorem opRecord_length (op : FrameOp) : (opRecord op).length = 64 := by
  simp [opRecord, natLE_length]

/-- The Frame's oldest operation as it completes: its record on the Board, its registers, and the gating of strips. -/
theorem frameComplete_head {s : State} {op : FrameOp} {rest : List FrameOp} (h : s.frm.ops = op :: rest) :
    ∃ (strips : BitVec 16) (last : FrmLast) (b : Brd), frameComplete s = { setStrips s strips with
        frm := { s.frm with ops := rest, opnum := op.num, last := last, replay := false, rotated := false }
        brd := b } ∧
      last.cycles = BitVec.ofNat 64 (opCycles op) ∧ last.stepbacks = BitVec.ofNat 32 (min op.stepbacks 0xFFFFFFFF) ∧
      (wFld op.word 57 36 * 64 = 0 → b = s.brd) ∧
      (wFld op.word 57 36 * 64 ≠ 0 → b = (boardWrite s (wFld op.word 57 36 * 64) (opRecord op)).brd) := by
  unfold frameComplete
  rw [h]
  by_cases hr : wFld op.word 57 36 * 64 = 0
  · simp only [if_pos hr]
    generalize stripsOn _ &&& _ = strips
    exact ⟨strips, _, s.brd, rfl, rfl, rfl, fun _ => rfl, fun h0 => absurd hr h0⟩
  · obtain ⟨b, hb⟩ : ∃ b, boardWrite s (wFld op.word 57 36 * 64) (opRecord op) = { s with brd := b } := ⟨_, rfl⟩
    simp only [if_neg hr, hb]
    generalize stripsOn _ &&& _ = strips
    exact ⟨strips, _, b, rfl, rfl, rfl, fun h0 => absurd h0 hr, fun _ => rfl⟩

/-- The record that an operation leaves on the Board, and the bytes beside it. -/
theorem boardWrite_opRecord {s : State} (hs : Canonical s) (r : Nat) (op : FrameOp) :
    mread (boardWrite s r (opRecord op)).brd.mem r 64 = opRecord op ∧
      ∀ a, a < r ∨ r + 64 ≤ a → mget (boardWrite s r (opRecord op)).brd.mem a = mget s.brd.mem a := by
  have hlen := opRecord_length op
  generalize opRecord op = record at hlen
  exact ⟨hlen ▸ mread_mwrite record hs.board r, fun a ha => mget_mwrite_outside _ _ _ _ (by rwa [hlen])⟩

theorem canComplete_frame {s : State} {op : FrameOp} {rest : List FrameOp} {i : Nat} {w : BitVec 128} {more : List (Nat × BitVec 128)}
    (hin : (strand s 0).inflight = (i, w) :: more) (hr : running s = true) (hdead : (strand s 0).dead = false)
    (hcredit : creditHeld s 0 = false) (hops : s.frm.ops = op :: rest) (hst : streamed op = true) (hland : op.landing = [])
    (hop : op.dead = false) : canComplete s 0 = true := by
  simp [canComplete, idle, hin, hr, hdead, hcredit, frameCanComplete, hops, hst, hland, hop]

theorem canComplete_edge {s : State} {op : EdgeOp} {rest : List EdgeOp} {i : Nat} {w : BitVec 128} {more : List (Nat × BitVec 128)}
    (hin : (strand s 1).inflight = (i, w) :: more) (hr : running s = true) (hdead : (strand s 1).dead = false)
    (hcredit : creditHeld s 1 = false) (hops : s.edg.ops = op :: rest) (hphase : op.phase = .tail) (hop : op.dead = false)
    (hprod : op.prod.isSome = true) : canComplete s 1 = true := by
  simp [canComplete, idle, hin, hr, hdead, hcredit, edgeCanComplete, hops, hphase, hop, hprod]

/-- The Edge's oldest instruction as it completes: its number, and its segment produced. -/
theorem edgeComplete_head {s : State} {op : EdgeOp} {rest : List EdgeOp} {data aux : Nat} (h : s.edg.ops = op :: rest)
    (hprod : op.prod = some (data, aux)) :
    edgeComplete s = produce { s with edg := { s.edg with ops := rest, instnum := op.num } } (edgeRing op) ⟨1, data, aux⟩ := by
  simp only [edgeComplete, h, hprod]

/-- A cluster's instruction: its effect, its number, and its signal where the signal's parity holds. -/
theorem completes_rods (s : State) (c : Fin 16) (i : Nat) (w : BitVec 128) (more : List (Nat × BitVec 128)) :
    let x := strand s (18 + c)
    let u := rodsComplete s c w
    x.inflight = (i, w) :: more → wOp w ≠ 0x78 → i + 1 ≠ codeCount (img s) (18 + c) → canComplete s (18 + c) = true →
    (∀ g ∈ wordSignal (18 + c) w, token s g.tok + g.inc ≤ 65535) →
    ∀ ok, Runs (.instructionComplete [(rodStrand c, ok)]) s fun t =>
      strand t (18 + c) = { x with inflight := more } ∧ (∀ m, m ≠ 18 + c.val → strand t m = strand s m) ∧
      vget t.rod.instnum c 0 = vget s.rod.instnum c 0 + 1 ∧ t.rod.mem = u.rod.mem ∧ t.mem = u.mem ∧ t.brd = u.brd ∧
      (ok = true → t.str.tok = (applySignals s (wordSignal (18 + c) w)).str.tok ∧ t.knl = u.knl) ∧
      (ok = false → t.str.tok = s.str.tok ∧ (wSen w = false → t.knl = u.knl) ∧
        (wSen w = true → OnItsWay t 0x04010001 .jobEnding [] s.sys.drill)) := by
  intro x u hin hop hlast h hsig ok
  have hreleased := running_released (canComplete_running h)
  have hunit : unitComplete s (rodStrand c) w = u := unitComplete_rods hop s c
  have hu : UnitKeeps s u := unitKeeps_rodsComplete hreleased c w
  have hcount : vget (vset u.rod.instnum c (vget u.rod.instnum c 0 + 1)) c 0 = vget s.rod.instnum c 0 + 1 := by
    rw [vget_vset_same _ c.isLt, hu.instnum]
  cases ok with
  | true =>
    have hdone := instructionComplete_signals (n := rodStrand c) h hin (by rw [hunit]; exact hu) hlast hsig
    rw [hunit, leftFlight_rods] at hdone
    refine ⟨_, congrArg Host.Outcome.next hdone, ?_⟩
    obtain ⟨hsame, hother⟩ := strand_leftFlight (t := instructionComplete s [(rodStrand c, true)]) hu (n := 18 + c) (by omega)
      (more := more) (by rw [hdone, leftFlight_str])
    rw [hdone] at hsame hother
    exact ⟨hsame, hother, hcount, rfl, rfl, rfl, fun _ => ⟨rfl, rfl⟩, fun h => by cases h⟩
  | false =>
    have hdone := instructionComplete_oddSignal (n := rodStrand c) h hin (by rw [hunit]; exact hu) hlast
    rw [hunit] at hdone
    have hstrands : ∀ t : State, t.str = (leftFlight u (rodStrand c) more).str → strand t (18 + c) = { x with inflight := more } ∧
        ∀ m, m ≠ 18 + c.val → strand t m = strand s m := fun t ht =>
      strand_leftFlight hu (by omega) (congrArg Str.strands ht)
    obtain ⟨hsame, hother⟩ := hstrands _ rfl
    cases hsen : wSen w with
    | false =>
      simp only [hsen, Bool.false_eq_true, if_false] at hdone
      rw [leftFlight_rods] at hdone hsame hother
      refine ⟨_, congrArg Host.Outcome.next hdone, ?_⟩
      exact ⟨hsame, hother, hcount, rfl, rfl, rfl, nofun, fun _ => ⟨hu.tok, fun _ => rfl, nofun⟩⟩
    | true =>
      have hd : (leftFlight u (rodStrand c) more).die ≠ .off := by rw [leftFlight_rods]; exact hu.released hreleased
      simp only [hsen, if_true, raise_onlyKnl hd (code := 0x04010001) (b := 4) rfl fun _ => rfl] at hdone
      rw [leftFlight_rods] at hdone hsame hother
      refine ⟨_, congrArg Host.Outcome.next hdone, ?_⟩
      refine ⟨hsame, hother, hcount, rfl, rfl, rfl, nofun, fun _ => ⟨hu.tok, nofun, fun _ => ?_⟩⟩
      rw [← hu.sys]
      exact List.mem_append_right _ (List.mem_singleton.mpr rfl)

/-- The Frame's oldest operation: its registers, and its record on the Board. -/
theorem completes_frame {s : State} {op : FrameOp} {rest : List FrameOp} {i : Nat} {w : BitVec 128} {more : List (Nat × BitVec 128)}
    (hs : Canonical s) (hin : (strand s 0).inflight = (i, w) :: more) (hcan : canComplete s 0 = true)
    (hlast : i + 1 ≠ codeCount (img s) 0) (hops : s.frm.ops = op :: rest)
    (hsig : ∀ g ∈ wordSignal 0 w, token s g.tok + g.inc ≤ 65535) :
    let r := wFld op.word 57 36 * 64
    Runs (.instructionComplete [(0, true)]) s fun t => t.frm.ops = rest ∧ t.frm.opnum = op.num ∧
      t.frm.last.cycles = BitVec.ofNat 64 (opCycles op) ∧ t.frm.last.stepbacks = BitVec.ofNat 32 (min op.stepbacks 0xFFFFFFFF) ∧
      t.frm.slots = s.frm.slots ∧ strand t 0 = { strand s 0 with inflight := more } ∧
      t.str.tok = (applySignals s (wordSignal 0 w)).str.tok ∧ t.mem = s.mem ∧ t.rod = s.rod ∧
      (r = 0 → t.brd = s.brd) ∧ (r ≠ 0 → mread t.brd.mem r 64 = opRecord op ∧
        ∀ a, a < r ∨ r + 64 ≤ a → mget t.brd.mem a = mget s.brd.mem a) := by
  intro r
  obtain ⟨strips, last, b, hframe, hcycles, hstepbacks, hnone, hrecord⟩ := frameComplete_head hops
  have hdone := instructionComplete_signals (n := 0) hcan hin (hu := by
    rw [show unitComplete s (0 : Fin 43) w = frameComplete s from rfl, hframe]; exact ⟨rfl, rfl, rfl, rfl, rfl, rfl⟩) hlast hsig
  rw [show unitComplete s (0 : Fin 43) w = frameComplete s from rfl, hframe] at hdone
  refine ⟨_, congrArg Host.Outcome.next hdone, rfl, rfl, hcycles, hstepbacks, rfl, strand_setStrand_same _ (by decide) _, rfl, rfl, rfl,
    hnone, fun h0 => ?_⟩
  have hbrd : (leftFlight { setStrips s strips with
      frm := { s.frm with ops := rest, opnum := op.num, last := last, replay := false, rotated := false }
      brd := b } 0 more).brd = (boardWrite s r (opRecord op)).brd := hrecord h0
  obtain ⟨hread, hbeside⟩ := boardWrite_opRecord hs r op
  rw [← hbrd] at hread hbeside
  exact ⟨hread, hbeside⟩

/-- The Edge's oldest instruction: its number, and the segment of its ring. -/
theorem completes_edge {s : State} {op : EdgeOp} {rest : List EdgeOp} {data aux i : Nat} {w : BitVec 128} {more : List (Nat × BitVec 128)}
    (hin : (strand s 1).inflight = (i, w) :: more) (hcan : canComplete s 1 = true) (hlast : i + 1 ≠ codeCount (img s) 1)
    (hops : s.edg.ops = op :: rest) (hprod : op.prod = some (data, aux))
    (hsig : ∀ g ∈ wordSignal 1 w, token s g.tok + g.inc ≤ 65535) :
    let r := if op.sweep then sdRing op.desc else ddRing op.desc
    Runs (.instructionComplete [(1, true)]) s fun t => t.edg = { s.edg with ops := rest, instnum := op.num } ∧
      (r < 64 → ring t r = { ring s r with p := (ring s r).p + 1, segs := (ring s r).segs ++ [⟨1, data, aux⟩] }) ∧
      (∀ q, q ≠ r → ring t q = ring s q) ∧ strand t 1 = { strand s 1 with inflight := more } ∧
      t.mem = s.mem ∧ t.brd = s.brd ∧ t.rod = s.rod ∧ t.frm = s.frm := by
  intro r
  have hedge := edgeComplete_head hops hprod
  have hdone := instructionComplete_signals (n := 1) hcan hin (hu := by
    rw [show unitComplete s (1 : Fin 43) w = edgeComplete s from rfl, hedge]; exact ⟨rfl, rfl, rfl, rfl, rfl, rfl⟩) hlast hsig
  rw [show unitComplete s (1 : Fin 43) w = edgeComplete s from rfl, hedge] at hdone
  refine ⟨_, congrArg Host.Outcome.next hdone, rfl, fun hlt => ?_, fun q hq => ?_, strand_setStrand_same _ (by decide) _, rfl, rfl, rfl, rfl⟩
  · exact ring_setRing_same _ hlt _
  · exact vget_vset_other _ hq _ _

/-- Settles O16: each unit's effect keeps the strands, and a completion ends with what `instructionComplete_signals` says. -/
theorem completions : Obligations.Completions := by
  refine ⟨?rods, ?frame, ?edge⟩
  case rods =>
    intro s c i w more x u hin hop hlast
    exact ⟨fun h ok => congrArg Host.Outcome.next (instructionComplete_refused (n := rodStrand c) h ok),
      fun h hsig => completes_rods s c i w more hin hop hlast h hsig⟩
  case frame =>
    intro s op rest i w more hs hin hr hdead hcredit hlast hops hst hland hop hsig
    exact completes_frame hs hin (canComplete_frame hin hr hdead hcredit hops hst hland hop) hlast hops hsig
  case edge =>
    intro s op rest data aux i w more hin hr hdead hcredit hlast hops hphase hop hprod hsig
    exact completes_edge hin (canComplete_edge hin hr hdead hcredit hops hphase hop (by rw [hprod]; rfl)) hlast hops hprod hsig

end Sys2Proof.Machine
end

section
/-!
SUPPORT. MATMUL's issue, the seating of a chunk and the beginning of a row group (R56, R63, R69, R82, R85, R87, R210, R226, R275, R587;
logs 15 and 108): O18.
-/
namespace Sys2Proof.Machine

/-! ## The refusals of a MATMUL -/

/-- What a code leaves to the Frame: its operations, its EVENT bits, the Board's bytes and HBM's. -/
structure FrameKeeps (s t : State) : Prop where
  ops   : t.frm.ops = s.frm.ops
  event : ∀ b, s.frm.event.getLsbD b = true → t.frm.event.getLsbD b = true
  board : t.brd.mem = s.brd.mem
  hbm   : t.mem.hbm = s.mem.hbm
  die   : t.die = s.die
  sys   : t.sys = s.sys

theorem FrameKeeps.trans {s t u : State} (h : FrameKeeps s t) (h' : FrameKeeps t u) : FrameKeeps s u :=
  ⟨h'.ops.trans h.ops, fun b hb => h'.event b (h.event b hb), h'.board.trans h.board, h'.hbm.trans h.hbm, h'.die.trans h.die,
    h'.sys.trans h.sys⟩

theorem frameKeeps_setEvent (s : State) (u : EvUnit) (b : Nat) : FrameKeeps s (setEvent s u b) := by
  cases u
  case frm =>
    refine ⟨rfl, fun k hk => ?_, rfl, rfl, rfl, rfl⟩
    show (orBit s.frm.event b).getLsbD k = true
    rw [orBit, BitVec.getLsbD_or, hk, Bool.true_or]
  all_goals exact ⟨rfl, fun _ hk => hk, rfl, rfl, rfl, rfl⟩

theorem frameKeeps_countCode (s : State) (code : Nat) : FrameKeeps s (countCode s code) := by
  unfold countCode
  split <;> exact ⟨rfl, fun _ h => h, rfl, rfl, rfl, rfl⟩

/-- What an EVENT bit, a counter and a code on its way all keep, raising a code keeps while the compute die is released. -/
theorem raise_keeps {R : State → State → Prop} (htrans : ∀ s t u, R s t → R t u → R s u) (hdie : ∀ s t, R s t → t.die = s.die)
    (hevent : ∀ s u b, R s (setEvent s u b)) (hcount : ∀ s code, R s (countCode s code))
    (hway : ∀ (s : State) l, R s { s with knl := { s.knl with inflight := l } }) {s : State} (h : s.die ≠ .off) (code : Nat) (eff : Effect)
    (detail : Bytes) : R s (raise s code eff detail) := by
  have hcode : ∀ u : State, u.die ≠ .off → R u (if (countCode u code).die = .off then shepherdRecord (countCode u code) code eff detail
      else { countCode u code with knl := { (countCode u code).knl with
        inflight := (countCode u code).knl.inflight ++ [⟨BitVec.ofNat 32 code, eff, detail, (countCode u code).sys.drill⟩] } }) := by
    intro u hu
    rw [if_neg (hdie _ _ (hcount u code) ▸ hu)]
    exact htrans _ _ _ (hcount u code) (hway _ _)
  unfold raise
  cases eventBit code with
  | none => exact hcode s h
  | some ub => exact htrans _ _ _ (hevent s ub.1 ub.2) (hcode _ (hdie _ _ (hevent s ub.1 ub.2) ▸ h))

theorem frameKeeps_raise {s : State} (h : s.die ≠ .off) (code : Nat) (eff : Effect) (detail : Bytes) :
    FrameKeeps s (raise s code eff detail) :=
  raise_keeps (R := FrameKeeps) (fun _ _ _ => FrameKeeps.trans) (fun _ _ => FrameKeeps.die) frameKeeps_setEvent frameKeeps_countCode
    (fun _ _ => ⟨rfl, fun _ h => h, rfl, rfl, rfl, rfl⟩) h code eff detail

/-- The Frame's strand is refused with the codes: each is on its way, job-ending, and the Frame begins nothing. -/
structure FrameRefused (s : State) (codes : List Nat) (t : State) : Prop where
  own      : strand t 0 = { strand s 0 with st := 8 }
  others   : ∀ m, m ≠ 0 → strand t m = strand s m
  inflight : t.knl.inflight = s.knl.inflight ++ codes.map fun c => ⟨BitVec.ofNat 32 c, .jobEnding, [], s.sys.drill⟩
  fault    : t.frm.event.getLsbD 4 = true
  keeps    : FrameKeeps s t

theorem frameRefused_refuse {s : State} (h : s.die ≠ .off) (code : Nat) : FrameRefused s [code] (refuse s 0 code) := by
  have hkeeps := frameKeeps_raise (s := setEvent (stopStrand s 0) .frm 4) h code .jobEnding []
  have hstr : (refuse s 0 code).str = (stopStrand s 0).str := raise_str ..
  refine ⟨?_, fun m hm => ?_, ?_, ?_, ?_⟩
  · rw [strand_congr (congrArg Str.strands hstr)]; exact strand_setStrand_same s (by decide) _
  · rw [strand_congr (congrArg Str.strands hstr)]; exact strand_setStrand_other s hm _
  · exact raise_inflight (s := setEvent (stopStrand s 0) .frm 4) h code .jobEnding []
  · refine hkeeps.event 4 ?_
    show (orBit s.frm.event 4).getLsbD 4 = true
    simp [orBit]
  · exact FrameKeeps.trans (t := setEvent (stopStrand s 0) .frm 4)
      (FrameKeeps.trans (t := stopStrand s 0) ⟨rfl, fun _ h => h, rfl, rfl, rfl, rfl⟩ (frameKeeps_setEvent _ _ _)) hkeeps

theorem FrameRefused.append {s t u : State} {c d : List Nat} (h : FrameRefused s c t) (h' : FrameRefused t d u) :
    FrameRefused s (c ++ d) u where
  own      := by rw [h'.own, h.own]
  others   := fun m hm => (h'.others m hm).trans (h.others m hm)
  inflight := by rw [h'.inflight, h.inflight, h.keeps.sys, List.map_append, List.append_assoc]
  fault    := h'.fault
  keeps    := h.keeps.trans h'.keeps

theorem frameRefused_foldl {codes : List Nat} {s : State} (h : s.die ≠ .off) (hne : codes ≠ []) :
    FrameRefused s codes (codes.foldl (fun s c => refuse s 0 c) s) := by
  induction codes generalizing s with
  | nil => exact absurd rfl hne
  | cons c rest ih =>
    have hfirst := frameRefused_refuse h c
    cases rest with
    | nil => exact hfirst
    | cons c' rest => exact hfirst.append (ih (hfirst.keeps.die ▸ h) (List.cons_ne_nil _ _))

/-- The operation of the MATMUL that the Frame's strand has begun. -/
def matmulOp (s : State) : FrameOp :=
  { num := s.frm.issued, index := (strand s 0).index.toNat, word := (strand s 0).word
    desc := mread s.brd.mem (wFld (strand s 0).word 79 58 * 64) 128, width := frmWidth s }

/-- Where no error is found MATMUL issues. -/
theorem matmulIssue_issues {s : State} (h : begun s 0 0x10 = true) (hok : matmulRefusals s (strand s 0).word (matmulOp s).desc = []) :
    matmulIssue s = issueStrand { s with frm := { s.frm with ops := s.frm.ops ++ [matmulOp s], issued := s.frm.issued + 1 } } 0 := by
  rw [matmulOp] at hok
  simp only [matmulIssue, h, if_true, hok]
  rfl

theorem matmulIssue_refuses {s : State} (h : begun s 0 0x10 = true) (hbad : matmulRefusals s (strand s 0).word (matmulOp s).desc ≠ []) :
    FrameRefused s (matmulRefusals s (strand s 0).word (matmulOp s).desc) (matmulIssue s) := by
  have hfold := frameRefused_foldl (running_released (begun_running h)) hbad
  rw [matmulOp] at hbad hfold ⊢
  simp only [matmulIssue, h, if_true]
  cases hcodes : matmulRefusals s (strand s 0).word (mread s.brd.mem (wFld (strand s 0).word 79 58 * 64) 128) with
  | nil => exact absurd hcodes hbad
  | cons c codes => rw [hcodes] at hfold; exact hfold

/-! ## Seating -/

theorem wFld_lt (w : BitVec 128) (hi lo : Nat) : wFld w hi lo < 2 ^ (hi + 1 - lo) := Nat.mod_lt _ (Nat.two_pow_pos _)

theorem ring_released (s : State) {r : Nat} (h : r < 64) (n : Nat) (hold : BitVec 4) : ring (setHold (release s r) n hold) r =
    { ring s r with c := (ring s r).c + 1, cursor := 0, segs := (ring s r).segs.drop 1 } := vget_vset_same _ h _ _

/-- The layout that the next weight chunk of an operation has (R56). -/
def chunkLayout (op : FrameOp) : SegLayout :=
  ⟨chunkLen op.desc (seatPass op % chunks op.desc), bRowBytes op.desc op.width,
    if isMx (fdB op.desc) then ceilDiv (chunkLen op.desc (seatPass op % chunks op.desc)) 32 * roundUpTo op.width 64 else 0⟩

section
variable {s : State} {op : FrameOp} (hop : s.frm.ops[seatIdx s.frm.ops]? = some op) (hlive : frameLive s op = true)
  (hseat : op.seat = none) (hcredit : creditHeld s 0 = false) (hsubst : substHolds s op = false)
  (hstrips : stripsOn s &&& stripMask s (stripsNeeded op.desc op.width) = stripMask s (stripsNeeded op.desc op.width)) (waited : Nat)
include hop hlive hseat hcredit hsubst hstrips

/-- The present segment of the B ring is seated and released. -/
theorem seatChunk_seats (hready : feedReady s (wFld op.word 29 24) = true) (hlay : segNow s (wFld op.word 29 24) = chunkLayout op) :
    seatChunk s waited = setHold (release { s with frm := { s.frm with ops := s.frm.ops.set (seatIdx s.frm.ops) { op with
      seat := some (mread s.brd.mem (segAddr s (wFld op.word 29 24) (ring s (wFld op.word 29 24)).c)
        ((chunkLayout op).rows * (chunkLayout op).rowBytes + (chunkLayout op).aux))
      seatWait := op.seatWait + waited, cyc := op.cyc + waited } } } (wFld op.word 29 24)) 0 0 := by
  rw [chunkLayout] at hlay ⊢
  simp only [seatChunk, hop]
  rw [if_neg (by simp [hlive, hseat, hcredit, hsubst, hstrips]), if_neg (by simp [hready]), if_neg (by simp [hlay])]

/-- The operation that streams is held on the B ring. -/
theorem seatChunk_held (hready : feedReady s (wFld op.word 29 24) = false) (hcur : seatIdx s.frm.ops = curIdx s.frm.ops)
    (hactive : op.active = none) : seatChunk s waited = setHold s 0 3 := by
  simp only [seatChunk, hop]
  rw [if_neg (by simp [hlive, hseat, hcredit, hsubst, hstrips]), if_pos (by simp [hready]), if_pos (by simp [hcur, hactive])]

end

/-! ## Row groups -/

/-- The Frame's strand as a row group begins: it is not held. -/
def groupFree (s : State) : State := setHold { s with frm := { s.frm with hold := false } } 0 0

/-- An operation whose next row group begins with the tiles. -/
def groupOp (op : FrameOp) (tiles : List TileRun) (waited : Nat) : FrameOp :=
  { op with group := some tiles, carryWait := op.carryWait + waited, cyc := op.cyc + waited }

theorem mapsVerify_groupFree (s : State) (d : Bytes) (w i j : Nat) : mapsVerify (groupFree s) d w i j = mapsVerify s d w i j := rfl

section
variable {s : State} {op : FrameOp} (hcur : curOp s = some op) (hlive : frameLive s op = true)
  (hpass : op.pass < passes op.desc op.width) (hgroup : op.group = none) (waited : Nat)
include hcur hlive hpass hgroup

/-- A slot that is not Empty holds the row group. -/
theorem rowGroupBegin_held (hfull : (groupTiles s op.desc op.width (nextGroup op)).any (fun x => (slot s x.slot).st != 0) = true) :
    rowGroupBegin s waited = setHold { s with frm := { s.frm with hold := true } } 0 4 := by
  simp only [rowGroupBegin, hcur]
  rw [if_neg (by simp [hlive, hgroup, hpass]), if_pos hfull]

variable (hempty : (groupTiles s op.desc op.width (nextGroup op)).all (fun x => (slot s x.slot).st == 0) = true)
  (hmaps : (groupTiles s op.desc op.width (nextGroup op)).all (fun x => mapsVerify s op.desc op.width x.ti x.tj) = true)
include hempty hmaps

/-- A row group whose slots are Empty and whose maps verify begins, or its operation stops where a quantum is too large. -/
theorem rowGroupBegin_ready :
    let tiles := groupTiles s op.desc op.width (nextGroup op)
    let loose := if fdSeq op.desc then [] else tiles.filter fun t => decide (511 < t.q)
    rowGroupBegin s waited = if loose.isEmpty then setCur (groupFree s) (groupOp op tiles waited)
      else loose.foldl (fun s _ => raise s 0x01020004 .jobEnding)
        (stopStrand (setCur (groupFree s) { groupOp op tiles waited with dead := true }) 0) := by
  have hany : ¬(groupTiles s op.desc op.width (nextGroup op)).any (fun x => (slot s x.slot).st != 0) = true := by
    simpa using hempty
  have hall : ¬(!(groupTiles s op.desc op.width (nextGroup op)).all fun t => mapsVerify (groupFree s) op.desc op.width t.ti t.tj) = true := by
    simpa [mapsVerify_groupFree] using hmaps
  simp only [rowGroupBegin, hcur]
  rw [if_neg (by simp [hlive, hgroup, hpass]), if_neg hany]
  exact if_neg hall

end

/-- Where no tile's quantum is too large the group begins. -/
theorem rowGroup_begins {s : State} {op : FrameOp} (hcur : curOp s = some op) (hlive : frameLive s op = true)
    (hpass : op.pass < passes op.desc op.width) (hgroup : op.group = none) (waited : Nat)
    (hempty : (groupTiles s op.desc op.width (nextGroup op)).all (fun x => (slot s x.slot).st == 0) = true)
    (hmaps : (groupTiles s op.desc op.width (nextGroup op)).all (fun x => mapsVerify s op.desc op.width x.ti x.tj) = true)
    (hfit : fdSeq op.desc = true ∨ (groupTiles s op.desc op.width (nextGroup op)).all (fun x => decide (x.q ≤ 511)) = true) :
    rowGroupBegin s waited = setCur (groupFree s) (groupOp op (groupTiles s op.desc op.width (nextGroup op)) waited) := by
  rw [rowGroupBegin_ready hcur hlive hpass hgroup waited hempty hmaps]
  refine if_pos ?_
  rcases hfit with hseq | hfit
  · simp [hseq]
  · split
    · rfl
    · simpa [List.filter_eq_nil_iff] using hfit

/-- Where a tile's quantum is too large the operation stops before it (R27). -/
theorem rowGroup_stops {s : State} {op : FrameOp} (hcur : curOp s = some op) (hlive : frameLive s op = true)
    (hpass : op.pass < passes op.desc op.width) (hgroup : op.group = none) (waited : Nat)
    (hempty : (groupTiles s op.desc op.width (nextGroup op)).all (fun x => (slot s x.slot).st == 0) = true)
    (hmaps : (groupTiles s op.desc op.width (nextGroup op)).all (fun x => mapsVerify s op.desc op.width x.ti x.tj) = true)
    (hseq : fdSeq op.desc = false) (hloose : (groupTiles s op.desc op.width (nextGroup op)).any (fun x => decide (511 < x.q)) = true) :
    Runs (.rowGroupBegin waited) s fun t => (strand t 0).st = 8 ∧ OnItsWay t 0x01020004 .jobEnding [] s.sys.drill ∧
      t.frm.slots = s.frm.slots := by
  have hd : s.die ≠ .off := frameLive_released hlive
  obtain ⟨x, hx, hq⟩ := List.any_eq_true.mp hloose
  have hmem := List.mem_filter (p := fun t : TileRun => decide (511 < t.q)).mpr ⟨hx, hq⟩
  have hready := rowGroupBegin_ready hcur hlive hpass hgroup waited hempty hmaps
  simp only [hseq, Bool.false_eq_true, if_false] at hready
  rw [if_neg (fun hnil => by rw [List.isEmpty_iff.mp hnil] at hmem; cases hmem)] at hready
  generalize groupOp op _ waited = op' at hready
  generalize List.filter _ _ = loose at hready hmem
  obtain ⟨e, he⟩ := foldl_raise_onlyFrm (code := 0x01020004) (b := 7) rfl (fun _ => rfl) .jobEnding (fun _ : TileRun => []) loose
    (s := stopStrand (setCur (groupFree s) { op' with dead := true }) 0) hd
  refine ⟨_, congrArg Host.Outcome.next (hready.trans he), ?_, ?_, rfl⟩
  · exact congrArg Strand.st (strand_setStrand_same (setCur (groupFree s) { op' with dead := true }) (by decide) _)
  · exact List.mem_append_right _ (List.mem_map.mpr ⟨x, hmem, rfl⟩)

/-- Settles O18: each command's cases are those of `matmulIssue`, `seatChunk` and `rowGroupBegin` under the statement's conditions. -/
theorem frameBegins : Obligations.FrameBegins := by
  refine ⟨?issue, ?seat, ?group⟩
  case issue =>
    intro s h x d
    refine ⟨fun hok => ?_, fun hbad => ?_⟩
    · refine ⟨_, congrArg Host.Outcome.next (matmulIssue_issues h hok), issued_issueStrand rfl (by decide), rfl, rfl⟩
    · obtain ⟨hown, hothers, hinflight, hfault, hkeeps⟩ := matmulIssue_refuses h hbad
      exact ⟨_, rfl, hown, hothers, hinflight, hfault, hkeeps.ops, hkeeps.board, hkeeps.hbm⟩
  case seat =>
    intro s op waited hop hlive hseat hcredit hsubst rb mask ks lay hstrips
    refine ⟨fun hready hlay => ?_, fun hready hcur hactive => ?_⟩
    · have hseats := seatChunk_seats hop hlive hseat hcredit hsubst hstrips waited hready hlay
      refine ⟨_, congrArg Host.Outcome.next hseats, rfl, ?_, ?_, ?_, ?_, rfl⟩
      · exact congrArg Ring.c (ring_released _ (wFld_lt ..) 0 0)
      · exact (congrArg Ring.p (ring_released _ (wFld_lt ..) 0 0)).trans rfl
      · exact fun r hr => vget_vset_other _ hr _ _
      · exact strand_setStrand_same _ (by decide) _
    · refine ⟨_, congrArg Host.Outcome.next (seatChunk_held hop hlive hseat hcredit hsubst hstrips waited hready hcur hactive), ?_, ?_, rfl⟩
      · exact strand_setStrand_same s (by decide) _
      · exact fun m hm => strand_setStrand_other s hm _
  case group =>
    intro s op waited hcur hlive hpass hgroup tiles
    refine ⟨fun hempty hmaps hfit => ?_, fun hfull => ?_, fun hempty hmaps => rowGroup_stops hcur hlive hpass hgroup waited hempty hmaps⟩
    · refine ⟨_, congrArg Host.Outcome.next (rowGroup_begins hcur hlive hpass hgroup waited hempty hmaps hfit), rfl, rfl, ?_, rfl⟩
      exact strand_setStrand_same _ (by decide) _
    · refine ⟨_, congrArg Host.Outcome.next (rowGroupBegin_held hcur hlive hpass hgroup waited hfull), rfl, ?_⟩
      exact strand_setStrand_same _ (by decide) _

end Sys2Proof.Machine
end

section
/-!
SUPPORT. The registers whose write is a command (R224, R248, R249, R385, R473, R601, R603; log 98): O35.
-/
namespace Sys2Proof.Machine

/-! ## Writes that are refused -/

/-- A REG_WRITE that reaches its register, whose own rule refuses it with a code. -/
theorem regWrite_refused {s t : State} {r : Req} (h : Admits s r kWrite) (hp : r.parity = .even) {addr v code : Nat}
    (he : accessErr (dieReg s) addr = none) (hw : writeDie (tetRecv s r.link kWrite.shp) false addr v = (t, some code)) :
    regWrite s r addr v = respondCode t r kWrite.shp kWrite.type code := by
  have he' : accessErr (dieReg (tetRecv s r.link kWrite.shp)) addr = none := by simpa only [accessErr, dieReg_tetRecv] using he
  unfold regWrite serveWrite
  rw [request_admitted (k := { kWrite with named := shpAddr addr }) h, if_neg (by rw [hp]; decide)]
  simp only [he']
  rw [show ({ kWrite with named := shpAddr addr } : ReqKind).shp = kWrite.shp from rfl, hw]

/-- A code of the Governor's changes the Governor's EVENT and the codes on their way. -/
theorem raise_onlyGov {s : State} (h : s.die ≠ .off) {code b : Nat} (hb : eventBit code = some (.gov, b))
    (hc : ∀ t, countCode t code = t) (eff : Effect) (detail : Bytes) :
    raise s code eff detail = { s with
      gov := { s.gov with event := orBit s.gov.event b }
      knl := { s.knl with inflight := s.knl.inflight ++ [⟨BitVec.ofNat 32 code, eff, detail, s.sys.drill⟩] } } :=
  raise_released h hb hc eff detail

/-! ## What the commands make of the state -/

/-- What R224 asks of a signal of STR_TOK_SIGNAL. -/
def TokSignalOk (s : State) (k inc : Nat) : Prop :=
  running s = true ∧ tokDeclared (img s) k = true ∧ tokHost (img s) k = true ∧ inc ≠ 0 ∧ token s k + inc ≤ 65535

theorem tokSignal_signals {s : State} {v : Nat} (hok : TokSignalOk s (v % 1024) (v / 65536 % 16)) :
    tokSignal s v = okWrite (setToken s (v % 1024) (token s (v % 1024) + v / 65536 % 16)) := by
  obtain ⟨hrun, hdeclared, hhost, hinc, hfits⟩ := hok
  simp only [tokSignal, field, Nat.reduceAdd, Nat.reduceSub, Nat.reducePow, Nat.div_one]
  exact if_pos (by simp [hrun, hdeclared, hhost, hinc, hfits])

theorem tokSignal_refused {s : State} {v : Nat} (hok : ¬ TokSignalOk s (v % 1024) (v / 65536 % 16)) :
    tokSignal s v = (raise s 0x0B050204 .refusedTally, some 0x0B050204) := by
  simp only [tokSignal, field, Nat.reduceAdd, Nat.reduceSub, Nat.reducePow, Nat.div_one]
  exact if_neg fun hall => hok (by simpa [TokSignalOk, and_assoc] using hall)

theorem and_not_zero {n : Nat} (x : BitVec n) : x &&& ~~~0 = x := by
  rw [show (0 : BitVec n) = 0#n from rfl, BitVec.not_zero, BitVec.and_allOnes]

/-- The bits of a STR_DISABLE value that the running program's units keep clear (R248). -/
def disableBlocked (s : State) (v : BitVec 32) : BitVec 32 := v &&& ~~~s.str.disable &&& unitsInUse s

/-- The units that a STR_DISABLE value disables, and what of those disabled before returns (R249). -/
def takeUnits (s : State) (w : BitVec 32) : State :=
  let back := s.str.disable &&& ~~~w
  requestDomains { s with str := { s.str with disable := w, disabled := s.str.disabled &&& ~~~(back &&& 0xFFFFFF00) } }
    (pairDomains fun p => back.getLsbD p)

theorem disableUnits_free {s : State} {v : BitVec 32} (hv : disableBlocked s v = 0) : disableUnits s v.toNat = takeUnits s v := by
  unfold disableBlocked at hv
  simp only [disableUnits, BitVec.ofNat_toNat, BitVec.setWidth_eq, hv, if_true]
  rw [and_not_zero]
  rfl

theorem disableUnits_blocked {s : State} {v : BitVec 32} (hv : disableBlocked s v ≠ 0) :
    disableUnits s v.toNat = takeUnits (raise s 0x0B050206 .refusedTally) (v &&& ~~~disableBlocked s v) := by
  unfold disableBlocked at hv ⊢
  simp only [disableUnits, BitVec.ofNat_toNat, BitVec.setWidth_eq, if_neg hv]
  rfl

/-- What restoring the factory calibration makes of a state whose compute die is released. -/
theorem restoreFactory_eq {s : State} (hd : s.die ≠ .off) : ∃ e inflight, restoreFactory s = { s with
      gov := { s.gov with ucal := Vector.replicate 20 0, ucalEnable := false, event := e }
      knl := { s.knl with inflight := inflight } } ∧ ⟨0x090D0003, .event, [], s.sys.drill⟩ ∈ inflight := by
  simp only [restoreFactory, setUser]
  split
  · rw [raise_onlyGov (s := setGov s { s.gov with ucal := Vector.replicate 20 0, ucalEnable := false }) hd (code := 0x090D0006) (b := 4)
        rfl fun _ => rfl,
      raise_onlyGov (by exact hd) (b := 1) rfl fun _ => rfl]
    exact ⟨_, _, rfl, List.mem_append_right _ (List.mem_singleton.mpr rfl)⟩
  · rw [raise_onlyGov (by exact hd) (b := 1) rfl fun _ => rfl]
    exact ⟨_, _, rfl, List.mem_append_right _ (List.mem_singleton.mpr rfl)⟩

/-! ## The writes -/

section
variable {s : State} {r : Req} (h : Admits s r kWrite) (hp : r.parity = .even)
include h hp

/-! ## The strands -/

/-- R224: a write of STR_TOK_SIGNAL. -/
theorem strTokSignal_spec (v : BitVec 32) (hs : Canonical s) :
    let k := v.toNat % 1024
    let inc := v.toNat / 65536 % 16
    (TokSignalOk s k inc → Runs (.strTokSignal r v) s fun t => Answered s t r kWrite 0 [] ∧ token t k = token s k + inc ∧
      (∀ j, j ≠ k → token t j = token s j) ∧
      t = { s with str := { s.str with tok := t.str.tok }, tet := { s.tet with link := t.tet.link } }) ∧
    (¬ TokSignalOk s k inc → Runs (.strTokSignal r v) s fun t => Answered s t r kWrite 1 (natLE 4 0x0B050204) ∧
      OnItsWay t 0x0B050204 .refusedTally [] s.sys.drill ∧ t.str = s.str) := by
  intro k inc
  refine ⟨fun hok => ?_, fun hok => ?_⟩
  · have hwrite := tokSignal_signals (s := tetRecv s r.link kWrite.shp) (v := v.toNat) hok
    refine ⟨_, congrArg Host.Outcome.next (regWrite_done h hp rfl hwrite), answered_respond rfl .., ?_, fun j hj => ?_, rfl⟩
    · obtain ⟨-, -, -, -, hfits⟩ := hok
      exact token_setToken_same (s := tetRecv s r.link kWrite.shp) hs.tokens k (Nat.lt_succ_of_le hfits)
    · exact token_setToken_other (tetRecv s r.link kWrite.shp) hj _
  · have hwrite := tokSignal_refused (s := tetRecv s r.link kWrite.shp) (v := v.toNat) hok
    rw [raise_noEvent (tetRecv_released (admits_serving h rfl) _ _) rfl fun _ => rfl] at hwrite
    exact ⟨_, congrArg Host.Outcome.next (regWrite_refused h hp rfl hwrite), answered_respond rfl ..,
      List.mem_append_right _ (List.mem_singleton.mpr rfl), rfl⟩

/-- R248, R249: a write of STR_DISABLE. -/
theorem strDisable_spec (v : BitVec 32) (hunlocked : ¬ locked s (some 1)) :
    (disableBlocked s v = 0 → Runs (.strDisable r v) s fun t => Answered s t r kWrite 0 [] ∧
      t.str.disable = v ∧ (∀ i, s.str.disabled.getLsbD i = false → t.str.disabled.getLsbD i = false) ∧ t.knl = s.knl) ∧
    (disableBlocked s v ≠ 0 → Runs (.strDisable r v) s fun t => Answered s t r kWrite 0 [] ∧
      t.str.disable = v &&& ~~~disableBlocked s v ∧ OnItsWay t 0x0B050206 .refusedTally [] s.sys.drill) := by
  have hwrite : writeDie (tetRecv s r.link kWrite.shp) false 0x5001C v.toNat =
      okWrite (disableUnits (tetRecv s r.link kWrite.shp) v.toNat) :=
    congrArg okWrite (groupWrite_unlocked (s := tetRecv s r.link kWrite.shp) (g := some 1) hunlocked (disableUnits · v.toNat))
  refine ⟨fun hv => ?_, fun hv => ?_⟩
  · rw [disableUnits_free (s := tetRecv s r.link kWrite.shp) hv] at hwrite
    refine ⟨_, congrArg Host.Outcome.next (regWrite_done h hp rfl hwrite), answered_respond rfl .., rfl, fun i hi => ?_, rfl⟩
    show (s.str.disabled &&& _).getLsbD i = false
    rw [BitVec.getLsbD_and, hi, Bool.false_and]
  · rw [disableUnits_blocked (s := tetRecv s r.link kWrite.shp) hv,
      raise_noEvent (tetRecv_released (admits_serving h rfl) _ _) rfl fun _ => rfl] at hwrite
    exact ⟨_, congrArg Host.Outcome.next (regWrite_done h hp rfl hwrite), answered_respond rfl .., rfl,
      List.mem_append_right _ (List.mem_singleton.mpr rfl)⟩

/-! ## Resets -/

/-- R473: CONTEXT while a job runs. -/
theorem knlResetContext_running (hst : s.sys.st = .running) : Runs (.knlResetContext r) s fun t => Answered s t r kWrite 0 [] ∧
    OnItsWay t 0x0B010001 .jobEnding [] s.sys.drill := by
  have hwrite : writeDie (tetRecv s r.link kWrite.shp) false 0x10048 1 =
      okWrite (raise (tetRecv s r.link kWrite.shp) 0x0B010001 .jobEnding) := congrArg okWrite (if_pos hst)
  rw [raise_noEvent (tetRecv_released (admits_serving h rfl) _ _) rfl fun _ => rfl] at hwrite
  exact ⟨_, congrArg Host.Outcome.next (regWrite_done h hp rfl hwrite), answered_respond rfl ..,
    List.mem_append_right _ (List.mem_singleton.mpr rfl)⟩

/-- R473: CONTEXT while nothing runs and nothing is armed. -/
theorem knlResetContext_idle (hrun : s.sys.st ≠ .running) (harm : s.sys.st ≠ .armed) :
    Runs (.knlResetContext r) s fun t => Answered s t r kWrite 0 [] ∧ t.knl = s.knl := by
  have hwrite : writeDie (tetRecv s r.link kWrite.shp) false 0x10048 1 = okWrite (tetRecv s r.link kWrite.shp) :=
    congrArg okWrite ((if_neg hrun).trans (if_neg harm))
  exact ⟨_, congrArg Host.Outcome.next (regWrite_done h hp rfl hwrite), answered_respond rfl .., rfl⟩

/-- R473: DEVICE. -/
theorem knlResetDevice_spec : Runs (.knlResetDevice r) s fun t => Answered s t r kWrite 0 [] ∧
    OnItsWay t 0x0B010002 (.device false) [] s.sys.drill := by
  have hwrite : writeDie (tetRecv s r.link kWrite.shp) false 0x10048 2 =
      okWrite (raise (tetRecv s r.link kWrite.shp) 0x0B010002 (.device false)) := rfl
  rw [raise_noEvent (tetRecv_released (admits_serving h rfl) _ _) rfl fun _ => rfl] at hwrite
  exact ⟨_, congrArg Host.Outcome.next (regWrite_done h hp rfl hwrite), answered_respond rfl ..,
    List.mem_append_right _ (List.mem_singleton.mpr rfl)⟩

/-! ## The epoch -/

/-- R385: a write of TIM_EPOCH_HI. -/
theorem epochWrite_spec (hi : BitVec 32) :
    (epochOk s hi = true → Runs (.epochWrite r hi) s fun t => Answered s t r kWrite 0 [] ∧
      t = { s with
        tim := { s.tim with epochPending := some (BitVec.ofNat 16 (hi.toNat / 65536),
          BitVec.ofNat 48 (s.tim.epochLo.toNat + 2 ^ 32 * (hi.toNat % 65536))) }
        tet := { s.tet with link := t.tet.link } }) ∧
    (epochOk s hi = false → Runs (.epochWrite r hi) s fun t => Answered s t r kWrite 1 (natLE 4 0x0C0A0002) ∧
      OnItsWay t 0x0C0A0002 .refusedTally (timeDetail s 0) s.sys.drill ∧ t.tim.epochPending = s.tim.epochPending) := by
  have hwrite : writeDie (tetRecv s r.link kWrite.shp) false 0xA0024 hi.toNat = epochSubmit (tetRecv s r.link kWrite.shp) hi := by
    conv_rhs => rw [← BitVec.setWidth_eq hi, ← BitVec.ofNat_toNat]
    rfl
  refine ⟨fun hok => ?_, fun hok => ?_⟩
  · exact ⟨_, congrArg Host.Outcome.next (regWrite_done h hp rfl (hwrite.trans (if_pos hok))), answered_respond rfl .., rfl⟩
  · have hrefused := hwrite.trans (if_neg (by rw [show epochOk (tetRecv s r.link kWrite.shp) hi = epochOk s hi from rfl, hok]; decide))
    rw [raise_released (tetRecv_released (admits_serving h rfl) _ _) (code := 0x0C0A0002) (u := .tim) (b := 1) rfl fun _ => rfl] at hrefused
    exact ⟨_, congrArg Host.Outcome.next (regWrite_refused h hp rfl hrefused), answered_respond rfl ..,
      List.mem_append_right _ (List.mem_singleton.mpr rfl), rfl⟩

/-! ## Calibration -/

/-- R601: MEASURE while the device holds no program. -/
theorem measure_begins (hst : s.sys.st = .holding) (hload : loaded s = false) : Runs (.measure r) s fun t => Answered s t r kWrite 0 [] ∧
    t = { s with gov := { s.gov with measuring := true, measValid := false }, tet := { s.tet with link := t.tet.link } } := by
  have hwrite : writeDie (tetRecv s r.link kWrite.shp) false 0xD0018 1 =
      okWrite (setGov (tetRecv s r.link kWrite.shp) { s.gov with measuring := true, measValid := false }) :=
    if_pos ⟨hst, show (!loaded s) = true by rw [hload]; rfl⟩
  exact ⟨_, congrArg Host.Outcome.next (regWrite_done h hp rfl hwrite), answered_respond rfl .., rfl⟩

/-- R601, log 98: MEASURE at any other time. -/
theorem measure_refused (hbusy : s.sys.st ≠ .holding ∨ loaded s = true) :
    Runs (.measure r) s fun t => Answered s t r kWrite 1 (natLE 4 0x090D0004) ∧
      OnItsWay t 0x090D0004 .refusedTally [] s.sys.drill ∧ t.gov.measuring = s.gov.measuring := by
  have hno : ¬(s.sys.st = .holding ∧ (!loaded s) = true) := by
    rintro ⟨hst, hload⟩
    rcases hbusy with h | h
    · exact h hst
    · simp [h] at hload
  have hwrite : writeDie (tetRecv s r.link kWrite.shp) false 0xD0018 1 =
      (raise (tetRecv s r.link kWrite.shp) 0x090D0004 .refusedTally, some 0x090D0004) := if_neg hno
  rw [raise_onlyGov (tetRecv_released (admits_serving h rfl) _ _) (b := 2) rfl fun _ => rfl] at hwrite
  exact ⟨_, congrArg Host.Outcome.next (regWrite_refused h hp rfl hwrite), answered_respond rfl ..,
    List.mem_append_right _ (List.mem_singleton.mpr rfl), rfl⟩

/-- R603: RESTORE_FACTORY. -/
theorem restoreFactory_spec : Runs (.restoreFactory r) s fun t => Answered s t r kWrite 0 [] ∧ t.gov.ucal = Vector.replicate 20 0 ∧
    t.gov.ucalEnable = false ∧ OnItsWay t 0x090D0003 .event [] s.sys.drill ∧ t.mem = s.mem ∧ t.sys = s.sys := by
  have hwrite : writeDie (tetRecv s r.link kWrite.shp) false 0xD0018 2 = okWrite (restoreFactory (tetRecv s r.link kWrite.shp)) := rfl
  obtain ⟨e, inflight, hdone, hin⟩ := restoreFactory_eq (tetRecv_released (admits_serving h rfl) r.link kWrite.shp)
  rw [hdone] at hwrite
  exact ⟨_, congrArg Host.Outcome.next (regWrite_done h hp rfl hwrite), answered_respond rfl .., rfl, rfl, hin, rfl, rfl⟩

end

/-! ## Units drained -/

theorem getLsbD_domMask (ds : List Nat) {i : Nat} (hi : i < 50) : (domMask ds).getLsbD i = ds.any (· == i) := by
  rw [domMask, getLsbD_foldl_or (fun d => BitVec.ofNat 50 (2 ^ d))]
  have hzero : BitVec.getLsbD (0 : BitVec 50) i = false := BitVec.getLsbD_zero
  simp only [BitVec.getLsbD_ofNat, Nat.testBit_two_pow, hi, decide_true, Bool.true_and, hzero, Bool.false_or]
  rfl

/-- The domain of a Rods pair that is among those asked for. -/
theorem getLsbD_pairDomains (f : Nat → Bool) {p : Nat} (hp : p < 8) (hf : f p = true) : (pairDomains f).getLsbD (22 + p) = true := by
  rw [pairDomains, getLsbD_domMask _ (by omega)]
  simp only [List.any_map, List.any_filter, List.any_eq_true, List.mem_range]
  exact ⟨p, hp, by simp [hf]⟩

theorem pairDomains_none {b : Nat} (hb : 8 ≤ b) : pairDomains (· == b) = 0 := by
  have hnil : (List.range 8).filter (· == b) = [] := by
    simp only [List.filter_eq_nil_iff, List.mem_range, beq_iff_eq]
    omega
  rw [pairDomains, hnil]
  rfl

/-- R249: a disabled unit that no strand uses has drained. -/
theorem unitDrainDone_drains {s : State} {u : Fin 32} (hd : s.die = .serving) (hdis : s.str.disable.getLsbD u = true)
    (huse : (unitsInUse s).getLsbD u = false) : unitDrainDone s u =
      gateDomains { s with str := { s.str with disabled := s.str.disabled ||| BitVec.ofNat 32 (2 ^ u.val) } } (pairDomains (· == u.val)) :=
  if_pos (by rw [hd, hdis, huse]; rfl)

/-- Settles O35: each register's write, by its own lemma. -/
theorem commandWrites : Obligations.CommandWrites := by
  refine ⟨?writes, ?drained⟩
  case writes =>
    intro s r h hp
    refine ⟨strTokSignal_spec h hp, strDisable_spec h hp, knlResetContext_running h hp, knlResetContext_idle h hp,
      knlResetDevice_spec h hp, ?epoch, measure_begins h hp, measure_refused h hp, restoreFactory_spec h hp⟩
    intro hi c m ok
    obtain ⟨hkept, hrefused⟩ := epochWrite_spec h hp hi
    exact ⟨fun hok => hkept (decide_eq_true hok), fun hok => hrefused (decide_eq_false hok)⟩
  case drained =>
    intro s u hd hdis huse
    refine ⟨_, congrArg Host.Outcome.next (unitDrainDone_drains hd hdis huse), ?_, rfl, fun hu => ?_, fun hu => ?_⟩
    · show (s.str.disabled ||| BitVec.ofNat 32 (2 ^ u.val)).getLsbD u = true
      rw [BitVec.getLsbD_or, BitVec.getLsbD_ofNat, Nat.testBit_two_pow_self]
      simp
    · show (s.shp.on &&& ~~~pairDomains (· == u.val)).getLsbD (22 + u.val) = false
      rw [BitVec.getLsbD_and, BitVec.getLsbD_not, getLsbD_pairDomains (· == u.val) hu (beq_self_eq_true u.val)]
      simp
    · show s.shp.on &&& ~~~pairDomains (· == u.val) = s.shp.on
      rw [pairDomains_none hu, and_not_zero]

end Sys2Proof.Machine
end

section
/-!
SUPPORT. What a notification and a change of state leave alone (R9, R403, R405).
-/
namespace Sys2Proof.Machine

/-! ## Notifications -/

theorem takeSnapSeq_eq (s : State) :
    ∃ period serial, (takeSnapSeq s).2 = { s with tet := { s.tet with period := period, serial := serial } } := by
  unfold takeSnapSeq
  split <;> exact ⟨_, _, rfl⟩

/-- A notification changes the links, the notifications held, and the number of the next snapshot. -/
theorem notify_eq (s : State) (reason : Reason) (code : Nat) : ∃ link held period serial, notify s reason code =
    { s with tet := { s.tet with link := link, held := held, period := period, serial := serial } } := by
  obtain ⟨period, serial, hseq⟩ := takeSnapSeq_eq s
  simp only [notify, snapshot, hseq]
  split <;> exact ⟨_, _, _, _, rfl⟩

/-- The session that the compute die sends on is one of the two links'. -/
theorem dieLink_lt {s : State} {l : Nat} (h : dieLink s = some l) : l < 2 := List.mem_range.mp (List.mem_of_find?_eq_some h)

/-- A frame sent in a session stands in it behind those sent before. -/
theorem sent_tetSend (s : State) {l : Nat} (hl : l < 2) (b : TBody) : (linkAt (tetSend s l false b) l).die.sent =
    (linkAt s l).die.sent ++ [((linkAt s l).die.seq, b)] :=
  congrArg Sess.sent (sess_setSess_same s ⟨l, hl⟩ false _)

theorem sent_tetSend_other (s : State) {l l' : Nat} (hl : l < 2) (h : l' ≠ l) (b : TBody) :
    (linkAt (tetSend s l false b) l').die.sent = (linkAt s l').die.sent :=
  congrArg Sess.sent (sess_setSess_other s (l := ⟨l, hl⟩) (p := false) (Or.inl h) _)

/-- What a notification adds: its frame on a session, or itself among those held. -/
theorem notified_notify (s : State) (reason : Reason) (code : Nat) : Notified (notify s reason code) reason code := by
  simp only [notify]
  split
  case h_1 l hl =>
    refine Or.inl ⟨l, (linkAt (snapshot s).2 l).die.seq, (snapshot s).1, ?_⟩
    rw [sent_tetSend _ (dieLink_lt hl)]
    exact List.mem_append_right _ (List.mem_singleton.mpr rfl)
  case h_2 => exact Or.inr ⟨_, List.mem_append_right _ (List.mem_singleton.mpr rfl)⟩

theorem notified_congr {s t : State} (hlink : t.tet.link = s.tet.link) (hheld : t.tet.held = s.tet.held) {reason : Reason} {code : Nat}
    (h : Notified s reason code) : Notified t reason code := by
  unfold Notified at h ⊢
  simp only [linkAt_congr hlink, hheld]
  exact h

/-- A notification of another reason takes none away. -/
theorem notified_notify_other {s : State} {reason reason' : Reason} {code : Nat} (h : Notified s reason code) (hne : reason ≠ reason')
    (code' : Nat) : Notified (notify s reason' code') reason code := by
  obtain ⟨period, serial, hseq⟩ := takeSnapSeq_eq s
  have hkept : Notified (takeSnapSeq s).2 reason code := by rw [hseq]; exact notified_congr rfl rfl h
  simp only [notify, snapshot]
  generalize (takeSnapSeq s).2 = u at hkept ⊢
  split
  case h_1 l hl =>
    rcases hkept with ⟨l', q, b, hsent⟩ | ⟨b, hheld⟩
    · refine Or.inl ⟨l', q, b, ?_⟩
      by_cases hl' : l' = l
      · subst hl'
        rw [sent_tetSend u (dieLink_lt hl)]
        exact List.mem_append_left _ hsent
      · rwa [sent_tetSend_other u (dieLink_lt hl) hl']
    · exact Or.inr ⟨b, hheld⟩
  case h_2 =>
    rcases hkept with hsent | ⟨b, hheld⟩
    · exact Or.inl hsent
    · exact Or.inr ⟨b, List.mem_append_left _ (List.mem_filter.mpr ⟨hheld, by simpa using hne⟩)⟩

/-! ## Changes of state -/

/-- A change of state changes SYS, the Shepherd's copy of the replace request, and what its notification does. -/
theorem sysChange_eq (s : State) (st : DevState) (degraded drill replace : Bool) : ∃ seq repl link held period serial,
    sysChange s st degraded drill replace = { s with
      sys := { seq := seq, st := st, degraded := degraded, drill := drill, replace := replace }
      shp := { s.shp with replace := repl }
      tet := { s.tet with link := link, held := held, period := period, serial := serial } } := by
  unfold sysChange
  split
  case isTrue h =>
    obtain ⟨rfl, rfl, rfl, rfl⟩ := h
    exact ⟨_, _, _, _, _, _, rfl⟩
  case isFalse =>
    obtain ⟨link, held, period, serial, h⟩ := notify_eq { s with
      sys := { seq := s.sys.seq + 1, st := st, degraded := degraded, drill := drill, replace := replace }
      shp := { s.shp with replace := replace } } .stateChange s.knl.lastCode.toNat
    exact ⟨_, _, _, _, _, _, h⟩

theorem goState_eq (s : State) (st : DevState) : ∃ seq repl link held period serial, goState s st = { s with
    sys := { s.sys with seq := seq, st := st, replace := s.sys.degraded || decide (st = .withdrawn) }
    shp := { s.shp with replace := repl }
    tet := { s.tet with link := link, held := held, period := period, serial := serial } } :=
  sysChange_eq ..

/-- A change of state takes no notification of another reason away. -/
theorem notified_goState {s : State} {reason : Reason} {code : Nat} (h : Notified s reason code) (hne : reason ≠ .stateChange) (st : DevState) :
    Notified (goState s st) reason code := by
  unfold goState sysChange
  split
  · exact h
  · refine notified_notify_other ?_ hne _
    exact notified_congr (s := s) rfl rfl h

/-! ## Answers -/

/-- A response that is sent stands in its session. -/
theorem answers_respond (u : State) (r : Req) (k : ReqKind) (status : Nat) (payload : Bytes) :
    Answers (respond u r k.shp k.type status payload) r k status payload := by
  refine ⟨(sess u r.link k.shp).seq, ?_⟩
  rw [respond, tetSend, sess_setSess_same]
  exact List.mem_append_right _ (List.mem_singleton.mpr rfl)

end Sys2Proof.Machine
end

section
/-!
SUPPORT. The load of a program (R239, R406) and what the checks of Table 6-8 establish (R222, R240 to R242): O38.
-/
namespace Sys2Proof.Machine

/-! ## Bytes kept by offset -/

/-- A run reads at its offsets what was put there, and elsewhere what was there. -/
theorem sget?_putRun (m : SMap Byte) (off : Nat) (b : Bytes) :
    (∀ i, i < b.length → sget? (putRun m off b) (off + i) = b[i]?) ∧
    ∀ a, a < off ∨ off + b.length ≤ a → sget? (putRun m off b) a = sget? m a := by
  induction b generalizing m off with
  | nil => exact ⟨fun i hi => absurd hi (Nat.not_lt_zero i), fun _ _ => rfl⟩
  | cons x xs ih =>
    obtain ⟨hin, hout⟩ := ih (sset m off x) (off + 1)
    simp only [putRun, List.length_cons]
    refine ⟨fun i hi => ?_, fun a ha => ?_⟩
    · cases i with
      | zero => exact (hout off (by omega)).trans (sget?_sset_same off x m)
      | succ i => rw [show off + (i + 1) = off + 1 + i by omega, hin i (by omega)]; rfl
    · rw [hout a (by omega), sget?_sset_other x (by omega)]

theorem written_iff (m : SMap Byte) (off : Nat) (b : Bytes) :
    written m off b = true ↔ ∃ c ∈ m, off ≤ c.1 ∧ c.1 < off + b.length := by
  simp [written, List.any_eq_true]

/-! ## The result of a load -/

/-- A load that succeeds, as it is reported. -/
theorem loadResult_passed (s : State) : ∃ link held period serial, loadResult s 0 0 = { s with
    ld := {}
    str := { s.str with loadResult := 0, loadDetail := 0 }
    tet := { s.tet with link := link, held := held, period := period, serial := serial } } :=
  notify_eq { s with ld := {}, str := { s.str with loadResult := 0, loadDetail := 0 } } .loadResult 0

/-- A load that a check fails, as it is reported. -/
theorem loadResult_failed {s : State} (hd : s.die ≠ .off) {code : Nat} (h0 : code ≠ 0) (hb : eventBit code = none)
    (hc : ∀ t, countCode t code = t) (detail : Nat) : ∃ link held period serial, loadResult s code detail = { s with
      ld := {}
      str := { s.str with loadResult := BitVec.ofNat 32 code, loadDetail := BitVec.ofNat 32 detail }
      knl := { s.knl with inflight := s.knl.inflight ++ [⟨BitVec.ofNat 32 code, .refused, d4 detail, s.sys.drill⟩] }
      tet := { s.tet with link := link, held := held, period := period, serial := serial } } := by
  unfold loadResult
  simp only [if_neg h0]
  rw [raise_noEvent (by exact hd) hb hc]
  exact notify_eq ..

/-- A load in progress that is ended by R406, as it is reported. -/
theorem failLoad_active {s : State} (hd : s.die ≠ .off) (ha : s.ld.active = true) : ∃ event link held period serial, failLoad s = { s with
      ld := {}
      str := { s.str with loadResult := 0x080B0009, loadDetail := 0 }
      knl := { s.knl with inflight := s.knl.inflight ++ [⟨0x080B0009, .refused, d4 0, s.sys.drill⟩] }
      tet := { s.tet with event := event, link := link, held := held, period := period, serial := serial } } := by
  unfold failLoad loadResult
  rw [if_pos ha]
  simp only [if_neg (show ¬(0x080B0009 = 0) by decide)]
  rw [raise_released (by exact hd) (u := .tet) (b := 3) rfl fun _ => rfl]
  obtain ⟨link, held, period, serial, h⟩ := notify_eq { s with
      ld := {}
      str := { s.str with loadResult := 0x080B0009, loadDetail := 0 }
      knl := { s.knl with inflight := s.knl.inflight ++ [⟨0x080B0009, .refused, d4 0, s.sys.drill⟩] }
      tet := { s.tet with event := orBit s.tet.event 3 } } .loadResult 0x080B0009
  exact ⟨_, link, held, period, serial, h⟩

/-! ## LOAD_BEGIN, LOAD_DATA and LOAD_END -/

/-- R239: LOAD_BEGIN of the job's key, while nothing stands in the way. -/
theorem loadBegin_opens {s : State} {r : Req} {jobId bytes : BitVec 64} (h : Admits s r kLoadBegin) (hst : s.sys.st = .holding)
    (hload : loaded s = false) (hact : s.ld.active = false) (hscrub : s.str.scrub = false)
    (hkey : ∃ k, s.sec.job = some k ∧ k.jobId = jobId) : Runs (.loadBegin r jobId bytes) s fun t =>
      Answered s t r kLoadBegin 0 [] ∧
      t = { s with
        ld := { active := true, job := jobId, bytes := bytes, stray := s.ld.stray }
        gov := { s.gov with measuring := false }
        tet := { s.tet with link := t.tet.link } } := by
  obtain ⟨k, hjob, hid⟩ := hkey
  have hrun : loadBegin s r jobId bytes = done { tetRecv s r.link kLoadBegin.shp with
      ld := { active := true, job := jobId, bytes := bytes, stray := s.ld.stray }
      gov := { s.gov with measuring := false } } r kLoadBegin := by
    rw [loadBegin, request_admitted h]
    refine (if_neg ?_).trans (if_neg ?_)
    · rintro (h1 | h2 | h3 | h4)
      · exact h1 hst
      · exact absurd (h2.symm.trans hload) (by decide)
      · exact absurd (h3.symm.trans hact) (by decide)
      · exact absurd (h4.symm.trans hscrub) (by decide)
    · have hany : s.sec.job.any (fun k => k.jobId == jobId) = true := by rw [hjob]; exact beq_iff_eq.mpr hid
      show ¬(!s.sec.job.any fun k => k.jobId == jobId) = true
      rw [hany]
      decide
  exact ⟨_, congrArg Host.Outcome.next hrun, answered_respond rfl .., rfl⟩

/-- R406: LOAD_BEGIN out of its place. -/
theorem loadBegin_refused {s : State} {r : Req} {jobId bytes : BitVec 64} (h : Admits s r kLoadBegin)
    (hbad : s.sys.st ≠ .holding ∨ loaded s = true ∨ s.ld.active = true ∨ s.str.scrub = true) : Runs (.loadBegin r jobId bytes) s fun t =>
      Answered s t r kLoadBegin 1 (natLE 4 0x0B05000C) ∧ OnItsWay t 0x0B05000C .refused [] s.sys.drill ∧ t.ld = s.ld := by
  have hrun : loadBegin s r jobId bytes = refuseLoad { tetRecv s r.link kLoadBegin.shp with
      gov := { s.gov with measuring := false } } r kLoadBegin 0x0B05000C := by
    rw [loadBegin, request_admitted h]
    exact if_pos hbad
  rw [refuseLoad, raise_noEvent (by exact tetRecv_released (admits_serving h rfl) r.link kLoadBegin.shp) rfl fun _ => rfl] at hrun
  exact ⟨_, congrArg Host.Outcome.next hrun, answered_respond rfl .., List.mem_append_right _ (List.mem_singleton.mpr rfl), rfl⟩

section
variable {s : State} {l : Fin 2} {off : BitVec 64} {b : Bytes} (hbulk : bulkOk s l = true) (h1 : 1 ≤ b.length) (h2 : b.length ≤ 4088)
  (hact : s.ld.active = true)
include hbulk h1 h2 hact

theorem execLoadData_active : exec (.loadData l off b) s = .next (
    if s.ld.bytes.toNat < off.toNat + b.length ∨ written s.ld.data off.toNat b then failLoad (tetRecv s l false)
    else { tetRecv s l false with ld := { s.ld with data := putRun s.ld.data off.toNat b } }) := by
  have hlen : loadDataOk b = true := decide_eq_true ⟨h1, h2⟩
  refine congrArg Host.Outcome.next ?_
  rw [if_pos hlen, loadData, bulk, if_pos hbulk]
  exact if_neg (by rw [show (tetRecv s l false).ld.active = s.ld.active from rfl, hact]; decide)

/-- R406: bytes that lie in the image and that none has come before. -/
theorem loadData_keeps (hfit : off.toNat + b.length ≤ s.ld.bytes.toNat)
    (hnew : ∀ c ∈ s.ld.data, c.1 < off.toNat ∨ off.toNat + b.length ≤ c.1) : Runs (.loadData l off b) s fun t =>
      (∀ i, i < b.length → sget? t.ld.data (off.toNat + i) = b[i]?) ∧
      (∀ a, a < off.toNat ∨ off.toNat + b.length ≤ a → sget? t.ld.data a = sget? s.ld.data a) ∧
      t = { s with ld := { s.ld with data := t.ld.data }, tet := { s.tet with link := t.tet.link } } := by
  have hfree : ¬(s.ld.bytes.toNat < off.toNat + b.length ∨ written s.ld.data off.toNat b = true) := by
    rw [written_iff]
    rintro (h | ⟨c, hc, hlo, hhi⟩)
    · omega
    · have := hnew c hc
      omega
  have hrun := execLoadData_active (off := off) hbulk h1 h2 hact
  rw [if_neg hfree] at hrun
  obtain ⟨hin, hout⟩ := sget?_putRun s.ld.data off.toNat b
  exact ⟨_, hrun, hin, hout, rfl⟩

/-- R406: bytes that leave the image, or of which one has come before. -/
theorem loadData_fails (hbad : s.ld.bytes.toNat < off.toNat + b.length ∨ ∃ c ∈ s.ld.data, off.toNat ≤ c.1 ∧ c.1 < off.toNat + b.length) :
    Runs (.loadData l off b) s fun t => t.ld = {} ∧ t.str.loadResult = 0x080B0009 ∧ t.str.image = s.str.image ∧
      OnItsWay t 0x080B0009 .refused (natLE 4 0) s.sys.drill := by
  have hrun := execLoadData_active (off := off) hbulk h1 h2 hact
  rw [← written_iff] at hbad
  have hdie : s.die = .serving := by
    simp only [bulkOk, Bool.and_eq_true, beq_iff_eq] at hbulk
    obtain ⟨⟨-, hdie⟩, -⟩ := hbulk
    exact hdie
  obtain ⟨event, link, held, period, serial, hfail⟩ := failLoad_active (tetRecv_released hdie l false) hact
  rw [if_pos hbad, hfail] at hrun
  exact ⟨_, hrun, rfl, rfl, rfl, List.mem_append_right _ (List.mem_singleton.mpr rfl)⟩

end

section
variable {s : State} {r : Req} (h : Admits s r kLoadEnd) (hact : s.ld.active = true) (hend : s.ld.ended = false)
include h hact hend

theorem loadEnd_active : loadEnd s r =
    if s.ld.data.length < s.ld.bytes.toNat then respondCode (failLoad (tetRecv s r.link kLoadEnd.shp)) r false kLoadEnd.type 0x080B0009
    else done { tetRecv s r.link kLoadEnd.shp with ld := { s.ld with ended := true } } r kLoadEnd := by
  rw [loadEnd, request_admitted h]
  refine if_neg ?_
  show ¬((!s.ld.active) = true ∨ s.ld.ended = true)
  rw [hact, hend]
  decide

/-- R406: LOAD_END, every byte having come. -/
theorem loadEnd_ends (hall : s.ld.bytes.toNat ≤ s.ld.data.length) : Runs (.loadEnd r) s fun t => Answered s t r kLoadEnd 0 [] ∧
    t = { s with ld := { s.ld with ended := true }, tet := { s.tet with link := t.tet.link } } := by
  have hrun := loadEnd_active h hact hend
  rw [if_neg (Nat.not_lt.mpr hall)] at hrun
  exact ⟨_, congrArg Host.Outcome.next hrun, answered_respond rfl .., rfl⟩

/-- R406: LOAD_END before every byte has come. -/
theorem loadEnd_fails (hlack : s.ld.data.length < s.ld.bytes.toNat) : Runs (.loadEnd r) s fun t =>
    Answers t r kLoadEnd 1 (natLE 4 0x080B0009) ∧ t.ld = {} := by
  have hrun := loadEnd_active h hact hend
  obtain ⟨event, link, held, period, serial, hfail⟩ :=
    failLoad_active (tetRecv_released (admits_serving h rfl) r.link kLoadEnd.shp) hact
  rw [if_pos hlack, hfail] at hrun
  exact ⟨_, congrArg Host.Outcome.next hrun, answers_respond _ r kLoadEnd 1 _, rfl⟩

end

/-! ## The codes of the checks -/

/-- Every failure of a check names one of some codes. -/
def FailsWith (codes : List Nat) (o : Option (Nat × Nat)) : Prop := ∀ x ∈ o, x.1 ∈ codes

theorem failsWith_none (codes : List Nat) : FailsWith codes none := nofun

theorem failsWith_some {codes : List Nat} {code : Nat} (h : code ∈ codes) (detail : Nat) : FailsWith codes (some (code, detail)) := by
  rintro x ⟨⟩
  exact h

theorem failsWith_map {α : Type} {codes : List Nat} {code : Nat} (h : code ∈ codes) (o : Option α) (f : α → Nat) :
    FailsWith codes (o.map fun a => (code, f a)) := by
  cases o with
  | none => exact failsWith_none codes
  | some a => exact failsWith_some h (f a)

theorem failsWith_orElse {codes : List Nat} {a b : Option (Nat × Nat)} (ha : FailsWith codes a) (hb : FailsWith codes b) :
    FailsWith codes (a <|> b) := by
  cases a with
  | none => exact hb
  | some x => exact ha

theorem failsWith_ite {codes : List Nat} (c : Prop) [Decidable c] {a b : Option (Nat × Nat)} (ha : FailsWith codes a) (hb : FailsWith codes b) :
    FailsWith codes (if c then a else b) := by
  split
  · exact ha
  · exact hb

/-- The codes of the checks of Table 6-8 and of R142. -/
def loadCodes : List Nat :=
  (List.range 11).map (0x0B050001 + ·) ++ (List.range 5).map (0x0B050101 + ·)

theorem failsWith_firstEntry {codes : List Nat} {f : Bytes → Option Nat} (h : ∀ b, ∀ c ∈ f b, c ∈ codes) (es : List Bytes) (i : Nat) :
    FailsWith codes (firstEntry f es i) := by
  induction es generalizing i with
  | nil => exact failsWith_none codes
  | cons b es ih =>
    unfold firstEntry
    cases hf : f b with
    | none => exact ih (i + 1)
    | some code => exact failsWith_some (h b code hf) i

theorem weStep1_codes (im b : Bytes) : ∀ c ∈ weStep1 im b, c ∈ loadCodes := by
  unfold weStep1
  repeat' split
  all_goals rintro c ⟨⟩
  all_goals decide

theorem weAdapter_codes (b : Bytes) : ∀ c ∈ (if weAdapterBad b then some 0x0B050102 else none), c ∈ loadCodes := by
  split
  all_goals rintro c ⟨⟩
  decide

theorem check12_codes (im : Bytes) : FailsWith loadCodes (check12 im) := by
  refine failsWith_orElse ?fields (failsWith_orElse ?overlap (failsWith_orElse ?adapter ?enrol))
  case fields => exact failsWith_firstEntry (weStep1_codes im) _ _
  case overlap => exact failsWith_map (by decide) _ _
  case adapter => exact failsWith_firstEntry weAdapter_codes _ _
  case enrol => exact failsWith_map (by decide) _ _

theorem check10_codes (s : State) (im : Bytes) : FailsWith loadCodes (check10 s im) := by
  have hmem : 0x0B05000A ∈ loadCodes := by decide
  unfold check10
  refine failsWith_ite _ (failsWith_some hmem _) (failsWith_ite _ (failsWith_ite _ (failsWith_some hmem _) (failsWith_none _))
    (failsWith_ite _ (failsWith_some hmem _) ?_))
  split
  · exact failsWith_some hmem _
  · split
    · exact failsWith_some hmem _
    · exact failsWith_map hmem _ _

theorem check7_codes (im : Bytes) : FailsWith loadCodes (check7 im) := by
  have hmem : 0x0B050007 ∈ loadCodes := by decide
  unfold check7
  simp only
  split
  · exact failsWith_some hmem _
  · exact failsWith_ite _ (failsWith_some hmem _) (failsWith_ite _ (failsWith_some hmem _) (failsWith_map hmem _ _))

theorem loadFailure_codes (s : State) (im : Bytes) : FailsWith loadCodes (loadFailure s im) := by
  unfold loadFailure
  refine failsWith_orElse ?_ (failsWith_orElse ?_ (failsWith_orElse ?_ (failsWith_orElse ?_ (failsWith_orElse ?_ (failsWith_orElse ?_
    (failsWith_orElse (check7_codes im) (failsWith_orElse ?_ (failsWith_orElse ?_ (failsWith_orElse (check10_codes s im)
      (failsWith_orElse ?_ (check12_codes im)))))))))))
  · exact failsWith_map (by decide) _ _
  · exact failsWith_ite _ (failsWith_some (by decide) _) (failsWith_map (by decide) _ _)
  · exact failsWith_map (by decide) _ _
  · exact failsWith_ite _ (failsWith_some (by decide) _) (failsWith_none _)
  · exact failsWith_ite _ (failsWith_some (by decide) _) (failsWith_none _)
  · exact failsWith_ite _ (failsWith_some (by decide) _) (failsWith_none _)
  · exact failsWith_map (by decide) _ _
  · exact failsWith_map (by decide) _ _
  · exact failsWith_ite _ (failsWith_some (by decide) _) (failsWith_none _)

theorem loadCodes_noEvent : ∀ code ∈ loadCodes, code ≠ 0 ∧ eventBit code = none := by decide

theorem loadCodes_noCount : ∀ code ∈ loadCodes, ∀ t, countCode t code = t := by
  have h : loadCodes = [0x0B050001, 0x0B050002, 0x0B050003, 0x0B050004, 0x0B050005, 0x0B050006, 0x0B050007, 0x0B050008, 0x0B050009,
    0x0B05000A, 0x0B05000B, 0x0B050101, 0x0B050102, 0x0B050103, 0x0B050104, 0x0B050105] := rfl
  simp only [h, List.forall_mem_cons, List.not_mem_nil, false_imp_iff, implies_true, and_true]
  and_intros
  all_goals exact fun _ => rfl

/-! ## The result of the checks -/

/-- R240: an image that fails a check. -/
theorem loadCheck_fails {s : State} (hact : s.ld.active = true) (hend : s.ld.ended = true) (hd : s.die = .serving) {code detail : Nat}
    (hf : loadFailure s (loadImage s) = some (code, detail)) : Runs .loadCheck s fun t =>
      t.str.image = s.str.image ∧ t.str.loadResult = BitVec.ofNat 32 code ∧ t.str.loadDetail = BitVec.ofNat 32 detail ∧ t.ld = {} ∧
      OnItsWay t code .refused (natLE 4 detail) s.sys.drill ∧ t.mem = s.mem ∧ t.brd = s.brd := by
  have hrun : loadCheck s = loadResult s code detail := by
    unfold loadCheck
    rw [if_pos (by rw [hact, hend, hd]; rfl)]
    simp only [hf]
  have hcode := loadFailure_codes s (loadImage s) (code, detail) hf
  obtain ⟨h0, hb⟩ := loadCodes_noEvent code hcode
  obtain ⟨link, held, period, serial, hres⟩ :=
    loadResult_failed (by rw [hd]; decide) h0 hb (loadCodes_noCount code hcode) detail
  exact ⟨_, congrArg Host.Outcome.next (hrun.trans hres), rfl, rfl, rfl, rfl, List.mem_append_right _ (List.mem_singleton.mpr rfl), rfl, rfl⟩

theorem pairNeeded_congr {s t : State} (h : t.str.image = s.str.image) (p : Nat) : pairNeeded t p = pairNeeded s p := by
  unfold pairNeeded participates loaded img
  rw [h]

/-- A domain that is requested is on, or will ramp. -/
theorem requestDomains_requested (s : State) {m : BitVec 50} {d : Nat} (hm : m.getLsbD d = true) :
    s.shp.on.getLsbD d = true ∨ (requestDomains s m).shp.requested.getLsbD d = true := by
  cases hon : s.shp.on.getLsbD d with
  | true => exact Or.inl rfl
  | false =>
    refine Or.inr ?_
    have hd : d < 50 := by
      by_contra hge
      rw [BitVec.getLsbD_of_ge _ _ (by omega)] at hm
      cases hm
    show (s.shp.requested ||| (m &&& ~~~s.shp.on)).getLsbD d = true
    rw [BitVec.getLsbD_or, BitVec.getLsbD_and, BitVec.getLsbD_not, hm, hon, decide_eq_true hd]
    simp

/-- R240, R235: an image that passes every check. -/
theorem loadCheck_passes {s : State} (hact : s.ld.active = true) (hend : s.ld.ended = true) (hd : s.die = .serving)
    (hf : loadFailure s (loadImage s) = none) : Runs .loadCheck s fun t =>
      t.str.image = some (loadImage s) ∧ t.str.job = s.ld.job ∧ t.str.marker = 0 ∧ t.str.loadResult = 0 ∧ t.str.loadDetail = 0 ∧
      t.ld = {} ∧ t.tet.armedOnce = false ∧ t.mem = s.mem ∧ t.brd = s.brd ∧ t.sys = s.sys ∧
      ∀ p, p < 8 → pairNeeded t p = true → s.shp.on.getLsbD (22 + p) = true ∨ t.shp.requested.getLsbD (22 + p) = true := by
  have hrun : loadCheck s = loadResult (acceptImage s (loadImage s)) 0 0 := by
    unfold loadCheck
    rw [if_pos (by rw [hact, hend, hd]; rfl)]
    simp only [hf]
  obtain ⟨link, held, period, serial, hres⟩ := loadResult_passed (acceptImage s (loadImage s))
  refine ⟨_, congrArg Host.Outcome.next (hrun.trans hres), rfl, rfl, rfl, rfl, rfl, rfl, rfl, rfl, rfl, rfl, fun p hp hneed => ?_⟩
  exact requestDomains_requested { s with
      str := { s.str with image := some (loadImage s), job := s.ld.job, marker := 0, markerTok := [], tok := [] }
      tet := { s.tet with armId := 0, armedOnce := false, shpMarker := 0, shpJob := s.ld.job }
      snp := { s.snp with restored := false, restoredPage := [], restore := none, skipSnap := false } }
    (getLsbD_pairDomains _ hp ((pairNeeded_congr rfl p).symm.trans hneed))

/-! ## What an image that passes is -/

theorem firstBelow_eq_none {p : Nat → Bool} {n : Nat} (h : firstBelow p n = none) : ∀ i, i < n → p i = false := by
  induction n with
  | zero => exact fun i hi => absurd hi (Nat.not_lt_zero i)
  | succ n ih =>
    unfold firstBelow at h
    split at h
    · cases h
    next hnone =>
      intro i hi
      rcases Nat.lt_succ_iff_lt_or_eq.mp hi with hlt | rfl
      · exact ih hnone i hlt
      · cases hp : p i with
        | false => rfl
        | true => rw [hp] at h; cases h

theorem badAt_eq_nil {bad : Bool} {off : Nat} (h : badAt bad off = []) : bad = false := by
  cases bad with
  | false => rfl
  | true => cases h

theorem ite_some_eq_none {α : Type} {c : Prop} [Decidable c] {x : α} (h : (if c then some x else none) = none) : ¬c := fun hc => by
  rw [if_pos hc] at h
  cases h

/-- Bytes at which no byte is wrong are those wanted. -/
theorem take_of_wrongByte_nil {b : Bytes} {off : Nat} {want : Bytes} (h : wrongByte b off want = []) (hlen : off + want.length ≤ b.length) :
    (b.drop off).take want.length = want := by
  have hnone : firstBelow (fun i => (b.drop (off + i)).headD 0 != want.getD i 0) want.length = none := by
    unfold wrongByte at h
    cases hf : firstBelow (fun i => (b.drop (off + i)).headD 0 != want.getD i 0) want.length with
    | none => rfl
    | some i => rw [hf] at h; cases h
  refine List.ext_getElem (by rw [List.length_take, List.length_drop]; omega) fun i h1 h2 => ?_
  have hbyte := firstBelow_eq_none hnone i h2
  have hin : off + i < b.length := by omega
  rw [bne_eq_false_iff_eq, List.drop_eq_getElem_cons hin, List.headD_cons, List.getD_eq_getElem _ _ h2] at hbyte
  rw [List.getElem_take, List.getElem_drop, hbyte]

/-- An image that check 1 passes starts with the magic, and is of the length it names. -/
theorem check1_passes {im : Bytes} (h : check1 im im.length = none) : im.length ≤ 268435456 ∧ fld im 0 4 = 0x50394750 := by
  have hbad := List.min?_eq_none_iff.mp (Option.map_eq_none_iff.mp h)
  simp only [headerBad, List.append_eq_nil_iff] at hbad
  obtain ⟨⟨⟨⟨⟨⟨⟨⟨⟨⟨hmagic, -⟩, -⟩, hlen⟩, -⟩, -⟩, -⟩, -⟩, -⟩, -⟩, -⟩ := hbad
  have hsize := badAt_eq_nil hlen
  simp only [Bool.or_eq_false_iff, decide_eq_false_iff_not] at hsize
  obtain ⟨⟨-, hmax⟩, hmin⟩ := hsize
  refine ⟨by omega, ?_⟩
  have htake := take_of_wrongByte_nil hmagic (by rw [show (natLE 4 0x50394750).length = 4 from rfl]; omega)
  rw [show (natLE 4 0x50394750).length = 4 from rfl] at htake
  rw [fld, htake]
  rfl

/-- What check 7 leaves of a word's tokens. -/
theorem check7_passes {im : Bytes} (h : check7 im = none) {n i : Nat} (hn : n < 43) (hi : i < codeCount im n) :
    wordToken im n (codeWord im n i) = none := by
  unfold check7 at h
  simp only at h
  split at h
  · cases h
  · split at h
    · cases h
    · split at h
      · cases h
      · have hall := List.findSome?_eq_none_iff.mp (Option.map_eq_none_iff.mp h) n (List.mem_range.mpr hn)
        exact List.findSome?_eq_none_iff.mp hall i (List.mem_range.mpr hi)

/-- A word of which no token fails waits only on a declared token of its strand and signals only a declared one. -/
theorem wordToken_none {im : Bytes} {n : Nat} {w : BitVec 128} (h : wordToken im n w = none) :
    (wWen w = true → tokDeclared im (wWtok w) = true ∧ tokWaiter im (wWtok w) = n) ∧
    (wSen w = true → tokDeclared im (wStok w) = true) := by
  unfold wordToken at h
  split at h
  · cases h
  next hwait =>
    have hsend := ite_some_eq_none h
    simp only [Bool.and_eq_true, Bool.not_eq_true', Bool.and_eq_false_iff, not_and, not_or, Bool.not_eq_false, beq_eq_false_iff_ne, ne_eq,
      not_not] at hwait hsend
    exact ⟨hwait, hsend⟩

theorem check8_passes {s : State} {im : Bytes} (h : check8 s im = none) {n : Nat} (hn : n < 43) (hc : codeCount im n ≠ 0) :
    unitOut s n = false := by
  have hno := firstBelow_eq_none (Option.map_eq_none_iff.mp h) n hn
  simpa [hc] using hno

/-- Settles O38: the load's messages and the checks by their cases, and the image that passes check by check. -/
theorem loading : Obligations.Loading := by
  refine ⟨⟨?begin, ?data, ?fin⟩, ?checks, ?passes⟩
  case begin => exact fun s r jobId bytes h => ⟨loadBegin_opens h, loadBegin_refused h⟩
  case data => exact fun s l off b hbulk h1 h2 hact => ⟨loadData_keeps hbulk h1 h2 hact, loadData_fails hbulk h1 h2 hact⟩
  case fin => exact fun s r h hact hend => ⟨loadEnd_ends h hact hend, loadEnd_fails h hact hend⟩
  case checks => exact fun s hact hend hd => ⟨fun code detail => loadCheck_fails hact hend hd, loadCheck_passes hact hend hd⟩
  case passes =>
    intro s im h
    simp only [loadFailure, Option.orElse_eq_none] at h
    obtain ⟨h1, h2, -, h4, h5, h6, h7, h8, -⟩ := h
    obtain ⟨hlen, hmagic⟩ := check1_passes h1
    have hdigest : sha256 (digestInput im) = (im.drop 0x50).take 32 := by
      by_contra hne
      rw [check2, if_pos hne] at h2
      cases h2
    have hwidth := ite_some_eq_none h4
    rw [not_or, ne_eq, not_not] at hwidth
    obtain ⟨hclass, hfld⟩ := hwidth
    exact ⟨hlen, hmagic, hfld, hclass, Nat.not_lt.mp (ite_some_eq_none h5), Nat.not_lt.mp (ite_some_eq_none h6), hdigest,
      fun n i hn hi => wordToken_none (check7_passes h7 hn hi), fun n hn hc => check8_passes h8 hn hc⟩

end Sys2Proof.Machine
end

section
/-!
SUPPORT. A job's start, the beginning of teardown and the disarming of a round-up (R161, R225, R245, R387, R416, R418, R419, R433; log 95): O41.
-/
namespace Sys2Proof.Machine

/-! ## Leads -/

/-- A frame for a lead changes the leads alone. -/
theorem leadSend_eq (s : State) (i : Nat) (b : TxBody) : ∃ lead, leadSend s i b = { s with lead := { s.lead with lead := lead } } := by
  simp only [leadSend]
  split
  · exact ⟨_, rfl⟩
  · exact ⟨s.lead.lead, rfl⟩

theorem leadSendAll_eq (s : State) (is : List Nat) (b : TxBody) :
    ∃ lead, leadSendAll s is b = { s with lead := { s.lead with lead := lead } } := by
  unfold leadSendAll
  induction is generalizing s with
  | nil => exact ⟨s.lead.lead, rfl⟩
  | cons i is ih =>
    obtain ⟨lead, hsend⟩ := leadSend_eq s i b
    obtain ⟨lead', hrest⟩ := ih (leadSend s i b)
    exact ⟨lead', by rw [List.foldl_cons, hrest, hsend]⟩

theorem vget_map {α : Type} {n : Nat} (f : α → α) (v : Vector α n) {i : Nat} (h : i < n) (d : α) : vget (v.map f) i d = f (vget v i d) := by
  simp [vget, List.getD_eq_getElem?_getD, h]

/-- No lead is keyed once the keys are dropped (R336). -/
theorem leadAt_dropLeadKeys (s : State) {i : Nat} (h : i < 8) :
    (leadAt (dropLeadKeys s) i).keyed = false ∧ (leadAt (dropLeadKeys s) i).key = none := by
  have hlead : leadAt (dropLeadKeys s) i = _ := vget_map _ s.lead.lead h {}
  rw [hlead]
  exact ⟨rfl, rfl⟩

theorem leadAt_congr {s t : State} (h : t.lead.lead = s.lead.lead) (i : Nat) : leadAt t i = leadAt s i := by
  unfold leadAt; rw [h]

/-! ## Teardown begins -/

/-- What the beginning of teardown makes of the state. -/
theorem startTeardown_eq (s : State) (fault : Bool) : ∃ seq repl link held period serial, startTeardown s fault = { s with
    col := (stopColl s).col
    str := { s.str with gen := s.str.gen + 1, teardown := .draining }
    snp := { s.snp with gen := none, older := keptGens s fault, step5 := false, hold := false, stall := false, mirror := none,
                        restore := none, skipSnap := false }
    knl := { s.knl with waitCond := false, waitUs := 0, classify := false }
    sys := { s.sys with seq := seq, st := .draining, replace := s.sys.degraded || decide (DevState.draining = .withdrawn) }
    shp := { s.shp with replace := repl }
    tet := { s.tet with phase := .idle, root := false, plan := 0xFFFF, depth := 0, children := 0, childReady := 0,
                        readySent := false, deadline := 0, launch := 0
                        link := link, held := held, period := period, serial := serial } } :=
  goState_eq { s with
    col := (stopColl s).col
    str := { s.str with gen := s.str.gen + 1, teardown := .draining }
    snp := { s.snp with gen := none, older := keptGens s fault, step5 := false, hold := false, stall := false, mirror := none,
                        restore := none, skipSnap := false }
    tet := { s.tet with phase := .idle, root := false, plan := 0xFFFF, depth := 0, children := 0, childReady := 0,
                        readySent := false, deadline := 0, launch := 0 }
    knl := { s.knl with waitCond := false, waitUs := 0, classify := false } } .draining

/-- The beginning of teardown takes no notification of another reason away. -/
theorem notified_startTeardown {s : State} {reason : Reason} {code : Nat} (h : Notified s reason code) (hne : reason ≠ .stateChange)
    (fault : Bool) : Notified (startTeardown s fault) reason code := by
  refine notified_goState ?_ hne _
  exact notified_congr (s := s) rfl rfl h

/-! ## Disarming -/

theorem disarmed_disarm {s : State} (h : s.knl.withdrawAtEnd = false) : Disarmed (disarm s) := by
  obtain ⟨seq, repl, link, held, period, serial, hgo⟩ := goState_eq { dropLeadKeys s with tet := { s.tet with
    phase := .idle, root := false, plan := 0xFFFF, depth := 0, children := 0, childReady := 0, readySent := false,
    deadline := 0, launch := 0 } } .holding
  have hstay : ¬(dropLeadKeys s).knl.withdrawAtEnd = true := by rw [show (dropLeadKeys s).knl = s.knl from rfl, h]; decide
  have hdisarm : disarm s = _ := (if_neg hstay).trans hgo
  rw [hdisarm]
  exact ⟨rfl, rfl, rfl, rfl, rfl, fun i hi => leadAt_dropLeadKeys s hi⟩

theorem disarmed_congr {s t : State} (hsys : t.sys = s.sys) (hlead : t.lead = s.lead) (hphase : t.tet.phase = s.tet.phase)
    (hroot : t.tet.root = s.tet.root) (hplan : t.tet.plan = s.tet.plan) (hlaunch : t.tet.launch = s.tet.launch) (h : Disarmed s) :
    Disarmed t := by
  obtain ⟨hst, hidle, hroots, hplans, hlaunches, hleads⟩ := h
  refine ⟨hsys ▸ hst, hphase ▸ hidle, hroot ▸ hroots, hplan ▸ hplans, hlaunch ▸ hlaunches, fun i hi => ?_⟩
  rw [leadAt_congr (s := s) (by rw [hlead])]
  exact hleads i hi

/-- A round-up that is cancelled in ARMED disarms the device. -/
theorem cancelRoundUp_disarmed {s : State} (hd : s.die ≠ .off) (hst : s.sys.st = .armed) (h : s.knl.withdrawAtEnd = false) :
    Disarmed (cancelRoundUp s) := by
  have hcancel : cancelRoundUp s = disarm (notify (raise (leadSendAll s (jobLeads s)
      (.ruFrame .cancel (cancelFrame s s.tet.depth s.tet.plan s.tet.armId s.str.job))) 0x080B0007 .event (d4 s.tet.armId.toNat))
      .cancelled 0x080B0007) := if_pos hst
  obtain ⟨lead, hsend⟩ := leadSendAll_eq s (jobLeads s) (.ruFrame .cancel (cancelFrame s s.tet.depth s.tet.plan s.tet.armId s.str.job))
  rw [hsend, raise_released (by exact hd) (u := .tet) (b := 5) rfl fun _ => rfl] at hcancel
  obtain ⟨link, held, period, serial, hnote⟩ := notify_eq { s with
      lead := { s.lead with lead := lead }
      tet := { s.tet with event := orBit s.tet.event 5 }
      knl := { s.knl with inflight := s.knl.inflight ++ [⟨0x080B0007, .event, d4 s.tet.armId.toNat, s.sys.drill⟩] } } .cancelled 0x080B0007
  rw [hcancel]
  refine disarmed_disarm ?_
  exact (congrArg (fun t : State => t.knl.withdrawAtEnd) hnote).trans h

/-! ## The job's start -/

theorem sgetD_foldl_ssetD {α : Type} [DecidableEq α] (d : α) (f : Nat → α) (n i : Nat) :
    srising 0 ((List.range n).foldl (fun m i => ssetD d m i (f i)) []) = true ∧
    sgetD ((List.range n).foldl (fun m i => ssetD d m i (f i)) []) i d = if i < n then f i else d := by
  induction n with
  | zero => exact ⟨rfl, rfl⟩
  | succ n ih =>
    obtain ⟨hrising, hval⟩ := ih
    rw [List.range_succ, List.foldl_append]
    refine ⟨srising_ssetD hrising d n _, ?_⟩
    by_cases hi : i = n
    · subst hi
      rw [if_pos (Nat.lt_succ_self i)]
      exact sgetD_ssetD_same hrising d i _
    · have hother := sgetD_ssetD_other ((List.range n).foldl (fun m i => ssetD d m i (f i)) []) d hi (f n)
      exact (hother.trans hval).trans (if_congr (by omega) rfl rfl)

theorem initTokens_read (im : Bytes) {i : Nat} (hi : i < 1024) : (sgetD (initTokens im) i 0).toNat = tokInit im i := by
  obtain ⟨-, hval⟩ := sgetD_foldl_ssetD (0 : BitVec 16) (fun i => BitVec.ofNat 16 (tokInit im i)) 1024 i
  rw [initTokens, hval, if_pos hi, BitVec.toNat_ofNat]
  exact Nat.mod_eq_of_lt (Nat.mod_lt _ (Nat.two_pow_pos _))

/-- HBM and its check values as a job starts: the ratio table zeroed (R161). -/
def startMem (s : State) : MemS :=
  if ratioTable (img s) = locNone then s.mem else (jobWrite s (ratioTable (img s)) (zeros 131072)).mem

theorem zeroRatios_eq (s : State) : zeroRatios s = { s with mem := startMem s } := by
  unfold zeroRatios startMem
  split <;> rfl

/-- The strands of a launch that no restore precedes. -/
theorem startStrands_fresh {s : State} (h : s.snp.restored = false) : startStrands s = { s with
    str := { s.str with strands := Vector.ofFn fun n : Fin 43 => startStrand s n.val, tok := initTokens (img s),
                        rings := Vector.replicate 64 {}, markerTok := [] }
    snp := { s.snp with skipSnap := restoredSnapNext s } } := by
  have hsteps : restoredSteps s = [] := by rw [restoredSteps, h]; rfl
  have hnone : ∀ t, applySignals t [] = t := fun t => by simp [applySignals, sigTokens]
  simp only [startStrands, hsteps, List.flatMap_nil, List.foldl_nil, hnone, h, Bool.false_eq_true, if_false]

theorem startStrand_fresh {s : State} (h : s.snp.restored = false) (n : Nat) :
    startStrand s n = if participates s n then { index := 0, st := 1 } else {} := by
  unfold startStrand
  rw [h]
  cases participates s n <;> rfl

theorem startMem_zeroed {s : State} (hs : Canonical s) (ht : ratioTable (img s) ≠ locNone) (a : Nat) : mget (startMem s).hbm a =
    if ratioTable (img s) ≤ a ∧ a < ratioTable (img s) + 131072 then 0 else mget s.mem.hbm a := by
  have hmem : (startMem s).hbm = mwrite s.mem.hbm (ratioTable (img s)) (zeros 131072) := by
    have hwrite : ∀ b, (jobWrite s (ratioTable (img s)) b).mem.hbm = mwrite s.mem.hbm (ratioTable (img s)) b := fun _ => rfl
    rw [startMem, if_neg ht, hwrite]
  rw [hmem]
  split
  next hin =>
    obtain ⟨i, rfl⟩ := Nat.exists_eq_add_of_le hin.1
    have hi : i < (zeros 131072).length := by rw [zeros, List.length_replicate]; omega
    rw [mget_mwrite_inside _ hs.hbm _ _ hi]
    exact List.getElem_replicate ..
  next hout => exact mget_mwrite_outside _ _ _ _ (by rw [zeros, List.length_replicate]; omega)

/-- The state, its memory m, in which the strands of a launch that no restore precedes begin to issue. -/
def launched (s : State) (m : MemS) : State :=
  let z := recountStart (zeroCounters { s with mem := m })
  { z with
    str := { z.str with strands := Vector.ofFn fun n : Fin 43 => startStrand z n.val, tok := initTokens (img s),
                        rings := Vector.replicate 64 {}, markerTok := [] }
    snp := { z.snp with skipSnap := restoredSnapNext z } }

theorem jobStart_launched {s : State} (h : s.snp.restored = false) : jobStart s = goState (launched s (startMem s)) .running := by
  unfold jobStart
  simp only [h, Bool.false_eq_true, if_false]
  rw [zeroRatios_eq]
  generalize startMem s = m
  rw [startStrands_fresh (s := recountStart (zeroCounters { s with mem := m })) h]
  rfl

/-- The strands of a launched job: a participating strand stands at its first word. -/
theorem strand_launched {s : State} (h : s.snp.restored = false) (m : MemS) {n : Nat} (hn : n < 43) :
    strand (launched s m) n = if participates s n then { index := 0, st := 1 } else {} := by
  have hstart : strand (launched s m) n = startStrand (recountStart (zeroCounters { s with mem := m })) n := by
    simp [strand, launched, vget, List.getD_eq_getElem?_getD, hn]
  exact hstart.trans (startStrand_fresh (s := recountStart (zeroCounters { s with mem := m })) h n)

theorem launched_token (s : State) (m : MemS) {i : Nat} (hi : i < 1024) : token (launched s m) i = tokInit (img s) i := by
  have htok : (launched s m).str.tok = initTokens (img s) := by simp only [launched, recountStart, zeroCounters]
  rw [token, htok, initTokens_read (img s) hi]

/-- What a job's start leaves, its memory m. -/
theorem goState_launched (s : State) (m : MemS) :
    let t := goState (launched s m) .running
    t.sys.st = .running ∧ t.str = (launched s m).str ∧ (∀ i, ring t i = {}) ∧ t.knl.cause = 0 ∧ t.knl.rcDone = 0 ∧ t.knl.t = 0 ∧
      t.frm.ops = [] ∧ t.edg.ops = [] ∧ (∀ k, k < 16 → slot t k = {}) ∧ t.str.marker = s.str.marker ∧ t.str.image = s.str.image ∧
      t.brd = s.brd ∧ t.mem = m := by
  obtain ⟨seq, repl, link, held, period, serial, hgo⟩ := goState_eq (launched s m) .running
  have hmarker : (launched s m).str.marker = s.str.marker := by simp only [launched, recountStart, zeroCounters]
  have himage : (launched s m).str.image = s.str.image := by simp only [launched, recountStart, zeroCounters]
  rw [hgo]
  refine ⟨rfl, rfl, fun i => ?_, rfl, rfl, rfl, rfl, rfl, fun k _ => ?_, hmarker, himage, rfl, rfl⟩
  · exact vget_replicate 64 i ({} : Ring)
  · exact vget_replicate 16 k ({} : Slot)

/-- R387, R416: the counter reaches the launch time. -/
theorem launchTimeReached_starts {s : State} (harm : s.sys.st = .armed) (hphase : s.tet.phase = .committed)
    (hdue : 0 ≤ diff48 s.tim.counter s.tet.launch) (hrest : s.snp.restored = false) : Runs .launchTimeReached s fun t => t.sys.st = .running ∧
      (∀ n, n < 43 → participates s n = true → (strand t n).index = 0 ∧ (strand t n).st = 1 ∧ (strand t n).phase = .fetch ∧
        (strand t n).inflight = []) ∧
      (∀ n, n < 43 → participates s n = false → strand t n = {}) ∧
      (∀ i, i < 1024 → token t i = tokInit (img s) i) ∧ (∀ i, ring t i = {}) ∧ t.knl.cause = 0 ∧ t.knl.rcDone = 0 ∧ t.knl.t = 0 ∧
      t.frm.ops = [] ∧ t.edg.ops = [] ∧ (∀ k, k < 16 → slot t k = {}) ∧ t.str.marker = s.str.marker ∧ t.str.image = s.str.image ∧
      t.brd = s.brd ∧ (ratioTable (img s) = locNone → t.mem = s.mem) ∧
      (ratioTable (img s) ≠ locNone → Canonical s → ∀ a, mget t.mem.hbm a =
        if ratioTable (img s) ≤ a ∧ a < ratioTable (img s) + 131072 then 0 else mget s.mem.hbm a) := by
  have hrun : launchTimeReached s = goState (launched s (startMem s)) .running :=
    (if_pos ⟨harm, hphase, hdue⟩).trans (jobStart_launched hrest)
  obtain ⟨hst, hstr, hring, hcause, hdone, ht, hfrm, hedg, hslot, hmarker, himage, hbrd, hmem⟩ := goState_launched s (startMem s)
  have hstrand : ∀ n, n < 43 → strand (goState (launched s (startMem s)) .running) n =
      if participates s n then { index := 0, st := 1 } else {} :=
    fun n hn => (strand_congr (congrArg Str.strands hstr) n).trans (strand_launched hrest (startMem s) hn)
  refine ⟨_, congrArg Host.Outcome.next hrun, hst, fun n hn hp => ?_, fun n hn hp => ?_, fun i hi => ?_, hring, hcause, hdone, ht, hfrm, hedg,
    hslot, hmarker, himage, hbrd, fun hno => hmem.trans (if_pos hno), fun htab hs a => ?_⟩
  · rw [hstrand n hn, if_pos hp]
    exact ⟨rfl, rfl, rfl, rfl⟩
  · rw [hstrand n hn, if_neg (by rw [hp]; decide)]
  · exact (token_congr (congrArg Str.tok hstr) i).trans (launched_token s _ hi)
  · rw [hmem]
    exact startMem_zeroed hs htab a

/-! ## ABORT over the Tether -/

section
variable {s : State} {r : Req} (h : Admits s r kAbort) (cls : BitVec 8)
include h

/-- R245: ABORT of a running job. -/
theorem tetherAbort_running (hst : s.sys.st = .running) : Runs (.tetherAbort r cls) s fun t => Answers t r kAbort 0 [] ∧
    t.sys.st = .draining ∧ t.str.teardown = .draining ∧ t.str.gen = s.str.gen + 1 ∧ t.snp.gen = none ∧ t.mem = s.mem ∧ t.brd = s.brd := by
  have hrun : tetherAbort s r = done (startTeardown (tetRecv s r.link kAbort.shp) false) r kAbort := by
    rw [tetherAbort, request_admitted h, if_pos (by exact hst)]
  obtain ⟨seq, repl, link, held, period, serial, hstart⟩ := startTeardown_eq (tetRecv s r.link kAbort.shp) false
  rw [hstart] at hrun
  exact ⟨_, congrArg Host.Outcome.next hrun, answers_respond .., rfl, rfl, rfl, rfl, rfl, rfl⟩

/-- R418: ABORT of an armed device. -/
theorem tetherAbort_armed (hst : s.sys.st = .armed) (hwith : s.knl.withdrawAtEnd = false) :
    Runs (.tetherAbort r cls) s fun t => Answers t r kAbort 0 [] ∧ Disarmed t := by
  have hrun : tetherAbort s r = done (cancelRoundUp (tetRecv s r.link kAbort.shp)) r kAbort := by
    rw [tetherAbort, request_admitted h, if_neg (by rw [show (tetRecv s r.link kAbort.shp).sys = s.sys from rfl, hst]; decide),
      if_pos (by exact hst)]
  have hcancel := cancelRoundUp_disarmed (tetRecv_released (admits_serving h rfl) r.link kAbort.shp) hst hwith
  exact ⟨_, congrArg Host.Outcome.next hrun, answers_respond .., disarmed_congr rfl rfl rfl rfl rfl rfl hcancel⟩

/-- Log 95: ABORT of a device that neither runs nor is armed. -/
theorem tetherAbort_idle (hrun : s.sys.st ≠ .running) (harm : s.sys.st ≠ .armed) :
    Runs (.tetherAbort r cls) s fun t => Answered s t r kAbort 0 [] ∧ t = { s with tet := { s.tet with link := t.tet.link } } := by
  have hdone : tetherAbort s r = done (tetRecv s r.link kAbort.shp) r kAbort := by
    rw [tetherAbort, request_admitted h, if_neg (by exact hrun), if_neg (by exact harm)]
  exact ⟨_, congrArg Host.Outcome.next hdone, answered_respond rfl .., rfl⟩

end

/-- Settles O41: the launch by what `launched` holds, the ABORT by the device's state. -/
theorem jobStarts : Obligations.JobStarts := by
  refine ⟨fun s harm hphase => ⟨launchTimeReached_starts harm hphase, fun hearly => ?_⟩,
    fun s r cls h => ⟨tetherAbort_running h cls, tetherAbort_armed h cls, tetherAbort_idle h cls⟩⟩
  exact congrArg Host.Outcome.next (if_neg fun ⟨_, _, hdue⟩ => absurd hdue (not_le.mpr hearly))

end Sys2Proof.Machine
end

section
/-!
SUPPORT. The commit of a step marker and the end of a job (R156 to R158, R233 to R236, R238, R408, R476): O42.
-/
namespace Sys2Proof.Machine

/-! ## When a marker is committed, and when a job ends -/

theorem all_toList_iff {α : Type} {n : Nat} (v : Vector α n) (p : α → Bool) (d : α) :
    v.toList.all p = true ↔ ∀ i, i < n → p (vget v i d) = true := by
  rw [List.all_eq_true]
  refine ⟨fun h i hi => ?_, fun h x hx => ?_⟩
  · rw [vget, List.getD_eq_getElem _ _ (by simpa using hi)]
    exact h _ (List.getElem_mem _)
  · obtain ⟨i, hi, rfl⟩ := List.getElem_of_mem hx
    have hv := h i (by simpa using hi)
    rwa [vget, List.getD_eq_getElem _ _ hi] at hv

theorem markerOk_iff (s : State) : markerOk s = true ↔ Drained s := by
  rw [markerOk, Bool.and_eq_true, all_toList_iff _ _ {}, all_toList_iff _ _ {}]
  simp only [beq_iff_eq]
  refine and_congr ⟨fun h r => ?_, fun h r _ => h r⟩ Iff.rfl
  by_cases hr : r < 64
  · exact h r hr
  · have hnone : ring s r = {} := by simp [ring, vget, List.getD_eq_getElem?_getD, hr]
    rw [hnone]

theorem jobEnds_eq_false {s : State} (h : ∀ r ∈ s.knl.inflight, r.eff ≠ .jobEnding ∧ ∀ b, r.eff ≠ .device b) : jobEnds s = false := by
  rw [jobEnds, List.any_eq_false]
  intro r hr
  obtain ⟨hjob, hdevice⟩ := h r hr
  cases heff : r.eff with
  | jobEnding => exact absurd heff hjob
  | device b => exact absurd heff (hdevice b)
  | _ => exact Bool.false_ne_true

theorem mem_participating {s : State} {n : Nat} : n ∈ participating s ↔ n < 43 ∧ participates s n = true := by
  rw [participating, List.mem_filter, List.mem_range]

theorem allRest_iff (s : State) (sts : List (BitVec 4)) :
    allRest s sts = true ↔ ∀ n, n < 43 → participates s n = true → (strand s n).st ∈ sts ∧ (strand s n).inflight = [] := by
  simp only [allRest, idle, List.all_eq_true, mem_participating, Bool.and_eq_true, List.contains_iff_mem, List.isEmpty_iff, and_imp]

theorem atStep_ne_zero {s : State} {n : Nat} (hn : n < 43) (h : (strand s n).st = 6) : atStep s ≠ 0 := by
  rw [atStep, ne_eq, List.length_eq_zero_iff, List.filter_eq_nil_iff]
  intro hall
  refine hall (strand s n) ?_ (by rw [h]; rfl)
  rw [strand, vget, List.getD_eq_getElem _ _ (by simpa using hn)]
  exact List.getElem_mem _

theorem markerCommit_ready {s : State} (h : AtMarker s) : markerCommit s =
    if !markerOk s then raise s 0x0B050202 .jobEnding
    else if (ratioWatch s).2 then (ratioWatch s).1 else afterCommit (commitMarker (ratioWatch s).1) := by
  obtain ⟨hrun, hstep5, hquiet, ⟨n, hn, hst⟩, hrest⟩ := h
  have hall : allRest s [6, 7] = true := (allRest_iff s _).mpr fun n hn hp => by
    obtain ⟨hst, hidle⟩ := hrest n hn hp
    exact ⟨by simpa using hst, hidle⟩
  have hat : (atStep s == 0) = false := beq_eq_false_iff_ne.mpr (atStep_ne_zero hn hst)
  unfold markerCommit
  rw [if_neg (by rw [hrun, hstep5, jobEnds_eq_false hquiet, hat, hall]; decide)]

theorem markerCommit_waits {s : State} {n : Nat} (hn : n < 43) (hp : participates s n = true)
    (h : (strand s n).st ≠ 6 ∧ (strand s n).st ≠ 7 ∨ (strand s n).inflight ≠ []) : markerCommit s = s := by
  have hall : allRest s [6, 7] = false := by
    by_contra hne
    obtain ⟨hst, hidle⟩ := (allRest_iff s _).mp (Bool.not_eq_false _ ▸ hne) n hn hp
    rcases h with ⟨h6, h7⟩ | hbusy
    · rcases (by simpa using hst : (strand s n).st = 6 ∨ (strand s n).st = 7) with hst | hst
      · exact h6 hst
      · exact h7 hst
    · exact hbusy hidle
  exact if_pos (by rw [hall]; simp)

/-! ## The ratio watch -/

/-- What the ratio watch leaves: the strands, SYS, the Board's bytes, the Shepherd's marker and the wait for a SNAP. -/
structure WatchKeeps (s t : State) : Prop where
  str    : t.str = s.str
  marker : t.tet.shpMarker = s.tet.shpMarker
  step5  : t.snp.step5 = s.snp.step5
  board  : t.brd.mem = s.brd.mem
  sys    : t.sys = s.sys
  die    : t.die = s.die

theorem WatchKeeps.refl (s : State) : WatchKeeps s s := ⟨rfl, rfl, rfl, rfl, rfl, rfl⟩

theorem WatchKeeps.trans {s t u : State} (h : WatchKeeps s t) (h' : WatchKeeps t u) : WatchKeeps s u :=
  ⟨h'.str.trans h.str, h'.marker.trans h.marker, h'.step5.trans h.step5, h'.board.trans h.board, h'.sys.trans h.sys, h'.die.trans h.die⟩

theorem watchKeeps_foldl {α : Type} {f : State → α → State} (hf : ∀ t x, t.die ≠ .off → WatchKeeps t (f t x)) (xs : List α) {s : State}
    (hs : s.die ≠ .off) : WatchKeeps s (xs.foldl f s) := by
  induction xs generalizing s with
  | nil => exact .refl s
  | cons x xs ih =>
    have h := hf s x hs
    exact h.trans (ih (h.die ▸ hs))

theorem watchKeeps_setEvent (s : State) (u : EvUnit) (b : Nat) : WatchKeeps s (setEvent s u b) := by
  cases u <;> exact ⟨rfl, rfl, rfl, rfl, rfl, rfl⟩

theorem watchKeeps_countCode (s : State) (code : Nat) : WatchKeeps s (countCode s code) := by
  unfold countCode
  split <;> exact ⟨rfl, rfl, rfl, rfl, rfl, rfl⟩

theorem watchKeeps_raise {s : State} (h : s.die ≠ .off) (code : Nat) (eff : Effect) (detail : Bytes) :
    WatchKeeps s (raise s code eff detail) :=
  raise_keeps (R := WatchKeeps) (fun _ _ _ => WatchKeeps.trans) (fun _ _ => WatchKeeps.die) watchKeeps_setEvent watchKeeps_countCode
    (fun _ _ => ⟨rfl, rfl, rfl, rfl, rfl, rfl⟩) h code eff detail

theorem watchKeeps_raiseSev {s : State} (h : s.die ≠ .off) (code sev : Nat) (detail : Bytes) :
    WatchKeeps s (raiseSev s code sev detail) := by
  unfold raiseSev
  split
  · exact .refl s
  · exact watchKeeps_raise h ..
  · exact watchKeeps_raise h ..

theorem watchKeeps_hbmWrite (s : State) (a : Nat) (b : Bytes) : WatchKeeps s (hbmWrite s a b) := by
  obtain ⟨g, p, h⟩ := hbmWrite_eq s a b
  rw [h]
  exact ⟨rfl, rfl, rfl, rfl, rfl, rfl⟩

theorem watchKeeps_setNorm (s : State) (e : Nat) (x : NormEntry) : WatchKeeps s (setNorm s e x) := ⟨rfl, rfl, rfl, rfl, rfl, rfl⟩

theorem watchKeeps_watchLayer (marker : Nat) (acc : State × WatchSum) (b : Bytes) : WatchKeeps acc.1 (watchLayer marker acc b).1 := by
  unfold watchLayer ratioWrite
  simp only
  split
  · exact (watchKeeps_hbmWrite ..).trans (watchKeeps_setNorm ..)
  · exact .refl _

theorem watchKeeps_watchLayers (marker : Nat) (es : List Bytes) (acc : State × WatchSum) :
    WatchKeeps acc.1 (es.foldl (watchLayer marker) acc).1 := by
  induction es generalizing acc with
  | nil => exact .refl _
  | cons e es ih => exact (watchKeeps_watchLayer marker acc e).trans (ih _)

theorem watchKeeps_ratioWatch {s : State} (h : s.die ≠ .off) : WatchKeeps s (ratioWatch s).1 := by
  have hlayers := watchKeeps_watchLayers (s.str.marker.toNat + 1) (enrolledByLayer (img s)) (s, [])
  exact hlayers.trans (watchKeeps_foldl (fun t _ ht => watchKeeps_raiseSev ht ..) _ (hlayers.die ▸ h))

/-! ## Step 6 of R234 -/

/-- Between s and t strands may have been stopped, and are otherwise as they were. -/
def StrandsStop (s t : State) : Prop := ∀ m, m < 43 → strand t m = strand s m ∨ strand t m = { strand s m with st := 8 }

theorem StrandsStop.refl (s : State) : StrandsStop s s := fun _ _ => Or.inl rfl

theorem StrandsStop.trans {s t u : State} (h : StrandsStop s t) (h' : StrandsStop t u) : StrandsStop s u := by
  intro m hm
  rcases h m hm with hst | hst <;> rcases h' m hm with htu | htu <;> rw [htu, hst]
  · exact Or.inl rfl
  · exact Or.inr rfl
  · exact Or.inr rfl
  · exact Or.inr rfl

theorem strandsStop_foldl {α : Type} {f : State → α → State} (hf : ∀ t x, StrandsStop t (f t x)) (xs : List α) (s : State) :
    StrandsStop s (xs.foldl f s) := by
  induction xs generalizing s with
  | nil => exact .refl s
  | cons x xs ih => exact (hf s x).trans (ih _)

theorem strandsStop_stopStrand (s : State) (n : Nat) : StrandsStop s (stopStrand s n) := by
  intro m hm
  by_cases hmn : m = n
  · subst hmn
    exact Or.inr (strand_setStrand_same s hm _)
  · exact Or.inl (strand_setStrand_other s hmn _)

theorem strandsStop_raise (s : State) (code : Nat) (eff : Effect) (detail : Bytes) : StrandsStop s (raise s code eff detail) :=
  fun m _ => Or.inl (strand_congr (by rw [raise_str]) m)

theorem strandsStop_applySignals (s : State) (sigs : List Signal) : StrandsStop s (applySignals s sigs) := by
  refine strandsStop_foldl (fun t k => ?_) _ s
  by_cases hsum : token t k + sigSum sigs k ≤ 65535
  · rw [applyToken_within hsum]
    exact fun m _ => Or.inl rfl
  · rw [applyToken_overflow (by omega)]
    exact (strandsStop_foldl (fun t (g : Signal) => strandsStop_stopStrand t g.strand) _ t).trans (strandsStop_raise _ _ _ _)

theorem strandsStop_ranPast (s : State) (n i : Nat) : StrandsStop s (ranPast s n i) := by
  unfold ranPast
  split
  · exact (strandsStop_stopStrand s n).trans (strandsStop_raise _ _ _ _)
  · exact .refl s

/-- A strand at STEP, as it goes on. -/
def stepped (x : Strand) : Strand := { x with index := x.index + 1, phase := .fetch, st := 1 }

/-- Strand n goes on from its STEP, which is counted. -/
def stepOn (s : State) (n : Nat) : State := countDone (setStrand s n (stepped (strand s n))) n

theorem strand_stepOn_same (s : State) {n : Nat} (hn : n < 43) : strand (stepOn s n) n = stepped (strand s n) := by
  rw [stepOn, strand_congr (congrArg Str.strands (countDone_str _ n)), strand_setStrand_same s hn]

theorem strand_stepOn_other (s : State) {n m : Nat} (h : m ≠ n) : strand (stepOn s n) m = strand s m := by
  rw [stepOn, strand_congr (congrArg Str.strands (countDone_str _ n)), strand_setStrand_other s h]

theorem strand_foldl_stepOn_other (ns : List Nat) {s : State} {m : Nat} (h : m ∉ ns) : strand (ns.foldl stepOn s) m = strand s m := by
  induction ns generalizing s with
  | nil => rfl
  | cons n ns ih =>
    rw [List.mem_cons, not_or] at h
    obtain ⟨hn, hns⟩ := h
    rw [List.foldl_cons, ih hns, strand_stepOn_other s hn]

theorem strand_foldl_stepOn {ns : List Nat} (hnodup : ns.Nodup) {s : State} {m : Nat} (hm : m < 43) (h : m ∈ ns) :
    strand (ns.foldl stepOn s) m = stepped (strand s m) := by
  induction ns generalizing s with
  | nil => cases h
  | cons n ns ih =>
    obtain ⟨hn, hns⟩ := List.nodup_cons.mp hnodup
    rw [List.foldl_cons]
    by_cases hmn : m = n
    · subst hmn
      rw [strand_foldl_stepOn_other ns hn, strand_stepOn_same s hm]
    · rw [ih hns ((List.mem_cons.mp h).resolve_left hmn), strand_stepOn_other s hmn]

/-- The strands at STEP. -/
def stepping (s : State) : List Nat := (List.range 43).filter fun n => (strand s n).st == 6

theorem stepping_nodup (s : State) : (stepping s).Nodup := List.nodup_range.filter _

/-- Step 6 with no further signals: the strands at STEP go on, their signals arrive, and what runs past its code stops. -/
theorem stepSix_eq (s : State) : ∃ (sigs : List Signal) (past : List (Nat × Nat)), stepSix s [] =
    past.foldl (fun t p => ranPast t p.1 p.2) (applySignals (setSnp ((stepping s).foldl stepOn s)
      { ((stepping s).foldl stepOn s).snp with step5 := false, hold := false }) sigs) :=
  ⟨_, _, rfl⟩

theorem onlyEnding_stepOns {s : State} (h : s.die ≠ .off) (ns : List Nat) : OnlyEnding s (ns.foldl stepOn s) :=
  onlyEnding_foldl h (fun t n _ => (onlyEnding_setStrand t n _).trans (onlyEnding_countDone _ n)) ns

/-- What step 6 leaves: nothing but strands, tokens, instruction numbers and codes, and the wait for a SNAP. -/
theorem stepSix_onlyEnding {s : State} (h : s.die ≠ .off) :
    OnlyEnding { s with snp := { s.snp with step5 := false, hold := false } } (stepSix s []) := by
  obtain ⟨sigs, past, hsix⟩ := stepSix_eq s
  have hon := onlyEnding_stepOns h (stepping s)
  have hsnp : OnlyEnding { s with snp := { s.snp with step5 := false, hold := false } } (setSnp ((stepping s).foldl stepOn s)
      { ((stepping s).foldl stepOn s).snp with step5 := false, hold := false }) := by
    rw [OnlyEnding] at hon ⊢
    generalize (stepping s).foldl stepOn s = u at hon ⊢
    rw [setSnp, hon]
  have hsignals := hsnp.trans (onlyEnding_applySignals (by rw [hsnp.die]; exact h) sigs)
  rw [hsix]
  exact hsignals.trans (onlyEnding_foldl (by rw [hsignals.die]; exact h) (fun t p ht => onlyEnding_ranPast ht p.1 p.2) past)

/-- A strand at STEP goes on to its next word, unless its signal or the end of its code stops it. -/
theorem strand_stepSix {s : State} {n : Nat} (hn : n < 43) (hst : (strand s n).st = 6) :
    strand (stepSix s []) n = stepped (strand s n) ∨ strand (stepSix s []) n = { stepped (strand s n) with st := 8 } := by
  obtain ⟨sigs, past, hsix⟩ := stepSix_eq s
  have hmem : n ∈ stepping s := List.mem_filter.mpr ⟨List.mem_range.mpr hn, by rw [hst]; rfl⟩
  have hon := strand_foldl_stepOn (stepping_nodup s) (s := s) hn hmem
  have hstop := (strandsStop_applySignals (setSnp ((stepping s).foldl stepOn s)
      { ((stepping s).foldl stepOn s).snp with step5 := false, hold := false }) sigs).trans
    (strandsStop_foldl (fun t (p : Nat × Nat) => strandsStop_ranPast t p.1 p.2) past _)
  rw [← hsix] at hstop
  have hown := hstop n hn
  rwa [show strand (setSnp ((stepping s).foldl stepOn s) { ((stepping s).foldl stepOn s).snp with step5 := false, hold := false }) n =
    stepped (strand s n) from hon] at hown

/-! ## After the commit -/

theorem snapFollows_congr {s t : State} (hstrands : t.str.strands = s.str.strands) (himage : t.str.image = s.str.image) :
    SnapFollows t ↔ SnapFollows s := by
  have himg : img t = img s := by unfold img; rw [himage]
  unfold SnapFollows stepSnapWord
  rw [strand_congr hstrands, strand_congr hstrands, himg]

theorem afterCommit_snap {s : State} (h : SnapFollows s) : afterCommit s = setSnp s { s.snp with step5 := true } := if_pos h

theorem afterCommit_steps {s : State} (h : ¬ SnapFollows s) : afterCommit s = stepSix s [] := if_neg h

/-- R234: what stands after the commit of a marker of which the watch stops nothing. -/
theorem afterCommit_spec {s w : State} (hd : s.die ≠ .off) (hw : WatchKeeps s w) :
    let t := afterCommit (commitMarker w)
    t.str.marker = s.str.marker + 1 ∧ t.tet.shpMarker = s.str.marker + 1 ∧ t.str.markerTok = s.str.tok ∧ t.sys = s.sys ∧
      t.brd.mem = s.brd.mem ∧
      (SnapFollows s → t.snp.step5 = true ∧ (∀ n, strand t n = strand s n) ∧ t.str.tok = s.str.tok) ∧
      (¬ SnapFollows s → t.snp.step5 = false ∧
        ∀ n, n < 43 → (strand s n).st = 6 → (strand t n).index = (strand s n).index + 1 ∧ (strand t n).phase = .fetch ∧
          ((strand t n).st = 1 ∨ (strand t n).st = 8)) := by
  obtain ⟨hstr, -, -, hbrd, hsys, hdie⟩ := hw
  have hmarker : (commitMarker w).str.marker = s.str.marker + 1 := congrArg (fun x : Str => x.marker + 1) hstr
  have hcopy : (commitMarker w).tet.shpMarker = s.str.marker + 1 := congrArg (fun x : Str => x.marker + 1) hstr
  have htok : (commitMarker w).str.markerTok = s.str.tok := congrArg Str.tok hstr
  have htoks : (commitMarker w).str.tok = s.str.tok := by rw [← hstr]; rfl
  have hsys' : (commitMarker w).sys = s.sys := hsys
  have hbrd' : (commitMarker w).brd.mem = s.brd.mem := hbrd
  have hstrands : (commitMarker w).str.strands = s.str.strands := by rw [← hstr]; rfl
  have hfollows := snapFollows_congr hstrands (show (commitMarker w).str.image = s.str.image from by rw [← hstr]; rfl)
  have hreleased : (commitMarker w).die ≠ .off := hdie ▸ hd
  generalize commitMarker w = c at *
  by_cases hsnap : SnapFollows s
  · rw [afterCommit_snap (hfollows.mpr hsnap)]
    exact ⟨hmarker, hcopy, htok, hsys', hbrd', fun _ => ⟨rfl, fun n => strand_congr hstrands n, htoks⟩, fun h => absurd hsnap h⟩
  · rw [afterCommit_steps (mt hfollows.mp hsnap)]
    have hsix := stepSix_onlyEnding hreleased
    refine ⟨?_, ?_, ?_, ?_, ?_, fun h => absurd h hsnap, fun _ => ⟨by rw [hsix], fun n hn hst => ?_⟩⟩
    · rw [hsix]; exact hmarker
    · rw [hsix]; exact hcopy
    · rw [hsix]; exact htok
    · rw [hsix]; exact hsys'
    · rw [hsix]; exact hbrd'
    · have hn' := strand_congr hstrands n
      rcases strand_stepSix hn (hn'.symm ▸ hst) with hgo | hgo <;> rw [hgo, hn']
      · exact ⟨rfl, rfl, Or.inl rfl⟩
      · exact ⟨rfl, rfl, Or.inr rfl⟩

/-! ## The end of a job -/

theorem jobEnd_ready {s : State} (hrun : running s = true) (hquiet : ∀ r ∈ s.knl.inflight, r.eff ≠ .jobEnding ∧ ∀ b, r.eff ≠ .device b)
    (hsome : ∃ n, n < 43 ∧ participates s n = true)
    (hrest : ∀ n, n < 43 → participates s n = true → (strand s n).st = 7 ∧ (strand s n).inflight = []) : jobEnd s =
      if !markerOk s then raise s 0x0B050202 .jobEnding else startTeardown (notify s .jobEnd 0) false := by
  have hall : allRest s [7] = true := (allRest_iff s _).mpr fun n hn hp => by
    obtain ⟨hst, hidle⟩ := hrest n hn hp
    exact ⟨by simpa using hst, hidle⟩
  have hne : (participating s).isEmpty = false := by
    obtain ⟨n, hn⟩ := hsome
    exact List.isEmpty_eq_false_iff.mpr (List.ne_nil_of_mem (mem_participating.mpr hn))
  exact if_neg (by rw [hrun, jobEnds_eq_false hquiet, hne, hall]; decide)

theorem jobEnd_waits {s : State} {n : Nat} (hn : n < 43) (hp : participates s n = true) (h : (strand s n).st ≠ 7) : jobEnd s = s := by
  have hall : allRest s [7] = false := by
    by_contra hne
    obtain ⟨hst, -⟩ := (allRest_iff s _).mp (Bool.not_eq_false _ ▸ hne) n hn hp
    exact h (by simpa using hst)
  exact if_pos (by rw [hall]; simp)

/-- R238: the job that ends with everything drained. -/
theorem endTeardown_spec (s : State) :
    let t := startTeardown (notify s .jobEnd 0) false
    t.sys.st = .draining ∧ t.str.teardown = .draining ∧ t.str.gen = s.str.gen + 1 ∧ t.str.strands = s.str.strands ∧ t.tet.phase = .idle ∧
      Notified t .jobEnd 0 ∧ t.mem = s.mem ∧ t.brd = s.brd ∧ t.knl.cause = s.knl.cause := by
  have hnotified := notified_startTeardown (notified_notify s .jobEnd 0) (by decide) false
  obtain ⟨link, held, period, serial, hnote⟩ := notify_eq s .jobEnd 0
  obtain ⟨seq, repl, link', held', period', serial', hstart⟩ := startTeardown_eq (notify s .jobEnd 0) false
  rw [hstart, hnote] at hnotified ⊢
  exact ⟨rfl, rfl, rfl, rfl, rfl, hnotified, rfl, rfl, rfl⟩

/-- Settles O42: the commands' conditions as the statement has them, the watch by what it keeps, and step 6 strand by strand. -/
theorem markersAndJobEnd : Obligations.MarkersAndJobEnd := by
  refine ⟨⟨fun s h => ?marker, fun s n hn hp h => ?notYet⟩, ⟨fun s hrun hquiet hsome hrest => ?ends, fun s n hn hp h => ?goesOn⟩⟩
  case marker =>
    have hd : s.die ≠ .off := running_released h.1
    have hready := markerCommit_ready h
    have hwatch := watchKeeps_ratioWatch hd
    refine ⟨fun hno => ?_, fun hyes hstop => ?_, fun hyes hgo => ?_⟩
    · rw [if_pos (by rwa [Bool.not_eq_true', ← Bool.not_eq_true, markerOk_iff]), raise_noEvent hd rfl fun _ => rfl] at hready
      exact ⟨_, congrArg Host.Outcome.next hready, List.mem_append_right _ (List.mem_singleton.mpr rfl), rfl⟩
    · rw [if_neg (by rw [(markerOk_iff s).mpr hyes]; decide), if_pos hstop] at hready
      exact ⟨_, congrArg Host.Outcome.next hready, hwatch.str, hwatch.marker⟩
    · rw [if_neg (by rw [(markerOk_iff s).mpr hyes]; decide), if_neg (by rw [hgo]; decide)] at hready
      exact ⟨_, congrArg Host.Outcome.next hready, afterCommit_spec hd hwatch⟩
  case notYet => exact congrArg Host.Outcome.next (markerCommit_waits hn hp h)
  case ends =>
    have hd : s.die ≠ .off := running_released hrun
    have hready := jobEnd_ready hrun hquiet hsome hrest
    refine ⟨fun hyes => ?_, fun hno => ?_⟩
    · rw [if_neg (by rw [(markerOk_iff s).mpr hyes]; decide)] at hready
      exact ⟨_, congrArg Host.Outcome.next hready, endTeardown_spec s⟩
    · rw [if_pos (by rwa [Bool.not_eq_true', ← Bool.not_eq_true, markerOk_iff]), raise_noEvent hd rfl fun _ => rfl] at hready
      exact ⟨_, congrArg Host.Outcome.next hready, List.mem_append_right _ (List.mem_singleton.mpr rfl), rfl⟩
  case goesOn => exact congrArg Host.Outcome.next (jobEnd_waits hn hp h)

end Sys2Proof.Machine
end

section
/-!
SUPPORT. Teardown: the drained context, the job-context reset, and the end of the HBM overwrite (R81, R245, R246, R250, R450, R573, R615; logs 74
and 78): O44.
-/
namespace Sys2Proof.Machine

/-! ## The drained context -/

theorem freeInbox_eq (s : State) : ∃ lead, freeInbox s = { s with lead := { s.lead with lead := lead } } := by
  unfold freeInbox
  generalize s.col.inbox = frames
  induction frames generalizing s with
  | nil => exact ⟨s.lead.lead, rfl⟩
  | cons f frames ih =>
    obtain ⟨lead, hsend⟩ := leadSend_eq s f.lead (.link (.credit 1 f.frames))
    obtain ⟨lead', hrest⟩ := ih (freeBuffers s f.lead 1 f.frames)
    exact ⟨lead', by rw [List.foldl_cons, hrest, freeBuffers, hsend]⟩

/-- R245: what is left of the job once its old generation has drained. -/
theorem scrubContext_spec (s : State) :
    let t := scrubContext s
    t.str.teardown = .scrubbed ∧ t.str.image = none ∧ t.brd.mem = [] ∧ t.brd.check = [] ∧ (∀ c, lmem t c = []) ∧
      (∀ n, strand t n = {}) ∧ (∀ i, token t i = 0) ∧ (∀ k, slot t k = {}) ∧ t.rod.norm = [] ∧ t.frm.ops = [] ∧ t.edg.ops = [] ∧
      t.mem = s.mem ∧ t.sys = s.sys ∧ t.sec = s.sec := by
  obtain ⟨lead, hfree⟩ := freeInbox_eq s
  unfold scrubContext
  rw [hfree]
  refine ⟨rfl, rfl, rfl, rfl, fun c => ?_, fun n => ?_, fun i => rfl, fun k => ?_, rfl, rfl, rfl, rfl, rfl, rfl⟩
  · exact vget_replicate 16 c ([] : Mem)
  · exact vget_replicate 43 n ({} : Strand)
  · exact vget_replicate 16 k ({} : Slot)

/-! ## The job-context reset -/

/-- A load that fails is not recorded: while the compute die is off, the tech page alone holds its code (R529, R535). -/
theorem raise_loadFailure (s : State) (detail : Bytes) : ∃ event tech inflight, raise s 0x080B0009 .refused detail = { s with
    tet := { s.tet with event := event }
    shp := { s.shp with tech := tech }
    knl := { s.knl with inflight := inflight } } := by
  by_cases hd : s.die = .off
  · refine ⟨orBit s.tet.event 3, ((0x080B0009 : Word) :: s.shp.tech).take 8, s.knl.inflight, ?_⟩
    have hset : (setEvent s .tet 3).die = .off := hd
    show (if (setEvent s .tet 3).die = .off then shepherdRecord (setEvent s .tet 3) 0x080B0009 .refused detail else _) = _
    rw [if_pos hset]
    rfl
  · rw [raise_released hd (u := .tet) (b := 3) rfl fun _ => rfl]
    exact ⟨_, s.shp.tech, _, rfl⟩

/-- Whatever the die's state, a load in progress is ended, and what reports it changes nothing of the job's keys. -/
theorem failLoad_eq (s : State) : ∃ ld result detail event link held period serial tech inflight, failLoad s = { s with
    ld := ld
    str := { s.str with loadResult := result, loadDetail := detail }
    tet := { s.tet with event := event, link := link, held := held, period := period, serial := serial }
    shp := { s.shp with tech := tech }
    knl := { s.knl with inflight := inflight } } ∧ ld.active = false := by
  unfold failLoad
  split
  case isTrue =>
    obtain ⟨event, tech, inflight, hraise⟩ := raise_loadFailure { s with
      ld := {}, str := { s.str with loadResult := 0x080B0009, loadDetail := 0 } } (d4 0)
    obtain ⟨link, held, period, serial, hnote⟩ := notify_eq (raise { s with
      ld := {}, str := { s.str with loadResult := 0x080B0009, loadDetail := 0 } } 0x080B0009 .refused (d4 0)) .loadResult 0x080B0009
    refine ⟨{}, 0x080B0009, 0, event, link, held, period, serial, tech, inflight, ?_, rfl⟩
    rw [hraise] at hnote
    have hload : loadResult s 0x080B0009 0 = notify (raise { s with
      ld := {}, str := { s.str with loadResult := 0x080B0009, loadDetail := 0 } } 0x080B0009 .refused (d4 0)) .loadResult 0x080B0009 := rfl
    rw [hload, hraise, hnote]
  case isFalse h => exact ⟨s.ld, _, _, _, _, _, _, _, _, _, rfl, by simpa using h⟩

/-- R573: what the job-context reset leaves of the keys and of HBM. -/
theorem contextReset_spec (s : State) :
    let t := contextReset s
    t.str.teardown = .none ∧ t.str.scrub = !s.knl.resetPending ∧ t.sec.job = none ∧ t.sec.peers = [] ∧ t.mem.hbm = [] ∧ t.mem.check = [] ∧
      t.brd.scrub = false ∧ (∀ i, i < 8 → (leadAt t i).keyed = false ∧ (leadAt t i).key = none) ∧ t.ld.active = false ∧ t.sys = s.sys ∧
      t.sec.owner = s.sec.owner := by
  obtain ⟨ld, result, detail, event, link, held, period, serial, tech, inflight, hfail, hactive⟩ :=
    failLoad_eq { dropLeadKeys s with sec := { s.sec with job := none, peers := [] } }
  have hdestroy : destroyJobKey s = _ := hfail
  unfold contextReset
  rw [hdestroy]
  exact ⟨rfl, rfl, rfl, rfl, rfl, rfl, rfl, fun i hi => leadAt_dropLeadKeys s hi, hactive, rfl, rfl⟩

/-- R450: a reset that does not end in time. -/
theorem contextResetOverrun_spec {s : State} (hd : s.die ≠ .off) (h : s.str.teardown ≠ .none) : Runs .contextResetOverrun s fun t =>
    OnItsWay t 0x05010003 (.device true) [] s.sys.drill ∧ t.str = s.str := by
  have hrun : exec .contextResetOverrun s = .next (raise s 0x05010003 (.device true)) := congrArg Host.Outcome.next (if_neg h)
  exact ⟨_, hrun, raise_onItsWay hd .., raise_str ..⟩

/-! ## The end of the HBM overwrite -/

theorem drillHandled_none {s : State} (h : s.snp.drillActive = none) (k : Nat) : drillHandled s k = s :=
  if_neg (by rw [drilling, h]; exact Bool.false_ne_true)

/-- The state of which the overwrite of HBM has ended. -/
def overwritten (s : State) : State := clearHbm { s with str := { s.str with scrub := false } }

theorem hbmScrubComplete_ends {s : State} (hd : s.die ≠ .off) (h : s.str.scrub = true) : hbmScrubComplete s =
    if s.sys.st = .draining then (if s.str.teardown = .none then teardownEnds (overwritten s) else overwritten s)
    else if s.sys.st = .boot then { overwritten s with boot := { s.boot with overwrite := true } } else overwritten s :=
  if_neg (by simp [h, hd])

/-- The end of teardown, no drill being in progress. -/
theorem teardownEnds_eq {s : State} (h : s.snp.drillActive = none) : teardownEnds s =
    if s.knl.withdrawAtEnd then
      goState (if isWithdrawn s then { s with knl := { s.knl with stallReset := none, withdrawAtEnd := false } }
        else raise { s with knl := { s.knl with stallReset := none, withdrawAtEnd := false } } 0x0D010002 .event) .withdrawn
    else goState { s with knl := { s.knl with stallReset := none } } .holding := by
  have hdrills : [2, 3, 6, 7].foldl drillHandled s = s := by simp only [List.foldl_cons, List.foldl_nil, drillHandled_none h]
  unfold teardownEnds
  rw [hdrills]
  rfl

theorem goState_overwrite {s u : State} (hmem : u.mem.hbm = []) (hscrub : u.str.scrub = false) (hbrd : u.brd = s.brd) (st : DevState) :
    let t := goState u st
    t.sys.st = st ∧ t.sys.replace = (u.sys.degraded || decide (st = .withdrawn)) ∧ t.str.scrub = false ∧ t.mem.hbm = [] ∧ t.brd = s.brd := by
  obtain ⟨seq, repl, link, held, period, serial, hgo⟩ := goState_eq u st
  rw [hgo]
  exact ⟨rfl, rfl, hscrub, hmem, hbrd⟩

/-- R245: the device holds again. -/
theorem hbmScrubComplete_holds {s : State} (hd : s.die ≠ .off) (h : s.str.scrub = true) (hdrill : s.snp.drillActive = none)
    (hst : s.sys.st = .draining) (hdown : s.str.teardown = .none) (hwith : s.knl.withdrawAtEnd = false) :
    Runs .hbmScrubComplete s fun t => t.sys.st = .holding ∧ t.str.scrub = false ∧ t.mem.hbm = [] ∧ t.brd = s.brd := by
  have hrun : hbmScrubComplete s = goState { overwritten s with knl := { s.knl with stallReset := none } } .holding := by
    rw [hbmScrubComplete_ends hd h, if_pos hst, if_pos hdown, teardownEnds_eq (by exact hdrill)]
    exact if_neg (by rw [show (overwritten s).knl = s.knl from rfl, hwith]; decide)
  obtain ⟨hstate, -, hscrub, hmem, hbrd⟩ := goState_overwrite (s := s)
    (u := { overwritten s with knl := { s.knl with stallReset := none } }) rfl rfl rfl .holding
  exact ⟨_, congrArg Host.Outcome.next hrun, hstate, hscrub, hmem, hbrd⟩

/-- R81: the device is withdrawn. -/
theorem hbmScrubComplete_withdraws {s : State} (hd : s.die ≠ .off) (h : s.str.scrub = true) (hdrill : s.snp.drillActive = none)
    (hst : s.sys.st = .draining) (hdown : s.str.teardown = .none) (hwith : s.knl.withdrawAtEnd = true) :
    Runs .hbmScrubComplete s fun t => t.sys.st = .withdrawn ∧ t.sys.replace = true ∧ t.str.scrub = false ∧ t.mem.hbm = [] := by
  have hends := hbmScrubComplete_ends hd h
  rw [if_pos hst, if_pos hdown, teardownEnds_eq (by exact hdrill), if_pos (by exact hwith)] at hends
  have hgone : ∀ u : State, u.mem.hbm = [] → u.str.scrub = false → (goState u .withdrawn).sys.st = .withdrawn ∧
      (goState u .withdrawn).sys.replace = true ∧ (goState u .withdrawn).str.scrub = false ∧ (goState u .withdrawn).mem.hbm = [] := by
    intro u hmem hscrub
    obtain ⟨hstate, hrepl, hscrub', hmem', -⟩ := goState_overwrite (s := u) hmem hscrub rfl .withdrawn
    exact ⟨hstate, by rw [hrepl]; simp, hscrub', hmem'⟩
  refine ⟨_, congrArg Host.Outcome.next hends, ?_⟩
  split
  · exact hgone _ rfl rfl
  · rw [raise_onlyKnl (by exact hd) (b := 9) rfl fun _ => rfl]
    exact hgone _ rfl rfl

/-- R568, R615: the overwrite of the start-up ends. -/
theorem hbmScrubComplete_boots {s : State} (hd : s.die ≠ .off) (h : s.str.scrub = true) (hst : s.sys.st = .boot) :
    Runs .hbmScrubComplete s fun t => t.boot.overwrite = true ∧ t.str.scrub = false ∧ t.mem.hbm = [] ∧ t.sys = s.sys := by
  have hends := hbmScrubComplete_ends hd h
  rw [if_neg (by rw [hst]; decide), if_pos hst] at hends
  exact ⟨_, congrArg Host.Outcome.next hends, rfl, rfl, rfl, rfl⟩

/-- Settles O44: the phases of teardown in their order. -/
theorem teardown : Obligations.Teardown := by
  refine ⟨fun s h => ⟨?drained, fun hpending => ?timeout⟩, fun s h => ?reset, fun s hd h => contextResetOverrun_spec hd h,
    fun s hd hscrub hdrill => ⟨hbmScrubComplete_holds hd hscrub hdrill, hbmScrubComplete_withdraws hd hscrub hdrill,
      hbmScrubComplete_boots hd hscrub⟩⟩
  case drained => exact ⟨_, congrArg Host.Outcome.next (if_pos h), scrubContext_spec s⟩
  case timeout =>
    refine ⟨_, congrArg Host.Outcome.next ((if_pos h).trans (if_neg ?_)), rfl⟩
    rw [hpending]
    decide
  case reset => exact ⟨_, congrArg Host.Outcome.next (if_pos h), contextReset_spec s⟩

end Sys2Proof.Machine
end

section
/-!
SUPPORT. Decode and the common opcodes NOP, STEP and END (R211, R218, R232, R265, R266, R268; log 14): O14.
-/
namespace Sys2Proof.Machine

/-! ## The bytes of the memories -/

/-- The bytes of HBM, of the Board and of the clusters' local memories are as before, and so is the die. -/
structure BytesKept (s t : State) : Prop where
  hbm    : t.mem.hbm = s.mem.hbm
  board  : t.brd.mem = s.brd.mem
  locals : t.rod.mem = s.rod.mem
  die    : t.die = s.die

theorem BytesKept.trans {s t u : State} (h : BytesKept s t) (h' : BytesKept t u) : BytesKept s u :=
  ⟨h'.hbm.trans h.hbm, h'.board.trans h.board, h'.locals.trans h.locals, h'.die.trans h.die⟩

theorem bytesKept_setEvent (s : State) (u : EvUnit) (b : Nat) : BytesKept s (setEvent s u b) := by
  cases u <;> exact ⟨rfl, rfl, rfl, rfl⟩

theorem bytesKept_countCode (s : State) (code : Nat) : BytesKept s (countCode s code) := by
  unfold countCode
  split <;> exact ⟨rfl, rfl, rfl, rfl⟩

theorem bytesKept_raise {s : State} (h : s.die ≠ .off) (code : Nat) (eff : Effect) (detail : Bytes) :
    BytesKept s (raise s code eff detail) :=
  raise_keeps (R := BytesKept) (fun _ _ _ => BytesKept.trans) (fun _ _ => BytesKept.die) bytesKept_setEvent bytesKept_countCode
    (fun _ _ => ⟨rfl, rfl, rfl, rfl⟩) h code eff detail

theorem bytesKept_decodeFault (s : State) (n op code : Nat) : BytesKept s (decodeFault s n op code) := by
  unfold decodeFault issueFault
  repeat' split
  all_goals exact ⟨rfl, rfl, rfl, rfl⟩

/-! ## Decode -/

section
variable {s : State} {n : Nat} (h : canDecode s n = true)
include h

/-- A word that passes Table 7-3 is taken: it waits where W_EN is set, and else begins. -/
theorem instructionDecode_passes (hc : decodeCheck n (codeWord (img s) n (strand s n).index.toNat) = none) :
    instructionDecode s n =
      let w := codeWord (img s) n (strand s n).index.toNat
      setStrand s n { strand s n with word := w, phase := if wWen w then .waiting else .begun, st := if wWen w then 2 else 1 } := by
  simp only [instructionDecode, h, if_true, hc]

theorem instructionDecode_fails {code : Nat} (hc : decodeCheck n (codeWord (img s) n (strand s n).index.toNat) = some code) :
    instructionDecode s n =
      raise (decodeFault (stopStrand s n) n (wOp (codeWord (img s) n (strand s n).index.toNat)) code) code .jobEnding
        (d4 n ++ d4 (strand s n).index.toNat) := by
  simp only [instructionDecode, h, if_true, hc]

/-- A word that fails Table 7-3 writes no memory. -/
theorem bytesKept_instructionDecode {code : Nat} (hc : decodeCheck n (codeWord (img s) n (strand s n).index.toNat) = some code) :
    BytesKept s (instructionDecode s n) := by
  obtain ⟨hrun, -⟩ := canDecode_iff.mp h
  have hstop : BytesKept s (stopStrand s n) := ⟨rfl, rfl, rfl, rfl⟩
  have hfault := hstop.trans (bytesKept_decodeFault _ n (wOp (codeWord (img s) n (strand s n).index.toNat)) code)
  rw [instructionDecode_fails h hc]
  exact hfault.trans (bytesKept_raise (hfault.die ▸ running_released hrun) ..)

end

/-- R268: a word that fails stops its strand and reports its first failing check, and changes no token and no memory. -/
theorem decode_refuses {s : State} {n : Fin 43} {code : Nat} (h : canDecode s n = true)
    (hc : decodeCheck n (codeWord (img s) n (strand s n).index.toNat) = some code) :
    Runs (.instructionDecode n) s fun t =>
      strand t n = { strand s n with st := 8 } ∧ (∀ m, m ≠ n.val → strand t m = strand s m) ∧ t.str.tok = s.str.tok ∧
      OnItsWay t code .jobEnding (natLE 4 n ++ natLE 4 (strand s n).index.toNat) s.sys.drill ∧
      t.mem.hbm = s.mem.hbm ∧ t.brd.mem = s.brd.mem ∧ t.rod.mem = s.rod.mem := by
  obtain ⟨t, hrun, hstr, hway⟩ := runs_decode_fails h hc
  have hkept : BytesKept s t := Host.Outcome.next.inj hrun ▸ bytesKept_instructionDecode h hc
  have hstrands := congrArg Str.strands hstr
  refine ⟨t, hrun, ?_, fun m hm => ?_, ?_, hway, hkept.hbm, hkept.board, hkept.locals⟩
  · exact (strand_congr hstrands n).trans (strand_setStrand_same s n.isLt _)
  · exact (strand_congr hstrands m).trans (strand_setStrand_other s hm _)
  · rw [hstr]; rfl

/-! ## NOP, STEP and END -/

/-- A strand that has ended takes no further word. -/
theorem canDecode_ended {s : State} {n : Nat} (h : (strand s n).st = 7) : canDecode s n = false := by
  simp [canDecode, halted, h]

/-- A common opcode has completed: its strand has become x, the instruction is counted, and the signal of its word has arrived. -/
def commonDone (s : State) (n : Nat) (x : Strand) : State :=
  applySignals (countDone (setStrand s n x) n) (wordSignal n (strand s n).word)

theorem countDone_knl (s : State) (n : Nat) : (countDone s n).knl = s.knl := by
  unfold countDone
  repeat' split
  all_goals rfl

section
variable {s : State} {n : Nat} (x : Strand) (hsig : ∀ g ∈ wordSignal n (strand s n).word, token s g.tok + g.inc ≤ 65535)
include hsig

/-- Where its signal stays within 65,535, a common opcode changes the strands by its own alone, and the tokens by the signal. -/
theorem commonDone_eq : commonDone s n x =
    let v := countDone (setStrand s n x) n
    { v with str := { v.str with tok := (applySignals s (wordSignal n (strand s n).word)).str.tok } } :=
  applySignals_word (by rw [countDone_str]; rfl) hsig

theorem commonDone_strands : (commonDone s n x).str.strands = (setStrand s n x).str.strands := by
  have hcount := congrArg Str.strands (countDone_str (setStrand s n x) n)
  rw [commonDone_eq x hsig]
  exact hcount

theorem commonDone_knl : (commonDone s n x).knl = s.knl := by
  rw [commonDone_eq x hsig]
  exact countDone_knl ..

theorem strand_commonDone_same (hn : n < 43) : strand (commonDone s n x) n = x :=
  (strand_congr (commonDone_strands x hsig) n).trans (strand_setStrand_same s hn x)

theorem strand_commonDone_other {m : Nat} (hm : m ≠ n) : strand (commonDone s n x) m = strand s m :=
  (strand_congr (commonDone_strands x hsig) m).trans (strand_setStrand_other s hm x)

theorem commonDone_tok : (commonDone s n x).str.tok = (applySignals s (wordSignal n (strand s n).word)).str.tok := by
  rw [commonDone_eq x hsig]

theorem img_commonDone : img (commonDone s n x) = img s := by
  have hcount := congrArg Str.image (countDone_str (setStrand s n x) n)
  rw [commonDone_eq x hsig]
  exact congrArg (Option.getD · []) hcount

end

theorem OnlyEnding.sys {s t : State} (h : OnlyEnding s t) : t.sys = s.sys := by rw [h]

theorem onlyEnding_commonDone {s : State} (h : s.die ≠ .off) (n : Nat) (x : Strand) : OnlyEnding s (commonDone s n x) := by
  have hcount := (onlyEnding_setStrand s n x).trans (onlyEnding_countDone (setStrand s n x) n)
  exact hcount.trans (onlyEnding_applySignals (by rwa [hcount.die]) _)

/-! ## The end of the code (R266) -/

theorem ranPast_past {s : State} {n i : Nat} (h : i + 1 = codeCount (img s) n) :
    ranPast s n i = raise (stopStrand s n) 0x0B050304 .jobEnding := if_pos h

theorem ranPast_tok (s : State) (n i : Nat) : (ranPast s n i).str.tok = s.str.tok := by
  unfold ranPast
  split
  · rw [raise_str]; rfl
  · rfl

theorem strand_ranPast_other (s : State) {n m : Nat} (h : m ≠ n) (i : Nat) : strand (ranPast s n i) m = strand s m := by
  unfold ranPast
  split
  · exact (strand_congr (congrArg Str.strands (raise_str ..)) m).trans (strand_setStrand_other s h _)
  · rfl

/-! ## Each common opcode -/

/-- The strand of a NOP that has completed: it goes on to the next word. -/
def afterNop (x : Strand) : Strand := { x with index := x.index + 1, phase := .fetch, st := 1 }

section
variable {s : State} {n : Fin 43} (hsig : ∀ g ∈ wordSignal n (strand s n).word, token s g.tok + g.inc ≤ 65535)
include hsig

theorem nop_completes (hb : begun s n 0x00 = true) (hfree : unitFree s n = true) : Runs (.nop n) s fun t =>
    ((strand s n).index.toNat + 1 ≠ codeCount (img s) n → strand t n = afterNop (strand s n) ∧ t.knl = s.knl) ∧
    ((strand s n).index.toNat + 1 = codeCount (img s) n →
      strand t n = { afterNop (strand s n) with st := 8 } ∧ OnItsWay t 0x0B050304 .jobEnding [] s.sys.drill) ∧
    (∀ m, m ≠ n.val → strand t m = strand s m) ∧ t.str.tok = (applySignals s (wordSignal n (strand s n).word)).str.tok ∧
    OnlyEnding s t := by
  let u := commonDone s n (afterNop (strand s n))
  have hnop : nopStrand s n = ranPast u n (strand s n).index.toNat := by
    simp only [nopStrand, hb, hfree, Bool.and_self, if_true]
    rfl
  have hdie := running_released (begun_running hb)
  have hending : OnlyEnding s u := onlyEnding_commonDone hdie n _
  have hreleased : u.die ≠ .off := hending.die ▸ hdie
  have hstrand : strand u n = afterNop (strand s n) := strand_commonDone_same _ hsig n.isLt
  refine ⟨_, congrArg Host.Outcome.next hnop, fun hmore => ?more, fun hlast => ?last, fun m hm => ?_, ?_, ?_⟩
  case more =>
    rw [ranPast_inside (by rwa [img_commonDone _ hsig])]
    exact ⟨hstrand, commonDone_knl _ hsig⟩
  case last =>
    rw [ranPast_past (by rwa [img_commonDone _ hsig])]
    refine ⟨?_, ?_⟩
    · rw [strand_congr (congrArg Str.strands (raise_str ..)), ← hstrand]
      exact strand_setStrand_same u n.isLt _
    · rw [← hending.sys]
      exact raise_onItsWay (s := stopStrand u n) hreleased _ _ _
  · rw [strand_ranPast_other u hm, strand_commonDone_other _ hsig hm]
  · rw [ranPast_tok, commonDone_tok _ hsig]
  · exact hending.trans (onlyEnding_ranPast hreleased _ _)

theorem end_completes (hb : begun s n 0x02 = true) (hfree : unitFree s n = true) : Runs (.endStrand n) s fun t =>
    strand t n = { strand s n with st := 7 } ∧ (∀ m, m ≠ n.val → strand t m = strand s m) ∧ canDecode t n = false ∧
    t.str.tok = (applySignals s (wordSignal n (strand s n).word)).str.tok ∧ OnlyEnding s t ∧ t.knl = s.knl := by
  have hend : endStrand s n = commonDone s n { strand s n with st := 7 } := by
    simp only [endStrand, hb, hfree, Bool.and_self, if_true]
    rfl
  have hstrand := strand_commonDone_same { strand s n with st := 7 } hsig n.isLt
  refine ⟨_, congrArg Host.Outcome.next hend, hstrand, fun m hm => strand_commonDone_other _ hsig hm, ?_, commonDone_tok _ hsig,
    onlyEnding_commonDone (running_released (begun_running hb)) n _, commonDone_knl _ hsig⟩
  exact canDecode_ended (congrArg Strand.st hstrand)

end

theorem step_halts {s : State} {n : Fin 43} (hb : begun s n 0x01 = true) :
    exec (.stepMarker n) s = .next (setStrand s n { strand s n with st := 6 }) :=
  congrArg Host.Outcome.next (if_pos hb)

/-- Settles O14: decode by whether the word passes Table 7-3; NOP, STEP and END by what each leaves its strand. -/
theorem decodeAndCommonOpcodes : Obligations.DecodeAndCommonOpcodes := by
  refine ⟨fun s n h => ⟨fun hc => ?passes, fun code hc => decode_refuses h hc⟩,
    fun s n hsig => ⟨fun hb hfree => nop_completes hsig hb hfree, fun hb => ?step, fun hb hfree => ?ends⟩⟩
  case passes =>
    exact ⟨_, congrArg Host.Outcome.next (instructionDecode_passes h hc), strand_setStrand_same s n.isLt _,
      fun m hm => strand_setStrand_other s hm _, rfl⟩
  case step =>
    exact ⟨_, step_halts hb, strand_setStrand_same s n.isLt _, fun m hm => strand_setStrand_other s hm _, rfl⟩
  case ends =>
    refine runs_imp (end_completes hsig hb hfree) fun t ⟨hown, hother, hdecode, htok, hending, hknl⟩ => ⟨hown, hother, hdecode, htok, ?_⟩
    rw [OnlyEnding, hknl] at hending
    exact hending

end Sys2Proof.Machine
end

section
/-!
SUPPORT. COPY to a region of HBM that crosses address 2^40: O24 as stated does not hold.

A location holds 40 address bits (R272), so a row of the destination that begins at address 2^40 is written at address 0. `fetchDescOk` asks
only that the region ends within HBM_FOOTPRINT, a field of 64 bits. A load keeps that field below 2^40 (R241), but the statement speaks of
every canonical state and bounds it nowhere. Under a footprint above 2^40 such a row is written outside the bytes from DST to DST + len, which
the statement says are the only ones that a COPY writes.
-/
namespace Sys2Proof.Machine

/-- A Fetch engine's instruction may complete in a running job once every block that it reads verifies (R200, R300). -/
theorem canComplete_fetch {s : State} (f : Fin 16) :
    canComplete s (f + 2) = (running s && !idle s (f + 2) && !(strand s (f + 2)).dead && !creditHeld s (f + 2) &&
      fetchVerifies s (f + 2) (oldestWord s (f + 2))) := by
  have hframe : ¬f.val + 2 = 0 := by omega
  have hedge : ¬f.val + 2 = 1 := by omega
  have hfetch : f.val + 2 ≤ 17 := by omega
  simp only [canComplete, hframe, hedge, hfetch, if_true, if_false]

/-! ## The state -/

/-- The location of the source: two rows of 64 bytes in HBM. -/
def crossSrc : Nat := 0x10000

/-- The location of the destination: its second row begins at address 2^40. -/
def crossDst : Nat := 2 ^ 40 - 64

/-- A copy descriptor (Table 7-11) of 2 rows of 64 bytes, at pitches of 64 bytes, without auxiliary bytes. -/
def crossDesc : Bytes :=
  natLE 8 crossSrc ++ natLE 8 crossDst ++ natLE 4 64 ++ natLE 4 2 ++ natLE 4 64 ++ natLE 4 64 ++ natLE 8 locNone ++ zeros 24

/-- COPY. -/
def crossWord : BitVec 128 := BitVec.ofNat 128 (0x10 * 2 ^ 120)

/-- The device of `wideJob`, whose footprint is 2^40 + 64 bytes and whose HBM holds a 1 at address 0, with the COPY in flight at the first
Fetch engine. -/
def crossState : State := setStrand wideJob 2 { st := 1, inflight := [(0, crossWord)], desc := crossDesc }

/-- The state in which that COPY has completed. -/
def crossDone : State := instructionComplete crossState [(fetchStrand 0, true)]

theorem wOp_crossWord : wOp crossWord = 0x10 := by decide

theorem crossDesc_fields : cdSrc crossDesc = crossSrc ∧ cdDst crossDesc = crossDst ∧ cdRow crossDesc = 64 ∧ cdRows crossDesc = 2 ∧
    cdSrcPitch crossDesc = 64 ∧ cdDstPitch crossDesc = 64 ∧ cdAux crossDesc = locNone := by decide

theorem strand_crossState : strand crossState 2 = { st := 1, inflight := [(0, crossWord)], desc := crossDesc } :=
  strand_setStrand_same _ (by decide) _

theorem inflight_crossState : (strand crossState 2).inflight = [(0, crossWord)] := congrArg Strand.inflight strand_crossState

theorem oldestWord_crossState : oldestWord crossState 2 = crossWord := by rw [oldestWord, inflight_crossState]; rfl

/-! ## The statement's hypotheses -/

theorem canonical_crossState : Canonical crossState :=
  (canonical_setStrand _ _ _).mpr { canonical_reset with hbm := rfl }

/-- The descriptor is sound: its regions end within the footprint, and lie apart. -/
theorem fetchDescOk_crossState : fetchDescOk crossState 0x10 crossDesc = true := by decide

/-- The blocks that the source rows touch hold zeros, and verify. -/
theorem fetchVerifies_crossState : fetchVerifies crossState 2 crossWord = true := by
  obtain ⟨hsrc, -, hrow, hrows, hpitch, -, haux⟩ := crossDesc_fields
  have hhbm : ∀ l, locBoard l = false → locVerifies crossState l 64 =
      rangeVerifies crossState.mem.hbm crossState.mem.check (locAddr l) 64 := fun l hl => by
    rw [locVerifies, hl, if_neg Bool.false_ne_true]
  have hfirst : locVerifies crossState crossSrc 64 = true :=
    (hhbm _ (by decide)).trans (rangeVerifies_unlisted (by decide) (by decide))
  have hsecond : locVerifies crossState (crossSrc + 64) 64 = true :=
    (hhbm _ (by decide)).trans (rangeVerifies_unlisted (by decide) (by decide))
  simp [fetchVerifies, wOp_crossWord, strand_crossState, hsrc, hrow, hrows, hpitch, haux, rowsVerify, List.range_succ, locAdd, hfirst, hsecond]

theorem canComplete_crossState : canComplete crossState 2 = true := by
  refine (canComplete_fetch (s := crossState) 0).trans ?_
  simp only [Fin.val_zero, Nat.zero_add, oldestWord_crossState, fetchVerifies_crossState, idle, strand_crossState]
  rfl

theorem ends_crossState : Ends crossState 2 crossWord := ⟨canComplete_crossState, 0, [], inflight_crossState⟩

/-! ## The byte at address 0 -/

/-- A write to a location of HBM writes HBM at its address. -/
theorem hbm_locWrite {l : Nat} (hl : locBoard l = false) (s : State) (b : Bytes) :
    (locWrite s l b).mem.hbm = mwrite s.mem.hbm (locAddr l) b := by
  obtain ⟨g, p, h⟩ := hbmWrite_eq s (locAddr l) b
  rw [locWrite, hl, if_neg Bool.false_ne_true, h]
  rfl

/-- The address of the destination's second row has wrapped. -/
theorem crossDst_second : locBoard (crossDst + 64) = false ∧ locAddr (crossDst + 64) = 0 := by decide

/-- The COPY writes two rows of zeros. -/
theorem unitComplete_crossState :
    unitComplete crossState 2 crossWord = locWrite (locWrite crossState crossDst (zeros 64)) (crossDst + 64) (zeros 64) := by
  obtain ⟨hsrc, hdst, hrow, hrows, hspitch, hdpitch, -⟩ := crossDesc_fields
  have hunit : unitComplete crossState 2 crossWord = fetchComplete crossState 2 crossWord := rfl
  have hread : readRows crossState crossSrc 64 64 2 = zeros 64 ++ zeros 64 := by
    have hfirst : locRead crossState crossSrc 64 = zeros 64 := mread_unlisted (by decide)
    have hsecond : locRead crossState (crossSrc + 64) 64 = zeros 64 := mread_unlisted (by decide)
    simp [readRows, List.range_succ, locAdd, hfirst, hsecond]
  have hrow0 : (zeros 64 ++ zeros 64).take 64 = zeros 64 := List.take_left' (zeros_length 64)
  have hrow1 : ((zeros 64 ++ zeros 64).drop 64).take 64 = zeros 64 := by
    rw [List.drop_left' (zeros_length 64), List.take_of_length_le (zeros_length 64).le]
  simp only [hunit, fetchComplete, wOp_crossWord, strand_crossState, hsrc, hdst, hrow, hrows, hspitch, hdpitch, hread, writeRows, locAdd]
  simp [List.range_succ, hrow0, hrow1]

/-- A 1 stood at address 0. -/
theorem mget_crossState : mget crossState.mem.hbm 0 = 1 := by decide

theorem OnlyEnding.mem {s t : State} (h : OnlyEnding s t) : t.mem = s.mem := by rw [h]

theorem mem_crossDone : crossDone.mem = (unitComplete crossState 2 crossWord).mem := by
  have hkeeps := (unitKeeps_locWrite crossState crossDst (zeros 64)).trans (unitKeeps_locWrite _ (crossDst + 64) (zeros 64))
  have hreleased : (unitComplete crossState 2 crossWord).die ≠ .off := by
    rw [unitComplete_crossState]
    exact hkeeps.released (running_released (canComplete_running canComplete_crossState))
  rw [crossDone, instructionComplete_one (n := fetchStrand 0) canComplete_crossState inflight_crossState]
  exact (onlyEnding_end hreleased (fetchStrand 0) _ _ 0).mem

/-- After the COPY a 0 stands there. -/
theorem mget_crossDone : mget crossDone.mem.hbm 0 = 0 := by
  obtain ⟨hhbm, haddr⟩ := crossDst_second
  have hrow : (locWrite crossState crossDst (zeros 64)).mem.hbm.wf = true := (canonical_crossState.locWrite _ _).hbm
  have hfirst : 0 < (zeros 64).length := by rw [zeros_length]; decide
  rw [mem_crossDone, unitComplete_crossState, hbm_locWrite hhbm, haddr]
  exact (mget_mwrite_inside (zeros 64) hrow 0 0 hfirst).trans (List.getElem_replicate hfirst)

/-- Refutes O24: in `crossState` the COPY's destination begins at address 2^40 - 64, and its second row overwrites address 0. -/
theorem not_fetchInstructions : ¬ Obligations.FetchInstructions := by
  rintro ⟨hcopy, -, -⟩
  obtain ⟨-, hdst, -⟩ := crossDesc_fields
  have hdesc : (strand crossState ((0 : Fin 16) + 2)).desc = crossDesc := congrArg Strand.desc strand_crossState
  obtain ⟨t, hrun, -, hbeside, -⟩ := (hcopy crossState 0 canonical_crossState).2 crossWord ends_crossState wOp_crossWord
    (hdesc ▸ fetchDescOk_crossState)
  obtain rfl : crossDone = t := Host.Outcome.next.inj hrun
  rw [hdesc, hdst] at hbeside
  obtain ⟨-, hkept⟩ := hbeside 0 (.inl (by decide))
  rw [mget_crossState, mget_crossDone] at hkept
  exact absurd hkept (by decide)

end Sys2Proof.Machine
end

section
/-!
SUPPORT. Check values under writes (R298, R299): CRC-32C of a difference, the block that a write leaves, and the check values of every
block that the write touches. O7 is assembled from them.
-/
namespace Sys2Proof.Machine

/-! ## CRC-32C of a difference -/

/-- A bit of the CRC shifts, and adds the polynomial where the bit shifted out is 1. -/
theorem crcBit_eq (c : BitVec 32) : crcBit c = (c >>> 1) ^^^ (if c.getLsbD 0 = true then 0x82F63B78#32 else 0) := by
  rw [crcBit, BitVec.and_one_eq_setWidth_ofBool_getLsbD]
  cases c.getLsbD 0 <;> simp

/-- A word chosen by the sum of two bits is the sum of what each chooses. -/
theorem ite_bne_xor (x y : Bool) (p : BitVec 32) :
    (if (x ^^ y) = true then p else 0) = (if x = true then p else 0) ^^^ (if y = true then p else 0) := by
  cases x <;> cases y <;> simp

theorem crcBit_xor (c d : BitVec 32) : crcBit (c ^^^ d) = crcBit c ^^^ crcBit d := by
  simp only [crcBit_eq, BitVec.ushiftRight_xor_distrib, BitVec.getLsbD_xor, ite_bne_xor]
  ac_rfl

theorem crcByte_xor (c d : BitVec 32) (b e : Byte) : crcByte (c ^^^ d) (b ^^^ e) = crcByte c b ^^^ crcByte d e := by
  have hin : (c ^^^ d) ^^^ (b ^^^ e).setWidth 32 = (c ^^^ b.setWidth 32) ^^^ (d ^^^ e.setWidth 32) := by
    rw [BitVec.setWidth_xor]
    ac_rfl
  simp only [crcByte, hin, crcBit_xor]

theorem foldl_crcByte_xor : (a d : Bytes) → a.length = d.length → (x y : BitVec 32) →
    (xorBytes a d).foldl crcByte (x ^^^ y) = a.foldl crcByte x ^^^ d.foldl crcByte y
  | [], [], _, _, _ => rfl
  | a :: as, d :: ds, h, x, y => by
    have ih := foldl_crcByte_xor as ds (by simpa using h) (crcByte x a) (crcByte y d)
    rwa [← crcByte_xor] at ih

theorem xorBytes_zeros (a : Bytes) : xorBytes a (zeros a.length) = a :=
  List.ext_getElem (by simp [xorBytes_length, zeros_length]) fun i _ _ => by simp [xorBytes, zeros]

/-- The check value of a string and a difference: that of the string, of the difference, and of as many zeros. -/
theorem crc32c_xorBytes {a d : Bytes} (h : a.length = d.length) :
    crc32c (xorBytes a d) = crc32c a ^^^ crc32c d ^^^ crc32c (zeros a.length) := by
  have hlen : (xorBytes a d).length = a.length := by rw [xorBytes_length, ← h, Nat.min_self]
  have hxor (f : BitVec 32) : f ^^^ f ^^^ f = f := by rw [BitVec.xor_self, BitVec.zero_xor]
  have hsum (f : BitVec 32) : (xorBytes a d).foldl crcByte f =
      a.foldl crcByte f ^^^ d.foldl crcByte f ^^^ (zeros a.length).foldl crcByte f := by
    have hzero := xorBytes_zeros (xorBytes a d)
    rw [hlen] at hzero
    rw [← foldl_crcByte_xor a d h, ← foldl_crcByte_xor _ _ (by rw [hlen, zeros_length]), hzero, hxor]
  have hfinal (p q r f : BitVec 32) : p ^^^ q ^^^ r ^^^ f = p ^^^ f ^^^ (q ^^^ f) ^^^ (r ^^^ f) := by
    rw [← congrArg (p ^^^ q ^^^ r ^^^ ·) (hxor f)]
    ac_rfl
  rw [crc32c, hsum]
  exact hfinal ..

/-! ## The check value of a changed block -/

theorem xorBytes_comm (a b : Bytes) : xorBytes a b = xorBytes b a := List.zipWith_comm_of_comm BitVec.xor_comm

theorem xorBytes_append {a b : Bytes} (h : a.length = b.length) (a' b' : Bytes) :
    xorBytes (a ++ a') (b ++ b') = xorBytes a b ++ xorBytes a' b' := List.zipWith_append h

/-- A string and its difference to another of its length give the other. -/
theorem xorBytes_xorBytes_left {a b : Bytes} (h : a.length = b.length) : xorBytes a (xorBytes a b) = b := by
  rw [xorBytes_comm a b, xorBytes_comm a]
  exact xorBytes_xorBytes b a h.ge

/-- R299: from a block's check value, the part that changes and what it becomes, `newCheck` gives the new block's. -/
theorem newCheck_crc32c {p old new q : Bytes} (hlen : old.length = new.length) (hblock : p.length + new.length + q.length = blockBytes) :
    newCheck (crc32c (p ++ (old ++ q))) p.length old new = crc32c (p ++ (new ++ q)) := by
  unfold newCheck
  split
  case isTrue h =>
    have hp : p = [] := List.length_eq_zero_iff.mp (by omega)
    have hq : q = [] := List.length_eq_zero_iff.mp (by omega)
    rw [hp, hq, List.nil_append, List.append_nil]
  case isFalse h =>
    have hxor : xorBytes (p ++ (old ++ q)) (zeros p.length ++ (xorBytes old new ++ zeros q.length)) = p ++ (new ++ q) := by
      rw [xorBytes_append (zeros_length _).symm, xorBytes_append (by rw [xorBytes_length, hlen, Nat.min_self]), xorBytes_zeros,
        xorBytes_zeros, xorBytes_xorBytes_left hlen]
    have hlength : (p ++ (old ++ q)).length = blockBytes := by simp only [List.length_append]; omega
    rw [show blockBytes - p.length - new.length = q.length by omega, zeroCheck, List.append_assoc, ← hxor, crc32c_xorBytes, hlength]
    simp only [List.length_append, zeros_length, xorBytes_length]
    omega

/-! ## The bytes of a block after a write -/

theorem mread_add (m : Mem) : (n k a : Nat) → mread m a (n + k) = mread m a n ++ mread m (a + n) k
  | 0, k, a => by rw [Nat.zero_add]; rfl
  | n + 1, k, a => by
    rw [show n + 1 + k = n + k + 1 by omega, mread, mread, mread_add m n k (a + 1), show a + 1 + n = a + (n + 1) by omega]
    rfl

/-- Bytes of a written string, read from its inside. -/
theorem mread_mwrite_inside {m : Mem} (h : m.wf = true) (a i n : Nat) {b : Bytes} (hn : i + n ≤ b.length) :
    mread (mwrite m a b) (a + i) n = (b.drop i).take n := by
  have hall := mread_mwrite b h a
  rw [show b.length = i + (n + (b.length - i - n)) by omega, mread_add, mread_add] at hall
  conv_rhs => rw [← hall, List.drop_left' (mread_length _ _ _), List.take_left' (mread_length _ _ _)]

/-- Bytes that a written string does not reach read as before. -/
theorem mread_mwrite_outside {m : Mem} {a x n : Nat} {b : Bytes} (h : x + n ≤ a ∨ a + b.length ≤ x) :
    mread (mwrite m a b) x n = mread m x n :=
  mread_congr n x fun y h1 h2 => mget_mwrite_outside b m a y (by omega)

/-- Where a write of n bytes at a meets block k: the offset in the block, the offset in the string, and how many bytes follow in the block. -/
theorem write_meets_block {a n k : Nat} (hn : 0 < n) (h1 : a / blockBytes ≤ k) (h2 : k ≤ (a + n - 1) / blockBytes) :
    ∃ o i l r, max a (blockBytes * k) = blockBytes * k + o ∧ blockBytes * k + o = a + i ∧
      min (blockBytes * (k + 1) - (blockBytes * k + o)) (n - i) = l ∧ blockBytes = o + (l + r) ∧ i + l ≤ n ∧ (i = 0 ∨ o = 0) ∧
      (i + l = n ∨ r = 0) := by
  simp only [blockBytes] at *
  obtain ⟨o, ho⟩ : ∃ o, max a (2048 * k) = 2048 * k + o := ⟨max a (2048 * k) - 2048 * k, by omega⟩
  obtain ⟨i, hi⟩ : ∃ i, 2048 * k + o = a + i := ⟨2048 * k + o - a, by omega⟩
  obtain ⟨l, hl⟩ : ∃ l, min (2048 * (k + 1) - (2048 * k + o)) (n - i) = l := ⟨_, rfl⟩
  exact ⟨o, i, l, 2048 - o - l, ho, hi, hl, by omega, by omega, by omega, by omega⟩

/-- R299: the check value that a write gives a block it touches is that of the block's bytes after it. -/
theorem newCheck_mwrite {m : Mem} (hm : m.wf = true) {a k : Nat} {b : Bytes} (hb : b ≠ []) (h1 : a / blockBytes ≤ k)
    (h2 : k ≤ (a + b.length - 1) / blockBytes) :
    let lo := max a (blockBytes * k)
    let new := (b.drop (lo - a)).take (blockBytes * (k + 1) - lo)
    newCheck (crc32c (mread m (blockBytes * k) blockBytes)) (lo - blockBytes * k) (mread m lo new.length) new =
      crc32c (mread (mwrite m a b) (blockBytes * k) blockBytes) := by
  obtain ⟨o, i, l, r, hlo, hi, hl, hblock, hin, hbegin, hend⟩ := write_meets_block (List.length_pos_iff.mpr hb) h1 h2
  simp only [hlo, Nat.add_sub_cancel_left]
  rw [show blockBytes * k + o - a = i by omega]
  obtain ⟨new, hnew⟩ : ∃ new, new = (b.drop i).take (blockBytes * (k + 1) - (blockBytes * k + o)) := ⟨_, rfl⟩
  obtain rfl : new.length = l := by rw [hnew, List.length_take, List.length_drop, hl]
  rw [← hnew]
  have hmid : mread (mwrite m a b) (blockBytes * k + o) new.length = new := by
    rw [hi, mread_mwrite_inside hm a i _ hin]
    exact (List.prefix_iff_eq_take.mp (hnew ▸ List.take_prefix _ _)).symm
  have hbefore : mread (mwrite m a b) (blockBytes * k) o = mread m (blockBytes * k) o := by
    rcases hbegin with rfl | rfl
    · exact mread_mwrite_outside (by omega)
    · rfl
  have hafter : mread (mwrite m a b) (blockBytes * k + o + new.length) r = mread m (blockBytes * k + o + new.length) r := by
    rcases hend with h | rfl
    · exact mread_mwrite_outside (by omega)
    · rfl
  have hold := newCheck_crc32c (p := mread m (blockBytes * k) o) (old := mread m (blockBytes * k + o) new.length) (new := new)
    (q := mread m (blockBytes * k + o + new.length) r) (mread_length _ _ _) (by simp only [mread_length]; omega)
  have hsplit (m' : Mem) : mread m' (blockBytes * k) blockBytes = mread m' (blockBytes * k) o ++
      (mread m' (blockBytes * k + o) new.length ++ mread m' (blockBytes * k + o + new.length) r) := by
    rw [← mread_add, ← mread_add, ← hblock]
  rw [hsplit, hsplit, hbefore, hmid, hafter, ← hold, mread_length]

/-! ## The check values that a write leaves -/

theorem srising_checkWrite (m : Mem) (a : Nat) (b : Bytes) : (n k : Nat) → {c : SMap Word} → srising 0 c = true →
    srising 0 (checkWrite m a b n k c) = true
  | 0, _, _, h => h
  | n + 1, k, _, h => srising_checkWrite m a b n (k + 1) (srising_ssetD h _ k _)

/-- A block that the run of a write does not reach keeps its check value. -/
theorem checkAt_checkWrite_outside (m : Mem) (a : Nat) (b : Bytes) {j : Nat} : (n k : Nat) → (c : SMap Word) → (j < k ∨ k + n ≤ j) →
    checkAt (checkWrite m a b n k c) j = checkAt c j
  | 0, _, _, _ => rfl
  | n + 1, k, c, h => by
    rw [checkWrite, checkAt_checkWrite_outside m a b n (k + 1) _ (by omega)]
    exact sgetD_ssetD_other c zeroCheck (by omega) _

/-- A block that it reaches verifies after the write where it did before. -/
theorem checkAt_checkWrite_inside {m : Mem} (hm : m.wf = true) {a j : Nat} {b : Bytes} (hb : b ≠ []) (h1 : a / blockBytes ≤ j)
    (h2 : j ≤ (a + b.length - 1) / blockBytes) : (n k : Nat) → {c : SMap Word} → srising 0 c = true →
    checkAt c j = crc32c (mread m (blockBytes * j) blockBytes) → k ≤ j → j < k + n →
    checkAt (checkWrite m a b n k c) j = crc32c (mread (mwrite m a b) (blockBytes * j) blockBytes)
  | 0, k, _, _, _, hk, hn => by omega
  | n + 1, k, c, hc, hj, hk, hn => by
    rw [checkWrite]
    rcases Nat.eq_or_lt_of_le hk with rfl | hlt
    · rw [checkAt_checkWrite_outside m a b n (k + 1) _ (by omega), checkAt, sgetD_ssetD_same hc, hj]
      exact newCheck_mwrite hm hb h1 h2
    · refine checkAt_checkWrite_inside hm hb h1 h2 n (k + 1) (srising_ssetD hc _ k _) ?_ hlt (by omega)
      rw [checkAt, sgetD_ssetD_other c zeroCheck (by omega)]
      exact hj

theorem blockVerifies_iff (m : Mem) (c : SMap Word) (k : Nat) :
    blockVerifies m c k = true ↔ checkAt c k = crc32c (mread m (blockBytes * k) blockBytes) := by rw [blockVerifies, beq_iff_eq]

/-- Settles O7: a block that the write does not touch keeps its bytes and its check value; one that it touches gets the check value of what
it then holds. -/
theorem checksFollowWrites : Obligations.ChecksFollowWrites := by
  intro m c a b hm hc hver
  simp only [blockVerifies_iff] at hver ⊢
  by_cases hb : b = []
  · rw [hb]
    exact ⟨hc, hver⟩
  · have hrun : checksAfter m c a b = checkWrite m a b ((a + b.length - 1) / blockBytes - a / blockBytes + 1) (a / blockBytes) c := by
      rw [checksAfter, if_neg (by rwa [List.isEmpty_iff])]
    have hle : a / blockBytes ≤ (a + b.length - 1) / blockBytes :=
      Nat.div_le_div_right (by have := List.length_pos_iff.mpr hb; omega)
    rw [hrun]
    refine ⟨srising_checkWrite m a b _ _ hc, fun k => ?_⟩
    by_cases hk : a / blockBytes ≤ k ∧ k ≤ (a + b.length - 1) / blockBytes
    · exact checkAt_checkWrite_inside hm hb hk.1 hk.2 _ _ hc (hver k) hk.1 (by omega)
    · rw [checkAt_checkWrite_outside m a b _ _ c (by omega), hver k, mread_mwrite_outside]
      simp only [blockBytes] at hk ⊢
      omega

end Sys2Proof.Machine
end

section
/-!
SUPPORT. The memories of the machine: what every operation that writes none of them leaves as they are.
-/
namespace Sys2Proof.Machine

/-- What the memories, the norm store, the token counts and the check values of a state hold. -/
@[ext] structure Memories where
  hbm : Mem
  hbmCheck : SMap Word
  board : Mem
  boardCheck : SMap Word
  locals : Vector Mem 16
  norm : SMap NormEntry
  mirror : Option Mirror
  tok : SMap (BitVec 16)

/-- The memories of a state. -/
def State.memories (s : State) : Memories :=
  ⟨s.mem.hbm, s.mem.check, s.brd.mem, s.brd.check, s.rod.mem, s.rod.norm, s.snp.mirror, s.str.tok⟩

@[simp] theorem memories_mk (sys : Sys) (die : Die) (knl : Knl) (frm : Frm) (edg : Edg) (rod : Rod) (str : Str) (ld : Load) (mem : MemS)
    (brd : Brd) (lead : LeadS) (col : Col) (tim : Tim) (tet : Tet) (snp : Snp) (gov : Gov) (sec : Sec) (shp : Shp) (tly : Tly) (boot : Boot)
    (free : Nat) (pending : List Instr) :
    (State.mk sys die knl frm edg rod str ld mem brd lead col tim tet snp gov sec shp tly boot free pending).memories =
      ⟨mem.hbm, mem.check, brd.mem, brd.check, rod.mem, rod.norm, snp.mirror, str.tok⟩ := by rfl

@[simp] theorem memories_eta (s : State) :
    Memories.mk s.mem.hbm s.mem.check s.brd.mem s.brd.check s.rod.mem s.rod.norm s.snp.mirror s.str.tok = s.memories := by rfl

@[simp] theorem setStrips_memories (s : State) (m : BitVec 16) : (setStrips s m).memories = s.memories := by rfl
@[simp] theorem setStrand_memories (s : State) (n : Nat) (x : Strand) : (setStrand s n x).memories = s.memories := by rfl
@[simp] theorem setStrandSt_memories (s : State) (n : Nat) (st : BitVec 4) : (setStrandSt s n st).memories = s.memories := by rfl
@[simp] theorem stopStrand_memories (s : State) (n : Nat) : (stopStrand s n).memories = s.memories := by rfl
@[simp] theorem issueStrand_memories (s : State) (n : Nat) : (issueStrand s n).memories = s.memories := by rfl
@[simp] theorem setRing_memories (s : State) (r : Nat) (x : Ring) : (setRing s r x).memories = s.memories := by rfl
@[simp] theorem produce_memories (s : State) (r : Nat) (l : SegLayout) : (produce s r l).memories = s.memories := by rfl
@[simp] theorem release_memories (s : State) (r : Nat) : (release s r).memories = s.memories := by rfl
@[simp] theorem setSlot_memories (s : State) (k : Nat) (x : Slot) : (setSlot s k x).memories = s.memories := by rfl
@[simp] theorem setLead_memories (s : State) (i : Nat) (x : Lead) : (setLead s i x).memories = s.memories := by rfl
@[simp] theorem setLink_memories (s : State) (l : Nat) (x : TLink) : (setLink s l x).memories = s.memories := by rfl
@[simp] theorem setSess_memories (s : State) (l : Nat) (shp : Bool) (x : Sess) : (setSess s l shp x).memories = s.memories := by rfl
@[simp] theorem tetSend_memories (s : State) (l : Nat) (shp : Bool) (b : TBody) : (tetSend s l shp b).memories = s.memories := by rfl
@[simp] theorem respond_memories (s : State) (r : Req) (shp : Bool) (type status : Nat) (payload : Bytes) :
    (respond s r shp type status payload).memories = s.memories := by rfl
@[simp] theorem respondCode_memories (s : State) (r : Req) (shp : Bool) (type code : Nat) :
    (respondCode s r shp type code).memories = s.memories := by rfl
@[simp] theorem setEngine_memories (s : State) (e : Nat) (o : Option CollOp) : (setEngine s e o).memories = s.memories := by rfl
@[simp] theorem setEdgeOps_memories (s : State) (ops : List EdgeOp) : (setEdgeOps s ops).memories = s.memories := by rfl
@[simp] theorem setCur_memories (s : State) (op : FrameOp) : (setCur s op).memories = s.memories := by rfl
@[simp] theorem setGov_memories (s : State) (g : Gov) : (setGov s g).memories = s.memories := by rfl
@[simp] theorem setKnl_memories (s : State) (k : Knl) : (setKnl s k).memories = s.memories := by rfl
@[simp] theorem setSnp_memories (s : State) (n : Snp) (h : n.mirror = s.snp.mirror) : (setSnp s n).memories = s.memories := by
  rw [State.memories, setSnp, h, State.memories]
@[simp] theorem setShp_memories (s : State) (h : Shp) : (setShp s h).memories = s.memories := by rfl
@[simp] theorem setSec_memories (s : State) (c : Sec) : (setSec s c).memories = s.memories := by rfl
@[simp] theorem setTim_memories (s : State) (t : Tim) : (setTim s t).memories = s.memories := by rfl
@[simp] theorem setFwSlot_memories (s : State) (i : Nat) (x : FwSlot) : (setFwSlot s i x).memories = s.memories := by rfl
@[simp] theorem setRestore_memories (s : State) (x : Option Restore) : (setRestore s x).memories = s.memories := by rfl
@[simp] theorem setLaunch_memories (s : State) (l : BitVec 48) : (setLaunch s l).memories = s.memories := by rfl
@[simp] theorem setDieCursor_memories (s : State) (c : BitVec 19) : (setDieCursor s c).memories = s.memories := by rfl
@[simp] theorem setSideCursor_memories (s : State) (c : BitVec 19) : (setSideCursor s c).memories = s.memories := by rfl

/-- The memories of whichever state a condition chooses. -/
@[simp] theorem memories_ite (c : Prop) [Decidable c] (a b : State) :
    (if c then a else b).memories = if c then a.memories else b.memories :=
  apply_ite State.memories c a b

/-- A fold over a larger value leaves the memories of the state in it where each of its steps does. -/
theorem foldl_state_memories {α β : Type} {f : β → α → β} (st : β → State) (hf : ∀ r x, (st (f r x)).memories = (st r).memories)
    (xs : List α) (r : β) : (st (xs.foldl f r)).memories = (st r).memories := by
  induction xs generalizing r with
  | nil => rfl
  | cons x xs ih => rw [List.foldl_cons, ih, hf]

/-- A fold of state changes that each leave the memories leaves them. -/
@[simp] theorem foldl_memories {α : Type} {f : State → α → State} (hf : ∀ s x, (f s x).memories = s.memories) (xs : List α) (s : State) :
    (xs.foldl f s).memories = s.memories :=
  foldl_state_memories id hf xs s

/-! ## Memory, power domains and strands -/

@[simp] theorem startRamps_memories (s : State) : (startRamps s).memories = s.memories := by rfl

@[simp] theorem requestDomains_memories (s : State) (m : BitVec 50) : (requestDomains s m).memories = s.memories := by rfl

@[simp] theorem gateDomains_memories (s : State) (m : BitVec 50) : (gateDomains s m).memories = s.memories := by rfl

@[simp] theorem protectPage_memories (s : State) (a : Nat) : (protectPage s a).memories = s.memories := by
  unfold protectPage
  repeat' split
  all_goals simp

@[simp] theorem protect_memories (s : State) (a len : Nat) : (protect s a len).memories = s.memories := by simp [protect]

@[simp] theorem setHold_memories (s : State) (n : Nat) (h : BitVec 4) : (setHold s n h).memories = s.memories := by rfl

@[simp] theorem draw_memories (s : State) : (draw s).2.memories = s.memories := by rfl

/-! ## Status and sending over the Tether -/

@[simp] theorem snapshot_memories (s : State) : (snapshot s).2.memories = s.memories := by rfl

@[simp] theorem tetBulk_memories (s : State) (l : Nat) (b : TBody) : (tetBulk s l b).memories = s.memories := by rfl

@[simp] theorem notify_memories (s : State) (reason : Reason) (code : Nat) : (notify s reason code).memories = s.memories := by
  simp only [notify]
  split <;> simp

@[simp] theorem sendHeld_memories (s : State) : (sendHeld s).memories = s.memories := by
  simp only [sendHeld]
  split
  · rw [foldl_memories fun _ _ => tetSend_memories ..]
    rfl
  · rfl

/-! ## Codes and SYS_STATE -/

@[simp] theorem setEvent_memories (s : State) (u : EvUnit) (b : Nat) : (setEvent s u b).memories = s.memories := by
  unfold setEvent
  split <;> simp

@[simp] theorem countCode_memories (s : State) (code : Nat) : (countCode s code).memories = s.memories := by
  unfold countCode
  split <;> simp

@[simp] theorem storeRec_memories (s : State) (r : TRec) : (storeRec s r).memories = s.memories := by simp [storeRec]

@[simp] theorem techCode_memories (s : State) (code : Word) : (techCode s code).memories = s.memories := by rfl

@[simp] theorem shepherdRecord_memories (s : State) (code : Nat) (eff : Effect) (detail : Bytes) :
    (shepherdRecord s code eff detail).memories = s.memories := by
  simp [shepherdRecord]

@[simp] theorem raise_memories (s : State) (code : Nat) (eff : Effect) (detail : Bytes) :
    (raise s code eff detail).memories = s.memories := by
  unfold raise
  split <;> simp

@[simp] theorem raiseSev_memories (s : State) (code sev : Nat) (detail : Bytes) : (raiseSev s code sev detail).memories = s.memories := by
  unfold raiseSev
  split <;> simp

@[simp] theorem raiseAll_memories (s : State) (cs : List (Nat × Effect × Bytes)) :
    (raiseAll s cs).memories = s.memories := by simp [raiseAll]

@[simp] theorem issueFault_memories (s : State) (n : Nat) : (issueFault s n).memories = s.memories := by simp [issueFault]

@[simp] theorem refuse_memories (s : State) (n code : Nat) : (refuse s n code).memories = s.memories := by simp [refuse]

@[simp] theorem sysChange_memories (s : State) (st : DevState) (degraded drill replace : Bool) :
    (sysChange s st degraded drill replace).memories = s.memories := by
  simp [sysChange]

@[simp] theorem goState_memories (s : State) (st : DevState) : (goState s st).memories = s.memories := by simp [goState]

@[simp] theorem endDrill_memories (s : State) : (endDrill s).memories = s.memories := by simp [endDrill]

@[simp] theorem drillHandled_memories (s : State) (k : Nat) : (drillHandled s k).memories = s.memories := by simp [drillHandled]

@[simp] theorem loadResult_memories (s : State) (code detail : Nat) :
    (loadResult s code detail).memories = s.memories := by simp [loadResult]

@[simp] theorem failLoad_memories (s : State) : (failLoad s).memories = s.memories := by simp [failLoad]

/-! ## Decode, token waits, signals and the common opcodes -/

@[simp] theorem decodeFault_memories (s : State) (n op code : Nat) :
    (decodeFault s n op code).memories = s.memories := by simp [decodeFault]

@[simp] theorem instructionDecode_memories (s : State) (n : Nat) : (instructionDecode s n).memories = s.memories := by
  simp only [instructionDecode]
  repeat' split
  all_goals simp

@[simp] theorem countDone_memories (s : State) (n : Nat) : (countDone s n).memories = s.memories := by simp [countDone]

@[simp] theorem ranPast_memories (s : State) (n idx : Nat) : (ranPast s n idx).memories = s.memories := by simp [ranPast]

@[simp] theorem stepStrand_memories (s : State) (n : Nat) : (stepStrand s n).memories = s.memories := by simp [stepStrand]

/-! ## Sending on a lead, the replace request and keys -/

@[simp] theorem leadSend_memories (s : State) (i : Nat) (b : TxBody) : (leadSend s i b).memories = s.memories := by simp [leadSend]

@[simp] theorem leadSendAll_memories (s : State) (is : List Nat) (b : TxBody) : (leadSendAll s is b).memories = s.memories := by
  simp [leadSendAll]

@[simp] theorem leadRecv_memories (s : State) (i : Nat) (seq : BitVec 64) : (leadRecv s i seq).memories = s.memories := by rfl

@[simp] theorem freeBuffers_memories (s : State) (i c n : Nat) : (freeBuffers s i c n).memories = s.memories := by simp [freeBuffers]

@[simp] theorem onKept_memories (s : State) (a : Arrival) (f : State → State) (hf : ∀ t, (f t).memories = t.memories) :
    (onKept s a f).memories = s.memories := by
  simp [onKept, hf]

@[simp] theorem onLead_memories (s : State) (a : Arrival) (c : Nat) (f : State → State) (hf : ∀ t, (f t).memories = t.memories) :
    (onLead s a c f).memories = s.memories := by
  simp [onLead, hf]

@[simp] theorem linkFreed_memories (s : State) (i : Nat) : (linkFreed s i).memories = s.memories := by simp [linkFreed]

@[simp] theorem onLink_memories (s : State) (a : Arrival) (f : State → State) (hf : ∀ t, (f t).memories = t.memories) :
    (onLink s a f).memories = s.memories := by
  simp [onLink, hf]

@[simp] theorem dropLeadKeys_memories (s : State) : (dropLeadKeys s).memories = s.memories := by rfl

@[simp] theorem degrade_memories (s : State) (fresh : Bool) : (degrade s fresh).memories = s.memories := by simp [degrade]

@[simp] theorem degradeTether_memories (s : State) : (degradeTether s).memories = s.memories := by simp [degradeTether]

@[simp] theorem degradeLead_memories (s : State) : (degradeLead s).memories = s.memories := by simp [degradeLead]

/-! ## What a read captures -/

@[simp] theorem dieTouch_memories (s : State) (addr : Nat) : (dieTouch s addr).memories = s.memories := by
  unfold dieTouch
  split <;> simp

@[simp] theorem shpTouch_memories (s : State) (off : Nat) : (shpTouch s off).memories = s.memories := by
  unfold shpTouch
  split <;> simp

/-! ## Frames of a Tether link -/

@[simp] theorem onTether_memories (s : State) (l : Nat) (f : State → State) (hf : ∀ t, (f t).memories = t.memories) :
    (onTether s l f).memories = s.memories := by
  simp [onTether, hf]

@[simp] theorem addRetry_memories (s : State) (l n : Nat) : (addRetry s l n).memories = s.memories := by rfl

@[simp] theorem resendFrom_memories (s : State) (l : Nat) (shp : Bool) (seq : BitVec 64) :
    (resendFrom s l shp seq).memories = s.memories := by
  simp [resendFrom]

@[simp] theorem tetRecv_memories (s : State) (l : Nat) (shp : Bool) : (tetRecv s l shp).memories = s.memories := by rfl

@[simp] theorem moveFrame_memories (s : State) (l : Nat) (shp : Bool) (b : TBody) : (moveFrame s l shp b).memories = s.memories := by
  unfold moveFrame
  repeat' split
  all_goals simp

@[simp] theorem moveFrames_memories (s : State) (l : Nat) (shp : Bool) (fs : List (BitVec 64 × TBody)) :
    (moveFrames s l shp fs).memories = s.memories := by
  simp [moveFrames]

@[simp] theorem moveBulk_memories (s : State) (l : Nat) (bs : List TBody) : (moveBulk s l bs).memories = s.memories := by simp [moveBulk]

@[simp] theorem loseTether_memories (s : State) (l : Nat) : (loseTether s l).memories = s.memories := by simp [loseTether]

@[simp] theorem tetherFrameReject_memories (s : State) (l : Nat) (shp : Bool) (seq : BitVec 64) (tagFailed : Bool) :
    (tetherFrameReject s l shp seq tagFailed).memories = s.memories := by
  simp [tetherFrameReject]

@[simp] theorem wrongLength_memories (s : State) (l : Nat) (shp : Bool) :
    (wrongLength s l shp).memories = s.memories := by simp [wrongLength]

@[simp] theorem tetherNak_memories (s : State) (l : Nat) (shp : Bool) (seq : BitVec 64) :
    (tetherNak s l shp seq).memories = s.memories := by
  simp [tetherNak]

@[simp] theorem tetherAckTimeout_memories (s : State) (l : Nat) (shp : Bool) : (tetherAckTimeout s l shp).memories = s.memories := by
  refine onTether_memories s l _ fun t => ?_
  split
  · rfl
  · exact resendFrom_memories ..

@[simp] theorem tetherAck_memories (s : State) (l : Nat) (shp : Bool) (seq : BitVec 64) : (tetherAck s l shp seq).memories = s.memories :=
  onTether_memories s l _ fun _ => rfl

/-! ## Requests and reads -/

@[simp] theorem refuseReq_memories (s : State) (r : Req) (k : ReqKind) (code : Nat) (detail : Bytes) :
    (refuseReq s r k code detail).memories = s.memories := by
  simp [refuseReq]

@[simp] theorem done_memories (s : State) (r : Req) (k : ReqKind) (payload : Bytes) : (done s r k payload).memories = s.memories := by rfl

@[simp] theorem notAvailable_memories (s : State) (r : Req) (k : ReqKind) : (notAvailable s r k).memories = s.memories := by
  simp [notAvailable]

@[simp] theorem request_memories (s : State) (r : Req) (k : ReqKind) (f : State → State) (hf : ∀ t, (f t).memories = t.memories) :
    (request s r k f).memories = s.memories := by
  simp [request, hf]

@[simp] theorem bulk_memories (s : State) (l : Nat) (f : State → State) (hf : ∀ t, (f t).memories = t.memories) :
    (bulk s l f).memories = s.memories := by
  simp [bulk, hf]

@[simp] theorem shepherdStatus_memories (s : State) (r : Req) : (shepherdStatus s r).memories = s.memories := by simp [shepherdStatus]

@[simp] theorem statusRead_memories (s : State) (r : Req) : (statusRead s r).memories = s.memories := by simp [statusRead]

@[simp] theorem readWords_memories (file : State → Nat → Option Nat) (touch : State → Nat → State) (n : Nat) (s : State) (addr : Nat)
    (htouch : ∀ t x, (touch t x).memories = t.memories) :
    (readWords file touch n s addr).2.2.memories = s.memories := by
  induction n generalizing s addr with
  | zero => rfl
  | succ n ih =>
    simp only [readWords]
    split
    · rfl
    · simp [ih, htouch]

@[simp] theorem serveRead_memories (s : State) (r : Req) (k : ReqKind) (file : State → Nat → Option Nat) (touch : State → Nat → State)
    (addr n : Nat) (htouch : ∀ t x, (touch t x).memories = t.memories) :
    (serveRead s r k file touch addr n).memories = s.memories := by
  refine request_memories s r k _ fun t => ?_
  have ht := readWords_memories file touch n t addr htouch
  split
  · exact refuseReq_memories ..
  · split <;> rename_i h <;> rw [h] at ht <;> simpa using ht

@[simp] theorem shpFileTouch_memories (s : State) (addr : Nat) : (shpFileTouch s addr).memories = s.memories := shpTouch_memories ..

@[simp] theorem sideRead_memories (s : State) (r : Req) (addr : Nat) : (sideRead s r addr).memories = s.memories := by simp [sideRead]

@[simp] theorem reservedMessage_memories (s : State) (r : Req) (type : Nat) : (reservedMessage s r type).memories = s.memories := by
  simp [reservedMessage]

/-! ## The Edge -/

@[simp] theorem outHold_memories (s : State) (waits : Bool) : (outHold s waits).memories = s.memories := by rfl

@[simp] theorem drainBegin_memories (s : State) (op : EdgeOp) : (drainBegin s op).memories = s.memories := by
  simp only [drainBegin]
  split <;> simp

@[simp] theorem drainIssue_memories (s : State) : (drainIssue s).memories = s.memories := by
  simp only [drainIssue]
  repeat' split
  all_goals simp

@[simp] theorem drainSlotReady_memories (s : State) : (drainSlotReady s).memories = s.memories := by
  unfold drainSlotReady
  split <;> simp

@[simp] theorem edgeJob_memories (s : State) (k : DrainCnt) : (edgeJob s k).memories = s.memories := by rfl

@[simp] theorem raiseSevs_memories (s : State) (cs : List (Nat × Nat)) : (raiseSevs s cs).memories = s.memories := by simp [raiseSevs]

@[simp] theorem drainStop_memories (s : State) (op : EdgeOp) : (drainStop s op).memories = s.memories := by rfl

@[simp] theorem sweepCodes_memories (s : State) (k : DrainCnt) : (sweepCodes s k).memories = s.memories := by simp [sweepCodes]

@[simp] theorem edgeComplete_memories (s : State) : (edgeComplete s).memories = s.memories := by
  unfold edgeComplete
  repeat' split
  all_goals simp

/-! ## The Fetch engines -/

@[simp] theorem issueFetch_memories (s : State) (n : Nat) (d : Bytes) : (issueFetch s n d).memories = s.memories := by rfl

@[simp] theorem copyIssue_memories (s : State) (n : Nat) : (copyIssue s n).memories = s.memories := by simp [copyIssue]

@[simp] theorem feedIssue_memories (s : State) (n : Nat) : (feedIssue s n).memories = s.memories := by simp [feedIssue]

@[simp] theorem writeoutIssue_memories (s : State) (n : Nat) : (writeoutIssue s n).memories = s.memories := by simp [writeoutIssue]

/-! ## The Rods -/

@[simp] theorem rodsIssue_memories (s : State) (c op : Nat) (refusal : State → BitVec 128 → Option Nat) (eff : State → BitVec 128 → State)
    (heff : ∀ t x, (eff t x).memories = t.memories) :
    (rodsIssue s c op refusal eff).memories = s.memories := by
  simp only [rodsIssue]
  repeat' split
  all_goals simp [heff]

@[simp] theorem checkWritten_memories (s : State) (chk : Bool) (n : Nat) : (checkWritten s chk n).memories = s.memories := by
  simp [checkWritten]

@[simp] theorem loadIssue_memories (s : State) (c : Nat) : (loadIssue s c).memories = s.memories := by
  simp only [loadIssue]
  repeat' split
  all_goals simp

@[simp] theorem storeIssue_memories (s : State) (c : Nat) : (storeIssue s c).memories = s.memories := by simp [storeIssue]

@[simp] theorem indexCheck_memories (s : State) (idx : List Nat) (len : Nat) : (indexCheck s idx len).memories = s.memories := by
  simp [indexCheck]

@[simp] theorem gatherIssue_memories (s : State) (c : Nat) : (gatherIssue s c).memories = s.memories := by simp [gatherIssue]

@[simp] theorem setTposeReq_memories (s : State) (c : Nat) (on : Bool) : (setTposeReq s c on).memories = s.memories := by rfl

@[simp] theorem tposeIssue_memories (s : State) (c : Nat) : (tposeIssue s c).memories = s.memories := by simp [tposeIssue]

@[simp] theorem lenCheck_memories (s : State) (m : Mem) (n : Nat) (lens : List Nat) : (lenCheck s m n lens).memories = s.memories := by
  simp only [lenCheck]
  split <;> simp

@[simp] theorem normIssue_memories (s : State) (c : Nat) : (normIssue s c).memories = s.memories := by simp [normIssue]

/-! ## OPT and the ratio watch -/

@[simp] theorem optIssue_memories (s : State) (c : Nat) : (optIssue s c).memories = s.memories := by simp [optIssue]

/-! ## Loading -/

@[simp] theorem refuseLoad_memories (s : State) (r : Req) (k : ReqKind) (code : Nat) : (refuseLoad s r k code).memories = s.memories := by
  simp [refuseLoad]

@[simp] theorem loadBegin_memories (s : State) (r : Req) (jobId imageBytes : BitVec 64) :
    (loadBegin s r jobId imageBytes).memories = s.memories := by
  simp [loadBegin]

@[simp] theorem loadData_memories (s : State) (link : Nat) (offset : BitVec 64) (b : Bytes) :
    (loadData s link offset b).memories = s.memories := by
  refine bulk_memories s link _ fun t => ?_
  split
  · split
    · exact raise_memories ..
    · exact raise_memories ..
  · split
    · exact failLoad_memories ..
    · rfl

@[simp] theorem loadEnd_memories (s : State) (r : Req) : (loadEnd s r).memories = s.memories := by simp [loadEnd]

/-! ## The Frame -/

@[simp] theorem matmulIssue_memories (s : State) : (matmulIssue s).memories = s.memories := by
  simp only [matmulIssue]
  repeat' split
  all_goals simp

@[simp] theorem frameRefuse_memories (s : State) (op : FrameOp) (code : Nat) : (frameRefuse s op code).memories = s.memories := by
  simp [frameRefuse]

@[simp] theorem seatChunk_memories (s : State) (waited : Nat) : (seatChunk s waited).memories = s.memories := by
  simp only [seatChunk]
  split <;> simp

@[simp] theorem rowGroupBegin_memories (s : State) (waited : Nat) : (rowGroupBegin s waited).memories = s.memories := by
  unfold rowGroupBegin
  split <;> simp

@[simp] theorem recountStart_memories (s : State) : (recountStart s).memories = s.memories := by rfl

@[simp] theorem windowEnd_memories (s : State) : (windowEnd s).memories = s.memories := by simp [windowEnd]

@[simp] theorem tileBegins_memories (s : State) : (tileBegins s).2.memories = s.memories := by simp [tileBegins]

@[simp] theorem beginSlot_memories (s : State) (op : FrameOp) (t : TileRun) : (beginSlot s op t).memories = s.memories := by rfl

@[simp] theorem raiseTile_memories (s : State) (codes : List Nat) : (raiseTile s codes).memories = s.memories := by simp [raiseTile]

@[simp] theorem storeTile_memories (s : State) (k : Nat) (out : TileOut) : (storeTile s k out).memories = s.memories := by simp [storeTile]

@[simp] theorem streamTiles_memories (op : FrameOp) (chunk : Nat) (bseg : Bytes) (fs : List CarryFault) (ra pos : Nat) (s : State)
    (ts : List TileRun) :
    (streamTiles op chunk bseg fs ra pos s ts).2.1.memories = s.memories := by
  induction ts generalizing pos s with
  | nil => rfl
  | cons t ts ih =>
    simp only [streamTiles]
    repeat' split
    all_goals simp [ih]

@[simp] theorem clearReplay_memories (s : State) : (clearReplay s).memories = s.memories := by rfl

@[simp] theorem passDone_memories (s : State) (op : FrameOp) (tiles : List TileRun) : (passDone s op tiles).memories = s.memories := by
  simp [passDone]

@[simp] theorem passBegin_memories (s : State) (feedWait seatWait throttle : Nat) (faults : List CarryFault) :
    (passBegin s feedWait seatWait throttle faults).memories = s.memories := by
  simp only [passBegin]
  repeat' split
  all_goals simp

@[simp] theorem replayChunk_memories (op : FrameOp) (chunk : Nat) (fs : List CarryFault) (pos : Nat) (s : State) (ts : List TileRun) :
    (replayChunk op chunk fs pos s ts).2.1.memories = s.memories := by
  induction ts generalizing pos s with
  | nil => rfl
  | cons t ts ih =>
    simp only [replayChunk]
    generalize sourcePass s op false t chunk _ fs pos = out
    split
    · exact storeTile_memories ..
    · simp [ih]

@[simp] theorem replayGroup_memories (s : State) (op : FrameOp) (fs : List CarryFault) (ts : List TileRun) :
    (replayGroup s op fs ts).2.1.memories = s.memories := by
  refine foldl_state_memories (fun (r : List TileRun × State × Bool) => r.2.1) (fun r c => ?_) _ _
  split
  · rfl
  · exact replayChunk_memories ..

@[simp] theorem stepBackReplay_memories (s : State) (throttle : Nat) (faults : List CarryFault) :
    (stepBackReplay s throttle faults).memories = s.memories := by
  unfold stepBackReplay
  split
  · rfl
  · split
    · rfl
    · simp only
      split
      · rfl
      · split
        · exact (foldl_memories (fun _ _ => raise_memories ..) _ _).trans ((stopStrand_memories ..).trans (setCur_memories ..))
        · split
          · rfl
          · simp only [memories_ite, stopStrand_memories, setCur_memories, memories_mk, memories_eta, setEvent_memories, replayGroup_memories,
              ite_self]
            exact foldl_memories (fun _ _ => setSlot_memories ..) _ _

@[simp] theorem lastCarryWritten_memories (s : State) : (lastCarryWritten s).memories = s.memories := by
  unfold lastCarryWritten
  repeat' split
  all_goals try rfl
  simp only [clearReplay_memories]
  rw [foldl_memories fun _ _ => setSlot_memories ..]
  rfl

@[simp] theorem retireStrip_memories (s : State) (b : Nat) : (retireStrip s b).memories = s.memories := by simp [retireStrip]

@[simp] theorem useColumn_memories (s : State) (p o : Nat) : (useColumn s p o).memories = s.memories := by simp [useColumn]

@[simp] theorem useRow_memories (s : State) (b o : Nat) : (useRow s b o).memories = s.memories := by simp [useRow]

@[simp] theorem keepStrips_memories (s : State) (ps : List Nat) : (keepStrips s ps).memories = s.memories := by rfl

@[simp] theorem recountReplay_memories (s : State) (throttle : Nat) (faults : List CarryFault) :
    (recountReplay s throttle faults).memories = s.memories := by
  unfold recountReplay
  repeat' split
  all_goals simp

@[simp] theorem setDet_memories (s : State) (op : FrameOp) (t : SelTile) (verdict row col : Nat) (clean : BitVec 64) :
    (setDet s op t verdict row col clean).memories = s.memories := by
  simp [setDet]

@[simp] theorem spareSubstitution_memories (s : State) : (spareSubstitution s).memories = s.memories := by
  simp only [spareSubstitution]
  repeat' split
  all_goals simp

@[simp] theorem stripWake_memories (s : State) (p : Nat) : (stripWake s p).memories = s.memories := by simp [stripWake]

/-! ## Launch and round-up -/

@[simp] theorem toParent_memories (s : State) (b : TxBody) : (toParent s b).memories = s.memories := by
  unfold toParent
  split <;> simp

@[simp] theorem checkReady_memories (s : State) : (checkReady s).memories = s.memories := by simp [checkReady]

@[simp] theorem keyLead_memories (s : State) (i : Nat) : (keyLead s i).memories = s.memories := by
  unfold keyLead
  split <;> simp

@[simp] theorem acceptArm_memories (s : State) (f : LaunchFrame) (way : Option Nat) : (acceptArm s f way).memories = s.memories := by
  simp only [acceptArm, checkReady_memories]
  rw [foldl_memories fun _ _ => keyLead_memories .., leadSendAll_memories, toParent_memories, goState_memories]
  rfl

@[simp] theorem refuseLaunch_memories (s : State) (r : Req) (code : Nat) (eff : Effect) (detail : Nat) :
    (refuseLaunch s r code eff detail).memories = s.memories := by
  simp [refuseLaunch]

@[simp] theorem armAtRoot_memories (s : State) (r : Req) (f : LaunchFrame) : (armAtRoot s r f).memories = s.memories := by
  unfold armAtRoot
  split <;> simp

@[simp] theorem dropAuth_memories (s : State) : (dropAuth s).memories = s.memories := by simp [dropAuth]

@[simp] theorem ruArm_memories (s : State) (a : Arrival) (f : LaunchFrame) : (ruArm s a f).memories = s.memories := by
  refine onLead_memories s a 3 _ fun t => ?_
  split
  · exact dropAuth_memories ..
  · split <;> simp

@[simp] theorem childReport_memories (s : State) (a : Arrival) (m : RuReport) (f : State → State) (hf : ∀ t, (f t).memories = t.memories) :
    (childReport s a m f).memories = s.memories := by
  simp [childReport, hf]

@[simp] theorem childAck_memories (s : State) (i : Nat) : (childAck s i).memories = s.memories := by rfl

@[simp] theorem ruArmack_memories (s : State) (a : Arrival) (m : RuReport) : (ruArmack s a m).memories = s.memories := by simp [ruArmack]

@[simp] theorem ruReady_memories (s : State) (a : Arrival) (m : RuReport) : (ruReady s a m).memories = s.memories := by simp [ruReady]

@[simp] theorem ruCommitack_memories (s : State) (a : Arrival) (m : RuReport) : (ruCommitack s a m).memories = s.memories := by
  simp [ruCommitack]

@[simp] theorem zeroCounters_memories (s : State) : (zeroCounters s).memories = s.memories := by rfl

/-! ## Snapshots and the mirror -/

@[simp] theorem sendNode_memories (s : State) (bs : List TBody) : (sendNode s bs).memories = s.memories := by
  unfold sendNode
  split <;> simp

@[simp] theorem putGen_memories (s : State) (i : Nat) (g : Option Gen) : (putGen s i g).memories = s.memories := by simp [putGen]

@[simp] theorem checkManifest_memories (s : State) (i : Nat) (g : Gen) :
    (checkManifest s i g).memories = s.memories := by simp [checkManifest]

@[simp] theorem startMirror_memories (s : State) (g : Gen) : (startMirror s g).memories = s.memories := by
  unfold startMirror
  repeat' split
  all_goals simp

@[simp] theorem takeGeneration_memories (s : State) (w : BitVec 128) :
    (takeGeneration s w).memories = s.memories := by simp [takeGeneration]

@[simp] theorem untag_memories (s : State) : (untag s).memories = s.memories := by rfl

@[simp] theorem pagePush_memories (s : State) (page us : Nat) : (pagePush s page us).memories = s.memories := by
  unfold pagePush
  repeat' split
  all_goals simp

@[simp] theorem endShard_memories (s : State) (g : Gen) (k : Nat) : (endShard s g k).1.memories = s.memories := by
  simp only [endShard]
  split <;> simp

@[simp] theorem sendStorage_memories (s : State) (g : Gen) (p : Nat) (b : Bytes) : (sendStorage s g p b).1.memories = s.memories := by
  simp [sendStorage]

@[simp] theorem snapPageSend_memories (s : State) : (snapPageSend s).memories = s.memories := by
  unfold snapPageSend
  repeat' split
  all_goals simp

@[simp] theorem ownStored_memories (s : State) (ctx : BitVec 8) (k : Nat) : (ownStored s ctx k).memories = s.memories := by
  unfold ownStored
  split <;> simp

@[simp] theorem manifestStored_memories (s : State) (ctx : BitVec 8) : (manifestStored s ctx).memories = s.memories := by
  unfold manifestStored
  split <;> simp

@[simp] theorem storeAll_memories (s : State) (g : Gen) : (storeAll s g).memories = s.memories := by simp [storeAll]

@[simp] theorem mirrorBeginRefused_memories (s : State) (a : Arrival) : (mirrorBeginRefused s a).memories = s.memories := by
  refine onLead_memories s a 3 _ fun t => ?_
  split
  · rfl
  · simp

@[simp] theorem relayDone_memories (s : State) (a : Arrival) (ds : List (Nat × BitVec 256)) : (relayDone s a ds).memories = s.memories := by
  refine onLead_memories s a 3 _ fun t => ?_
  split
  · rfl
  · simp

@[simp] theorem pagesAcked_memories (s : State) (ps : List Nat) : (pagesAcked s ps).memories = s.memories := by
  unfold pagesAcked
  split <;> simp

/-! ## Time -/

@[simp] theorem chooseMode_memories (s : State) : (chooseMode s).memories = s.memories := by rfl

@[simp] theorem refBroken_memories (s : State) (mag : ℤ) : (refBroken s mag).memories = s.memories := by simp [refBroken]

@[simp] theorem goodEdge_memories (s : State) : (goodEdge s).memories = s.memories := by rfl

@[simp] theorem initCounter_memories (s : State) (c : BitVec 48) (f : BitVec 32) : (initCounter s c f).memories = s.memories := by rfl

@[simp] theorem applyEpoch_memories (s : State) : (applyEpoch s).memories = s.memories := by
  simp only [applyEpoch]
  repeat' split
  all_goals simp

@[simp] theorem steerRef_memories (s : State) : (steerRef s).memories = s.memories := by simp [steerRef]

@[simp] theorem frameMarkerEdge_memories (s : State) (interval : Nat) : (frameMarkerEdge s interval).memories = s.memories := by
  simp [frameMarkerEdge]

@[simp] theorem refClockAbsent_memories (s : State) : (refClockAbsent s).memories = s.memories := by simp [refClockAbsent]

@[simp] theorem markerEdgeMissing_memories (s : State) : (markerEdgeMissing s).memories = s.memories := by simp [markerEdgeMissing]

@[simp] theorem ownSource_memories (s : State) : (ownSource s).memories = s.memories := by rfl

@[simp] theorem chooseParent_memories (s : State) (heard : List (Nat × Nat × Nat)) : (chooseParent s heard).memories = s.memories := by
  simp only [chooseParent]
  repeat' split
  all_goals simp

@[simp] theorem timeAdvert_memories (s : State) (heard : List (Nat × Nat × Nat)) : (timeAdvert s heard).memories = s.memories := by
  simp [timeAdvert]

@[simp] theorem steerLead_memories (s : State) (th : ℤ) : (steerLead s th).memories = s.memories := by rfl

@[simp] theorem checkOffset_memories (s : State) (th : ℤ) : (checkOffset s th).memories = s.memories := by simp [checkOffset]

@[simp] theorem childExchange_memories (s : State) (t1 t2 t3 t4 : BitVec 48) (parentInit : Bool) :
    (childExchange s t1 t2 t3 t4 parentInit).memories = s.memories := by
  unfold childExchange
  split <;> simp

@[simp] theorem parentExchange_memories (s : State) (l : Nat) : (parentExchange s l).memories = s.memories := by simp [parentExchange]

@[simp] theorem timeExchange_memories (s : State) (x : TimeExchange) : (timeExchange s x).memories = s.memories := by
  unfold timeExchange
  split <;> simp

@[simp] theorem timeCounterWrap_memories (s : State) : (timeCounterWrap s).memories = s.memories := by simp [timeCounterWrap]

@[simp] theorem epochSubmit_memories (s : State) (hi : BitVec 32) : (epochSubmit s hi).1.memories = s.memories := by
  unfold epochSubmit
  split <;> simp

/-! ## The leads -/

@[simp] theorem unroutable_memories (s : State) (f : LeadFrame) : (unroutable s f).memories = s.memories := by simp [unroutable]

@[simp] theorem reroute_memories (s : State) (fs : List LeadFrame) : (reroute s fs).memories = s.memories := by
  refine foldl_memories (fun t f => ?_) _ _
  split <;> simp

@[simp] theorem dropLead_memories (s : State) (i : Nat) : (dropLead s i).memories = s.memories := by rfl

@[simp] theorem dropParent_memories (s : State) (i : Nat) : (dropParent s i).memories = s.memories := by simp [dropParent]

@[simp] theorem relaneComplete_memories (s : State) (i : Nat) : (relaneComplete s i).memories = s.memories := by simp [relaneComplete]

@[simp] theorem countDrop_memories (s : State) (i : Nat) (tag : Bool) (seq : BitVec 64) :
    (countDrop s i tag seq).memories = s.memories := by
  simp [countDrop]

@[simp] theorem resendAt_memories (s : State) (i : Nat) (q : Option (BitVec 64)) :
    (resendAt s i q).memories = s.memories := by simp [resendAt]

@[simp] theorem leadNak_memories (s : State) (a : Arrival) (seq : BitVec 64) : (leadNak s a seq).memories = s.memories := by simp [leadNak]

@[simp] theorem leadAckTimeout_memories (s : State) (i : Nat) : (leadAckTimeout s i).memories = s.memories := by simp [leadAckTimeout]

@[simp] theorem leadAck_memories (s : State) (a : Arrival) (seq : BitVec 64) : (leadAck s a seq).memories = s.memories := by simp [leadAck]

@[simp] theorem creditReturn_memories (s : State) (a : Arrival) (c n : Nat) : (creditReturn s a c n).memories = s.memories :=
  onLink_memories s a _ fun _ => rfl

@[simp] theorem creditStall_memories (s : State) (i c : Nat) : (creditStall s i c).memories = s.memories := by simp [creditStall]

@[simp] theorem keyConfirm_memories (s : State) (a : Arrival) (ok : Bool) :
    (keyConfirm s a ok).memories = s.memories := by simp [keyConfirm]

@[simp] theorem forward_memories (s : State) (f : LeadFrame) : (forward s f).memories = s.memories := by
  unfold forward
  split <;> simp

@[simp] theorem stopColl_memories (s : State) : (stopColl s).memories = s.memories := by rfl

@[simp] theorem discoveryMgmt_memories (s : State) (i : Nat) (p : PeerReport) : (discoveryMgmt s i p).memories = s.memories := by
  simp [discoveryMgmt]

@[simp] theorem sendDiscovery_memories (s : State) (i : Nat) : (sendDiscovery s i).memories = s.memories := by simp [sendDiscovery]

@[simp] theorem beginDiscovery_memories (s : State) : (beginDiscovery s).memories = s.memories := by simp [beginDiscovery]

@[simp] theorem bringUp_memories (s : State) (i : Nat) : (bringUp s i).memories = s.memories := by simp [bringUp]

@[simp] theorem allDown_memories (s : State) : (allDown s).memories = s.memories := by simp [allDown]

@[simp] theorem cablingCheck_memories (s : State) : (cablingCheck s).memories = s.memories := by simp [cablingCheck]

@[simp] theorem discoveryEnd_memories (s : State) : (discoveryEnd s).memories = s.memories := by simp [discoveryEnd]

/-! ## Collectives -/

@[simp] theorem collSend_memories (s : State) (op : CollOp) (l : Nat) (m : CollMsg) : (collSend s op l m).memories = s.memories := by
  simp [collSend]

@[simp] theorem elemPass_memories (s : State) (e : Nat) (op : CollOp) : (elemPass s e op).memories = s.memories := by simp [elemPass]

@[simp] theorem neighbourTimeout_memories (s : State) (e : Nat) : (neighbourTimeout s e).memories = s.memories := by
  unfold neighbourTimeout
  split <;> simp

@[simp] theorem collComplete_memories (s : State) (e : Nat) : (collComplete s e).memories = s.memories := by rfl

/-! ## The governor -/

@[simp] theorem noteShort_memories (s : State) : (noteShort s).memories = s.memories := by simp [noteShort]

@[simp] theorem govTick_memories (s : State) : (govTick s).memories = s.memories := by
  simp only [govTick]
  repeat' split
  all_goals simp

@[simp] theorem creditWait_memories (s : State) (n : Nat) (waits : Bool) :
    (creditWait s n waits).memories = s.memories := by simp [creditWait]

@[simp] theorem grantGrain_memories (s : State) (g : Grain) : (grantGrain s g).memories = s.memories := by simp [grantGrain]

@[simp] theorem grantAll_memories (s : State) (gs : List Grain) : (grantAll s gs).1.memories = s.memories := by
  induction gs generalizing s with
  | nil => rfl
  | cons g gs ih =>
    unfold grantAll
    split <;> simp [ih]

@[simp] theorem grainGrant_memories (s : State) (arrived : List Grain) :
    (grainGrant s arrived).memories = s.memories := by simp [grainGrant]

@[simp] theorem grainAged_memories (s : State) (n : Nat) : (grainAged s n).memories = s.memories := by simp [grainAged]

@[simp] theorem feedbackPeriod_memories (s : State) (measured : Nat) : (feedbackPeriod s measured).memories = s.memories := by
  simp [feedbackPeriod]

@[simp] theorem driftWindow_memories (s : State) : (driftWindow s).memories = s.memories := by simp [driftWindow]

@[simp] theorem deferAdjust_memories (s : State) : (deferAdjust s).memories = s.memories := by simp [deferAdjust]

@[simp] theorem measureCmd_memories (s : State) : (measureCmd s).1.memories = s.memories := by
  unfold measureCmd
  split <;> simp

@[simp] theorem calibrationDone_memories (s : State) (values : Vector (BitVec 32) 20) :
    (calibrationDone s values).memories = s.memories := by
  simp [calibrationDone]

@[simp] theorem setUser_memories (s : State) (ucal : Vector Word 20) (enable : Bool) : (setUser s ucal enable).memories = s.memories := by
  simp [setUser]

@[simp] theorem adoptCmd_memories (s : State) : (adoptCmd s).1.memories = s.memories := by
  unfold adoptCmd
  split <;> simp

@[simp] theorem restoreFactory_memories (s : State) : (restoreFactory s).memories = s.memories := by simp [restoreFactory]

/-! ## Memory faults and retraining -/

@[simp] theorem killStrand_memories (s : State) (n : Nat) : (killStrand s n).memories = s.memories := by simp [killStrand]

@[simp] theorem dropChannel_memories (s : State) (i : Nat) : (dropChannel s i).memories = s.memories := by rfl

@[simp] theorem checkValueReread_memories (s : State) (i row n : Nat) (ok : Bool) :
    (checkValueReread s i row n ok).memories = s.memories := by
  simp [checkValueReread]

/-! ## The Tally -/

@[simp] theorem addRecord_memories (s : State) (code : Word) (detail : Bytes) (drill : Bool) :
    (addRecord s code detail drill).memories = s.memories := by
  simp [addRecord]

@[simp] theorem beginFlush_memories (s : State) : (beginFlush s).memories = s.memories := by simp [beginFlush]

@[simp] theorem storeNow_memories (s : State) (r : State → TRec) : (storeNow s r).memories = s.memories := by simp [storeNow]

@[simp] theorem storeDropped_memories (s : State) : (storeDropped s).memories = s.memories := by simp [storeDropped]

@[simp] theorem flushNow_memories (s : State) : (flushNow s).memories = s.memories := by simp [flushNow]

@[simp] theorem clearTally_memories (s : State) : (clearTally s).memories = s.memories := by simp [clearTally]

/-! ## The Kennel -/

@[simp] theorem takeSample_memories (s : State) (code : Word) : (takeSample s code).memories = s.memories := by simp [takeSample]

@[simp] theorem preCollect_memories (s : State) (code : Word) : (preCollect s code).memories = s.memories := by simp [preCollect]

@[simp] theorem sendAbort_memories (s : State) (code : Word) : (sendAbort s code).memories = s.memories := by simp [sendAbort]

@[simp] theorem faultEndsDrill_memories (s : State) : (faultEndsDrill s).memories = s.memories := by simp [faultEndsDrill]

@[simp] theorem recordCode_memories (s : State) (r : Raised) : (recordCode s r).memories = s.memories := by simp [recordCode]

@[simp] theorem pendReset_memories (s : State) (counted : Bool) : (pendReset s counted).memories = s.memories := by simp [pendReset]

@[simp] theorem commitMarker_memories (s : State) : (commitMarker s).memories = s.memories := by rfl

@[simp] theorem freeInbox_memories (s : State) : (freeInbox s).memories = s.memories := by simp [freeInbox]

@[simp] theorem destroyJobKey_memories (s : State) : (destroyJobKey s).memories = s.memories := by simp [destroyJobKey]

@[simp] theorem teardownEnds_memories (s : State) : (teardownEnds s).memories = s.memories := by
  simp only [teardownEnds]
  repeat' split
  all_goals simp

@[simp] theorem hangCheck_memories (s : State) : (hangCheck s).memories = s.memories := by simp [hangCheck]

@[simp] theorem hangThreshold_memories (s : State) : (hangThreshold s).memories = s.memories := by simp [hangThreshold]

@[simp] theorem heartbeat_memories (s : State) (missing : List Island) : (heartbeat s missing).memories = s.memories := by simp [heartbeat]

@[simp] theorem islandStall_memories (s : State) (i : Island) (stopFailed : Bool) : (islandStall s i stopFailed).memories = s.memories := by
  simp only [islandStall]
  repeat' split
  all_goals simp

@[simp] theorem tetherIslandReset_memories (s : State) : (tetherIslandReset s).memories = s.memories := by
  unfold tetherIslandReset
  exact foldl_memories (fun t l => (addRetry_memories ..).trans (setSess_memories ..)) _ _

@[simp] theorem escalate_memories (s : State) : (escalate s).memories = s.memories := by simp [escalate]

@[simp] theorem drainCodes_memories (s : State) : (drainCodes s).memories = s.memories := by simp [drainCodes]

@[simp] theorem setBand_memories (s : State) (b : Nat) (t : BitVec 8) : (setBand s b t).memories = s.memories := by simp [setBand]

@[simp] theorem bandRise_memories (s : State) (t : BitVec 8) : (bandRise s t).memories = s.memories := by simp [bandRise]

@[simp] theorem bandFall_memories (s : State) (t : BitVec 8) : (bandFall s t).memories = s.memories := by simp [bandFall]

/-! ## Start-up -/

@[simp] theorem newChallenge_memories (s : State) : (newChallenge s).memories = s.memories := by rfl

@[simp] theorem runFw_memories (s : State) (kind : Nat) (b : Bool) : (runFw s kind b).memories = s.memories := by rfl

@[simp] theorem imageRefused_memories (s : State) : (imageRefused s).memories = s.memories := by simp [imageRefused]

@[simp] theorem bootFw_memories (s : State) (kind : Nat) : (bootFw s kind).1.memories = s.memories := by
  simp only [bootFw]
  repeat' split
  all_goals simp

@[simp] theorem raiseSvn_memories (s : State) (k : Nat) : (raiseSvn s k).memories = s.memories := by rfl

@[simp] theorem bootCal_memories (s : State) : (bootCal s).memories = s.memories := by simp [bootCal]

@[simp] theorem packageStart_memories (s : State) : (packageStart s).memories = s.memories := by simp [packageStart]

@[simp] theorem checkStraps_memories (s : State) : (checkStraps s).memories = s.memories := by simp [checkStraps]

@[simp] theorem standbyPowerGood_memories (s : State) (pos : BitVec 2) (leashEn : Bool) (images : Vector (Option (BitVec 32)) 5) :
    (standbyPowerGood s pos leashEn images).memories = s.memories := by
  simp [standbyPowerGood]

@[simp] theorem releaseDie_memories (s : State) : (releaseDie s).memories = s.memories := by rfl

@[simp] theorem computeDieRelease_memories (s : State) : (computeDieRelease s).memories = s.memories := by simp [computeDieRelease]

@[simp] theorem beginBringUp_memories (s : State) : (beginBringUp s).memories = s.memories := by simp [beginBringUp]

@[simp] theorem chooseRate_memories (s : State) : (chooseRate s).memories = s.memories := by simp [chooseRate]

@[simp] theorem settleDomain_memories (s : State) (d : Nat) : (settleDomain s d).memories = s.memories := by simp [settleDomain]

@[simp] theorem domainPowerGood_memories (s : State) (d : Nat) : (domainPowerGood s d).memories = s.memories := by simp [domainPowerGood]

@[simp] theorem domainPgTimeout_memories (s : State) (d : Nat) : (domainPgTimeout s d).memories = s.memories := by simp [domainPgTimeout]

@[simp] theorem settleTether_memories (s : State) : (settleTether s).memories = s.memories := by simp [settleTether]

@[simp] theorem leaveBoot_memories (s : State) : (leaveBoot s).memories = s.memories := by simp [leaveBoot]

@[simp] theorem railsLate_memories (s : State) : (railsLate s).memories = s.memories := by simp [railsLate]

@[simp] theorem railOrderFault_memories (s : State) (step : BitVec 32) : (railOrderFault s step).memories = s.memories := by
  simp [railOrderFault]

@[simp] theorem saveTime_memories (s : State) : (saveTime s).memories = s.memories := by rfl

@[simp] theorem powerFail_memories (s : State) : (powerFail s).memories = s.memories := by simp [powerFail]

/-! ## The Shepherd -/

@[simp] theorem shepherdWatchdog_memories (s : State) : (shepherdWatchdog s).memories = s.memories := by simp [shepherdWatchdog]

@[simp] theorem shepherdServing_memories (s : State) : (shepherdServing s).memories = s.memories := by simp [shepherdServing]

@[simp] theorem toggle_memories (s : State) : (toggle s).memories = s.memories := by rfl

@[simp] theorem raiseEpoch_memories (s : State) : (raiseEpoch s).memories = s.memories := by rfl

@[simp] theorem takeLeash_memories (s : State) (f : State → State) (hf : ∀ t, (f t).memories = t.memories) :
    (takeLeash s f).memories = s.memories := by
  simp [takeLeash, hf]

@[simp] theorem stopLeash_memories (s : State) : (stopLeash s).memories = s.memories := by rfl

@[simp] theorem leashToggle_memories (s : State) : (leashToggle s).memories = s.memories := by simp [leashToggle]

@[simp] theorem leashSelfFence_memories (s : State) : (leashSelfFence s).memories = s.memories := by
  simp only [leashSelfFence]
  repeat' split
  all_goals simp

@[simp] theorem leashLapse_memories (s : State) : (leashLapse s).memories = s.memories := by simp [leashLapse]

@[simp] theorem leashPeerEdge_memories (s : State) (interval : Nat) (epochSeen : BitVec 32) :
    (leashPeerEdge s interval epochSeen).memories = s.memories := by
  simp [leashPeerEdge]

@[simp] theorem roleRequest_memories (s : State) : (roleRequest s).memories = s.memories := by simp [roleRequest]

@[simp] theorem getacccr_memories (s : State) : (getacccr s).memories = s.memories := by simp [getacccr]

@[simp] theorem leashYield_memories (s : State) : (leashYield s).memories = s.memories := by simp [leashYield]

@[simp] theorem actuatorRefused_memories (s : State) : (actuatorRefused s).memories = s.memories := by simp [actuatorRefused]

@[simp] theorem trayBusParity_memories (s : State) (resendFails : Bool) : (trayBusParity s resendFails).memories = s.memories := by
  simp [trayBusParity]

@[simp] theorem techPoll_memories (s : State) (toolAnswers : Bool) (others : List Word) :
    (techPoll s toolAnswers others).memories = s.memories := by
  simp [techPoll]

@[simp] theorem telemetrySample_memories (s : State) (v : Vector (BitVec 24) 16) : (telemetrySample s v).memories = s.memories := by
  simp [telemetrySample]

@[simp] theorem thermalTrip_memories (s : State) (sensor : Fin 9) : (thermalTrip s sensor).memories = s.memories := by simp [thermalTrip]

/-! ## Drills -/

@[simp] theorem pickOne_memories {α : Type} (s : State) (xs : List α) : (pickOne s xs).2.memories = s.memories := by rfl

@[simp] theorem drillSkip_memories (s : State) : (drillSkip s).memories = s.memories := by
  unfold drillSkip
  split <;> simp

/-! ## Register writes and grants -/

@[simp] theorem lockWrite_memories (s : State) (owner : Bool) (g : Nat) (f : State → State) (hf : ∀ t, (f t).memories = t.memories) :
    (lockWrite s owner g f).memories = s.memories := by
  unfold lockWrite
  split
  · exact raise_memories ..
  · exact hf s

@[simp] theorem clearEvent_memories (s : State) (u : EvUnit) (v : Nat) : (clearEvent s u v).memories = s.memories := by
  unfold clearEvent
  split <;> simp

@[simp] theorem okWrite_memories (s : State) : (okWrite s).1.memories = s.memories := by rfl

@[simp] theorem ownerOnly_memories (s : State) (code : Nat) : (ownerOnly s code).1.memories = s.memories := by simp [ownerOnly]

@[simp] theorem clearEscalation_memories (s : State) : (clearEscalation s).memories = s.memories := by simp [clearEscalation]

@[simp] theorem writeEscalate_memories (s : State) (owner : Bool) (v : Nat) : (writeEscalate s owner v).1.memories = s.memories := by
  have h := lockWrite_memories s owner 7
    (fun s => setKnl s { s.knl with windowH := BitVec.ofNat 8 (field v 15 8), limit := BitVec.ofNat 4 (field v 3 0) }) fun _ => rfl
  unfold writeEscalate
  repeat' split
  all_goals simp [h]

@[simp] theorem disableUnits_memories (s : State) (v : Nat) : (disableUnits s v).memories = s.memories := by simp [disableUnits]

@[simp] theorem writeLead_memories (s : State) (owner : Bool) (off v : Nat) : (writeLead s owner off v).1.memories = s.memories := by
  unfold writeLead
  repeat' split
  all_goals simp

@[simp] theorem writeTim_memories (s : State) (owner : Bool) (off v : Nat) : (writeTim s owner off v).1.memories = s.memories := by
  unfold writeTim
  split <;> simp

@[simp] theorem writeSnp_memories (s : State) (owner : Bool) (off v : Nat) : (writeSnp s owner off v).1.memories = s.memories := by
  unfold writeSnp
  split
  · exact lockWrite_memories s owner 0 _ fun _ => rfl
  · exact lockWrite_memories s owner 1 _ fun _ => rfl
  · exact lockWrite_memories s owner 7 _ fun _ => rfl
  · rfl

@[simp] theorem writeCalCmd_memories (s : State) (v : Nat) : (writeCalCmd s v).1.memories = s.memories := by
  unfold writeCalCmd
  repeat' split
  all_goals simp

@[simp] theorem writeUcalCtl_memories (s : State) (owner : Bool) (v : Nat) : (writeUcalCtl s owner v).1.memories = s.memories := by
  unfold writeUcalCtl
  repeat' split
  all_goals simp

@[simp] theorem writeGov_memories (s : State) (owner : Bool) (off v : Nat) : (writeGov s owner off v).1.memories = s.memories := by
  unfold writeGov
  split
  · exact lockWrite_memories s owner 3 _ fun _ => rfl
  · exact lockWrite_memories s owner 3 _ fun _ => rfl
  · exact writeCalCmd_memories ..
  · exact writeUcalCtl_memories ..
  · split
    · exact lockWrite_memories s owner 7 _ fun t => setUser_memories ..
    · rfl

@[simp] theorem writeSec_memories (s : State) (owner : Bool) (off v : Nat) : (writeSec s owner off v).1.memories = s.memories := by
  unfold writeSec
  split <;> simp

@[simp] theorem writeTally_memories (s : State) (owner : Bool) (off v : Nat) (cur : State → BitVec 19 → State)
    (hcur : ∀ t x, (cur t x).memories = t.memories) :
    (writeTally s owner off v cur).1.memories = s.memories := by
  unfold writeTally
  repeat' split
  all_goals simp [hcur]

@[simp] theorem serveWrite_memories (s : State) (r : Req) (k : ReqKind) (file : State → Nat → Option Nat)
    (write : State → Bool → Nat → Nat → State × Option Nat) (addr v : Nat) (hwrite : ∀ t o a x, (write t o a x).1.memories = t.memories) :
    (serveWrite s r k file write addr v).memories = s.memories := by
  refine request_memories s r k _ fun t => ?_
  have ht := hwrite t false addr v
  split
  · exact refuseReq_memories ..
  · split
    · exact respondCode_memories ..
    · split <;> rename_i h <;> rw [h] at ht <;> simpa using ht

@[simp] theorem unitDrainDone_memories (s : State) (b : Nat) : (unitDrainDone s b).memories = s.memories := by simp [unitDrainDone]

@[simp] theorem grantFails_memories (s : State) (r : Req) (detail : Bytes) : (grantFails s r detail).memories = s.memories := by
  simp [grantFails]

@[simp] theorem endOldSessions_memories (s : State) : (endOldSessions s).memories = s.memories := by rfl

@[simp] theorem grantAnswer_memories (s : State) (r : Req) (err : Option Nat) : (grantAnswer s r err).memories = s.memories := by
  unfold grantAnswer
  repeat' split
  all_goals simp

/-! ## The Tether links -/

@[simp] theorem tetherUp_memories (s : State) (l : Nat) : (tetherUp s l).memories = s.memories := by simp [tetherUp]

/-! ## Secrecy -/

@[simp] theorem endSession_memories (s : State) (l : Nat) (shp : Bool) : (endSession s l shp).memories = s.memories := by simp [endSession]

@[simp] theorem hello_memories (s : State) (r : Req) (shepherd : Bool) (cert : OpCert) (key : BitVec 512) (nonce : BitVec 128) :
    (hello s r shepherd cert key nonce).memories = s.memories := by
  simp [hello]

@[simp] theorem openSession_memories (s : State) (l : Nat) (shepherd : Bool) (h : Handshake) :
    (openSession s l shepherd h).memories = s.memories := by
  simp [openSession]

@[simp] theorem finish_memories (s : State) (r : Req) (shepherd sigOk : Bool) : (finish s r shepherd sigOk).memories = s.memories := by
  refine request_memories s r _ _ fun t => ?_
  repeat' split
  all_goals simp

@[simp] theorem refuseJob_memories (s : State) (r : Req) (kind : Nat) : (refuseJob s r kind).memories = s.memories := by simp [refuseJob]

@[simp] theorem jobEphemeral_memories (s : State) (r : Req) (jobId : BitVec 64) : (jobEphemeral s r jobId).memories = s.memories := by
  simp [jobEphemeral]

@[simp] theorem peerCert_memories (s : State) (r : Req) (signer : BitVec 24) (cert : Bytes) (bind : BitVec 128) (chains : Bool) :
    (peerCert s r signer cert bind chains).memories = s.memories := by
  simp [peerCert]

@[simp] theorem enroll_memories (s : State) (r : Req) (key : BitVec 512) (voucherOk : Bool) :
    (enroll s r key voucherOk).memories = s.memories := by
  simp [enroll]

@[simp] theorem attest_memories (s : State) (r : Req) (nonce : BitVec 128) : (attest s r nonce).memories = s.memories := by simp [attest]

@[simp] theorem fwData_memories (s : State) (r : Req) (kind off : Nat) (b : Bytes) : (fwData s r kind off b).memories = s.memories := by
  simp [fwData]

@[simp] theorem fwCommit_memories (s : State) (r : Req) (kind : Nat) (svn : Option Word) :
    (fwCommit s r kind svn).memories = s.memories := by
  simp [fwCommit]

/-! ## Restore -/

@[simp] theorem refuseRestore_memories (s : State) (r : Req) : (refuseRestore s r).memories = s.memories := by simp [refuseRestore]

@[simp] theorem manifestWhole_memories (s : State) (r : Req) (m : Bytes) (sigOk : Bool) :
    (manifestWhole s r m sigOk).memories = s.memories := by
  simp [manifestWhole]

@[simp] theorem restoreManifest_memories (s : State) (r : Req) (off : Nat) (last : Bool) (b : Bytes) (sigOk : Bool) :
    (restoreManifest s r off last b sigOk).memories = s.memories := by
  simp [restoreManifest]

end Sys2Proof.Machine
end

section
/-!
SUPPORT. The canonical form of the memories (log 6): every operation that writes one keeps it. One lemma an operation, in the order of the
model's files; that every step keeps it, O5, is assembled from them.
-/
namespace Sys2Proof.Machine

/-- Every memory is in its canonical form. -/
structure Memories.Canonical (x : Memories) : Prop where
  hbm : x.hbm.wf = true
  board : x.board.wf = true
  locals : ∀ c, (vget x.locals c []).wf = true
  mirror : ∀ m, x.mirror = some m → Mem.wf m.data = true
  norm : srising 0 x.norm = true
  tok : srising 0 x.tok = true
  hbmCheck : CheckForm x.hbmCheck
  boardCheck : CheckForm x.boardCheck

/-- A state is canonical as its memories are. -/
theorem canonical_iff (s : State) : Canonical s ↔ s.memories.Canonical := by
  constructor
  · rintro ⟨hhbm, hboard, hlocals, hmirror, hnorm, htok, hchecks⟩
    obtain ⟨hb, hh⟩ := List.forall_mem_cons.mp hchecks
    exact ⟨hhbm, hboard, hlocals, hmirror, hnorm, htok, List.forall_mem_singleton.mp hh, hb⟩
  · rintro ⟨hhbm, hboard, hlocals, hmirror, hnorm, htok, hh, hb⟩
    exact ⟨hhbm, hboard, hlocals, hmirror, hnorm, htok, List.forall_mem_cons.mpr ⟨hb, List.forall_mem_singleton.mpr hh⟩⟩

theorem checkForm_nil : CheckForm [] := ⟨rfl, rfl⟩

@[simp] theorem canonical_ite (c : Prop) [Decidable c] (a b : Memories) :
    (if c then a else b).Canonical = if c then a.Canonical else b.Canonical :=
  apply_ite Memories.Canonical c a b

/-- A fold over a larger value keeps the canonical form of the state in it where each of its steps does. -/
theorem foldl_state_canonical {α β : Type} {f : β → α → β} (st : β → State)
    (hf : ∀ r x, (st r).memories.Canonical → (st (f r x)).memories.Canonical) (xs : List α) {r : β} (h : (st r).memories.Canonical) :
    (st (xs.foldl f r)).memories.Canonical := by
  induction xs generalizing r with
  | nil => exact h
  | cons x xs ih => exact ih (hf r x h)

/-- A fold of state changes that each keep the canonical form keeps it. -/
theorem foldl_canonical {α : Type} {f : State → α → State} (hf : ∀ s x, s.memories.Canonical → (f s x).memories.Canonical) (xs : List α)
    {s : State} (h : s.memories.Canonical) : (xs.foldl f s).memories.Canonical :=
  foldl_state_canonical id hf xs h

/-! ## The writes -/

@[simp] theorem setLmem_canonical {s : State} (h : s.memories.Canonical) (c : Nat) {m : Mem} (hm : m.wf = true) :
    (setLmem s c m).memories.Canonical := by
  by_cases hc : c < 16
  · exact (canonical_iff _).mp (((canonical_iff s).mpr h).setLmem hc hm)
  · have hout : setLmem s c m = s := by
      rw [setLmem, vset, Vector.setIfInBounds_eq_of_size_le (by omega)]
    rwa [hout]

@[simp] theorem boardWrite_canonical {s : State} (h : s.memories.Canonical) (a : Nat) (b : Bytes) :
    (boardWrite s a b).memories.Canonical :=
  (canonical_iff _).mp (((canonical_iff s).mpr h).boardWrite a b)

@[simp] theorem jobWrite_canonical {s : State} (h : s.memories.Canonical) (a : Nat) (b : Bytes) : (jobWrite s a b).memories.Canonical :=
  (canonical_iff _).mp (((canonical_iff s).mpr h).jobWrite a b)

@[simp] theorem setToken_canonical {s : State} (h : s.memories.Canonical) (i x : Nat) : (setToken s i x).memories.Canonical :=
  (canonical_iff _).mp (((canonical_iff s).mpr h).setToken i x)

@[simp] theorem setNorm_canonical {s : State} (h : s.memories.Canonical) (e : Nat) (x : NormEntry) : (setNorm s e x).memories.Canonical :=
  { h with norm := srising_ssetD h.norm {} e x }
/-! ## Memory, power domains and strands -/

@[simp] theorem clearHbm_canonical {s : State} (h : s.memories.Canonical) : (clearHbm s).memories.Canonical :=
  { h with hbm := Mem.wf_nil, hbmCheck := checkForm_nil }

@[simp] theorem hbmWrite_canonical {s : State} (h : s.memories.Canonical) (a : Nat) (b : Bytes) : (hbmWrite s a b).memories.Canonical := by
  simp [hbmWrite, h]

@[simp] theorem locWrite_canonical {s : State} (h : s.memories.Canonical) (l : Nat) (b : Bytes) : (locWrite s l b).memories.Canonical := by
  simp [locWrite, h]

/-- A cluster's local memory is in its canonical form. -/
theorem lmem_wf {s : State} (h : s.memories.Canonical) (c : Nat) : (lmem s c).wf = true := h.locals c

/-- Writing local memory in place keeps the canonical form where the new contents have it. -/
@[simp] theorem onLocal_canonical {s : State} (h : s.memories.Canonical) (c : Nat) {f : Mem → BitVec 128 → Mem}
    (hf : ∀ m w, m.wf = true → (f m w).wf = true) (w : BitVec 128) : (onLocal c f s w).memories.Canonical :=
  setLmem_canonical h c (hf _ w (lmem_wf h c))

/-- So does writing bytes to it. -/
@[simp] theorem setLmem_mwrite_canonical {s : State} (h : s.memories.Canonical) (c a : Nat) (b : Bytes) :
    (setLmem s c (mwrite (lmem s c) a b)).memories.Canonical :=
  setLmem_canonical h c (mwrite_wf b (lmem_wf h c) a)

/-- So does writing a vector to it. -/
@[simp] theorem setLmem_vecWrite_canonical {s : State} (h : s.memories.Canonical) (c a k : Nat) (xs : List Nat) :
    (setLmem s c (vecWrite (lmem s c) a k xs)).memories.Canonical :=
  setLmem_mwrite_canonical h c a _

/-! ## Codes and SYS_STATE -/

@[simp] theorem discardProgram_canonical {s : State} (h : s.memories.Canonical) : (discardProgram s).memories.Canonical :=
  { h with tok := rfl }

/-! ## Decode, token waits, signals and the common opcodes -/

@[simp] theorem tokenWaitSatisfied_canonical {s : State} (h : s.memories.Canonical) (n : Nat) :
    (tokenWaitSatisfied s n).memories.Canonical := by
  simp [tokenWaitSatisfied, h]

@[simp] theorem applyToken_canonical {s : State} (h : s.memories.Canonical) (sigs : List Signal) (t : Nat) :
    (applyToken sigs s t).memories.Canonical := by
  simp only [applyToken]
  split <;> simp [h]

@[simp] theorem applySignals_canonical {s : State} (h : s.memories.Canonical) (sigs : List Signal) :
    (applySignals s sigs).memories.Canonical :=
  foldl_canonical (fun _ t ht => applyToken_canonical ht sigs t) _ h

@[simp] theorem nopStrand_canonical {s : State} (h : s.memories.Canonical) (n : Nat) : (nopStrand s n).memories.Canonical := by
  simp [nopStrand, h]

@[simp] theorem endStrand_canonical {s : State} (h : s.memories.Canonical) (n : Nat) : (endStrand s n).memories.Canonical := by
  simp [endStrand, h]

/-! ## The Edge -/

@[simp] theorem redUpdate_canonical {s : State} (h : s.memories.Canonical) (a : Nat) (init : Bool) (xs : List Fv) :
    (redUpdate s a init xs).1.memories.Canonical := by
  simp only [redUpdate]
  repeat' split
  all_goals simp [h]

@[simp] theorem redUpdates_canonical {s : State} (h : s.memories.Canonical) (base : Nat) (init : Bool) (xs : List (Nat × List Fv)) :
    (redUpdates s base init xs).1.memories.Canonical := by
  induction xs generalizing s with
  | nil => exact h
  | cons x xs ih => exact ih (redUpdate_canonical h ..)

@[simp] theorem summaryUpdate_canonical {s : State} (h : s.memories.Canonical) (a : Nat) (init : Bool) (vs : List Fv) :
    (summaryUpdate s a init vs).memories.Canonical :=
  boardWrite_canonical h ..

@[simp] theorem countUpdate_canonical {s : State} (h : s.memories.Canonical) (a : Nat) (init : Bool) (k : DrainCnt) (exc : Bool)
    (cycles outWait throttle : Nat) : (countUpdate s a init k exc cycles outWait throttle).memories.Canonical :=
  boardWrite_canonical h ..

@[simp] theorem selectedRecords_canonical {s : State} (h : s.memories.Canonical) (sel : Bool) (base : Nat) (init : Bool)
    (xs : List (Nat × List Fv)) : (selectedRecords sel s base init xs).1.memories.Canonical := by
  unfold selectedRecords
  split
  · exact redUpdates_canonical h ..
  · exact h

@[simp] theorem noteHeld_memories (s : State) (held : List Nat) : (noteHeld s held).memories = s.memories := by
  unfold noteHeld
  split <;> simp

@[simp] theorem drainTotals_canonical {s : State} (h : s.memories.Canonical) (op : EdgeOp) (k : Slot) (run : DrainRun) (cols : Nat)
    (exc : Bool) (outWait throttle : Nat) : (drainTotals s op k run cols exc outWait throttle).memories.Canonical := by
  simp [drainTotals, h]

@[simp] theorem drainWrite_canonical {s : State} (h : s.memories.Canonical) (op : EdgeOp) (k : Slot) (run : DrainRun) (exc : Bool)
    (outWait throttle : Nat) : (drainWrite s op k run exc outWait throttle).memories.Canonical := by
  have hrecords (sel₁ sel₂ : Bool) (a₁ a₂ a₃ : Nat) (b : Bytes) (init₁ init₂ : Bool) (xs ys : List (Nat × List Fv)) :=
    selectedRecords_canonical (selectedRecords_canonical (boardWrite_canonical h a₁ b) sel₁ a₂ init₁ xs) sel₂ a₃ init₂ ys
  rw [drainWrite_eq]
  refine drainTotals_canonical ?_ ..
  rw [noteHeld_memories]
  exact hrecords ..

@[simp] theorem drainLastRow_canonical {s : State} (h : s.memories.Canonical) (outWait throttle : Nat) :
    (drainLastRow s outWait throttle).memories.Canonical := by
  unfold drainLastRow
  split <;> simp [h]

@[simp] theorem sweepTotals_canonical {s : State} (h : s.memories.Canonical) (d : Bytes) (w : BitVec 128) (rows : List (List ElemOut))
    (cnt : DrainCnt) (throttle : Nat) : (sweepTotals s d w rows cnt throttle).memories.Canonical := by
  simp [sweepTotals, h]

@[simp] theorem sweepReported_canonical {s : State} (h : s.memories.Canonical) (d : Bytes) (throttle : Nat) :
    (sweepReported s d throttle).memories.Canonical := by
  simp only [sweepReported, sweepWritten, sweepCodes_memories, edgeJob_memories]
  have hhold : (outHold s false).memories.Canonical := by simp [h]
  exact sweepTotals_canonical (boardWrite_canonical (boardWrite_canonical hhold ..) ..) ..

@[simp] theorem edgeIssued_memories (s : State) : (edgeIssued s).memories = s.memories := by rfl

@[simp] theorem sweepIssue_canonical {s : State} (h : s.memories.Canonical) (throttle : Nat) :
    (sweepIssue s throttle).memories.Canonical := by
  by_cases hb : (begun s 1 0x11 && edgeFree s) = true
  case neg => simp [sweepIssue, hb, h]
  obtain ⟨hb, he⟩ := Bool.and_eq_true_iff.mp hb
  cases hr : sweepRefusal s (wFld (strand s 1).word 79 58 * 64) (mread s.brd.mem (wFld (strand s 1).word 79 58 * 64) 64) with
  | some code => simp [sweepIssue, hb, he, hr, h]
  | none =>
    cases hc : edgeCredit s (sdRing (mread s.brd.mem (wFld (strand s 1).word 79 58 * 64) 64)) with
    | false => simp [sweepIssue_held hb he rfl hr hc, h]
    | true =>
      simp [sweepIssue_credit hb he rfl hr hc, h]

/-! ## The Fetch engines -/

@[simp] theorem writeRows_canonical {s : State} (h : s.memories.Canonical) (loc pitch row rows : Nat) (b : Bytes) :
    (writeRows s loc pitch row rows b).memories.Canonical :=
  foldl_canonical (fun _ _ ht => locWrite_canonical ht ..) _ h

@[simp] theorem fetchComplete_canonical {s : State} (h : s.memories.Canonical) (n : Nat) (w : BitVec 128) :
    (fetchComplete s n w).memories.Canonical := by
  simp [fetchComplete, h]

/-! ## The Rods -/

@[simp] theorem rodsIssue_canonical {s : State} (h : s.memories.Canonical) (c op : Nat) (refusal : State → BitVec 128 → Option Nat)
    {eff : State → BitVec 128 → State} (heff : ∀ w, (eff s w).memories.Canonical) :
    (rodsIssue s c op refusal eff).memories.Canonical := by
  simp only [rodsIssue]
  repeat' split
  all_goals simp [h, heff]

@[simp] theorem map2_canonical {s : State} (h : s.memories.Canonical) (c : Nat) (f : Nat → Nat → Nat → Nat) (w : BitVec 128) :
    (map2 c f s w).memories.Canonical :=
  setLmem_vecWrite_canonical h ..

@[simp] theorem map1_canonical {s : State} (h : s.memories.Canonical) (c : Nat) (f : Nat → Nat → Nat) (w : BitVec 128) :
    (map1 c f s w).memories.Canonical :=
  setLmem_vecWrite_canonical h ..

@[simp] theorem intOp2_canonical {s : State} (h : s.memories.Canonical) (c op : Nat) (f : Nat → Nat → Nat → Nat) :
    (intOp2 s c op f).memories.Canonical := by
  simp [intOp2, h]

@[simp] theorem intOp1_canonical {s : State} (h : s.memories.Canonical) (c op : Nat) (f : Nat → Nat → Nat) :
    (intOp1 s c op f).memories.Canonical := by
  simp [intOp1, h]

@[simp] theorem selIssue_canonical {s : State} (h : s.memories.Canonical) (c : Nat) : (selIssue s c).memories.Canonical :=
  rodsIssue_canonical h c _ _ fun _ => setLmem_vecWrite_canonical h ..

@[simp] theorem floatEff_canonical {s : State} (h : s.memories.Canonical) (c : Nat) (f : Word → Word → Word → Word) (w : BitVec 128) :
    (floatEff c f s w).memories.Canonical := by
  simp [floatEff, h]

@[simp] theorem floatOp_canonical {s : State} (h : s.memories.Canonical) (c op srcs : Nat) (f : Word → Word → Word → Word) :
    (floatOp s c op srcs f).memories.Canonical := by
  simp [floatOp, h]

@[simp] theorem cvtIssue_canonical {s : State} (h : s.memories.Canonical) (c : Nat) : (cvtIssue s c).memories.Canonical := by
  simp [cvtIssue, h]

@[simp] theorem mapIssue_canonical {s : State} (h : s.memories.Canonical) (c : Nat) : (mapIssue s c).memories.Canonical :=
  rodsIssue_canonical h c _ _ fun _ => setLmem_vecWrite_canonical h ..

@[simp] theorem fnOp_canonical {s : State} (h : s.memories.Canonical) (c op : Nat) (f : Word → Word) :
    (fnOp s c op f).memories.Canonical := by
  simp [fnOp, h]

@[simp] theorem dualIssue_canonical {s : State} (h : s.memories.Canonical) (c op act : Nat) (f : Config.Fn) :
    (dualIssue s c op act f).memories.Canonical :=
  rodsIssue_canonical h c op _ fun _ => by
    simpa using setLmem_canonical h c (vecWrite_wf (vecWrite_wf (lmem_wf h c) ..) ..)

@[simp] theorem loadDone_canonical {s : State} (h : s.memories.Canonical) (c : Nat) (w : BitVec 128) :
    (loadDone s c w).memories.Canonical := by
  simp [loadDone, h]

@[simp] theorem storeDone_canonical {s : State} (h : s.memories.Canonical) (c : Nat) (w : BitVec 128) :
    (storeDone s c w).memories.Canonical :=
  locWrite_canonical h ..

@[simp] theorem gatherDone_canonical {s : State} (h : s.memories.Canonical) (c : Nat) (w : BitVec 128) :
    (gatherDone s c w).memories.Canonical := by
  simp [gatherDone, h]

@[simp] theorem scatterDone_canonical {s : State} (h : s.memories.Canonical) (c : Nat) (w : BitVec 128) (f : Nat → Nat → Nat) :
    (scatterDone s c w f).memories.Canonical := by
  simp only [scatterDone, indexCheck_memories]
  refine foldl_canonical (fun t _ ht => ?_) _ h
  simp [ht]

@[simp] theorem tposeDone_canonical {s : State} (h : s.memories.Canonical) (c : Nat) (w : BitVec 128) :
    (tposeDone s c w).memories.Canonical := by
  have hcols (l : Nat → Nat) (b : Nat → Bytes) (n : Nat) :
      ((List.range n).foldl (fun s i => locWrite s (l i) (b i)) s).memories.Canonical :=
    foldl_canonical (fun _ _ ht => locWrite_canonical ht ..) _ h
  simp only [tposeDone, setTposeReq_memories]
  split
  · exact hcols ..
  · exact locWrite_canonical (hcols ..) ..

@[simp] theorem sortIssue_canonical {s : State} (h : s.memories.Canonical) (c : Nat) : (sortIssue s c).memories.Canonical :=
  rodsIssue_canonical h c _ _ fun _ => setLmem_canonical h c (vecWrite_wf (vecWrite_wf (lmem_wf h c) ..) ..)

@[simp] theorem hash64Issue_canonical {s : State} (h : s.memories.Canonical) (c : Nat) : (hash64Issue s c).memories.Canonical :=
  rodsIssue_canonical h c _ _ fun _ => setLmem_vecWrite_canonical h ..

@[simp] theorem hashstrIssue_canonical {s : State} (h : s.memories.Canonical) (c : Nat) : (hashstrIssue s c).memories.Canonical := by
  simp [hashstrIssue, h]

@[simp] theorem minhashIssue_canonical {s : State} (h : s.memories.Canonical) (c : Nat) : (minhashIssue s c).memories.Canonical := by
  simp [minhashIssue, h]

@[simp] theorem pairIssue_canonical {s : State} (h : s.memories.Canonical) (c op : Nat) (f : Bytes → Bytes → Nat) :
    (pairIssue s c op f).memories.Canonical := by
  simp [pairIssue, h]

@[simp] theorem normDone_canonical {s : State} (h : s.memories.Canonical) (c : Nat) (w : BitVec 128) :
    (normDone s c w).memories.Canonical :=
  setNorm_canonical h ..

@[simp] theorem normrdIssue_canonical {s : State} (h : s.memories.Canonical) (c : Nat) : (normrdIssue s c).memories.Canonical := by
  simp [normrdIssue, h]

@[simp] theorem normclrIssue_canonical {s : State} (h : s.memories.Canonical) (c : Nat) : (normclrIssue s c).memories.Canonical := by
  simp [normclrIssue, h]

@[simp] theorem rodsComplete_canonical {s : State} (h : s.memories.Canonical) (c : Nat) (w : BitVec 128) :
    (rodsComplete s c w).memories.Canonical := by
  unfold rodsComplete
  split <;> simp [h]

/-! ## OPT and the ratio watch -/

@[simp] theorem hbmPut_canonical {s : State} (h : s.memories.Canonical) (k : Nat) (xs : List (Nat × Nat)) :
    (hbmPut s k xs).memories.Canonical :=
  foldl_canonical (fun _ _ ht => hbmWrite_canonical ht ..) _ h

/-- A state chosen by a condition, each of the two canonical. -/
theorem ite_canonical {c : Prop} [Decidable c] {a b : State} (ha : a.memories.Canonical) (hb : b.memories.Canonical) :
    (if c then a else b).memories.Canonical := by
  simp [ha, hb]

@[simp] theorem optWriteRow_canonical {s : State} (h : s.memories.Canonical) (b : Bytes) (r : Nat) (x : OptRow) (old : List Word) :
    (optWriteRow s b r x old).memories.Canonical := by
  have hmaster (a : Nat) (b : Bytes) := hbmWrite_canonical h a b
  have hstate {c c' : Prop} [Decidable c] [Decidable c'] (a a₁ a₂ : Nat) (b b₁ b₂ : Bytes) :=
    ite_canonical (c := c') (hbmWrite_canonical (ite_canonical (c := c) (hmaster a b) (hbmWrite_canonical (hmaster a b) a₁ b₁)) a₂ b₂)
      (ite_canonical (c := c) (hmaster a b) (hbmWrite_canonical (hmaster a b) a₁ b₁))
  unfold optWriteRow
  extract_lets k words s₁ s₂ s₃ s₄ s₅
  have hrow : s₅.memories.Canonical := hbmPut_canonical (hbmWrite_canonical (hstate ..) ..) ..
  exact ite_canonical (setNorm_canonical hrow ..) hrow

@[simp] theorem optMaps_canonical {s : State} (h : s.memories.Canonical) (b : Bytes) (row0 rows : Nat) :
    (optMaps s b row0 rows).memories.Canonical :=
  hbmPut_canonical h ..

@[simp] theorem optEff_canonical {s : State} (h : s.memories.Canonical) (d : Bytes) (w : BitVec 128) :
    (optEff s d w).memories.Canonical := by
  simp only [optEff, memories_ite, raise_memories, ite_self]
  exact optMaps_canonical (foldl_state_canonical Prod.fst (fun _ _ hr => optWriteRow_canonical hr ..) _ h) ..

@[simp] theorem optDone_canonical {s : State} (h : s.memories.Canonical) (c : Nat) (w : BitVec 128) :
    (optDone s c w).memories.Canonical := by
  simp [optDone, h]

@[simp] theorem ratioWrite_canonical {s : State} (h : s.memories.Canonical) (layer marker : Nat) (r : RatioEntry) :
    (ratioWrite s layer marker r).memories.Canonical :=
  hbmWrite_canonical h ..

@[simp] theorem watchLayer_canonical {acc : State × WatchSum} (h : acc.1.memories.Canonical) (marker : Nat) (b : Bytes) :
    (watchLayer marker acc b).1.memories.Canonical := by
  simp only [watchLayer]
  split <;> simp [h]

@[simp] theorem ratioWatch_canonical {s : State} (h : s.memories.Canonical) : (ratioWatch s).1.memories.Canonical := by
  have hlayers := foldl_state_canonical Prod.fst (fun r b hr => watchLayer_canonical hr (s.str.marker.toNat + 1) b)
    (enrolledByLayer (img s)) (r := (s, [])) h
  simpa [ratioWatch] using hlayers

/-! ## Loading -/

@[simp] theorem acceptImage_canonical {s : State} (h : s.memories.Canonical) (im : Bytes) : (acceptImage s im).memories.Canonical :=
  { h with tok := rfl }

@[simp] theorem loadCheck_canonical {s : State} (h : s.memories.Canonical) : (loadCheck s).memories.Canonical := by
  simp only [loadCheck]
  repeat' split
  all_goals simp [h]

/-! ## The Frame -/

@[simp] theorem enterNoWidth_canonical {s : State} (h : s.memories.Canonical) : (enterNoWidth s).memories.Canonical := by
  simp only [enterNoWidth]
  repeat' split
  all_goals simp [-raise_str, h]

@[simp] theorem mapOutBead_canonical {s : State} (h : s.memories.Canonical) (row col : Nat) :
    (mapOutBead s row col).memories.Canonical := by
  simp [mapOutBead, h]

@[simp] theorem mapOutColumn_canonical {s : State} (h : s.memories.Canonical) (col : Nat) :
    (mapOutColumn s col).memories.Canonical := by
  simp [mapOutColumn, h]

@[simp] theorem mapOutRow_canonical {s : State} (h : s.memories.Canonical) (row : Nat) : (mapOutRow s row).memories.Canonical := by
  simp [mapOutRow, h]

@[simp] theorem mapOutBeads_canonical {s : State} (h : s.memories.Canonical) (failed : List (Fin 1040 × Fin 1040)) :
    (mapOutBeads s failed).memories.Canonical := by
  have hcols := foldl_canonical (fun _ col ht => mapOutColumn_canonical ht col)
  have hrows := foldl_canonical (fun _ row ht => mapOutRow_canonical ht row)
  exact foldl_canonical (fun _ _ ht => mapOutBead_canonical ht ..) _ (hrows _ (hcols _ h))

@[simp] theorem verdict_canonical {s : State} (h : s.memories.Canonical) (op : FrameOp) (t : SelTile) (beadCycles : Nat)
    (d2 d3 : List Word) (failed : List (Fin 1040 × Fin 1040)) : (verdict s op t beadCycles d2 d3 failed).memories.Canonical := by
  simp only [verdict]
  repeat' split
  all_goals simp [h]

@[simp] theorem classificationReplay_canonical {s : State} (h : s.memories.Canonical) (beadCycles : Nat) (faults2 faults3 : List CarryFault)
    (failed : List (Fin 1040 × Fin 1040)) : (classificationReplay s beadCycles faults2 faults3 failed).memories.Canonical := by
  unfold classificationReplay
  repeat' split
  all_goals simp [h]

@[simp] theorem beadTest_canonical {s : State} (h : s.memories.Canonical) (failed : List (Fin 1040 × Fin 1040)) :
    (beadTest s failed).memories.Canonical := by
  simp [beadTest, h]

@[simp] theorem frameComplete_canonical {s : State} (h : s.memories.Canonical) : (frameComplete s).memories.Canonical := by
  unfold frameComplete
  split <;> simp [h]

/-! ## Launch and round-up -/

/-- A served request keeps the canonical form where what it does keeps it. -/
theorem request_canonical {s : State} (h : s.memories.Canonical) (r : Req) (k : ReqKind) {f : State → State}
    (hf : ∀ t, t.memories.Canonical → (f t).memories.Canonical) : (request s r k f).memories.Canonical := by
  simp [request, h, hf]

/-- A frame taken on a lead keeps the canonical form where what it does keeps it. -/
theorem onKept_canonical {s : State} (h : s.memories.Canonical) (a : Arrival) {f : State → State}
    (hf : ∀ t, t.memories.Canonical → (f t).memories.Canonical) : (onKept s a f).memories.Canonical := by
  simp [onKept, h, hf]

theorem onLead_canonical {s : State} (h : s.memories.Canonical) (a : Arrival) (c : Nat) {f : State → State}
    (hf : ∀ t, t.memories.Canonical → (f t).memories.Canonical) : (onLead s a c f).memories.Canonical :=
  onKept_canonical h a fun t ht => hf _ (by simp [ht])

@[simp] theorem disarm_canonical {s : State} (h : s.memories.Canonical) : (disarm s).memories.Canonical := by
  simp [disarm, h]

@[simp] theorem cancelWith_canonical {s : State} (h : s.memories.Canonical) (f : LaunchFrame) : (cancelWith s f).memories.Canonical := by
  simp [cancelWith, h]

@[simp] theorem cancelRoundUp_canonical {s : State} (h : s.memories.Canonical) : (cancelRoundUp s).memories.Canonical :=
  cancelWith_canonical h _

@[simp] theorem commitAtRoot_canonical {s : State} (h : s.memories.Canonical) (r : Req) (f : LaunchFrame) :
    (commitAtRoot s r f).memories.Canonical := by
  simp [commitAtRoot, h]

@[simp] theorem launch_canonical {s : State} (h : s.memories.Canonical) (r : Req) (f : LaunchFrame) :
    (launch s r f).memories.Canonical := by
  refine request_canonical h r kLaunch fun t ht => ?_
  repeat' split
  all_goals simp [ht]

@[simp] theorem ruCommit_canonical {s : State} (h : s.memories.Canonical) (a : Arrival) (f : LaunchFrame) :
    (ruCommit s a f).memories.Canonical :=
  onLead_canonical h a 3 fun t ht => by simp [ht]

@[simp] theorem ruCancel_canonical {s : State} (h : s.memories.Canonical) (a : Arrival) (f : LaunchFrame) :
    (ruCancel s a f).memories.Canonical :=
  onLead_canonical h a 3 fun t ht => by simp [ht]

@[simp] theorem ruAckTimeout_canonical {s : State} (h : s.memories.Canonical) (i : Nat) : (ruAckTimeout s i).memories.Canonical := by
  simp [ruAckTimeout, h]

@[simp] theorem armDeadline_canonical {s : State} (h : s.memories.Canonical) : (armDeadline s).memories.Canonical := by
  simp [armDeadline, h]

/-- Setting entries of an empty map one after another keeps its keys rising. -/
theorem srising_foldl_ssetD {α : Type} [DecidableEq α] (d : α) (f : Nat → α) (is : List Nat) {m : SMap α} (h : srising 0 m = true) :
    srising 0 (is.foldl (fun m i => ssetD d m i (f i)) m) = true := by
  induction is generalizing m with
  | nil => exact h
  | cons i is ih => exact ih (srising_ssetD h d i (f i))

/-- The token counts of a launch (R216, R499). -/
theorem srising_launchTokens (s : State) :
    srising 0 (if s.snp.restored = true then pageTokens s.snp.restoredPage else initTokens (img s)) = true := by
  split <;> exact srising_foldl_ssetD 0 _ _ rfl

@[simp] theorem startStrands_canonical {s : State} (h : s.memories.Canonical) : (startStrands s).memories.Canonical := by
  have htok := srising_launchTokens s
  simp only [startStrands]
  generalize (if s.snp.restored = true then pageTokens s.snp.restoredPage else initTokens (img s)) = tok at htok ⊢
  rw [foldl_memories fun _ _ => ranPast_memories ..]
  refine applySignals_canonical ?_ _
  rw [foldl_memories fun _ _ => countDone_memories .., memories_mk]
  exact { h with tok := htok }

@[simp] theorem zeroRatios_canonical {s : State} (h : s.memories.Canonical) : (zeroRatios s).memories.Canonical := by
  unfold zeroRatios
  split <;> simp [h]

@[simp] theorem jobStart_canonical {s : State} (h : s.memories.Canonical) : (jobStart s).memories.Canonical := by
  simp [jobStart, h]

@[simp] theorem launchTimeReached_canonical {s : State} (h : s.memories.Canonical) : (launchTimeReached s).memories.Canonical := by
  simp [launchTimeReached, h]

/-! ## Snapshots and the mirror -/

@[simp] theorem stepSix_canonical {s : State} (h : s.memories.Canonical) (extra : List Signal) :
    (stepSix s extra).memories.Canonical := by
  simp [stepSix, h]

@[simp] theorem snapWait_canonical {s : State} (h : s.memories.Canonical) (w : BitVec 128) : (snapWait s w).memories.Canonical := by
  simp [snapWait, h]

@[simp] theorem runSnap_canonical {s : State} (h : s.memories.Canonical) : (runSnap s).memories.Canonical := by
  unfold runSnap
  exact ite_canonical (stepSix_canonical (applySignals_canonical (by simp [h]) _) _) (stepSix_canonical (by simp [h]) _)

@[simp] theorem skipSnap_canonical {s : State} (h : s.memories.Canonical) : (skipSnap s).memories.Canonical := by
  simp [skipSnap, h]

@[simp] theorem snap_canonical {s : State} (h : s.memories.Canonical) : (snap s).memories.Canonical := by
  simp [snap, h]

@[simp] theorem fenceDone_canonical {s : State} (h : s.memories.Canonical) : (fenceDone s).memories.Canonical := by
  unfold fenceDone
  split <;> simp [h]

@[simp] theorem snapFence_canonical {s : State} (h : s.memories.Canonical) : (snapFence s).memories.Canonical := by
  simp [snapFence, h]

@[simp] theorem holdEnds_canonical {s : State} (h : s.memories.Canonical) (us : Nat) : (holdEnds s us).memories.Canonical := by
  simp [holdEnds, h]

@[simp] theorem abandon_canonical {s : State} (h : s.memories.Canonical) (i : Nat) : (abandon s i).memories.Canonical := by
  unfold abandon
  exact ite_canonical (holdEnds_canonical (fenceDone_canonical (by simp [h])) 0) (by simp [h])

@[simp] theorem endOfCopying_canonical {s : State} (h : s.memories.Canonical) (us : Nat) : (endOfCopying s us).memories.Canonical := by
  unfold endOfCopying
  split
  · exact h
  · exact ite_canonical h (holdEnds_canonical (fenceDone_canonical (by simp [h])) us)

/-- A mirror in its canonical form taken for the state's. -/
theorem setSnp_canonical {s : State} (h : s.memories.Canonical) {n : Snp} (hn : ∀ m, n.mirror = some m → Mem.wf m.data = true) :
    (setSnp s n).memories.Canonical :=
  { h with mirror := hn }

@[simp] theorem relayEnds_canonical {s : State} (h : s.memories.Canonical) {m : Mirror} (hm : Mem.wf m.data = true) :
    (relayEnds s m).memories.Canonical := by
  unfold relayEnds
  split
  · rw [leadSend_memories]
    exact setSnp_canonical h nofun
  · exact setSnp_canonical h fun _ hx => Option.some.inj hx ▸ hm

@[simp] theorem relayStored_canonical {s : State} (h : s.memories.Canonical) (ctx : BitVec 8) (k : Nat) :
    (relayStored s ctx k).memories.Canonical := by
  unfold relayStored
  split
  · exact h
  next m hm => exact ite_canonical (relayEnds_canonical h (h.mirror m hm)) h

@[simp] theorem shardStored_canonical {s : State} (h : s.memories.Canonical) (ctx : BitVec 8) (k : Nat) (relayed : Bool) :
    (shardStored s ctx k relayed).memories.Canonical := by
  simp [shardStored, h]

@[simp] theorem storageFailed_canonical {s : State} (h : s.memories.Canonical) (ctx : BitVec 8) :
    (storageFailed s ctx).memories.Canonical := by
  unfold storageFailed
  split <;> simp [h]

@[simp] theorem ckptTimeout_canonical {s : State} (h : s.memories.Canonical) : (ckptTimeout s).memories.Canonical := by
  unfold ckptTimeout
  split <;> simp [h]

@[simp] theorem mirrorBegin_canonical {s : State} (h : s.memories.Canonical) (a : Arrival) (marker jobId bytes : BitVec 64)
    (position : BitVec 32) : (mirrorBegin s a marker jobId bytes position).memories.Canonical :=
  onLead_canonical h a 3 fun t ht =>
    ite_canonical (setSnp_canonical ht fun _ hx => Option.some.inj hx ▸ rfl) (by simp [ht])

@[simp] theorem relayShard_canonical {s : State} (h : s.memories.Canonical) (k n : Nat) : (relayShard s k n).memories.Canonical := by
  unfold relayShard
  split
  · exact h
  next m hm =>
    refine ite_canonical h (setSnp_canonical ?_ fun _ hx => Option.some.inj hx ▸ h.mirror m hm)
    simp [h]

@[simp] theorem partnerLost_canonical (fuel : Nat) {s : State} (h : s.memories.Canonical) : (partnerLost fuel s).memories.Canonical := by
  induction fuel generalizing s with
  | zero => exact h
  | succ k ih =>
    unfold partnerLost
    split
    · exact h
    · exact ih (by simp [h])

@[simp] theorem partnerLeadLost_canonical {s : State} (h : s.memories.Canonical) (l : Nat) : (partnerLeadLost s l).memories.Canonical := by
  simp [partnerLeadLost, h]

/-! ## The leads -/

@[simp] theorem loseLead_canonical {s : State} (h : s.memories.Canonical) (i : Nat) : (loseLead s i).memories.Canonical := by
  simp only [loseLead]
  refine ite_canonical h ?_
  generalize hs : partnerLeadLost _ i = u
  have hu : u.memories.Canonical := by
    rw [← hs]
    exact partnerLeadLost_canonical (by simp [-raise_str, h]) i
  exact ite_canonical (cancelRoundUp_canonical hu) hu

@[simp] theorem relaneOn_canonical {s : State} (h : s.memories.Canonical) (i left lane : Nat) :
    (relaneOn s i left lane).memories.Canonical := by
  simp [relaneOn, h]

@[simp] theorem relane_canonical {s : State} (h : s.memories.Canonical) (i lane : Nat) : (relane s i lane).memories.Canonical :=
  relaneOn_canonical h ..

@[simp] theorem groupReset_canonical {s : State} (h : s.memories.Canonical) (g : Nat) : (groupReset s g).memories.Canonical :=
  foldl_canonical (fun _ _ ht => ite_canonical (relaneOn_canonical ht ..) ht) _ h

@[simp] theorem laneFailure_canonical {s : State} (h : s.memories.Canonical) (lane : Nat) : (laneFailure s lane).memories.Canonical := by
  unfold laneFailure
  split <;> simp [h]

@[simp] theorem dropFrame_canonical {s : State} (h : s.memories.Canonical) (i : Nat) (seq : BitVec 64) (cause : Nat)
    (lane : Option Nat) : (dropFrame s i seq cause lane).memories.Canonical := by
  unfold dropFrame
  repeat' split
  all_goals simp [h]

@[simp] theorem leadReject_canonical {s : State} (h : s.memories.Canonical) (i : Nat) (seq : BitVec 64) (cause : Nat)
    (lane : Option Nat) : (leadReject s i seq cause lane).memories.Canonical := by
  simp [leadReject, h]

theorem onJobFrame_canonical {s : State} (h : s.memories.Canonical) (a : Arrival) {f : State → State}
    (hf : ∀ t, t.memories.Canonical → (f t).memories.Canonical) : (onJobFrame s a f).memories.Canonical := by
  simp [onJobFrame, h, hf]

theorem onData_canonical {s : State} (h : s.memories.Canonical) (a : Arrival) (f : LeadFrame) {act : State → State}
    (hact : ∀ t, t.memories.Canonical → (act t).memories.Canonical) : (onData s a f act).memories.Canonical :=
  onJobFrame_canonical h a fun t ht => by simp [ht, onLead_canonical ht a 2 hact]

@[simp] theorem dataFrameReceived_canonical {s : State} (h : s.memories.Canonical) (a : Arrival) (f : LeadFrame) :
    (dataFrameReceived s a f).memories.Canonical :=
  onData_canonical h a f fun t ht => by simp [ht]

@[simp] theorem mirrorPage_canonical {s : State} (h : s.memories.Canonical) (a : Arrival) (f : LeadFrame) :
    (mirrorPage s a f).memories.Canonical := by
  refine onData_canonical h a f fun t ht => ?_
  split
  next m hm =>
    have hpage := mwrite_wf f.payload (ht.mirror m hm) m.got
    exact ite_canonical (setSnp_canonical ht fun _ hx => Option.some.inj hx ▸ hpage) ht
  · exact ht

@[simp] theorem abortReceived_canonical {s : State} (h : s.memories.Canonical) (a : Arrival) (origin : BitVec 24) (cls hops : BitVec 8) :
    (abortReceived s a origin cls hops).memories.Canonical :=
  onJobFrame_canonical h a fun _ ht => onLead_canonical ht a 0 fun u hu => by simp [hu]

/-! ## Collectives -/

@[simp] theorem collWrite_canonical {s : State} (h : s.memories.Canonical) (op : CollOp) : (collWrite s op).memories.Canonical := by
  simp [collWrite, h]

@[simp] theorem passDown_canonical {s : State} (h : s.memories.Canonical) (e : Nat) (op : CollOp) :
    (passDown s e op).memories.Canonical := by
  simp [passDown, h]

@[simp] theorem passUp_canonical {s : State} (h : s.memories.Canonical) (e : Nat) (op : CollOp) : (passUp s e op).memories.Canonical := by
  unfold passUp
  split <;> simp [h]

@[simp] theorem collUse_canonical {s : State} (h : s.memories.Canonical) (e : Nat) (op : CollOp) (f : CollIn) :
    (collUse s e op f).memories.Canonical := by
  unfold collUse
  split <;> simp [h]

@[simp] theorem collRun_canonical (fuel : Nat) {s : State} (h : s.memories.Canonical) (e : Nat) :
    (collRun fuel s e).memories.Canonical := by
  induction fuel generalizing s with
  | zero => exact h
  | succ k ih =>
    unfold collRun
    repeat' split
    all_goals simp [ih, h]

@[simp] theorem collStart_canonical {s : State} (h : s.memories.Canonical) (e : Nat) (w : BitVec 128) (op : CollOp) :
    (collStart s e w op).memories.Canonical := by
  simp [collStart, h]

@[simp] theorem collIssue_canonical {s : State} (h : s.memories.Canonical) (e kind : Nat) : (collIssue s e kind).memories.Canonical := by
  simp [collIssue, h]

@[simp] theorem collReceived_canonical {s : State} (h : s.memories.Canonical) (a : Arrival) (plan seq : BitVec 16) (m : CollMsg) :
    (collReceived s a plan seq m).memories.Canonical := by
  refine onJobFrame_canonical h a fun _ ht => onKept_canonical ht a fun u hu => ?_
  simp only
  split
  · simp [hu]
  · split <;> simp [hu]

/-! ## Completion -/

@[simp] theorem unitComplete_canonical {s : State} (h : s.memories.Canonical) (n : Nat) (w : BitVec 128) :
    (unitComplete s n w).memories.Canonical := by
  simp [unitComplete, h]

@[simp] theorem completeUnits_canonical {s : State} (h : s.memories.Canonical) (seen : List Nat) (done : List (Fin 43 × Bool)) :
    (completeUnits s seen done).1.memories.Canonical := by
  induction done generalizing s seen with
  | nil => exact h
  | cons x xs ih =>
    simp only [completeUnits]
    repeat' split
    all_goals simp [ih, h]

@[simp] theorem instructionComplete_canonical {s : State} (h : s.memories.Canonical) (done : List (Fin 43 × Bool)) :
    (instructionComplete s done).memories.Canonical := by
  simp [instructionComplete, h]

/-! ## Memory faults and retraining -/

@[simp] theorem loseChannel_canonical {s : State} (h : s.memories.Canonical) (i : Nat) : (loseChannel s i).memories.Canonical := by
  simp [loseChannel, h]

@[simp] theorem startRetrain_canonical {s : State} (h : s.memories.Canonical) (stack : Fin 8) (pc : Fin 32) :
    (startRetrain s stack pc).memories.Canonical := by
  simp [startRetrain, h]

@[simp] theorem memCorrected_canonical {s : State} (h : s.memories.Canonical) (stack : Fin 8) (pc : Fin 32) (page : Nat) :
    (memCorrected s stack pc page).memories.Canonical := by
  simp [memCorrected, h]

@[simp] theorem hbmEccReread_canonical {s : State} (h : s.memories.Canonical) (stack : Fin 8) (pc : Fin 32) (page n : Nat) (ok : Bool) :
    (hbmEccReread s stack pc page n ok).memories.Canonical := by
  simp [hbmEccReread, h]

@[simp] theorem pcRetrain_canonical {s : State} (h : s.memories.Canonical) (stack : Fin 8) (pc : Fin 32) :
    (pcRetrain s stack pc).memories.Canonical :=
  startRetrain_canonical h ..

@[simp] theorem pcRetrainDone_canonical {s : State} (h : s.memories.Canonical) (stack : Fin 8) (pc : Fin 32) (ok : Bool) :
    (pcRetrainDone s stack pc ok).memories.Canonical := by
  simp [pcRetrainDone, h]

/-! ## The Kennel -/

@[simp] theorem startTeardown_canonical {s : State} (h : s.memories.Canonical) (fault : Bool) :
    (startTeardown s fault).memories.Canonical := by
  simp only [startTeardown, goState_memories]
  exact { h with mirror := nofun }

@[simp] theorem endJob_canonical {s : State} (h : s.memories.Canonical) (code : Word) : (endJob s code).memories.Canonical := by
  simp [endJob, h]

@[simp] theorem deviceCode_canonical {s : State} (h : s.memories.Canonical) (code : Word) (counted : Bool) :
    (deviceCode s code counted).memories.Canonical := by
  simp [deviceCode, h]

@[simp] theorem applyEffect_canonical {s : State} (h : s.memories.Canonical) (r : Raised) : (applyEffect s r).memories.Canonical := by
  unfold applyEffect
  split <;> simp [h]

@[simp] theorem collect_canonical {s : State} (h : s.memories.Canonical) : (collect s).memories.Canonical := by
  unfold collect
  split <;> simp [h]

@[simp] theorem codeCollected_canonical {s : State} (h : s.memories.Canonical) (d : Detected) :
    (codeCollected s d).memories.Canonical := by
  unfold codeCollected
  repeat' split
  all_goals simp [h]

@[simp] theorem afterCommit_canonical {s : State} (h : s.memories.Canonical) : (afterCommit s).memories.Canonical := by
  simp [afterCommit, h]

@[simp] theorem markerCommit_canonical {s : State} (h : s.memories.Canonical) : (markerCommit s).memories.Canonical := by
  simp [markerCommit, h]

@[simp] theorem jobEnd_canonical {s : State} (h : s.memories.Canonical) : (jobEnd s).memories.Canonical := by
  simp [jobEnd, h]

/-- A vector of empty memories. -/
theorem wf_vget_replicate (n c : Nat) : Mem.wf (vget (Vector.replicate n ([] : Mem)) c []) = true := by
  rw [vget, Vector.toList_replicate, List.getD_eq_getElem?_getD, List.getElem?_replicate]
  split <;> rfl

@[simp] theorem scrubContext_canonical {s : State} (h : s.memories.Canonical) : (scrubContext s).memories.Canonical :=
  have hdiscard : (discardProgram (freeInbox s)).memories.Canonical := by simp [h]
  { hdiscard with board := rfl, boardCheck := checkForm_nil, locals := wf_vget_replicate 16, norm := rfl }

@[simp] theorem newIdleKey_canonical {s : State} (h : s.memories.Canonical) : (newIdleKey s).memories.Canonical :=
  clearHbm_canonical (by simp [h])

@[simp] theorem contextReset_canonical {s : State} (h : s.memories.Canonical) : (contextReset s).memories.Canonical := by
  simp [contextReset, h]

@[simp] theorem hbmScrubComplete_canonical {s : State} (h : s.memories.Canonical) : (hbmScrubComplete s).memories.Canonical := by
  simp [hbmScrubComplete, h]

@[simp] theorem islandReset_canonical {s : State} (h : s.memories.Canonical) (i : Island) : (islandReset s i).memories.Canonical := by
  have hpcs (u : State) (hu : u.memories.Canonical) (stack : Fin 8) :=
    foldl_canonical (fun t pc ht => pcRetrain_canonical ht stack pc) (List.finRange 32) hu
  unfold islandReset
  repeat' split
  all_goals simp [h, hpcs]

/-- A device reset leaves the memories empty (R285, R291). -/
@[simp] theorem resetDie_canonical (s : State) : (resetDie s).memories.Canonical :=
  ⟨rfl, rfl, wf_vget_replicate 16, nofun, rfl, rfl, checkForm_nil, checkForm_nil⟩

@[simp] theorem deviceReset_canonical {s : State} (h : s.memories.Canonical) : (deviceReset s).memories.Canonical := by
  simp [deviceReset, h]

/-! ## Start-up -/

@[simp] theorem packageReset_canonical {s : State} (h : s.memories.Canonical) : (packageReset s).memories.Canonical := by
  simp [packageReset, h]

@[simp] theorem kerrinServing_canonical {s : State} (h : s.memories.Canonical) : (kerrinServing s).memories.Canonical := by
  simp [kerrinServing, h]

@[simp] theorem hbmTrainingDone_canonical {s : State} (h : s.memories.Canonical) (failed : List (Fin 8 × Fin 32)) :
    (hbmTrainingDone s failed).memories.Canonical := by
  have hlost := foldl_canonical (fun t (f : Fin 8 × Fin 32) ht => loseChannel_canonical ht (pcId f.1 f.2)) failed h
  simp [hbmTrainingDone, h, hlost]

@[simp] theorem losePower_canonical (s : State) : (losePower s).memories.Canonical := resetDie_canonical s

@[simp] theorem railFault_canonical (s : State) (rail mv : BitVec 32) : (railFault s rail mv).memories.Canonical := by
  simp [railFault]

@[simp] theorem railOutOfRange_canonical {s : State} (h : s.memories.Canonical) (rail mv : BitVec 32) :
    (railOutOfRange s rail mv).memories.Canonical := by
  simp [railOutOfRange, h]

@[simp] theorem vstbyLoss_canonical {s : State} (h : s.memories.Canonical) : (vstbyLoss s).memories.Canonical := by
  simp [vstbyLoss, h]

/-! ## Drills -/

@[simp] theorem drillFault_canonical {s : State} (h : s.memories.Canonical) (k : Nat) : (drillFault s k).memories.Canonical := by
  simp only [drillFault]
  repeat' split
  all_goals simp [h]

@[simp] theorem beginDrill_canonical {s : State} (h : s.memories.Canonical) (k : Nat) : (beginDrill s k).memories.Canonical := by
  have hbegun : (setSnp (raise s 0x0E010001 .event) { s.snp with
      drillTime := s.shp.time, drillKind := BitVec.ofNat 3 k, drillValid := true, drillActive := some k, drillLast := some k
      cntDrill := satAdd32 s.snp.cntDrill 1 }).memories.Canonical := setSnp_canonical (by simp [h]) h.mirror
  exact drillFault_canonical (by simpa using hbegun) k

@[simp] theorem drillInject_canonical {s : State} (h : s.memories.Canonical) : (drillInject s).memories.Canonical := by
  unfold drillInject
  split <;> simp [h]

/-! ## Register writes and grants -/

@[simp] theorem writeKnlReset_canonical {s : State} (h : s.memories.Canonical) (v : Nat) : (writeKnlReset s v).memories.Canonical := by
  simp [writeKnlReset, h]

@[simp] theorem writeKnl_canonical {s : State} (h : s.memories.Canonical) (owner : Bool) (off v : Nat) :
    (writeKnl s owner off v).1.memories.Canonical := by
  unfold writeKnl
  split <;> simp [h]

@[simp] theorem tokSignal_canonical {s : State} (h : s.memories.Canonical) (v : Nat) : (tokSignal s v).1.memories.Canonical := by
  simp only [tokSignal]
  split <;> simp [h]

@[simp] theorem writeStr_canonical {s : State} (h : s.memories.Canonical) (owner : Bool) (off v : Nat) :
    (writeStr s owner off v).1.memories.Canonical := by
  unfold writeStr
  split <;> simp [h]

@[simp] theorem writeDie_canonical {s : State} (h : s.memories.Canonical) (owner : Bool) (addr v : Nat) :
    (writeDie s owner addr v).1.memories.Canonical := by
  simp only [writeDie]
  repeat' split
  all_goals simp [h]

@[simp] theorem writeShp_canonical {s : State} (h : s.memories.Canonical) (owner : Bool) (addr v : Nat) :
    (writeShp s owner addr v).1.memories.Canonical := by
  -- The offset is a variable here, since the kernel cannot evaluate `addr - 0x100000` under the match.
  obtain ⟨off, hoff⟩ : ∃ off, off = addr - 0x100000 := ⟨_, rfl⟩
  generalize hp : writeShp s owner addr v = p
  delta writeShp at hp
  rw [← hoff] at hp
  dsimp only at hp
  split at hp <;> subst hp
  all_goals
    repeat' split
    all_goals simp [h]

/-- A served write keeps the canonical form where the register file's writes do. -/
theorem serveWrite_canonical {s : State} (h : s.memories.Canonical) (r : Req) (k : ReqKind) (file : State → Nat → Option Nat)
    {write : State → Bool → Nat → Nat → State × Option Nat} (addr v : Nat)
    (hwrite : ∀ t o a x, t.memories.Canonical → (write t o a x).1.memories.Canonical) :
    (serveWrite s r k file write addr v).memories.Canonical := by
  refine request_canonical h r k fun t ht => ?_
  have hwritten := hwrite t false addr v ht
  split
  · simp [ht]
  · split
    · simp [ht]
    · split <;> rename_i h <;> rw [h] at hwritten <;> simpa using hwritten

@[simp] theorem regWrite_canonical {s : State} (h : s.memories.Canonical) (r : Req) (addr v : Nat) :
    (regWrite s r addr v).memories.Canonical :=
  serveWrite_canonical h r _ _ addr v fun _ _ _ _ ht => writeDie_canonical ht ..

@[simp] theorem beginUnlock_canonical {s : State} (h : s.memories.Canonical) : (beginUnlock s).memories.Canonical := by
  simp [beginUnlock, h]

@[simp] theorem ownerWrite_canonical {s : State} (h : s.memories.Canonical) (addr v : Nat) :
    (ownerWrite s addr v).1.memories.Canonical := by
  unfold ownerWrite
  split <;> simp [h]

@[simp] theorem grant_canonical {s : State} (h : s.memories.Canonical) (r : Req) (g : Grant) : (grant s r g).memories.Canonical := by
  refine request_canonical h r kKeyShp fun t ht => ?_
  repeat' split
  all_goals simp [ht]

/-! ## The Tether links -/

@[simp] theorem bothLinksLost_canonical {s : State} (h : s.memories.Canonical) : (bothLinksLost s).memories.Canonical := by
  simp [bothLinksLost, h]

@[simp] theorem tetherAbort_canonical {s : State} (h : s.memories.Canonical) (r : Req) : (tetherAbort s r).memories.Canonical :=
  request_canonical h r kAbort fun t ht => by simp [ht]

/-! ## Secrecy -/

@[simp] theorem overwriteHbm_canonical {s : State} (h : s.memories.Canonical) : (overwriteHbm s).memories.Canonical :=
  clearHbm_canonical (by simp [h])

@[simp] theorem jobKey_canonical {s : State} (h : s.memories.Canonical) (r : Req) (jobId : BitVec 64) (node : BitVec 512)
    (wrapped : BitVec 256) (tag : BitVec 128) (epochW epochR : Word) :
    (jobKey s r jobId node wrapped tag epochW epochR).memories.Canonical := by
  refine request_canonical h r kJob fun t ht => ?_
  simp only
  repeat' split
  all_goals simp [ht]

@[simp] theorem jobDrop_canonical {s : State} (h : s.memories.Canonical) (r : Req) (jobId : BitVec 64) :
    (jobDrop s r jobId).memories.Canonical :=
  request_canonical h r kJob fun t ht => by simp [ht]

@[simp] theorem debugUnlock_canonical {s : State} (h : s.memories.Canonical) : (debugUnlock s).memories.Canonical := by
  simp [debugUnlock, h]

/-! ## Restore -/

@[simp] theorem writePage_canonical {s : State} (h : s.memories.Canonical) (x : Restore) (p : Nat) (plain : Bytes) :
    (writePage s x p plain).memories.Canonical := by
  unfold writePage
  repeat' split
  all_goals simp [h]

@[simp] theorem pageWhole_canonical {s : State} (h : s.memories.Canonical) (x : Restore) (p : Nat) (stored : Bytes)
    (plain : Option Bytes) : (pageWhole s x p stored plain).memories.Canonical := by
  unfold pageWhole
  split <;> simp [h]

/-- A bulk frame taken keeps the canonical form where what it does keeps it. -/
theorem bulk_canonical {s : State} (h : s.memories.Canonical) (l : Nat) {f : State → State}
    (hf : ∀ t, t.memories.Canonical → (f t).memories.Canonical) : (bulk s l f).memories.Canonical := by
  simp [bulk, h, hf]

@[simp] theorem restorePage_canonical {s : State} (h : s.memories.Canonical) (l : Nat) (marker : BitVec 64) (position : BitVec 32)
    (shard page off : Nat) (b : Bytes) : (restorePage s l marker position shard page off b).memories.Canonical := by
  refine bulk_canonical h l fun t ht => ?_
  repeat' split
  all_goals simp [ht]

@[simp] theorem restoreDone_canonical {s : State} (h : s.memories.Canonical) (x : Restore) : (restoreDone s x).memories.Canonical :=
  { h with norm := rfl }

@[simp] theorem restoreResult_canonical {s : State} (h : s.memories.Canonical) (x : Restore) :
    (restoreResult s x).memories.Canonical := by
  unfold restoreResult
  split <;> simp [h]

@[simp] theorem restoreEnd_canonical {s : State} (h : s.memories.Canonical) (r : Req) : (restoreEnd s r).memories.Canonical := by
  refine request_canonical h r kCkpt fun t ht => ?_
  split <;> simp [ht]

/-! ## Every step -/

@[simp] theorem runCounter_memories (s : State) : (runCounter s).memories = s.memories := by
  unfold runCounter
  split <;> simp

@[simp] theorem sendBulk_memories (s : State) (n l : Nat) : (sendBulk s n l).memories = s.memories := by
  simp only [sendBulk]
  split
  · rw [foldl_memories fun t b => tetSend_memories t l false b, setSess_memories]
  · rfl

/-- A microsecond with no command waiting leaves the memories (log 4). -/
theorem tick_memories (s : State) : (tick s).memories = s.memories := by
  rw [tick, sendBulk_memories, sendBulk_memories]
  split
  · exact runCounter_memories s
  · exact runCounter_memories s

/-- A Sideband write to the Shepherd's registers keeps the canonical form. -/
@[simp] theorem sideWrite_canonical {s : State} (h : s.memories.Canonical) (r : Req) (addr v : Nat) :
    (serveWrite s r kSide shpFile writeShp addr v).memories.Canonical :=
  serveWrite_canonical h r _ _ addr v fun _ _ _ _ ht => writeShp_canonical ht ..

theorem exec_canonical {s t : State} (h : s.memories.Canonical) (c : Instr) (hexec : exec c s = .next t) :
    t.memories.Canonical := by
  cases c <;> obtain rfl := Host.Outcome.next.inj hexec <;> simp [h]

/-- Settles O5: each command's meaning keeps the canonical form, operation by operation, and the clocks' microsecond leaves the memories. -/
theorem canonicalKept : Obligations.CanonicalKept := by
  intro s t hs hstep
  rw [canonical_iff] at hs ⊢
  unfold step at hstep
  split at hstep
  case h_1 =>
    obtain rfl := Host.Outcome.next.inj hstep
    rwa [tick_memories]
  case h_2 c rest _ =>
    exact exec_canonical (s := { s with pending := rest }) (by simpa using hs) c hstep

end Sys2Proof.Machine
end

section
/-!
SUPPORT. What an HBM access meets and the drills: the channel that is lost or retrains (R310, R311), the lanes that
survive a re-lane (R341), and what the drill engine injects.
-/
namespace Sys2Proof.Machine

/-! ## Lanes and live channels -/

theorem bitOf_eq_testBit (x i : Nat) : bitOf x i = x.testBit i := by
  rw [bitOf, Nat.testBit_eq_decide_div_mod_eq]
  rfl

/-- Adding a power of two sets a bit that is clear, and no other. -/
theorem testBit_two_pow_add {b : Nat} : ∀ {y : Nat}, y.testBit b = false →
    ∀ j, (2 ^ b + y).testBit j = (decide (j = b) || y.testBit j) := by
  induction b with
  | zero =>
    intro y hy j
    have heven : y % 2 = 0 := by simpa [Nat.testBit_zero] using hy
    cases j with
    | zero => simp [Nat.testBit_zero]; omega
    | succ j =>
      have hhalf : (2 ^ 0 + y) / 2 = y / 2 := by omega
      rw [Nat.testBit_succ, hhalf, ← Nat.testBit_succ]
      simp
  | succ b ih =>
    intro y hy j
    cases j with
    | zero => simp [Nat.testBit_zero, Nat.pow_succ]
    | succ j =>
      have hhalf : (2 ^ (b + 1) + y) / 2 = 2 ^ b + y / 2 := by omega
      rw [Nat.testBit_succ, hhalf, ih (by rwa [← Nat.testBit_succ]), Nat.testBit_succ]
      simp

/-- Taking a set bit's power of two away clears that bit, and no other. -/
theorem testBit_sub_two_pow {x b : Nat} (h : x.testBit b = true) (j : Nat) : (x - 2 ^ b).testBit j = (decide (j ≠ b) && x.testBit j) := by
  obtain ⟨y, rfl⟩ : ∃ y, x = 2 ^ b + y := ⟨_, (Nat.add_sub_cancel' (Nat.ge_two_pow_of_testBit h)).symm⟩
  have hclear : y.testBit b = false := by simpa [Nat.testBit_two_pow_add_eq] using h
  rw [Nat.add_sub_cancel_left, testBit_two_pow_add hclear]
  by_cases hj : j = b
  · simp [hj, hclear]
  · simp [hj]

/-- A lane that is taken away leaves one fewer. -/
theorem onesIn_sub_two_pow {x b : Nat} (h : x.testBit b = true) (k : Nat) :
    onesIn x 0 k ≤ onesIn (x - 2 ^ b) 0 k + (if b < k then 1 else 0) := by
  induction k with
  | zero => simp [onesIn]
  | succ k ih =>
    simp only [onesIn, Nat.zero_add, bitOf_eq_testBit, testBit_sub_two_pow h]
    rcases Nat.lt_trichotomy b k with hlt | rfl | hlt
    · rw [if_pos hlt] at ih
      rw [if_pos (Nat.lt_succ_of_lt hlt), decide_eq_true (Nat.ne_of_gt hlt), Bool.true_and]
      omega
    · rw [if_neg (Nat.lt_irrefl b)] at ih
      simp only [if_pos (Nat.lt_succ_self b), h, b2n, if_true, ne_eq, not_true_eq_false, decide_false, Bool.false_and]
      omega
    · rw [if_neg (by omega)] at ih ⊢
      rw [decide_eq_true (Nat.ne_of_lt hlt), Bool.true_and]
      omega

theorem firstBelow_some {p : Nat → Bool} {n i : Nat} (h : firstBelow p n = some i) : p i = true := by
  induction n with
  | zero => cases h
  | succ n ih =>
    rw [firstBelow] at h
    cases hn : firstBelow p n with
    | some k => exact ih (by rwa [hn] at h ⊢)
    | none =>
      rw [hn] at h
      obtain ⟨hp, hi⟩ := Option.ite_none_right_eq_some.mp h
      rwa [← Option.some.inj hi]

/-- The lanes kept: the lowest, and those kept of the others. -/
theorem lowestLanes_succ (m n : Nat) : lowestLanes m (n + 1) =
    (firstBelow (bitOf m) 32).elim 0 fun b => 2 ^ b + lowestLanes (m - 2 ^ b) n := by
  show (match firstBelow (bitOf m) 32 with | some b => 2 ^ b + lowestLanes (m - 2 ^ b) n | none => 0) = _
  generalize firstBelow (bitOf m) 32 = lowest
  cases lowest <;> rfl

/-- The lanes kept are lanes that were left. -/
theorem testBit_lowestLanes {m : Nat} (n j : Nat) (h : (lowestLanes m n).testBit j = true) : m.testBit j = true := by
  induction n generalizing m j with
  | zero => exact absurd h (by simp [show lowestLanes m 0 = 0 from rfl])
  | succ n ih =>
    rw [lowestLanes_succ] at h
    cases hb : firstBelow (bitOf m) 32 with
    | none => simp [hb] at h
    | some b =>
      rw [hb, Option.elim_some] at h
      have hset : m.testBit b = true := bitOf_eq_testBit m b ▸ firstBelow_some hb
      have hrest : ∀ i, (lowestLanes (m - 2 ^ b) n).testBit i = true → i ≠ b ∧ m.testBit i = true := by
        intro i hi
        simpa [testBit_sub_two_pow hset] using ih i hi
      have hclear : (lowestLanes (m - 2 ^ b) n).testBit b = false :=
        Bool.eq_false_iff.mpr fun hon => (hrest b hon).1 rfl
      rw [testBit_two_pow_add hclear] at h
      rcases (Bool.or_eq_true _ _).mp h with hj | hj
      · rwa [of_decide_eq_true hj]
      · exact (hrest j hj).2

/-- Two surviving lanes are enough to go on (R341). -/
theorem laneCount_ne_zero {n : Nat} (h : 2 ≤ n) : laneCount n ≠ 0 := by
  have hfind : ([16, 12, 8, 6, 4, 2].find? (· ≤ n)).isSome = true := List.find?_isSome.mpr ⟨2, by simp, by simpa using h⟩
  obtain ⟨k, hk⟩ := Option.isSome_iff_exists.mp hfind
  have hmem := List.mem_of_find?_eq_some hk
  rw [laneCount, hk]
  rintro rfl
  simp at hmem

theorem vget_vmodify_same {α : Type} {n : Nat} (v : Vector α n) {i : Nat} (h : i < n) (f : α → α) (d : α) :
    vget (vmodify v i f) i d = f (vget v i d) := by
  simp [vget, vmodify, h, List.getD_eq_getElem?_getD]

/-- A dropped channel is not live. -/
theorem pcLive_dropChannel (s : State) {i : Nat} (h : i < 256) : pcLive (dropChannel s i) i = false := by
  simp only [pcLive, dropChannel, vget_vmodify_same _ (show i / 32 < 8 by omega), bitOf_toNat]
  have hbit : i % 32 < 32 := Nat.mod_lt _ (by decide)
  simp only [BitVec.getLsbD_and, BitVec.getLsbD_not, BitVec.getLsbD_ofNat, Nat.testBit_two_pow_self, hbit, decide_true, Bool.and_self,
    Bool.not_true, Bool.and_false]

theorem pcId_lt (stack : Fin 8) (pc : Fin 32) : pcId stack pc < 256 := by
  unfold pcId
  omega

/-! ## Codes of the memory -/

/-- A code of the memory changes its EVENT and its counters, and is on its way. -/
theorem raise_onlyMem {s : State} (h : s.die ≠ .off) {code b : Nat} {count : MemS → MemS} (hb : eventBit code = some (.mem, b))
    (hc : ∀ t, countCode t code = { t with mem := count t.mem }) (eff : Effect) (detail : Bytes) :
    raise s code eff detail = { s with
      mem := count { s.mem with event := orBit s.mem.event b }
      knl := { s.knl with inflight := s.knl.inflight ++ [⟨BitVec.ofNat 32 code, eff, detail, s.sys.drill⟩] } } := by
  unfold raise
  rw [hb]
  simp only [hc, setEvent, if_neg h]

/-! ## What the loss of a channel keeps -/

/-- From s to t HBM, the live channels and those that retrain are as they were, a device stays degraded, and no code on its way is lost. -/
structure ChannelsKept (s t : State) : Prop where
  hbm : t.mem.hbm = s.mem.hbm
  live : t.mem.live = s.mem.live
  retraining : t.mem.retraining = s.mem.retraining
  die : t.die = s.die
  degraded : s.sys.degraded = true → t.sys.degraded = true
  inflight : ∀ r ∈ s.knl.inflight, r ∈ t.knl.inflight

theorem ChannelsKept.trans {s t u : State} (h : ChannelsKept s t) (h' : ChannelsKept t u) : ChannelsKept s u where
  hbm := h'.hbm.trans h.hbm
  live := h'.live.trans h.live
  retraining := h'.retraining.trans h.retraining
  die := h'.die.trans h.die
  degraded hd := h'.degraded (h.degraded hd)
  inflight r hr := h'.inflight r (h.inflight r hr)

theorem ChannelsKept.refl (s : State) : ChannelsKept s s := ⟨rfl, rfl, rfl, rfl, id, fun _ h => h⟩

/-- What leaves the memory, the power, SYS_STATE and the codes on their way keeps the channels. -/
theorem channelsKept_of_eq {s t : State} (hmem : t.mem = s.mem) (hdie : t.die = s.die) (hsys : t.sys = s.sys)
    (hin : t.knl.inflight = s.knl.inflight) : ChannelsKept s t :=
  ⟨congrArg MemS.hbm hmem, congrArg MemS.live hmem, congrArg MemS.retraining hmem, hdie,
    fun hd => (congrArg Sys.degraded hsys).trans hd, fun _ hr => hin ▸ hr⟩

theorem ChannelsKept.released {s t : State} (h : ChannelsKept s t) (hs : s.die ≠ .off) : t.die ≠ .off := by
  rwa [h.die]

theorem ChannelsKept.pcLive {s t : State} (h : ChannelsKept s t) (i : Nat) : pcLive t i = pcLive s i := by
  rw [Machine.pcLive, h.live, Machine.pcLive]

theorem ChannelsKept.onItsWay {s t : State} (h : ChannelsKept s t) {code : Nat} {eff : Effect} {detail : Bytes} {drill : Bool}
    (hs : OnItsWay s code eff detail drill) : OnItsWay t code eff detail drill := h.inflight _ hs

/-- From s to t HBM, the live channels, those that retrain and SYS_STATE are as they were. -/
structure ChannelsAndSysKept (s t : State) : Prop where
  hbm : t.mem.hbm = s.mem.hbm
  live : t.mem.live = s.mem.live
  retraining : t.mem.retraining = s.mem.retraining
  die : t.die = s.die
  sys : t.sys = s.sys

theorem ChannelsAndSysKept.trans {s t u : State} (h : ChannelsAndSysKept s t) (h' : ChannelsAndSysKept t u) : ChannelsAndSysKept s u :=
  ⟨h'.hbm.trans h.hbm, h'.live.trans h.live, h'.retraining.trans h.retraining, h'.die.trans h.die, h'.sys.trans h.sys⟩

/-- What keeps SYS_STATE, the channels and the codes on their way keeps what the loss of a channel keeps. -/
theorem ChannelsAndSysKept.channelsKept {s t : State} (h : ChannelsAndSysKept s t) (hin : ∀ r ∈ s.knl.inflight, r ∈ t.knl.inflight) :
    ChannelsKept s t :=
  ⟨h.hbm, h.live, h.retraining, h.die, fun hd => (congrArg Sys.degraded h.sys).trans hd, hin⟩

/-- Raising a code leaves the channels and SYS_STATE. -/
theorem channelsAndSysKept_raise {s : State} (h : s.die ≠ .off) (code : Nat) (eff : Effect) (detail : Bytes) :
    ChannelsAndSysKept s (raise s code eff detail) := by
  refine raise_keeps (R := ChannelsAndSysKept) (fun _ _ _ => .trans) (fun _ _ => ChannelsAndSysKept.die) ?_ ?_
    (fun _ _ => ⟨rfl, rfl, rfl, rfl, rfl⟩) h code eff detail
  · intro t u b
    cases u <;> exact ⟨rfl, rfl, rfl, rfl, rfl⟩
  · intro t c
    unfold countCode
    split <;> exact ⟨rfl, rfl, rfl, rfl, rfl⟩

theorem channelsKept_raise {s : State} (h : s.die ≠ .off) (code : Nat) (eff : Effect) (detail : Bytes) :
    ChannelsKept s (raise s code eff detail) :=
  (channelsAndSysKept_raise h code eff detail).channelsKept fun r hr => by
    rw [raise_inflight h]
    exact List.mem_append_left _ hr

theorem channelsKept_notify (s : State) (reason : Reason) (code : Nat) : ChannelsKept s (notify s reason code) := by
  obtain ⟨link, held, period, serial, hnote⟩ := notify_eq s reason code
  rw [hnote]
  exact channelsKept_of_eq rfl rfl rfl rfl

theorem channelsKept_goState (s : State) (st : DevState) : ChannelsKept s (goState s st) := by
  obtain ⟨seq, repl, link, held, period, serial, hgo⟩ := goState_eq s st
  rw [hgo]
  exact ⟨rfl, rfl, rfl, rfl, id, fun _ h => h⟩

theorem channelsKept_discardProgram (s : State) : ChannelsKept s (discardProgram s) :=
  channelsKept_of_eq rfl rfl rfl rfl

theorem channelsKept_disarm {s : State} (h : s.die ≠ .off) : ChannelsKept s (disarm s) := by
  simp only [disarm]
  split
  · refine .trans ?_ (channelsKept_goState _ .withdrawn)
    split
    · exact channelsKept_of_eq rfl rfl rfl rfl
    · refine .trans ?_ (channelsKept_raise (by exact h) 0x0D010002 .event [])
      exact channelsKept_of_eq rfl rfl rfl rfl
  · refine .trans ?_ (channelsKept_goState _ .holding)
    exact channelsKept_of_eq rfl rfl rfl rfl

/-- A round-up that is cancelled in ARMED keeps the channels. -/
theorem channelsKept_cancelRoundUp {s : State} (h : s.die ≠ .off) (hst : s.sys.st = .armed) : ChannelsKept s (cancelRoundUp s) := by
  obtain ⟨lead, hsend⟩ := leadSendAll_eq s (jobLeads s) (.ruFrame .cancel (cancelFrame s s.tet.depth s.tet.plan s.tet.armId s.str.job))
  have hcancel : cancelRoundUp s = disarm (notify (raise (leadSendAll s (jobLeads s)
      (.ruFrame .cancel (cancelFrame s s.tet.depth s.tet.plan s.tet.armId s.str.job))) 0x080B0007 .event (d4 s.tet.armId.toNat))
      .cancelled 0x080B0007) := if_pos hst
  rw [hsend] at hcancel
  have hraise := channelsKept_raise (s := { s with lead := { s.lead with lead := lead } }) h 0x080B0007 .event (d4 s.tet.armId.toNat)
  have hnote := hraise.trans (channelsKept_notify _ .cancelled 0x080B0007)
  rw [hcancel]
  refine .trans (t := { s with lead := { s.lead with lead := lead } }) (channelsKept_of_eq rfl rfl rfl rfl) ?_
  exact hnote.trans (channelsKept_disarm (hnote.released h))

/-- A load in progress that fails keeps the channels, and the program that is held. -/
theorem channelsKept_failLoad {s : State} (h : s.die ≠ .off) : ChannelsKept s (failLoad s) ∧ (failLoad s).str.image = s.str.image := by
  by_cases ha : s.ld.active = true
  · obtain ⟨event, link, held, period, serial, hfail⟩ := failLoad_active h ha
    rw [hfail]
    exact ⟨⟨rfl, rfl, rfl, rfl, id, fun _ hr => List.mem_append_left _ hr⟩, rfl⟩
  · rw [failLoad, if_neg ha]
    exact ⟨.refl s, rfl⟩

/-- A channel that is dropped degrades the device. -/
theorem channelsKept_degrade {s : State} (h : s.die ≠ .off) (fresh : Bool) : ChannelsKept s (degrade s fresh) ∧
    (degrade s fresh).sys.degraded = true ∧ (degrade s fresh).sys.st = s.sys.st ∧ (degrade s fresh).sys.drill = s.sys.drill := by
  obtain ⟨seq, repl, link, held, period, serial, hchange⟩ := sysChange_eq s s.sys.st true s.sys.drill true
  have hkept : ChannelsKept s (sysChange s s.sys.st true s.sys.drill true) := by
    rw [hchange]
    exact ⟨rfl, rfl, rfl, rfl, fun _ => rfl, fun _ h => h⟩
  have hst : (sysChange s s.sys.st true s.sys.drill true).sys.st = s.sys.st := by
    rw [hchange]
  have hdeg : (sysChange s s.sys.st true s.sys.drill true).sys.degraded = true := by
    rw [hchange]
  have hdrill : (sysChange s s.sys.st true s.sys.drill true).sys.drill = s.sys.drill := by
    rw [hchange]
  unfold degrade
  split
  · have hoff : (sysChange s s.sys.st true s.sys.drill true).die ≠ .off := hkept.die ▸ h
    have hsys := (channelsAndSysKept_raise hoff 0x0D010002 .event []).sys
    exact ⟨hkept.trans (channelsKept_raise hoff _ _ _), hsys ▸ hdeg, hsys ▸ hst, hsys ▸ hdrill⟩
  · exact ⟨hkept, hdeg, hst, hdrill⟩

/-- What the loss of a channel does with a program that waits: a round-up in ARMED is cancelled, and a program that is held is discarded. -/
def discardWaiting (s : State) : State :=
  if s.sys.st = .armed then discardProgram (cancelRoundUp s) else if s.sys.st = .holding then discardProgram s else s

theorem discardWaiting_spec {s : State} (h : s.die ≠ .off) :
    ChannelsKept s (discardWaiting s) ∧ (s.sys.st = .holding → (discardWaiting s).str.image = none) := by
  unfold discardWaiting
  split
  case isTrue harmed => exact ⟨(channelsKept_cancelRoundUp h harmed).trans (channelsKept_discardProgram _), fun _ => rfl⟩
  case isFalse =>
    split
    case isTrue => exact ⟨channelsKept_discardProgram s, fun _ => rfl⟩
    case isFalse hnot => exact ⟨.refl s, fun hs => absurd hs hnot⟩

/-- How the loss of a channel is reported: it ends a job that runs or is armed. -/
def lossEffect (s : State) : Effect := if s.sys.st = .running ∨ s.sys.st = .armed then .jobEnding else .event

theorem loseChannel_eq {s : State} {i : Nat} (hlive : pcLive s i = true) : loseChannel s i =
    failLoad (discardWaiting (raise (degrade (dropChannel s i) (allLive s)) 0x06060006
      (lossEffect (degrade (dropChannel s i) (allLive s))))) :=
  if_neg (by simp [hlive])

/-- R311: a live channel that is lost is dropped, degrades the device, is reported, and a program that is held is discarded. -/
theorem loseChannel_spec {s : State} (h : s.die ≠ .off) {i : Nat} (hlive : pcLive s i = true) :
    ChannelsKept (dropChannel s i) (loseChannel s i) ∧ (loseChannel s i).sys.degraded = true ∧
      OnItsWay (loseChannel s i) 0x06060006 (lossEffect s) [] s.sys.drill ∧
      (s.sys.st = .holding → (loseChannel s i).str.image = none) := by
  obtain ⟨hdropped, hdegraded, hst, hdrill⟩ := channelsKept_degrade (s := dropChannel s i) h (allLive s)
  rw [loseChannel_eq hlive]
  generalize degrade (dropChannel s i) (allLive s) = a at *
  have hst' : a.sys.st = s.sys.st := hst
  have heffect : lossEffect a = lossEffect s := by rw [lossEffect, hst', lossEffect]
  have hdrill' : a.sys.drill = s.sys.drill := hdrill
  have ha : a.die ≠ .off := hdropped.released h
  have hway := raise_onItsWay ha 0x06060006 (lossEffect a) []
  have hraised := channelsKept_raise ha 0x06060006 (lossEffect a) []
  obtain ⟨hwaiting, himage⟩ := discardWaiting_spec (hraised.released ha)
  obtain ⟨hfail, hkeeps⟩ := channelsKept_failLoad (hwaiting.released (hraised.released ha))
  have hafter := hwaiting.trans hfail
  refine ⟨hdropped.trans (hraised.trans hafter), (hraised.trans hafter).degraded hdegraded, ?_, fun hs => hkeeps.trans (himage ?_)⟩
  · rw [← heffect, ← hdrill']
    exact hafter.onItsWay hway
  · rw [(channelsAndSysKept_raise ha ..).sys, hst', hs]

/-- A channel that is lost is not live, and HBM is as it was. -/
theorem loseChannel_loses {s : State} (h : s.die ≠ .off) {i : Nat} (hi : i < 256) (hlive : pcLive s i = true) :
    pcLive (loseChannel s i) i = false ∧ (loseChannel s i).mem.hbm = s.mem.hbm := by
  obtain ⟨hkept, -, -, -⟩ := loseChannel_spec h hlive
  exact ⟨(hkept.pcLive i).trans (pcLive_dropChannel s hi), hkept.hbm⟩

/-! ## A strand whose instruction met a fault of its data -/

theorem killStrand_spec (s : State) (n : Fin 43) : (∀ m, m ≠ n.val → strand (killStrand s n) m = strand s m) ∧
    strand (killStrand s n) n = if (strand s n).inflight = [] then strand s n else { strand s n with st := 8, dead := true } := by
  unfold killStrand idle
  by_cases hidle : (strand s n).inflight = []
  · simp [hidle]
  · have hbusy : (strand s n).inflight.isEmpty = false := by simpa using hidle
    simp only [hbusy, Bool.false_eq_true, if_false, if_neg hidle]
    exact ⟨fun m hm => strand_setStrand_other s hm _, strand_setStrand_same s n.isLt _⟩

theorem channelsKept_killStrand (s : State) (n : Nat) : ChannelsKept s (killStrand s n) := by
  unfold killStrand
  split
  · exact .refl s
  · exact channelsKept_of_eq rfl rfl rfl rfl

theorem channelsKept_drillHandled (s : State) (k : Nat) : ChannelsKept s (drillHandled s k) := by
  unfold drillHandled
  split
  · obtain ⟨seq, repl, link, held, period, serial, hchange⟩ :=
      sysChange_eq { s with snp := { s.snp with drillActive := none } } s.sys.st s.sys.degraded false s.sys.replace
    rw [endDrill, hchange]
    exact ⟨rfl, rfl, rfl, rfl, id, fun _ h => h⟩
  · exact .refl s

/-! ## An access that failed its check (R292, R296, R300, R301) -/

section
variable {s : State} {stack : Fin 8} {pc : Fin 32}

theorem released_of_serving (h : s.die = .serving) : s.die ≠ .off := by
  rw [h]
  decide

theorem memOn_of_serving (h : s.die = .serving) : memOn s = true := by
  rw [memOn, h]
  rfl

/-- The access stands with the others of its channel. -/
def noteUncorr (s : State) (i : Nat) : State :=
  { s with mem := { s.mem with pcUncorr := sset s.mem.pcUncorr i (s.shp.time :: recent s 1000000 (sgetD s.mem.pcUncorr i [])) } }

/-- What the second try of an access brings: it is corrected, or it ends the job and its strand's instruction never completes. -/
def eccTried (s : State) (stack : Fin 8) (pc : Fin 32) (page n : Nat) (ok : Bool) : State :=
  let s := noteUncorr s (pcId stack pc)
  if ok then memCorrected s stack pc page
  else killStrand (raise s 0x06060002 .jobEnding (d4 (pcId stack pc) ++ d4 page)) n

theorem hbmEccReread_eq (h : s.die = .serving) (hlive : pcLive s (pcId stack pc) = true) (page n : Nat) (ok : Bool) :
    hbmEccReread s stack pc page n ok =
      if (recent s 1000000 (sgetD s.mem.pcUncorr (pcId stack pc) [])).isEmpty then eccTried s stack pc page n ok
      else loseChannel (eccTried s stack pc page n ok) (pcId stack pc) :=
  if_neg (by simp [memOn_of_serving h, hlive])

theorem eccTried_bad (h : s.die = .serving) (page : Nat) (n : Fin 43) :
    ChannelsKept s (eccTried s stack pc page n false) ∧
      OnItsWay (eccTried s stack pc page n false) 0x06060002 .jobEnding (natLE 4 (pcId stack pc) ++ natLE 4 page) s.sys.drill := by
  have hoff : (noteUncorr s (pcId stack pc)).die ≠ .off := released_of_serving h
  have hkill := channelsKept_killStrand (raise (noteUncorr s (pcId stack pc)) 0x06060002 .jobEnding (d4 (pcId stack pc) ++ d4 page)) n
  exact ⟨.trans (t := noteUncorr s (pcId stack pc)) ⟨rfl, rfl, rfl, rfl, id, fun _ h => h⟩ ((channelsKept_raise hoff ..).trans hkill),
    hkill.onItsWay (raise_onItsWay hoff ..)⟩

/-- A strand whose instruction met the fault of a code, and no other strand, is stopped. -/
theorem killStrand_raise_spec {u : State} (hstr : u.str = s.str) (code : Nat) (eff : Effect) (detail : Bytes) (n : Fin 43) :
    (∀ m, m ≠ n.val → strand (killStrand (raise u code eff detail) n) m = strand s m) ∧
      strand (killStrand (raise u code eff detail) n) n =
        if (strand s n).inflight = [] then strand s n else { strand s n with st := 8, dead := true } := by
  have hstrand : ∀ m, strand (raise u code eff detail) m = strand s m := fun m => by
    rw [strand, raise_str, hstr, strand]
  obtain ⟨hother, hsame⟩ := killStrand_spec (raise u code eff detail) n
  rw [hstrand] at hsame
  exact ⟨fun m hm => (hother m hm).trans (hstrand m), hsame⟩

/-- A corrected access below the sixteenth within 1 ms starts no retrain. -/
theorem memCorrected_eq (h : s.die ≠ .off) (page : Nat) (hfew : (recent s 1000 (sgetD s.mem.pcTimes (pcId stack pc) [])).length < 15) :
    ∃ event pcCorr pcTimes inflight, memCorrected s stack pc page = { s with
      mem := { s.mem with event := event, cntCorr := satAdd32 s.mem.cntCorr 1, pcCorr := pcCorr, pcTimes := pcTimes }
      knl := { s.knl with inflight := inflight } } := by
  simp only [memCorrected]
  rw [if_neg (by simp only [List.length_cons, correctedLimit]; omega)]
  rw [raise_onlyMem (by exact h) (b := 0) (count := fun m => { m with cntCorr := satAdd32 m.cntCorr 1 }) rfl fun _ => rfl]
  exact ⟨_, _, _, _, rfl⟩

theorem eccTried_good (h : s.die = .serving) (page n : Nat) (hfew : (recent s 1000 (sgetD s.mem.pcTimes (pcId stack pc) [])).length < 15) :
    ∃ event pcUncorr pcCorr pcTimes inflight, eccTried s stack pc page n true = { s with
      mem := { s.mem with
        event := event, cntCorr := satAdd32 s.mem.cntCorr 1, pcUncorr := pcUncorr, pcCorr := pcCorr, pcTimes := pcTimes }
      knl := { s.knl with inflight := inflight } } := by
  obtain ⟨event, pcCorr, pcTimes, inflight, hcorr⟩ :=
    memCorrected_eq (s := noteUncorr s (pcId stack pc)) (released_of_serving h) page hfew
  exact ⟨event, _, pcCorr, pcTimes, inflight, hcorr⟩

theorem checkValueReread_eq (h : s.die = .serving) (hlive : pcLive s (pcId stack pc) = true) (row n : Nat) (ok : Bool) :
    checkValueReread s (pcId stack pc) row n ok = drillHandled
      (if ok then raise s 0x03060001 .absorbed (checkDetail s (pcId stack pc) row)
       else killStrand (raise s 0x03060002 .jobEnding (checkDetail s (pcId stack pc) row)) n) 2 :=
  if_neg (by simp [memOn_of_serving h, hlive])

theorem drillHandled_of_snp {t : State} (hdrill : s.snp.drillActive = none) (ht : t.snp = s.snp) (k : Nat) : drillHandled t k = t :=
  drillHandled_none (by rw [ht, hdrill]) k

theorem killStrand_mem (s : State) (n : Nat) : (killStrand s n).mem = s.mem := by
  unfold killStrand
  split <;> rfl

theorem killStrand_snp (s : State) (n : Nat) : (killStrand s n).snp = s.snp := by
  unfold killStrand
  split <;> rfl

/-- R300: an access whose block verifies on the second try is counted and reported. -/
theorem checkValueReread_good (h : s.die = .serving) (hlive : pcLive s (pcId stack pc) = true) (hdrill : s.snp.drillActive = none)
    (row n : Nat) :
    (checkValueReread s (pcId stack pc) row n true).mem.cntCheck = satAdd32 s.mem.cntCheck 1 ∧
      (checkValueReread s (pcId stack pc) row n true).mem.hbm = s.mem.hbm ∧
      OnItsWay (checkValueReread s (pcId stack pc) row n true) 0x03060001 .absorbed (checkDetail s (pcId stack pc) row) s.sys.drill ∧
      (checkValueReread s (pcId stack pc) row n true).str = s.str := by
  have hraise := raise_onlyMem (released_of_serving h) (code := 0x03060001) (b := 2)
    (count := fun m => { m with cntCheck := satAdd32 m.cntCheck 1 }) rfl (fun _ => rfl) .absorbed (checkDetail s (pcId stack pc) row)
  have heq : checkValueReread s (pcId stack pc) row n true = raise s 0x03060001 .absorbed (checkDetail s (pcId stack pc) row) :=
    (checkValueReread_eq h hlive row n true).trans (drillHandled_of_snp hdrill (by rw [if_pos rfl, hraise]) 2)
  have hway := raise_onItsWay (released_of_serving h) 0x03060001 .absorbed (checkDetail s (pcId stack pc) row)
  rw [heq]
  refine ⟨?_, ?_, hway, raise_str ..⟩ <;> rw [hraise]

/-- R301: one that does not ends the job, and its instruction never completes. -/
theorem checkValueReread_bad (h : s.die = .serving) (hlive : pcLive s (pcId stack pc) = true) (hdrill : s.snp.drillActive = none)
    (row : Nat) (n : Fin 43) :
    checkValueReread s (pcId stack pc) row n false =
        killStrand (raise s 0x03060002 .jobEnding (checkDetail s (pcId stack pc) row)) n ∧
      (checkValueReread s (pcId stack pc) row n false).mem.cntCheck = satAdd32 s.mem.cntCheck 1 ∧
      (checkValueReread s (pcId stack pc) row n false).mem.hbm = s.mem.hbm ∧
      OnItsWay (checkValueReread s (pcId stack pc) row n false) 0x03060002 .jobEnding (checkDetail s (pcId stack pc) row) s.sys.drill := by
  have hraise := raise_onlyMem (released_of_serving h) (code := 0x03060002) (b := 3)
    (count := fun m => { m with cntCheck := satAdd32 m.cntCheck 1 }) rfl (fun _ => rfl) .jobEnding (checkDetail s (pcId stack pc) row)
  have heq : checkValueReread s (pcId stack pc) row n false =
      killStrand (raise s 0x03060002 .jobEnding (checkDetail s (pcId stack pc) row)) n :=
    (checkValueReread_eq h hlive row n false).trans
      (drillHandled_of_snp hdrill ((killStrand_snp _ _).trans (by rw [hraise])) 2)
  have hkept := channelsKept_killStrand (raise s 0x03060002 .jobEnding (checkDetail s (pcId stack pc) row)) n
  rw [heq]
  refine ⟨rfl, ?_, hkept.hbm.trans (by rw [hraise]),
    hkept.onItsWay (raise_onItsWay (released_of_serving h) ..)⟩
  rw [killStrand_mem, hraise]

/-! ## A channel that needs a retrain (R310, R311, R314) -/

/-- The state in which a channel's retrain begins. -/
def retrainBegun (s : State) (stack : Fin 8) (pc : Fin 32) : State :=
  { s with mem := { s.mem with
    retraining := s.mem.retraining ++ [(stack, pc)]
    pcTimes := serase s.mem.pcTimes (pcId stack pc)
    pcRetrains := sset s.mem.pcRetrains (pcId stack pc)
      (s.shp.time :: recent s 10000000 (sgetD s.mem.pcRetrains (pcId stack pc) [])) } }

theorem startRetrain_eq (h : s.die = .serving) (hlive : pcLive s (pcId stack pc) = true) (hnot : (stack, pc) ∉ s.mem.retraining) :
    startRetrain s stack pc =
      if 3 ≤ (recent s 10000000 (sgetD s.mem.pcRetrains (pcId stack pc) [])).length then loseChannel s (pcId stack pc)
      else raise (retrainBegun s stack pc) 0x06060005 .absorbed (d4 (pcId stack pc)) :=
  if_neg (by simp [memOn_of_serving h, hlive, hnot])

theorem startRetrain_begins (h : s.die = .serving) (hlive : pcLive s (pcId stack pc) = true) (hnot : (stack, pc) ∉ s.mem.retraining)
    (hleft : RetrainsLeft s (pcId stack pc)) :
    (startRetrain s stack pc).mem.retraining = s.mem.retraining ++ [(stack, pc)] ∧
      (startRetrain s stack pc).mem.cntRetrain = satAdd32 s.mem.cntRetrain 1 ∧
      OnItsWay (startRetrain s stack pc) 0x06060005 .absorbed (natLE 4 (pcId stack pc)) s.sys.drill ∧
      (startRetrain s stack pc).mem.hbm = s.mem.hbm ∧ (startRetrain s stack pc).mem.live = s.mem.live := by
  have hoff : (retrainBegun s stack pc).die ≠ .off := released_of_serving h
  have hway := raise_onItsWay hoff 0x06060005 .absorbed (d4 (pcId stack pc))
  rw [startRetrain_eq h hlive hnot, if_neg (Nat.not_le.mpr hleft)]
  refine ⟨?_, ?_, hway, ?_, ?_⟩ <;>
    rw [raise_onlyMem hoff (b := 4) (count := fun m => { m with cntRetrain := satAdd32 m.cntRetrain 1 }) rfl fun _ => rfl, retrainBegun]

theorem startRetrain_loses (h : s.die = .serving) (hlive : pcLive s (pcId stack pc) = true) (hnot : (stack, pc) ∉ s.mem.retraining)
    (hleft : ¬ RetrainsLeft s (pcId stack pc)) : startRetrain s stack pc = loseChannel s (pcId stack pc) := by
  rw [startRetrain_eq h hlive hnot, if_pos (Nat.not_lt.mp hleft)]

/-- The state in which a channel's retrain is over. -/
def retrainOver (s : State) (stack : Fin 8) (pc : Fin 32) : State :=
  { s with mem := { s.mem with retraining := s.mem.retraining.filter (· != (stack, pc)) } }

theorem pcRetrainDone_eq (hin : (stack, pc) ∈ s.mem.retraining) (ok : Bool) : pcRetrainDone s stack pc ok =
    drillHandled (if ok then retrainOver s stack pc else loseChannel (retrainOver s stack pc) (pcId stack pc)) 1 :=
  if_pos (List.contains_iff_mem.mpr hin)

/-- R314: a channel whose retrain fails is lost. -/
theorem pcRetrainDone_fails (h : s.die = .serving) (hlive : pcLive s (pcId stack pc) = true) (hin : (stack, pc) ∈ s.mem.retraining) :
    pcLive (pcRetrainDone s stack pc false) (pcId stack pc) = false ∧ (stack, pc) ∉ (pcRetrainDone s stack pc false).mem.retraining ∧
      (pcRetrainDone s stack pc false).sys.degraded = true ∧ (pcRetrainDone s stack pc false).mem.hbm = s.mem.hbm := by
  have hoff : (retrainOver s stack pc).die ≠ .off := released_of_serving h
  obtain ⟨hkept, hdegraded, -, -⟩ := loseChannel_spec hoff (i := pcId stack pc) hlive
  have hdrill := channelsKept_drillHandled (loseChannel (retrainOver s stack pc) (pcId stack pc)) 1
  have hall := hkept.trans hdrill
  have heq : pcRetrainDone s stack pc false = drillHandled (loseChannel (retrainOver s stack pc) (pcId stack pc)) 1 :=
    pcRetrainDone_eq hin false
  rw [heq]
  refine ⟨(hall.pcLive _).trans (pcLive_dropChannel _ (pcId_lt stack pc)), ?_, hdrill.degraded hdegraded, hall.hbm⟩
  rw [hall.retraining]
  simp [dropChannel, retrainOver]

end

/-! ## Drills -/

section
variable {s : State} {k : Nat}

/-- The kind whose turn it is is one of the eight, and enabled. -/
theorem drillDue_enabled (h : drillDue s = some k) : s.snp.drillEnable.getLsbD k = true ∧ k < 8 := by
  have hon := List.find?_some h
  obtain ⟨i, -, hi⟩ := List.mem_map.mp (List.mem_of_find?_eq_some h)
  rw [drillOn, bitOf_toNat] at hon
  exact ⟨hon, by omega⟩

theorem released_of_running (h : running s = true) : s.die ≠ .off := by
  obtain ⟨-, hd⟩ := (Bool.and_eq_true _ _).mp h
  exact released_of_serving (of_decide_eq_true hd)

theorem released_of_drillOk (h : drillOk s = true) : s.die ≠ .off := by
  simp only [drillOk, Bool.and_eq_true] at h
  obtain ⟨⟨⟨⟨⟨hrun, -⟩, -⟩, -⟩, -⟩, -⟩ := h
  exact released_of_running hrun

/-- The state in which a drill of kind k has begun, before what it injects (R502, R511). -/
def drillBegun (s : State) (k : Nat) : State :=
  let s := setSnp (raise s 0x0E010001 .event) { s.snp with
    drillTime := s.shp.time, drillKind := BitVec.ofNat 3 k, drillValid := true, drillActive := some k, drillLast := some k,
    cntDrill := satAdd32 s.snp.cntDrill 1 }
  sysChange s s.sys.st s.sys.degraded true s.sys.replace

/-- What a drill that begins changes: the DRILL flag, its record, its count, and the code that reports it. -/
theorem drillBegun_eq (h : s.die ≠ .off) (k : Nat) : ∃ event seq repl link held period serial, drillBegun s k = { s with
    sys := { seq := seq, st := s.sys.st, degraded := s.sys.degraded, drill := true, replace := s.sys.replace }
    shp := { s.shp with replace := repl }
    tet := { s.tet with link := link, held := held, period := period, serial := serial }
    knl := { s.knl with event := event, inflight := s.knl.inflight ++ [⟨0x0E010001, .event, [], s.sys.drill⟩] }
    snp := { s.snp with
      drillTime := s.shp.time, drillKind := BitVec.ofNat 3 k, drillValid := true, drillActive := some k, drillLast := some k
      cntDrill := satAdd32 s.snp.cntDrill 1 } } := by
  simp only [drillBegun]
  rw [raise_onlyKnl h (b := 10) rfl fun _ => rfl]
  obtain ⟨seq, repl, link, held, period, serial, hchange⟩ := sysChange_eq (setSnp { s with
      knl := { s.knl with event := orBit s.knl.event 10, inflight := s.knl.inflight ++ [⟨0x0E010001, .event, [], s.sys.drill⟩] } }
    { s.snp with
      drillTime := s.shp.time, drillKind := BitVec.ofNat 3 k, drillValid := true, drillActive := some k, drillLast := some k
      cntDrill := satAdd32 s.snp.cntDrill 1 }) s.sys.st s.sys.degraded true s.sys.replace
  exact ⟨_, seq, repl, link, held, period, serial, hchange⟩

theorem drillInject_eq (hdue : drillDue s = some k) (hok : drillOk s = true) (hinj : injectable s k = true) :
    drillInject s = drillFault (drillBegun s k) k := by
  unfold drillInject
  simp only [hdue, hok, hinj, Bool.and_self, if_true]
  rfl

theorem drillInject_not (h : drillOk s = false ∨ ∀ k, drillDue s = some k → injectable s k = false) : drillInject s = s := by
  unfold drillInject
  split
  case h_1 k hdue =>
    refine if_neg fun hboth => ?_
    obtain ⟨hok, hinj⟩ := (Bool.and_eq_true _ _).mp hboth
    rcases h with h | h
    · simp [h] at hok
    · simp [h k hdue] at hinj
  case h_2 => rfl

/-! ## The lane a drill takes away (R341, R503) -/

theorem drillLane_congr {s t : State} (h : t.lead = s.lead) : drillLane t = drillLane s := by
  unfold drillLane leadUp leadAt
  rw [h]

/-- The lane of a drill is one of four or more of a lead's. -/
theorem drillLane_spec {i lane : Nat} (h : drillLane s = some (i, lane)) :
    i < 8 ∧ lane < 32 ∧ (leadAt s i).lanes.toNat.testBit lane = true ∧ 4 ≤ onesIn (leadAt s i).lanes.toNat 0 32 := by
  obtain ⟨j, hlead, hlane⟩ := Option.bind_eq_some_iff.mp h
  obtain ⟨l, hl, hpair⟩ := Option.map_eq_some_iff.mp hlane
  obtain ⟨rfl, rfl⟩ := Prod.mk.inj hpair
  have hup := List.find?_some hlead
  obtain ⟨-, hfour⟩ := (Bool.and_eq_true _ _).mp hup
  exact ⟨List.mem_range.mp (List.mem_of_find?_eq_some hlead), List.mem_range.mp (List.mem_reverse.mp (List.mem_of_find?_eq_some hl)),
    bitOf_eq_testBit _ l ▸ List.find?_some hl, of_decide_eq_true hfour⟩

/-- A code whose EVENT bit is the leads' leaves every lead. -/
theorem leadAt_raiseLead (h : s.die ≠ .off) {code b : Nat} (hb : eventBit code = some (.lead, b)) (hc : ∀ t, countCode t code = t)
    (eff : Effect) (detail : Bytes) (i : Nat) : leadAt (raise s code eff detail) i = leadAt s i := by
  rw [raise_released h hb hc, setEvent]
  rfl

/-- The state in which lead i re-lanes on the lanes m, before it is reported. -/
def relaned (s : State) (i : Nat) (m : Word) : State :=
  let s := setLead s i { txFrame (leadAt s i) (.relane m) with lanes := m, relaning := true }
  { s with lead := { s.lead with cntRelane := satAdd32 s.lead.cntRelane 1 } }

theorem leadAt_relaned (s : State) {i : Nat} (hi : i < 8) (m : Word) :
    leadAt (relaned s i m) i = { txFrame (leadAt s i) (.relane m) with lanes := m, relaning := true } := vget_vset_same _ hi _ _

theorem relaneOn_left {i left : Nat} (h : laneCount (onesIn left 0 32) ≠ 0) (lane : Nat) : relaneOn s i left lane =
    raise (relaned s i (BitVec.ofNat 32 (lowestLanes left (laneCount (onesIn left 0 32))))) 0x07080002 .absorbed (d4 i ++ d4 lane) := by
  simp only [relaneOn, if_neg h, relaned]

/-- A lead of four lanes or more goes on without one of them, and re-lanes. -/
theorem relane_spec (h : s.die ≠ .off) {i lane : Nat} (hi : i < 8) (hlane : lane < 32)
    (hset : (leadAt s i).lanes.toNat.testBit lane = true) (hfour : 4 ≤ onesIn (leadAt s i).lanes.toNat 0 32) :
    (leadAt (relane s i lane) i).relaning = true ∧ (leadAt (relane s i lane) i).lanes.getLsbD lane = false ∧
      OnItsWay (relane s i lane) 0x07080002 .absorbed (natLE 4 i ++ natLE 4 lane) s.sys.drill := by
  generalize hleft : (leadAt s i).lanes.toNat - 2 ^ lane = left
  have hfewer : 2 ≤ onesIn left 0 32 := by
    have hone := onesIn_sub_two_pow hset 32
    rw [if_pos hlane, hleft] at hone
    omega
  have hgone : (lowestLanes left (laneCount (onesIn left 0 32))).testBit lane = false := by
    refine Bool.eq_false_iff.mpr fun hon => ?_
    have hstill := testBit_lowestLanes _ lane hon
    rw [← hleft, testBit_sub_two_pow hset] at hstill
    simp at hstill
  have hoff : (relaned s i (BitVec.ofNat 32 (lowestLanes left (laneCount (onesIn left 0 32))))).die ≠ .off := h
  have hway := raise_onItsWay hoff 0x07080002 .absorbed (d4 i ++ d4 lane)
  have hlead := leadAt_relaned s hi (BitVec.ofNat 32 (lowestLanes left (laneCount (onesIn left 0 32))))
  rw [← leadAt_raiseLead hoff (code := 0x07080002) (b := 2) rfl (fun _ => rfl) .absorbed (d4 i ++ d4 lane)] at hlead
  rw [relane, hleft, relaneOn_left (laneCount_ne_zero hfewer)]
  refine ⟨?_, ?_, hway⟩
  · rw [hlead]
  · rw [hlead, BitVec.getLsbD_ofNat, hgone, Bool.and_false]

/-! ## The channel a drill retrains -/

theorem mem_drillPcs {p : Fin 8 × Fin 32} (h : p ∈ drillPcs s) : pcLive s (pcId p.1 p.2) = true ∧ p ∉ s.mem.retraining := by
  obtain ⟨-, hp⟩ := List.mem_filter.mp h
  simpa using hp

/-- Of a list that is not empty, an element is picked. -/
theorem pickOne_some {α : Type} (s : State) {xs : List α} (h : xs ≠ []) : ∃ x, x ∈ xs ∧ (pickOne s xs).1 = some x := by
  have hlt : (Config.draw s.free).toNat % xs.length < xs.length := Nat.mod_lt _ (List.length_pos_iff.mpr h)
  exact ⟨_, List.getElem_mem hlt, List.getElem?_eq_getElem hlt⟩

theorem startRetrain_meets {stack : Fin 8} {pc : Fin 32} (h : s.die = .serving) (hlive : pcLive s (pcId stack pc) = true)
    (hnot : (stack, pc) ∉ s.mem.retraining) :
    (stack, pc) ∈ (startRetrain s stack pc).mem.retraining ∨ pcLive (startRetrain s stack pc) (pcId stack pc) = false := by
  by_cases hleft : RetrainsLeft s (pcId stack pc)
  · obtain ⟨hretrains, -⟩ := startRetrain_begins h hlive hnot hleft
    exact .inl (by simp [hretrains])
  · rw [startRetrain_loses h hlive hnot hleft]
    exact .inr (loseChannel_loses (released_of_serving h) (pcId_lt stack pc) hlive).1

/-- The retrain drill has a live channel retrain, or loses it where it has retrained too often. -/
theorem drillFault_retrain (h : s.die = .serving) (hpcs : drillPcs s ≠ []) :
    ∃ p, p ∈ drillPcs s ∧ (p ∈ (drillFault s 1).mem.retraining ∨ pcLive (drillFault s 1) (pcId p.1 p.2) = false) := by
  obtain ⟨p, hp, hpick⟩ := pickOne_some s hpcs
  obtain ⟨hlive, hnot⟩ := mem_drillPcs hp
  have hfault : drillFault s 1 = startRetrain (pickOne s (drillPcs s)).2 p.1 p.2 := by
    simp only [drillFault, hpick, pcRetrain]
  rw [hfault]
  exact ⟨p, hp, startRetrain_meets (s := (pickOne s (drillPcs s)).2) h hlive hnot⟩

/-- The heartbeat drill has one of the eight PHYs miss its heartbeats. -/
theorem drillFault_heartbeat : ∃ stack, (.phy stack, 4) ∈ (drillFault s 4).knl.missed := by
  obtain ⟨stack, -, hpick⟩ := pickOne_some s (xs := List.finRange 8) (by decide)
  refine ⟨stack, ?_⟩
  simp [drillFault, hpick, setKnl]

end

/-! ## What a drill that begins injects -/

section
variable {s : State} {k : Nat}

/-- A drill that begins: DRILL, its record, its count and its code; the memories and the strands are as they were. -/
theorem drillBegun_spec (h : s.die ≠ .off) (k : Nat) :
    (drillBegun s k).sys.drill = true ∧ (drillBegun s k).sys.st = s.sys.st ∧ (drillBegun s k).snp.drillActive = some k ∧
      (drillBegun s k).snp.drillLast = some k ∧ (drillBegun s k).snp.drillTime = s.shp.time ∧
      (drillBegun s k).snp.drillKind = BitVec.ofNat 3 k ∧ (drillBegun s k).snp.drillValid = true ∧
      (drillBegun s k).snp.cntDrill = satAdd32 s.snp.cntDrill 1 ∧ OnItsWay (drillBegun s k) 0x0E010001 .event [] s.sys.drill ∧
      (drillBegun s k).mem = s.mem ∧ (drillBegun s k).str = s.str := by
  obtain ⟨event, seq, repl, link, held, period, serial, hbegun⟩ := drillBegun_eq h k
  rw [hbegun]
  exact ⟨rfl, rfl, rfl, rfl, rfl, rfl, rfl, rfl, List.mem_append_right _ (List.mem_singleton.mpr rfl), rfl, rfl⟩

/-- A drill that begins leaves the leads and the power of the compute die. -/
theorem drillBegun_frame (h : s.die ≠ .off) (k : Nat) : (drillBegun s k).lead = s.lead ∧ (drillBegun s k).die = s.die := by
  obtain ⟨event, seq, repl, link, held, period, serial, hbegun⟩ := drillBegun_eq h k
  rw [hbegun]
  exact ⟨rfl, rfl⟩

theorem drillInject_quiet (hdue : drillDue s = some k) (hok : drillOk s = true) (hk : k = 2 ∨ k = 3 ∨ k = 6) :
    drillInject s = drillBegun s k := by
  rcases hk with rfl | rfl | rfl <;> exact drillInject_eq hdue hok rfl

theorem drillInject_relane {i lane : Nat} (hdue : drillDue s = some 0) (hok : drillOk s = true) (hlane : drillLane s = some (i, lane)) :
    (leadAt (drillInject s) i).relaning = true ∧ (leadAt (drillInject s) i).lanes.getLsbD lane = false ∧
      OnItsWay (drillInject s) 0x07080002 .absorbed (natLE 4 i ++ natLE 4 lane) true := by
  have hoff := released_of_drillOk hok
  obtain ⟨hlead, hdie⟩ := drillBegun_frame hoff 0
  obtain ⟨hdrill, -⟩ := drillBegun_spec hoff 0
  have hat : leadAt (drillBegun s 0) i = leadAt s i := by rw [leadAt, hlead, leadAt]
  have hlane' : drillLane (drillBegun s 0) = some (i, lane) := by
    rw [← hlane, drillLane_congr hlead]
  have hinject : drillInject s = relane (drillBegun s 0) i lane := by
    rw [drillInject_eq hdue hok (by simp [injectable, hlane])]
    simp only [drillFault, hlane']
  obtain ⟨hi, hlt, hset, hfour⟩ := drillLane_spec hlane
  rw [← hat] at hset hfour
  have hrelane := relane_spec (hdie ▸ hoff) hi hlt hset hfour
  rw [hdrill] at hrelane
  rwa [hinject]

theorem drillInject_retrain (hdue : drillDue s = some 1) (hok : drillOk s = true) (h : s.die = .serving) (hpcs : drillPcs s ≠ []) :
    ∃ p, p ∈ drillPcs s ∧ (p ∈ (drillInject s).mem.retraining ∨ pcLive (drillInject s) (pcId p.1 p.2) = false) := by
  have hoff := released_of_serving h
  obtain ⟨-, -, -, -, -, -, -, -, -, hmem, -⟩ := drillBegun_spec hoff 1
  have hsame : drillPcs (drillBegun s 1) = drillPcs s := by
    simp only [drillPcs, pcLive, hmem]
  rw [drillInject_eq hdue hok (by simp [injectable, hpcs]), ← hsame]
  exact drillFault_retrain ((drillBegun_frame hoff 1).2.trans h) (by rwa [hsame])

theorem drillInject_abort (hdue : drillDue s = some 7) (hok : drillOk s = true) :
    (drillInject s).snp.drillActive = some 7 ∧ OnItsWay (drillInject s) 0x0E0C0001 .jobEnding [] true := by
  have hoff := released_of_drillOk hok
  obtain ⟨hdrill, -, hactive, -⟩ := drillBegun_spec hoff 7
  have hoff' : (drillBegun s 7).die ≠ .off := (drillBegun_frame hoff 7).2 ▸ hoff
  have hinject : drillInject s = raise (drillBegun s 7) 0x0E0C0001 .jobEnding := drillInject_eq hdue hok rfl
  have hway := raise_onItsWay hoff' 0x0E0C0001 .jobEnding []
  rw [hdrill] at hway
  rw [hinject]
  refine ⟨?_, hway⟩
  rw [raise_released hoff' (u := .snp) (b := 7) rfl fun _ => rfl]
  exact hactive

end

/-! ## A period without a drill (R512) -/

theorem drillSkip_spec {s : State} {k : Nat} (hdue : drillDue s = some k) (hrun : running s = true) :
    (drillSkip s).snp.cntSkip = satAdd32 s.snp.cntSkip 1 ∧ (drillSkip s).snp.drillLast = some k ∧
      OnItsWay (drillSkip s) 0x0E0C0002 .count [] s.sys.drill ∧ (drillSkip s).snp.cntDrill = s.snp.cntDrill ∧
      (drillSkip s).sys = s.sys ∧ (drillSkip s).mem = s.mem := by
  have hoff : (setSnp s { s.snp with cntSkip := satAdd32 s.snp.cntSkip 1, drillLast := some k }).die ≠ .off := released_of_running hrun
  have hskip : drillSkip s = raise (setSnp s { s.snp with cntSkip := satAdd32 s.snp.cntSkip 1, drillLast := some k }) 0x0E0C0002 .count := by
    simp only [drillSkip, hdue, hrun, if_true]
  have hway := raise_onItsWay hoff 0x0E0C0002 .count []
  rw [hskip]
  refine ⟨?_, ?_, hway, ?_, ?_, ?_⟩ <;> rw [raise_noEvent hoff rfl fun _ => rfl] <;> rfl

/-! ## The obligation -/

/-- Settles O56, clause by clause: what an access meets, the channel's retrain, then the drills. -/
theorem memoriesAndDrills : Obligations.MemoriesAndDrills := by
  refine ⟨fun s stack pc page n h hlive hdrill => ⟨?_, ?_, ?_, ?_, ?_, ?_, ?_, ?_⟩, ?_, ?_, ?_, ?_, ?_, ?_, ?_⟩
  · intro hfirst hfew
    obtain ⟨event, pcUncorr, pcCorr, pcTimes, inflight, hgood⟩ := eccTried_good h page.toNat n hfew
    have heq := hbmEccReread_eq h hlive page.toNat n true
    rw [if_pos (List.isEmpty_iff.mpr hfirst), hgood] at heq
    exact ⟨_, congrArg Host.Outcome.next heq, rfl, rfl, rfl, hlive⟩
  · intro hfirst
    have heq := hbmEccReread_eq h hlive page.toNat n false
    rw [if_pos (List.isEmpty_iff.mpr hfirst)] at heq
    obtain ⟨hkept, hway⟩ := eccTried_bad h page.toNat n
    exact ⟨_, congrArg Host.Outcome.next heq, hway, hkept.hbm, killStrand_raise_spec rfl ..⟩
  · intro hagain
    have heq := hbmEccReread_eq h hlive page.toNat n false
    rw [if_neg (fun hnone => hagain (List.isEmpty_iff.mp hnone))] at heq
    obtain ⟨hkept, -⟩ := eccTried_bad h page.toNat n
    obtain ⟨hlost, hhbm⟩ := loseChannel_loses (hkept.released (released_of_serving h)) (pcId_lt stack pc) ((hkept.pcLive _).trans hlive)
    exact ⟨_, congrArg Host.Outcome.next heq, hlost, hhbm.trans hkept.hbm⟩
  · exact ⟨_, rfl, checkValueReread_good h hlive hdrill ..⟩
  · obtain ⟨heq, hcount, hhbm, hway⟩ := checkValueReread_bad h hlive hdrill page.toNat n
    exact ⟨_, rfl, hcount, hhbm, hway, heq ▸ killStrand_raise_spec rfl ..⟩
  · exact fun hnot hleft => ⟨_, rfl, startRetrain_begins h hlive hnot hleft⟩
  · intro hnot hleft
    have heq := startRetrain_loses h hlive hnot hleft
    obtain ⟨-, hdegraded, hway, himage⟩ := loseChannel_spec (released_of_serving h) hlive
    obtain ⟨hlost, hhbm⟩ := loseChannel_loses (released_of_serving h) (pcId_lt stack pc) hlive
    exact ⟨_, congrArg Host.Outcome.next heq, hlost, hdegraded, hhbm, himage, hway⟩
  · intro hin
    have hover := drillHandled_of_snp (t := retrainOver s stack pc) hdrill rfl 1
    exact ⟨⟨_, rfl, (pcRetrainDone_eq hin true).trans hover⟩, _, rfl, pcRetrainDone_fails h hlive hin⟩
  · intro s k hdue hk hok
    exact ⟨_, congrArg Host.Outcome.next (drillInject_quiet hdue hok hk), drillBegun_spec (released_of_drillOk hok) k⟩
  · intro s k hdue hnot
    refine congrArg Host.Outcome.next (drillInject_not (.inr fun j hj => ?_))
    rwa [← Option.some.inj (hdue.symm.trans hj)]
  · intro s hok
    refine ⟨fun i lane hdue hlane => ⟨_, rfl, drillInject_relane hdue hok hlane⟩,
      fun hdue h hpcs => ⟨_, rfl, drillInject_retrain hdue hok h hpcs⟩, fun hdue => ?_, fun hdue hleash => ?_⟩
    · obtain ⟨stack, hmissed⟩ := drillFault_heartbeat (s := drillBegun s 4)
      exact ⟨_, congrArg Host.Outcome.next (drillInject_eq hdue hok rfl), _, hmissed, stack, rfl⟩
    · obtain ⟨hdrill, -, hactive, -⟩ := drillBegun_spec (released_of_drillOk hok) 5
      exact ⟨_, congrArg Host.Outcome.next (drillInject_eq hdue hok hleash), hactive, hdrill⟩
  · exact fun s hdue hok => ⟨_, rfl, drillInject_abort hdue hok⟩
  · exact fun s hnot => congrArg Host.Outcome.next (drillInject_not (.inl hnot))
  · exact fun s k hdue hrun => ⟨_, rfl, drillSkip_spec hdue hrun⟩
  · exact fun s k hdue => drillDue_enabled hdue

end Sys2Proof.Machine
end

section
/-!
SUPPORT. An ALLGATHER whose SRC crosses address 2^40 of HBM: O26 as stated does not hold.

A location holds 40 address bits (R272), and a collective engine reads element i of SRC at a location of its own, SRC + i * b, whose address is
the sum's low 40 bits. `collBad` asks only that SRC ends within HBM_FOOTPRINT, a field of 64 bits. A load keeps that field below 2^40 (R241), but
the statement speaks of every canonical state and bounds it nowhere. Under a footprint above 2^40 a SRC may begin below address 2^40 and end beyond
it: the engine reads the elements beyond it from address 0 on, and DST does not hold the bytes that stand behind SRC.
-/
namespace Sys2Proof.Machine

/-! ## The state -/

/-- The location of SRC: its second element stands at address 2^40. -/
def spanSrc : Nat := 2 ^ 40 - 4

/-- The location of DST. -/
def spanDst : Nat := 0x10000

/-- An image whose manifest, at 0x50, has a footprint of 2^40 + 64 bytes, and whose routing section, at 0x58, has one tree plan, of
one member, which is its root. -/
def spanImage : Bytes :=
  zeros 0x18 ++ natLE 4 0x50 ++ zeros 36 ++ natLE 4 0x58 ++ natLE 4 0x80 ++ zeros 8 ++ natLE 8 (2 ^ 40 + 64) ++
    zeros 10 ++ natLE 2 1 ++ zeros 52 ++ natLE 4 1 ++ zeros 9 ++ natLE 3 0xFF00FF ++ zeros 48

/-- A collective descriptor (Table 7-19) of 2 elements over plan 0. -/
def spanDesc : Bytes := natLE 8 spanSrc ++ natLE 8 spanDst ++ natLE 4 2 ++ zeros 44

/-- COLL of KIND 2, ALLGATHER, on elements of 4 bytes, its descriptor at Board address 64. -/
def spanWord : BitVec 128 := BitVec.ofNat 128 (0x10 * 2 ^ 120 + 2 * 2 ^ 76 + 0xB * 2 ^ 68 + 2 ^ 46)

/-- The device of `wideJob`, whose HBM holds a 1 at address 0 and else zeros, with that image, and with the COLL begun at engine 0. -/
def spanState : State :=
  setStrand { wideJob with
    str := { wideJob.str with image := some spanImage }
    brd := { wideJob.brd with mem := mwrite [] 64 spanDesc } } 34 { st := 1, phase := .begun, word := spanWord }

/-- The state in which the COLL has issued. -/
def spanDone : State := collIssue spanState 0 2

theorem word_spanState : (strand spanState (34 + (0 : Fin 8))).word = spanWord :=
  congrArg Strand.word (strand_setStrand_same _ (by decide) _)

theorem desc_spanState : mread spanState.brd.mem (collDesc spanWord) 64 = spanDesc := by
  have haddr : collDesc spanWord = 64 := by decide
  rw [haddr]
  exact mread_mwrite spanDesc Mem.wf_nil 64

theorem src_spanDesc : fld spanDesc 0 8 = spanSrc := by decide

/-! ## The statement's hypotheses -/

theorem canonical_spanState : Canonical spanState :=
  (canonical_setStrand _ _ _).mpr { canonical_reset with hbm := rfl, board := mwrite_wf spanDesc Mem.wf_nil 64 }

theorem begun_spanState : begun spanState 34 0x10 = true ∧ idle spanState 34 = true := by decide

/-- The COLL is sound: SRC and DST end within the footprint. -/
theorem collBad_spanState : collBad spanState spanWord (collOf spanState 0 spanWord) = false := by decide

theorem plan_spanState : plMembers (img spanState) (collOf spanState 0 spanWord).plan = 1 ∧
    collRoot spanState (collOf spanState 0 spanWord) = true := by decide

theorem collOf_spanState : (collOf spanState 0 spanWord).dst = spanDst ∧
    (collOf spanState 0 spanWord).count * collBytes (collOf spanState 0 spanWord).ecode = 8 := by decide

/-- The two blocks that SRC touches hold zeros, and verify. -/
theorem collVerifies_spanState : collVerifies spanState spanWord (collOf spanState 0 spanWord) = true := by
  obtain ⟨-, hlen⟩ := collOf_spanState
  rw [collVerifies, desc_spanState, src_spanDesc, hlen, locVerifies, if_neg (by decide)]
  exact rangeVerifies_unlisted (by decide) (by decide)

/-! ## The second element -/

/-- The COLL is accepted. -/
theorem spanDone_eq : spanDone = collStart spanState 0 spanWord (collOf spanState 0 spanWord) := by
  obtain ⟨hbegun, hidle⟩ := begun_spanState
  have hkind : wFld spanWord 79 76 = 2 := by decide
  have hword : (strand spanState 34).word = spanWord := word_spanState
  have hfree : sget? spanState.col.bound (collOf spanState 0 spanWord).plan = none := rfl
  simp [spanDone, collIssue, hbegun, hidle, hword, hkind, collBad_spanState, hfree, collVerifies_spanState]

/-- DST holds what stood at address 0 as its second element. -/
theorem locRead_spanDone : locRead spanDone spanDst 8 = zeros 4 ++ [1, 0, 0, 0] := by
  rw [spanDone_eq]
  decide

/-- From address 2^40 - 4 on stand zeros. -/
theorem locRead_spanState : locRead spanState spanSrc 8 = zeros 8 := mread_unlisted (by decide)

/-- Refutes O26, clause (2): in `spanState` an ALLGATHER over a plan of one member leaves a 1 in DST, where SRC holds zeros. -/
theorem not_collectives : ¬ Obligations.Collectives := by
  rintro ⟨-, hone, -, -⟩
  obtain ⟨hbegun, hidle⟩ := begun_spanState
  obtain ⟨hmembers, hroot⟩ := plan_spanState
  obtain ⟨hdst, hlen⟩ := collOf_spanState
  have hissue := hone spanState 0 (.collAllgather 0) 2 (.head _) canonical_spanState hbegun hidle
  rw [word_spanState] at hissue
  obtain ⟨t, hrun, -, hread, -⟩ := hissue (by decide) collBad_spanState rfl (by decide) hmembers hroot collVerifies_spanState
  obtain rfl : spanDone = t := Host.Outcome.next.inj hrun
  have hsame : locRead spanDone spanDst 8 = locRead spanState spanSrc 8 := by
    rwa [Fin.val_zero, hlen, hdst, desc_spanState, src_spanDesc] at hread
  rw [locRead_spanDone, locRead_spanState] at hsame
  exact absurd hsame (by decide)

end Sys2Proof.Machine
end

section
/-!
SUPPORT. The leads: what sending, serving and accepting a frame change of them (R336 to R340).
-/
namespace Sys2Proof.Machine

/-! ## One lead -/

theorem leadAt_setLead_same (s : State) {i : Nat} (h : i < 8) (x : Lead) : leadAt (setLead s i x) i = x := vget_vset_same _ h _ _

theorem leadAt_setLead_other (s : State) {i j : Nat} (h : j ≠ i) (x : Lead) : leadAt (setLead s i x) j = leadAt s j :=
  vget_vset_other _ h _ _

/-- Of two updates of one lead the second stays. -/
@[simp] theorem setLead_setLead (s : State) (i : Nat) (x y : Lead) : setLead (setLead s i x) i y = setLead s i y := by
  simp [setLead, vset, Vector.setIfInBounds_setIfInBounds]

/-- There is no ninth lead. -/
theorem leadAt_beyond (s : State) {i : Nat} (h : 8 ≤ i) : leadAt s i = {} := by
  simp [leadAt, vget, List.getD_eq_getElem?_getD, h]

theorem lt_of_leadUp {s : State} {i : Nat} (h : leadUp s i = true) : i < 8 := by
  by_contra hi
  rw [leadUp, leadAt_beyond s (Nat.le_of_not_lt hi)] at h
  cases h

/-! ## Serving a lead -/

/-- From x to y a lead has sent frames: what it numbers, keeps and still holds of them, its credits and whose turn it is have changed. -/
def Served (x y : Lead) : Prop :=
  y = { x with tx := y.tx, sent := y.sent, waiting := y.waiting, credit := y.credit, turn := y.turn }

theorem Served.refl (x : Lead) : Served x x := rfl

theorem Served.trans {x y z : Lead} (h : Served x y) (h' : Served y z) : Served x z := by
  rw [Served] at h h' ⊢
  rw [h'.trans (by rw [h])]

theorem Served.up {x y : Lead} (h : Served x y) : y.up = x.up := by rw [h]
theorem Served.keyed {x y : Lead} (h : Served x y) : y.keyed = x.keyed := by rw [h]
theorem Served.key {x y : Lead} (h : Served x y) : y.key = x.key := by rw [h]
theorem Served.rx {x y : Lead} (h : Served x y) : y.rx = x.rx := by rw [h]
theorem Served.nak {x y : Lead} (h : Served x y) : y.nak = x.nak := by rw [h]

theorem served_txFrame (x : Lead) (b : TxBody) : Served x (txFrame x b) := rfl

theorem served_waiting (x : Lead) (ws : List (Nat × TxBody)) : Served x { x with waiting := ws } := rfl

theorem served_pump (fuel : Nat) (x : Lead) : Served x (pump fuel x) := by
  induction fuel generalizing x with
  | zero => exact .refl x
  | succ k ih =>
    unfold pump
    split
    · exact .refl x
    · split
      · exact ((served_waiting x _).trans (served_txFrame _ _)).trans (ih _)
      · exact .refl x

theorem served_serveLead (x : Lead) : Served x (serveLead x) := by
  unfold serveLead
  split
  · exact .refl x
  · exact served_pump _ x

/-- A lead without frames that wait sends none. -/
theorem serveLead_idle {x : Lead} (h : x.waiting = []) : serveLead x = x := by
  rw [serveLead, h, List.length_nil, pump, ite_self]

/-- Of one frame that waits, its class is next once that class has a credit. -/
theorem nextClass_one {x : Lead} {c : Fin 4} {b : TxBody} (hwaiting : x.waiting = [(c.val, b)]) (hcredit : 0 < vget x.credit c 0) :
    nextClass x = some c.val := by
  have hserves : ∀ k, (decide (0 < vget x.credit k 0) && x.waiting.any fun w => w.1 == k) = decide (k = c.val) := by
    intro k
    by_cases hk : k = c.val
    · simp [hk, hwaiting, hcredit]
    · simp [hk, hwaiting, Ne.symm hk]
  have hturns : ∀ (turn : Bool) (c : Fin 4),
      (if turn then [0, 3, 2, 1] else [0, 3, 1, 2]).find? (fun k => decide (k = c.val)) = some c.val := by decide
  simp only [nextClass, hserves]
  exact hturns x.turn c

/-- The one frame that waits leaves once its class has a credit. -/
theorem serveLead_one {x : Lead} {c : Fin 4} {b : TxBody} (hup : x.up = true) (hrelaning : x.relaning = false)
    (hwaiting : x.waiting = [(c.val, b)]) (hcredit : 0 < vget x.credit c 0) :
    serveLead x = txFrame { x with waiting := [] } b := by
  have hserve : serveLead x = pump 1 x := by simp [serveLead, hup, hrelaning, hwaiting]
  have htake : takeClass c.val x.waiting = (some b, []) := by simp [hwaiting, takeClass]
  simp only [hserve, pump, nextClass_one hwaiting hcredit, htake]

/-! ## Sending -/

/-- On a lead that is up a frame joins those that wait, and the lead is served. -/
theorem leadSend_up {s : State} {i : Nat} (h : leadUp s i = true) (b : TxBody) : leadSend s i b =
    setLead s i (serveLead { leadAt s i with waiting := (leadAt s i).waiting ++ [(bodyClass b, b)] }) := if_pos h

theorem leadSend_down {s : State} {i : Nat} (h : ¬leadUp s i = true) (b : TxBody) : leadSend s i b = s := if_neg h

theorem leadAt_leadSend_other (s : State) {i j : Nat} (h : j ≠ i) (b : TxBody) : leadAt (leadSend s i b) j = leadAt s j := by
  simp only [leadSend]
  split
  · exact leadAt_setLead_other s h _
  · rfl

theorem served_leadSend (s : State) (i : Nat) (b : TxBody) (j : Nat) : Served (leadAt s j) (leadAt (leadSend s i b) j) := by
  by_cases hj : j = i
  · subst hj
    by_cases hup : leadUp s j = true
    · rw [leadSend_up hup, leadAt_setLead_same s (lt_of_leadUp hup)]
      exact (served_waiting _ _).trans (served_serveLead _)
    · rw [leadSend_down hup]
      exact .refl _
  · rw [leadAt_leadSend_other s hj]
    exact .refl _

/-! ## A frame is accepted -/

/-- From s to t frame `seq` has been accepted on lead i and frames have been sent there; nothing else has changed. -/
structure AcceptedOn (s t : State) (i : Nat) (seq : BitVec 64) : Prop where
  rest : t = { s with lead := { s.lead with lead := t.lead.lead } }
  own : Served { leadAt s i with rx := seq + 1, nak := none } (leadAt t i)
  others : ∀ j, j ≠ i → leadAt t j = leadAt s j

theorem acceptedOn_leadRecv (s : State) {i : Nat} (h : i < 8) (seq : BitVec 64) : AcceptedOn s (leadRecv s i seq) i seq where
  rest := rfl
  own := by
    rw [leadRecv, leadAt_setLead_same s h]
    exact .refl _
  others j hj := leadAt_setLead_other s hj _

theorem AcceptedOn.leadSend {s t : State} {i : Nat} {seq : BitVec 64} (h : AcceptedOn s t i seq) (b : TxBody) :
    AcceptedOn s (Machine.leadSend t i b) i seq where
  rest := by
    obtain ⟨lead, hsend⟩ := leadSend_eq t i b
    rw [hsend, h.rest]
  own := h.own.trans (served_leadSend t i b i)
  others j hj := (leadAt_leadSend_other t hj b).trans (h.others j hj)

theorem AcceptedOn.up {s t : State} {i : Nat} {seq : BitVec 64} (h : AcceptedOn s t i seq) (j : Nat) : leadUp t j = leadUp s j := by
  by_cases hj : j = i
  · subst hj
    exact h.own.up
  · exact congrArg Lead.up (h.others j hj)

theorem AcceptedOn.keyed {s t : State} {i : Nat} {seq : BitVec 64} (h : AcceptedOn s t i seq) (j : Nat) :
    (leadAt t j).keyed = (leadAt s j).keyed := by
  by_cases hj : j = i
  · subst hj
    exact h.own.keyed
  · exact congrArg Lead.keyed (h.others j hj)

/-- The state in which an arrival has been accepted and acknowledged. -/
def acknowledged (s : State) (a : Arrival) : State := leadSend (leadRecv s a.lead a.seq) a.lead (.link (.ack a.seq))

/-- The state in which the buffer of an arrival of class c is free again too. -/
def bufferFreed (s : State) (a : Arrival) (c : Nat) : State := freeBuffers (acknowledged s a) a.lead c 1

theorem acceptedOn_acknowledged (s : State) (a : Arrival) : AcceptedOn s (acknowledged s a) a.lead a.seq :=
  (acceptedOn_leadRecv s a.lead.isLt a.seq).leadSend _

theorem acceptedOn_bufferFreed (s : State) (a : Arrival) (c : Nat) : AcceptedOn s (bufferFreed s a c) a.lead a.seq :=
  (acceptedOn_acknowledged s a).leadSend _

theorem onKept_arrives {s : State} {a : Arrival} (h : Arrives s a) (f : State → State) : onKept s a f = f (acknowledged s a) := by
  obtain ⟨hup, hadmits⟩ := h
  simp only [onKept, hup, hadmits, Bool.and_self, if_true, acknowledged]

theorem onLead_arrives {s : State} {a : Arrival} (h : Arrives s a) (c : Nat) (f : State → State) :
    onLead s a c f = f (bufferFreed s a c) := onKept_arrives h _

theorem onJobFrame_arrives {s : State} {a : Arrival} (h : JobArrives s a) (f : State → State) : onJobFrame s a f = f s := by
  obtain ⟨⟨hup, -⟩, hkeyed, hgen⟩ := h
  simp [onJobFrame, hup, hkeyed, hgen]

/-- A frame of the job's types that may not come as it does fails (R336, R338). -/
theorem onJobFrame_fails {s : State} {a : Arrival} (hup : leadUp s a.lead = true)
    (h : a.gen ≠ s.str.gen ∨ (leadAt s a.lead).keyed = false) (f : State → State) :
    onJobFrame s a f = leadReject s a.lead a.seq 0 none := by
  have hfails : a.gen ≠ s.str.gen ∨ (!(leadAt s a.lead).keyed) = true := h.imp_right fun hk => by rw [hk]; rfl
  rw [onJobFrame, hup, if_neg (by decide), if_pos hfails]

/-- Lead x once frame `seq`, a LINK frame, has been accepted (log 19). -/
def linkTaken (x : Lead) (seq : BitVec 64) : Lead := { x with rx := seq + 1, nak := none, owed := x.owed + 1 }

/-- A LINK frame that arrives, its buffer's credit owed. -/
theorem onLink_arrives {s : State} {a : Arrival} (h : Arrives s a) (howed : (leadAt s a.lead).owed < 7) (f : State → State) :
    onLink s a f = f (setLead s a.lead (linkTaken (leadAt s a.lead) a.seq)) := by
  obtain ⟨hup, hadmits⟩ := h
  have hfreed : linkFreed (leadRecv s a.lead a.seq) a.lead = setLead s a.lead (linkTaken (leadAt s a.lead) a.seq) := by
    have hlead := leadAt_setLead_same s a.lead.isLt { leadAt s a.lead with rx := a.seq + 1, nak := none }
    simp only [linkFreed, leadRecv, hlead, howed, if_true, setLead_setLead, linkTaken]
  simp only [onLink, hup, hadmits, Bool.and_self, if_true, hfreed]

end Sys2Proof.Machine
end

section
/-!
SUPPORT. What the loss of a lead keeps (R341 to R343, R417, R418, R461, R494): no lead comes up or is keyed, no code on its way is lost, HBM, the
Board and the leads' retry counters stay.
-/
namespace Sys2Proof.Machine

/-- From s to t no lead comes up or is keyed, no code on its way is lost, and the power, HBM, the Board and the leads' retry counters are as they
were. -/
structure StaysDown (s t : State) : Prop where
  up : ∀ j, leadUp s j = false → leadUp t j = false
  keyed : ∀ j, (leadAt s j).keyed = false → (leadAt t j).keyed = false
  inflight : ∀ r ∈ s.knl.inflight, r ∈ t.knl.inflight
  die : t.die = s.die
  hbm : t.mem.hbm = s.mem.hbm
  board : t.brd.mem = s.brd.mem
  retry : t.lead.cntRetry = s.lead.cntRetry

theorem StaysDown.refl (s : State) : StaysDown s s := ⟨fun _ => id, fun _ => id, fun _ => id, rfl, rfl, rfl, rfl⟩

theorem StaysDown.trans {s t u : State} (h : StaysDown s t) (h' : StaysDown t u) : StaysDown s u where
  up j hj := h'.up j (h.up j hj)
  keyed j hj := h'.keyed j (h.keyed j hj)
  inflight r hr := h'.inflight r (h.inflight r hr)
  die := h'.die.trans h.die
  hbm := h'.hbm.trans h.hbm
  board := h'.board.trans h.board
  retry := h'.retry.trans h.retry

theorem StaysDown.released {s t : State} (h : StaysDown s t) (hs : s.die ≠ .off) : t.die ≠ .off := h.die ▸ hs

/-- Two changes one after the other, the second made while the die is released. -/
theorem StaysDown.andThen {s t u : State} (h : StaysDown s t) (hs : s.die ≠ .off) (h' : t.die ≠ .off → StaysDown t u) : StaysDown s u :=
  h.trans (h' (h.released hs))

theorem StaysDown.onItsWay {s t : State} (h : StaysDown s t) {code : Nat} {eff : Effect} {detail : Bytes} {drill : Bool}
    (hs : OnItsWay s code eff detail drill) : OnItsWay t code eff detail drill := h.inflight _ hs

/-- What changes nothing of the leads, the memories and the power, and loses no code on its way. -/
theorem staysDown_of_eq {s t : State} (hlead : t.lead.lead = s.lead.lead) (hin : ∀ r ∈ s.knl.inflight, r ∈ t.knl.inflight)
    (hdie : t.die = s.die) (hhbm : t.mem.hbm = s.mem.hbm) (hboard : t.brd.mem = s.brd.mem) (hretry : t.lead.cntRetry = s.lead.cntRetry) :
    StaysDown s t where
  up j hj := by rwa [leadUp, leadAt_congr hlead]
  keyed j hj := by rwa [leadAt_congr hlead]
  inflight := hin
  die := hdie
  hbm := hhbm
  board := hboard
  retry := hretry

theorem staysDown_foldl {α : Type} {f : State → α → State} (hf : ∀ t x, t.die ≠ .off → StaysDown t (f t x)) (xs : List α) {s : State}
    (h : s.die ≠ .off) : StaysDown s (xs.foldl f s) := by
  induction xs generalizing s with
  | nil => exact .refl s
  | cons x xs ih =>
    have hx := hf s x h
    exact hx.trans (ih (hx.released h))

/-! ## Codes, notifications and SYS_STATE -/

/-- What a code that is raised leaves. -/
theorem raise_leaves {s : State} (h : s.die ≠ .off) (code : Nat) (eff : Effect) (detail : Bytes) :
    let t := raise s code eff detail
    t.lead.lead = s.lead.lead ∧ t.die = s.die ∧ t.mem.hbm = s.mem.hbm ∧ t.brd.mem = s.brd.mem ∧ t.lead.cntRetry = s.lead.cntRetry := by
  refine raise_keeps (R := fun s t => t.lead.lead = s.lead.lead ∧ t.die = s.die ∧ t.mem.hbm = s.mem.hbm ∧ t.brd.mem = s.brd.mem ∧
    t.lead.cntRetry = s.lead.cntRetry) ?_ (fun _ _ hu => hu.2.1) ?_ ?_ (fun _ _ => ⟨rfl, rfl, rfl, rfl, rfl⟩) h code eff detail
  · rintro s t u ⟨hlead, hdie, hhbm, hboard, hretry⟩ ⟨hlead', hdie', hhbm', hboard', hretry'⟩
    exact ⟨hlead'.trans hlead, hdie'.trans hdie, hhbm'.trans hhbm, hboard'.trans hboard, hretry'.trans hretry⟩
  · intro u unit b
    cases unit <;> exact ⟨rfl, rfl, rfl, rfl, rfl⟩
  · intro u code
    unfold countCode
    split <;> exact ⟨rfl, rfl, rfl, rfl, rfl⟩

theorem leadAt_raise {s : State} (h : s.die ≠ .off) (code : Nat) (eff : Effect) (detail : Bytes) (j : Nat) :
    leadAt (raise s code eff detail) j = leadAt s j := leadAt_congr (raise_leaves h code eff detail).1 j

theorem staysDown_raise {s : State} (h : s.die ≠ .off) (code : Nat) (eff : Effect) (detail : Bytes) :
    StaysDown s (raise s code eff detail) := by
  obtain ⟨hlead, hdie, hhbm, hboard, hretry⟩ := raise_leaves h code eff detail
  refine staysDown_of_eq hlead (fun r hr => ?_) hdie hhbm hboard hretry
  rw [raise_inflight h]
  exact List.mem_append_left _ hr

theorem staysDown_notify (s : State) (reason : Reason) (code : Nat) : StaysDown s (notify s reason code) := by
  obtain ⟨link, held, period, serial, hnote⟩ := notify_eq s reason code
  rw [hnote]
  exact staysDown_of_eq rfl (fun _ => id) rfl rfl rfl rfl

theorem staysDown_sysChange (s : State) (st : DevState) (degraded drill replace : Bool) :
    StaysDown s (sysChange s st degraded drill replace) := by
  obtain ⟨seq, repl, link, held, period, serial, hchange⟩ := sysChange_eq s st degraded drill replace
  rw [hchange]
  exact staysDown_of_eq rfl (fun _ => id) rfl rfl rfl rfl

theorem staysDown_degradeLead {s : State} (h : s.die ≠ .off) : StaysDown s (degradeLead s) := by
  unfold degradeLead degrade
  refine .trans (t := { s with knl := { s.knl with repLead := true } }) (staysDown_of_eq rfl (fun _ => id) rfl rfl rfl rfl) ?_
  have hchange := staysDown_sysChange { s with knl := { s.knl with repLead := true } } s.sys.st true s.sys.drill true
  split
  · exact hchange.trans (staysDown_raise (hchange.released h) ..)
  · exact hchange

/-! ## The leads -/

theorem staysDown_setLead (s : State) (i : Nat) {x : Lead} (hup : (leadAt s i).up = false → x.up = false)
    (hkeyed : (leadAt s i).keyed = false → x.keyed = false) : StaysDown s (setLead s i x) := by
  have hlead : ∀ j, leadAt (setLead s i x) j = leadAt s j ∨ j = i ∧ leadAt (setLead s i x) j = x := by
    intro j
    by_cases hj : j = i
    · subst hj
      rcases Nat.lt_or_ge j 8 with hlt | hge
      · exact .inr ⟨rfl, leadAt_setLead_same s hlt x⟩
      · exact .inl (by rw [leadAt_beyond _ hge, leadAt_beyond _ hge])
    · exact .inl (leadAt_setLead_other s hj x)
  refine ⟨fun j hj => ?_, fun j hj => ?_, fun _ => id, rfl, rfl, rfl, rfl⟩
  · rcases hlead j with h | ⟨rfl, h⟩
    · rwa [leadUp, h]
    · rw [leadUp, h]
      exact hup hj
  · rcases hlead j with h | ⟨rfl, h⟩
    · rwa [h]
    · rw [h]
      exact hkeyed hj

theorem staysDown_leadSend (s : State) (i : Nat) (b : TxBody) : StaysDown s (leadSend s i b) := by
  obtain ⟨lead, hsend⟩ := leadSend_eq s i b
  have hserved := served_leadSend s i b
  refine ⟨fun j hj => (hserved j).up.trans hj, fun j hj => (hserved j).keyed.trans hj, ?_, ?_, ?_, ?_, ?_⟩ <;> rw [hsend]
  exact fun _ => id

theorem staysDown_leadSendAll {s : State} (h : s.die ≠ .off) (is : List Nat) (b : TxBody) : StaysDown s (leadSendAll s is b) :=
  staysDown_foldl (fun t i _ => staysDown_leadSend t i b) is h

/-- A change of every lead alike that brings none up and keys none. -/
theorem staysDown_mapLeads (s : State) {f : Lead → Lead} (hup : ∀ x, (f x).up = x.up) (hkeyed : ∀ x, x.keyed = false → (f x).keyed = false) :
    StaysDown s { s with lead := { s.lead with lead := s.lead.lead.map f } } := by
  have hlead : ∀ j, leadAt { s with lead := { s.lead with lead := s.lead.lead.map f } } j = f (leadAt s j) ∨
      leadAt { s with lead := { s.lead with lead := s.lead.lead.map f } } j = leadAt s j := by
    intro j
    rcases Nat.lt_or_ge j 8 with hlt | hge
    · exact .inl (vget_map f _ hlt _)
    · exact .inr (by rw [leadAt_beyond _ hge, leadAt_beyond _ hge])
  refine ⟨fun j hj => ?_, fun j hj => ?_, fun _ => id, rfl, rfl, rfl, rfl⟩
  · rcases hlead j with h | h
    · rwa [leadUp, h, hup]
    · rwa [leadUp, h]
  · rcases hlead j with h | h
    · rw [h]
      exact hkeyed _ hj
    · rwa [h]

theorem staysDown_untag (s : State) : StaysDown s (untag s) := staysDown_mapLeads s (fun _ => rfl) fun _ => id

theorem staysDown_dropLeadKeys (s : State) : StaysDown s (dropLeadKeys s) := staysDown_mapLeads s (fun _ => rfl) fun _ _ => rfl

/-! ## The round-up -/

theorem staysDown_disarm {s : State} (h : s.die ≠ .off) : StaysDown s (disarm s) := by
  simp only [disarm]
  split
  · refine .trans ?_ (staysDown_sysChange ..)
    split
    · exact (staysDown_dropLeadKeys s).trans (staysDown_of_eq rfl (fun _ => id) rfl rfl rfl rfl)
    · refine .trans ?_ (staysDown_raise (by exact h) ..)
      exact (staysDown_dropLeadKeys s).trans (staysDown_of_eq rfl (fun _ => id) rfl rfl rfl rfl)
  · refine .trans ?_ (staysDown_sysChange ..)
    exact (staysDown_dropLeadKeys s).trans (staysDown_of_eq rfl (fun _ => id) rfl rfl rfl rfl)

theorem staysDown_cancelRoundUp {s : State} (h : s.die ≠ .off) : StaysDown s (cancelRoundUp s) := by
  simp only [cancelRoundUp, cancelWith]
  split
  · have hraise := (staysDown_leadSendAll h (jobLeads s) (.ruFrame .cancel (cancelFrame s s.tet.depth s.tet.plan s.tet.armId s.str.job))).andThen
      h fun h => staysDown_raise h 0x080B0007 .event (d4 s.tet.armId.toNat)
    exact (hraise.trans (staysDown_notify ..)).andThen h staysDown_disarm
  · split
    · exact staysDown_raise h ..
    · exact .refl s

/-! ## Strands, signals and generations -/

theorem staysDown_setStrand (s : State) (n : Nat) (x : Strand) : StaysDown s (setStrand s n x) :=
  staysDown_of_eq rfl (fun _ => id) rfl rfl rfl rfl

theorem staysDown_setSnp (s : State) (n : Snp) : StaysDown s (setSnp s n) := staysDown_of_eq rfl (fun _ => id) rfl rfl rfl rfl

theorem staysDown_countDone (s : State) (n : Nat) : StaysDown s (countDone s n) := by
  unfold countDone
  repeat' split
  all_goals exact staysDown_of_eq rfl (fun _ => id) rfl rfl rfl rfl

theorem staysDown_applySignals {s : State} (h : s.die ≠ .off) (sigs : List Signal) : StaysDown s (applySignals s sigs) := by
  refine staysDown_foldl (fun t k ht => ?_) _ h
  simp only [applyToken]
  split
  · exact staysDown_of_eq rfl (fun _ => id) rfl rfl rfl rfl
  · exact (staysDown_foldl (fun u g _ => staysDown_setStrand u _ _) _ ht).andThen ht fun h => staysDown_raise h ..

theorem staysDown_ranPast {s : State} (h : s.die ≠ .off) (n i : Nat) : StaysDown s (ranPast s n i) := by
  unfold ranPast
  split
  · exact (staysDown_setStrand s n _).andThen h fun h => staysDown_raise h ..
  · exact .refl s

theorem staysDown_refuse {s : State} (h : s.die ≠ .off) (n code : Nat) : StaysDown s (refuse s n code) := by
  have hfault : StaysDown s (issueFault (stopStrand s n) n) := by
    unfold issueFault
    repeat' split
    all_goals exact staysDown_of_eq rfl (fun _ => id) rfl rfl rfl rfl
  exact hfault.andThen h fun h => staysDown_raise h ..

theorem staysDown_stepSix {s : State} (h : s.die ≠ .off) (extra : List Signal) : StaysDown s (stepSix s extra) := by
  have hsteps := staysDown_foldl (f := stepOn) (fun t n _ => (staysDown_setStrand t n _).trans (staysDown_countDone _ n)) (stepping s) h
  exact ((hsteps.trans (staysDown_setSnp ..)).andThen h fun h => staysDown_applySignals h _).andThen h
    fun h => staysDown_foldl (fun t p ht => staysDown_ranPast ht p.1 p.2) _ h

theorem staysDown_startMirror {s : State} (h : s.die ≠ .off) (g : Gen) : StaysDown s (startMirror s g) := by
  unfold startMirror
  split
  · exact staysDown_setSnp s _
  · split
    · exact (staysDown_setSnp s _).andThen h fun h => staysDown_raise h ..
    · exact (staysDown_setSnp s _).trans (staysDown_leadSend ..)

theorem staysDown_takeGeneration {s : State} (h : s.die ≠ .off) (w : BitVec 128) : StaysDown s (takeGeneration s w) :=
  (staysDown_setSnp s _).andThen h fun h => staysDown_startMirror h _

theorem staysDown_snapWait (s : State) (w : BitVec 128) : StaysDown s (snapWait s w) := by
  unfold snapWait
  split
  · exact staysDown_of_eq rfl (fun _ => id) rfl rfl rfl rfl
  · exact .refl s

theorem staysDown_runSnap {s : State} (h : s.die ≠ .off) : StaysDown s (runSnap s) := by
  have hwait := staysDown_snapWait s (stepSnapWord s)
  simp only [runSnap]
  split
  · have htaken := hwait.andThen h fun h => staysDown_takeGeneration h (stepSnapWord s)
    exact ((htaken.trans (staysDown_setStrand ..)).andThen h fun h => staysDown_applySignals h _).andThen h
      fun h => staysDown_stepSix h _
  · exact ((hwait.trans (staysDown_setStrand ..)).andThen h fun h => staysDown_refuse h ..).andThen h fun h => staysDown_stepSix h _

theorem staysDown_fenceDone {s : State} (h : s.die ≠ .off) : StaysDown s (fenceDone s) := by
  unfold fenceDone
  split
  · split
    · exact ((staysDown_setStrand s snapN _).andThen h fun h => staysDown_applySignals h _).andThen h fun h => staysDown_ranPast h ..
    · exact .refl s
  · exact .refl s

theorem staysDown_holdEnds {s : State} (h : s.die ≠ .off) (us : Nat) : StaysDown s (holdEnds s us) := by
  unfold holdEnds
  split
  · exact (staysDown_setSnp s _).andThen h staysDown_runSnap
  · exact .refl s

theorem staysDown_abandon {s : State} (h : s.die ≠ .off) (i : Nat) : StaysDown s (abandon s i) := by
  have hgone : StaysDown s (putGen s i none) := by
    unfold putGen
    split <;> exact staysDown_setSnp s _
  simp only [abandon]
  split
  · have huntagged := (hgone.trans (staysDown_setSnp _ { (putGen s i none).snp with stall := false })).trans (staysDown_untag _)
    exact (huntagged.andThen h staysDown_fenceDone).andThen h fun h => staysDown_holdEnds h 0
  · exact hgone

theorem staysDown_partnerLost (fuel : Nat) {s : State} (h : s.die ≠ .off) : StaysDown s (partnerLost fuel s) := by
  induction fuel generalizing s with
  | zero => exact .refl s
  | succ k ih =>
    unfold partnerLost
    split
    · exact .refl s
    · exact ((staysDown_raise h ..).andThen h fun h => staysDown_abandon h _).andThen h ih

theorem staysDown_partnerLeadLost {s : State} (h : s.die ≠ .off) (l : Nat) : StaysDown s (partnerLeadLost s l) := by
  unfold partnerLeadLost
  split
  · exact staysDown_partnerLost _ h
  · exact .refl s

/-! ## The loss of a lead -/

theorem staysDown_dropLead (s : State) (i : Nat) : StaysDown s (dropLead s i) := staysDown_setLead s i (fun _ => rfl) fun _ => rfl

/-- The lead that is dropped is down and has no key. -/
theorem dropLead_down (s : State) (i : Nat) : leadUp (dropLead s i) i = false ∧ (leadAt (dropLead s i) i).keyed = false := by
  rcases Nat.lt_or_ge i 8 with hlt | hge
  · have hlead : leadAt (dropLead s i) i = _ := leadAt_setLead_same s hlt _
    rw [leadUp, hlead]
    exact ⟨rfl, rfl⟩
  · rw [leadUp, leadAt_beyond _ hge]
    exact ⟨rfl, rfl⟩

theorem dropParent_eq (s : State) (i : Nat) : ∃ tim, dropParent s i = { s with tim := tim } := by
  unfold dropParent
  split
  · exact ⟨_, rfl⟩
  · exact ⟨s.tim, rfl⟩

/-- A frame that cannot be routed changes the leads' EVENT and the codes on their way. -/
theorem unroutable_eq {s : State} (h : s.die ≠ .off) (f : LeadFrame) : unroutable s f = { s with
    lead := { s.lead with event := orBit s.lead.event 9 }
    knl := { s.knl with inflight := s.knl.inflight ++ [⟨0x07080009, .jobEnding, d4 f.dest.toNat, s.sys.drill⟩] } } :=
  raise_released h (u := .lead) (b := 9) rfl (fun _ => rfl) ..

/-- Moving the frames of a lost lead changes the other leads, their EVENT and the codes on their way. -/
theorem reroute_eq {s : State} (h : s.die ≠ .off) (fs : List LeadFrame) : ∃ lead event inflight, reroute s fs = { s with
    lead := { s.lead with lead := lead, event := event }, knl := { s.knl with inflight := inflight } } := by
  unfold reroute
  induction fs generalizing s with
  | nil => exact ⟨_, _, _, rfl⟩
  | cons f fs ih =>
    rw [List.foldl_cons]
    split
    case h_1 l hl =>
      obtain ⟨lead, hsend⟩ := leadSend_eq s l (.data f none)
      rw [hsend]
      exact ih h
    case h_2 =>
      rw [unroutable_eq h]
      exact ih h

theorem staysDown_reroute {s : State} (h : s.die ≠ .off) (fs : List LeadFrame) : StaysDown s (reroute s fs) := by
  refine staysDown_foldl (fun t f ht => ?_) fs h
  split
  · exact staysDown_leadSend ..
  · exact staysDown_raise ht ..

/-- Does the job use lead i as it is lost (R343)? -/
def lossUsed (s : State) (i : Nat) : Bool :=
  (decide (s.sys.st = .running) || decide (s.sys.st = .armed)) && jobUses { s with lead := (dropLead s i).lead } i

/-- Lead i is dropped, and the frames that it carried for a job that does not use it have moved. -/
def lossMoved (s : State) (i : Nat) : State :=
  reroute (dropParent (dropLead s i) i) (if lossUsed s i then [] else routedFrames (leadAt s i))

/-- An optional lead's loss degrades the device, a required one's fails the cabling check. -/
def lossNoted (s : State) (i : Nat) : State :=
  if planOptional s i then degradeLead s
  else { s with lead := { s.lead with result := 3, reqFail := s.lead.reqFail ||| BitVec.ofNat 8 (2 ^ i) } }

/-- What follows the report of lead i's loss. -/
def lossHandled (s : State) (i : Nat) (used : Bool) : State :=
  let s := partnerLeadLost (lossNoted s i) i
  if used ∧ s.sys.st = .armed then cancelRoundUp s else s

theorem loseLead_eq {s : State} {i : Nat} (h : leadUp s i = true) : loseLead s i =
    lossHandled (raise (lossMoved s i) 0x07080003 (if lossUsed s i ∧ (lossMoved s i).sys.st = .running then .jobEnding else .event)
      (d4 i ++ d4 (peerId (lossMoved s i) i))) i (lossUsed s i) := by
  simp only [loseLead, h, Bool.not_true, Bool.false_eq_true, if_false]
  rfl

theorem staysDown_lossNoted {s : State} (h : s.die ≠ .off) (i : Nat) : StaysDown s (lossNoted s i) := by
  unfold lossNoted
  split
  · exact staysDown_degradeLead h
  · exact staysDown_of_eq rfl (fun _ => id) rfl rfl rfl rfl

theorem staysDown_lossHandled {s : State} (h : s.die ≠ .off) (i : Nat) (used : Bool) : StaysDown s (lossHandled s i used) := by
  have hpartner := (staysDown_lossNoted h i).andThen h fun h => staysDown_partnerLeadLost h i
  simp only [lossHandled]
  split
  · exact hpartner.andThen h staysDown_cancelRoundUp
  · exact hpartner

/-- Dropping a lead and moving its frames leaves SYS_STATE and the peers. -/
theorem lossMoved_spec {s : State} (h : s.die ≠ .off) (i : Nat) :
    StaysDown (dropLead s i) (lossMoved s i) ∧ (lossMoved s i).sys = s.sys ∧ (lossMoved s i).lead.peer = s.lead.peer := by
  obtain ⟨tim, hparent⟩ := dropParent_eq (dropLead s i) i
  have hoff : (dropParent (dropLead s i) i).die ≠ .off := by rwa [hparent]
  have hdropped : StaysDown (dropLead s i) (dropParent (dropLead s i) i) := by
    rw [hparent]
    exact staysDown_of_eq rfl (fun _ => id) rfl rfl rfl rfl
  obtain ⟨lead, event, inflight, hmoved⟩ := reroute_eq hoff (if lossUsed s i then [] else routedFrames (leadAt s i))
  refine ⟨hdropped.trans (staysDown_reroute hoff _), ?_, ?_⟩ <;> rw [lossMoved, hmoved, hparent] <;> rfl

theorem staysDown_loseLead {s : State} (h : s.die ≠ .off) (i : Nat) : StaysDown s (loseLead s i) := by
  by_cases hup : leadUp s i = true
  · rw [loseLead_eq hup]
    have hmoved := (staysDown_dropLead s i).trans (lossMoved_spec h i).1
    exact (hmoved.andThen h fun h => staysDown_raise h ..).andThen h fun h => staysDown_lossHandled h ..
  · rw [loseLead, Bool.eq_false_iff.mpr hup]
    exact .refl s

/-- R342: a lead that is lost is down and has no key, the loss is reported, and the memories stay. -/
theorem loseLead_spec {s : State} (h : s.die ≠ .off) {i : Nat} (hup : leadUp s i = true) :
    leadUp (loseLead s i) i = false ∧ (leadAt (loseLead s i) i).keyed = false ∧
      ∃ eff, (eff = .jobEnding ∨ eff = .event) ∧ OnItsWay (loseLead s i) 0x07080003 eff (d4 i ++ d4 (peerId s i)) s.sys.drill := by
  obtain ⟨hmoved, hsys, hpeers⟩ := lossMoved_spec h i
  have hoff := hmoved.released h
  have hpeer : peerId (lossMoved s i) i = peerId s i := by rw [peerId, hpeers, peerId]
  obtain ⟨hdown, hkeyless⟩ := dropLead_down s i
  rw [loseLead_eq hup, hpeer]
  generalize heff : (if lossUsed s i = true ∧ (lossMoved s i).sys.st = .running then Effect.jobEnding else Effect.event) = eff
  have hraised := staysDown_raise hoff 0x07080003 eff (d4 i ++ d4 (peerId s i))
  have hway := raise_onItsWay hoff 0x07080003 eff (d4 i ++ d4 (peerId s i))
  rw [hsys] at hway
  have hhandled := staysDown_lossHandled (hraised.released hoff) i (lossUsed s i)
  have hall := hmoved.trans (hraised.trans hhandled)
  refine ⟨hall.up i hdown, hall.keyed i hkeyless, eff, ?_, hhandled.onItsWay hway⟩
  rw [← heff]
  split
  · exact .inl rfl
  · exact .inr rfl

/-! ## Re-laning -/

theorem staysDown_relaned (s : State) (i : Nat) (m : Word) : StaysDown s (relaned s i m) := by
  have hlead := staysDown_setLead s i (x := { txFrame (leadAt s i) (.relane m) with lanes := m, relaning := true }) id id
  refine hlead.trans ?_
  rw [relaned]
  exact staysDown_of_eq rfl (fun _ => id) rfl rfl rfl rfl

theorem staysDown_relane {s : State} (h : s.die ≠ .off) (i lane : Nat) : StaysDown s (relane s i lane) := by
  rw [relane]
  by_cases hleft : laneCount (onesIn ((leadAt s i).lanes.toNat - 2 ^ lane) 0 32) = 0
  · rw [relaneOn, if_pos hleft]
    exact staysDown_loseLead h i
  · rw [relaneOn_left hleft]
    exact (staysDown_relaned s i _).andThen h fun h => staysDown_raise h ..

end Sys2Proof.Machine
end

section
/-!
O27. The LINK layer of the leads: acknowledgement and retry (R338, R486), frames that fail (R338, R367), and credits (R339, R340).
-/
namespace Sys2Proof.Machine

/-! ## Acknowledgement and retry -/

/-- From s to t nothing but lead i has changed. -/
def OnlyLead (s t : State) (i : Nat) : Prop :=
  (∀ j, j ≠ i → leadAt t j = leadAt s j) ∧ t = { s with lead := { s.lead with lead := t.lead.lead } }

theorem onlyLead_setLead (s : State) (i : Nat) (x : Lead) : OnlyLead s (setLead s i x) i :=
  ⟨fun _ hj => leadAt_setLead_other s hj x, rfl⟩

/-- Pages that are acknowledged change the capture alone. -/
theorem pagesAcked_eq (s : State) (ps : List Nat) : ∃ snp, pagesAcked s ps = { s with snp := snp } := by
  unfold pagesAcked
  split
  · split
    · exact ⟨s.snp, rfl⟩
    · exact ⟨_, rfl⟩
  · exact ⟨s.snp, rfl⟩

/-- Without frames of an older key an acknowledgement removes the frames up to its SEQ. -/
theorem ackFrames_current {x : Lead} (h : x.old = []) (seq : BitVec 64) : ackFrames x seq = { x with
    sent := x.sent.filter fun f => decide (seq < f.1)
    resend := if x.resend.any (fun q => decide (q ≤ seq)) then none else x.resend } := by
  have hcurrent : acksOld x seq = false := by simp [acksOld, h]
  simp only [ackFrames, hcurrent, Bool.false_eq_true, if_false, ← h]

theorem leadAck_spec {s : State} {a : Arrival} (h : Arrives s a) (howed : (leadAt s a.lead).owed < 7) (seq : BitVec 64)
    (hold : (leadAt s a.lead).old = []) :
    leadAt (leadAck s a seq) a.lead = { linkTaken (leadAt s a.lead) a.seq with
      sent := (leadAt s a.lead).sent.filter fun f => decide (seq < f.1)
      resend := if (leadAt s a.lead).resend.any (fun q => decide (q ≤ seq)) then none else (leadAt s a.lead).resend } ∧
    (∀ j, j ≠ a.lead.val → leadAt (leadAck s a seq) j = leadAt s j) ∧
    leadAck s a seq = { s with lead := { s.lead with lead := (leadAck s a seq).lead.lead }, snp := (leadAck s a seq).snp } := by
  have htaken := leadAt_setLead_same s a.lead.isLt (linkTaken (leadAt s a.lead) a.seq)
  have hack : leadAck s a seq = pagesAcked (setLead s a.lead (ackFrames (linkTaken (leadAt s a.lead) a.seq) seq))
      (ackedPages (ackedFrames (linkTaken (leadAt s a.lead) a.seq) seq)) := by
    simp only [leadAck, onLink_arrives h howed, htaken, setLead_setLead]
  obtain ⟨snp, hpages⟩ := pagesAcked_eq (setLead s a.lead (ackFrames (linkTaken (leadAt s a.lead) a.seq) seq))
    (ackedPages (ackedFrames (linkTaken (leadAt s a.lead) a.seq) seq))
  rw [hack, hpages]
  refine ⟨(leadAt_setLead_same s a.lead.isLt _).trans (ackFrames_current (x := linkTaken _ a.seq) hold seq), fun j hj => ?_, rfl⟩
  exact leadAt_setLead_other s hj _

/-- Sending begins again at a frame that is still held. -/
theorem resendAt_held {s : State} {i : Nat} {seq : BitVec 64} (h : ∃ f ∈ (leadAt s i).old ++ (leadAt s i).sent, f.1 = seq) :
    resendAt s i (some seq) = setLead s i { leadAt s i with resend := some seq } := by
  have hheld : (((leadAt s i).old ++ (leadAt s i).sent).any fun f => f.1 == seq) = true :=
    List.any_eq_true.mpr (h.imp fun _ hf => ⟨hf.1, beq_iff_eq.mpr hf.2⟩)
  simp only [resendAt, Option.any_some, hheld, if_true]

theorem leadNak_eq {s : State} {a : Arrival} (h : Arrives s a) (howed : (leadAt s a.lead).owed < 7) {seq : BitVec 64}
    (hheld : ∃ f ∈ (leadAt s a.lead).old ++ (leadAt s a.lead).sent, f.1 = seq) :
    leadNak s a seq = setLead s a.lead { linkTaken (leadAt s a.lead) a.seq with resend := some seq } := by
  have htaken := leadAt_setLead_same s a.lead.isLt (linkTaken (leadAt s a.lead) a.seq)
  rw [leadNak, onLink_arrives h howed, resendAt_held (by rwa [htaken]), htaken, setLead_setLead]

theorem leadAckTimeout_eq {s : State} {i : Nat} (hup : (leadAt s i).up = true) {f : BitVec 64 × Nat × TxBody} {rest}
    (h : (leadAt s i).old ++ (leadAt s i).sent = f :: rest) :
    leadAckTimeout s i = setLead s i { leadAt s i with resend := some f.1 } := by
  have holdest : oldest (leadAt s i) = some f.1 := by rw [oldest, h, List.head?_cons, Option.map_some]
  rw [leadAckTimeout, leadUp, hup, if_pos rfl, holdest]
  exact resendAt_held ⟨f, by rw [h]; exact List.mem_cons_self, rfl⟩

/-! ## Frames that fail -/

/-- The code that reports a frame that fails (R338): its tag's, or CHECK's and the other causes'. -/
def dropCode (cause : Nat) : Nat := if cause = 1 then 0x0A080001 else 0x07080001

/-- The state in which lead i holds the NAK of frame `seq`. -/
def nakNoted (s : State) (i : Nat) (seq : BitVec 64) : State := setLead s i { leadAt s i with nak := some (seq, failures (leadAt s i) seq) }

/-- Frame `seq` fails on lead i: the failure is counted and reported, and a NAK is sent. -/
def frameRejected (s : State) (i : Nat) (seq : BitVec 64) (cause : Nat) : State :=
  leadSend (countDrop (nakNoted s i seq) i (cause == 1) seq) i (.link (.nak seq))

theorem countDrop_eq {s : State} (h : s.die ≠ .off) (i : Nat) (cause : Nat) (seq : BitVec 64) : ∃ event,
    countDrop s i (cause == 1) seq = { s with
      lead := { s.lead with event := event, cntRetry := vmodify s.lead.cntRetry i fun c => satAdd32 c 1 }
      knl := { s.knl with inflight := s.knl.inflight ++ [⟨BitVec.ofNat 32 (dropCode cause), .count, d4 i ++ d8 seq.toNat, s.sys.drill⟩] } } := by
  unfold countDrop dropCode
  by_cases hcause : cause = 1
  · simp only [hcause, beq_self_eq_true, if_true]
    rw [raise_released (u := .lead) (b := 1) (by exact h) rfl (fun _ => rfl)]
    exact ⟨_, rfl⟩
  · simp only [beq_eq_false_iff_ne.mpr hcause, hcause, Bool.false_eq_true, if_false]
    rw [raise_released (u := .lead) (b := 0) (by exact h) rfl (fun _ => rfl)]
    exact ⟨_, rfl⟩

/-- The failure is on its way and counted. -/
theorem frameRejected_reports {s : State} (h : s.die ≠ .off) {i : Nat} (hi : i < 8) (seq : BitVec 64) (cause : Nat) :
    (frameRejected s i seq cause).die ≠ .off ∧ (frameRejected s i seq cause).sys = s.sys ∧
      OnItsWay (frameRejected s i seq cause) (dropCode cause) .count (d4 i ++ d8 seq.toNat) s.sys.drill ∧
      vget (frameRejected s i seq cause).lead.cntRetry i 0 = satAdd32 (vget s.lead.cntRetry i 0) 1 := by
  obtain ⟨event, hdrop⟩ := countDrop_eq (s := nakNoted s i seq) h i cause seq
  obtain ⟨lead, hsend⟩ := leadSend_eq (countDrop (nakNoted s i seq) i (cause == 1) seq) i (.link (.nak seq))
  rw [frameRejected, hsend, hdrop]
  exact ⟨h, rfl, List.mem_append_right _ (List.mem_singleton.mpr rfl), vget_vmodify_same _ hi _ _⟩

/-- The NAK joins the frames that wait on the lead, and the lead is served. -/
theorem frameRejected_leads {s : State} (h : s.die ≠ .off) {i : Nat} (hup : leadUp s i = true) (seq : BitVec 64) (cause : Nat) :
    leadAt (frameRejected s i seq cause) i = serveLead { leadAt s i with
      nak := some (seq, failures (leadAt s i) seq), waiting := (leadAt s i).waiting ++ [(0, .link (.nak seq))] } ∧
    ∀ j, j ≠ i → leadAt (frameRejected s i seq cause) j = leadAt s j := by
  have hi := lt_of_leadUp hup
  obtain ⟨event, hdrop⟩ := countDrop_eq (s := nakNoted s i seq) h i cause seq
  have hsame : leadAt (nakNoted s i seq) i = _ := leadAt_setLead_same s hi _
  have hcounted : ∀ j, leadAt (countDrop (nakNoted s i seq) i (cause == 1) seq) j = leadAt (nakNoted s i seq) j := fun j => by rw [hdrop]; rfl
  refine ⟨?_, fun j hj => ?_⟩
  · rw [frameRejected, leadSend_up (by rw [leadUp, hcounted, hsame]; exact hup), leadAt_setLead_same _ hi, hcounted, hsame]
    rfl
  · rw [frameRejected, leadAt_leadSend_other _ hj, hcounted]
    exact leadAt_setLead_other s hj _

/-- A frame that may be NAKed is rejected; its third failure in a row has a consequence (R338). -/
theorem dropFrame_eq (s : State) (i : Nat) (seq : BitVec 64) (cause : Nat) (lane : Option Nat) : dropFrame s i seq cause lane =
    if failures (leadAt s i) seq < 3 then frameRejected s i seq cause
    else if cause = 2 then raise (frameRejected s i seq cause) 0x03080001 .jobEnding (d4 i ++ d8 seq.toNat)
    else match lane with
      | some l => if bitOf (leadAt (frameRejected s i seq cause) i).lanes.toNat l then relane (frameRejected s i seq cause) i l
        else loseLead (frameRejected s i seq cause) i
      | none => loseLead (frameRejected s i seq cause) i := rfl

/-- Whatever the consequence, the failure stays reported and counted. -/
theorem staysDown_dropFrame {s : State} {i : Nat} {seq : BitVec 64} {cause : Nat} (h : (frameRejected s i seq cause).die ≠ .off)
    (lane : Option Nat) : StaysDown (frameRejected s i seq cause) (dropFrame s i seq cause lane) := by
  rw [dropFrame_eq]
  split
  · exact .refl _
  · split
    · exact staysDown_raise h ..
    · split
      · split
        · exact staysDown_relane h ..
        · exact staysDown_loseLead h i
      · exact staysDown_loseLead h i

theorem leadReject_kept {s : State} {i : Nat} {seq : BitVec 64} (hup : leadUp s i = true)
    (h : (leadAt s i).nak.all (fun q => q.1 == seq) = true) (cause : Nat) (lane : Option Nat) :
    leadReject s i seq cause lane = dropFrame s i seq cause lane := by
  rw [leadReject, hup, h, Bool.and_self, if_pos rfl]

/-- While another frame has been NAKed, a frame that fails is only dropped. -/
theorem leadReject_other {s : State} {i : Nat} {seq : BitVec 64} (h : (leadAt s i).nak.all (fun q => q.1 == seq) = false) (cause : Nat)
    (lane : Option Nat) : leadReject s i seq cause lane = s := by
  rw [leadReject, h, Bool.and_false, if_neg (by decide)]

/-- R338, R367: a frame that fails. -/
theorem leadReject_spec {s : State} (h : s.die ≠ .off) {i : Nat} (hup : leadUp s i = true) {seq : BitVec 64}
    (hnak : (leadAt s i).nak.all (fun q => q.1 == seq) = true) (cause : Nat) (lane : Option Nat) :
    let t := leadReject s i seq cause lane
    OnItsWay t (dropCode cause) .count (d4 i ++ d8 seq.toNat) s.sys.drill ∧
    vget t.lead.cntRetry i 0 = satAdd32 (vget s.lead.cntRetry i 0) 1 ∧
    (failures (leadAt s i) seq < 3 →
      leadAt t i = serveLead { leadAt s i with
        nak := some (seq, failures (leadAt s i) seq), waiting := (leadAt s i).waiting ++ [(0, .link (.nak seq))] } ∧
      ∀ j, j ≠ i → leadAt t j = leadAt s j) ∧
    (failures (leadAt s i) seq = 3 → cause = 2 → OnItsWay t 0x03080001 .jobEnding (d4 i ++ d8 seq.toNat) s.sys.drill) := by
  obtain ⟨hoff, hsys, hway, hcount⟩ := frameRejected_reports h (lt_of_leadUp hup) seq cause
  have hstays := staysDown_dropFrame hoff lane
  simp only [leadReject_kept hup hnak]
  refine ⟨hstays.onItsWay hway, by rw [hstays.retry, hcount], fun hfew => ?_, fun hthird hcheck => ?_⟩
  · rw [dropFrame_eq, if_pos hfew]
    exact frameRejected_leads h hup seq cause
  · rw [dropFrame_eq, if_neg (by omega), if_pos hcheck, ← hsys]
    exact raise_onItsWay hoff ..

/-- A DATA frame whose CHECK does not hold fails for that cause. -/
theorem onData_badCheck {s : State} {a : Arrival} {f : LeadFrame} (hup : leadUp s a.lead = true) (hgen : a.gen = s.str.gen)
    (hkeyed : (leadAt s a.lead).keyed = true) (hok : leadFrameOk f = true) (hcheck : f.check ≠ crc32c f.payload) (act : State → State) :
    onData s a f act = leadReject s a.lead a.seq 2 none := by
  simp [onData, onJobFrame, hup, hgen, hkeyed, hok, hcheck]

/-! ## Credits -/

/-- The lead that a credit return serves. -/
def credited (s : State) (a : Arrival) (c n : Nat) : Lead :=
  { linkTaken (leadAt s a.lead) a.seq with
    credit := vset (leadAt s a.lead).credit c (min (creditCap s a.lead c) (vget (leadAt s a.lead).credit c 0 + n)) }

theorem creditReturn_eq {s : State} {a : Arrival} (h : Arrives s a) (howed : (leadAt s a.lead).owed < 7) (c n : Nat) :
    creditReturn s a c n = setLead s a.lead (serveLead (credited s a c n)) := by
  have htaken := leadAt_setLead_same s a.lead.isLt (linkTaken (leadAt s a.lead) a.seq)
  simp only [creditReturn, onLink_arrives h howed, htaken, setLead_setLead]
  rfl

/-- Credits of a lead on which no frame waits are added up to the receiver's buffers. -/
theorem creditReturn_idle {s : State} {a : Arrival} (h : Arrives s a) (howed : (leadAt s a.lead).owed < 7) (c n : Nat)
    (hwaiting : (leadAt s a.lead).waiting = []) : creditReturn s a c n = setLead s a.lead (credited s a c n) := by
  rw [creditReturn_eq h howed, serveLead_idle (by exact hwaiting)]

/-- The frame that waited for the credit leaves. -/
theorem creditReturn_one {s : State} {a : Arrival} (h : Arrives s a) (howed : (leadAt s a.lead).owed < 7) {c : Fin 4} {n : Nat} {b : TxBody}
    (hwaiting : (leadAt s a.lead).waiting = [(c.val, b)]) (hn : 1 ≤ n) (hcap : 1 ≤ creditCap s a.lead c)
    (hrelaning : (leadAt s a.lead).relaning = false) :
    creditReturn s a c n = setLead s a.lead (txFrame { credited s a c n with waiting := [] } b) := by
  have hcredit : 0 < vget (credited s a c n).credit c 0 := by
    rw [credited, vget_vset_same _ c.isLt]
    omega
  rw [creditReturn_eq h howed, serveLead_one (x := credited s a c n) h.1 hrelaning hwaiting hcredit]

/-- R339, R340: a frame that has waited too long for a credit ends the job. -/
theorem creditStall_eq {s : State} {i : Nat} {c : Fin 4} (hup : (leadAt s i).up = true) (hcredit : vget (leadAt s i).credit c 0 = 0)
    (hwaits : ∃ b, (c.val, b) ∈ (leadAt s i).waiting) : creditStall s i c = raise s 0x0708000A .jobEnding (d4 i ++ d4 c) := by
  obtain ⟨b, hb⟩ := hwaits
  have hany : ((leadAt s i).waiting.any fun w => w.1 == c.val) = true := List.any_eq_true.mpr ⟨_, hb, beq_self_eq_true _⟩
  exact if_pos ⟨hup, hcredit, hany⟩

/-- Settles O27: every clause is what the lead's rules say of one frame that arrives, fails or waits. -/
theorem leadLinkLayer : Obligations.LeadLinkLayer := by
  unfold Obligations.LeadLinkLayer
  refine ⟨fun s a seq => ⟨fun h howed => ⟨?_, ?_⟩, ?_⟩,
    ⟨fun s l seq cause lane h hup => ⟨?_, ?_⟩, fun s a f hup => ⟨?_, ?_⟩⟩, fun s a c h howed => ⟨?_, ?_⟩, ?_⟩
  · exact fun hold => ⟨_, rfl, leadAck_spec h howed seq hold⟩
  · intro hheld
    refine ⟨_, rfl, ?_⟩
    show _ = _ ∧ OnlyLead s (leadNak s a seq) a.lead
    rw [leadNak_eq h howed hheld]
    exact ⟨leadAt_setLead_same s a.lead.isLt _, onlyLead_setLead s _ _⟩
  · intro f rest hup hframes
    refine ⟨_, rfl, ?_⟩
    show _ = _ ∧ OnlyLead s (leadAckTimeout s a.lead) a.lead
    rw [leadAckTimeout_eq hup hframes]
    exact ⟨leadAt_setLead_same s a.lead.isLt _, onlyLead_setLead s _ _⟩
  · intro hnak
    obtain ⟨hway, hcount, hfew, hthird⟩ := leadReject_spec h hup hnak cause.val (lane.map Fin.val)
    have hcode : dropCode cause = if cause = 1 then 0x0A080001 else 0x07080001 := by simp only [dropCode, Fin.ext_iff, Fin.val_one]
    exact ⟨_, rfl, hcode ▸ hway, hcount, hfew, fun h3 hc => hthird h3 (congrArg Fin.val hc)⟩
  · exact fun hnak => congrArg Host.Outcome.next (leadReject_other hnak cause.val (lane.map Fin.val))
  · intro hbad origin cls hops plan seq m
    have hdata : dataFrameReceived s a f = leadReject s a.lead a.seq 0 none := by
      rw [dataFrameReceived, onData, onJobFrame_fails hup hbad]
    have habort : abortReceived s a origin cls hops = leadReject s a.lead a.seq 0 none := onJobFrame_fails hup hbad _
    have hcoll : collReceived s a plan seq m = leadReject s a.lead a.seq 0 none := onJobFrame_fails hup hbad _
    exact ⟨congrArg Host.Outcome.next hdata, congrArg Host.Outcome.next habort, congrArg Host.Outcome.next hcoll⟩
  · intro hgen hkeyed hok hcheck
    have hdata : dataFrameReceived s a f = leadReject s a.lead a.seq 2 none := onData_badCheck hup hgen hkeyed hok hcheck _
    exact congrArg Host.Outcome.next hdata
  · intro n hwaiting
    refine ⟨_, rfl, ?_⟩
    show leadAt (creditReturn s a c n) a.lead = _ ∧ creditReturn s a c n = _
    rw [creditReturn_idle h howed c n hwaiting]
    exact ⟨leadAt_setLead_same s a.lead.isLt _, rfl⟩
  · intro n b hwaiting hclass hcredit hn hcap hrelaning
    refine ⟨_, rfl, ?_⟩
    have hcredits : vget (credited s a c n).credit c 0 = min (creditCap s a.lead c) n := by
      rw [credited, vget_vset_same _ c.isLt, hcredit, Nat.zero_add]
    show (leadAt (creditReturn s a c n) a.lead).waiting = [] ∧ (leadAt (creditReturn s a c n) a.lead).sent = _ ∧
      (leadAt (creditReturn s a c n) a.lead).tx = _ ∧ vget (leadAt (creditReturn s a c n) a.lead).credit c 0 = _
    rw [creditReturn_one h howed hwaiting hn hcap hrelaning, leadAt_setLead_same s a.lead.isLt, ← hcredits, ← hclass]
    exact ⟨rfl, rfl, rfl, vget_vset_same _ (hclass ▸ c.isLt) _ _⟩
  · intro s l c x hup h hcredit hwaits
    refine ⟨_, rfl, ?_⟩
    show OnItsWay (creditStall s l c) _ _ _ _ ∧ leadAt (creditStall s l c) l = _
    rw [creditStall_eq hup hcredit hwaits]
    exact ⟨raise_onItsWay h .., leadAt_raise h ..⟩

end Sys2Proof.Machine
end

section
/-!
O28. What DATA, key-confirmation and ABORT frames do (R336, R337, R348, R349, R358), re-laning and loss (R341 to R343), and discovery (R327 to
R332).
-/
namespace Sys2Proof.Machine

/-! ## Data frames -/

theorem onData_arrives {s : State} {a : Arrival} {f : LeadFrame} (hok : leadFrameOk f = true) (h : JobArrives s a)
    (hcheck : f.check = crc32c f.payload) (act : State → State) : onData s a f act = act (bufferFreed s a 2) := by
  rw [onData, onJobFrame_arrives h, hok, if_neg (by decide), if_neg (not_not_intro hcheck), onLead_arrives h.1]

/-- The lead of a route is found from the image, and from which leads are up and keyed. -/
theorem AcceptedOn.frameLead {s t : State} {i : Nat} {seq : BitVec 64} (h : AcceptedOn s t i seq) (dest : Nat) :
    frameLead t dest = frameLead s dest := by
  have himage : img t = img s := by rw [h.rest, img, img]
  have hroute : routeLead t = routeLead s := by
    funext e
    simp only [routeLead, h.up]
  simp only [Machine.frameLead, himage, hroute, h.keyed]

theorem leadUp_of_frameLead {s : State} {dest l : Nat} (h : frameLead s dest = some l) : leadUp s l = true := by
  obtain ⟨hroute, -⟩ := Option.filter_eq_some_iff.mp h
  obtain ⟨e, -, hlead⟩ := Option.bind_eq_some_iff.mp hroute
  unfold routeLead at hlead
  split at hlead
  case isTrue hup =>
    cases hlead
    exact hup
  case isFalse =>
    split at hlead
    case isTrue hup =>
      cases hlead
      exact (Bool.and_eq_true_iff.mp hup).2
    case isFalse => cases hlead

theorem dataFrameReceived_own {s : State} {a : Arrival} {f : LeadFrame} (hok : leadFrameOk f = true) (h : JobArrives s a)
    (hcheck : f.check = crc32c f.payload) (hown : f.dest.toNat = ownId s) : dataFrameReceived s a f =
    { bufferFreed s a 2 with lead := { (bufferFreed s a 2).lead with delivered := (bufferFreed s a 2).lead.delivered ++ [f] } } := by
  have hid : ownId (bufferFreed s a 2) = ownId s := by rw [(acceptedOn_bufferFreed s a 2).rest, ownId, ownId]
  rw [dataFrameReceived, onData_arrives hok h hcheck, hid, if_pos hown]

theorem dataFrameReceived_other {s : State} {a : Arrival} {f : LeadFrame} (hok : leadFrameOk f = true) (h : JobArrives s a)
    (hcheck : f.check = crc32c f.payload) (hother : f.dest.toNat ≠ ownId s) : dataFrameReceived s a f = forward (bufferFreed s a 2) f := by
  have hid : ownId (bufferFreed s a 2) = ownId s := by rw [(acceptedOn_bufferFreed s a 2).rest, ownId, ownId]
  rw [dataFrameReceived, onData_arrives hok h hcheck, hid, if_neg hother]

/-- R349: a frame that may not go on, or has no keyed lead to go on, cannot be routed. -/
theorem forward_unroutable {s : State} {f : LeadFrame} (h : f.hopLimit = 0 ∨ frameLead s f.dest.toNat = none) : forward s f = unroutable s f := by
  unfold forward
  split
  case h_1 l hl =>
    rcases h with h | h
    · rw [if_pos h]
    · rw [h] at hl
      cases hl
  case h_2 => rfl

theorem forward_routed {s : State} {f : LeadFrame} {l : Nat} (hhops : f.hopLimit ≠ 0) (h : frameLead s f.dest.toNat = some l) :
    forward s f = leadSend s l (.data { f with hopLimit := f.hopLimit - 1 } none) := by
  simp only [forward, h, if_neg hhops]

/-- The frame that goes on joins those that wait on its lead. -/
theorem leadAt_forward {s t : State} {i l : Nat} {seq : BitVec 64} {f : LeadFrame} (ht : AcceptedOn s t i seq) (hhops : f.hopLimit ≠ 0)
    (h : frameLead s f.dest.toNat = some l) (hl : l ≠ i) : leadAt (forward t f) l = serveLead { leadAt s l with
      waiting := (leadAt s l).waiting ++ [(2, .data { f with hopLimit := f.hopLimit - 1 } none)] } := by
  have hup := leadUp_of_frameLead h
  rw [forward_routed hhops ((ht.frameLead _).trans h), leadSend_up ((ht.up l).trans hup), leadAt_setLead_same t (lt_of_leadUp hup),
    ht.others l hl]
  rfl

/-- A frame for this device is delivered, and nothing outside the leads changes. -/
theorem dataFrameReceived_delivers {s : State} {a : Arrival} {f : LeadFrame} (hok : leadFrameOk f = true) (h : JobArrives s a)
    (hcheck : f.check = crc32c f.payload) (hown : f.dest.toNat = ownId s) :
    (dataFrameReceived s a f).lead.delivered = s.lead.delivered ++ [f] ∧ (leadAt (dataFrameReceived s a f) a.lead).rx = a.seq + 1 ∧
      (leadAt (dataFrameReceived s a f) a.lead).nak = none ∧ (dataFrameReceived s a f).knl = s.knl ∧ (dataFrameReceived s a f).mem = s.mem := by
  have hfreed := acceptedOn_bufferFreed s a 2
  rw [dataFrameReceived_own hok h hcheck hown]
  generalize bufferFreed s a 2 = t at hfreed
  have hdelivered : t.lead.delivered = s.lead.delivered := by rw [hfreed.rest]
  have hknl : t.knl = s.knl := by rw [hfreed.rest]
  have hmem : t.mem = s.mem := by rw [hfreed.rest]
  exact ⟨congrArg (· ++ [f]) hdelivered, hfreed.own.rx, hfreed.own.nak, hknl, hmem⟩

/-- A frame that cannot be routed ends the job and is not delivered. -/
theorem dataFrameReceived_unroutable {s : State} (hoff : s.die ≠ .off) {a : Arrival} {f : LeadFrame} (hok : leadFrameOk f = true)
    (h : JobArrives s a) (hcheck : f.check = crc32c f.payload) (hother : f.dest.toNat ≠ ownId s)
    (hroute : f.hopLimit = 0 ∨ frameLead s f.dest.toNat = none) :
    OnItsWay (dataFrameReceived s a f) 0x07080009 .jobEnding (d4 f.dest.toNat) s.sys.drill ∧
      (dataFrameReceived s a f).lead.delivered = s.lead.delivered := by
  have hfreed := acceptedOn_bufferFreed s a 2
  have hdie : (bufferFreed s a 2).die ≠ .off := by rwa [hfreed.rest]
  have hsys : (bufferFreed s a 2).sys = s.sys := by rw [hfreed.rest]
  have hdelivered : (bufferFreed s a 2).lead.delivered = s.lead.delivered := by rw [hfreed.rest]
  have hroute' : f.hopLimit = 0 ∨ frameLead (bufferFreed s a 2) f.dest.toNat = none := by rwa [hfreed.frameLead]
  rw [dataFrameReceived_other hok h hcheck hother, forward_unroutable hroute', ← hsys]
  refine ⟨raise_onItsWay hdie .., ?_⟩
  rw [unroutable_eq hdie]
  exact hdelivered

/-! ## Key confirmation -/

/-- The state in which a key-confirmation frame has been taken: the frames of the older key are gone, and the frame is acknowledged. -/
def confirmTaken (s : State) (a : Arrival) : State := bufferFreed (setLead s a.lead { leadAt s a.lead with old := [] }) a 3

theorem keyConfirm_eq {s : State} {a : Arrival} (hup : leadUp s a.lead = true) (hkey : (leadAt s a.lead).key ≠ none)
    (hkeyed : (leadAt s a.lead).keyed = false) (ok : Bool) : keyConfirm s a ok =
    if ok then checkReady (setLead (confirmTaken s a) a.lead { leadAt (confirmTaken s a) a.lead with keyed := true })
    else raise (confirmTaken s a) 0x0A080002 .jobEnding (d4 a.lead ++ d4 (peerId (confirmTaken s a) a.lead)) := by
  have hkept : (leadAt s a.lead).key.isNone = false := Option.isNone_eq_false_iff.mpr (Option.isSome_iff_ne_none.mpr hkey)
  have hawaited : ¬(!leadUp s a.lead || (leadAt s a.lead).key.isNone || (leadAt s a.lead).keyed) = true := by simp [hup, hkept, hkeyed]
  rw [keyConfirm, if_neg hawaited]
  rfl

theorem confirmTaken_rest (s : State) (a : Arrival) : confirmTaken s a = { s with lead := { s.lead with lead := (confirmTaken s a).lead.lead } } :=
  (acceptedOn_bufferFreed _ a 3).rest

/-- What the taken frame leaves of its lead. -/
theorem served_confirmTaken (s : State) (a : Arrival) :
    Served { leadAt s a.lead with old := [], rx := a.seq + 1, nak := none } (leadAt (confirmTaken s a) a.lead) := by
  have hown := (acceptedOn_bufferFreed (setLead s a.lead { leadAt s a.lead with old := [] }) a 3).own
  rwa [leadAt_setLead_same s a.lead.isLt] at hown

/-- Sending READY up only sends. -/
theorem served_checkReady (s : State) (i : Nat) : Served (leadAt s i) (leadAt (checkReady s) i) := by
  unfold checkReady
  split
  · dsimp only
    split
    · obtain ⟨link, held, period, serial, hnote⟩ := notify_eq { s with tet := { s.tet with phase := .ready, readySent := true } } .ready 0
      rw [hnote]
      exact .refl _
    · unfold toParent
      split
      · exact served_leadSend _ _ _ i
      · exact .refl _
  · exact .refl _

/-- R336: a confirmation that holds keys the lead. -/
theorem keyConfirm_keys {s : State} {a : Arrival} (hup : leadUp s a.lead = true) (hkey : (leadAt s a.lead).key ≠ none)
    (hkeyed : (leadAt s a.lead).keyed = false) : (leadAt (keyConfirm s a true) a.lead).keyed = true ∧
      (leadAt (keyConfirm s a true) a.lead).key = (leadAt s a.lead).key ∧ (leadAt (keyConfirm s a true) a.lead).rx = a.seq + 1 := by
  have htaken := served_confirmTaken s a
  have hready := served_checkReady (setLead (confirmTaken s a) a.lead { leadAt (confirmTaken s a) a.lead with keyed := true }) a.lead
  rw [leadAt_setLead_same _ a.lead.isLt] at hready
  rw [keyConfirm_eq hup hkey hkeyed, if_pos rfl, hready.keyed, hready.key, hready.rx, htaken.key, htaken.rx]
  exact ⟨rfl, rfl, rfl⟩

/-- R336: one that does not hold ends the job, and the lead stays without a key. -/
theorem keyConfirm_fails {s : State} (hoff : s.die ≠ .off) {a : Arrival} (hup : leadUp s a.lead = true) (hkey : (leadAt s a.lead).key ≠ none)
    (hkeyed : (leadAt s a.lead).keyed = false) : (leadAt (keyConfirm s a false) a.lead).keyed = false ∧
      OnItsWay (keyConfirm s a false) 0x0A080002 .jobEnding (d4 a.lead ++ d4 (peerId s a.lead)) s.sys.drill := by
  have hdie : (confirmTaken s a).die ≠ .off := by rwa [confirmTaken_rest]
  have hsys : (confirmTaken s a).sys = s.sys := by rw [confirmTaken_rest]
  have hpeer : peerId (confirmTaken s a) a.lead = peerId s a.lead := by rw [confirmTaken_rest, peerId, peerId]
  rw [keyConfirm_eq hup hkey hkeyed, if_neg (by decide), leadAt_raise hdie, hpeer, ← hsys]
  exact ⟨(served_confirmTaken s a).keyed.trans hkeyed, raise_onItsWay hdie ..⟩

/-! ## ABORT -/

/-- The state in which the first ABORT of a job is noted and has been sent on. -/
def abortNoted (s : State) (a : Arrival) (origin : BitVec 24) (cls hops : BitVec 8) : State :=
  let s := leadSendAll s ((keyedLeads s).filter (· != a.lead.val)) (.abort origin cls (BitVec.ofNat 8 (min 255 (hops.toNat + 1))))
  { s with lead := { s.lead with abortSeen := true }, col := { s.col with lastHops := hops, lastOrigin := origin } }

theorem abortReceived_eq {s : State} {a : Arrival} (h : JobArrives s a) (hseen : s.lead.abortSeen = false) (hsent : s.lead.abortSent = false)
    (origin : BitVec 24) (cls hops : BitVec 8) : abortReceived s a origin cls hops =
    raise (stopColl (abortNoted (bufferFreed s a 0) a origin cls hops)) 0x07090001 .jobEnding (d4 origin.toNat ++ d4 cls.toNat) := by
  have hfirst : ¬((bufferFreed s a 0).lead.abortSeen = true ∨ (bufferFreed s a 0).lead.abortSent = true) := by
    rw [(acceptedOn_bufferFreed s a 0).rest]
    simp [hseen, hsent]
  rw [abortReceived, onJobFrame_arrives h, onLead_arrives h.1, if_neg hfirst]
  rfl

/-- Every engine that holds a collective is stopped. -/
theorem engine_stopColl {s : State} {e : Nat} {op : CollOp} (h : engine (stopColl s) e = some op) : op.dead = true := by
  rcases Nat.lt_or_ge e 8 with he | he
  · have hstopped : engine (stopColl s) e = (engine s e).map fun op => { op with dead := true } := vget_map _ _ he _
    rw [hstopped, Option.map_eq_some_iff] at h
    obtain ⟨op', -, rfl⟩ := h
    rfl
  · have hnone : engine (stopColl s) e = none := by simp [engine, vget, List.getD_eq_getElem?_getD, he]
    rw [hnone] at h
    cases h

/-- What the noting of an ABORT leaves, and what it notes. -/
theorem abortNoted_spec (s : State) (a : Arrival) (origin : BitVec 24) (cls hops : BitVec 8) :
    let u := abortNoted s a origin cls hops
    u.die = s.die ∧ u.sys = s.sys ∧ u.lead.abortSeen = true ∧ u.col.lastHops = hops ∧ u.col.lastOrigin = origin := by
  obtain ⟨lead, hsend⟩ := leadSendAll_eq s ((keyedLeads s).filter (· != a.lead.val))
    (.abort origin cls (BitVec.ofNat 8 (min 255 (hops.toNat + 1))))
  simp only [abortNoted, hsend, and_self]

/-- R358: the code of an ABORT that stops the engines. -/
theorem raise_stopColl {u : State} (h : u.die ≠ .off) (detail : Bytes) : let t := raise (stopColl u) 0x07090001 .jobEnding detail
    t.lead = u.lead ∧ t.col.lastHops = u.col.lastHops ∧ t.col.lastOrigin = u.col.lastOrigin ∧
      (∀ e op, engine t e = some op → op.dead = true) ∧ OnItsWay t 0x07090001 .jobEnding detail u.sys.drill := by
  dsimp only
  rw [raise_released (s := stopColl u) (u := .col) (b := 0) h rfl fun _ => rfl]
  exact ⟨rfl, rfl, rfl, fun e op he => engine_stopColl (s := u) he, List.mem_append_right _ (List.mem_singleton.mpr rfl)⟩

/-- R358: the first ABORT of a job. -/
theorem abortReceived_first {s : State} (hoff : s.die ≠ .off) {a : Arrival} (h : JobArrives s a) (hseen : s.lead.abortSeen = false)
    (hsent : s.lead.abortSent = false) (origin : BitVec 24) (cls hops : BitVec 8) :
    let t := abortReceived s a origin cls hops
    t.lead.abortSeen = true ∧ t.col.lastHops = hops ∧ t.col.lastOrigin = origin ∧ (∀ e op, engine t e = some op → op.dead = true) ∧
      OnItsWay t 0x07090001 .jobEnding (d4 origin.toNat ++ d4 cls.toNat) s.sys.drill := by
  have hfreed := (acceptedOn_bufferFreed s a 0).rest
  have hdie : (bufferFreed s a 0).die = s.die := by rw [hfreed]
  have hsys : (bufferFreed s a 0).sys = s.sys := by rw [hfreed]
  obtain ⟨hnotedDie, hnotedSys, hnoted, hhops, horigin⟩ := abortNoted_spec (bufferFreed s a 0) a origin cls hops
  obtain ⟨hlead, hlastHops, hlastOrigin, hdead, hway⟩ := raise_stopColl (u := abortNoted (bufferFreed s a 0) a origin cls hops)
    (by rwa [hnotedDie, hdie]) (d4 origin.toNat ++ d4 cls.toNat)
  rw [hnotedSys, hsys] at hway
  dsimp only
  rw [abortReceived_eq h hseen hsent, hlead, hlastHops, hlastOrigin]
  exact ⟨hnoted, hhops, horigin, hdead, hway⟩

/-! ## Re-laning -/

theorem laneFailure_eq {s : State} {lane l : Nat}
    (h : allLeads.find? (fun i => leadUp s i && bitOf (leadAt s i).lanes.toNat lane) = some l) : laneFailure s lane = relane s l lane := by
  simp only [laneFailure, h]

/-- R341: a lead whose lanes still make up a lane count goes on with them. -/
theorem relane_leads {s : State} (h : s.die ≠ .off) {i lane : Nat} (hi : i < 8)
    (hleft : laneCount (onesIn ((leadAt s i).lanes.toNat - 2 ^ lane) 0 32) ≠ 0) :
    let m := BitVec.ofNat 32 (lowestLanes ((leadAt s i).lanes.toNat - 2 ^ lane) (laneCount (onesIn ((leadAt s i).lanes.toNat - 2 ^ lane) 0 32)))
    leadAt (relane s i lane) i = { txFrame (leadAt s i) (.relane m) with lanes := m, relaning := true } ∧
      (relane s i lane).lead.cntRelane = satAdd32 s.lead.cntRelane 1 ∧
      OnItsWay (relane s i lane) 0x07080002 .absorbed (d4 i ++ d4 lane) s.sys.drill ∧
      ∀ j, j ≠ i → leadAt (relane s i lane) j = leadAt s j := by
  intro m
  have hrelane : relane s i lane = raise (relaned s i m) 0x07080002 .absorbed (d4 i ++ d4 lane) := relaneOn_left hleft lane
  have hoff : (relaned s i m).die ≠ .off := h
  refine ⟨?_, ?_, ?_, fun j hj => ?_⟩ <;> rw [hrelane]
  · rw [leadAt_raise hoff, leadAt_relaned s hi]
  · rw [raise_released (u := .lead) (b := 2) hoff rfl fun _ => rfl]
    rfl
  · exact raise_onItsWay hoff ..
  · rw [leadAt_raise hoff]
    exact leadAt_setLead_other s hj _

/-- Its handling changes SYS_STATE and the notifications at most: the leads, the memories and the strands stay. -/
theorem drillHandled_leaves (s : State) (k : Nat) :
    (drillHandled s k).lead = s.lead ∧ (drillHandled s k).mem = s.mem ∧ (drillHandled s k).str = s.str := by
  unfold drillHandled
  split
  · obtain ⟨seq, repl, link, held, period, serial, hchange⟩ :=
      sysChange_eq { s with snp := { s.snp with drillActive := none } } s.sys.st s.sys.degraded false s.sys.replace
    rw [endDrill, hchange]
    exact ⟨rfl, rfl, rfl⟩
  · exact ⟨rfl, rfl, rfl⟩

theorem relaneComplete_eq {s : State} {i : Nat} (hrelaning : (leadAt s i).relaning = true) (hwaiting : (leadAt s i).waiting = []) :
    relaneComplete s i = drillHandled (setLead s i { leadAt s i with relaning := false, resend := oldest (leadAt s i) }) 0 := by
  rw [relaneComplete, if_pos hrelaning, serveLead_idle (by exact hwaiting)]

/-- When re-laning is over, sending goes on from the oldest frame that is not acknowledged. -/
theorem relaneComplete_spec {s : State} {i : Nat} (hi : i < 8) (hrelaning : (leadAt s i).relaning = true) (hwaiting : (leadAt s i).waiting = []) :
    leadAt (relaneComplete s i) i = { leadAt s i with relaning := false, resend := oldest (leadAt s i) } ∧
      (relaneComplete s i).mem = s.mem ∧ (relaneComplete s i).str = s.str := by
  obtain ⟨hlead, hmem, hstr⟩ :=
    drillHandled_leaves (setLead s i { leadAt s i with relaning := false, resend := oldest (leadAt s i) }) 0
  rw [relaneComplete_eq hrelaning hwaiting, leadAt_congr (congrArg _ hlead)]
  exact ⟨leadAt_setLead_same s hi _, hmem, hstr⟩

/-! ## Discovery -/

theorem discoveryMgmt_eq {s : State} {i : Nat} (hdiscovering : s.lead.discovering = true) (hvalid : planValid s = true)
    (hplanned : planLanes s i ≠ 0) (p : PeerReport) : discoveryMgmt s i p = { setLead s i { leadAt s i with delay := p.delay } with
      lead := { (setLead s i { leadAt s i with delay := p.delay }).lead with peer := vset s.lead.peer i (some p) } } := by
  have htaken : (s.lead.discovering && planValid s && planLanes s i != 0) = true := by simp [hdiscovering, hvalid, hplanned]
  exact if_pos htaken

/-- R329: a peer's report is taken, and its delay. -/
theorem discoveryMgmt_spec {s : State} {i : Nat} (hi : i < 8) (hdiscovering : s.lead.discovering = true) (hvalid : planValid s = true)
    (hplanned : planLanes s i ≠ 0) (p : PeerReport) : let t := discoveryMgmt s i p
    vget t.lead.peer i none = some p ∧ (leadAt t i).delay = p.delay ∧ (∀ j, j ≠ i → vget t.lead.peer j none = vget s.lead.peer j none) ∧
      t = { s with lead := { s.lead with lead := t.lead.lead, peer := t.lead.peer } } := by
  have hlead := leadAt_setLead_same s hi { leadAt s i with delay := p.delay }
  dsimp only
  rw [discoveryMgmt_eq hdiscovering hvalid hplanned]
  exact ⟨vget_vset_same _ hi _ _, congrArg Lead.delay hlead, fun j hj => vget_vset_other _ hj _ _, rfl⟩

/-- What the end of discovery makes of lead i (R330). -/
def broughtUp (s : State) (i : Nat) : Lead :=
  if outcome s i = 2 then
    { leadAt s i with
      up := true, lanes := BitVec.ofNat 32 (planMask s i), tx := 0, rx := 0, sent := [], waiting := [],
      credit := Vector.ofFn fun c : Fin 4 => creditCap s i c.val }
  else { leadAt s i with tx := 0, sent := [] }

theorem bringUp_eq (s : State) (i : Nat) : bringUp s i = setLead s i (broughtUp s i) := by
  unfold bringUp broughtUp
  split <;> rfl

/-- Bringing one lead up changes what becomes of no other. -/
theorem broughtUp_setLead (s : State) {i j : Nat} (h : j ≠ i) (x : Lead) : broughtUp (setLead s i x) j = broughtUp s j := by
  have hlead := leadAt_setLead_other s h x
  simp only [broughtUp, hlead]
  rfl

theorem bringUps_eq (s : State) (is : List Nat) : ∃ lead, is.foldl bringUp s = { s with lead := { s.lead with lead := lead } } := by
  induction is generalizing s with
  | nil => exact ⟨s.lead.lead, rfl⟩
  | cons i is ih =>
    rw [List.foldl_cons, bringUp_eq]
    exact ih _

theorem leadAt_bringUps_other (s : State) {is : List Nat} {j : Nat} (h : j ∉ is) : leadAt (is.foldl bringUp s) j = leadAt s j := by
  induction is generalizing s with
  | nil => rfl
  | cons i is ih =>
    obtain ⟨hne, hrest⟩ := not_or.mp (mt List.mem_cons.mpr h)
    rw [List.foldl_cons, ih _ hrest, bringUp_eq, leadAt_setLead_other s hne]

theorem leadAt_bringUps (s : State) {is : List Nat} (hlt : ∀ i ∈ is, i < 8) (hnodup : is.Nodup) {j : Nat} (h : j ∈ is) :
    leadAt (is.foldl bringUp s) j = broughtUp s j := by
  induction is generalizing s with
  | nil => cases h
  | cons i is ih =>
    obtain ⟨hnew, hrest⟩ := List.nodup_cons.mp hnodup
    rw [List.foldl_cons, bringUp_eq]
    rcases List.mem_cons.mp h with rfl | htail
    · rw [leadAt_bringUps_other _ hnew, leadAt_setLead_same s (hlt j List.mem_cons_self)]
    · have hne : j ≠ i := fun heq => hnew (heq ▸ htail)
      rw [ih _ (fun i hi => hlt i (List.mem_cons_of_mem _ hi)) hrest htail, broughtUp_setLead s hne]

/-- Every lead is brought up, or stays down, once. -/
theorem leadAt_allBringUps (s : State) {j : Nat} (h : j < 8) : leadAt (allLeads.foldl bringUp s) j = broughtUp s j :=
  leadAt_bringUps s (fun _ => List.mem_range.mp) List.nodup_range (List.mem_range.mpr h)

/-- Codes of the leads change their EVENT and the codes on their way. -/
theorem raiseAll_leadCodes {s : State} (h : s.die ≠ .off) {cs : List (Nat × Effect × Bytes)} (hcs : ∀ c ∈ cs, UnitCode .lead c.1) :
    ∃ event inflight, raiseAll s cs = { s with
      lead := { s.lead with event := event }, knl := { s.knl with inflight := inflight } } := by
  unfold raiseAll
  induction cs generalizing s with
  | nil => exact ⟨_, _, rfl⟩
  | cons c cs ih =>
    obtain ⟨⟨b, hb⟩, hcount⟩ := hcs c List.mem_cons_self
    rw [List.foldl_cons, raise_released h hb hcount]
    exact ih h fun c' hc' => hcs c' (List.mem_cons_of_mem _ hc')

/-- The codes of the cabling check are codes of the leads (R332, R334). -/
theorem unitCode_cabling {code : Nat} (h : code ∈ [0x07080004, 0x07080005, 0x07080006, 0x07080008]) : UnitCode .lead code := by
  simp only [List.mem_cons, List.not_mem_nil, or_false] at h
  rcases h with rfl | rfl | rfl | rfl
  · exact ⟨⟨4, rfl⟩, fun _ => rfl⟩
  · exact ⟨⟨5, rfl⟩, fun _ => rfl⟩
  · exact ⟨⟨6, rfl⟩, fun _ => rfl⟩
  · exact ⟨⟨8, rfl⟩, fun _ => rfl⟩

theorem unitCode_leadCodes {s : State} {i : Nat} {c : Nat × Effect × Bytes} (h : c ∈ leadCodes s i) : UnitCode .lead c.1 := by
  refine unitCode_cabling ?_
  rcases List.mem_append.mp h with hup | hdelay
  · split at hup
    · simp [List.mem_singleton.mp hup]
    · split at hup
      · simp [List.mem_singleton.mp hup]
      · cases hup
  · split at hdelay
    · simp [List.mem_singleton.mp hdelay]
    · cases hdelay

/-- The codes of the whole check. -/
theorem unitCode_check {s : State} {c : Nat × Effect × Bytes} (h : c ∈ allLeads.flatMap (leadCodes s) ++ (swapPairs s).map (swapCode s)) :
    UnitCode .lead c.1 := by
  rcases List.mem_append.mp h with hlead | hswap
  · obtain ⟨i, -, hi⟩ := List.mem_flatMap.mp hlead
    exact unitCode_leadCodes hi
  · obtain ⟨p, -, rfl⟩ := List.mem_map.mp hswap
    exact unitCode_cabling (by simp [swapCode])

/-- RESULT of the check of a valid plan (R330). -/
def checkResult (s : State) : BitVec 3 := if allLeads.any (reqFailed s) = true then 3 else if allLeads.any (leadMissing s) = true then 2 else 1

/-- The state in which the check of a valid plan is noted, before a lead comes up. -/
def checkNoted (s : State) : State := { s with lead := { s.lead with
  result := checkResult s, reqFail := leadMask (reqFailed s), found := Vector.ofFn fun i : Fin 8 => BitVec.ofNat 4 (outcome s i.val),
  swap := leadMask fun i => (swapPairs s).any fun p => p.1 == i || p.2 == i } }

/-- The state in which discovery is over. -/
def discoveryOver (s : State) : State := { s with lead := { s.lead with discovering := false, discovered := true } }

theorem discoveryEnd_eq {s : State} (h : s.lead.discovering = true) : discoveryEnd s = cablingCheck (discoveryOver s) := if_pos h

/-- R330: an invalid plan, or no own ID. -/
theorem cablingCheck_invalid {s : State} (hvalid : planValid s = false) : cablingCheck s = allDown s := by
  rw [cablingCheck, hvalid, if_pos (by decide)]

theorem cablingCheck_valid {s : State} (h : s.die ≠ .off) (hvalid : planValid s = true) :
    ∃ lead event inflight, cablingCheck s = { checkNoted s with
      lead := { (checkNoted s).lead with lead := lead, event := event }, knl := { s.knl with inflight := inflight } } ∧
    ∀ j, j < 8 → leadAt (cablingCheck s) j = broughtUp s j := by
  have hcheck : cablingCheck s = raiseAll (allLeads.foldl bringUp (checkNoted s))
      (allLeads.flatMap (leadCodes s) ++ (swapPairs s).map (swapCode s)) := by
    rw [cablingCheck, hvalid, if_neg (by decide)]
    rfl
  obtain ⟨lead, hup⟩ := bringUps_eq (checkNoted s) allLeads
  have hoff : (allLeads.foldl bringUp (checkNoted s)).die ≠ .off := by rwa [hup]
  obtain ⟨event, inflight, hraised⟩ := raiseAll_leadCodes hoff fun c hc => unitCode_check hc
  refine ⟨lead, event, inflight, ?_, fun j hj => ?_⟩
  · rw [hcheck, hraised, hup]
    rfl
  · rw [hcheck, hraised]
    exact leadAt_allBringUps (checkNoted s) hj

/-- R330: at the end of discovery an invalid plan leaves every lead as it is, down. -/
theorem discoveryEnd_invalid {s : State} (hoff : s.die ≠ .off) (hdiscovering : s.lead.discovering = true) (hvalid : planValid s = false) :
    let t := discoveryEnd s
    t.lead.result = 4 ∧ t.lead.lead = s.lead.lead ∧ t.lead.discovered = true ∧ OnItsWay t 0x07080007 .event (d4 (ownId s)) s.sys.drill := by
  dsimp only
  rw [discoveryEnd_eq hdiscovering, cablingCheck_invalid (by exact hvalid), allDown,
    raise_released (u := .lead) (b := 7) (by exact hoff) rfl fun _ => rfl]
  exact ⟨rfl, rfl, rfl, List.mem_append_right _ (List.mem_singleton.mpr rfl)⟩

/-- R330, R332: a valid plan brings up exactly the leads of outcome MATCH. -/
theorem discoveryEnd_valid {s : State} (hoff : s.die ≠ .off) (hdiscovering : s.lead.discovering = true) (hvalid : planValid s = true) :
    let t := discoveryEnd s
    t.lead.discovering = false ∧ t.lead.discovered = true ∧
      (∀ i, i < 8 → outcome s i = 2 → leadUp t i = true ∧ (leadAt t i).lanes = BitVec.ofNat 32 (planMask s i) ∧ (leadAt t i).sent = []) ∧
      (∀ i, i < 8 → outcome s i ≠ 2 → leadAt t i = { leadAt s i with tx := 0, sent := [] }) ∧
      t.lead.result = checkResult s ∧ t.mem = s.mem ∧ t.str = s.str := by
  obtain ⟨lead, event, inflight, hcheck, hleads⟩ := cablingCheck_valid (s := discoveryOver s) hoff hvalid
  dsimp only
  rw [discoveryEnd_eq hdiscovering]
  refine ⟨by rw [hcheck]; rfl, by rw [hcheck]; rfl, fun i hi hmatch => ?_, fun i hi hother => ?_, by rw [hcheck]; rfl, by rw [hcheck]; rfl,
    by rw [hcheck]; rfl⟩
  · rw [leadUp, hleads i hi, broughtUp, if_pos (by exact hmatch)]
    exact ⟨rfl, rfl, rfl⟩
  · rw [hleads i hi, broughtUp, if_neg (by exact hother)]
    rfl

/-- Settles O28: the clauses are the leads' rules for one frame, one lane, one loss and one discovery. -/
theorem leadFramesLanesDiscovery : Obligations.LeadFramesLanesDiscovery := by
  unfold Obligations.LeadFramesLanesDiscovery
  refine ⟨fun s a hoff => ⟨fun f hok h hcheck => ⟨?_, ?_, ?_⟩, fun ok hup hkey hkeyed => ⟨?_, ?_⟩, ?_⟩,
    ⟨fun s lane l hoff hfind => ⟨?_, ?_⟩, ?_, ?_⟩, ?_, fun s hdiscovering hoff => ⟨?_, ?_⟩⟩
  · exact fun hown => ⟨_, rfl, dataFrameReceived_delivers hok h hcheck hown⟩
  · exact fun hother hroute => ⟨_, rfl, dataFrameReceived_unroutable hoff hok h hcheck hother hroute⟩
  · intro l hother hhops hroute hl
    refine ⟨_, rfl, ?_⟩
    show leadAt (dataFrameReceived s a f) l = _
    rw [dataFrameReceived_other hok h hcheck hother]
    exact leadAt_forward (acceptedOn_bufferFreed s a 2) hhops hroute hl
  · rintro rfl
    exact ⟨_, rfl, keyConfirm_keys hup hkey hkeyed⟩
  · rintro rfl
    exact ⟨_, rfl, keyConfirm_fails hoff hup hkey hkeyed⟩
  · exact fun origin cls hops h hseen hsent => ⟨_, rfl, abortReceived_first hoff h hseen hsent origin cls hops⟩
  · intro hleft
    refine ⟨_, rfl, ?_⟩
    show _ = _ ∧ (laneFailure s lane).lead.cntRelane = _ ∧ _
    rw [laneFailure_eq hfind]
    exact relane_leads hoff l.isLt hleft
  · intro hnone
    refine ⟨_, rfl, ?_⟩
    show leadUp (laneFailure s lane) l = false
    rw [laneFailure_eq hfind, relane, relaneOn, if_pos hnone]
    have hfound := List.find?_some hfind
    exact (loseLead_spec hoff (Bool.and_eq_true_iff.mp hfound).1).1
  · intro s l hoff hup
    obtain ⟨hdown, hkeyless, heff⟩ := loseLead_spec hoff hup
    have hstays := staysDown_loseLead hoff l
    exact ⟨_, rfl, hdown, hkeyless, heff, hstays.hbm, hstays.board⟩
  · exact fun s l hrelaning hwaiting => ⟨_, rfl, relaneComplete_spec l.isLt hrelaning hwaiting⟩
  · exact fun s l p hdiscovering hvalid hplanned => ⟨_, rfl, discoveryMgmt_spec l.isLt hdiscovering hvalid hplanned p⟩
  · exact fun hinvalid => ⟨_, rfl, discoveryEnd_invalid hoff hdiscovering hinvalid⟩
  · exact fun hvalid => ⟨_, rfl, discoveryEnd_valid hoff hdiscovering hvalid⟩

end Sys2Proof.Machine
end

section
/-!
SUPPORT. The frames that wait or were sent on a lead: a frame that is sent is among them, and further frames take none away (R338, R339).
-/
namespace Sys2Proof.Machine

/-- The frames of a lead that were sent and are not acknowledged, and those that wait. -/
def Lead.frames (x : Lead) : List TxBody := x.sent.map (·.2.2) ++ x.waiting.map (·.2)

theorem queued_iff {t : State} {i : Nat} {b : TxBody} : Queued t i b ↔ b ∈ (leadAt t i).frames := Iff.rfl

theorem queued_congr {s t : State} (h : t.lead.lead = s.lead.lead) {i : Nat} {b : TxBody} (hb : Queued s i b) : Queued t i b := by
  rw [queued_iff, leadAt_congr h]
  exact hb

/-- The frame that is taken from those that wait, and the others, are all that waited. -/
theorem takeClass_keeps {c : Nat} {ws rest : List (Nat × TxBody)} {b : TxBody} (h : takeClass c ws = (some b, rest)) {x : TxBody}
    (hx : x ∈ ws.map (·.2)) : x = b ∨ x ∈ rest.map (·.2) := by
  induction ws generalizing rest with
  | nil => cases h
  | cons w ws ih =>
    obtain ⟨k, b'⟩ := w
    rw [List.map_cons, List.mem_cons] at hx
    rw [takeClass] at h
    split at h
    · cases h
      exact hx
    · cases htake : takeClass c ws with
      | mk taken others =>
        rw [htake] at h
        cases h
        rcases hx with rfl | hx
        · exact Or.inr List.mem_cons_self
        · exact (ih htake hx).imp_right (List.mem_cons_of_mem _)

/-- A frame that leaves stands among the frames sent. -/
theorem mem_frames_txFrame {x : Lead} {ws : List (Nat × TxBody)} {b y : TxBody}
    (h : y ∈ x.sent.map (·.2.2) ∨ y = b ∨ y ∈ ws.map (·.2)) : y ∈ (txFrame { x with waiting := ws } b).frames := by
  simp only [Lead.frames, txFrame, List.map_append, List.mem_append, List.map_cons, List.map_nil, List.mem_singleton]
  rwa [or_assoc]

theorem mem_frames_pump {fuel : Nat} {x : Lead} {y : TxBody} (h : y ∈ x.frames) : y ∈ (pump fuel x).frames := by
  induction fuel generalizing x with
  | zero => exact h
  | succ k ih =>
    unfold pump
    split
    case h_1 => exact h
    case h_2 c _ =>
      split
      case h_1 b ws htake => exact ih (mem_frames_txFrame ((List.mem_append.mp h).imp_right (takeClass_keeps htake)))
      case h_2 => exact h

theorem mem_frames_serveLead {x : Lead} {y : TxBody} (h : y ∈ x.frames) : y ∈ (serveLead x).frames := by
  unfold serveLead
  split
  · exact h
  · exact mem_frames_pump h

/-- A frame that is sent on a lead that is up waits there or has left. -/
theorem queued_leadSend {s : State} {i : Nat} (h : leadUp s i = true) (b : TxBody) : Queued (leadSend s i b) i b := by
  rw [queued_iff, leadSend_up h, leadAt_setLead_same s (lt_of_leadUp h)]
  refine mem_frames_serveLead (List.mem_append_right _ ?_)
  simp

/-- A further frame takes none away. -/
theorem queued_leadSend_kept {s : State} {i : Nat} {b : TxBody} (h : Queued s i b) (j : Nat) (b' : TxBody) : Queued (leadSend s j b') i b := by
  rw [queued_iff] at h ⊢
  by_cases hup : leadUp s j = true
  · by_cases hij : i = j
    · subst hij
      rw [leadSend_up hup, leadAt_setLead_same s (lt_of_leadUp hup)]
      refine mem_frames_serveLead ?_
      rw [Lead.frames, List.map_append, ← List.append_assoc]
      exact List.mem_append_left _ h
    · rwa [leadAt_leadSend_other s hij]
  · rwa [leadSend_down hup]

theorem queued_leadSendAll_kept {s : State} {i : Nat} {b : TxBody} (h : Queued s i b) (is : List Nat) (b' : TxBody) :
    Queued (leadSendAll s is b') i b := by
  unfold leadSendAll
  induction is generalizing s with
  | nil => exact h
  | cons j is ih => exact ih (queued_leadSend_kept h j b')

/-- A frame that is sent on several leads waits, or has left, on each that is up. -/
theorem queued_leadSendAll {s : State} {is : List Nat} {i : Nat} (hi : i ∈ is) (hup : leadUp s i = true) (b : TxBody) :
    Queued (leadSendAll s is b) i b := by
  induction is generalizing s with
  | nil => cases hi
  | cons j is ih =>
    rw [leadSendAll, List.foldl_cons]
    rcases List.mem_cons.mp hi with rfl | hi
    · exact queued_leadSendAll_kept (queued_leadSend hup b) is b
    · exact ih hi ((served_leadSend s j b i).up.trans hup)

end Sys2Proof.Machine
end

section
/-!
O55. The time counter and its reference (R375, R378 to R380, R385, R388), and time over the leads (R381 to R384).
-/
namespace Sys2Proof.Machine

/-! ## The mode, and codes of TIM -/

/-- A code whose EVENT bit is TIM's changes TIM's EVENT and the codes on their way. -/
theorem raise_onlyTim {s : State} (h : s.die ≠ .off) {code b : Nat} (hb : eventBit code = some (.tim, b))
    (hc : ∀ t, countCode t code = t) (eff : Effect) (detail : Bytes) :
    raise s code eff detail = { s with
      tim := { s.tim with event := orBit s.tim.event b }
      knl := { s.knl with inflight := s.knl.inflight ++ [⟨BitVec.ofNat 32 code, eff, detail, s.sys.drill⟩] } } :=
  raise_released h hb hc eff detail

/-- Table 10-1: without a reference, or with LEAD mode forced, the mode is LEAD's or free running. -/
theorem timeMode_notRef {t : Tim} (h : t.refLock = false ∨ t.forceLead = true) : timeMode t = if t.parent.isSome then 2 else 0 := by
  rcases h with h | h <;> simp [timeMode, h]

theorem timeMode_forced {t : Tim} (h : t.forceLead = true) : timeMode t ≠ 1 := by
  rw [timeMode_notRef (Or.inr h)]
  split <;> decide

theorem timeMode_ref {t : Tim} (href : t.refLock = true) (hmark : t.markLock = true) (hforce : t.forceLead = false) : timeMode t = 1 := by
  simp [timeMode, href, hmark, hforce]

/-! ## A reference that is broken (R379) -/

/-- The state in which the reference's edges are counted again from zero. -/
def edgesReset (s : State) : State := chooseMode (setTim s { s.tim with refLock := false, markLock := false, goodEdges := 0 })

/-- A reference that was locked is reported. -/
theorem refBroken_locked {s : State} (hoff : s.die ≠ .off) (h : s.tim.refLock = true) (mag : Int) : ∃ event detail,
    refBroken s mag = { edgesReset s with
      tim := { (edgesReset s).tim with event := event }
      knl := { s.knl with inflight := s.knl.inflight ++ [⟨0x0C0A0001, .event, detail, s.sys.drill⟩] } } := by
  have hraise : refBroken s mag = raise (edgesReset s) 0x0C0A0001 .event (timeDetail (edgesReset s) mag) := if_pos h
  rw [hraise, raise_onlyTim (b := 0) (by exact hoff) rfl fun _ => rfl]
  exact ⟨_, _, rfl⟩

theorem refBroken_unlocked {s : State} (h : s.tim.refLock = false) (mag : Int) : refBroken s mag = edgesReset s :=
  if_neg (by simp [h])

/-- Of TIM's state the edges, and TIM_EVENT, change. -/
theorem refBroken_tim {s : State} (hoff : s.die ≠ .off) (mag : Int) :
    ∃ event, (refBroken s mag).tim = { (edgesReset s).tim with event := event } := by
  cases hlock : s.tim.refLock with
  | true =>
    obtain ⟨event, detail, hbroken⟩ := refBroken_locked hoff hlock mag
    exact ⟨event, by rw [hbroken]⟩
  | false => exact ⟨s.tim.event, by rw [refBroken_unlocked hlock]; rfl⟩

/-- A clock or an edge that is missing: the reference is lost, and a reference that was locked is reported. -/
theorem refBroken_spec {s : State} (hoff : s.die ≠ .off) (mag : Int) : let t := refBroken s mag
    t.tim.refLock = false ∧ t.tim.markLock = false ∧ t.tim.goodEdges = 0 ∧ t.tim.mode = (if s.tim.parent.isSome then 2 else 0) ∧
      t.tim.counter = s.tim.counter ∧ t.tim.marks = s.tim.marks ∧
      (s.tim.refLock = true → ∃ detail, OnItsWay t 0x0C0A0001 .event detail s.sys.drill) ∧ (s.tim.refLock = false → t.knl = s.knl) := by
  obtain ⟨event, htim⟩ := refBroken_tim hoff mag
  have hmode : (edgesReset s).tim.mode = _ :=
    timeMode_notRef (t := { s.tim with refLock := false, markLock := false, goodEdges := 0 }) (Or.inl rfl)
  simp only [htim]
  refine ⟨rfl, rfl, rfl, hmode, rfl, rfl, fun hlock => ?_, fun hlock => ?_⟩
  · obtain ⟨event, detail, hbroken⟩ := refBroken_locked hoff hlock mag
    rw [hbroken]
    exact ⟨detail, List.mem_append_right _ (List.mem_singleton.mpr rfl)⟩
  · rw [refBroken_unlocked hlock]
    rfl

/-! ## A good marker edge (R379, R380, R385) -/

/-- The state in which a marker edge has been counted, within 50 ns of its time. -/
def edgeCounted (s : State) : State := goodEdge (setTim s { s.tim with marks := s.tim.marks + 1 })

theorem frameMarkerEdge_good {s : State} (hoff : s.die ≠ .off) {interval : Nat} (h : ((interval : Int) - 1000000).natAbs ≤ 50) :
    frameMarkerEdge s interval = steerRef (applyEpoch (edgeCounted s)) := by
  simp only [frameMarkerEdge, if_neg hoff, if_pos h, edgeCounted]

@[simp] theorem edgeCounted_die (s : State) : (edgeCounted s).die = s.die := by simp only [edgeCounted, goodEdge, chooseMode, setTim]
@[simp] theorem edgeCounted_sys (s : State) : (edgeCounted s).sys = s.sys := by simp only [edgeCounted, goodEdge, chooseMode, setTim]
@[simp] theorem edgeCounted_knl (s : State) : (edgeCounted s).knl = s.knl := by simp only [edgeCounted, goodEdge, chooseMode, setTim]
@[simp] theorem edgeCounted_marks (s : State) : (edgeCounted s).tim.marks = s.tim.marks + 1 := by
  simp only [edgeCounted, goodEdge, chooseMode, setTim]
@[simp] theorem edgeCounted_goodEdges (s : State) : (edgeCounted s).tim.goodEdges = min 100 (s.tim.goodEdges + 1) := by
  simp only [edgeCounted, goodEdge, chooseMode, setTim]
@[simp] theorem edgeCounted_valid (s : State) : (edgeCounted s).tim.valid = s.tim.valid := by
  simp only [edgeCounted, goodEdge, chooseMode, setTim]
@[simp] theorem edgeCounted_counter (s : State) : (edgeCounted s).tim.counter = s.tim.counter := by
  simp only [edgeCounted, goodEdge, chooseMode, setTim]
@[simp] theorem edgeCounted_epochPending (s : State) : (edgeCounted s).tim.epochPending = s.tim.epochPending := by
  simp only [edgeCounted, goodEdge, chooseMode, setTim]

/-- The hundredth good edge in a row locks. -/
theorem edgeCounted_locks (s : State) : (edgeCounted s).tim.refLock = (s.tim.refLock || decide (99 ≤ s.tim.goodEdges)) ∧
    (edgeCounted s).tim.markLock = (s.tim.markLock || decide (99 ≤ s.tim.goodEdges)) := by
  have hhundredth : decide (min 100 (s.tim.goodEdges + 1) = 100) = decide (99 ≤ s.tim.goodEdges) := by
    rw [decide_eq_decide]
    omega
  exact ⟨congrArg (s.tim.refLock || ·) hhundredth, congrArg (s.tim.markLock || ·) hhundredth⟩

theorem edgeCounted_forced {s : State} (h : s.tim.forceLead = true) : (edgeCounted s).tim.mode ≠ 1 := timeMode_forced (by exact h)

theorem edgeCounted_ref {s : State} (hforce : s.tim.forceLead = false) (h : 99 ≤ s.tim.goodEdges) :
    (edgeCounted s).tim.refLock = true ∧ (edgeCounted s).tim.mode = 1 := by
  obtain ⟨href, hmark⟩ := edgeCounted_locks s
  rw [decide_eq_true h, Bool.or_true] at href hmark
  exact ⟨href, timeMode_ref href hmark hforce⟩

theorem applyEpoch_none {s : State} (h : s.tim.epochPending = none) : applyEpoch s = s := by
  rw [applyEpoch, h]

/-- The state in which a pending epoch has been taken. -/
def epochTaken (s : State) : State := setTim s { s.tim with epochPending := none }

/-- The epoch that sets the counter changes no code on its way. -/
theorem initCounter_epochTaken_knl (s : State) (c : BitVec 48) (f : BitVec 32) : (initCounter (epochTaken s) c f).knl = s.knl := rfl

theorem applyEpoch_due {s : State} {t : BitVec 48} (h : s.tim.epochPending = some (s.tim.marks, t)) : applyEpoch s =
    if !s.tim.valid then initCounter (epochTaken s) t 0 else if s.tim.counter = t then epochTaken s
    else raise (epochTaken s) 0x0C0A0003 .event (timeDetail (epochTaken s) (diff48 s.tim.counter t)) := by
  simp only [applyEpoch, h, if_true]
  rfl

/-- The epoch of an edge, on a counter that runs: the counter stays, and another time is reported. -/
theorem applyEpoch_valid {s : State} (hoff : s.die ≠ .off) {t : BitVec 48} (h : s.tim.epochPending = some (s.tim.marks, t))
    (hvalid : s.tim.valid = true) : ∃ event, (applyEpoch s).tim = { s.tim with epochPending := none, event := event } ∧
      (s.tim.counter ≠ t → ∃ detail, OnItsWay (applyEpoch s) 0x0C0A0003 .event detail s.sys.drill) := by
  rw [applyEpoch_due h, hvalid, if_neg (by decide)]
  split
  · exact ⟨s.tim.event, rfl, fun hne => absurd ‹_› hne⟩
  · rw [raise_onlyTim (b := 2) (by exact hoff) rfl fun _ => rfl]
    exact ⟨_, rfl, fun _ => ⟨_, List.mem_append_right _ (List.mem_singleton.mpr rfl)⟩⟩

theorem steerRef_other {s : State} (h : s.tim.mode ≠ 1) : steerRef s = s := if_neg h

/-- R380: in REF mode the counter is steered by its error. -/
theorem steerRef_ref {s : State} (hmode : s.tim.mode = 1) (h : (markerError s.tim.counter).natAbs ≤ 100000) : steerRef s =
    setTim s { s.tim with err := markerError s.tim.counter, slew := slewOf (-100 * markerError s.tim.counter) } := by
  simp only [steerRef, if_pos hmode, if_neg (Nat.not_lt.mpr h)]

/-- Steering, and a reference that is lost by it, leave the counter and MARKS. -/
theorem steerRef_keeps {s : State} (hoff : s.die ≠ .off) : (steerRef s).tim.marks = s.tim.marks ∧ (steerRef s).tim.valid = s.tim.valid ∧
    (steerRef s).tim.counter = s.tim.counter := by
  unfold steerRef
  split
  · dsimp only
    split
    · obtain ⟨event, htim⟩ := refBroken_tim (s := setTim s { s.tim with
        err := markerError s.tim.counter, slew := slewOf (-100 * markerError s.tim.counter) }) hoff (markerError s.tim.counter)
      rw [htim]
      exact ⟨rfl, rfl, rfl⟩
    · exact ⟨rfl, rfl, rfl⟩
  · exact ⟨rfl, rfl, rfl⟩

/-- A good edge without an epoch: it is counted, and in REF mode the counter is steered. -/
theorem frameMarkerEdge_noEpoch {s : State} (hoff : s.die ≠ .off) (hepoch : s.tim.epochPending = none) {interval : Nat}
    (h : ((interval : Int) - 1000000).natAbs ≤ 50) : frameMarkerEdge s interval = steerRef (edgeCounted s) := by
  rw [frameMarkerEdge_good hoff h, applyEpoch_none (by rw [edgeCounted_epochPending, hepoch])]

section
variable {s : State} (hoff : s.die ≠ .off) (hepoch : s.tim.epochPending = none) {interval : Nat}
  (h : ((interval : Int) - 1000000).natAbs ≤ 50)
include hoff hepoch h

/-- A good edge counts MARKS and leaves the counter. -/
theorem frameMarkerEdge_marks : let t := frameMarkerEdge s interval
    t.tim.marks = s.tim.marks + 1 ∧ t.tim.valid = s.tim.valid ∧ t.tim.counter = s.tim.counter := by
  obtain ⟨hmarks, hvalid, hcounter⟩ := steerRef_keeps (s := edgeCounted s) (by rwa [edgeCounted_die])
  rw [frameMarkerEdge_noEpoch hoff hepoch h]
  exact ⟨hmarks.trans (edgeCounted_marks s), hvalid.trans (edgeCounted_valid s), hcounter.trans (edgeCounted_counter s)⟩

/-- LEAD mode forced, a good edge steers nothing. -/
theorem frameMarkerEdge_forced (hforce : s.tim.forceLead = true) : let t := frameMarkerEdge s interval
    t.tim.goodEdges = min 100 (s.tim.goodEdges + 1) ∧ t.tim.refLock = (s.tim.refLock || decide (99 ≤ s.tim.goodEdges)) ∧ t.knl = s.knl := by
  rw [frameMarkerEdge_noEpoch hoff hepoch h, steerRef_other (edgeCounted_forced hforce)]
  exact ⟨edgeCounted_goodEdges s, (edgeCounted_locks s).1, edgeCounted_knl s⟩

/-- R380: the hundredth good edge locks, and steers by the counter's error. -/
theorem frameMarkerEdge_steers (hforce : s.tim.forceLead = false) (hedges : 99 ≤ s.tim.goodEdges)
    (herr : (markerError s.tim.counter).natAbs ≤ 100000) : let t := frameMarkerEdge s interval
    t.tim.mode = 1 ∧ t.tim.refLock = true ∧ t.tim.err = markerError s.tim.counter ∧
      t.tim.slew = max (-10000) (min 10000 (-100 * markerError s.tim.counter)) ∧ t.knl = s.knl := by
  obtain ⟨href, hmode⟩ := edgeCounted_ref hforce hedges
  rw [frameMarkerEdge_noEpoch hoff hepoch h, steerRef_ref hmode (by rwa [edgeCounted_counter]), edgeCounted_counter]
  exact ⟨hmode, href, rfl, rfl, edgeCounted_knl s⟩

end

/-- R384, R385: the epoch of this edge, LEAD mode forced, sets a counter that is not initialised. -/
theorem frameMarkerEdge_initialises {s : State} (hoff : s.die ≠ .off) {e : BitVec 48}
    (hepoch : s.tim.epochPending = some (s.tim.marks + 1, e)) (hforce : s.tim.forceLead = true) {interval : Nat}
    (h : ((interval : Int) - 1000000).natAbs ≤ 50) (hvalid : s.tim.valid = false) : let t := frameMarkerEdge s interval
    t.tim.valid = true ∧ t.tim.counter = e ∧ t.tim.frac = 0 ∧ t.tim.epochPending = none ∧ t.knl = s.knl := by
  have hinit : applyEpoch (edgeCounted s) = initCounter (epochTaken (edgeCounted s)) e 0 := by
    rw [applyEpoch_due (t := e) (by simp [hepoch]), edgeCounted_valid, hvalid]
    rfl
  have hmode : (initCounter (epochTaken (edgeCounted s)) e 0).tim.mode ≠ 1 := edgeCounted_forced hforce
  simp only [frameMarkerEdge_good hoff h, hinit, steerRef_other hmode]
  exact ⟨rfl, rfl, rfl, rfl, (initCounter_epochTaken_knl _ e 0).trans (edgeCounted_knl s)⟩

/-- R385: on a counter that runs the epoch of this edge changes nothing, and another time is reported. -/
theorem frameMarkerEdge_checks {s : State} (hoff : s.die ≠ .off) {e : BitVec 48}
    (hepoch : s.tim.epochPending = some (s.tim.marks + 1, e)) (hforce : s.tim.forceLead = true) {interval : Nat}
    (h : ((interval : Int) - 1000000).natAbs ≤ 50) (hvalid : s.tim.valid = true) : let t := frameMarkerEdge s interval
    t.tim.valid = true ∧ t.tim.counter = s.tim.counter ∧ t.tim.epochPending = none ∧
      (s.tim.counter ≠ e → ∃ detail, OnItsWay t 0x0C0A0003 .event detail s.sys.drill) := by
  obtain ⟨event, htim, hreport⟩ := applyEpoch_valid (s := edgeCounted s) (t := e) (by simpa using hoff) (by simp [hepoch]) (by simp [hvalid])
  have hmode : (applyEpoch (edgeCounted s)).tim.mode ≠ 1 := by
    rw [htim]
    exact edgeCounted_forced hforce
  rw [edgeCounted_counter, edgeCounted_sys] at hreport
  dsimp only
  rw [frameMarkerEdge_good hoff h, steerRef_other hmode, htim]
  exact ⟨(edgeCounted_valid s).trans hvalid, edgeCounted_counter s, rfl, hreport⟩

theorem timeCounterWrap_eq {s : State} (hoff : s.die ≠ .off) (h : s.tim.counter = 0xFFFFFFFFFFFF) :
    timeCounterWrap s = setTim s { s.tim with counter := 0 } := if_pos ⟨hoff, h⟩

/-! ## Source and parent (R381) -/

theorem leadUp_of_inRack {s : State} {i : Nat} (h : inRack s i = true) : leadUp s i = true := by
  simp only [inRack, Bool.and_eq_true] at h
  exact h.1.1

/-- The rack is what the leads and RACK_BITS say. -/
theorem inRack_setTim (s : State) {x : Tim} (h : x.rackBits = s.tim.rackBits) : inRack (setTim s x) = inRack s := by
  have hbits : rackBits (setTim s x) = rackBits s := congrArg (fun b => min 12 b.toNat) h
  funext i
  rw [inRack, inRack, hbits]
  rfl

/-- The source is the device's own ID or one that was heard. -/
theorem timeSource_mem (own : Nat) (hs : List (Nat × Nat × Nat)) : timeSource own hs = own ∨ ∃ h ∈ hs, h.2.1 = timeSource own hs := by
  unfold timeSource
  induction hs generalizing own with
  | nil => exact Or.inl rfl
  | cons h hs ih =>
    rw [List.foldl_cons]
    rcases ih (min own h.2.1) with hmin | ⟨g, hg, hsource⟩
    · rw [hmin]
      rcases Nat.le_total own h.2.1 with hle | hle
      · exact Or.inl (Nat.min_eq_left hle)
      · exact Or.inr ⟨h, List.mem_cons_self, (Nat.min_eq_right hle).symm⟩
    · exact Or.inr ⟨g, List.mem_cons_of_mem _ hg, hsource⟩

/-- Among the neighbours heard, the lead and the hops of one that advertises the source with the fewest hops and on the lowest lead; none
where none advertises it. -/
def Nearest (src : Nat) (hs : List (Nat × Nat × Nat)) : Option (Nat × Nat) → Prop
  | none => ∀ g ∈ hs, g.2.1 ≠ src
  | some (l, n) => (l, src, n) ∈ hs ∧ ∀ g ∈ hs, g.2.1 = src → n < g.2.2 ∨ (n = g.2.2 ∧ l ≤ g.1)

/-- A neighbour that advertises another source is no parent. -/
theorem Nearest.other {src : Nat} {hs : List (Nat × Nat × Nat)} {a : Option (Nat × Nat)} (ha : Nearest src hs a) {h : Nat × Nat × Nat}
    (hne : h.2.1 ≠ src) : Nearest src (hs ++ [h]) a := by
  cases a with
  | none => exact List.forall_mem_append.mpr ⟨ha, List.forall_mem_singleton.mpr hne⟩
  | some a => exact ⟨List.mem_append_left _ ha.1, List.forall_mem_append.mpr ⟨ha.2, List.forall_mem_singleton.mpr fun h => absurd h hne⟩⟩

/-- A neighbour that is no nearer than the nearest so far leaves it the nearest. -/
theorem Nearest.farther {src l n l' n' : Nat} {hs : List (Nat × Nat × Nat)} (ha : Nearest src hs (some (l, n)))
    (h : ¬(n' < n ∨ (n' = n ∧ l' < l))) : Nearest src (hs ++ [(l', src, n')]) (some (l, n)) :=
  ⟨List.mem_append_left _ ha.1, List.forall_mem_append.mpr ⟨ha.2, List.forall_mem_singleton.mpr fun _ => by dsimp only; omega⟩⟩

/-- A neighbour that is nearer than all so far is the nearest. -/
theorem nearest_nearer {src l' n' : Nat} {hs : List (Nat × Nat × Nat)} (h : ∀ g ∈ hs, g.2.1 = src → n' < g.2.2 ∨ (n' = g.2.2 ∧ l' ≤ g.1)) :
    Nearest src (hs ++ [(l', src, n')]) (some (l', n')) :=
  ⟨List.mem_append_right _ (List.mem_singleton.mpr rfl),
    List.forall_mem_append.mpr ⟨h, List.forall_mem_singleton.mpr fun _ => Or.inr ⟨rfl, le_rfl⟩⟩⟩

theorem nearest_timeParent (src : Nat) (hs : List (Nat × Nat × Nat)) : Nearest src hs (timeParent src hs) := by
  induction hs using List.reverseRecOn with
  | nil => exact fun _ hg => absurd hg List.not_mem_nil
  | append_singleton hs h ih =>
    obtain ⟨l', src', n'⟩ := h
    rw [timeParent, List.foldl_concat, ← timeParent]
    generalize timeParent src hs = a at ih
    dsimp only
    split
    case isTrue hsrc =>
      subst hsrc
      cases a with
      | none => exact nearest_nearer fun g hg h => absurd h (ih g hg)
      | some a =>
        obtain ⟨l, n⟩ := a
        dsimp only
        split
        case isTrue h => exact nearest_nearer fun g hg hsrc => by have := ih.2 g hg hsrc; omega
        case isFalse h => exact ih.farther h
    case isFalse hne => exact ih.other hne

theorem chooseParent_own {s : State} {hs : List (Nat × Nat × Nat)} (h : timeSource (ownId s) hs = ownId s) :
    chooseParent s hs = ownSource s := if_pos h

/-- A source other than the device has a nearest neighbour, which is the parent. -/
theorem chooseParent_other {s : State} {hs : List (Nat × Nat × Nat)} (h : timeSource (ownId s) hs ≠ ownId s) :
    ∃ l n, Nearest (timeSource (ownId s) hs) hs (some (l, n)) ∧ chooseParent s hs = chooseMode (setTim s { s.tim with
      source := BitVec.ofNat 24 (timeSource (ownId s) hs), hops := BitVec.ofNat 8 (min 255 (n + 1)), isSource := false, parent := some l }) := by
  have hnearest := nearest_timeParent (timeSource (ownId s) hs) hs
  simp only [chooseParent, if_neg h]
  generalize timeParent (timeSource (ownId s) hs) hs = a at hnearest
  cases a with
  | none =>
    obtain ⟨g, hg, hsource⟩ := (timeSource_mem (ownId s) hs).resolve_left h
    exact absurd hsource (hnearest g hg)
  | some a => exact ⟨a.1, a.2, hnearest, rfl⟩

/-- Choosing changes neither the counter nor the rack. -/
theorem chooseParent_keeps (s : State) (hs : List (Nat × Nat × Nat)) : ∃ x, chooseParent s hs = setTim s x ∧
    x.counter = s.tim.counter ∧ x.valid = s.tim.valid ∧ x.rackBits = s.tim.rackBits := by
  by_cases h : timeSource (ownId s) hs = ownId s
  · exact ⟨_, chooseParent_own h, rfl, rfl, rfl⟩
  · obtain ⟨l, n, -, hchosen⟩ := chooseParent_other h
    exact ⟨_, hchosen, rfl, rfl, rfl⟩

/-- What a neighbour advertises, in numbers: its lead, the source and the hops. -/
def advertNumbers (h : Fin 8 × BitVec 24 × BitVec 8) : Nat × Nat × Nat := (h.1.val, h.2.1.toNat, h.2.2.toNat)

/-- The neighbours in the rack that were heard. -/
def rackHeard (s : State) (heard : List (Fin 8 × BitVec 24 × BitVec 8)) : List (Fin 8 × BitVec 24 × BitVec 8) :=
  heard.filter fun h => inRack s h.1

theorem timeSource_advertNumbers (own : Nat) (hs : List (Fin 8 × BitVec 24 × BitVec 8)) :
    timeSource own (hs.map advertNumbers) = hs.foldl (fun a h => min a h.2.1.toNat) own := List.foldl_map

/-- R381: the device chooses by its rack's neighbours, and advertises where its counter is initialised. -/
theorem timeAdvert_eq {s : State} (hoff : s.die ≠ .off) (heard : List (Fin 8 × BitVec 24 × BitVec 8)) :
    timeAdvert s (heard.map advertNumbers) =
      let u := chooseParent s ((rackHeard s heard).map advertNumbers)
      if u.tim.valid then leadSendAll u (allLeads.filter (inRack u)) (.timeAdvert u.tim.source u.tim.hops) else u := by
  have hrack : (heard.map advertNumbers).filter (fun h => inRack s h.1) = (rackHeard s heard).map advertNumbers := List.filter_map
  simp only [timeAdvert, if_neg hoff, hrack]

/-- What the adverts that are sent leave: TIM's state and HBM are as the device chose. -/
theorem timeAdvert_keeps {s : State} (hoff : s.die ≠ .off) (heard : List (Fin 8 × BitVec 24 × BitVec 8)) :
    let t := timeAdvert s (heard.map advertNumbers)
    t.tim = (chooseParent s ((rackHeard s heard).map advertNumbers)).tim ∧ t.mem = s.mem := by
  obtain ⟨x, hchosen, -⟩ := chooseParent_keeps s ((rackHeard s heard).map advertNumbers)
  rw [timeAdvert_eq hoff, hchosen]
  dsimp only
  split
  · obtain ⟨lead, hsend⟩ := leadSendAll_eq (setTim s x) (allLeads.filter (inRack (setTim s x))) (.timeAdvert x.source x.hops)
    exact ⟨(congrArg State.tim hsend :), (congrArg State.mem hsend :)⟩
  · exact ⟨rfl, rfl⟩

theorem timeAdvert_own {s : State} (hoff : s.die ≠ .off) {heard : List (Fin 8 × BitVec 24 × BitVec 8)}
    (h : (rackHeard s heard).foldl (fun a h => min a h.2.1.toNat) (ownId s) = ownId s) : let t := timeAdvert s (heard.map advertNumbers)
    t.tim.parent = none ∧ t.tim.source.toNat = ownId s ∧ t.tim.hops = 0 := by
  obtain ⟨htim, -⟩ := timeAdvert_keeps hoff heard
  rw [chooseParent_own (by rwa [timeSource_advertNumbers])] at htim
  simp only [htim]
  exact ⟨rfl, Nat.mod_eq_of_lt s.lead.activeId.isLt, rfl⟩

theorem timeAdvert_parent {s : State} (hoff : s.die ≠ .off) {heard : List (Fin 8 × BitVec 24 × BitVec 8)} {src : Nat}
    (hsrc : (rackHeard s heard).foldl (fun a h => min a h.2.1.toNat) (ownId s) = src) (hne : src ≠ ownId s) :
    let t := timeAdvert s (heard.map advertNumbers)
    ∃ h ∈ rackHeard s heard, t.tim.parent = some h.1.val ∧ h.2.1.toNat = src ∧ t.tim.source = h.2.1 ∧
      t.tim.hops.toNat = min 255 (h.2.2.toNat + 1) ∧ t.tim.isSource = false ∧
      ∀ g ∈ rackHeard s heard, g.2.1.toNat = src → h.2.2.toNat < g.2.2.toNat ∨ (h.2.2.toNat = g.2.2.toNat ∧ h.1.val ≤ g.1.val) := by
  rw [← timeSource_advertNumbers] at hsrc
  obtain ⟨htim, -⟩ := timeAdvert_keeps hoff heard
  obtain ⟨l, n, ⟨hmem, hnearest⟩, hchosen⟩ := chooseParent_other (hsrc.trans_ne hne)
  obtain ⟨h, hh, hnumbers⟩ := List.mem_map.mp hmem
  simp only [advertNumbers, Prod.mk.injEq] at hnumbers
  obtain ⟨rfl, hown, rfl⟩ := hnumbers
  rw [hchosen] at htim
  simp only [htim]
  refine ⟨h, hh, rfl, hown.trans hsrc, ?_, Nat.mod_eq_of_lt (by omega), rfl, fun g hg hsource => ?_⟩
  · rw [← hown, BitVec.ofNat_toNat, BitVec.setWidth_eq]
    rfl
  · exact hnearest _ (List.mem_map_of_mem hg) (hsource.trans hsrc.symm)

/-- An initialised counter's source and hops are advertised on every lead of the rack. -/
theorem timeAdvert_queued {s : State} (hoff : s.die ≠ .off) (heard : List (Fin 8 × BitVec 24 × BitVec 8)) (hvalid : s.tim.valid = true)
    {i : Nat} (hi : i < 8) (hrack : inRack s i = true) : let t := timeAdvert s (heard.map advertNumbers)
    Queued t i (.timeAdvert t.tim.source t.tim.hops) := by
  obtain ⟨htim, -⟩ := timeAdvert_keeps hoff heard
  obtain ⟨x, hchosen, -, hkept, hbits⟩ := chooseParent_keeps s ((rackHeard s heard).map advertNumbers)
  have hrack' : inRack (setTim s x) i = true := by rw [inRack_setTim s hbits]; exact hrack
  have hvalid' : (setTim s x).tim.valid = true := hkept.trans hvalid
  dsimp only
  rw [htim, timeAdvert_eq hoff, hchosen]
  dsimp only
  rw [if_pos hvalid']
  exact queued_leadSendAll (List.mem_filter.mpr ⟨List.mem_range.mpr hi, hrack'⟩) (leadUp_of_inRack hrack') _

/-! ## Exchanges (R382 to R384) -/

/-- The state in which the request of an exchange has been sent to the parent. -/
def requested (s : State) (p : Nat) : State := leadSend s p .timeRequest

theorem requested_eq (s : State) (p : Nat) : ∃ lead, requested s p = { s with lead := { s.lead with lead := lead } } := leadSend_eq s p _

/-- The state in which an exchange has set a counter that is not initialised, where the parent's is. -/
def initByLead (s : State) (t4 : BitVec 48) (th : Int) (parentInit : Bool) : State :=
  if !s.tim.valid && parentInit then initCounter s (t4 + BitVec.ofInt 48 (th / 2)) (if th % 2 = 0 then 0 else 0x80000000) else s

theorem initByLead_init {s : State} (h : s.tim.valid = false) (t4 : BitVec 48) (th : Int) :
    initByLead s t4 th true = initCounter s (t4 + BitVec.ofInt 48 (th / 2)) (if th % 2 = 0 then 0 else 0x80000000) :=
  if_pos (by simp [h])

theorem initByLead_none {s : State} {parentInit : Bool} (h : s.tim.valid = true ∨ parentInit = false) (t4 : BitVec 48) (th : Int) :
    initByLead s t4 th parentInit = s := if_neg (by rcases h with h | h <;> simp [h])

theorem initByLead_leads (s : State) (t4 : BitVec 48) (th : Int) (parentInit : Bool) :
    (initByLead s t4 th parentInit).lead.lead = s.lead.lead := by
  unfold initByLead
  split <;> rfl

section
variable {s : State} {p : Nat} (hoff : s.die ≠ .off) (hparent : s.tim.parent = some p) (hrack : inRack s p = true)
include hoff hparent hrack

/-- An exchange with the parent: the request leaves, and the offset steers in LEAD mode and is only checked in another. -/
theorem childExchange_eq (t1 t2 t3 t4 : BitVec 48) (parentInit : Bool) : childExchange s t1 t2 t3 t4 parentInit =
    if s.tim.mode = 2 then steerLead (initByLead (requested s p) t4 (twoTheta t1 t2 t3 t4) parentInit) (twoTheta t1 t2 t3 t4)
    else checkOffset (requested s p) (twoTheta t1 t2 t3 t4) := by
  have hexchanges : ¬(s.die = .off ∨ (!inRack s p) = true) := by simp [hoff, hrack]
  obtain ⟨lead, hsent⟩ := requested_eq s p
  have htim : (requested s p).tim = s.tim := (congrArg State.tim hsent :)
  rw [requested] at htim
  simp only [childExchange, hparent, if_neg hexchanges, requested, htim, initByLead]

theorem childExchange_lead (hmode : s.tim.mode = 2) (t1 t2 t3 t4 : BitVec 48) (parentInit : Bool) :
    childExchange s t1 t2 t3 t4 parentInit =
      steerLead (initByLead (requested s p) t4 (twoTheta t1 t2 t3 t4) parentInit) (twoTheta t1 t2 t3 t4) := by
  rw [childExchange_eq hoff hparent hrack, if_pos hmode]

theorem childExchange_check (hmode : s.tim.mode ≠ 2) (t1 t2 t3 t4 : BitVec 48) (parentInit : Bool) :
    childExchange s t1 t2 t3 t4 parentInit = checkOffset (requested s p) (twoTheta t1 t2 t3 t4) := by
  rw [childExchange_eq hoff hparent hrack, if_neg hmode]

end

theorem checkOffset_near {s : State} {th : Int} (h : th.natAbs ≤ 2000) : checkOffset s th = setTim s { s.tim with offsetRun := 0 } :=
  if_neg (Nat.not_lt.mpr h)

theorem checkOffset_far {s : State} {th : Int} (h : 2000 < th.natAbs) (hrun : s.tim.offsetRun ≠ 15) :
    checkOffset s th = setTim s { s.tim with offsetRun := s.tim.offsetRun + 1 } := by
  have hn : ¬s.tim.offsetRun + 1 = 16 := by omega
  simp only [checkOffset, if_pos h, if_neg hn]

theorem checkOffset_sixteenth {s : State} (hoff : s.die ≠ .off) {th : Int} (h : 2000 < th.natAbs) (hrun : s.tim.offsetRun = 15) :
    ∃ event detail, checkOffset s th = { s with
      tim := { s.tim with offsetRun := 0, event := event }
      knl := { s.knl with inflight := s.knl.inflight ++ [⟨0x0C0A0004, .event, detail, s.sys.drill⟩] } } := by
  simp only [checkOffset, if_pos h, hrun, if_true]
  rw [raise_onlyTim (b := 3) (by exact hoff) rfl fun _ => rfl]
  exact ⟨_, _, rfl⟩

theorem checkOffset_leads {s : State} (hoff : s.die ≠ .off) (th : Int) : (checkOffset s th).lead.lead = s.lead.lead := by
  by_cases hnear : th.natAbs ≤ 2000
  · rw [checkOffset_near hnear]
    rfl
  · by_cases hrun : s.tim.offsetRun = 15
    · obtain ⟨event, detail, hcheck⟩ := checkOffset_sixteenth hoff (Nat.lt_of_not_le hnear) hrun
      rw [hcheck]
    · rw [checkOffset_far (Nat.lt_of_not_le hnear) hrun]
      rfl

section
variable {s : State} {p : Nat} (hoff : s.die ≠ .off) (hparent : s.tim.parent = some p) (hrack : inRack s p = true)
include hoff hparent hrack

/-- Every exchange sends the parent a request. -/
theorem childExchange_queued (t1 t2 t3 t4 : BitVec 48) (parentInit : Bool) :
    Queued (childExchange s t1 t2 t3 t4 parentInit) p .timeRequest := by
  have hsent : Queued (requested s p) p .timeRequest := queued_leadSend (leadUp_of_inRack hrack) _
  obtain ⟨lead, hrequested⟩ := requested_eq s p
  refine queued_congr ?_ hsent
  by_cases hmode : s.tim.mode = 2
  · rw [childExchange_lead hoff hparent hrack hmode]
    exact initByLead_leads ..
  · rw [childExchange_check hoff hparent hrack hmode]
    exact checkOffset_leads (by rw [hrequested]; exact hoff) _

/-- R384: in LEAD mode an exchange with an initialised parent sets a counter that is not. -/
theorem childExchange_initialises (hmode : s.tim.mode = 2) (hvalid : s.tim.valid = false) (t1 t2 t3 t4 : BitVec 48) :
    let th := twoTheta t1 t2 t3 t4
    let t := childExchange s t1 t2 t3 t4 true
    t.tim.valid = true ∧ t.tim.counter = t4 + BitVec.ofInt 48 (th / 2) ∧ t.tim.frac = (if th % 2 = 0 then 0 else 0x80000000) := by
  obtain ⟨lead, hrequested⟩ := requested_eq s p
  dsimp only
  rw [childExchange_lead hoff hparent hrack hmode, initByLead_init (by rw [hrequested]; exact hvalid)]
  exact ⟨rfl, rfl, rfl⟩

/-- R382: in LEAD mode an exchange steers by half of the difference. -/
theorem childExchange_steers (hmode : s.tim.mode = 2) (t1 t2 t3 t4 : BitVec 48) (parentInit : Bool) :
    let th := twoTheta t1 t2 t3 t4
    let t := childExchange s t1 t2 t3 t4 parentInit
    t.tim.slew = max (-10000) (min 10000 (50 * th)) ∧ t.tim.offsetRun = 0 ∧ (th % 2 = 0 → t.tim.err = -(th / 2)) ∧
      (s.tim.valid = true ∨ parentInit = false → t.tim.counter = s.tim.counter) := by
  obtain ⟨lead, hrequested⟩ := requested_eq s p
  dsimp only
  rw [childExchange_lead hoff hparent hrack hmode]
  refine ⟨rfl, rfl, fun heven => ?_, fun hset => ?_⟩
  · show halfNs (-twoTheta t1 t2 t3 t4) = _
    rw [halfNs, if_pos (by omega)]
    omega
  · rw [initByLead_none (by rw [hrequested]; exact hset), hrequested]
    rfl

/-- R383: in another mode an exchange counts the offsets beyond 1 us in a row, and reports the sixteenth. -/
theorem childExchange_checks (hmode : s.tim.mode ≠ 2) (t1 t2 t3 t4 : BitVec 48) (parentInit : Bool) :
    let th := twoTheta t1 t2 t3 t4
    let t := childExchange s t1 t2 t3 t4 parentInit
    (th.natAbs ≤ 2000 → t = { s with tim := { s.tim with offsetRun := 0 }, lead := t.lead }) ∧
      (2000 < th.natAbs → s.tim.offsetRun = 15 → t.tim.offsetRun = 0 ∧
        ∃ detail, OnItsWay t 0x0C0A0004 .event detail s.sys.drill) ∧
      (2000 < th.natAbs → s.tim.offsetRun ≠ 15 →
        t = { s with tim := { s.tim with offsetRun := s.tim.offsetRun + 1 }, lead := t.lead }) := by
  obtain ⟨lead, hrequested⟩ := requested_eq s p
  dsimp only
  rw [childExchange_check hoff hparent hrack hmode, hrequested]
  refine ⟨fun hnear => ?_, fun hfar hrun => ?_, fun hfar hrun => ?_⟩
  · rw [checkOffset_near hnear]
    rfl
  · obtain ⟨event, detail, hcheck⟩ := checkOffset_sixteenth (s := { s with lead := { s.lead with lead := lead } }) hoff hfar hrun
    rw [hcheck]
    exact ⟨rfl, detail, List.mem_append_right _ (List.mem_singleton.mpr rfl)⟩
  · rw [checkOffset_far hfar (by exact hrun)]
    rfl

end

/-- R382: a neighbour in the rack has its request answered with this device's times, and nothing else changes. -/
theorem parentExchange_answers {s : State} (hoff : s.die ≠ .off) {l : Nat} (h : inRack s l = true) : let t := parentExchange s l
    Queued t l (.timeReply s.tim.counter s.tim.counter s.tim.valid) ∧ t = { s with lead := t.lead } := by
  have hanswer : parentExchange s l = leadSend s l (.timeReply s.tim.counter s.tim.counter s.tim.valid) := if_neg (by simp [hoff, h])
  obtain ⟨lead, hsend⟩ := leadSend_eq s l (.timeReply s.tim.counter s.tim.counter s.tim.valid)
  rw [hanswer]
  exact ⟨queued_leadSend (leadUp_of_inRack h) _, by rw [hsend]⟩

theorem parentExchange_outside {s : State} {l : Nat} (h : inRack s l = false) : parentExchange s l = s := if_pos (Or.inr (by rw [h]; rfl))

/-- Settles O55: the clauses are the rules for one marker edge, one advert and one exchange. -/
theorem time : Obligations.Time := by
  unfold Obligations.Time
  refine ⟨⟨fun s interval hoff hepoch hgood => ⟨_, rfl, ?_⟩, fun s hoff c hc => ?_,
    fun s interval e hoff hepoch hforce hgood => ⟨fun hvalid => ⟨_, rfl, ?_⟩, fun hvalid => ⟨_, rfl, ?_⟩⟩,
    fun s hoff h => ⟨_, rfl, timeCounterWrap_eq hoff h⟩⟩,
    fun s heard hoff => ⟨_, rfl, ?_⟩, fun s p t1 t2 t3 t4 hoff hparent hrack => ⟨?_, ?_, ?_, ?_⟩,
    fun s l hoff => ⟨fun hrack => ⟨_, rfl, parentExchange_answers hoff hrack⟩,
      fun hout => congrArg Host.Outcome.next (parentExchange_outside hout)⟩⟩
  · obtain ⟨hmarks, hvalid, hcounter⟩ := frameMarkerEdge_marks hoff hepoch hgood
    exact ⟨hmarks, hvalid, hcounter, frameMarkerEdge_forced hoff hepoch hgood, frameMarkerEdge_steers hoff hepoch hgood⟩
  · have hbroken := refBroken_spec hoff 0
    have habsent : refClockAbsent s = refBroken s 0 := if_neg hoff
    have hmissing : markerEdgeMissing s = refBroken s 0 := if_neg hoff
    simp only [List.mem_cons, List.not_mem_nil, or_false] at hc
    rcases hc with rfl | rfl
    · exact ⟨_, congrArg Host.Outcome.next habsent, hbroken⟩
    · exact ⟨_, congrArg Host.Outcome.next hmissing, hbroken⟩
  · exact frameMarkerEdge_initialises hoff hepoch hforce hgood hvalid
  · exact frameMarkerEdge_checks hoff hepoch hforce hgood hvalid
  · obtain ⟨htim, hmem⟩ := timeAdvert_keeps hoff heard
    obtain ⟨x, hchosen, hcounter, hvalid, -⟩ := chooseParent_keeps s ((rackHeard s heard).map advertNumbers)
    rw [hchosen] at htim
    exact ⟨timeAdvert_own hoff, timeAdvert_parent hoff rfl, fun hinit i => timeAdvert_queued hoff heard hinit,
      (congrArg Tim.counter htim).trans hcounter, (congrArg Tim.valid htim).trans hvalid, hmem⟩
  · exact fun i => ⟨_, rfl, childExchange_queued hoff hparent hrack t1 t2 t3 t4 i⟩
  · exact fun hmode hvalid => ⟨_, rfl, childExchange_initialises hoff hparent hrack hmode hvalid t1 t2 t3 t4⟩
  · exact fun hmode i => ⟨_, rfl, childExchange_steers hoff hparent hrack hmode t1 t2 t3 t4 i⟩
  · intro hmode i
    obtain ⟨hnear, hsixteenth, hfar⟩ := childExchange_checks hoff hparent hrack hmode t1 t2 t3 t4 i
    exact ⟨fun h => ⟨_, rfl, hnear h⟩, fun h hrun => ⟨_, rfl, hsixteenth h hrun⟩, fun h hrun => ⟨_, rfl, hfar h hrun⟩⟩

end Sys2Proof.Machine
end

section
/-!
O2. An idle step: the clocks run for a microsecond and bulk frames leave (R375, R380, R400, R514; log 4).
-/
namespace Sys2Proof.Machine

/-! ## Bulk frames (R400) -/

/-- From s to t the compute-die session on link l has changed, and nothing else. -/
structure OnlyDieSession (s t : State) (l : Fin 2) : Prop where
  rest : t = { s with tet := { s.tet with link := t.tet.link } }
  others : ∀ l' p, l' ≠ l.val ∨ p ≠ false → sess t l' p = sess s l' p
  up : ∀ l', (linkAt t l').up = (linkAt s l').up

theorem OnlyDieSession.refl (s : State) (l : Fin 2) : OnlyDieSession s s l := ⟨rfl, fun _ _ _ => rfl, fun _ => rfl⟩

theorem OnlyDieSession.trans {s t u : State} {l : Fin 2} (h : OnlyDieSession s t l) (h' : OnlyDieSession t u l) : OnlyDieSession s u l where
  rest := by rw [h'.rest, h.rest]
  others l' p hne := (h'.others l' p hne).trans (h.others l' p hne)
  up l' := (h'.up l').trans (h.up l')

theorem onlyDieSession_setSess (s : State) (l : Fin 2) (x : Sess) : OnlyDieSession s (setSess s l false x) l where
  rest := rfl
  others _ _ hne := sess_setSess_other s hne x
  up l' := by
    by_cases hl : l' = l.val
    · subst hl
      rw [setSess, linkAt_setLink_same]
      rfl
    · rw [setSess, linkAt_setLink_other s hl]

/-- The frames sent in a session, without their SEQs. -/
def sentBodies (s : State) (l : Nat) : List TBody := (sess s l false).sent.map Prod.snd

/-- Frames that are sent one after the other stand behind those sent before, in their order. -/
theorem tetSends_spec (s : State) (l : Fin 2) (bs : List TBody) : let t := bs.foldl (fun s b => tetSend s l false b) s
    OnlyDieSession s t l ∧ (sess t l false).bulk = (sess s l false).bulk ∧ sentBodies t l = sentBodies s l ++ bs := by
  induction bs generalizing s with
  | nil => exact ⟨.refl s l, rfl, (List.append_nil _).symm⟩
  | cons b bs ih =>
    obtain ⟨honly, hbulk, hsent⟩ := ih (tetSend s l false b)
    have hone : sess (tetSend s l false b) l false = { sess s l false with
        seq := (sess s l false).seq + 1, sent := (sess s l false).sent ++ [((sess s l false).seq, b)] } := sess_setSess_same s l false _
    refine ⟨(onlyDieSession_setSess s l _).trans honly, hbulk.trans (by rw [hone]), hsent.trans ?_⟩
    rw [sentBodies, hone, List.map_append, List.append_assoc]
    rfl

/-- What n bulk frames that may leave on link l make of its compute-die session. -/
def BulkLeft (s t : State) (n l : Nat) : Prop :=
  if (linkAt s l).up = true ∧ (sess s l false).isOpen = true then
    (sess t l false).bulk = (sess s l false).bulk.drop n ∧ sentBodies t l = sentBodies s l ++ (sess s l false).bulk.take n
  else sess t l false = sess s l false

/-- R400: bulk frames leave on a link that is up, in its open session. -/
theorem sendBulk_spec (s : State) (n : Nat) (l : Fin 2) : OnlyDieSession s (sendBulk s n l) l ∧ BulkLeft s (sendBulk s n l) n l := by
  by_cases hopen : (linkAt s l).up = true ∧ (sess s l false).isOpen = true
  · have hsends : sendBulk s n l = ((sess s l false).bulk.take n).foldl (fun s b => tetSend s l false b)
        (setSess s l false { sess s l false with bulk := (sess s l false).bulk.drop n }) := if_pos (Bool.and_eq_true_iff.mpr hopen)
    have hset := sess_setSess_same s l false { sess s l false with bulk := (sess s l false).bulk.drop n }
    obtain ⟨honly, hbulk, hsent⟩ := tetSends_spec (setSess s l false { sess s l false with bulk := (sess s l false).bulk.drop n }) l
      ((sess s l false).bulk.take n)
    rw [BulkLeft, if_pos hopen, hsends]
    refine ⟨(onlyDieSession_setSess s l _).trans honly, hbulk.trans (by rw [hset]), hsent.trans ?_⟩
    rw [sentBodies, hset]
    rfl
  · have hstays : sendBulk s n l = s := if_neg (mt Bool.and_eq_true_iff.mp hopen)
    rw [BulkLeft, if_neg hopen, hstays]
    exact ⟨.refl s l, rfl⟩

/-- Bulk frames leave by what the link and its session were. -/
theorem bulkLeft_congr {s s' t t' : State} {n l : Nat} (hup : (linkAt s' l).up = (linkAt s l).up)
    (hs : sess s' l false = sess s l false) (ht : sess t' l false = sess t l false) (h : BulkLeft s t n l) : BulkLeft s' t' n l := by
  simp only [BulkLeft, sentBodies, hup, hs, ht] at h ⊢
  exact h

/-- There is no third link. -/
theorem linkAt_beyond (s : State) {l : Nat} (h : 2 ≤ l) : linkAt s l = {} := by
  rw [linkAt, vget, List.getD_eq_default]
  simpa using h

/-- R400: bulk frames leave on each link, and nothing but the compute-die sessions changes. -/
theorem sendBulks_spec (s : State) (n : Nat) : let t := sendBulk (sendBulk s n 0) n 1
    t = { s with tet := { s.tet with link := t.tet.link } } ∧ ∀ l, sess t l true = sess s l true ∧ BulkLeft s t n l := by
  obtain ⟨honly, hleft⟩ : OnlyDieSession s (sendBulk s n 0) 0 ∧ BulkLeft s (sendBulk s n 0) n 0 := sendBulk_spec s n 0
  obtain ⟨honly', hleft'⟩ : OnlyDieSession (sendBulk s n 0) (sendBulk (sendBulk s n 0) n 1) 1 ∧
    BulkLeft (sendBulk s n 0) (sendBulk (sendBulk s n 0) n 1) n 1 := sendBulk_spec (sendBulk s n 0) n 1
  refine ⟨by rw [honly'.rest, honly.rest], fun l => ⟨?_, ?_⟩⟩
  · exact (honly'.others l true (Or.inr (by decide))).trans (honly.others l true (Or.inr (by decide)))
  · match l with
    | 0 => exact bulkLeft_congr rfl rfl (honly'.others 0 false (Or.inl (by decide))) hleft
    | 1 => exact bulkLeft_congr (honly.up 1).symm (honly.others 1 false (Or.inl (by decide))).symm rfl hleft'
    | l + 2 =>
      rw [BulkLeft, linkAt_beyond s (by omega), if_neg (by simp)]
      exact (honly'.others _ false (Or.inl (by simp))).trans (honly.others _ false (Or.inl (by simp)))

/-! ## The time counter (R375, R380) -/

/-- The counter and its fraction together, in units of 2^-32 ns. -/
def counterUnits (s : State) : Nat := s.tim.counter.toNat * 2 ^ 32 + s.tim.frac.toNat

theorem runCounter_off {s : State} (h : s.die = .off) : runCounter s = s := if_pos h

/-- The counter and its fraction are the two parts of what they run to. -/
theorem runCounter_on {s : State} (h : s.die ≠ .off) : runCounter s = setTim s { s.tim with
    counter := BitVec.ofNat 48 (counterAfter s.tim.counter s.tim.frac s.tim.slew / 2 ^ 32)
    frac := BitVec.ofNat 32 (counterAfter s.tim.counter s.tim.frac s.tim.slew) } := if_neg h

theorem counterUnits_runCounter {s : State} (h : s.die ≠ .off) :
    counterUnits (runCounter s) = counterAfter s.tim.counter s.tim.frac s.tim.slew := by
  have hlt : counterAfter s.tim.counter s.tim.frac s.tim.slew < 2 ^ 80 := Nat.mod_lt _ (by decide)
  rw [runCounter_on h]
  show (BitVec.ofNat 48 _).toNat * 2 ^ 32 + (BitVec.ofNat 32 _).toNat = _
  rw [BitVec.toNat_ofNat, BitVec.toNat_ofNat]
  omega

/-- R375: 800 cycles of 1.25 ns without a correction are 1,000 ns. -/
theorem counterAfter_uncorrected (c : BitVec 48) (f : BitVec 32) :
    counterAfter c f 0 = (c.toNat * 2 ^ 32 + f.toNat + 1000 * 2 ^ 32) % 2 ^ 80 := rfl

theorem runCounter_uncorrected {s : State} (h : s.die ≠ .off) (hslew : s.tim.slew = 0) :
    (runCounter s).tim.counter = s.tim.counter + 1000 ∧ (runCounter s).tim.frac = s.tim.frac := by
  have hcounter := s.tim.counter.isLt
  have hfrac := s.tim.frac.isLt
  rw [runCounter_on h, hslew, counterAfter_uncorrected, setTim_tim]
  refine ⟨BitVec.eq_of_toNat_eq ?_, BitVec.eq_of_toNat_eq ?_⟩
  · rw [BitVec.toNat_ofNat, BitVec.toNat_add, show (1000 : BitVec 48).toNat = 1000 from rfl]
    omega
  · rw [BitVec.toNat_ofNat]
    omega

/-- The time-island clock changes the counter and its fraction alone. -/
theorem runCounter_eq (s : State) : ∃ c f, runCounter s = setTim s { s.tim with counter := c, frac := f } := by
  by_cases h : s.die = .off
  · exact ⟨s.tim.counter, s.tim.frac, runCounter_off h⟩
  · exact ⟨_, _, runCounter_on h⟩

/-! ## One microsecond -/

/-- The state in which Shepherd time has run for a microsecond (R514). -/
def shepherdRun (s : State) : State :=
  { s with shp := { s.shp with time := if s.shp.standby = true then s.shp.time + 1 else s.shp.time } }

theorem shepherdRun_eq (s : State) :
    (if s.shp.standby then { s with shp := { s.shp with time := s.shp.time + 1 } } else s) = shepherdRun s := by
  unfold shepherdRun
  split <;> rfl

/-- In a microsecond without a command both clocks run, and bulk frames leave. -/
theorem tick_eq (s : State) : tick s = sendBulk (sendBulk (shepherdRun (runCounter s)) 6 0) 6 1 := by
  rw [← shepherdRun_eq]
  rfl

/-- The clocks change the counter, its fraction and Shepherd time. -/
theorem clocks_eq (s : State) : ∃ c f, (runCounter s).tim = { s.tim with counter := c, frac := f } ∧
    shepherdRun (runCounter s) = { s with
      tim := { s.tim with counter := c, frac := f }
      shp := { s.shp with time := if s.shp.standby = true then s.shp.time + 1 else s.shp.time } } := by
  obtain ⟨c, f, hrun⟩ := runCounter_eq s
  refine ⟨c, f, ?_, ?_⟩ <;> rw [hrun]
  · rfl
  · rfl

/-- Settles O2: the clocks run, then bulk frames leave. -/
theorem idleStepTicks : Obligations.IdleStepTicks := by
  intro s hqueue
  obtain ⟨c, f, hcounter, hclocks⟩ := clocks_eq s
  obtain ⟨hrest, hlinks⟩ := sendBulks_spec (shepherdRun (runCounter s)) 6
  rw [← tick_eq] at hrest hlinks
  have htim : (tick s).tim = (runCounter s).tim := by rw [hrest]; rfl
  have hlink : (shepherdRun (runCounter s)).tet.link = s.tet.link := by rw [hclocks]
  rw [hclocks] at hrest
  refine ⟨tick s, by rw [step, hqueue], by rw [hrest], fun hoff => by rw [htim, runCounter_off hoff], fun hon => ?_, fun hon hslew => ?_,
    ?_, fun l => ?_⟩
  · rw [htim]
    show counterUnits (runCounter s) % 2 ^ 80 = _
    rw [counterUnits_runCounter hon]
    exact Nat.mod_mod _ _
  · rw [htim]
    exact runCounter_uncorrected hon hslew
  · rw [htim, hcounter, hrest]
  · obtain ⟨hshepherd, hleft⟩ := hlinks l
    refine ⟨hshepherd.trans (sess_congr hlink l true), ?_⟩
    exact bulkLeft_congr (congrArg TLink.up (linkAt_congr hlink l).symm) (sess_congr hlink l false).symm rfl hleft

end Sys2Proof.Machine
end

section
/-!
The enrolled owner and the security version numbers (R556, R567): what every operation but enrolment and the rise of a counter leaves
as it is, one lemma an operation in the order of the model's files, and that nothing of it is lost in a step: O6.
-/
namespace Sys2Proof.Machine

/-- What no step takes away from a state: the enrolled owner, and the security version numbers (R556, R567). -/
def State.guarded (s : State) : Option (BitVec 512) × Vector Word 3 := (s.sec.owner, s.sec.svn)

@[simp] theorem guarded_mk (sys : Sys) (die : Die) (knl : Knl) (frm : Frm) (edg : Edg) (rod : Rod) (str : Str) (ld : Load) (mem : MemS)
    (brd : Brd) (lead : LeadS) (col : Col) (tim : Tim) (tet : Tet) (snp : Snp) (gov : Gov) (sec : Sec) (shp : Shp) (tly : Tly) (boot : Boot)
    (free : Nat) (pending : List Instr) :
    (State.mk sys die knl frm edg rod str ld mem brd lead col tim tet snp gov sec shp tly boot free pending).guarded =
      (sec.owner, sec.svn) := by rfl

@[simp] theorem guarded_eta (s : State) : (s.sec.owner, s.sec.svn) = s.guarded := by rfl

@[simp] theorem setLmem_guarded (s : State) (c : Nat) (m : Mem) : (setLmem s c m).guarded = s.guarded := by rfl
@[simp] theorem boardWrite_guarded (s : State) (a : Nat) (b : Bytes) : (boardWrite s a b).guarded = s.guarded := by rfl
@[simp] theorem jobWrite_guarded (s : State) (a : Nat) (b : Bytes) : (jobWrite s a b).guarded = s.guarded := by rfl
@[simp] theorem setStrips_guarded (s : State) (m : BitVec 16) : (setStrips s m).guarded = s.guarded := by rfl
@[simp] theorem setStrand_guarded (s : State) (n : Nat) (x : Strand) : (setStrand s n x).guarded = s.guarded := by rfl
@[simp] theorem setStrandSt_guarded (s : State) (n : Nat) (st : BitVec 4) : (setStrandSt s n st).guarded = s.guarded := by rfl
@[simp] theorem stopStrand_guarded (s : State) (n : Nat) : (stopStrand s n).guarded = s.guarded := by rfl
@[simp] theorem issueStrand_guarded (s : State) (n : Nat) : (issueStrand s n).guarded = s.guarded := by rfl
@[simp] theorem setToken_guarded (s : State) (i x : Nat) : (setToken s i x).guarded = s.guarded := by rfl
@[simp] theorem setRing_guarded (s : State) (r : Nat) (x : Ring) : (setRing s r x).guarded = s.guarded := by rfl
@[simp] theorem produce_guarded (s : State) (r : Nat) (l : SegLayout) : (produce s r l).guarded = s.guarded := by rfl
@[simp] theorem release_guarded (s : State) (r : Nat) : (release s r).guarded = s.guarded := by rfl
@[simp] theorem setSlot_guarded (s : State) (k : Nat) (x : Slot) : (setSlot s k x).guarded = s.guarded := by rfl
@[simp] theorem setLead_guarded (s : State) (i : Nat) (x : Lead) : (setLead s i x).guarded = s.guarded := by rfl
@[simp] theorem setLink_guarded (s : State) (l : Nat) (x : TLink) : (setLink s l x).guarded = s.guarded := by rfl
@[simp] theorem setSess_guarded (s : State) (l : Nat) (shp : Bool) (x : Sess) : (setSess s l shp x).guarded = s.guarded := by rfl
@[simp] theorem tetSend_guarded (s : State) (l : Nat) (shp : Bool) (b : TBody) : (tetSend s l shp b).guarded = s.guarded := by rfl
@[simp] theorem respond_guarded (s : State) (r : Req) (shp : Bool) (type status : Nat) (payload : Bytes) :
    (respond s r shp type status payload).guarded = s.guarded := by rfl
@[simp] theorem respondCode_guarded (s : State) (r : Req) (shp : Bool) (type code : Nat) :
    (respondCode s r shp type code).guarded = s.guarded := by rfl
@[simp] theorem setEngine_guarded (s : State) (e : Nat) (o : Option CollOp) : (setEngine s e o).guarded = s.guarded := by rfl
@[simp] theorem setEdgeOps_guarded (s : State) (ops : List EdgeOp) : (setEdgeOps s ops).guarded = s.guarded := by rfl
@[simp] theorem setCur_guarded (s : State) (op : FrameOp) : (setCur s op).guarded = s.guarded := by rfl
@[simp] theorem setGov_guarded (s : State) (g : Gov) : (setGov s g).guarded = s.guarded := by rfl
@[simp] theorem setKnl_guarded (s : State) (k : Knl) : (setKnl s k).guarded = s.guarded := by rfl
@[simp] theorem setSnp_guarded (s : State) (n : Snp) : (setSnp s n).guarded = s.guarded := by rfl
@[simp] theorem setShp_guarded (s : State) (h : Shp) : (setShp s h).guarded = s.guarded := by rfl
@[simp] theorem setTim_guarded (s : State) (t : Tim) : (setTim s t).guarded = s.guarded := by rfl
@[simp] theorem setNorm_guarded (s : State) (e : Nat) (x : NormEntry) : (setNorm s e x).guarded = s.guarded := by rfl
@[simp] theorem setRestore_guarded (s : State) (x : Option Restore) : (setRestore s x).guarded = s.guarded := by rfl
@[simp] theorem setLaunch_guarded (s : State) (l : BitVec 48) : (setLaunch s l).guarded = s.guarded := by rfl
@[simp] theorem setDieCursor_guarded (s : State) (c : BitVec 19) : (setDieCursor s c).guarded = s.guarded := by rfl
@[simp] theorem setSideCursor_guarded (s : State) (c : BitVec 19) : (setSideCursor s c).guarded = s.guarded := by rfl
@[simp] theorem setSec_guarded (s : State) (c : Sec) : (setSec s c).guarded = (c.owner, c.svn) := by rfl
@[simp] theorem setFwSlot_guarded (s : State) (i : Nat) (x : FwSlot) : (setFwSlot s i x).guarded = s.guarded := by rfl


/-- The owner and the counters of whichever state a condition chooses. -/
@[simp] theorem guarded_ite (c : Prop) [Decidable c] (a b : State) :
    (if c then a else b).guarded = if c then a.guarded else b.guarded :=
  apply_ite State.guarded c a b

/-- A fold over a larger value keeps the owner and the counters of the state in it where each of its steps does. -/
theorem foldl_state_guarded {α β : Type} {f : β → α → β} (st : β → State) (hf : ∀ r x, (st (f r x)).guarded = (st r).guarded)
    (xs : List α) (r : β) : (st (xs.foldl f r)).guarded = (st r).guarded := by
  induction xs generalizing r with
  | nil => rfl
  | cons x xs ih => rw [List.foldl_cons, ih, hf]

/-- A fold of state changes that each keep the owner and the counters keeps them. -/
@[simp] theorem foldl_guarded {α : Type} {f : State → α → State} (hf : ∀ s x, (f s x).guarded = s.guarded) (xs : List α) (s : State) :
    (xs.foldl f s).guarded = s.guarded :=
  foldl_state_guarded id hf xs s

/-! ## Memory, power domains and strands -/

@[simp] theorem clearHbm_guarded (s : State) : (clearHbm s).guarded = s.guarded := by rfl

@[simp] theorem startRamps_guarded (s : State) : (startRamps s).guarded = s.guarded := by rfl

@[simp] theorem requestDomains_guarded (s : State) (m : BitVec 50) : (requestDomains s m).guarded = s.guarded := by rfl

@[simp] theorem gateDomains_guarded (s : State) (m : BitVec 50) : (gateDomains s m).guarded = s.guarded := by rfl

@[simp] theorem protectPage_guarded (s : State) (a : Nat) : (protectPage s a).guarded = s.guarded := by
  unfold protectPage
  repeat' split
  all_goals simp

@[simp] theorem protect_guarded (s : State) (a len : Nat) : (protect s a len).guarded = s.guarded := by simp [protect]

@[simp] theorem hbmWrite_guarded (s : State) (a : Nat) (b : Bytes) : (hbmWrite s a b).guarded = s.guarded := by simp [hbmWrite]

@[simp] theorem locWrite_guarded (s : State) (l : Nat) (b : Bytes) : (locWrite s l b).guarded = s.guarded := by simp [locWrite]

@[simp] theorem setHold_guarded (s : State) (n : Nat) (h : BitVec 4) : (setHold s n h).guarded = s.guarded := by rfl

@[simp] theorem draw_guarded (s : State) : (draw s).2.guarded = s.guarded := by rfl

/-! ## Status and sending over the Tether -/

@[simp] theorem snapshot_guarded (s : State) : (snapshot s).2.guarded = s.guarded := by rfl

@[simp] theorem tetBulk_guarded (s : State) (l : Nat) (b : TBody) : (tetBulk s l b).guarded = s.guarded := by rfl

@[simp] theorem notify_guarded (s : State) (reason : Reason) (code : Nat) : (notify s reason code).guarded = s.guarded := by
  simp only [notify]
  split <;> simp

@[simp] theorem sendHeld_guarded (s : State) : (sendHeld s).guarded = s.guarded := by
  simp only [sendHeld]
  split
  · rw [foldl_guarded fun _ _ => tetSend_guarded ..]
    rfl
  · rfl

/-! ## Codes and SYS_STATE -/

@[simp] theorem setEvent_guarded (s : State) (u : EvUnit) (b : Nat) : (setEvent s u b).guarded = s.guarded := by
  unfold setEvent
  split <;> simp

@[simp] theorem countCode_guarded (s : State) (code : Nat) : (countCode s code).guarded = s.guarded := by
  unfold countCode
  split <;> simp

@[simp] theorem storeRec_guarded (s : State) (r : TRec) : (storeRec s r).guarded = s.guarded := by simp [storeRec]

@[simp] theorem techCode_guarded (s : State) (code : Word) : (techCode s code).guarded = s.guarded := by rfl

@[simp] theorem shepherdRecord_guarded (s : State) (code : Nat) (eff : Effect) (detail : Bytes) :
    (shepherdRecord s code eff detail).guarded = s.guarded := by
  simp [shepherdRecord]

@[simp] theorem raise_guarded (s : State) (code : Nat) (eff : Effect) (detail : Bytes) : (raise s code eff detail).guarded = s.guarded := by
  unfold raise
  split <;> simp

@[simp] theorem raiseSev_guarded (s : State) (code sev : Nat) (detail : Bytes) : (raiseSev s code sev detail).guarded = s.guarded := by
  unfold raiseSev
  split <;> simp

@[simp] theorem raiseAll_guarded (s : State) (cs : List (Nat × Effect × Bytes)) : (raiseAll s cs).guarded = s.guarded := by simp [raiseAll]

@[simp] theorem issueFault_guarded (s : State) (n : Nat) : (issueFault s n).guarded = s.guarded := by simp [issueFault]

@[simp] theorem refuse_guarded (s : State) (n code : Nat) : (refuse s n code).guarded = s.guarded := by simp [refuse]

@[simp] theorem sysChange_guarded (s : State) (st : DevState) (degraded drill replace : Bool) :
    (sysChange s st degraded drill replace).guarded = s.guarded := by
  simp [sysChange]

@[simp] theorem goState_guarded (s : State) (st : DevState) : (goState s st).guarded = s.guarded := by simp [goState]

@[simp] theorem endDrill_guarded (s : State) : (endDrill s).guarded = s.guarded := by simp [endDrill]

@[simp] theorem drillHandled_guarded (s : State) (k : Nat) : (drillHandled s k).guarded = s.guarded := by simp [drillHandled]

@[simp] theorem discardProgram_guarded (s : State) : (discardProgram s).guarded = s.guarded := by rfl

@[simp] theorem loadResult_guarded (s : State) (code detail : Nat) : (loadResult s code detail).guarded = s.guarded := by simp [loadResult]

@[simp] theorem failLoad_guarded (s : State) : (failLoad s).guarded = s.guarded := by simp [failLoad]

/-! ## Decode, token waits, signals and the common opcodes -/

@[simp] theorem decodeFault_guarded (s : State) (n op code : Nat) : (decodeFault s n op code).guarded = s.guarded := by simp [decodeFault]

@[simp] theorem instructionDecode_guarded (s : State) (n : Nat) : (instructionDecode s n).guarded = s.guarded := by
  simp only [instructionDecode]
  repeat' split
  all_goals simp

@[simp] theorem tokenWaitSatisfied_guarded (s : State) (n : Nat) : (tokenWaitSatisfied s n).guarded = s.guarded := by
  simp [tokenWaitSatisfied]

@[simp] theorem applyToken_guarded (sigs : List Signal) (s : State) (t : Nat) : (applyToken sigs s t).guarded = s.guarded := by
  simp only [applyToken]
  split
  · rfl
  · rw [raise_guarded, foldl_guarded fun _ _ => stopStrand_guarded ..]

@[simp] theorem applySignals_guarded (s : State) (sigs : List Signal) : (applySignals s sigs).guarded = s.guarded := by simp [applySignals]

@[simp] theorem countDone_guarded (s : State) (n : Nat) : (countDone s n).guarded = s.guarded := by simp [countDone]

@[simp] theorem ranPast_guarded (s : State) (n idx : Nat) : (ranPast s n idx).guarded = s.guarded := by simp [ranPast]

@[simp] theorem nopStrand_guarded (s : State) (n : Nat) : (nopStrand s n).guarded = s.guarded := by simp [nopStrand]

@[simp] theorem stepStrand_guarded (s : State) (n : Nat) : (stepStrand s n).guarded = s.guarded := by simp [stepStrand]

@[simp] theorem endStrand_guarded (s : State) (n : Nat) : (endStrand s n).guarded = s.guarded := by simp [endStrand]

/-! ## Sending on a lead, the replace request and keys -/

@[simp] theorem leadSend_guarded (s : State) (i : Nat) (b : TxBody) : (leadSend s i b).guarded = s.guarded := by simp [leadSend]

@[simp] theorem leadSendAll_guarded (s : State) (is : List Nat) (b : TxBody) : (leadSendAll s is b).guarded = s.guarded := by
  simp [leadSendAll]

@[simp] theorem leadRecv_guarded (s : State) (i : Nat) (seq : BitVec 64) : (leadRecv s i seq).guarded = s.guarded := by rfl

@[simp] theorem freeBuffers_guarded (s : State) (i c n : Nat) : (freeBuffers s i c n).guarded = s.guarded := by simp [freeBuffers]

@[simp] theorem onKept_guarded (s : State) (a : Arrival) (f : State → State) (hf : ∀ t, (f t).guarded = t.guarded) :
    (onKept s a f).guarded = s.guarded := by
  simp [onKept, hf]

@[simp] theorem onLead_guarded (s : State) (a : Arrival) (c : Nat) (f : State → State) (hf : ∀ t, (f t).guarded = t.guarded) :
    (onLead s a c f).guarded = s.guarded := by
  simp [onLead, hf]

@[simp] theorem linkFreed_guarded (s : State) (i : Nat) : (linkFreed s i).guarded = s.guarded := by simp [linkFreed]

@[simp] theorem onLink_guarded (s : State) (a : Arrival) (f : State → State) (hf : ∀ t, (f t).guarded = t.guarded) :
    (onLink s a f).guarded = s.guarded := by
  simp [onLink, hf]

@[simp] theorem dropLeadKeys_guarded (s : State) : (dropLeadKeys s).guarded = s.guarded := by rfl

@[simp] theorem degrade_guarded (s : State) (fresh : Bool) : (degrade s fresh).guarded = s.guarded := by simp [degrade]

@[simp] theorem degradeTether_guarded (s : State) : (degradeTether s).guarded = s.guarded := by simp [degradeTether]

@[simp] theorem degradeLead_guarded (s : State) : (degradeLead s).guarded = s.guarded := by simp [degradeLead]

/-! ## What a read captures -/

@[simp] theorem dieTouch_guarded (s : State) (addr : Nat) : (dieTouch s addr).guarded = s.guarded := by
  unfold dieTouch
  split <;> simp

@[simp] theorem shpTouch_guarded (s : State) (off : Nat) : (shpTouch s off).guarded = s.guarded := by
  unfold shpTouch
  split <;> simp

/-! ## Frames of a Tether link -/

@[simp] theorem onTether_guarded (s : State) (l : Nat) (f : State → State) (hf : ∀ t, (f t).guarded = t.guarded) :
    (onTether s l f).guarded = s.guarded := by
  simp [onTether, hf]

@[simp] theorem addRetry_guarded (s : State) (l n : Nat) : (addRetry s l n).guarded = s.guarded := by rfl

@[simp] theorem resendFrom_guarded (s : State) (l : Nat) (shp : Bool) (seq : BitVec 64) : (resendFrom s l shp seq).guarded = s.guarded := by
  simp [resendFrom]

@[simp] theorem tetRecv_guarded (s : State) (l : Nat) (shp : Bool) : (tetRecv s l shp).guarded = s.guarded := by rfl

@[simp] theorem moveFrame_guarded (s : State) (l : Nat) (shp : Bool) (b : TBody) : (moveFrame s l shp b).guarded = s.guarded := by
  unfold moveFrame
  repeat' split
  all_goals simp

@[simp] theorem moveFrames_guarded (s : State) (l : Nat) (shp : Bool) (fs : List (BitVec 64 × TBody)) :
    (moveFrames s l shp fs).guarded = s.guarded := by
  simp [moveFrames]

@[simp] theorem moveBulk_guarded (s : State) (l : Nat) (bs : List TBody) : (moveBulk s l bs).guarded = s.guarded := by simp [moveBulk]

@[simp] theorem loseTether_guarded (s : State) (l : Nat) : (loseTether s l).guarded = s.guarded := by simp [loseTether]

@[simp] theorem tetherFrameReject_guarded (s : State) (l : Nat) (shp : Bool) (seq : BitVec 64) (tagFailed : Bool) :
    (tetherFrameReject s l shp seq tagFailed).guarded = s.guarded := by
  simp [tetherFrameReject]

@[simp] theorem wrongLength_guarded (s : State) (l : Nat) (shp : Bool) : (wrongLength s l shp).guarded = s.guarded := by simp [wrongLength]

@[simp] theorem tetherNak_guarded (s : State) (l : Nat) (shp : Bool) (seq : BitVec 64) : (tetherNak s l shp seq).guarded = s.guarded := by
  simp [tetherNak]

@[simp] theorem tetherAckTimeout_guarded (s : State) (l : Nat) (shp : Bool) : (tetherAckTimeout s l shp).guarded = s.guarded := by
  refine onTether_guarded s l _ fun t => ?_
  split
  · rfl
  · exact resendFrom_guarded ..

@[simp] theorem tetherAck_guarded (s : State) (l : Nat) (shp : Bool) (seq : BitVec 64) : (tetherAck s l shp seq).guarded = s.guarded :=
  onTether_guarded s l _ fun _ => rfl

/-! ## Requests and reads -/

@[simp] theorem refuseReq_guarded (s : State) (r : Req) (k : ReqKind) (code : Nat) (detail : Bytes) :
    (refuseReq s r k code detail).guarded = s.guarded := by
  simp [refuseReq]

@[simp] theorem done_guarded (s : State) (r : Req) (k : ReqKind) (payload : Bytes) : (done s r k payload).guarded = s.guarded := by rfl

@[simp] theorem notAvailable_guarded (s : State) (r : Req) (k : ReqKind) : (notAvailable s r k).guarded = s.guarded := by
  simp [notAvailable]

@[simp] theorem request_guarded (s : State) (r : Req) (k : ReqKind) (f : State → State) (hf : ∀ t, (f t).guarded = t.guarded) :
    (request s r k f).guarded = s.guarded := by
  simp [request, hf]

@[simp] theorem bulk_guarded (s : State) (l : Nat) (f : State → State) (hf : ∀ t, (f t).guarded = t.guarded) :
    (bulk s l f).guarded = s.guarded := by
  simp [bulk, hf]

@[simp] theorem shepherdStatus_guarded (s : State) (r : Req) : (shepherdStatus s r).guarded = s.guarded := by simp [shepherdStatus]

@[simp] theorem statusRead_guarded (s : State) (r : Req) : (statusRead s r).guarded = s.guarded := by simp [statusRead]

@[simp] theorem readWords_guarded (file : State → Nat → Option Nat) (touch : State → Nat → State) (n : Nat) (s : State) (addr : Nat)
    (htouch : ∀ t x, (touch t x).guarded = t.guarded) :
    (readWords file touch n s addr).2.2.guarded = s.guarded := by
  induction n generalizing s addr with
  | zero => rfl
  | succ n ih =>
    simp only [readWords]
    split
    · rfl
    · simp [ih, htouch]

@[simp] theorem serveRead_guarded (s : State) (r : Req) (k : ReqKind) (file : State → Nat → Option Nat) (touch : State → Nat → State)
    (addr n : Nat) (htouch : ∀ t x, (touch t x).guarded = t.guarded) :
    (serveRead s r k file touch addr n).guarded = s.guarded := by
  refine request_guarded s r k _ fun t => ?_
  have ht := readWords_guarded file touch n t addr htouch
  split
  · exact refuseReq_guarded ..
  · split <;> rename_i h <;> rw [h] at ht <;> simpa using ht

@[simp] theorem shpFileTouch_guarded (s : State) (addr : Nat) : (shpFileTouch s addr).guarded = s.guarded := shpTouch_guarded ..

@[simp] theorem sideRead_guarded (s : State) (r : Req) (addr : Nat) : (sideRead s r addr).guarded = s.guarded := by simp [sideRead]

@[simp] theorem reservedMessage_guarded (s : State) (r : Req) (type : Nat) : (reservedMessage s r type).guarded = s.guarded := by
  simp [reservedMessage]

/-! ## The Edge -/

@[simp] theorem redUpdate_guarded (s : State) (a : Nat) (init : Bool) (xs : List Fv) : (redUpdate s a init xs).1.guarded = s.guarded := by
  simp only [redUpdate]
  repeat' split
  all_goals simp

@[simp] theorem redUpdates_guarded (s : State) (base : Nat) (init : Bool) (xs : List (Nat × List Fv)) :
    (redUpdates s base init xs).1.guarded = s.guarded := by
  induction xs generalizing s with
  | nil => rfl
  | cons x xs ih => simp [redUpdates, ih]

@[simp] theorem summaryUpdate_guarded (s : State) (a : Nat) (init : Bool) (vs : List Fv) :
    (summaryUpdate s a init vs).guarded = s.guarded := by
  rfl

@[simp] theorem countUpdate_guarded (s : State) (a : Nat) (init : Bool) (k : DrainCnt) (exc : Bool) (cycles outWait throttle : Nat) :
    (countUpdate s a init k exc cycles outWait throttle).guarded = s.guarded := by
  rfl

@[simp] theorem outHold_guarded (s : State) (waits : Bool) : (outHold s waits).guarded = s.guarded := by rfl

@[simp] theorem drainBegin_guarded (s : State) (op : EdgeOp) : (drainBegin s op).guarded = s.guarded := by
  simp only [drainBegin]
  split <;> simp

@[simp] theorem drainIssue_guarded (s : State) : (drainIssue s).guarded = s.guarded := by
  simp only [drainIssue]
  repeat' split
  all_goals simp

@[simp] theorem drainSlotReady_guarded (s : State) : (drainSlotReady s).guarded = s.guarded := by
  unfold drainSlotReady
  split <;> simp

@[simp] theorem edgeJob_guarded (s : State) (k : DrainCnt) : (edgeJob s k).guarded = s.guarded := by rfl

@[simp] theorem raiseSevs_guarded (s : State) (cs : List (Nat × Nat)) : (raiseSevs s cs).guarded = s.guarded := by simp [raiseSevs]

@[simp] theorem drainWrite_guarded (s : State) (op : EdgeOp) (k : Slot) (run : DrainRun) (exc : Bool) (outWait throttle : Nat) :
    (drainWrite s op k run exc outWait throttle).guarded = s.guarded := by
  simp only [drainWrite]
  repeat' split
  all_goals simp

@[simp] theorem drainStop_guarded (s : State) (op : EdgeOp) : (drainStop s op).guarded = s.guarded := by rfl

@[simp] theorem drainLastRow_guarded (s : State) (outWait throttle : Nat) : (drainLastRow s outWait throttle).guarded = s.guarded := by
  unfold drainLastRow
  split <;> simp

@[simp] theorem sweepCodes_guarded (s : State) (k : DrainCnt) : (sweepCodes s k).guarded = s.guarded := by simp [sweepCodes]

@[simp] theorem sweepIssue_guarded (s : State) (throttle : Nat) : (sweepIssue s throttle).guarded = s.guarded := by
  simp only [sweepIssue]
  repeat' split
  all_goals simp

@[simp] theorem edgeComplete_guarded (s : State) : (edgeComplete s).guarded = s.guarded := by
  unfold edgeComplete
  repeat' split
  all_goals simp

/-! ## The Fetch engines -/

@[simp] theorem writeRows_guarded (s : State) (loc pitch row rows : Nat) (b : Bytes) :
    (writeRows s loc pitch row rows b).guarded = s.guarded := by
  simp [writeRows]

@[simp] theorem issueFetch_guarded (s : State) (n : Nat) (d : Bytes) : (issueFetch s n d).guarded = s.guarded := by rfl

@[simp] theorem copyIssue_guarded (s : State) (n : Nat) : (copyIssue s n).guarded = s.guarded := by simp [copyIssue]

@[simp] theorem feedIssue_guarded (s : State) (n : Nat) : (feedIssue s n).guarded = s.guarded := by simp [feedIssue]

@[simp] theorem writeoutIssue_guarded (s : State) (n : Nat) : (writeoutIssue s n).guarded = s.guarded := by simp [writeoutIssue]

@[simp] theorem fetchComplete_guarded (s : State) (n : Nat) (w : BitVec 128) : (fetchComplete s n w).guarded = s.guarded := by
  simp [fetchComplete]

/-! ## The Rods -/

@[simp] theorem rodsIssue_guarded (s : State) (c op : Nat) (refusal : State → BitVec 128 → Option Nat) (eff : State → BitVec 128 → State)
    (heff : ∀ t x, (eff t x).guarded = t.guarded) :
    (rodsIssue s c op refusal eff).guarded = s.guarded := by
  simp only [rodsIssue]
  repeat' split
  all_goals simp [heff]

@[simp] theorem onLocal_guarded (c : Nat) (f : Mem → BitVec 128 → Mem) (s : State) (w : BitVec 128) :
    (onLocal c f s w).guarded = s.guarded := by
  rfl

@[simp] theorem map2_guarded (c : Nat) (f : Nat → Nat → Nat → Nat) (s : State) (w : BitVec 128) : (map2 c f s w).guarded = s.guarded := by
  rfl

@[simp] theorem map1_guarded (c : Nat) (f : Nat → Nat → Nat) (s : State) (w : BitVec 128) : (map1 c f s w).guarded = s.guarded := by rfl

@[simp] theorem intOp2_guarded (s : State) (c op : Nat) (f : Nat → Nat → Nat → Nat) : (intOp2 s c op f).guarded = s.guarded := by
  simp [intOp2]

@[simp] theorem intOp1_guarded (s : State) (c op : Nat) (f : Nat → Nat → Nat) : (intOp1 s c op f).guarded = s.guarded := by simp [intOp1]

@[simp] theorem selIssue_guarded (s : State) (c : Nat) : (selIssue s c).guarded = s.guarded := by simp [selIssue]

@[simp] theorem checkWritten_guarded (s : State) (chk : Bool) (n : Nat) : (checkWritten s chk n).guarded = s.guarded := by
  simp [checkWritten]

@[simp] theorem floatEff_guarded (c : Nat) (f : Word → Word → Word → Word) (s : State) (w : BitVec 128) :
    (floatEff c f s w).guarded = s.guarded := by
  simp [floatEff]

@[simp] theorem floatOp_guarded (s : State) (c op srcs : Nat) (f : Word → Word → Word → Word) :
    (floatOp s c op srcs f).guarded = s.guarded := by
  simp [floatOp]

@[simp] theorem cvtIssue_guarded (s : State) (c : Nat) : (cvtIssue s c).guarded = s.guarded := by simp [cvtIssue]

@[simp] theorem mapIssue_guarded (s : State) (c : Nat) : (mapIssue s c).guarded = s.guarded := by simp [mapIssue]

@[simp] theorem fnOp_guarded (s : State) (c op : Nat) (f : Word → Word) : (fnOp s c op f).guarded = s.guarded := by simp [fnOp]

@[simp] theorem dualIssue_guarded (s : State) (c op act : Nat) (f : Config.Fn) : (dualIssue s c op act f).guarded = s.guarded := by
  simp [dualIssue]

@[simp] theorem loadIssue_guarded (s : State) (c : Nat) : (loadIssue s c).guarded = s.guarded := by
  simp only [loadIssue]
  repeat' split
  all_goals simp

@[simp] theorem loadDone_guarded (s : State) (c : Nat) (w : BitVec 128) : (loadDone s c w).guarded = s.guarded := by simp [loadDone]

@[simp] theorem storeIssue_guarded (s : State) (c : Nat) : (storeIssue s c).guarded = s.guarded := by simp [storeIssue]

@[simp] theorem storeDone_guarded (s : State) (c : Nat) (w : BitVec 128) : (storeDone s c w).guarded = s.guarded := by simp [storeDone]

@[simp] theorem indexCheck_guarded (s : State) (idx : List Nat) (len : Nat) : (indexCheck s idx len).guarded = s.guarded := by
  simp [indexCheck]

@[simp] theorem gatherIssue_guarded (s : State) (c : Nat) : (gatherIssue s c).guarded = s.guarded := by simp [gatherIssue]

@[simp] theorem gatherDone_guarded (s : State) (c : Nat) (w : BitVec 128) : (gatherDone s c w).guarded = s.guarded := by simp [gatherDone]

@[simp] theorem scatterDone_guarded (s : State) (c : Nat) (w : BitVec 128) (f : Nat → Nat → Nat) :
    (scatterDone s c w f).guarded = s.guarded := by
  simp [scatterDone]

@[simp] theorem setTposeReq_guarded (s : State) (c : Nat) (on : Bool) : (setTposeReq s c on).guarded = s.guarded := by rfl

@[simp] theorem tposeIssue_guarded (s : State) (c : Nat) : (tposeIssue s c).guarded = s.guarded := by simp [tposeIssue]

@[simp] theorem tposeDone_guarded (s : State) (c : Nat) (w : BitVec 128) : (tposeDone s c w).guarded = s.guarded := by
  have hrows : ∀ (s : State) (l : Nat → Nat) (b : Nat → Bytes) (n : Nat),
      ((List.range n).foldl (fun s i => locWrite s (l i) (b i)) s).guarded = s.guarded :=
    fun s l b n => foldl_guarded (fun _ _ => locWrite_guarded ..) _ _
  simp only [tposeDone, setTposeReq_guarded]
  split
  · exact hrows ..
  · exact (locWrite_guarded ..).trans (hrows ..)

@[simp] theorem sortIssue_guarded (s : State) (c : Nat) : (sortIssue s c).guarded = s.guarded := by simp [sortIssue]

@[simp] theorem hash64Issue_guarded (s : State) (c : Nat) : (hash64Issue s c).guarded = s.guarded := by simp [hash64Issue]

@[simp] theorem lenCheck_guarded (s : State) (m : Mem) (n : Nat) (lens : List Nat) : (lenCheck s m n lens).guarded = s.guarded := by
  simp only [lenCheck]
  split <;> simp

@[simp] theorem hashstrIssue_guarded (s : State) (c : Nat) : (hashstrIssue s c).guarded = s.guarded := by simp [hashstrIssue]

@[simp] theorem minhashIssue_guarded (s : State) (c : Nat) : (minhashIssue s c).guarded = s.guarded := by simp [minhashIssue]

@[simp] theorem pairIssue_guarded (s : State) (c op : Nat) (f : Bytes → Bytes → Nat) : (pairIssue s c op f).guarded = s.guarded := by
  simp [pairIssue]

@[simp] theorem normIssue_guarded (s : State) (c : Nat) : (normIssue s c).guarded = s.guarded := by simp [normIssue]

@[simp] theorem normDone_guarded (s : State) (c : Nat) (w : BitVec 128) : (normDone s c w).guarded = s.guarded := by rfl

@[simp] theorem normrdIssue_guarded (s : State) (c : Nat) : (normrdIssue s c).guarded = s.guarded :=
  rodsIssue_guarded s c 0x71 _ _ fun _ _ => rfl

@[simp] theorem normclrIssue_guarded (s : State) (c : Nat) : (normclrIssue s c).guarded = s.guarded :=
  rodsIssue_guarded s c 0x72 _ _ fun _ _ => setNorm_guarded ..

@[simp] theorem rodsComplete_guarded (s : State) (c : Nat) (w : BitVec 128) : (rodsComplete s c w).guarded = s.guarded := by
  unfold rodsComplete
  split <;> simp

/-! ## OPT and the ratio watch -/

@[simp] theorem hbmPut_guarded (s : State) (k : Nat) (xs : List (Nat × Nat)) : (hbmPut s k xs).guarded = s.guarded := by simp [hbmPut]

@[simp] theorem optWriteRow_guarded (s : State) (b : Bytes) (r : Nat) (x : OptRow) (old : List Word) :
    (optWriteRow s b r x old).guarded = s.guarded := by
  simp [optWriteRow]

@[simp] theorem optMaps_guarded (s : State) (b : Bytes) (row0 rows : Nat) : (optMaps s b row0 rows).guarded = s.guarded := by simp [optMaps]

@[simp] theorem optEff_guarded (s : State) (d : Bytes) (w : BitVec 128) : (optEff s d w).guarded = s.guarded := by
  simp only [optEff, guarded_ite, raise_guarded, optMaps_guarded, ite_self]
  exact foldl_state_guarded Prod.fst (fun _ _ => optWriteRow_guarded ..) _ _

@[simp] theorem optIssue_guarded (s : State) (c : Nat) : (optIssue s c).guarded = s.guarded := by simp [optIssue]

@[simp] theorem optDone_guarded (s : State) (c : Nat) (w : BitVec 128) : (optDone s c w).guarded = s.guarded := by simp [optDone]

@[simp] theorem ratioWrite_guarded (s : State) (layer marker : Nat) (r : RatioEntry) :
    (ratioWrite s layer marker r).guarded = s.guarded := by
  simp [ratioWrite]

@[simp] theorem watchLayer_guarded (marker : Nat) (acc : State × WatchSum) (b : Bytes) :
    (watchLayer marker acc b).1.guarded = acc.1.guarded := by
  simp only [watchLayer]
  split <;> simp

@[simp] theorem ratioWatch_guarded (s : State) : (ratioWatch s).1.guarded = s.guarded := by
  simp only [ratioWatch]
  refine (foldl_guarded (fun _ _ => raiseSev_guarded ..) _ _).trans ?_
  exact foldl_state_guarded Prod.fst (fun _ _ => watchLayer_guarded ..) _ _

/-! ## Loading -/

@[simp] theorem refuseLoad_guarded (s : State) (r : Req) (k : ReqKind) (code : Nat) : (refuseLoad s r k code).guarded = s.guarded := by
  simp [refuseLoad]

@[simp] theorem loadBegin_guarded (s : State) (r : Req) (jobId imageBytes : BitVec 64) :
    (loadBegin s r jobId imageBytes).guarded = s.guarded := by
  simp [loadBegin]

@[simp] theorem loadData_guarded (s : State) (link : Nat) (offset : BitVec 64) (b : Bytes) :
    (loadData s link offset b).guarded = s.guarded := by
  simp [loadData]

@[simp] theorem loadEnd_guarded (s : State) (r : Req) : (loadEnd s r).guarded = s.guarded := by simp [loadEnd]

@[simp] theorem acceptImage_guarded (s : State) (im : Bytes) : (acceptImage s im).guarded = s.guarded := by rfl

@[simp] theorem loadCheck_guarded (s : State) : (loadCheck s).guarded = s.guarded := by
  simp only [loadCheck]
  repeat' split
  all_goals simp

/-! ## The Frame -/

@[simp] theorem matmulIssue_guarded (s : State) : (matmulIssue s).guarded = s.guarded := by
  simp only [matmulIssue]
  repeat' split
  all_goals simp

@[simp] theorem frameRefuse_guarded (s : State) (op : FrameOp) (code : Nat) : (frameRefuse s op code).guarded = s.guarded := by
  simp [frameRefuse]

@[simp] theorem seatChunk_guarded (s : State) (waited : Nat) : (seatChunk s waited).guarded = s.guarded := by
  simp only [seatChunk]
  split <;> simp

@[simp] theorem rowGroupBegin_guarded (s : State) (waited : Nat) : (rowGroupBegin s waited).guarded = s.guarded := by
  unfold rowGroupBegin
  split <;> simp

@[simp] theorem recountStart_guarded (s : State) : (recountStart s).guarded = s.guarded := by rfl

@[simp] theorem windowEnd_guarded (s : State) : (windowEnd s).guarded = s.guarded := by simp [windowEnd]

@[simp] theorem tileBegins_guarded (s : State) : (tileBegins s).2.guarded = s.guarded := by simp [tileBegins]

@[simp] theorem beginSlot_guarded (s : State) (op : FrameOp) (t : TileRun) : (beginSlot s op t).guarded = s.guarded := by rfl

@[simp] theorem raiseTile_guarded (s : State) (codes : List Nat) : (raiseTile s codes).guarded = s.guarded := by simp [raiseTile]

@[simp] theorem storeTile_guarded (s : State) (k : Nat) (out : TileOut) : (storeTile s k out).guarded = s.guarded := by simp [storeTile]

@[simp] theorem streamTiles_guarded (op : FrameOp) (chunk : Nat) (bseg : Bytes) (fs : List CarryFault) (ra pos : Nat) (s : State)
    (ts : List TileRun) :
    (streamTiles op chunk bseg fs ra pos s ts).2.1.guarded = s.guarded := by
  induction ts generalizing pos s with
  | nil => rfl
  | cons t ts ih =>
    simp only [streamTiles]
    repeat' split
    all_goals simp [ih]

@[simp] theorem clearReplay_guarded (s : State) : (clearReplay s).guarded = s.guarded := by rfl

@[simp] theorem passDone_guarded (s : State) (op : FrameOp) (tiles : List TileRun) : (passDone s op tiles).guarded = s.guarded := by
  simp [passDone]

@[simp] theorem passBegin_guarded (s : State) (feedWait seatWait throttle : Nat) (faults : List CarryFault) :
    (passBegin s feedWait seatWait throttle faults).guarded = s.guarded := by
  simp only [passBegin]
  repeat' split
  all_goals simp

@[simp] theorem replayChunk_guarded (op : FrameOp) (chunk : Nat) (fs : List CarryFault) (pos : Nat) (s : State) (ts : List TileRun) :
    (replayChunk op chunk fs pos s ts).2.1.guarded = s.guarded := by
  induction ts generalizing pos s with
  | nil => rfl
  | cons t ts ih =>
    simp only [replayChunk]
    generalize sourcePass s op false t chunk _ fs pos = out
    split
    · exact storeTile_guarded ..
    · simp [ih]

@[simp] theorem replayGroup_guarded (s : State) (op : FrameOp) (fs : List CarryFault) (ts : List TileRun) :
    (replayGroup s op fs ts).2.1.guarded = s.guarded := by
  refine foldl_state_guarded (fun (r : List TileRun × State × Bool) => r.2.1) (fun r c => ?_) _ _
  split
  · rfl
  · exact replayChunk_guarded ..

@[simp] theorem stepBackReplay_guarded (s : State) (throttle : Nat) (faults : List CarryFault) :
    (stepBackReplay s throttle faults).guarded = s.guarded := by
  unfold stepBackReplay
  split
  · rfl
  · split
    · rfl
    · simp only
      split
      · rfl
      · split
        · exact (foldl_guarded (fun _ _ => raise_guarded ..) _ _).trans ((stopStrand_guarded ..).trans (setCur_guarded ..))
        · split
          · rfl
          · simp only [guarded_ite, stopStrand_guarded, setCur_guarded, guarded_mk, guarded_eta, setEvent_guarded, replayGroup_guarded,
              ite_self]
            exact foldl_guarded (fun _ _ => setSlot_guarded ..) _ _

@[simp] theorem lastCarryWritten_guarded (s : State) : (lastCarryWritten s).guarded = s.guarded := by
  unfold lastCarryWritten
  repeat' split
  all_goals try rfl
  simp only [clearReplay_guarded]
  rw [foldl_guarded fun _ _ => setSlot_guarded ..]
  rfl

@[simp] theorem enterNoWidth_guarded (s : State) : (enterNoWidth s).guarded = s.guarded := by
  simp only [enterNoWidth]
  repeat' split
  all_goals simp

@[simp] theorem retireStrip_guarded (s : State) (b : Nat) : (retireStrip s b).guarded = s.guarded := by simp [retireStrip]

@[simp] theorem useColumn_guarded (s : State) (p o : Nat) : (useColumn s p o).guarded = s.guarded := by simp [useColumn]

@[simp] theorem useRow_guarded (s : State) (b o : Nat) : (useRow s b o).guarded = s.guarded := by simp [useRow]

@[simp] theorem mapOutBead_guarded (s : State) (row col : Nat) : (mapOutBead s row col).guarded = s.guarded := by simp [mapOutBead]

@[simp] theorem mapOutColumn_guarded (s : State) (col : Nat) : (mapOutColumn s col).guarded = s.guarded := by simp [mapOutColumn]

@[simp] theorem mapOutRow_guarded (s : State) (row : Nat) : (mapOutRow s row).guarded = s.guarded := by simp [mapOutRow]

@[simp] theorem mapOutBeads_guarded (s : State) (failed : List (Fin 1040 × Fin 1040)) : (mapOutBeads s failed).guarded = s.guarded := by
  simp [mapOutBeads]

@[simp] theorem keepStrips_guarded (s : State) (ps : List Nat) : (keepStrips s ps).guarded = s.guarded := by rfl

@[simp] theorem recountReplay_guarded (s : State) (throttle : Nat) (faults : List CarryFault) :
    (recountReplay s throttle faults).guarded = s.guarded := by
  unfold recountReplay
  repeat' split
  all_goals simp

@[simp] theorem setDet_guarded (s : State) (op : FrameOp) (t : SelTile) (verdict row col : Nat) (clean : BitVec 64) :
    (setDet s op t verdict row col clean).guarded = s.guarded := by
  simp [setDet]

@[simp] theorem verdict_guarded (s : State) (op : FrameOp) (t : SelTile) (beadCycles : Nat) (d2 d3 : List Word)
    (failed : List (Fin 1040 × Fin 1040)) :
    (verdict s op t beadCycles d2 d3 failed).guarded = s.guarded := by
  simp only [verdict]
  repeat' split
  all_goals simp

@[simp] theorem classificationReplay_guarded (s : State) (beadCycles : Nat) (faults2 faults3 : List CarryFault)
    (failed : List (Fin 1040 × Fin 1040)) :
    (classificationReplay s beadCycles faults2 faults3 failed).guarded = s.guarded := by
  unfold classificationReplay
  repeat' split
  all_goals simp

@[simp] theorem beadTest_guarded (s : State) (failed : List (Fin 1040 × Fin 1040)) : (beadTest s failed).guarded = s.guarded := by
  simp [beadTest]

@[simp] theorem spareSubstitution_guarded (s : State) : (spareSubstitution s).guarded = s.guarded := by
  simp only [spareSubstitution]
  repeat' split
  all_goals simp

@[simp] theorem stripWake_guarded (s : State) (p : Nat) : (stripWake s p).guarded = s.guarded := by simp [stripWake]

@[simp] theorem frameComplete_guarded (s : State) : (frameComplete s).guarded = s.guarded := by
  unfold frameComplete
  split <;> simp

/-! ## Launch and round-up -/

@[simp] theorem toParent_guarded (s : State) (b : TxBody) : (toParent s b).guarded = s.guarded := by
  unfold toParent
  split <;> simp

@[simp] theorem disarm_guarded (s : State) : (disarm s).guarded = s.guarded := by simp [disarm]

@[simp] theorem cancelWith_guarded (s : State) (f : LaunchFrame) : (cancelWith s f).guarded = s.guarded := by simp [cancelWith]

@[simp] theorem cancelRoundUp_guarded (s : State) : (cancelRoundUp s).guarded = s.guarded := by simp [cancelRoundUp]

@[simp] theorem checkReady_guarded (s : State) : (checkReady s).guarded = s.guarded := by simp [checkReady]

@[simp] theorem keyLead_guarded (s : State) (i : Nat) : (keyLead s i).guarded = s.guarded := by
  unfold keyLead
  split <;> simp

@[simp] theorem acceptArm_guarded (s : State) (f : LaunchFrame) (way : Option Nat) : (acceptArm s f way).guarded = s.guarded := by
  simp only [acceptArm, checkReady_guarded]
  rw [foldl_guarded fun _ _ => keyLead_guarded .., leadSendAll_guarded, toParent_guarded, goState_guarded]
  rfl

@[simp] theorem refuseLaunch_guarded (s : State) (r : Req) (code : Nat) (eff : Effect) (detail : Nat) :
    (refuseLaunch s r code eff detail).guarded = s.guarded := by
  simp [refuseLaunch]

@[simp] theorem armAtRoot_guarded (s : State) (r : Req) (f : LaunchFrame) : (armAtRoot s r f).guarded = s.guarded := by
  unfold armAtRoot
  split <;> simp

@[simp] theorem commitAtRoot_guarded (s : State) (r : Req) (f : LaunchFrame) : (commitAtRoot s r f).guarded = s.guarded := by
  simp [commitAtRoot]

@[simp] theorem launch_guarded (s : State) (r : Req) (f : LaunchFrame) : (launch s r f).guarded = s.guarded := by
  unfold launch
  split <;> simp

@[simp] theorem dropAuth_guarded (s : State) : (dropAuth s).guarded = s.guarded := by simp [dropAuth]

@[simp] theorem ruArm_guarded (s : State) (a : Arrival) (f : LaunchFrame) : (ruArm s a f).guarded = s.guarded := by
  refine onLead_guarded s a 3 _ fun t => ?_
  split
  · exact dropAuth_guarded ..
  · split <;> simp

@[simp] theorem childReport_guarded (s : State) (a : Arrival) (m : RuReport) (f : State → State) (hf : ∀ t, (f t).guarded = t.guarded) :
    (childReport s a m f).guarded = s.guarded := by
  simp [childReport, hf]

@[simp] theorem childAck_guarded (s : State) (i : Nat) : (childAck s i).guarded = s.guarded := by rfl

@[simp] theorem ruArmack_guarded (s : State) (a : Arrival) (m : RuReport) : (ruArmack s a m).guarded = s.guarded := by simp [ruArmack]

@[simp] theorem ruReady_guarded (s : State) (a : Arrival) (m : RuReport) : (ruReady s a m).guarded = s.guarded := by simp [ruReady]

@[simp] theorem ruCommit_guarded (s : State) (a : Arrival) (f : LaunchFrame) : (ruCommit s a f).guarded = s.guarded := by simp [ruCommit]

@[simp] theorem ruCommitack_guarded (s : State) (a : Arrival) (m : RuReport) : (ruCommitack s a m).guarded = s.guarded := by
  simp [ruCommitack]

@[simp] theorem ruCancel_guarded (s : State) (a : Arrival) (f : LaunchFrame) : (ruCancel s a f).guarded = s.guarded := by simp [ruCancel]

@[simp] theorem ruAckTimeout_guarded (s : State) (i : Nat) : (ruAckTimeout s i).guarded = s.guarded := by simp [ruAckTimeout]

@[simp] theorem armDeadline_guarded (s : State) : (armDeadline s).guarded = s.guarded := by simp [armDeadline]

@[simp] theorem zeroCounters_guarded (s : State) : (zeroCounters s).guarded = s.guarded := by rfl

@[simp] theorem startStrands_guarded (s : State) : (startStrands s).guarded = s.guarded := by simp [startStrands]

@[simp] theorem zeroRatios_guarded (s : State) : (zeroRatios s).guarded = s.guarded := by
  unfold zeroRatios
  split
  · rfl
  · exact jobWrite_guarded ..

@[simp] theorem jobStart_guarded (s : State) : (jobStart s).guarded = s.guarded := by simp [jobStart]

@[simp] theorem launchTimeReached_guarded (s : State) : (launchTimeReached s).guarded = s.guarded := by simp [launchTimeReached]

/-! ## Snapshots and the mirror -/

@[simp] theorem sendNode_guarded (s : State) (bs : List TBody) : (sendNode s bs).guarded = s.guarded := by
  unfold sendNode
  split <;> simp

@[simp] theorem putGen_guarded (s : State) (i : Nat) (g : Option Gen) : (putGen s i g).guarded = s.guarded := by simp [putGen]

@[simp] theorem checkManifest_guarded (s : State) (i : Nat) (g : Gen) : (checkManifest s i g).guarded = s.guarded := by simp [checkManifest]

@[simp] theorem startMirror_guarded (s : State) (g : Gen) : (startMirror s g).guarded = s.guarded := by
  unfold startMirror
  repeat' split
  all_goals simp

@[simp] theorem takeGeneration_guarded (s : State) (w : BitVec 128) : (takeGeneration s w).guarded = s.guarded := by simp [takeGeneration]

@[simp] theorem stepSix_guarded (s : State) (extra : List Signal) : (stepSix s extra).guarded = s.guarded := by simp [stepSix]

@[simp] theorem snapWait_guarded (s : State) (w : BitVec 128) : (snapWait s w).guarded = s.guarded := by simp [snapWait]

@[simp] theorem runSnap_guarded (s : State) : (runSnap s).guarded = s.guarded := by simp [runSnap]

@[simp] theorem skipSnap_guarded (s : State) : (skipSnap s).guarded = s.guarded := by simp [skipSnap]

@[simp] theorem snap_guarded (s : State) : (snap s).guarded = s.guarded := by simp [snap]

@[simp] theorem fenceDone_guarded (s : State) : (fenceDone s).guarded = s.guarded := by
  unfold fenceDone
  split <;> simp

@[simp] theorem snapFence_guarded (s : State) : (snapFence s).guarded = s.guarded := by simp [snapFence]

@[simp] theorem holdEnds_guarded (s : State) (us : Nat) : (holdEnds s us).guarded = s.guarded := by simp [holdEnds]

@[simp] theorem untag_guarded (s : State) : (untag s).guarded = s.guarded := by rfl

@[simp] theorem abandon_guarded (s : State) (i : Nat) : (abandon s i).guarded = s.guarded := by simp [abandon]

@[simp] theorem pagePush_guarded (s : State) (page us : Nat) : (pagePush s page us).guarded = s.guarded := by
  unfold pagePush
  repeat' split
  all_goals simp

@[simp] theorem endShard_guarded (s : State) (g : Gen) (k : Nat) : (endShard s g k).1.guarded = s.guarded := by
  simp only [endShard]
  split <;> simp

@[simp] theorem sendStorage_guarded (s : State) (g : Gen) (p : Nat) (b : Bytes) : (sendStorage s g p b).1.guarded = s.guarded := by
  simp [sendStorage]

@[simp] theorem snapPageSend_guarded (s : State) : (snapPageSend s).guarded = s.guarded := by
  unfold snapPageSend
  repeat' split
  all_goals simp

@[simp] theorem endOfCopying_guarded (s : State) (us : Nat) : (endOfCopying s us).guarded = s.guarded := by
  unfold endOfCopying
  split <;> simp

@[simp] theorem ownStored_guarded (s : State) (ctx : BitVec 8) (k : Nat) : (ownStored s ctx k).guarded = s.guarded := by
  unfold ownStored
  split <;> simp

@[simp] theorem relayEnds_guarded (s : State) (m : Mirror) : (relayEnds s m).guarded = s.guarded := by simp [relayEnds]

@[simp] theorem relayStored_guarded (s : State) (ctx : BitVec 8) (k : Nat) : (relayStored s ctx k).guarded = s.guarded := by
  unfold relayStored
  split <;> simp

@[simp] theorem shardStored_guarded (s : State) (ctx : BitVec 8) (k : Nat) (relayed : Bool) :
    (shardStored s ctx k relayed).guarded = s.guarded := by
  simp [shardStored]

@[simp] theorem manifestStored_guarded (s : State) (ctx : BitVec 8) : (manifestStored s ctx).guarded = s.guarded := by
  unfold manifestStored
  split <;> simp

@[simp] theorem storageFailed_guarded (s : State) (ctx : BitVec 8) : (storageFailed s ctx).guarded = s.guarded := by
  unfold storageFailed
  split <;> simp

@[simp] theorem ckptTimeout_guarded (s : State) : (ckptTimeout s).guarded = s.guarded := by
  unfold ckptTimeout
  split <;> simp

@[simp] theorem mirrorBegin_guarded (s : State) (a : Arrival) (marker jobId bytes : BitVec 64) (position : BitVec 32) :
    (mirrorBegin s a marker jobId bytes position).guarded = s.guarded := by
  simp [mirrorBegin]

@[simp] theorem storeAll_guarded (s : State) (g : Gen) : (storeAll s g).guarded = s.guarded := by simp [storeAll]

@[simp] theorem mirrorBeginRefused_guarded (s : State) (a : Arrival) : (mirrorBeginRefused s a).guarded = s.guarded := by
  refine onLead_guarded s a 3 _ fun t => ?_
  split
  · rfl
  · simp

@[simp] theorem relayShard_guarded (s : State) (k n : Nat) : (relayShard s k n).guarded = s.guarded := by
  unfold relayShard
  split <;> simp

@[simp] theorem relayDone_guarded (s : State) (a : Arrival) (ds : List (Nat × BitVec 256)) : (relayDone s a ds).guarded = s.guarded := by
  refine onLead_guarded s a 3 _ fun t => ?_
  split
  · rfl
  · simp

@[simp] theorem partnerLost_guarded (fuel : Nat) (s : State) : (partnerLost fuel s).guarded = s.guarded := by
  induction fuel generalizing s with
  | zero => rfl
  | succ k ih =>
    unfold partnerLost
    split
    · rfl
    · simp [ih]

@[simp] theorem partnerLeadLost_guarded (s : State) (l : Nat) : (partnerLeadLost s l).guarded = s.guarded := by simp [partnerLeadLost]

@[simp] theorem pagesAcked_guarded (s : State) (ps : List Nat) : (pagesAcked s ps).guarded = s.guarded := by
  unfold pagesAcked
  split <;> simp

/-! ## Time -/

@[simp] theorem chooseMode_guarded (s : State) : (chooseMode s).guarded = s.guarded := by rfl

@[simp] theorem refBroken_guarded (s : State) (mag : ℤ) : (refBroken s mag).guarded = s.guarded := by simp [refBroken]

@[simp] theorem goodEdge_guarded (s : State) : (goodEdge s).guarded = s.guarded := by rfl

@[simp] theorem initCounter_guarded (s : State) (c : BitVec 48) (f : BitVec 32) : (initCounter s c f).guarded = s.guarded := by rfl

@[simp] theorem applyEpoch_guarded (s : State) : (applyEpoch s).guarded = s.guarded := by
  simp only [applyEpoch]
  repeat' split
  all_goals simp

@[simp] theorem steerRef_guarded (s : State) : (steerRef s).guarded = s.guarded := by simp [steerRef]

@[simp] theorem frameMarkerEdge_guarded (s : State) (interval : Nat) : (frameMarkerEdge s interval).guarded = s.guarded := by
  simp [frameMarkerEdge]

@[simp] theorem refClockAbsent_guarded (s : State) : (refClockAbsent s).guarded = s.guarded := by simp [refClockAbsent]

@[simp] theorem markerEdgeMissing_guarded (s : State) : (markerEdgeMissing s).guarded = s.guarded := by simp [markerEdgeMissing]

@[simp] theorem ownSource_guarded (s : State) : (ownSource s).guarded = s.guarded := by rfl

@[simp] theorem chooseParent_guarded (s : State) (heard : List (Nat × Nat × Nat)) : (chooseParent s heard).guarded = s.guarded := by
  simp only [chooseParent]
  repeat' split
  all_goals simp

@[simp] theorem timeAdvert_guarded (s : State) (heard : List (Nat × Nat × Nat)) : (timeAdvert s heard).guarded = s.guarded := by
  simp [timeAdvert]

@[simp] theorem steerLead_guarded (s : State) (th : ℤ) : (steerLead s th).guarded = s.guarded := by rfl

@[simp] theorem checkOffset_guarded (s : State) (th : ℤ) : (checkOffset s th).guarded = s.guarded := by simp [checkOffset]

@[simp] theorem childExchange_guarded (s : State) (t1 t2 t3 t4 : BitVec 48) (parentInit : Bool) :
    (childExchange s t1 t2 t3 t4 parentInit).guarded = s.guarded := by
  unfold childExchange
  split <;> simp

@[simp] theorem parentExchange_guarded (s : State) (l : Nat) : (parentExchange s l).guarded = s.guarded := by simp [parentExchange]

@[simp] theorem timeExchange_guarded (s : State) (x : TimeExchange) : (timeExchange s x).guarded = s.guarded := by
  unfold timeExchange
  split <;> simp

@[simp] theorem timeCounterWrap_guarded (s : State) : (timeCounterWrap s).guarded = s.guarded := by simp [timeCounterWrap]

@[simp] theorem epochSubmit_guarded (s : State) (hi : BitVec 32) : (epochSubmit s hi).1.guarded = s.guarded := by
  unfold epochSubmit
  split <;> simp

/-! ## The leads -/

@[simp] theorem unroutable_guarded (s : State) (f : LeadFrame) : (unroutable s f).guarded = s.guarded := by simp [unroutable]

@[simp] theorem reroute_guarded (s : State) (fs : List LeadFrame) : (reroute s fs).guarded = s.guarded := by
  refine foldl_guarded (fun t f => ?_) _ _
  split <;> simp

@[simp] theorem dropLead_guarded (s : State) (i : Nat) : (dropLead s i).guarded = s.guarded := by rfl

@[simp] theorem dropParent_guarded (s : State) (i : Nat) : (dropParent s i).guarded = s.guarded := by simp [dropParent]

@[simp] theorem loseLead_guarded (s : State) (i : Nat) : (loseLead s i).guarded = s.guarded := by simp [loseLead]

@[simp] theorem relaneOn_guarded (s : State) (i left lane : Nat) : (relaneOn s i left lane).guarded = s.guarded := by
  simp only [relaneOn]
  split
  · exact loseLead_guarded ..
  · exact raise_guarded ..

@[simp] theorem relane_guarded (s : State) (i lane : Nat) : (relane s i lane).guarded = s.guarded := relaneOn_guarded ..

@[simp] theorem groupReset_guarded (s : State) (g : Nat) : (groupReset s g).guarded = s.guarded := by
  refine foldl_guarded (fun t i => ?_) _ _
  simp only [guarded_ite, relaneOn_guarded, ite_self]

@[simp] theorem laneFailure_guarded (s : State) (lane : Nat) : (laneFailure s lane).guarded = s.guarded := by
  unfold laneFailure
  split <;> simp

@[simp] theorem relaneComplete_guarded (s : State) (i : Nat) : (relaneComplete s i).guarded = s.guarded := by simp [relaneComplete]

@[simp] theorem countDrop_guarded (s : State) (i : Nat) (tag : Bool) (seq : BitVec 64) : (countDrop s i tag seq).guarded = s.guarded := by
  simp [countDrop]

@[simp] theorem dropFrame_guarded (s : State) (i : Nat) (seq : BitVec 64) (cause : Nat) (lane : Option Nat) :
    (dropFrame s i seq cause lane).guarded = s.guarded := by
  unfold dropFrame
  repeat' split
  all_goals simp

@[simp] theorem leadReject_guarded (s : State) (i : Nat) (seq : BitVec 64) (cause : Nat) (lane : Option Nat) :
    (leadReject s i seq cause lane).guarded = s.guarded := by
  simp [leadReject]

@[simp] theorem resendAt_guarded (s : State) (i : Nat) (q : Option (BitVec 64)) : (resendAt s i q).guarded = s.guarded := by simp [resendAt]

@[simp] theorem leadNak_guarded (s : State) (a : Arrival) (seq : BitVec 64) : (leadNak s a seq).guarded = s.guarded := by simp [leadNak]

@[simp] theorem leadAckTimeout_guarded (s : State) (i : Nat) : (leadAckTimeout s i).guarded = s.guarded := by simp [leadAckTimeout]

@[simp] theorem leadAck_guarded (s : State) (a : Arrival) (seq : BitVec 64) : (leadAck s a seq).guarded = s.guarded := by simp [leadAck]

@[simp] theorem creditReturn_guarded (s : State) (a : Arrival) (c n : Nat) : (creditReturn s a c n).guarded = s.guarded :=
  onLink_guarded s a _ fun _ => rfl

@[simp] theorem creditStall_guarded (s : State) (i c : Nat) : (creditStall s i c).guarded = s.guarded := by simp [creditStall]

@[simp] theorem keyConfirm_guarded (s : State) (a : Arrival) (ok : Bool) : (keyConfirm s a ok).guarded = s.guarded := by simp [keyConfirm]

@[simp] theorem onJobFrame_guarded (s : State) (a : Arrival) (f : State → State) (hf : ∀ t, (f t).guarded = t.guarded) :
    (onJobFrame s a f).guarded = s.guarded := by
  simp [onJobFrame, hf]

@[simp] theorem onData_guarded (s : State) (a : Arrival) (f : LeadFrame) (act : State → State) (hact : ∀ t, (act t).guarded = t.guarded) :
    (onData s a f act).guarded = s.guarded := by
  simp [onData, hact]

@[simp] theorem forward_guarded (s : State) (f : LeadFrame) : (forward s f).guarded = s.guarded := by
  unfold forward
  split <;> simp

@[simp] theorem dataFrameReceived_guarded (s : State) (a : Arrival) (f : LeadFrame) : (dataFrameReceived s a f).guarded = s.guarded := by
  simp [dataFrameReceived]

@[simp] theorem mirrorPage_guarded (s : State) (a : Arrival) (f : LeadFrame) : (mirrorPage s a f).guarded = s.guarded := by
  refine onData_guarded s a f _ fun t => ?_
  split
  · simp
  · rfl

@[simp] theorem stopColl_guarded (s : State) : (stopColl s).guarded = s.guarded := by rfl

@[simp] theorem abortReceived_guarded (s : State) (a : Arrival) (origin : BitVec 24) (cls hops : BitVec 8) :
    (abortReceived s a origin cls hops).guarded = s.guarded := by
  simp [abortReceived]

@[simp] theorem discoveryMgmt_guarded (s : State) (i : Nat) (p : PeerReport) : (discoveryMgmt s i p).guarded = s.guarded := by
  simp [discoveryMgmt]

@[simp] theorem sendDiscovery_guarded (s : State) (i : Nat) : (sendDiscovery s i).guarded = s.guarded := by simp [sendDiscovery]

@[simp] theorem beginDiscovery_guarded (s : State) : (beginDiscovery s).guarded = s.guarded := by simp [beginDiscovery]

@[simp] theorem bringUp_guarded (s : State) (i : Nat) : (bringUp s i).guarded = s.guarded := by simp [bringUp]

@[simp] theorem allDown_guarded (s : State) : (allDown s).guarded = s.guarded := by simp [allDown]

@[simp] theorem cablingCheck_guarded (s : State) : (cablingCheck s).guarded = s.guarded := by simp [cablingCheck]

@[simp] theorem discoveryEnd_guarded (s : State) : (discoveryEnd s).guarded = s.guarded := by simp [discoveryEnd]

/-! ## Collectives -/

@[simp] theorem collSend_guarded (s : State) (op : CollOp) (l : Nat) (m : CollMsg) : (collSend s op l m).guarded = s.guarded := by
  simp [collSend]

@[simp] theorem elemPass_guarded (s : State) (e : Nat) (op : CollOp) : (elemPass s e op).guarded = s.guarded := by simp [elemPass]

@[simp] theorem collWrite_guarded (s : State) (op : CollOp) : (collWrite s op).guarded = s.guarded := by simp [collWrite]

@[simp] theorem passDown_guarded (s : State) (e : Nat) (op : CollOp) : (passDown s e op).guarded = s.guarded := by simp [passDown]

@[simp] theorem passUp_guarded (s : State) (e : Nat) (op : CollOp) : (passUp s e op).guarded = s.guarded := by
  unfold passUp
  split <;> simp

@[simp] theorem collUse_guarded (s : State) (e : Nat) (op : CollOp) (f : CollIn) : (collUse s e op f).guarded = s.guarded := by
  unfold collUse
  split <;> simp

@[simp] theorem collRun_guarded (fuel : Nat) (s : State) (e : Nat) : (collRun fuel s e).guarded = s.guarded := by
  induction fuel generalizing s with
  | zero => rfl
  | succ k ih =>
    unfold collRun
    repeat' split
    all_goals simp [ih]

@[simp] theorem collStart_guarded (s : State) (e : Nat) (w : BitVec 128) (op : CollOp) : (collStart s e w op).guarded = s.guarded := by
  simp [collStart]

@[simp] theorem collIssue_guarded (s : State) (e kind : Nat) : (collIssue s e kind).guarded = s.guarded := by simp [collIssue]

@[simp] theorem collReceived_guarded (s : State) (a : Arrival) (plan seq : BitVec 16) (m : CollMsg) :
    (collReceived s a plan seq m).guarded = s.guarded := by
  refine onJobFrame_guarded s a _ fun t => onKept_guarded t a _ fun u => ?_
  simp only
  split
  · simp
  · split <;> simp

@[simp] theorem neighbourTimeout_guarded (s : State) (e : Nat) : (neighbourTimeout s e).guarded = s.guarded := by
  unfold neighbourTimeout
  split <;> simp

@[simp] theorem collComplete_guarded (s : State) (e : Nat) : (collComplete s e).guarded = s.guarded := by rfl

/-! ## Completion -/

@[simp] theorem unitComplete_guarded (s : State) (n : Nat) (w : BitVec 128) : (unitComplete s n w).guarded = s.guarded := by
  simp [unitComplete]

@[simp] theorem completeUnits_guarded (s : State) (seen : List Nat) (done : List (Fin 43 × Bool)) :
    (completeUnits s seen done).1.guarded = s.guarded := by
  induction done generalizing s seen with
  | nil => rfl
  | cons x xs ih =>
    simp only [completeUnits]
    repeat' split
    all_goals simp [ih]

@[simp] theorem instructionComplete_guarded (s : State) (done : List (Fin 43 × Bool)) :
    (instructionComplete s done).guarded = s.guarded := by
  simp [instructionComplete]

/-! ## The governor -/

@[simp] theorem noteShort_guarded (s : State) : (noteShort s).guarded = s.guarded := by simp [noteShort]

@[simp] theorem govTick_guarded (s : State) : (govTick s).guarded = s.guarded := by
  simp only [govTick]
  repeat' split
  all_goals simp

@[simp] theorem creditWait_guarded (s : State) (n : Nat) (waits : Bool) : (creditWait s n waits).guarded = s.guarded := by simp [creditWait]

@[simp] theorem grantGrain_guarded (s : State) (g : Grain) : (grantGrain s g).guarded = s.guarded := by simp [grantGrain]

@[simp] theorem grantAll_guarded (s : State) (gs : List Grain) : (grantAll s gs).1.guarded = s.guarded := by
  induction gs generalizing s with
  | nil => rfl
  | cons g gs ih =>
    unfold grantAll
    split <;> simp [ih]

@[simp] theorem grainGrant_guarded (s : State) (arrived : List Grain) : (grainGrant s arrived).guarded = s.guarded := by simp [grainGrant]

@[simp] theorem grainAged_guarded (s : State) (n : Nat) : (grainAged s n).guarded = s.guarded := by simp [grainAged]

@[simp] theorem feedbackPeriod_guarded (s : State) (measured : Nat) : (feedbackPeriod s measured).guarded = s.guarded := by
  simp [feedbackPeriod]

@[simp] theorem driftWindow_guarded (s : State) : (driftWindow s).guarded = s.guarded := by simp [driftWindow]

@[simp] theorem deferAdjust_guarded (s : State) : (deferAdjust s).guarded = s.guarded := by simp [deferAdjust]

@[simp] theorem measureCmd_guarded (s : State) : (measureCmd s).1.guarded = s.guarded := by
  unfold measureCmd
  split <;> simp

@[simp] theorem calibrationDone_guarded (s : State) (values : Vector (BitVec 32) 20) : (calibrationDone s values).guarded = s.guarded := by
  simp [calibrationDone]

@[simp] theorem setUser_guarded (s : State) (ucal : Vector Word 20) (enable : Bool) : (setUser s ucal enable).guarded = s.guarded := by
  simp [setUser]

@[simp] theorem adoptCmd_guarded (s : State) : (adoptCmd s).1.guarded = s.guarded := by
  unfold adoptCmd
  split <;> simp

@[simp] theorem restoreFactory_guarded (s : State) : (restoreFactory s).guarded = s.guarded := by simp [restoreFactory]

/-! ## Memory faults and retraining -/

@[simp] theorem killStrand_guarded (s : State) (n : Nat) : (killStrand s n).guarded = s.guarded := by simp [killStrand]

@[simp] theorem dropChannel_guarded (s : State) (i : Nat) : (dropChannel s i).guarded = s.guarded := by rfl

@[simp] theorem loseChannel_guarded (s : State) (i : Nat) : (loseChannel s i).guarded = s.guarded := by simp [loseChannel]

@[simp] theorem startRetrain_guarded (s : State) (stack : Fin 8) (pc : Fin 32) : (startRetrain s stack pc).guarded = s.guarded := by
  simp [startRetrain]

@[simp] theorem memCorrected_guarded (s : State) (stack : Fin 8) (pc : Fin 32) (page : Nat) :
    (memCorrected s stack pc page).guarded = s.guarded := by
  simp [memCorrected]

@[simp] theorem hbmEccReread_guarded (s : State) (stack : Fin 8) (pc : Fin 32) (page n : Nat) (ok : Bool) :
    (hbmEccReread s stack pc page n ok).guarded = s.guarded := by
  simp [hbmEccReread]

@[simp] theorem checkValueReread_guarded (s : State) (i row n : Nat) (ok : Bool) : (checkValueReread s i row n ok).guarded = s.guarded := by
  simp [checkValueReread]

@[simp] theorem pcRetrain_guarded (s : State) (stack : Fin 8) (pc : Fin 32) : (pcRetrain s stack pc).guarded = s.guarded := by
  simp [pcRetrain]

@[simp] theorem pcRetrainDone_guarded (s : State) (stack : Fin 8) (pc : Fin 32) (ok : Bool) :
    (pcRetrainDone s stack pc ok).guarded = s.guarded := by
  simp [pcRetrainDone]

/-! ## The Tally -/

@[simp] theorem addRecord_guarded (s : State) (code : Word) (detail : Bytes) (drill : Bool) :
    (addRecord s code detail drill).guarded = s.guarded := by
  simp [addRecord]

@[simp] theorem beginFlush_guarded (s : State) : (beginFlush s).guarded = s.guarded := by simp [beginFlush]

@[simp] theorem storeNow_guarded (s : State) (r : State → TRec) : (storeNow s r).guarded = s.guarded := by simp [storeNow]

@[simp] theorem storeDropped_guarded (s : State) : (storeDropped s).guarded = s.guarded := by simp [storeDropped]

@[simp] theorem flushNow_guarded (s : State) : (flushNow s).guarded = s.guarded := by simp [flushNow]

@[simp] theorem clearTally_guarded (s : State) : (clearTally s).guarded = s.guarded := by simp [clearTally]

/-! ## The Kennel -/

@[simp] theorem takeSample_guarded (s : State) (code : Word) : (takeSample s code).guarded = s.guarded := by simp [takeSample]

@[simp] theorem preCollect_guarded (s : State) (code : Word) : (preCollect s code).guarded = s.guarded := by simp [preCollect]

@[simp] theorem startTeardown_guarded (s : State) (fault : Bool) : (startTeardown s fault).guarded = s.guarded := by simp [startTeardown]

@[simp] theorem sendAbort_guarded (s : State) (code : Word) : (sendAbort s code).guarded = s.guarded := by simp [sendAbort]

@[simp] theorem faultEndsDrill_guarded (s : State) : (faultEndsDrill s).guarded = s.guarded := by simp [faultEndsDrill]

@[simp] theorem endJob_guarded (s : State) (code : Word) : (endJob s code).guarded = s.guarded := by simp [endJob]

@[simp] theorem recordCode_guarded (s : State) (r : Raised) : (recordCode s r).guarded = s.guarded := by simp [recordCode]

@[simp] theorem pendReset_guarded (s : State) (counted : Bool) : (pendReset s counted).guarded = s.guarded := by simp [pendReset]

@[simp] theorem deviceCode_guarded (s : State) (code : Word) (counted : Bool) : (deviceCode s code counted).guarded = s.guarded := by
  simp [deviceCode]

@[simp] theorem applyEffect_guarded (s : State) (r : Raised) : (applyEffect s r).guarded = s.guarded := by
  unfold applyEffect
  split <;> simp

@[simp] theorem collect_guarded (s : State) : (collect s).guarded = s.guarded := by
  unfold collect
  split <;> simp

@[simp] theorem codeCollected_guarded (s : State) (d : Detected) : (codeCollected s d).guarded = s.guarded := by
  unfold codeCollected
  repeat' split
  all_goals simp

@[simp] theorem afterCommit_guarded (s : State) : (afterCommit s).guarded = s.guarded := by simp [afterCommit]

@[simp] theorem commitMarker_guarded (s : State) : (commitMarker s).guarded = s.guarded := by rfl

@[simp] theorem markerCommit_guarded (s : State) : (markerCommit s).guarded = s.guarded := by simp [markerCommit]

@[simp] theorem jobEnd_guarded (s : State) : (jobEnd s).guarded = s.guarded := by simp [jobEnd]

@[simp] theorem freeInbox_guarded (s : State) : (freeInbox s).guarded = s.guarded := by simp [freeInbox]

@[simp] theorem scrubContext_guarded (s : State) : (scrubContext s).guarded = s.guarded := by simp [scrubContext]

@[simp] theorem destroyJobKey_guarded (s : State) : (destroyJobKey s).guarded = s.guarded := by simp [destroyJobKey]

@[simp] theorem newIdleKey_guarded (s : State) : (newIdleKey s).guarded = s.guarded := by rfl

@[simp] theorem contextReset_guarded (s : State) : (contextReset s).guarded = s.guarded := by simp [contextReset]

@[simp] theorem teardownEnds_guarded (s : State) : (teardownEnds s).guarded = s.guarded := by
  simp only [teardownEnds]
  repeat' split
  all_goals simp

@[simp] theorem hbmScrubComplete_guarded (s : State) : (hbmScrubComplete s).guarded = s.guarded := by simp [hbmScrubComplete]

@[simp] theorem hangCheck_guarded (s : State) : (hangCheck s).guarded = s.guarded := by simp [hangCheck]

@[simp] theorem hangThreshold_guarded (s : State) : (hangThreshold s).guarded = s.guarded := by simp [hangThreshold]

@[simp] theorem heartbeat_guarded (s : State) (missing : List Island) : (heartbeat s missing).guarded = s.guarded := by simp [heartbeat]

@[simp] theorem islandStall_guarded (s : State) (i : Island) (stopFailed : Bool) : (islandStall s i stopFailed).guarded = s.guarded := by
  simp only [islandStall]
  repeat' split
  all_goals simp

@[simp] theorem tetherIslandReset_guarded (s : State) : (tetherIslandReset s).guarded = s.guarded := by
  unfold tetherIslandReset
  exact foldl_guarded (fun t l => (addRetry_guarded ..).trans (setSess_guarded ..)) _ _

@[simp] theorem islandReset_guarded (s : State) (i : Island) : (islandReset s i).guarded = s.guarded := by
  unfold islandReset
  repeat' split
  all_goals simp

@[simp] theorem escalate_guarded (s : State) : (escalate s).guarded = s.guarded := by simp [escalate]

@[simp] theorem drainCodes_guarded (s : State) : (drainCodes s).guarded = s.guarded := by simp [drainCodes]

@[simp] theorem resetDie_guarded (s : State) : (resetDie s).guarded = s.guarded := by rfl

@[simp] theorem deviceReset_guarded (s : State) : (deviceReset s).guarded = s.guarded := by simp [deviceReset]

@[simp] theorem setBand_guarded (s : State) (b : Nat) (t : BitVec 8) : (setBand s b t).guarded = s.guarded := by simp [setBand]

@[simp] theorem bandRise_guarded (s : State) (t : BitVec 8) : (bandRise s t).guarded = s.guarded := by simp [bandRise]

@[simp] theorem bandFall_guarded (s : State) (t : BitVec 8) : (bandFall s t).guarded = s.guarded := by simp [bandFall]

/-! ## Start-up -/

@[simp] theorem newChallenge_guarded (s : State) : (newChallenge s).guarded = s.guarded := by rfl

@[simp] theorem runFw_guarded (s : State) (kind : Nat) (b : Bool) : (runFw s kind b).guarded = s.guarded := by rfl

@[simp] theorem imageRefused_guarded (s : State) : (imageRefused s).guarded = s.guarded := by simp [imageRefused]

@[simp] theorem bootFw_guarded (s : State) (kind : Nat) : (bootFw s kind).1.guarded = s.guarded := by
  simp only [bootFw]
  repeat' split
  all_goals simp

@[simp] theorem bootCal_guarded (s : State) : (bootCal s).guarded = s.guarded := by simp [bootCal]

@[simp] theorem packageStart_guarded (s : State) : (packageStart s).guarded = s.guarded := by simp [packageStart]

@[simp] theorem checkStraps_guarded (s : State) : (checkStraps s).guarded = s.guarded := by simp [checkStraps]

@[simp] theorem standbyPowerGood_guarded (s : State) (pos : BitVec 2) (leashEn : Bool) (images : Vector (Option (BitVec 32)) 5) :
    (standbyPowerGood s pos leashEn images).guarded = s.guarded := by
  simp [standbyPowerGood]

@[simp] theorem packageReset_guarded (s : State) : (packageReset s).guarded = s.guarded := by simp [packageReset]

@[simp] theorem beginBringUp_guarded (s : State) : (beginBringUp s).guarded = s.guarded := by simp [beginBringUp]

@[simp] theorem chooseRate_guarded (s : State) : (chooseRate s).guarded = s.guarded := by simp [chooseRate]

@[simp] theorem kerrinServing_guarded (s : State) : (kerrinServing s).guarded = s.guarded := by simp [kerrinServing]

@[simp] theorem settleDomain_guarded (s : State) (d : Nat) : (settleDomain s d).guarded = s.guarded := by simp [settleDomain]

@[simp] theorem domainPowerGood_guarded (s : State) (d : Nat) : (domainPowerGood s d).guarded = s.guarded := by simp [domainPowerGood]

@[simp] theorem domainPgTimeout_guarded (s : State) (d : Nat) : (domainPgTimeout s d).guarded = s.guarded := by simp [domainPgTimeout]

@[simp] theorem hbmTrainingDone_guarded (s : State) (failed : List (Fin 8 × Fin 32)) : (hbmTrainingDone s failed).guarded = s.guarded := by
  simp [hbmTrainingDone]

@[simp] theorem settleTether_guarded (s : State) : (settleTether s).guarded = s.guarded := by simp [settleTether]

@[simp] theorem railsLate_guarded (s : State) : (railsLate s).guarded = s.guarded := by simp [railsLate]

@[simp] theorem railOrderFault_guarded (s : State) (step : BitVec 32) : (railOrderFault s step).guarded = s.guarded := by
  simp [railOrderFault]

@[simp] theorem losePower_guarded (s : State) : (losePower s).guarded = s.guarded := by rfl

@[simp] theorem railFault_guarded (s : State) (rail mv : BitVec 32) : (railFault s rail mv).guarded = s.guarded := by simp [railFault]

@[simp] theorem railOutOfRange_guarded (s : State) (rail mv : BitVec 32) : (railOutOfRange s rail mv).guarded = s.guarded := by
  simp [railOutOfRange]

@[simp] theorem saveTime_guarded (s : State) : (saveTime s).guarded = s.guarded := by rfl

@[simp] theorem powerFail_guarded (s : State) : (powerFail s).guarded = s.guarded := by simp [powerFail]

@[simp] theorem vstbyLoss_guarded (s : State) : (vstbyLoss s).guarded = s.guarded := by simp [vstbyLoss]

/-! ## The Shepherd -/

@[simp] theorem shepherdWatchdog_guarded (s : State) : (shepherdWatchdog s).guarded = s.guarded := by simp [shepherdWatchdog]

@[simp] theorem shepherdServing_guarded (s : State) : (shepherdServing s).guarded = s.guarded := by simp [shepherdServing]

@[simp] theorem toggle_guarded (s : State) : (toggle s).guarded = s.guarded := by rfl

@[simp] theorem raiseEpoch_guarded (s : State) : (raiseEpoch s).guarded = s.guarded := by rfl

@[simp] theorem takeLeash_guarded (s : State) (f : State → State) (hf : ∀ t, (f t).guarded = t.guarded) :
    (takeLeash s f).guarded = s.guarded := by
  simp [takeLeash, hf]

@[simp] theorem stopLeash_guarded (s : State) : (stopLeash s).guarded = s.guarded := by rfl

@[simp] theorem leashToggle_guarded (s : State) : (leashToggle s).guarded = s.guarded := by simp [leashToggle]

@[simp] theorem leashSelfFence_guarded (s : State) : (leashSelfFence s).guarded = s.guarded := by
  simp only [leashSelfFence]
  repeat' split
  all_goals simp

@[simp] theorem leashLapse_guarded (s : State) : (leashLapse s).guarded = s.guarded := by simp [leashLapse]

@[simp] theorem leashPeerEdge_guarded (s : State) (interval : Nat) (epochSeen : BitVec 32) :
    (leashPeerEdge s interval epochSeen).guarded = s.guarded := by
  simp [leashPeerEdge]

@[simp] theorem roleRequest_guarded (s : State) : (roleRequest s).guarded = s.guarded := by simp [roleRequest]

@[simp] theorem getacccr_guarded (s : State) : (getacccr s).guarded = s.guarded := by simp [getacccr]

@[simp] theorem leashYield_guarded (s : State) : (leashYield s).guarded = s.guarded := by simp [leashYield]

@[simp] theorem actuatorRefused_guarded (s : State) : (actuatorRefused s).guarded = s.guarded := by simp [actuatorRefused]

@[simp] theorem trayBusParity_guarded (s : State) (resendFails : Bool) : (trayBusParity s resendFails).guarded = s.guarded := by
  simp [trayBusParity]

@[simp] theorem techPoll_guarded (s : State) (toolAnswers : Bool) (others : List Word) :
    (techPoll s toolAnswers others).guarded = s.guarded := by
  simp [techPoll]

@[simp] theorem telemetrySample_guarded (s : State) (v : Vector (BitVec 24) 16) : (telemetrySample s v).guarded = s.guarded := by
  simp [telemetrySample]

@[simp] theorem thermalTrip_guarded (s : State) (sensor : Fin 9) : (thermalTrip s sensor).guarded = s.guarded := by simp [thermalTrip]

/-! ## Drills -/

@[simp] theorem pickOne_guarded {α : Type} (s : State) (xs : List α) : (pickOne s xs).2.guarded = s.guarded := by rfl

@[simp] theorem drillFault_guarded (s : State) (k : Nat) : (drillFault s k).guarded = s.guarded := by
  simp only [drillFault]
  repeat' split
  all_goals simp

@[simp] theorem beginDrill_guarded (s : State) (k : Nat) : (beginDrill s k).guarded = s.guarded := by simp [beginDrill]

@[simp] theorem drillInject_guarded (s : State) : (drillInject s).guarded = s.guarded := by
  unfold drillInject
  split <;> simp

@[simp] theorem drillSkip_guarded (s : State) : (drillSkip s).guarded = s.guarded := by
  unfold drillSkip
  split <;> simp

/-! ## Register writes and grants -/

@[simp] theorem lockWrite_guarded (s : State) (owner : Bool) (g : Nat) (f : State → State) (hf : ∀ t, (f t).guarded = t.guarded) :
    (lockWrite s owner g f).guarded = s.guarded := by
  unfold lockWrite
  split
  · exact raise_guarded ..
  · exact hf s

@[simp] theorem clearEvent_guarded (s : State) (u : EvUnit) (v : Nat) : (clearEvent s u v).guarded = s.guarded := by
  unfold clearEvent
  split <;> simp

@[simp] theorem okWrite_guarded (s : State) : (okWrite s).1.guarded = s.guarded := by rfl

@[simp] theorem ownerOnly_guarded (s : State) (code : Nat) : (ownerOnly s code).1.guarded = s.guarded := by simp [ownerOnly]

@[simp] theorem clearEscalation_guarded (s : State) : (clearEscalation s).guarded = s.guarded := by simp [clearEscalation]

@[simp] theorem writeEscalate_guarded (s : State) (owner : Bool) (v : Nat) : (writeEscalate s owner v).1.guarded = s.guarded := by
  have h := lockWrite_guarded s owner 7
    (fun s => setKnl s { s.knl with windowH := BitVec.ofNat 8 (field v 15 8), limit := BitVec.ofNat 4 (field v 3 0) }) fun _ => rfl
  unfold writeEscalate
  repeat' split
  all_goals simp [h]

@[simp] theorem writeKnlReset_guarded (s : State) (v : Nat) : (writeKnlReset s v).guarded = s.guarded := by simp [writeKnlReset]

@[simp] theorem writeKnl_guarded (s : State) (owner : Bool) (off v : Nat) : (writeKnl s owner off v).1.guarded = s.guarded := by
  unfold writeKnl
  split
  · exact lockWrite_guarded s owner 1 _ fun _ => rfl
  · exact writeEscalate_guarded ..
  · exact lockWrite_guarded s owner 7 _ fun _ => rfl
  · exact writeKnlReset_guarded ..
  · rfl

@[simp] theorem tokSignal_guarded (s : State) (v : Nat) : (tokSignal s v).1.guarded = s.guarded := by
  simp only [tokSignal]
  split <;> simp

@[simp] theorem disableUnits_guarded (s : State) (v : Nat) : (disableUnits s v).guarded = s.guarded := by simp [disableUnits]

@[simp] theorem writeStr_guarded (s : State) (owner : Bool) (off v : Nat) : (writeStr s owner off v).1.guarded = s.guarded := by
  unfold writeStr
  split <;> simp

@[simp] theorem writeLead_guarded (s : State) (owner : Bool) (off v : Nat) : (writeLead s owner off v).1.guarded = s.guarded := by
  unfold writeLead
  repeat' split
  all_goals simp

@[simp] theorem writeTim_guarded (s : State) (owner : Bool) (off v : Nat) : (writeTim s owner off v).1.guarded = s.guarded := by
  unfold writeTim
  split <;> simp

@[simp] theorem writeSnp_guarded (s : State) (owner : Bool) (off v : Nat) : (writeSnp s owner off v).1.guarded = s.guarded := by
  unfold writeSnp
  split
  · exact lockWrite_guarded s owner 0 _ fun _ => rfl
  · exact lockWrite_guarded s owner 1 _ fun _ => rfl
  · exact lockWrite_guarded s owner 7 _ fun _ => rfl
  · rfl

@[simp] theorem writeCalCmd_guarded (s : State) (v : Nat) : (writeCalCmd s v).1.guarded = s.guarded := by
  unfold writeCalCmd
  repeat' split
  all_goals simp

@[simp] theorem writeUcalCtl_guarded (s : State) (owner : Bool) (v : Nat) : (writeUcalCtl s owner v).1.guarded = s.guarded := by
  unfold writeUcalCtl
  repeat' split
  all_goals simp

@[simp] theorem writeGov_guarded (s : State) (owner : Bool) (off v : Nat) : (writeGov s owner off v).1.guarded = s.guarded := by
  unfold writeGov
  split
  · exact lockWrite_guarded s owner 3 _ fun _ => rfl
  · exact lockWrite_guarded s owner 3 _ fun _ => rfl
  · exact writeCalCmd_guarded ..
  · exact writeUcalCtl_guarded ..
  · split
    · exact lockWrite_guarded s owner 7 _ fun t => setUser_guarded ..
    · rfl

@[simp] theorem writeSec_guarded (s : State) (owner : Bool) (off v : Nat) : (writeSec s owner off v).1.guarded = s.guarded := by
  unfold writeSec
  split <;> simp

@[simp] theorem writeTally_guarded (s : State) (owner : Bool) (off v : Nat) (cur : State → BitVec 19 → State)
    (hcur : ∀ t x, (cur t x).guarded = t.guarded) :
    (writeTally s owner off v cur).1.guarded = s.guarded := by
  unfold writeTally
  repeat' split
  all_goals simp [hcur]

@[simp] theorem writeDie_guarded (s : State) (owner : Bool) (addr v : Nat) : (writeDie s owner addr v).1.guarded = s.guarded := by
  simp only [writeDie]
  split
  · exact clearEvent_guarded ..
  · split
    · exact writeKnl_guarded ..
    · exact writeStr_guarded ..
    · split
      · exact lockWrite_guarded s owner 2 _ fun _ => rfl
      · rfl
    · exact writeLead_guarded ..
    · split
      · exact lockWrite_guarded s owner 1 _ fun _ => rfl
      · rfl
    · exact writeTim_guarded ..
    · split
      · exact lockWrite_guarded s owner 1 _ fun _ => rfl
      · rfl
    · exact writeSnp_guarded ..
    · exact writeGov_guarded ..
    · exact writeSec_guarded ..
    · exact writeTally_guarded s owner _ v _ fun _ _ => setDieCursor_guarded ..
    · rfl

@[simp] theorem writeShp_guarded (s : State) (owner : Bool) (addr v : Nat) : (writeShp s owner addr v).1.guarded = s.guarded := by
  -- The offset is a variable here, since the kernel cannot evaluate `addr - 0x100000` under the match.
  obtain ⟨off, hoff⟩ : ∃ off, off = addr - 0x100000 := ⟨_, rfl⟩
  generalize hp : writeShp s owner addr v = p
  delta writeShp at hp
  rw [← hoff] at hp
  dsimp only at hp
  split at hp <;> subst hp
  · exact clearEvent_guarded ..
  · repeat' split
    all_goals simp
  · repeat' split
    all_goals simp
  · split
    · exact writeSec_guarded ..
    · split
      · exact writeTally_guarded s owner _ v _ fun _ _ => setSideCursor_guarded ..
      · rfl

@[simp] theorem serveWrite_guarded (s : State) (r : Req) (k : ReqKind) (file : State → Nat → Option Nat)
    (write : State → Bool → Nat → Nat → State × Option Nat) (addr v : Nat) (hwrite : ∀ t o a x, (write t o a x).1.guarded = t.guarded) :
    (serveWrite s r k file write addr v).guarded = s.guarded := by
  refine request_guarded s r k _ fun t => ?_
  have ht := hwrite t false addr v
  split
  · exact refuseReq_guarded ..
  · split
    · exact respondCode_guarded ..
    · split <;> rename_i h <;> rw [h] at ht <;> simpa using ht

@[simp] theorem regWrite_guarded (s : State) (r : Req) (addr v : Nat) : (regWrite s r addr v).guarded = s.guarded := by simp [regWrite]

@[simp] theorem unitDrainDone_guarded (s : State) (b : Nat) : (unitDrainDone s b).guarded = s.guarded := by simp [unitDrainDone]

@[simp] theorem grantFails_guarded (s : State) (r : Req) (detail : Bytes) : (grantFails s r detail).guarded = s.guarded := by
  simp [grantFails]

@[simp] theorem beginUnlock_guarded (s : State) : (beginUnlock s).guarded = s.guarded := by simp [beginUnlock]

@[simp] theorem endOldSessions_guarded (s : State) : (endOldSessions s).guarded = s.guarded := by rfl

@[simp] theorem grantAnswer_guarded (s : State) (r : Req) (err : Option Nat) : (grantAnswer s r err).guarded = s.guarded := by
  unfold grantAnswer
  repeat' split
  all_goals simp

@[simp] theorem ownerWrite_guarded (s : State) (addr v : Nat) : (ownerWrite s addr v).1.guarded = s.guarded := by
  unfold ownerWrite
  split <;> simp

@[simp] theorem grant_guarded (s : State) (r : Req) (g : Grant) : (grant s r g).guarded = s.guarded := by
  refine request_guarded s r kKeyShp _ fun t => ?_
  repeat' split
  all_goals simp

/-! ## The Tether links -/

@[simp] theorem tetherUp_guarded (s : State) (l : Nat) : (tetherUp s l).guarded = s.guarded := by simp [tetherUp]

@[simp] theorem bothLinksLost_guarded (s : State) : (bothLinksLost s).guarded = s.guarded := by simp [bothLinksLost]

@[simp] theorem tetherAbort_guarded (s : State) (r : Req) : (tetherAbort s r).guarded = s.guarded := by simp [tetherAbort]

/-! ## Secrecy -/

@[simp] theorem endSession_guarded (s : State) (l : Nat) (shp : Bool) : (endSession s l shp).guarded = s.guarded := by simp [endSession]

@[simp] theorem hello_guarded (s : State) (r : Req) (shepherd : Bool) (cert : OpCert) (key : BitVec 512) (nonce : BitVec 128) :
    (hello s r shepherd cert key nonce).guarded = s.guarded := by
  simp [hello]

@[simp] theorem refuseJob_guarded (s : State) (r : Req) (kind : Nat) : (refuseJob s r kind).guarded = s.guarded := by simp [refuseJob]

@[simp] theorem jobEphemeral_guarded (s : State) (r : Req) (jobId : BitVec 64) : (jobEphemeral s r jobId).guarded = s.guarded := by
  simp [jobEphemeral]

@[simp] theorem overwriteHbm_guarded (s : State) : (overwriteHbm s).guarded = s.guarded := by rfl

@[simp] theorem jobKey_guarded (s : State) (r : Req) (jobId : BitVec 64) (node : BitVec 512) (wrapped : BitVec 256) (tag : BitVec 128)
    (epochW epochR : Word) :
    (jobKey s r jobId node wrapped tag epochW epochR).guarded = s.guarded := by
  refine request_guarded s r kJob _ fun t => ?_
  split
  · split
    · simp only
      split <;> simp
    · simp
  · simp

@[simp] theorem jobDrop_guarded (s : State) (r : Req) (jobId : BitVec 64) : (jobDrop s r jobId).guarded = s.guarded := by simp [jobDrop]

@[simp] theorem peerCert_guarded (s : State) (r : Req) (signer : BitVec 24) (cert : Bytes) (bind : BitVec 128) (chains : Bool) :
    (peerCert s r signer cert bind chains).guarded = s.guarded := by
  simp [peerCert]

@[simp] theorem debugUnlock_guarded (s : State) : (debugUnlock s).guarded = s.guarded := by simp [debugUnlock]

@[simp] theorem attest_guarded (s : State) (r : Req) (nonce : BitVec 128) : (attest s r nonce).guarded = s.guarded := by simp [attest]

@[simp] theorem fwData_guarded (s : State) (r : Req) (kind off : Nat) (b : Bytes) : (fwData s r kind off b).guarded = s.guarded := by
  simp [fwData]

@[simp] theorem fwCommit_guarded (s : State) (r : Req) (kind : Nat) (svn : Option Word) : (fwCommit s r kind svn).guarded = s.guarded := by
  simp [fwCommit]

/-! ## Restore -/

@[simp] theorem refuseRestore_guarded (s : State) (r : Req) : (refuseRestore s r).guarded = s.guarded := by simp [refuseRestore]

@[simp] theorem manifestWhole_guarded (s : State) (r : Req) (m : Bytes) (sigOk : Bool) :
    (manifestWhole s r m sigOk).guarded = s.guarded := by
  simp [manifestWhole]

@[simp] theorem restoreManifest_guarded (s : State) (r : Req) (off : Nat) (last : Bool) (b : Bytes) (sigOk : Bool) :
    (restoreManifest s r off last b sigOk).guarded = s.guarded := by
  simp [restoreManifest]

@[simp] theorem writePage_guarded (s : State) (x : Restore) (p : Nat) (plain : Bytes) : (writePage s x p plain).guarded = s.guarded := by
  unfold writePage
  repeat' split
  all_goals simp

@[simp] theorem pageWhole_guarded (s : State) (x : Restore) (p : Nat) (stored : Bytes) (plain : Option Bytes) :
    (pageWhole s x p stored plain).guarded = s.guarded := by
  unfold pageWhole
  split <;> simp

@[simp] theorem restorePage_guarded (s : State) (l : Nat) (marker : BitVec 64) (position : BitVec 32) (shard page off : Nat) (b : Bytes) :
    (restorePage s l marker position shard page off b).guarded = s.guarded := by
  refine bulk_guarded s l _ fun t => ?_
  repeat' split
  all_goals simp

@[simp] theorem restoreDone_guarded (s : State) (x : Restore) : (restoreDone s x).guarded = s.guarded := by rfl

@[simp] theorem restoreResult_guarded (s : State) (x : Restore) : (restoreResult s x).guarded = s.guarded := by
  unfold restoreResult
  split <;> simp

@[simp] theorem restoreEnd_guarded (s : State) (r : Req) : (restoreEnd s r).guarded = s.guarded := by
  refine request_guarded s r kCkpt _ fun t => ?_
  split <;> simp

/-! ## What rises -/

theorem nothingLost_trans {s t u : State} (h : NothingLost s t) (h' : NothingLost t u) : NothingLost s u :=
  ⟨fun k hk => h'.1 k (h.1 k hk), fun i => Nat.le_trans (h.2 i) (h'.2 i)⟩

/-- Nothing is lost where the owner and the counters stay as they are. -/
theorem nothingLost_of_guarded {s t : State} (h : t.guarded = s.guarded) : NothingLost s t := by
  obtain ⟨howner, hsvn⟩ := Prod.mk.inj h
  exact ⟨fun k hk => howner.trans hk, fun i => by rw [hsvn]; exact Nat.le_refl _⟩

theorem vget_vmodify_other {α : Type} {n : Nat} (v : Vector α n) {i j : Nat} (h : j ≠ i) (f : α → α) (d : α) :
    vget (vmodify v i f) j d = vget v j d := by
  unfold vmodify
  split
  · simp [vget, List.getD_eq_getElem?_getD, Vector.getElem?_set_ne _ h.symm]
  · rfl

/-- R567: a counter that rises to the SVN of an image falls below none. -/
theorem raiseSvn_nothingLost (s : State) (k : Nat) : NothingLost s (raiseSvn s k) := by
  refine ⟨fun _ h => h, fun i => ?_⟩
  show _ ≤ vget (vmodify s.sec.svn k _) i 0
  by_cases hi : i = k
  · subst hi
    by_cases hlt : i < 3
    · rw [vget_vmodify_same _ hlt, BitVec.le_def, BitVec.toNat_ofNat]
      have := (vget s.sec.svn i 0).isLt
      have := (vget s.sec.bootSvn i 0).isLt
      omega
    · rw [vmodify, dif_neg hlt]
      exact Nat.le_refl _
  · rw [vget_vmodify_other _ hi]
    exact Nat.le_refl _

/-- R566, R567: what boots leaves the owner and the counters; the release raises one. -/
theorem releaseDie_nothingLost (s : State) : NothingLost s (releaseDie s) := by
  have hsame : (releaseDie s).guarded = (raiseSvn s 2).guarded := rfl
  exact nothingLost_trans (raiseSvn_nothingLost s 2) (nothingLost_of_guarded hsame)

theorem computeDieRelease_nothingLost (s : State) : NothingLost s (computeDieRelease s) := by
  unfold computeDieRelease
  split
  · exact nothingLost_of_guarded rfl
  · have hboot : NothingLost s (bootFw s 1).1 := nothingLost_of_guarded (bootFw_guarded s 1)
    simp only
    split
    · exact nothingLost_trans hboot (releaseDie_nothingLost _)
    · exact nothingLost_trans hboot (nothingLost_of_guarded rfl)

theorem leaveBoot_nothingLost (s : State) : NothingLost s (leaveBoot s) := by
  simp only [leaveBoot]
  split
  · exact nothingLost_of_guarded (by simp)
  · exact nothingLost_trans (nothingLost_of_guarded (by simp)) (raiseSvn_nothingLost _ 1)

/-- A request loses nothing where what it does loses nothing. -/
theorem request_nothingLost (s : State) (r : Req) (k : ReqKind) {f : State → State} (hf : ∀ t, NothingLost t (f t)) :
    NothingLost s (request s r k f) := by
  simp only [request]
  repeat' split
  case isFalse.isFalse.isFalse.isFalse.isFalse.isFalse.isFalse => exact nothingLost_trans (nothingLost_of_guarded (by simp)) (hf _)
  all_goals exact nothingLost_of_guarded (by simp)

/-- R556: an owner is enrolled only where none is. -/
theorem enroll_nothingLost (s : State) (r : Req) (key : BitVec 512) (voucherOk : Bool) : NothingLost s (enroll s r key voucherOk) := by
  refine request_nothingLost s r kIdentity fun t => ?_
  split
  · rename_i h
    have hnone : t.sec.owner = none := by simp_all
    exact ⟨fun k hk => absurd (hnone.symm.trans hk) (by simp), fun _ => Nat.le_refl _⟩
  · exact nothingLost_of_guarded (by simp)

/-- R557, R567: the session that opens raises a counter at most. -/
theorem openSession_nothingLost (s : State) (l : Nat) (shepherd : Bool) (h : Handshake) : NothingLost s (openSession s l shepherd h) := by
  simp only [openSession]
  split
  · exact nothingLost_trans (nothingLost_of_guarded (by simp)) (raiseSvn_nothingLost _ 0)
  · exact nothingLost_of_guarded (by simp)

theorem finish_nothingLost (s : State) (r : Req) (shepherd sigOk : Bool) : NothingLost s (finish s r shepherd sigOk) := by
  refine request_nothingLost s r _ fun t => ?_
  split
  case h_1 h _ =>
    split
    · exact nothingLost_trans (openSession_nothingLost t r.link shepherd h) (nothingLost_of_guarded (by cases shepherd <;> simp))
    · exact nothingLost_of_guarded (by simp)
  case h_2 => exact nothingLost_of_guarded (by simp)

theorem exec_nothingLost {s t : State} (c : Instr) (hexec : exec c s = .next t) : NothingLost s t := by
  cases c
  all_goals obtain rfl := Host.Outcome.next.inj hexec
  case computeDieRelease => exact computeDieRelease_nothingLost s
  case bootExit =>
    split
    · exact leaveBoot_nothingLost s
    · exact nothingLost_of_guarded rfl
  case enroll => exact enroll_nothingLost ..
  case finish => exact finish_nothingLost ..
  all_goals exact nothingLost_of_guarded (by simp)

@[simp] theorem runCounter_guarded (s : State) : (runCounter s).guarded = s.guarded := by
  unfold runCounter
  split <;> simp

@[simp] theorem sendBulk_guarded (s : State) (n l : Nat) : (sendBulk s n l).guarded = s.guarded := by
  simp only [sendBulk]
  split
  · rw [foldl_guarded fun t b => tetSend_guarded t l false b, setSess_guarded]
  · rfl

theorem tick_guarded (s : State) : (tick s).guarded = s.guarded := by
  rw [tick, sendBulk_guarded, sendBulk_guarded]
  split
  · exact runCounter_guarded s
  · exact runCounter_guarded s

/-- Settles O6: an owner is enrolled only where none is, counters only rise, and everything else leaves both as they are. -/
theorem nothingLostKept : Obligations.NothingLostKept := by
  intro s t hstep
  unfold step at hstep
  split at hstep
  case h_1 =>
    obtain rfl := Host.Outcome.next.inj hstep
    exact nothingLost_of_guarded (tick_guarded s)
  case h_2 c rest _ =>
    have hrun : NothingLost { s with pending := rest } t := exec_nothingLost c hstep
    exact nothingLost_trans (nothingLost_of_guarded (guarded_mk ..)) hrun

end Sys2Proof.Machine
end

section
/-!
The store of the Tally and the calibration program (R535 to R540, R601): O49.
-/
namespace Sys2Proof.Machine

/-! ## The store (R536, R539) -/

theorem satAdd32_toNat (a : Word) (n : Nat) : (satAdd32 a n).toNat = min (2 ^ 32 - 1) (a.toNat + n) := by
  rw [satAdd32, satAdd, BitVec.toNat_ofNat]
  omega

/-- While the store has room for one record more, it keeps each. -/
theorem storeRec_room {s : State} (hfull : s.tly.full = false) (hroom : s.tly.store.length + 1 < storeSlots) (x : TRec) :
    storeRec s x = { s with tly := { s.tly with store := s.tly.store ++ [x] } } := by
  rw [storeRec, hfull, if_neg (by decide), if_neg (Nat.ne_of_lt hroom)]

/-- Records that the store has room for are kept in their order. -/
theorem foldl_storeRec_room (xs : List TRec) {s : State} (hfull : s.tly.full = false)
    (hroom : s.tly.store.length + xs.length < storeSlots) :
    xs.foldl storeRec s = { s with tly := { s.tly with store := s.tly.store ++ xs } } := by
  induction xs generalizing s with
  | nil => rw [List.append_nil]; rfl
  | cons x xs ih =>
    rw [List.length_cons] at hroom
    rw [List.foldl_cons, storeRec_room hfull (by omega),
      ih (s := { s with tly := { s.tly with store := s.tly.store ++ [x] } }) hfull (by simp only [List.length_append, List.length_singleton]; omega)]
    simp only [List.append_assoc, List.singleton_append]

/-- A full store discards each record, and counts it. -/
theorem foldl_storeRec_full (xs : List TRec) {s : State} (hfull : s.tly.full = true) :
    ∃ n, xs.foldl storeRec s = { s with tly := { s.tly with overflow := n } } ∧
      n.toNat = min (2 ^ 32 - 1) (s.tly.overflow.toNat + xs.length) := by
  induction xs generalizing s with
  | nil =>
    have hlt := s.tly.overflow.isLt
    exact ⟨s.tly.overflow, rfl, by rw [List.length_nil]; omega⟩
  | cons x xs ih =>
    have hone : storeRec s x = { s with tly := { s.tly with overflow := satAdd32 s.tly.overflow 1 } } := by
      rw [storeRec, if_pos hfull]
    obtain ⟨n, hn, hcount⟩ := ih (s := { s with tly := { s.tly with overflow := satAdd32 s.tly.overflow 1 } }) hfull
    refine ⟨n, by rw [List.foldl_cons, hone, hn], ?_⟩
    rw [hcount, satAdd32_toNat, List.length_cons]
    omega

/-! ## The flush (R535 to R537) -/

/-- The state from which a flush stores: the Kennel's buffer has been taken. -/
def bufferTaken (s : State) : State := { s with tly := { s.tly with buffer := [], flushing := false } }

/-- A flush stores the buffer, then the count of dropped records, and passes the next number back. -/
theorem flushNow_eq (s : State) : flushNow s =
    let t := storeDropped (s.tly.buffer.foldl storeRec (bufferTaken s))
    { t with tly := { t.tly with passed := t.tly.next } } := rfl

theorem storeDropped_none {s : State} (h : s.tly.droppedSince = 0) : storeDropped s = s := by simp [storeDropped, h]

/-- R537: the count of dropped records is stored under the next number. -/
theorem storeDropped_room {s : State} (hsome : s.tly.droppedSince ≠ 0) (hpower : s.shp.pwrFail = false) (hfull : s.tly.full = false)
    (hroom : s.tly.store.length + 1 < storeSlots) : ∃ x, storeDropped s = { s with
      tly := { s.tly with droppedSince := 0, store := s.tly.store ++ [x], next := s.tly.next + 1 } } ∧
      x.code = 0x0D100003 ∧ x.seq = s.tly.next ∧ x.detail = slice (natLE 4 s.tly.droppedSince.toNat) 0 24 := by
  refine ⟨tallyRec { s with tly := { s.tly with droppedSince := 0 } } 0x0D100003 (d4 s.tly.droppedSince.toNat), ?_, ?_⟩
  · simp only [storeDropped, hsome, hpower, decide_false, Bool.or_false, Bool.false_eq_true, if_false, storeNow]
    rw [storeRec_room (s := { s with tly := { s.tly with droppedSince := 0 } }) hfull hroom]
  · unfold tallyRec
    split <;> exact ⟨rfl, rfl, rfl⟩

/-- A flush of a store with room, with nothing dropped since the last. -/
theorem flushNow_room {s : State} (hfull : s.tly.full = false) (hnone : s.tly.droppedSince = 0)
    (hroom : s.tly.store.length + s.tly.buffer.length < storeSlots) : flushNow s =
      { s with tly := { s.tly with store := s.tly.store ++ s.tly.buffer, buffer := [], flushing := false, passed := s.tly.next } } := by
  rw [flushNow_eq, foldl_storeRec_room _ (s := bufferTaken s) hfull hroom, storeDropped_none (by exact hnone)]
  rfl

/-- A flush of a full store, with nothing dropped since the last. -/
theorem flushNow_full {s : State} (hfull : s.tly.full = true) (hnone : s.tly.droppedSince = 0) :
    ∃ n, flushNow s = { s with tly := { s.tly with overflow := n, buffer := [], flushing := false, passed := s.tly.next } } ∧
      n.toNat = min (2 ^ 32 - 1) (s.tly.overflow.toNat + s.tly.buffer.length) := by
  obtain ⟨n, hstored, hcount⟩ := foldl_storeRec_full s.tly.buffer (s := bufferTaken s) hfull
  exact ⟨n, by rw [flushNow_eq, hstored, storeDropped_none (by exact hnone)]; rfl, hcount⟩

/-- A flush of a store with room, with records dropped since the last. -/
theorem flushNow_dropped {s : State} (hfull : s.tly.full = false) (hsome : s.tly.droppedSince ≠ 0) (hpower : s.shp.pwrFail = false)
    (hroom : s.tly.store.length + s.tly.buffer.length + 1 < storeSlots) :
    ∃ x, (flushNow s).tly.store = s.tly.store ++ s.tly.buffer ++ [x] ∧ x.code = 0x0D100003 ∧ x.seq = s.tly.next ∧
      x.detail = slice (natLE 4 s.tly.droppedSince.toNat) 0 24 ∧ (flushNow s).tly.droppedSince = 0 ∧
      (flushNow s).tly.next = s.tly.next + 1 := by
  have hstored := foldl_storeRec_room s.tly.buffer (s := bufferTaken s) hfull (Nat.lt_of_succ_lt hroom)
  obtain ⟨x, hx, hcode, hseq, hdetail⟩ := storeDropped_room
    (s := { bufferTaken s with tly := { (bufferTaken s).tly with store := s.tly.store ++ s.tly.buffer } }) hsome hpower hfull
    (by simpa only [List.length_append] using hroom)
  have hflush : flushNow s = { bufferTaken s with tly := { (bufferTaken s).tly with
      droppedSince := 0, store := s.tly.store ++ s.tly.buffer ++ [x], next := s.tly.next + 1, passed := s.tly.next + 1 } } := by
    rw [flushNow_eq, hstored]
    exact congrArg (fun t : State => { t with tly := { t.tly with passed := t.tly.next } }) hx
  rw [hflush]
  exact ⟨x, rfl, hcode, hseq, hdetail, rfl, rfl⟩

/-! ## The calibration program (R601) -/

theorem vget_ofFn {α : Type} {n : Nat} (f : Fin n → α) {i : Nat} (h : i < n) (d : α) : vget (Vector.ofFn f) i d = f ⟨i, h⟩ := by
  simp [vget, List.getD_eq_getElem?_getD, h]

/-- The classes that the program measures are the grains', and the present band's static and rail entries. -/
theorem vget_measured (s : State) (v : Vector Word 20) {c : Nat} (h : c < 20) : vget (measured s v) c 0 =
    if c < 12 ∨ c = 12 + s.knl.band.toNat ∨ c = 16 + s.knl.band.toNat then vget v c 0 else 0 := by
  have hv : vget v c 0 = v[c] := by simp [vget, List.getD_eq_getElem?_getD, h]
  rw [measured, vget_ofFn _ h, hv]
  rfl

/-- Settles O49: what the calibration program writes, then a flush of a store with room, of a full one and with dropped records. -/
theorem calibrationAndTally : Obligations.CalibrationAndTally := by
  refine ⟨fun s v => ⟨fun h => ⟨_, rfl, ?_⟩, fun h => ?_⟩, fun s hflush hserve hfull hnone hroom => ?_,
    fun s hflush hserve hfull hnone => ?_, fun s hflush hserve hfull hsome hpower hroom => ?_, fun s h => ?_, fun s hdie => ?_⟩
  · rw [calibrationDone, if_pos h]
    exact ⟨rfl, fun c hc => vget_measured s v hc⟩
  · exact congrArg Host.Outcome.next (if_neg (by simp [h]))
  · refine ⟨_, rfl, ?_⟩
    rw [if_pos (by simp [hflush, hserve]), flushNow_room hfull hnone hroom]
    exact ⟨rfl, rfl⟩
  · obtain ⟨n, hstored, hcount⟩ := flushNow_full hfull hnone
    refine ⟨_, rfl, ?_⟩
    rw [if_pos (by simp [hflush, hserve]), hstored]
    exact ⟨rfl, rfl, hcount⟩
  · refine ⟨_, rfl, ?_⟩
    rw [if_pos (by simp [hflush, hserve])]
    exact flushNow_dropped hfull hsome hpower hroom
  · exact congrArg Host.Outcome.next (if_neg (by rcases h with h | h <;> simp [h]))
  · have hbegin : beginFlush s = { s with tly := { s.tly with flushing := true } } := if_neg hdie
    refine ⟨⟨_, rfl, hbegin⟩, fun hsome => ⟨_, rfl, ?_⟩, fun hhalf => ⟨_, rfl, ?_⟩⟩
    · rw [if_neg (by simpa using hsome), hbegin]
    · rw [if_pos hhalf, hbegin]

end Sys2Proof.Machine
end

section
/-!
The governor: the order of the grains, their grants and their waits (R587 to R592): O48.
-/
namespace Sys2Proof.Machine

/-! ## The order of consideration (R591) -/

/-- Of two grains one is considered before the other. -/
theorem grainBefore_total (s : State) {a b : Grain} (h : grainBefore s a b = false) : grainBefore s b a = true := by
  simp only [grainBefore, Bool.or_eq_false_iff, Bool.and_eq_false_iff, decide_eq_false_iff_not, beq_eq_false_iff_ne, Bool.or_eq_true,
    Bool.and_eq_true, decide_eq_true_eq, beq_iff_eq] at h ⊢
  omega

theorem grainBefore_trans (s : State) {a b c : Grain} (h : grainBefore s a b = true) (h' : grainBefore s b c = true) :
    grainBefore s a c = true := by
  simp only [grainBefore, Bool.or_eq_true, Bool.and_eq_true, decide_eq_true_eq, beq_iff_eq] at h h' ⊢
  omega

/-- A grain takes its place among the others. -/
theorem insertGrain_perm (s : State) (x : Grain) (ys : List Grain) : (insertGrain s x ys).Perm (x :: ys) := by
  induction ys with
  | nil => exact .refl _
  | cons y ys ih =>
    rw [insertGrain]
    split
    · exact (ih.cons y).trans (.swap x y ys)
    · exact .refl _

/-- A grain that is placed in the order keeps it. -/
theorem insertGrain_ordered (s : State) (x : Grain) {ys : List Grain} (h : ys.Pairwise fun a b => grainBefore s a b = true) :
    (insertGrain s x ys).Pairwise fun a b => grainBefore s a b = true := by
  induction ys with
  | nil => exact List.pairwise_singleton _ _
  | cons y ys ih =>
    obtain ⟨hy, hys⟩ := List.pairwise_cons.mp h
    rw [insertGrain]
    split
    case isTrue hyx =>
      refine List.pairwise_cons.mpr ⟨fun z hz => ?_, ih hys⟩
      rcases List.mem_cons.mp ((insertGrain_perm s x ys).mem_iff.mp hz) with rfl | hz
      · exact hyx
      · exact hy z hz
    case isFalse hyx =>
      have hxy : grainBefore s x y = true := grainBefore_total s (by simpa using hyx)
      refine List.pairwise_cons.mpr ⟨fun z hz => ?_, h⟩
      rcases List.mem_cons.mp hz with rfl | hz
      · exact hxy
      · exact grainBefore_trans s hxy (hy z hz)

/-- Grains placed one after the other: each of them is there, in the order. -/
theorem foldl_insertGrain_spec (s : State) (xs : List Grain) {ys : List Grain} (h : ys.Pairwise fun a b => grainBefore s a b = true) :
    (xs.foldl (fun l g => insertGrain s g l) ys).Perm (xs ++ ys) ∧
    (xs.foldl (fun l g => insertGrain s g l) ys).Pairwise fun a b => grainBefore s a b = true := by
  induction xs generalizing ys with
  | nil => exact ⟨.refl _, h⟩
  | cons x xs ih =>
    obtain ⟨hperm, hordered⟩ := ih (insertGrain_ordered s x h)
    exact ⟨hperm.trans (((insertGrain_perm s x ys).append_left xs).trans List.perm_middle), hordered⟩

/-! ## Waiting for credits (R131, R203) -/

/-- Between s and t units were shown to wait: THROTTLE bits rose, and nothing else changed. -/
structure WaitsShown (s t : State) : Prop where
  rest : t = { s with edg := { s.edg with throttle := t.edg.throttle }, rod := { s.rod with throttle := t.rod.throttle } }
  edge : s.edg.throttle = true → t.edg.throttle = true
  rods : ∀ i, s.rod.throttle.getLsbD i = true → t.rod.throttle.getLsbD i = true

theorem WaitsShown.refl (s : State) : WaitsShown s s := ⟨rfl, id, fun _ => id⟩

theorem WaitsShown.trans {s t u : State} (h : WaitsShown s t) (h' : WaitsShown t u) : WaitsShown s u where
  rest := by rw [h'.rest, h.rest]
  edge := h'.edge ∘ h.edge
  rods i := h'.rods i ∘ h.rods i

/-- The THROTTLE bit of strand n's unit shows that a grain waits. -/
def ShowsWait (t : State) (n : Nat) : Prop :=
  (n = 1 → t.edg.throttle = true) ∧ (18 ≤ n → n ≤ 33 → t.rod.throttle.getLsbD (n - 18) = true)

theorem WaitsShown.keeps {s t : State} (h : WaitsShown s t) {n : Nat} (hn : ShowsWait s n) : ShowsWait t n :=
  ⟨fun he => h.edge (hn.1 he), fun hlo hhi => h.rods _ (hn.2 hlo hhi)⟩

theorem getLsbD_ofNat_two_pow {i : Nat} (h : i < 16) (j : Nat) : (BitVec.ofNat 16 (2 ^ i)).getLsbD j = decide (i = j) := by
  rw [BitVec.getLsbD_ofNat, Nat.testBit_two_pow]
  by_cases hij : i = j
  · simp [← hij, h]
  · simp [hij]

theorem creditWait_shows (s : State) (n : Nat) : WaitsShown s (creditWait s n true) ∧ ShowsWait (creditWait s n true) n := by
  unfold creditWait
  split
  case isTrue hedge => exact ⟨⟨rfl, fun _ => rfl, fun _ h => h⟩, fun _ => rfl, fun hlo => by omega⟩
  case isFalse hedge =>
    split
    case isTrue hrods =>
      refine ⟨⟨rfl, fun h => h, fun i h => ?_⟩, fun he => absurd he hedge, fun _ _ => ?_⟩
      · simp only [if_true, BitVec.getLsbD_or, h, Bool.true_or]
      · simp only [if_true, BitVec.getLsbD_or, getLsbD_ofNat_two_pow (show n - 18 < 16 by omega), decide_true, Bool.or_true]
    case isFalse hrods => exact ⟨.refl s, fun he => absurd he hedge, fun hlo hhi => absurd ⟨hlo, hhi⟩ hrods⟩

/-- Each unit whose grain waits shows it. -/
theorem foldl_creditWait_shows (gs : List Grain) (s : State) :
    let t := gs.foldl (fun s g => creditWait s g.strand true) s
    WaitsShown s t ∧ ∀ g ∈ gs, ShowsWait t g.strand := by
  induction gs generalizing s with
  | nil => exact ⟨.refl s, fun _ h => absurd h List.not_mem_nil⟩
  | cons g gs ih =>
    obtain ⟨hone, hshows⟩ := creditWait_shows s g.strand
    obtain ⟨hmore, hothers⟩ := ih (creditWait s g.strand true)
    refine ⟨hone.trans hmore, fun x hx => ?_⟩
    rcases List.mem_cons.mp hx with rfl | hx
    · exact hmore.keeps hshows
    · exact hothers x hx

/-- A unit whose grain begins waits no longer. -/
theorem creditWait_ends (s : State) (n : Nat) :
    creditWait s n false = { s with
      edg := { s.edg with throttle := (creditWait s n false).edg.throttle }
      rod := { s.rod with throttle := (creditWait s n false).rod.throttle } } ∧
    (n = 1 → (creditWait s n false).edg.throttle = false) ∧
    (18 ≤ n → n ≤ 33 → (creditWait s n false).rod.throttle.getLsbD (n - 18) = false) := by
  unfold creditWait
  split
  case isTrue hedge => exact ⟨rfl, fun _ => rfl, fun hlo => by omega⟩
  case isFalse hedge =>
    split
    case isTrue hrods =>
      refine ⟨rfl, fun he => absurd he hedge, fun _ _ => ?_⟩
      simp only [Bool.false_eq_true, if_false, BitVec.getLsbD_and, BitVec.getLsbD_not,
        getLsbD_ofNat_two_pow (show n - 18 < 16 by omega), decide_true, Bool.not_true, Bool.and_false]
    case isFalse hrods => exact ⟨rfl, fun he => absurd he hedge, fun hlo hhi => absurd ⟨hlo, hhi⟩ hrods⟩

/-! ## The pool's shortage (R590) -/

/-- What noting a shortage changes: SHORT, and the code that is on its way when one begins. -/
theorem noteShort_eq {s : State} (h : s.die ≠ .off) : ∃ short inflight, noteShort s = { s with
      gov := { s.gov with short := short }, knl := { s.knl with inflight := inflight } } ∧
    (short = if s.gov.short = true then decide (2 * s.gov.pool ≤ depth s) else decide (8 * s.gov.pool < depth s)) ∧
    (s.gov.short = false → short = true → ⟨0x090D0002, .count, [], s.sys.drill⟩ ∈ inflight) := by
  unfold noteShort
  cases hshort : s.gov.short
  case false =>
    by_cases hlow : 8 * s.gov.pool < depth s
    · rw [if_pos (by simp [hlow]), raise_noEvent (s := setGov s { s.gov with short := true }) h rfl fun _ => rfl]
      exact ⟨true, _, rfl, by simp [hlow], fun _ _ => List.mem_append_right _ (List.mem_singleton.mpr rfl)⟩
    · rw [if_neg (by simp [hlow]), if_neg (by simp)]
      exact ⟨s.gov.short, s.knl.inflight, rfl, by simp [hshort, hlow], fun _ h => by simp [hshort] at h⟩
  case true =>
    rw [if_neg (by simp)]
    by_cases hhigh : (depth s : Int) < 2 * s.gov.pool
    · rw [if_pos (by simp [hhigh])]
      exact ⟨false, s.knl.inflight, rfl, by simp [hhigh], fun h => by cases h⟩
    · rw [if_neg (by simp [hhigh])]
      exact ⟨s.gov.short, s.knl.inflight, rfl, by simp [hshort, Int.not_lt.mp hhigh], fun h => by cases h⟩

/-! ## A governor cycle -/

/-- Grains in order, granted up to the first that cannot be; the rest wait. -/
theorem grainGrant_eq {s : State} (h : s.die ≠ .off) (arrived : List Grain) : grainGrant s arrived =
    let p := grantAll s (grainOrder s arrived)
    let t := p.2.foldl (fun s g => creditWait s g.strand true) p.1
    noteShort (setGov t { t.gov with waiting := p.2.map fun g => { g with waited := g.waited + 1 } }) := by
  rw [grainGrant, if_neg h]
  rfl

theorem grantOk_iff (s : State) (g : Grain) : grantOk s g = true ↔ (0 ≤ s.gov.pool ∧ (grainCost s g : Int) ≤ s.gov.pool ∧
    s.gov.grantedUs + s.gov.staticUs + grainCost s g ≤ 1450000 * 256 ∧ (s.gov.clamp = true → g.strand ∈ s.gov.aged ∨ g.rank = 0)) := by
  have hrank : grainRank s g = 0 ↔ g.strand ∈ s.gov.aged ∨ g.rank = 0 := by
    by_cases haged : g.strand ∈ s.gov.aged <;> simp [grainRank, haged]
  have hclamp : (!s.gov.clamp || grainRank s g == 0) = true ↔ (s.gov.clamp = true → g.strand ∈ s.gov.aged ∨ g.rank = 0) := by
    cases s.gov.clamp <;> simp [hrank]
  simp only [grantOk, Bool.and_eq_true, decide_eq_true_eq, hclamp, and_assoc]
  rw [show nJ 1450000 = 1450000 * 256 from rfl]

/-- R591: the first grain cannot be granted: every grain waits. -/
theorem grainGrant_held {s : State} (hdie : s.die ≠ .off) {arrived gs : List Grain} {g : Grain} (horder : grainOrder s arrived = g :: gs)
    (hno : grantOk s g = false) : let t := grainGrant s arrived
      t.gov.waiting = (g :: gs).map (fun x => { x with waited := x.waited + 1 }) ∧ t.gov.pool = s.gov.pool ∧
      t.gov.grantedUs = s.gov.grantedUs ∧ t.gov.aged = s.gov.aged ∧ (∀ x ∈ g :: gs, ShowsWait t x.strand) ∧
      t.mem = s.mem ∧ t.str = s.str := by
  obtain ⟨hshown, hwait⟩ := foldl_creditWait_shows (g :: gs) s
  have hgrant : grainGrant s arrived = noteShort (setGov _ { State.gov _ with waiting := _ }) := grainGrant_eq hdie arrived
  simp only [horder, grantAll, hno, Bool.false_eq_true, if_false] at hgrant
  generalize (g :: gs).foldl (fun s g => creditWait s g.strand true) s = u at hshown hwait hgrant
  have hu : u.die ≠ .off := by rw [hshown.rest]; exact hdie
  obtain ⟨short, inflight, hnote, -⟩ := noteShort_eq (s := setGov u { u.gov with waiting := (g :: gs).map fun g => { g with waited := g.waited + 1 } }) hu
  have hgov : u.gov = s.gov := by rw [hshown.rest]
  have hmem : u.mem = s.mem := by rw [hshown.rest]
  have hstr : u.str = s.str := by rw [hshown.rest]
  intro t
  rw [show t = _ from hgrant.trans hnote]
  exact ⟨rfl, (congrArg Gov.pool hgov :), (congrArg Gov.grantedUs hgov :), (congrArg Gov.aged hgov :), hwait, hmem, hstr⟩

/-- R587: the only grain is granted: its cost leaves the pool and counts in the microsecond and the period. -/
theorem grainGrant_granted {s : State} (hdie : s.die ≠ .off) {arrived : List Grain} {g : Grain} (horder : grainOrder s arrived = [g])
    (hok : grantOk s g = true) : let t := grainGrant s arrived
      t.gov.waiting = [] ∧ t.gov.pool = s.gov.pool - grainCost s g ∧ t.gov.grantedUs = s.gov.grantedUs + grainCost s g ∧
      t.gov.periodE = s.gov.periodE + grainCost s g ∧ t.gov.aged = s.gov.aged.erase g.strand ∧
      (g.strand = 1 → t.edg.throttle = false) ∧
      (18 ≤ g.strand → g.strand ≤ 33 → t.rod.throttle.getLsbD (g.strand - 18) = false) ∧ t.mem = s.mem ∧ t.str = s.str := by
  have hgrant : grainGrant s arrived = noteShort (setGov _ { State.gov _ with waiting := _ }) := grainGrant_eq hdie arrived
  simp only [horder, grantAll, hok, if_true, List.foldl_nil, List.map_nil, grantGrain] at hgrant
  obtain ⟨hends, hedge, hrods⟩ := creditWait_ends (setGov s { s.gov with
    pool := s.gov.pool - grainCost s g, grantedUs := s.gov.grantedUs + grainCost s g, periodE := s.gov.periodE + grainCost s g,
    aged := s.gov.aged.erase g.strand }) g.strand
  generalize creditWait (setGov s _) g.strand false = u at hends hedge hrods hgrant
  have hu : u.die ≠ .off := by rw [hends]; exact hdie
  obtain ⟨short, inflight, hnote, -⟩ := noteShort_eq (s := setGov u { u.gov with waiting := [] }) hu
  have hgov : u.gov = { s.gov with
    pool := s.gov.pool - grainCost s g, grantedUs := s.gov.grantedUs + grainCost s g, periodE := s.gov.periodE + grainCost s g,
    aged := s.gov.aged.erase g.strand } := by rw [hends]; rfl
  have hmem : u.mem = s.mem := by rw [hends]; rfl
  have hstr : u.str = s.str := by rw [hends]; rfl
  intro t
  rw [show t = _ from hgrant.trans hnote]
  exact ⟨rfl, (congrArg Gov.pool hgov :), (congrArg Gov.grantedUs hgov :), (congrArg Gov.periodE hgov :), (congrArg Gov.aged hgov :), hedge, hrods, hmem, hstr⟩

/-- Settles O48: insertion sorts, the first grain is granted or holds all back, and an aged strand's grain has rank 0. -/
theorem grainsGranted : Obligations.GrainsGranted := by
  refine ⟨fun s arrived => ?_, fun s arrived g gs hdie horder => ⟨fun hno => ⟨_, rfl, grainGrant_held hdie horder hno⟩,
    fun hok hlast => ⟨_, rfl, grainGrant_granted hdie (hlast ▸ horder) hok⟩⟩, grantOk_iff, fun s n => ⟨fun hwaits hfresh => ⟨_, rfl, ?_⟩,
    fun hnone => congrArg Host.Outcome.next (if_neg ?_)⟩⟩
  · simpa only [List.append_nil, grainOrder] using foldl_insertGrain_spec s (s.gov.waiting ++ arrived) .nil
  · rw [grainAged, if_pos (by simpa [hfresh] using hwaits)]
    exact ⟨rfl, fun g hg => if_pos (by simp [hg])⟩
  · simpa using fun g hg heq => absurd heq (hnone g hg)

end Sys2Proof.Machine
end

section
/-!
The governor: the pool, its feedback, the clamp, the drift window and the deferral (R586, R590, R593 to R599): O47.
-/
namespace Sys2Proof.Machine

/-! ## The replenishment (R586, R606) -/

theorem budgetW_bounds (s : State) : 300 ≤ budgetW s ∧ budgetW s ≤ 1200 := by
  unfold budgetW
  omega

theorem derate_bounds (s : State) : 25 ≤ derate s ∧ derate s ≤ 100 := by
  unfold derate
  omega

theorem replenishment_eq (s : State) : replenishment s = budgetW s * derate s * 256000 / 100 := rfl

theorem replenishment_bounds (s : State) : 19200000 ≤ replenishment s ∧ replenishment s ≤ 307200000 := by
  obtain ⟨hbl, hbu⟩ := budgetW_bounds s
  obtain ⟨hdl, hdu⟩ := derate_bounds s
  have hlow : 300 * 25 ≤ budgetW s * derate s := Nat.mul_le_mul hbl hdl
  have hhigh : budgetW s * derate s ≤ 1200 * 100 := Nat.mul_le_mul hbu hdu
  rw [replenishment_eq]
  omega

/-! ## A microsecond (R586, R593, R594) -/

/-- The state in which the pool has taken its replenishment and paid its static cost. -/
def poolTicked (s : State) : State :=
  { setGov s { s.gov with
      pool := min (s.gov.pool + replenishment s - staticCost s) (depth s : Int), grantedUs := 0, staticUs := staticCost s
      periodE := s.gov.periodE + staticCost s } with
    shp := { s.shp with vid := vidCode s } }

/-- What a microsecond of the governor makes of the state. -/
theorem govTick_eq {s : State} (h : s.die ≠ .off) : ∃ short inflight, govTick s = { poolTicked s with
      gov := { (poolTicked s).gov with short := short, cntShort := if short = true then satAdd32 s.gov.cntShort 1 else s.gov.cntShort }
      knl := { s.knl with inflight := inflight } } ∧
    (short = if s.gov.short = true then decide (2 * (poolTicked s).gov.pool ≤ depth s)
      else decide (8 * (poolTicked s).gov.pool < depth s)) ∧
    (s.gov.short = false → short = true → ⟨0x090D0002, .count, [], s.sys.drill⟩ ∈ inflight) := by
  obtain ⟨short, inflight, hnote, hshort, hway⟩ := noteShort_eq (s := poolTicked s) h
  have htick : govTick s = if (noteShort (poolTicked s)).gov.short = true then
      setGov (noteShort (poolTicked s)) { (noteShort (poolTicked s)).gov with
        cntShort := satAdd32 (noteShort (poolTicked s)).gov.cntShort 1 }
      else noteShort (poolTicked s) := if_neg h
  refine ⟨short, inflight, ?_, hshort, hway⟩
  rw [htick, hnote]
  cases short <;> rfl

/-! ## A feedback period and a drift window (R597 to R599) -/

/-- A code of the governor's is recorded, with the governor noting when, or only counted. -/
def govReport (s : State) (due : Bool) (dated : Gov) (code : Nat) : State :=
  if due = true then raise (setGov s dated) code .event else raise s code .count

/-- A report changes the governor's EVENT, what it notes, and the codes on their way. -/
theorem govReport_eq {s : State} (h : s.die ≠ .off) (due : Bool) (dated : Gov) {code b : Nat} (hb : eventBit code = some (.gov, b))
    (hc : ∀ t, countCode t code = t) : ∃ g e inflight, (g = s.gov ∨ g = dated) ∧
      govReport s due dated code = { s with gov := { g with event := e }, knl := { s.knl with inflight := inflight } } ∧
      ∃ eff, (eff = .event ∨ eff = .count) ∧ ⟨BitVec.ofNat 32 code, eff, [], s.sys.drill⟩ ∈ inflight := by
  cases due
  case false =>
    exact ⟨s.gov, _, _, Or.inl rfl, raise_onlyGov h hb hc .count [], .count, Or.inr rfl,
      List.mem_append_right _ (List.mem_singleton.mpr rfl)⟩
  case true =>
    exact ⟨dated, _, _, Or.inr rfl, raise_onlyGov (s := setGov s dated) h hb hc .event [], .event, Or.inl rfl,
      List.mem_append_right _ (List.mem_singleton.mpr rfl)⟩

/-- The state in which the pool has taken the difference of what was measured and what was granted. -/
def periodSettled (s : State) (m : Nat) : State :=
  setGov s { s.gov with
    pool := max (-(depth s : Int)) (min (depth s) (s.gov.pool - ((nJ m : Int) - s.gov.periodE)))
    sumM := s.gov.sumM + nJ m, sumP := s.gov.sumP + s.gov.periodE, periodE := 0, clamp := decide (14500000 < m) }

/-- R597, R599: a feedback period settles the pool, notes a shortage, and reports a measurement that clamps. -/
theorem feedbackPeriod_eq {s : State} (h : s.die ≠ .off) (m : Nat) : let u := noteShort (periodSettled s m)
    feedbackPeriod s m = if !decide (14500000 < m) then u
      else govReport u (recordDue u u.gov.clampRec 1000000) { u.gov with clampRec := some u.shp.time } 0x090D0005 :=
  if_neg h

theorem feedbackPeriod_spec {s : State} (h : s.die ≠ .off) (m : Nat) : let t := feedbackPeriod s m
    t.gov.pool = (periodSettled s m).gov.pool ∧ t.gov.periodE = 0 ∧ t.gov.sumM = s.gov.sumM + nJ m ∧
    t.gov.sumP = s.gov.sumP + s.gov.periodE ∧ t.gov.clamp = decide (14500000 < m) ∧
    (14500000 < m → ∃ eff, (eff = .event ∨ eff = .count) ∧ OnItsWay t 0x090D0005 eff [] s.sys.drill) ∧ t.mem = s.mem := by
  intro t
  have ht : t = _ := feedbackPeriod_eq h m
  obtain ⟨short, inflight, hnote, -⟩ := noteShort_eq (s := periodSettled s m) h
  by_cases hhigh : 14500000 < m
  · rw [if_neg (by simp [hhigh])] at ht
    have hdie : (noteShort (periodSettled s m)).die ≠ .off := by rw [hnote]; exact h
    obtain ⟨g, e, inflight', hg, hreport, eff, heff, hway⟩ := govReport_eq hdie (recordDue (noteShort (periodSettled s m))
      (noteShort (periodSettled s m)).gov.clampRec 1000000) { (noteShort (periodSettled s m)).gov with
        clampRec := some (noteShort (periodSettled s m)).shp.time } (code := 0x090D0005) (b := 3) rfl fun _ => rfl
    rw [ht, hreport]
    refine ⟨?_, ?_, ?_, ?_, ?_, fun _ => ⟨eff, heff, ?_⟩, ?_⟩
    case refine_6 => rw [hnote] at hway; exact hway
    case refine_7 => rw [hnote]; rfl
    all_goals rcases hg with rfl | rfl <;> rw [hnote] <;> rfl
  · rw [if_pos (by simp [hhigh]), hnote] at ht
    rw [ht]
    exact ⟨rfl, rfl, rfl, rfl, rfl, fun h => absurd h hhigh, rfl⟩

/-- The state in which a drift window has ended. -/
def windowEnded (s : State) : State :=
  setGov s { s.gov with
    driftRatio := driftRatio s.gov, sumM := 0, sumP := 0
    driftCount := BitVec.ofNat 16 (if drifted s.gov then min 0xFFFF (s.gov.driftCount.toNat + 1) else s.gov.driftCount.toNat) }

/-- R598: a window ends, and one that has drifted is reported. -/
theorem driftWindow_eq {s : State} (h : s.die ≠ .off) : driftWindow s = if !drifted s.gov then windowEnded s
    else govReport (windowEnded s) (recordDue (windowEnded s) s.gov.driftRec 10000000)
      { (windowEnded s).gov with driftRec := some s.shp.time } 0x090D0001 :=
  if_neg h

theorem drifted_iff {g : Gov} (h : g.sumP ≠ 0) : drifted g = true ↔ 100 * g.sumM < 92 * g.sumP ∨ 108 * g.sumP < 100 * g.sumM := by
  simp only [drifted, if_neg h, decide_eq_true_eq, Nat.mul_comm g.sumM 100]

theorem driftRatio_toNat {g : Gov} (h : g.sumP ≠ 0) : (driftRatio g).toNat = min 65535 (g.sumM * 1024 / g.sumP) := by
  rw [driftRatio, if_neg h, BitVec.toNat_ofNat]
  exact Nat.mod_eq_of_lt (Nat.lt_succ_of_le (Nat.min_le_left ..))

/-- R598: a window within the limits. -/
theorem driftWindow_within {s : State} (h : s.die ≠ .off) (hsum : s.gov.sumP ≠ 0) (hin : drifted s.gov = false) :
    let t := driftWindow s
    t.gov.driftRatio.toNat = min 65535 (s.gov.sumM * 1024 / s.gov.sumP) ∧ t.gov.driftCount = s.gov.driftCount ∧
    t.gov.sumM = 0 ∧ t.gov.sumP = 0 ∧ t.knl = s.knl := by
  intro t
  rw [show t = windowEnded s from (driftWindow_eq h).trans (if_pos (by simp [hin]))]
  refine ⟨driftRatio_toNat hsum, ?_, rfl, rfl, rfl⟩
  simp [windowEnded, hin]

/-- R598: a window outside the limits. -/
theorem driftWindow_outside {s : State} (h : s.die ≠ .off) (hsum : s.gov.sumP ≠ 0) (hout : drifted s.gov = true) :
    let t := driftWindow s
    t.gov.driftRatio.toNat = min 65535 (s.gov.sumM * 1024 / s.gov.sumP) ∧
    t.gov.driftCount.toNat = min 65535 (s.gov.driftCount.toNat + 1) ∧ t.gov.sumM = 0 ∧ t.gov.sumP = 0 ∧
    ∃ eff, (eff = .event ∨ eff = .count) ∧ OnItsWay t 0x090D0001 eff [] s.sys.drill := by
  intro t
  obtain ⟨g, e, inflight, hg, hreport, eff, heff, hway⟩ := govReport_eq (s := windowEnded s) h
    (recordDue (windowEnded s) s.gov.driftRec 10000000) { (windowEnded s).gov with driftRec := some s.shp.time }
    (code := 0x090D0001) (b := 0) rfl fun _ => rfl
  rw [show t = _ from (driftWindow_eq h).trans ((if_neg (by simp [hout])).trans hreport)]
  have hsame : g.driftRatio = (windowEnded s).gov.driftRatio ∧ g.driftCount = (windowEnded s).gov.driftCount ∧ g.sumM = 0 ∧ g.sumP = 0 := by
    rcases hg with rfl | rfl <;> exact ⟨rfl, rfl, rfl, rfl⟩
  obtain ⟨hratio, hcount, hsumM, hsumP⟩ := hsame
  refine ⟨(congrArg BitVec.toNat hratio).trans (driftRatio_toNat hsum), (congrArg BitVec.toNat hcount).trans ?_, hsumM, hsumP, eff, heff, hway⟩
  have hlt := s.gov.driftCount.isLt
  simp only [windowEnded, setGov_gov, hout, if_true, BitVec.toNat_ofNat]
  omega

/-- R595: a whole millisecond with or without shortage. -/
theorem deferAdjust_spec {s : State} (h : s.die ≠ .off) : let t := deferAdjust s
    t = { s with knl := { s.knl with d := t.knl.d } } ∧
    t.knl.d.toNat = if s.knl.band = 3 then 0 else if s.gov.short = true then min 3 (s.knl.d.toNat + 1) else s.knl.d.toNat - 1 := by
  have hlt := s.knl.d.isLt
  rw [deferAdjust, if_neg h]
  refine ⟨rfl, ?_⟩
  simp only [BitVec.toNat_ofNat]
  split
  · rfl
  · split <;> omega

/-- Settles O47: the pool's microsecond, its feedback, the drift window within and outside the limits, and the deferral. -/
theorem governorPool : Obligations.GovernorPool := by
  refine ⟨⟨fun s hdie => ⟨_, rfl, ?_⟩, fun s => ⟨(replenishment_bounds s).1, (replenishment_bounds s).2, replenishment_eq s⟩⟩,
    fun s m hdie => ⟨_, rfl, feedbackPeriod_spec hdie m⟩, fun s hdie hsum => ⟨fun hlow hhigh => ⟨_, rfl, ?_⟩, fun hout => ⟨_, rfl, ?_⟩⟩,
    fun s hdie => ⟨_, rfl, deferAdjust_spec hdie⟩⟩
  · obtain ⟨short, inflight, htick, hshort, hway⟩ := govTick_eq hdie
    rw [htick]
    exact ⟨rfl, rfl, rfl, rfl, rfl, hshort, rfl, hway, rfl⟩
  · refine driftWindow_within hdie hsum (Bool.eq_false_iff.mpr fun h => ?_)
    have := (drifted_iff hsum).mp h
    omega
  · exact driftWindow_outside hdie hsum ((drifted_iff hsum).mpr hout)

end Sys2Proof.Machine
end

section
/-!
The wait-cycle detector, heartbeats and island resets, and the thermal bands (R435, R446 to R449, R451, R312): O46.
-/
namespace Sys2Proof.Machine

/-! ## Heartbeats and stalls (R449) -/

theorem find?_beq_eq {α : Type} [DecidableEq α] (xs : List α) (x : α) : xs.find? (· == x) = if x ∈ xs then some x else none := by
  cases h : xs.find? (· == x) with
  | some y =>
    have hy : y = x := by simpa using List.find?_some h
    rw [if_pos (hy ▸ List.mem_of_find?_eq_some h), hy]
  | none => exact (if_neg fun hx => by simpa using List.find?_eq_none.mp h x hx).symm

/-- R449: the missed heartbeats in a row of the islands that answer and of those that do not. -/
theorem missedBeats_heartbeat {s : State} (h : s.die ≠ .off) (missing : List Island) (i : Island) :
    missedBeats (heartbeat s missing) i = if i ∈ missing then missedBeats s i + 1 else 0 := by
  rw [heartbeat, if_neg h, missedBeats, setKnl_knl]
  simp only [List.find?_map, Function.comp_def, find?_beq_eq, List.mem_eraseDups]
  split <;> rfl

/-- An island whose missed heartbeats are dropped has missed none. -/
theorem find?_filter_ne {α β : Type} [DecidableEq α] (xs : List (α × β)) (i : α) :
    (xs.filter fun m => m.1 != i).find? (fun m => m.1 == i) = none := by
  refine List.find?_eq_none.mpr fun m hm => ?_
  simpa using (List.mem_filter.mp hm).2

/-- The state in which a stalled island starts over. -/
def beatsDropped (s : State) (i : Island) : State := setKnl s { s.knl with missed := s.knl.missed.filter fun m => m.1 != i }

/-- R449: what an island that has stalled starts. -/
theorem islandStall_eq {s : State} (h : s.die ≠ .off) {i : Island} (hfresh : i ∉ s.knl.stalled) {stopFailed : Bool}
    (hstall : stopFailed = true ∨ 4 ≤ missedBeats s i) : islandStall s i stopFailed =
      if islandAbsorbed i then raise (setKnl s { (beatsDropped s i).knl with stalled := s.knl.stalled ++ [i] }) 0x05010002 .absorbed
      else if s.knl.stallReset = some i ∧ s.str.teardown ≠ .none then raise (beatsDropped s i) 0x05010002 (.device true)
      else raise (setKnl s { (beatsDropped s i).knl with stallReset := some i }) 0x05010002 .jobEnding := by
  rw [islandStall, if_neg (by rcases hstall with hstall | hstall <;> simp [h, hfresh, hstall])]
  rfl

/-- R449: the stall of an island that an island reset absorbs. -/
theorem islandStall_absorbed {s : State} (h : s.die ≠ .off) {i : Island} (hfresh : i ∉ s.knl.stalled) {stopFailed : Bool}
    (hstall : stopFailed = true ∨ 4 ≤ missedBeats s i) (habsorbed : islandAbsorbed i = true) : let t := islandStall s i stopFailed
      i ∈ t.knl.stalled ∧ missedBeats t i = 0 ∧ OnItsWay t 0x05010002 .absorbed [] s.sys.drill := by
  intro t
  have hoff : (setKnl s { (beatsDropped s i).knl with stalled := s.knl.stalled ++ [i] }).die ≠ .off := h
  have ht : t = _ := (islandStall_eq h hfresh hstall).trans (if_pos habsorbed)
  have hway := raise_onItsWay hoff 0x05010002 .absorbed []
  rw [← ht] at hway
  rw [raise_onlyKnl hoff (b := 6) rfl fun _ => rfl] at ht
  refine ⟨?_, ?_, hway⟩
  all_goals rw [ht]
  · exact List.mem_append_right _ (List.mem_singleton.mpr rfl)
  · exact congrArg (fun m : Option (Island × Nat) => (m.map Prod.snd).getD 0) (find?_filter_ne s.knl.missed i)

/-- R449: the first stall of another island. -/
theorem islandStall_ends {s : State} (h : s.die ≠ .off) {i : Island} (hfresh : i ∉ s.knl.stalled) {stopFailed : Bool}
    (hstall : stopFailed = true ∨ 4 ≤ missedBeats s i) (hnot : islandAbsorbed i = false) (hfirst : s.knl.stallReset ≠ some i) :
    let t := islandStall s i stopFailed
    t.knl.stallReset = some i ∧ OnItsWay t 0x05010002 .jobEnding [] s.sys.drill := by
  intro t
  have hoff : (setKnl s { (beatsDropped s i).knl with stallReset := some i }).die ≠ .off := h
  have ht : t = _ := (islandStall_eq h hfresh hstall).trans ((if_neg (by simp [hnot])).trans (if_neg (by simp [hfirst])))
  have hway := raise_onItsWay hoff 0x05010002 .jobEnding []
  rw [← ht] at hway
  rw [raise_onlyKnl hoff (b := 6) rfl fun _ => rfl] at ht
  exact ⟨by rw [ht]; rfl, hway⟩

/-- R449: an island that stalls again in the teardown that its stall began. -/
theorem islandStall_resets {s : State} (h : s.die ≠ .off) {i : Island} (hfresh : i ∉ s.knl.stalled) {stopFailed : Bool}
    (hstall : stopFailed = true ∨ 4 ≤ missedBeats s i) (hnot : islandAbsorbed i = false) (hagain : s.knl.stallReset = some i)
    (htear : s.str.teardown ≠ .none) : OnItsWay (islandStall s i stopFailed) 0x05010002 (.device true) [] s.sys.drill := by
  rw [islandStall_eq h hfresh hstall, if_neg (by simp [hnot]), if_pos ⟨hagain, htear⟩]
  exact raise_onItsWay (s := beatsDropped s i) h 0x05010002 (.device true) []

/-! ## The reset of the Tether's island -/

/-- A session sends again from its oldest frame, and each of its frames counts. -/
def sendAgain (s : State) (l : Nat) (p : Bool) : State :=
  addRetry (setSess s l p { sess s l p with resend := (sess s l p).sent.head?.map Prod.fst }) l (sess s l p).sent.length

/-- The count of frames sent again of a link is none of its sessions' concern. -/
theorem sess_addRetry (s : State) (l : Fin 2) (n l' : Nat) (p : Bool) : sess (addRetry s l n) l' p = sess s l' p := by
  unfold addRetry sess
  by_cases hl : l' = l.val
  · subst hl
    rw [linkAt_setLink_same]
  · rw [linkAt_setLink_other s hl]

theorem sess_sendAgain_same (s : State) (l : Fin 2) (p : Bool) :
    sess (sendAgain s l p) l p = { sess s l p with resend := (sess s l p).sent.head?.map Prod.fst } := by
  rw [sendAgain, sess_addRetry, sess_setSess_same]

theorem sess_sendAgain_other (s : State) {l : Fin 2} {p : Bool} {l' : Nat} {p' : Bool} (h : l' ≠ l.val ∨ p' ≠ p) :
    sess (sendAgain s l p) l' p' = sess s l' p' := by
  rw [sendAgain, sess_addRetry, sess_setSess_other s h]

theorem retry_setSess (s : State) (l : Fin 2) (p : Bool) (x : Sess) (l' : Nat) :
    (linkAt (setSess s l p x) l').retry = (linkAt s l').retry := by
  unfold setSess
  by_cases hl : l' = l.val
  · subst hl
    rw [linkAt_setLink_same]
    cases p <;> rfl
  · rw [linkAt_setLink_other s hl]

theorem retry_sendAgain_same (s : State) (l : Fin 2) (p : Bool) :
    (linkAt (sendAgain s l p) l).retry = satAdd32 (linkAt s l).retry (sess s l p).sent.length := by
  rw [sendAgain, addRetry, linkAt_setLink_same, retry_setSess]

theorem retry_sendAgain_other (s : State) {l : Fin 2} (p : Bool) {l' : Nat} (h : l' ≠ l.val) :
    (linkAt (sendAgain s l p) l').retry = (linkAt s l').retry := by
  rw [sendAgain, addRetry, linkAt_setLink_other _ h, retry_setSess]

/-- A session sends again what it had sent before. -/
theorem sent_sendAgain (s : State) (l : Fin 2) (p : Bool) (l' : Nat) (p' : Bool) :
    (sess (sendAgain s l p) l' p').sent = (sess s l' p').sent := by
  by_cases h : l' = l.val ∧ p' = p
  · obtain ⟨rfl, rfl⟩ := h
    rw [sess_sendAgain_same]
  · rw [sess_sendAgain_other s (by tauto)]

/-- Both sessions of a link send again. -/
def linkAgain (s : State) (l : Nat) : State := sendAgain (sendAgain s l false) l true

theorem sess_linkAgain_same (s : State) (l : Fin 2) (p : Bool) :
    sess (linkAgain s l) l p = { sess s l p with resend := (sess s l p).sent.head?.map Prod.fst } := by
  cases p
  · rw [linkAgain, sess_sendAgain_other _ (Or.inr (by decide)), sess_sendAgain_same]
  · rw [linkAgain, sess_sendAgain_same, sess_sendAgain_other s (Or.inr (by decide))]

theorem sess_linkAgain_other (s : State) {l : Fin 2} {l' : Nat} (h : l' ≠ l.val) (p : Bool) : sess (linkAgain s l) l' p = sess s l' p := by
  rw [linkAgain, sess_sendAgain_other _ (Or.inl h), sess_sendAgain_other s (Or.inl h)]

theorem retry_linkAgain_same (s : State) (l : Fin 2) : (linkAt (linkAgain s l) l).retry =
    satAdd32 (satAdd32 (linkAt s l).retry (sess s l false).sent.length) (sess s l true).sent.length := by
  rw [linkAgain, retry_sendAgain_same, retry_sendAgain_same, sent_sendAgain]

theorem retry_linkAgain_other (s : State) {l : Fin 2} {l' : Nat} (h : l' ≠ l.val) :
    (linkAt (linkAgain s l) l').retry = (linkAt s l').retry := by
  rw [linkAgain, retry_sendAgain_other _ true h, retry_sendAgain_other s false h]

theorem tetherIslandReset_eq (s : State) : tetherIslandReset s = linkAgain (linkAgain s (0 : Fin 2)) (1 : Fin 2) := rfl

theorem sendAgain_keeps (s : State) (l : Nat) (p : Bool) : (sendAgain s l p).knl = s.knl ∧ (sendAgain s l p).mem = s.mem := ⟨rfl, rfl⟩

theorem tetherIslandReset_keeps (s : State) : (tetherIslandReset s).knl = s.knl ∧ (tetherIslandReset s).mem = s.mem := by
  simp only [tetherIslandReset_eq, linkAgain, sendAgain_keeps, and_self]

/-- R427, Table 12-8: every session sends again from its oldest frame, each frame counted. -/
theorem tetherIslandReset_spec (s : State) (l : Nat) (p : Bool) : let t := tetherIslandReset s
    (sess t l p).sent = (sess s l p).sent ∧
    (l < 2 → (sess t l p).resend = (sess s l p).sent.head?.map Prod.fst ∧ (linkAt t l).retry =
      satAdd32 (satAdd32 (linkAt s l).retry (sess s l false).sent.length) (sess s l true).sent.length) := by
  intro t
  rw [show t = _ from tetherIslandReset_eq s]
  match l with
  | 0 =>
    have hsess := (sess_linkAgain_other (linkAgain s (0 : Fin 2)) (l := 1) (l' := 0) (by decide) p).trans (sess_linkAgain_same s 0 p)
    have hretry := (retry_linkAgain_other (linkAgain s (0 : Fin 2)) (l := 1) (l' := 0) (by decide)).trans (retry_linkAgain_same s 0)
    exact ⟨(congrArg Sess.sent hsess :), fun _ => ⟨(congrArg Sess.resend hsess :), hretry⟩⟩
  | 1 =>
    have hother := fun p => sess_linkAgain_other s (l := 0) (l' := 1) (by decide) p
    have hsess := sess_linkAgain_same (linkAgain s (0 : Fin 2)) 1 p
    have hretry := retry_linkAgain_same (linkAgain s (0 : Fin 2)) 1
    rw [show ((1 : Fin 2).val) = 1 from rfl, hother] at hsess
    rw [show ((1 : Fin 2).val) = 1 from rfl, hother, hother, retry_linkAgain_other s (l := 0) (by decide)] at hretry
    exact ⟨(congrArg Sess.sent hsess :), fun _ => ⟨(congrArg Sess.resend hsess :), hretry⟩⟩
  | l + 2 =>
    refine ⟨?_, fun h => absurd h (by omega)⟩
    rw [sess_linkAgain_other _ (show l + 2 ≠ (1 : Fin 2).val by simp), sess_linkAgain_other _ (show l + 2 ≠ (0 : Fin 2).val by simp)]

/-- The state in which a stalled island is one no more. -/
def stallOver (s : State) (i : Island) : State := setKnl s { s.knl with stalled := s.knl.stalled.filter (· != i) }

theorem not_mem_stallOver (s : State) (i : Island) : i ∉ (stallOver s i).knl.stalled := fun h => by
  simpa using (List.mem_filter.mp h).2

/-! ## The reset of a lead group (R451) -/

/-- Lead i is re-laned on its lanes outside the group, where it has lanes in it. -/
def leadRegrouped (s : State) (g i : Nat) : State :=
  let lost := (leadAt s i).lanes.toNat &&& groupMask g
  if leadUp s i && lost != 0 then
    relaneOn s i ((leadAt s i).lanes.toNat - lost) ((firstBelow (bitOf lost) 32).getD 0)
  else s

/-- What lead i is after the reset of group g. -/
def regrouped (x : Lead) (g : Nat) : Lead :=
  let lost := x.lanes.toNat &&& groupMask g
  let left := x.lanes.toNat - lost
  if x.up = true ∧ lost ≠ 0 then
    let m := BitVec.ofNat 32 (lowestLanes left (laneCount (onesIn left 0 32)))
    { txFrame x (.relane m) with lanes := m, relaning := true }
  else x

/-- A lead that keeps enough lanes is re-laned; no other lead changes. -/
theorem leadRegrouped_spec {s : State} (h : s.die ≠ .off) (g : Nat) {i : Nat} (hi : i < 8)
    (hleft : leadUp s i = true → (leadAt s i).lanes.toNat &&& groupMask g = 0 ∨
      laneCount (onesIn ((leadAt s i).lanes.toNat - ((leadAt s i).lanes.toNat &&& groupMask g)) 0 32) ≠ 0) :
    let t := leadRegrouped s g i
    leadAt t i = regrouped (leadAt s i) g ∧ (∀ j, j ≠ i → leadAt t j = leadAt s j) ∧ t.die = s.die ∧ t.knl.stalled = s.knl.stalled := by
  intro t
  by_cases hact : leadUp s i = true ∧ (leadAt s i).lanes.toNat &&& groupMask g ≠ 0
  · obtain ⟨hup, hlost⟩ := hact
    have hcount := (hleft hup).resolve_left hlost
    have ht : t = _ := (if_pos (by simp [hup, hlost])).trans (relaneOn_left hcount _)
    generalize hm : BitVec.ofNat 32 _ = m at ht
    have hoff : (relaned s i m).die ≠ .off := h
    have hlead : ∀ j, leadAt t j = leadAt (relaned s i m) j := fun j => by
      rw [ht]
      exact leadAt_raiseLead hoff (b := 2) rfl (fun _ => rfl) .absorbed _ j
    refine ⟨?_, fun j hj => ?_, ?_, ?_⟩
    · rw [hlead, leadAt_relaned s hi, ← hm]
      exact (if_pos ⟨hup, hlost⟩).symm
    · rw [hlead]
      exact leadAt_setLead_other s hj _
    · rw [ht, raise_released hoff (u := .lead) (b := 2) rfl fun _ => rfl]
      rfl
    · rw [ht, raise_released hoff (u := .lead) (b := 2) rfl fun _ => rfl]
      rfl
  · have ht : t = s := if_neg (by simpa using hact)
    rw [ht]
    exact ⟨(if_neg hact).symm, fun _ _ => rfl, rfl, rfl⟩

/-- Leads that each keep enough lanes are re-laned one after the other. -/
theorem foldl_leadRegrouped_spec (g : Nat) {is : List Nat} (hnodup : is.Nodup) (hlt : ∀ i ∈ is, i < 8) {s : State} (h : s.die ≠ .off)
    (hleft : ∀ i ∈ is, leadUp s i = true → (leadAt s i).lanes.toNat &&& groupMask g = 0 ∨
      laneCount (onesIn ((leadAt s i).lanes.toNat - ((leadAt s i).lanes.toNat &&& groupMask g)) 0 32) ≠ 0) :
    let t := is.foldl (fun s i => leadRegrouped s g i) s
    (∀ i, leadAt t i = if i ∈ is then regrouped (leadAt s i) g else leadAt s i) ∧ t.knl.stalled = s.knl.stalled := by
  induction is generalizing s with
  | nil => exact ⟨fun _ => rfl, rfl⟩
  | cons i is ih =>
    obtain ⟨hnot, hnodup⟩ := List.nodup_cons.mp hnodup
    obtain ⟨hsame, hother, hdie, hstalled⟩ := leadRegrouped_spec h g (hlt i List.mem_cons_self) (hleft i List.mem_cons_self)
    obtain ⟨hrest, hstalled'⟩ := ih hnodup (fun j hj => hlt j (List.mem_cons_of_mem _ hj)) (s := leadRegrouped s g i) (hdie ▸ h)
      fun j hj => by
        have hji : j ≠ i := fun he => hnot (he ▸ hj)
        simpa only [leadUp, hother j hji] using hleft j (List.mem_cons_of_mem _ hj)
    refine ⟨fun j => (hrest j).trans ?_, hstalled'.trans hstalled⟩
    by_cases hji : j = i
    · subst hji
      rw [if_neg hnot, hsame, if_pos List.mem_cons_self]
    · simp only [hother j hji, List.mem_cons, hji, false_or]

/-! ## The reset of a stack's PHY (R312) -/

/-- pcId tells a stack's channels apart. -/
theorem pcId_injective (st : Fin 8) {pc pc' : Fin 32} (h : pcId st pc = pcId st pc') : pc = pc' := by
  unfold pcId at h
  omega

theorem pcRetrain_eq_self {s : State} {st : Fin 8} {pc : Fin 32}
    (h : pcLive s (pcId st pc) = false ∨ (st, pc) ∈ s.mem.retraining) : pcRetrain s st pc = s :=
  if_pos (by rcases h with h | h <;> simp [h])

/-- What the retrain of one channel leaves to the others of its stack. -/
theorem pcRetrain_spec {s : State} (h : s.die = .serving) (st : Fin 8) (pc : Fin 32) (hleft : RetrainsLeft s (pcId st pc)) :
    let t := pcRetrain s st pc
    (pcLive s (pcId st pc) = true → (st, pc) ∈ t.mem.retraining) ∧ (∀ x ∈ s.mem.retraining, x ∈ t.mem.retraining) ∧
    (∀ pc', pc' ≠ pc → (RetrainsLeft s (pcId st pc') → RetrainsLeft t (pcId st pc'))) ∧
    t.mem.live = s.mem.live ∧ t.mem.hbm = s.mem.hbm ∧ t.die = s.die ∧ t.snp = s.snp ∧ t.knl.stalled = s.knl.stalled := by
  intro t
  by_cases hact : pcLive s (pcId st pc) = true ∧ (st, pc) ∉ s.mem.retraining
  · obtain ⟨hlive, hnot⟩ := hact
    have hoff : (retrainBegun s st pc).die ≠ .off := released_of_serving h
    have ht : t = _ := (startRetrain_eq h hlive hnot).trans (if_neg (Nat.not_le.mpr hleft))
    rw [raise_onlyMem hoff (b := 4) (count := fun m => { m with cntRetrain := satAdd32 m.cntRetrain 1 }) rfl fun _ => rfl] at ht
    rw [ht]
    refine ⟨fun _ => List.mem_append_right _ (List.mem_singleton.mpr rfl), fun x hx => List.mem_append_left _ hx, fun pc' hne hpc' => ?_,
      rfl, rfl, rfl, rfl, rfl⟩
    have hother : sgetD (sset s.mem.pcRetrains (pcId st pc) (s.shp.time :: recent s 10000000 (sgetD s.mem.pcRetrains (pcId st pc) [])))
        (pcId st pc') [] = sgetD s.mem.pcRetrains (pcId st pc') [] := by
      rw [sgetD, sget?_sset_other _ fun he => hne (pcId_injective st he)]
      rfl
    exact (congrArg (fun ts => (recent s 10000000 ts).length < 3) hother).mpr hpc'
  · have ht : t = s := pcRetrain_eq_self (by
      by_cases hlive : pcLive s (pcId st pc) = true
      · exact Or.inr (by tauto)
      · exact Or.inl (by simpa using hlive))
    rw [ht]
    exact ⟨fun hlive => by tauto, fun _ hx => hx, fun _ _ hpc' => hpc', rfl, rfl, rfl, rfl, rfl⟩

/-- The live channels of a stack that each have a retrain left are all retrained. -/
theorem foldl_pcRetrain_spec (st : Fin 8) {pcs : List (Fin 32)} (hnodup : pcs.Nodup) {s : State} (h : s.die = .serving)
    (hleft : ∀ pc ∈ pcs, RetrainsLeft s (pcId st pc)) : let t := pcs.foldl (fun s pc => pcRetrain s st pc) s
    (∀ pc ∈ pcs, pcLive s (pcId st pc) = true → (st, pc) ∈ t.mem.retraining) ∧ (∀ x ∈ s.mem.retraining, x ∈ t.mem.retraining) ∧
    t.mem.hbm = s.mem.hbm ∧ t.snp = s.snp ∧ t.knl.stalled = s.knl.stalled := by
  induction pcs generalizing s with
  | nil => exact ⟨fun _ h => absurd h List.not_mem_nil, fun _ h => h, rfl, rfl, rfl⟩
  | cons pc pcs ih =>
    obtain ⟨hnot, hnodup⟩ := List.nodup_cons.mp hnodup
    obtain ⟨hone, hkept, hothers, hlive, hhbm, hdie, hsnp, hstalled⟩ := pcRetrain_spec h st pc (hleft pc List.mem_cons_self)
    obtain ⟨hmore, hkept', hhbm', hsnp', hstalled'⟩ := ih hnodup (s := pcRetrain s st pc) (hdie.trans h) fun pc' hpc' =>
      hothers pc' (fun he => hnot (he ▸ hpc')) (hleft pc' (List.mem_cons_of_mem _ hpc'))
    refine ⟨fun pc' hpc' hlive' => ?_, fun x hx => hkept' x (hkept x hx), hhbm'.trans hhbm, hsnp'.trans hsnp, hstalled'.trans hstalled⟩
    rcases List.mem_cons.mp hpc' with rfl | hpc'
    · exact hkept' _ (hone hlive')
    · exact hmore pc' hpc' (by rw [pcLive, hlive]; exact hlive')

/-! ## The thermal bands (R434, R435) -/

theorem bandOf_le (t : Int) : bandOf t ≤ 3 := by
  unfold bandOf
  repeat' split
  all_goals decide

theorem bandOf_eq_three (t : Int) : bandOf t = 3 ↔ 95 ≤ t := by
  unfold bandOf
  repeat' split
  all_goals omega

/-- R434, R435: what a change of band does. -/
theorem setBand_spec {s : State} (h : s.die ≠ .off) {b : Nat} (hb : b ≤ 3) (c : BitVec 8) : let t := setBand s b c
    t.knl.band.toNat = b ∧ t.knl.temp = c ∧ (b = 3 → t.knl.d = 0) ∧ (b ≠ 3 → t.knl.d = s.knl.d) ∧
    OnItsWay t 0x09010001 .count [] s.sys.drill := by
  have hoff : (setKnl s { s.knl with band := BitVec.ofNat 2 b, temp := c, d := if b = 3 then 0 else s.knl.d }).die ≠ .off := h
  have hway : OnItsWay (setBand s b c) 0x09010001 .count [] s.sys.drill := raise_onItsWay hoff 0x09010001 .count []
  have hset : setBand s b c = _ := raise_noEvent hoff (code := 0x09010001) rfl (fun _ => rfl) .count []
  refine ⟨?_, ?_, fun h3 => ?_, fun h3 => ?_, hway⟩
  all_goals rw [hset]
  · show (BitVec.ofNat 2 b).toNat = b
    rw [BitVec.toNat_ofNat]
    omega
  · rfl
  · exact if_pos h3
  · exact if_neg h3

/-! ## The obligation -/

theorem islandReset_phy {s : State} {st : Fin 8} (h : .phy st ∈ s.knl.stalled) : islandReset s (.phy st) =
    drillHandled ((List.finRange 32).foldl (fun s pc => pcRetrain s st pc) (stallOver s (.phy st))) 4 :=
  if_neg (by simpa using h)

theorem islandReset_leadGroup {s : State} {g : Fin 4} (h : .leadGroup g ∈ s.knl.stalled) : islandReset s (.leadGroup g) =
    (List.range 8).foldl (fun s i => leadRegrouped s g.val i) (stallOver s (.leadGroup g)) :=
  if_neg (by simpa using h)

theorem islandReset_tether {s : State} (h : .tether ∈ s.knl.stalled) : islandReset s .tether = tetherIslandReset (stallOver s .tether) :=
  if_neg (by simpa using h)

theorem tetherReset_spec {s : State} (l : Nat) (p : Bool) (h : .tether ∈ s.knl.stalled) : let t := islandReset s .tether
    .tether ∉ t.knl.stalled ∧ (sess t l p).sent = (sess s l p).sent ∧
    (l < 2 → (sess t l p).resend = ((sess s l p).sent.head?).map Prod.fst ∧
      (linkAt t l).retry = satAdd32 (satAdd32 (linkAt s l).retry (sess s l false).sent.length) (sess s l true).sent.length) ∧
    t.mem = s.mem := by
  intro t
  rw [show t = _ from islandReset_tether h]
  have hspec := tetherIslandReset_spec (stallOver s .tether) l p
  simp only [sess_congr (show (stallOver s .tether).tet.link = s.tet.link from rfl),
    linkAt_congr (show (stallOver s .tether).tet.link = s.tet.link from rfl)] at hspec
  obtain ⟨hsent, hagain⟩ := hspec
  obtain ⟨hknl, hmem⟩ := tetherIslandReset_keeps (stallOver s .tether)
  refine ⟨?_, hsent, hagain, hmem⟩
  rw [hknl]
  exact not_mem_stallOver s .tether

theorem leadGroupReset_spec {s : State} {g : Fin 4} (hdie : s.die ≠ .off) (h : .leadGroup g ∈ s.knl.stalled) (hleft : GroupSurvives s g) :
    let t := islandReset s (.leadGroup g)
    .leadGroup g ∉ t.knl.stalled ∧ ∀ i, i < 8 → leadAt t i = regrouped (leadAt s i) g := by
  intro t
  obtain ⟨hleads, hstalled⟩ := foldl_leadRegrouped_spec g.val (List.nodup_range (n := 8)) (fun i hi => List.mem_range.mp hi)
    (s := stallOver s (.leadGroup g)) hdie fun i hi => hleft i (List.mem_range.mp hi)
  rw [show t = _ from islandReset_leadGroup h]
  generalize (List.range 8).foldl _ _ = u at hleads hstalled
  refine ⟨?_, fun i hi => (hleads i).trans (if_pos (List.mem_range.mpr hi))⟩
  rw [hstalled]
  exact not_mem_stallOver s (.leadGroup g)

theorem phyReset_spec {s : State} {st : Fin 8} (hdie : s.die = .serving) (h : .phy st ∈ s.knl.stalled) (hdrill : s.snp.drillActive = none)
    (hleft : ∀ pc : Fin 32, RetrainsLeft s (pcId st pc)) : let t := islandReset s (.phy st)
    .phy st ∉ t.knl.stalled ∧ (∀ pc : Fin 32, pcLive s (pcId st pc) = true → (st, pc) ∈ t.mem.retraining) ∧ t.mem.hbm = s.mem.hbm := by
  intro t
  obtain ⟨hretrained, -, hhbm, hsnp, hstalled⟩ := foldl_pcRetrain_spec st (List.nodup_finRange 32) (s := stallOver s (.phy st)) hdie
    fun pc _ => hleft pc
  have ht : t = _ := (islandReset_phy h).trans (drillHandled_none ((congrArg Snp.drillActive hsnp).trans hdrill) 4)
  rw [ht]
  generalize (List.finRange 32).foldl _ _ = u at hretrained hhbm hstalled
  refine ⟨?_, fun pc => hretrained pc (List.mem_finRange pc), hhbm⟩
  rw [hstalled]
  exact not_mem_stallOver s (.phy st)

/-- Settles O46: the detector's count and threshold, heartbeats and stalls, the three island resets, and the bands. -/
theorem hangsAndBands : Obligations.HangsAndBands := by
  refine ⟨⟨fun s hrun => ⟨fun hstep => ⟨_, rfl, if_pos (by simp [hrun, hstep])⟩, fun hcond hlong => ⟨_, rfl, ?_⟩, fun h => ?_⟩,
    fun s missing hdie => ⟨_, rfl, missedBeats_heartbeat hdie missing, by rw [heartbeat, if_neg hdie]; rfl⟩,
    fun s i stopFailed hdie hfresh => ⟨fun hstop hfew => ?_, fun hstall => ⟨fun ha => ⟨_, rfl, islandStall_absorbed hdie hfresh hstall ha⟩,
      fun ha hr => ⟨_, rfl, islandStall_ends hdie hfresh hstall ha hr⟩, fun ha hr ht => ⟨_, rfl, islandStall_resets hdie hfresh hstall ha hr ht⟩⟩⟩,
    fun s l p h => ⟨_, rfl, tetherReset_spec l p h⟩, fun s g hdie h hleft => ⟨_, rfl, ?_⟩,
    fun s st hdie h hdrill hleft => ⟨_, rfl, phyReset_spec hdie h hdrill hleft⟩⟩, fun s c hdie => ?_⟩
  · rw [show hangThreshold s = _ from if_pos (by simp [hrun, hcond, hangLimit, hlong])]
    exact ⟨raise_onItsWay (released_of_running hrun) .., raise_str ..⟩
  · refine congrArg Host.Outcome.next (if_neg ?_)
    rcases h with h | h
    · simp [h]
    · simp [hangLimit, Nat.not_le.mpr h]
  · exact congrArg Host.Outcome.next (if_pos (by simp [hstop, Nat.not_le.mpr hfew]))
  · obtain ⟨hstalled, hleads⟩ := leadGroupReset_spec hdie h hleft
    refine ⟨hstalled, fun i hi => ?_⟩
    have hlead := hleads i hi
    by_cases hlost : leadUp s i = true ∧ (leadAt s i).lanes.toNat &&& groupMask g ≠ 0
    · simp only [if_pos hlost]
      exact hlead.trans (if_pos hlost)
    · simp only [if_neg hlost]
      exact hlead.trans (if_neg hlost)
  · refine ⟨fun hrise => ⟨_, rfl, ?_⟩, fun hstay => congrArg Host.Outcome.next (if_neg fun h => absurd h.2 (Nat.not_lt.mpr hstay)),
      fun hpos hlow => ⟨_, rfl, ?_⟩, fun hstay => congrArg Host.Outcome.next (if_neg fun h => ?_)⟩
    · rw [show bandRise s c = _ from if_pos ⟨hdie, hrise⟩]
      obtain ⟨hband, htemp, hzero, hkept, hway⟩ := setBand_spec hdie (bandOf_le c.toInt) c
      exact ⟨hband, htemp, fun h => hzero ((bandOf_eq_three _).mpr h), fun h => hkept fun h3 => absurd ((bandOf_eq_three _).mp h3) (by omega), hway⟩
    · have hlt := s.knl.band.isLt
      rw [show bandFall s c = _ from if_pos ⟨hdie, hpos, by unfold bandBound; omega⟩]
      obtain ⟨hband, htemp, -, hkept, hway⟩ := setBand_spec hdie (show s.knl.band.toNat - 1 ≤ 3 by omega) c
      exact ⟨hband, htemp, hkept (by omega), hway⟩
    · obtain ⟨-, hpos, hlow⟩ := h
      unfold bandBound at hlow
      omega

end Sys2Proof.Machine
end

section
/-!
What reports change: the codes on their way, the counters that they name, and the records that they become (R429 to R431, R534 to R539).
-/
namespace Sys2Proof.Machine

/-! ## What a report can change -/

/-- From s to t nothing changed but what codes and their records change: EVENT registers and the counters of the memories, the codes on
their way and the last of them, the absorbed count, the tech page, and the Tally. -/
def OnlyReports (s t : State) : Prop :=
  t = { s with
    knl := { s.knl with event := t.knl.event, inflight := t.knl.inflight, lastCode := t.knl.lastCode, absorbed := t.knl.absorbed }
    frm := { s.frm with event := t.frm.event }
    edg := { s.edg with event := t.edg.event }
    rod := { s.rod with event := t.rod.event }
    mem := { s.mem with event := t.mem.event, cntCorr := t.mem.cntCorr, cntOdecc := t.mem.cntOdecc, cntCheck := t.mem.cntCheck
                        cntRetrain := t.mem.cntRetrain }
    brd := { s.brd with event := t.brd.event, cntCorr := t.brd.cntCorr }
    lead := { s.lead with event := t.lead.event }
    col := { s.col with event := t.col.event }
    tim := { s.tim with event := t.tim.event }
    tet := { s.tet with event := t.tet.event }
    snp := { s.snp with event := t.snp.event }
    gov := { s.gov with event := t.gov.event }
    sec := { s.sec with event := t.sec.event }
    shp := { s.shp with event := t.shp.event, tech := t.shp.tech }
    tly := t.tly }

theorem OnlyReports.refl (s : State) : OnlyReports s s := rfl

theorem OnlyReports.trans {s t u : State} (h : OnlyReports s t) (h' : OnlyReports t u) : OnlyReports s u := by
  unfold OnlyReports at h' ⊢
  rw [h] at h'
  exact h'

theorem onlyReports_foldl {α : Type} {f : State → α → State} (hf : ∀ s x, OnlyReports s (f s x)) (xs : List α) (s : State) :
    OnlyReports s (xs.foldl f s) := by
  induction xs generalizing s with
  | nil => exact .refl s
  | cons x xs ih => exact (hf s x).trans (ih (f s x))

theorem onlyReports_setEvent (s : State) (u : EvUnit) (b : Nat) : OnlyReports s (setEvent s u b) := by
  cases u <;> rfl

theorem onlyReports_countCode (s : State) (code : Nat) : OnlyReports s (countCode s code) := by
  unfold countCode
  split <;> rfl

theorem onlyReports_storeRec (s : State) (r : TRec) : OnlyReports s (storeRec s r) := by
  simp only [storeRec]
  repeat' split
  all_goals rfl

theorem onlyReports_shepherdRecord (s : State) (code : Nat) (eff : Effect) (detail : Bytes) :
    OnlyReports s (shepherdRecord s code eff detail) := by
  simp only [shepherdRecord]
  have htech : OnlyReports s (techCode s (BitVec.ofNat 32 code)) := rfl
  split
  · exact (htech.trans (onlyReports_storeRec _ _)).trans rfl
  · exact htech

/-- Raising a code, whoever records it, changes nothing but reports. -/
theorem onlyReports_raise (s : State) (code : Nat) (eff : Effect) (detail : Bytes) : OnlyReports s (raise s code eff detail) := by
  have hcode : ∀ u : State, OnlyReports u (if (countCode u code).die = .off then shepherdRecord (countCode u code) code eff detail
      else { countCode u code with knl := { (countCode u code).knl with
        inflight := (countCode u code).knl.inflight ++ [⟨BitVec.ofNat 32 code, eff, detail, (countCode u code).sys.drill⟩] } }) := by
    intro u
    split
    · exact (onlyReports_countCode u code).trans (onlyReports_shepherdRecord _ _ _ _)
    · exact (onlyReports_countCode u code).trans rfl
  unfold raise
  cases eventBit code with
  | none => exact hcode s
  | some ub => exact (onlyReports_setEvent s ub.1 ub.2).trans (hcode _)

/-! ## Collection and flushes -/

theorem onlyReports_addRecord (s : State) (code : Word) (detail : Bytes) (drill : Bool) : OnlyReports s (addRecord s code detail drill) := by
  simp only [addRecord]
  split <;> rfl

theorem onlyReports_beginFlush (s : State) : OnlyReports s (beginFlush s) := by
  unfold beginFlush
  split <;> rfl

theorem onlyReports_recordCode (s : State) (r : Raised) : OnlyReports s (recordCode s r) := by
  simp only [recordCode]
  generalize hn : (if effAbsorbed r.eff = true then satAdd32 s.knl.absorbed 1 else s.knl.absorbed) = n
  have hlast : OnlyReports s (techCode (setKnl s { s.knl with lastCode := r.code, absorbed := n }) r.code) := rfl
  have hadd : OnlyReports s (if effRecord r.eff = true then addRecord (techCode (setKnl s { s.knl with lastCode := r.code, absorbed := n })
      r.code) r.code r.detail r.drill else techCode (setKnl s { s.knl with lastCode := r.code, absorbed := n }) r.code) := by
    split
    · exact hlast.trans (onlyReports_addRecord _ _ _ _)
    · exact hlast
  split
  · exact hadd.trans (onlyReports_beginFlush _)
  · exact hadd

theorem onlyReports_drainCodes (s : State) : OnlyReports s (drainCodes s) := by
  have htaken : OnlyReports s (setKnl s { s.knl with inflight := [] }) := rfl
  exact htaken.trans (onlyReports_foldl onlyReports_recordCode _ _)

theorem onlyReports_storeDropped (s : State) : OnlyReports s (storeDropped s) := by
  simp only [storeDropped, storeNow]
  split
  · exact .refl s
  · have hzero : OnlyReports s { s with tly := { s.tly with droppedSince := 0 } } := rfl
    exact (hzero.trans (onlyReports_storeRec _ _)).trans rfl

theorem onlyReports_flushNow (s : State) : OnlyReports s (flushNow s) := by
  have htaken : OnlyReports s (bufferTaken s) := rfl
  rw [flushNow_eq]
  exact ((htaken.trans (onlyReports_foldl onlyReports_storeRec _ _)).trans (onlyReports_storeDropped _)).trans rfl

end Sys2Proof.Machine
end
section
/-!
The device reset: what it clears, and what MRAM and the Shepherd keep (R450, R453, R455, R459, R470, R558): O45.
-/
namespace Sys2Proof.Machine

/-- The record of resets after the one that is being prepared (R459). -/
def resetsAfter (s : State) : List (BitVec 64) :=
  if s.knl.resetCounted = true then (s.shp.time :: s.knl.resets).take 8 else s.knl.resets

/-- R459, R470: a counted reset enters the record, and may withdraw the device; one that was withdrawn stays so. -/
theorem escalate_spec (s : State) : ∃ w, OnlyReports (setKnl s { s.knl with resets := resetsAfter s, withdrawn := w }) (escalate s) ∧
    (s.knl.withdrawn = true → w = true) := by
  unfold escalate resetsAfter
  cases hcounted : s.knl.resetCounted
  case false => exact ⟨s.knl.withdrawn, rfl, id⟩
  case true =>
    simp only [Bool.not_true, Bool.false_eq_true, if_false, if_true]
    split
    · refine ⟨true, ?_, fun _ => rfl⟩
      split
      · exact (onlyReports_raise _ _ _ _).trans (onlyReports_raise _ _ _ _)
      · exact onlyReports_raise _ _ _ _
    · exact ⟨s.knl.withdrawn, rfl, id⟩

/-- The state that a device reset clears: what was recorded and withdrawn stands. -/
theorem beforeReset_spec (s : State) : ∃ w, (s.knl.withdrawn = true → w = true) ∧
    OnlyReports (setKnl s { s.knl with resets := resetsAfter s, withdrawn := w }) (flushNow (drainCodes (escalate s))) := by
  obtain ⟨w, hescalate, hw⟩ := escalate_spec s
  exact ⟨w, hw, (hescalate.trans (onlyReports_drainCodes _)).trans (onlyReports_flushNow _)⟩

theorem linkAt_resetDie (s : State) {l : Nat} (h : l < 2) : linkAt (resetDie s) l = linkKept (linkAt s l) :=
  vget_map linkKept s.tet.link h {}

theorem lmem_resetDie (s : State) (c : Nat) : lmem (resetDie s) c = [] := vget_replicate 16 c []

end Sys2Proof.Machine

namespace Sys2Proof
open Sys2Proof.Machine

/-- Settles O45: the reset records, stores and then clears, and what reports do not touch is kept. -/
theorem deviceReset : Obligations.DeviceReset := by
  refine ⟨fun s hpending hdie hpower hserve => ⟨_, rfl, ?_⟩, fun s h => congrArg Host.Outcome.next (if_pos ?_)⟩
  · have hreset : Machine.deviceReset s = resetDie (flushNow (drainCodes (escalate s))) := if_neg (by simp [hpending, hdie, hpower, hserve])
    obtain ⟨w, hw, hu⟩ := beforeReset_spec s
    rw [hreset]
    generalize flushNow (drainCodes (escalate s)) = u at hu
    have hkept : ∀ {α : Type} (f : State → α), f u = f _ := fun f => congrArg f hu
    have hlink : u.tet.link = s.tet.link := hkept (·.tet.link)
    refine ⟨rfl, rfl, rfl, lmem_resetDie u, rfl, rfl, rfl, rfl, rfl, rfl, rfl, rfl, hkept (·.sec.owner), hkept (·.sec.lock),
      hkept (·.frm.rowFail), hkept (·.frm.retired), hkept (·.mem.live), hkept (·.lead.plan), hkept (·.gov.ucal), hkept (·.tet.shpMarker),
      fun l hl => ?_, rfl, rfl, hkept (·.shp.serving), hkept (·.knl.resets), fun h => (hkept (·.knl.withdrawn)).trans (hw h)⟩
    rw [linkAt_resetDie u hl, linkAt_congr hlink]
    exact ⟨rfl, rfl, rfl⟩
  · rcases h with h | h | h <;> simp [h]

end Sys2Proof
end

section
/-!
The collection of codes, the end of a job by a fault, and what the memories' ECC meets (R287, R296, R297, R310, R429 to R431, R454,
R534 to R538, Tables 12-9 and 12-13): O43.
-/
namespace Sys2Proof.Machine

/-! ## The order of collection (R430) -/

theorem takeLeast_eq_none {l : List Raised} (h : takeLeast l = none) : l = [] := by
  cases l with
  | nil => rfl
  | cons r rs =>
    rw [takeLeast] at h
    cases hrs : takeLeast rs with
    | none => simp [hrs] at h
    | some p =>
      rw [hrs] at h
      simp only at h
      split at h <;> cases h

/-- The code that is collected is one of those in flight, and none of the others comes before it. -/
theorem takeLeast_spec {l : List Raised} {r : Raised} {rest : List Raised} (h : takeLeast l = some (r, rest)) :
    l.Perm (r :: rest) ∧ ∀ q ∈ rest, codeRank r.code ≤ codeRank q.code := by
  induction l generalizing r rest with
  | nil => cases h
  | cons x xs ih =>
    rw [takeLeast] at h
    cases hxs : takeLeast xs with
    | none =>
      rw [hxs] at h
      obtain rfl := takeLeast_eq_none hxs
      obtain ⟨rfl, rfl⟩ := Prod.mk.inj (Option.some.inj h)
      exact ⟨.refl _, fun _ hq => absurd hq List.not_mem_nil⟩
    | some p =>
      obtain ⟨q, others⟩ := p
      obtain ⟨hperm, hleast⟩ := ih hxs
      rw [hxs] at h
      simp only at h
      split at h
      case isTrue hle =>
        obtain ⟨rfl, rfl⟩ := Prod.mk.inj (Option.some.inj h)
        refine ⟨.refl _, fun y hy => ?_⟩
        rcases List.mem_cons.mp (hperm.mem_iff.mp hy) with rfl | hy
        · exact hle
        · exact Nat.le_trans hle (hleast y hy)
      case isFalse hlt =>
        obtain ⟨rfl, rfl⟩ := Prod.mk.inj (Option.some.inj h)
        refine ⟨(hperm.cons x).trans (.swap q x others), fun y hy => ?_⟩
        rcases List.mem_cons.mp hy with rfl | hy
        · exact Nat.le_of_lt (Nat.not_le.mp hlt)
        · exact hleast y hy

/-! ## What collection records (R431, R534 to R537) -/

/-- The absorbed count after a code of this effect. -/
def absorbedAfter (s : State) (eff : Effect) : Word :=
  if eff = .absorbed ∨ eff = .absorbedNoRecord then satAdd32 s.knl.absorbed 1 else s.knl.absorbed

theorem absorbedAfter_eq (s : State) (eff : Effect) :
    (if effAbsorbed eff = true then satAdd32 s.knl.absorbed 1 else s.knl.absorbed) = absorbedAfter s eff := by
  cases eff <;> simp [effAbsorbed, absorbedAfter]

/-- The state in which a code is the last one. -/
def lastCoded (s : State) (r : Raised) : State :=
  { s with knl := { s.knl with lastCode := r.code, absorbed := absorbedAfter s r.eff }, shp := { s.shp with tech := (r.code :: s.shp.tech).take 8 } }

/-- Collection makes a code the last one; its record goes to the Tally. -/
theorem recordCode_eq (s : State) (r : Raised) : recordCode s r =
    let u := if effRecord r.eff = true then addRecord (lastCoded s r) r.code r.detail r.drill else lastCoded s r
    if (effRecord r.eff && effFlush r.eff && recordFits s r.code) = true then beginFlush u else u := by
  simp only [recordCode, absorbedAfter_eq]
  rfl

/-- What the Tally makes of a code that is collected. -/
theorem recordCode_tally (s : State) (r : Raised) : ∃ tly, recordCode s r = { lastCoded s r with tly := tly } ∧
    (effRecord r.eff = false → tly = s.tly) ∧
    (effRecord r.eff = true → s.tly.buffer.length < 65536 → s.shp.pwrFail = false →
      ∃ x, tly.buffer = s.tly.buffer ++ [x] ∧ x.code = r.code ∧ x.seq = s.tly.next ∧ x.time = s.tim.counter ∧
        x.detail = slice r.detail 0 24 ∧ x.temp = s.knl.temp ∧ tly.next = s.tly.next + 1) ∧
    (effRecord r.eff = true → 65536 ≤ s.tly.buffer.length →
      tly.dropped = satAdd32 s.tly.dropped 1 ∧ tly.buffer = s.tly.buffer ∧ tly.next = s.tly.next) := by
  have hflush : ∀ u : State, ∃ f, (if (effRecord r.eff && effFlush r.eff && recordFits s r.code) = true then beginFlush u else u) =
      { u with tly := { u.tly with flushing := f } } := by
    intro u
    unfold beginFlush
    repeat' split
    all_goals exact ⟨_, rfl⟩
  rw [recordCode_eq]
  cases hrec : effRecord r.eff
  case false => exact ⟨s.tly, rfl, fun _ => rfl, nofun, nofun⟩
  case true =>
    obtain ⟨f, hf⟩ := hflush (addRecord (lastCoded s r) r.code r.detail r.drill)
    rw [hrec] at hf
    rw [if_pos rfl]
    simp only [hf]
    by_cases hdrop : (decide (s.tly.buffer.length ≥ bufferRecords) || (s.shp.pwrFail && r.code != 0x090F0001)) = true
    · have hadd : addRecord (lastCoded s r) r.code r.detail r.drill = { lastCoded s r with
          tly := { s.tly with dropped := satAdd32 s.tly.dropped 1, droppedSince := satAdd32 s.tly.droppedSince 1 } } := if_pos hdrop
      rw [hadd]
      refine ⟨_, rfl, nofun, fun _ hroom hpower => ?_, fun _ _ => ⟨rfl, rfl, rfl⟩⟩
      simp [bufferRecords, hpower] at hdrop
      omega
    · have hadd : addRecord (lastCoded s r) r.code r.detail r.drill = { lastCoded s r with
          tly := { s.tly with buffer := s.tly.buffer ++ [kennelRec (lastCoded s r) r.code r.detail r.drill], next := s.tly.next + 1 } } :=
        if_neg hdrop
      rw [hadd]
      refine ⟨_, rfl, nofun, fun _ _ _ => ⟨_, rfl, rfl, rfl, rfl, rfl, rfl, rfl⟩, fun _ hfull => ?_⟩
      simp [bufferRecords] at hdrop
      omega

/-- The state from which the Kennel collects code r: the others are still on their way. -/
def codeTaken (s : State) (rest : List Raised) : State := setKnl s { s.knl with inflight := rest }

theorem codeCollected_inFlight {s : State} (h : s.die ≠ .off) {r : Raised} {rest : List Raised}
    (hleast : takeLeast s.knl.inflight = some (r, rest)) :
    codeCollected s .inFlight = applyEffect (recordCode (codeTaken s rest) r) r := by
  simp only [codeCollected, if_neg h, collect, hleast]
  rfl

/-! ## The end of a job by a fault (Table 12-9) -/

/-- What the sequence up to teardown leaves: the memories, the strands, the last code, and the power. -/
structure EndingKept (s t : State) : Prop where
  mem : t.mem = s.mem
  brd : t.brd = s.brd
  str : t.str = s.str
  last : t.knl.lastCode = s.knl.lastCode
  cause : t.knl.cause = s.knl.cause
  die : t.die = s.die

theorem EndingKept.trans {s t u : State} (h : EndingKept s t) (h' : EndingKept t u) : EndingKept s u :=
  ⟨h'.mem.trans h.mem, h'.brd.trans h.brd, h'.str.trans h.str, h'.last.trans h.last, h'.cause.trans h.cause, h'.die.trans h.die⟩

theorem endingKept_sysChange (s : State) (st : DevState) (degraded drill replace : Bool) :
    EndingKept s (sysChange s st degraded drill replace) := by
  obtain ⟨seq, repl, link, held, period, serial, hchange⟩ := sysChange_eq s st degraded drill replace
  rw [hchange]
  exact ⟨rfl, rfl, rfl, rfl, rfl, rfl⟩

theorem endingKept_faultEndsDrill (s : State) : EndingKept s (faultEndsDrill s) := by
  unfold faultEndsDrill
  split
  · exact .trans (t := { s with snp := { s.snp with drillActive := none } }) ⟨rfl, rfl, rfl, rfl, rfl, rfl⟩ (endingKept_sysChange ..)
  · exact ⟨rfl, rfl, rfl, rfl, rfl, rfl⟩

/-- R358: an ABORT of this device's or of another's has gone over the keyed leads. -/
theorem sendAbort_spec (s : State) (code : Word) : EndingKept s (sendAbort s code) ∧
    ((sendAbort s code).lead.abortSent = true ∨ (sendAbort s code).lead.abortSeen = true) := by
  unfold sendAbort
  split
  case isTrue h => exact ⟨⟨rfl, rfl, rfl, rfl, rfl, rfl⟩, by simpa [or_comm] using h⟩
  case isFalse =>
    obtain ⟨lead, hsend⟩ := leadSendAll_eq s (keyedLeads s) (.abort (BitVec.ofNat 24 (ownId s)) (code.extractLsb' 24 8) 1)
    rw [hsend]
    exact ⟨⟨rfl, rfl, rfl, rfl, rfl, rfl⟩, Or.inl rfl⟩

/-- R455 to R457: what pre-reset collection changes. -/
theorem preCollect_eq {s : State} (h : s.die ≠ .off) (code : Word) : ∃ event inflight held free, preCollect s code = { s with
    knl := { s.knl with preReset := if commanded code = true then s.knl.preReset else code, event := event, inflight := inflight }
    shp := { s.shp with held := held }, free := free } := by
  unfold preCollect
  split
  · exact ⟨_, _, _, _, rfl⟩
  · unfold takeSample
    split
    · exact ⟨_, _, _, _, rfl⟩
    · split
      · rw [raise_onlyKnl (s := setKnl s { s.knl with preReset := code }) h (b := 9) rfl fun _ => rfl]
        exact ⟨_, _, _, _, rfl⟩
      · exact ⟨_, _, _, _, rfl⟩

theorem endingKept_preCollect {s : State} (h : s.die ≠ .off) (code : Word) : EndingKept s (preCollect s code) ∧
    (preCollect s code).lead = s.lead ∧ (commanded code = false → (preCollect s code).knl.preReset = code) := by
  obtain ⟨event, inflight, held, free, hcollect⟩ := preCollect_eq h code
  rw [hcollect]
  exact ⟨⟨rfl, rfl, rfl, rfl, rfl, rfl⟩, rfl, fun hc => by simp [hc]⟩

/-- Table 12-9: a job that ends by a fault drains in a new generation. -/
theorem endJob_spec {s : State} (h : s.die ≠ .off) {code : Word} (hcode : commanded code = false) : let t := endJob s code
    t.knl.lastCode = s.knl.lastCode ∧ t.knl.cause = code ∧ t.knl.preReset = code ∧ t.sys.st = .draining ∧ t.str.teardown = .draining ∧
    t.str.gen = s.str.gen + 1 ∧ (t.lead.abortSent = true ∨ t.lead.abortSeen = true) ∧ t.mem = s.mem ∧ t.brd = s.brd := by
  have hfault := (endingKept_faultEndsDrill (setKnl s { s.knl with cause := code })).trans
    (endingKept_sysChange _ .faulted _ _ _ : EndingKept _ (goState _ .faulted))
  obtain ⟨habort, hsent⟩ := sendAbort_spec (goState (faultEndsDrill (setKnl s { s.knl with cause := code })) .faulted) code
  have habort' := hfault.trans habort
  obtain ⟨hcollect, hlead, hreset⟩ := endingKept_preCollect
    (s := sendAbort (goState (faultEndsDrill (setKnl s { s.knl with cause := code })) .faulted) code) (by rw [habort'.die]; exact h) code
  have hkept := habort'.trans hcollect
  obtain ⟨seq, repl, link, held, period, serial, hteardown⟩ := startTeardown_eq (preCollect
    (sendAbort (goState (faultEndsDrill (setKnl s { s.knl with cause := code })) .faulted) code) code) true
  intro t
  rw [show t = _ from hteardown]
  refine ⟨hkept.last, hkept.cause, hreset hcode, rfl, rfl, ?_, ?_, hkept.mem, hkept.brd⟩
  · exact congrArg (· + 1) (congrArg Str.gen hkept.str)
  · exact (congrArg (fun l : LeadS => l.abortSent = true ∨ l.abortSeen = true) hlead).mpr hsent

/-! ## A round-up that a fault cancels -/

/-- Where the device keeps its width class, what disarming and cancelling leave. -/
theorem disarm_lastCode {s : State} (h : s.knl.withdrawAtEnd = false) : (disarm s).knl.lastCode = s.knl.lastCode := by
  have hstay : ¬(dropLeadKeys s).knl.withdrawAtEnd = true := by rw [show (dropLeadKeys s).knl = s.knl from rfl, h]; decide
  obtain ⟨seq, repl, link, held, period, serial, hgo⟩ := goState_eq { dropLeadKeys s with tet := { s.tet with
    phase := .idle, root := false, plan := 0xFFFF, depth := 0, children := 0, childReady := 0, readySent := false,
    deadline := 0, launch := 0 } } .holding
  rw [show disarm s = _ from (if_neg hstay).trans hgo]
  rfl

theorem cancelRoundUp_lastCode {s : State} (h : s.die ≠ .off) (hst : s.sys.st = .armed) (hstay : s.knl.withdrawAtEnd = false) :
    (cancelRoundUp s).knl.lastCode = s.knl.lastCode := by
  obtain ⟨lead, hsend⟩ := leadSendAll_eq s (jobLeads s) (.ruFrame .cancel (cancelFrame s s.tet.depth s.tet.plan s.tet.armId s.str.job))
  have hcancel : cancelRoundUp s = disarm (notify (raise (leadSendAll s (jobLeads s)
      (.ruFrame .cancel (cancelFrame s s.tet.depth s.tet.plan s.tet.armId s.str.job))) 0x080B0007 .event (d4 s.tet.armId.toNat))
      .cancelled 0x080B0007) := if_pos hst
  rw [hsend, raise_released (by exact h) (u := .tet) (b := 5) rfl fun _ => rfl] at hcancel
  obtain ⟨link, held, period, serial, hnote⟩ := notify_eq { s with
      lead := { s.lead with lead := lead }
      tet := { s.tet with event := orBit s.tet.event 5 }
      knl := { s.knl with inflight := s.knl.inflight ++ [⟨0x080B0007, .event, d4 s.tet.armId.toNat, s.sys.drill⟩] } } .cancelled 0x080B0007
  have hknl := congrArg (fun t : State => (t.knl.withdrawAtEnd, t.knl.lastCode)) hnote
  obtain ⟨hstay', hlast⟩ := Prod.mk.inj hknl
  rw [hcancel]
  exact (disarm_lastCode (hstay'.trans hstay)).trans hlast

/-! ## The effects of a code that is collected -/

section
variable {s : State} {r : Raised} {rest : List Raised}

theorem exec_codeCollected_inFlight (h : s.die ≠ .off) (hleast : takeLeast s.knl.inflight = some (r, rest)) {P : State → Prop}
    (hP : ∀ tly, P (applyEffect { lastCoded (codeTaken s rest) r with tly := tly } r)) : Runs (.codeCollected .inFlight) s P := by
  obtain ⟨tly, htly, -⟩ := recordCode_tally (codeTaken s rest) r
  refine ⟨_, rfl, ?_⟩
  rw [codeCollected_inFlight h hleast, htly]
  exact hP tly

/-- R431: a code that starts nothing more is counted and recorded. -/
theorem codeCollected_recorded (h : s.die ≠ .off) (hleast : takeLeast s.knl.inflight = some (r, rest)) (hend : r.eff ≠ .jobEnding)
    (hdev : ∀ b, r.eff ≠ .device b) : ∃ tly, codeCollected s .inFlight = { lastCoded (codeTaken s rest) r with tly := tly } ∧
    (effRecord r.eff = false → tly = s.tly) ∧
    (effRecord r.eff = true → s.tly.buffer.length < 65536 → s.shp.pwrFail = false →
      ∃ x, tly.buffer = s.tly.buffer ++ [x] ∧ x.code = r.code ∧ x.seq = s.tly.next ∧ x.time = s.tim.counter ∧
        x.detail = slice r.detail 0 24 ∧ x.temp = s.knl.temp ∧ tly.next = s.tly.next + 1) ∧
    (effRecord r.eff = true → 65536 ≤ s.tly.buffer.length →
      tly.dropped = satAdd32 s.tly.dropped 1 ∧ tly.buffer = s.tly.buffer ∧ tly.next = s.tly.next) := by
  obtain ⟨tly, htly, hrecord⟩ := recordCode_tally (codeTaken s rest) r
  have hnone : ∀ u, applyEffect u r = u := by
    intro u
    cases heff : r.eff with
    | jobEnding => exact absurd heff hend
    | device b => exact absurd heff (hdev b)
    | _ => simp only [applyEffect, heff]
  exact ⟨tly, ((codeCollected_inFlight h hleast).trans (hnone _)).trans htly, hrecord⟩

/-- R429: a job-ending code outside RUNNING and ARMED is only recorded. -/
theorem applyEffect_idle {u : State} (heff : r.eff = .jobEnding) (hrun : u.sys.st ≠ .running) (harm : u.sys.st ≠ .armed) :
    applyEffect u r = u := by
  simp only [applyEffect, heff, if_neg hrun, if_neg harm]

/-- R450: a code whose effect is a device reset, with no job that runs or is armed, brings the reset and pre-reset collection. -/
theorem applyEffect_device {u : State} {b : Bool} (heff : r.eff = .device b) (hrun : u.sys.st ≠ .running) (harm : u.sys.st ≠ .armed)
    (hreset : u.knl.resetPending = false) :
    applyEffect u r = preCollect (setKnl u { u.knl with resetPending := true, resetCounted := b }) r.code := by
  have hpend : pendReset u b = setKnl u { u.knl with resetPending := true, resetCounted := b } := if_neg (by simp [hreset])
  simp only [applyEffect, heff, deviceCode, hreset, Bool.false_eq_true, if_false, hpend]
  exact (if_neg hrun).trans (congrArg (preCollect · r.code) (if_neg harm))

end

/-! ## Corrections -/

/-- From s to t the check values and the counts of corrections are as they were. -/
def CorrectionsKept (s t : State) : Prop :=
  t.mem.check = s.mem.check ∧ t.mem.cntCorr = s.mem.cntCorr ∧ t.mem.pcCorr = s.mem.pcCorr

theorem CorrectionsKept.of_mem {s t : State} (h : t.mem = s.mem) : CorrectionsKept s t :=
  ⟨congrArg MemS.check h, congrArg MemS.cntCorr h, congrArg MemS.pcCorr h⟩

theorem CorrectionsKept.trans {s t u : State} (h : CorrectionsKept s t) (h' : CorrectionsKept t u) : CorrectionsKept s u :=
  ⟨h'.1.trans h.1, h'.2.1.trans h.2.1, h'.2.2.trans h.2.2⟩

theorem degrade_mem {s : State} (h : s.die ≠ .off) (fresh : Bool) : (degrade s fresh).mem = s.mem := by
  obtain ⟨seq, repl, link, held, period, serial, hchange⟩ := sysChange_eq s s.sys.st true s.sys.drill true
  have hkept : ∀ t, t = sysChange s s.sys.st true s.sys.drill true → t.mem = s.mem ∧ t.die ≠ .off := by
    rintro t rfl
    rw [hchange]
    exact ⟨rfl, h⟩
  obtain ⟨hmem, hdie⟩ := hkept _ rfl
  unfold degrade
  split
  · rw [raise_onlyKnl hdie (b := 9) rfl fun _ => rfl]
    exact hmem
  · exact hmem

theorem disarm_mem {s : State} (h : s.die ≠ .off) : (disarm s).mem = s.mem := by
  have hgo : ∀ (t : State) st, (goState t st).mem = t.mem := fun t st => by
    obtain ⟨seq, repl, link, held, period, serial, hgo⟩ := goState_eq t st
    rw [hgo]
  simp only [disarm]
  split
  · rw [hgo]
    split
    · rfl
    · rw [raise_onlyKnl (by exact h) (b := 9) rfl fun _ => rfl]
      rfl
  · rw [hgo]
    rfl

theorem cancelRoundUp_mem {s : State} (h : s.die ≠ .off) (hst : s.sys.st = .armed) : (cancelRoundUp s).mem = s.mem := by
  obtain ⟨lead, hsend⟩ := leadSendAll_eq s (jobLeads s) (.ruFrame .cancel (cancelFrame s s.tet.depth s.tet.plan s.tet.armId s.str.job))
  have hcancel : cancelRoundUp s = disarm (notify (raise (leadSendAll s (jobLeads s)
      (.ruFrame .cancel (cancelFrame s s.tet.depth s.tet.plan s.tet.armId s.str.job))) 0x080B0007 .event (d4 s.tet.armId.toNat))
      .cancelled 0x080B0007) := if_pos hst
  rw [hsend, raise_released (by exact h) (u := .tet) (b := 5) rfl fun _ => rfl] at hcancel
  obtain ⟨link, held, period, serial, hnote⟩ := notify_eq { s with
      lead := { s.lead with lead := lead }
      tet := { s.tet with event := orBit s.tet.event 5 }
      knl := { s.knl with inflight := s.knl.inflight ++ [⟨0x080B0007, .event, d4 s.tet.armId.toNat, s.sys.drill⟩] } } .cancelled 0x080B0007
  have hkept := Prod.mk.inj (congrArg (fun t : State => (t.die, t.mem)) hnote)
  rw [hcancel]
  exact (disarm_mem (hkept.1.symm ▸ h)).trans hkept.2

theorem discardWaiting_mem {s : State} (h : s.die ≠ .off) : (discardWaiting s).mem = s.mem := by
  unfold discardWaiting
  split
  case isTrue harmed => exact cancelRoundUp_mem h harmed
  case isFalse => split <;> rfl

theorem failLoad_mem (s : State) : (failLoad s).mem = s.mem := by
  obtain ⟨_, _, _, _, _, _, _, _, _, _, hfail, -⟩ := failLoad_eq s
  rw [hfail]

/-- R311: the loss of a channel counts no correction. -/
theorem correctionsKept_loseChannel {s : State} (h : s.die ≠ .off) {i : Nat} (hlive : pcLive s i = true) :
    CorrectionsKept s (loseChannel s i) := by
  obtain ⟨hkept, -⟩ := channelsKept_degrade (s := dropChannel s i) h (allLive s)
  have hdie := hkept.released h
  have hdegrade := degrade_mem (s := dropChannel s i) h (allLive s)
  rw [loseChannel_eq hlive]
  generalize degrade (dropChannel s i) (allLive s) = a at *
  have hraised := (channelsKept_raise hdie 0x06060006 (lossEffect a) []).released hdie
  refine .trans (t := a) ?_ (.trans ?_ (.of_mem ((failLoad_mem _).trans (discardWaiting_mem hraised))))
  · rw [CorrectionsKept, hdegrade]
    exact ⟨rfl, rfl, rfl⟩
  · rw [raise_onlyMem hdie (b := 5) (count := id) rfl fun _ => rfl]
    exact ⟨rfl, rfl, rfl⟩

section
variable {s : State} {stack : Fin 8} {pc : Fin 32}

/-- R310: a retrain, or the loss in its place, counts no correction, changes nothing that HBM holds, and loses no code on its way. -/
theorem startRetrain_keeps (h : s.die ≠ .off) : CorrectionsKept s (startRetrain s stack pc) ∧
    (startRetrain s stack pc).mem.hbm = s.mem.hbm ∧ ∀ r ∈ s.knl.inflight, r ∈ (startRetrain s stack pc).knl.inflight := by
  by_cases hskip : (!memOn s || !pcLive s (pcId stack pc) || s.mem.retraining.contains (stack, pc)) = true
  · rw [startRetrain, if_pos hskip]
    exact ⟨.of_mem rfl, rfl, fun _ hr => hr⟩
  · have hstart : startRetrain s stack pc =
        if 3 ≤ (recent s 10000000 (sgetD s.mem.pcRetrains (pcId stack pc) [])).length then loseChannel s (pcId stack pc)
        else raise (retrainBegun s stack pc) 0x06060005 .absorbed (d4 (pcId stack pc)) := if_neg hskip
    rw [hstart]
    split
    · have hlive : pcLive s (pcId stack pc) = true := by
        simp at hskip
        exact hskip.1.2
      obtain ⟨hkept, -⟩ := loseChannel_spec h hlive
      exact ⟨correctionsKept_loseChannel h hlive, hkept.hbm, hkept.inflight⟩
    · rw [raise_onlyMem (by exact h) (b := 4) (count := fun m => { m with cntRetrain := satAdd32 m.cntRetrain 1 }) rfl fun _ => rfl]
      exact ⟨⟨rfl, rfl, rfl⟩, rfl, fun _ hr => List.mem_append_left _ hr⟩

/-- The corrections of a pseudo-channel, with one more. -/
def corrections (s : State) (i : Nat) : Nat := sgetD s.mem.pcCorr i 0 + 1

/-- The state in which a corrected access is counted and reported (R296). -/
def correctionNoted (s : State) (stack : Fin 8) (pc : Fin 32) (page : Nat) : State :=
  let i := pcId stack pc
  { s with
    mem := { s.mem with
      event := orBit s.mem.event 0, cntCorr := satAdd32 s.mem.cntCorr 1, pcCorr := sset s.mem.pcCorr i (corrections s i)
      pcTimes := sset s.mem.pcTimes i (s.shp.time :: recent s 1000 (sgetD s.mem.pcTimes i [])) }
    knl := { s.knl with inflight := s.knl.inflight ++ [⟨0x06060001,
      if corrections s i % 1024 = 1 then .absorbed else .absorbedNoRecord, d4 i ++ d4 page ++ d4 (corrections s i), s.sys.drill⟩] } }

theorem memCorrected_noted (h : s.die ≠ .off) (page : Nat) : memCorrected s stack pc page =
    if 15 ≤ (recent s 1000 (sgetD s.mem.pcTimes (pcId stack pc) [])).length then startRetrain (correctionNoted s stack pc page) stack pc
    else correctionNoted s stack pc page := by
  simp only [memCorrected, List.length_cons, correctedLimit]
  rw [raise_onlyMem (by exact h) (b := 0) (count := fun m => { m with cntCorr := satAdd32 m.cntCorr 1 }) rfl fun _ => rfl]
  simp only [show ∀ n, 16 ≤ n + 1 ↔ 15 ≤ n from fun n => Nat.succ_le_succ_iff]
  rfl

end

section
variable {s : State}

theorem runs_codeCollected {d : Detected} {t : State} {P : State → Prop} (hd : codeCollected s d = t) (hP : P t) :
    Runs (.codeCollected d) s P := ⟨t, congrArg Host.Outcome.next hd, hP⟩

/-- R287: a corrected error of the Board is counted. -/
theorem raise_boardCorrected (h : s.die ≠ .off) : raise s 0x06070001 .count = { s with
    brd := { s.brd with event := orBit s.brd.event 0, cntCorr := satAdd32 s.brd.cntCorr 1 }
    knl := { s.knl with inflight := s.knl.inflight ++ [⟨0x06070001, .count, [], s.sys.drill⟩] } } :=
  if_neg h

theorem raise_onDieCorrected (h : s.die ≠ .off) : raise s 0x06060003 .count = { s with
    mem := { s.mem with cntOdecc := satAdd32 s.mem.cntOdecc 1 }
    knl := { s.knl with inflight := s.knl.inflight ++ [⟨0x06060003, .count, [], s.sys.drill⟩] } } :=
  if_neg h

/-- R287: an uncorrectable error of the Board stops the strand whose unit read it. -/
theorem boardUncorrectable_eq (h : s.die ≠ .off) (n : Fin 43) : ∃ strands,
    killStrand (raise s 0x06070002 .jobEnding (d4 n.val)) n.val = { s with
      brd := { s.brd with event := orBit s.brd.event 1 }
      knl := { s.knl with inflight := s.knl.inflight ++ [⟨0x06070002, .jobEnding, d4 n.val, s.sys.drill⟩] }
      str := { s.str with strands := strands } } := by
  rw [raise_released h (u := .brd) (b := 1) rfl fun _ => rfl]
  unfold killStrand
  split
  · exact ⟨_, rfl⟩
  · exact ⟨_, rfl⟩

/-- R296, R310, R314: what a corrected access of HBM brings. -/
theorem hbmCorrected_spec {stack : Fin 8} {pc : Fin 32} (h : s.die ≠ .off) (hlive : pcLive s (pcId stack pc) = true) (page : Nat) :
    let t := memCorrected s stack pc page
    let i := pcId stack pc
    let n := sgetD s.mem.pcCorr i 0 + 1
    let within := (recent s 1000 (sgetD s.mem.pcTimes i [])).length
    OnItsWay t 0x06060001 (if n % 1024 = 1 then .absorbed else .absorbedNoRecord) (natLE 4 i ++ natLE 4 page ++ natLE 4 n) s.sys.drill ∧
    t.mem.cntCorr = satAdd32 s.mem.cntCorr 1 ∧ sgetD t.mem.pcCorr i 0 = n ∧ t.mem.hbm = s.mem.hbm ∧ t.mem.check = s.mem.check ∧
    (within < 15 → t.mem.live = s.mem.live ∧ t.mem.retraining = s.mem.retraining ∧
      t = { s with knl := { s.knl with inflight := t.knl.inflight }, mem := t.mem }) ∧
    (15 ≤ within → s.die = .serving → (stack, pc) ∉ s.mem.retraining →
      (recent s 10000000 (sgetD s.mem.pcRetrains i [])).length < 3 → (stack, pc) ∈ t.mem.retraining ∧
        OnItsWay t 0x06060005 .absorbed (natLE 4 i) s.sys.drill) := by
  intro t i n within
  have hway : OnItsWay (correctionNoted s stack pc page) 0x06060001 (if n % 1024 = 1 then .absorbed else .absorbedNoRecord)
      (natLE 4 i ++ natLE 4 page ++ natLE 4 n) s.sys.drill := List.mem_append_right _ (List.mem_singleton.mpr rfl)
  have hcount : sgetD (correctionNoted s stack pc page).mem.pcCorr i 0 = n :=
    congrArg (·.getD 0) (sget?_sset_same ..)
  by_cases hmany : 15 ≤ within
  · have ht : t = startRetrain (correctionNoted s stack pc page) stack pc := (memCorrected_noted h page).trans (if_pos hmany)
    obtain ⟨⟨hcheck, hcorr, hpc⟩, hhbm, hin⟩ := startRetrain_keeps (s := correctionNoted s stack pc page) (stack := stack) (pc := pc) h
    rw [ht]
    refine ⟨hin _ hway, hcorr, ?_, hhbm, hcheck, fun hfew => absurd hmany (Nat.not_le.mpr hfew), fun _ hserving hnot hleft => ?_⟩
    · rw [hpc]
      exact hcount
    · obtain ⟨hretrain, -, hreport, -⟩ := startRetrain_begins (s := correctionNoted s stack pc page) hserving hlive hnot hleft
      rw [hretrain]
      exact ⟨List.mem_append_right _ (List.mem_singleton.mpr rfl), hreport⟩
  · have ht : t = correctionNoted s stack pc page := (memCorrected_noted h page).trans (if_neg hmany)
    rw [ht]
    exact ⟨hway, rfl, hcount, rfl, rfl, fun _ => ⟨rfl, rfl, rfl⟩, fun hmany' => absurd hmany' hmany⟩

end

/-- Settles O43: the code that comes first is collected, recorded and brings its effect; what the memories' ECC meets is counted. -/
theorem codesAndCorrections : Obligations.CodesAndCorrections := by
  unfold Obligations.CodesAndCorrections
  refine ⟨⟨fun l r rest => takeLeast_spec, fun s r rest h hleast => ⟨fun hend hdev => ?_, fun heff hrun hcode => ?_,
    fun heff harm hstay => ?_, fun heff hrun harm => ?_, fun b heff hrun harm hreset => ?_⟩⟩, fun s h => ⟨?_, fun n => ?_, ?_,
    fun stack pc page hlive => ?_, ?_, ?_⟩⟩
  · obtain ⟨tly, htly, hrecord⟩ := codeCollected_recorded h hleast hend hdev
    refine ⟨_, rfl, ?_⟩
    rw [htly]
    exact ⟨rfl, rfl, rfl, rfl, rfl, rfl, hrecord⟩
  · refine exec_codeCollected_inFlight h hleast fun tly => ?_
    have hend : applyEffect { lastCoded (codeTaken s rest) r with tly := tly } r =
        endJob { lastCoded (codeTaken s rest) r with tly := tly } r.code := by
      simp only [applyEffect, heff]
      exact if_pos hrun
    obtain ⟨hlast, hcause, hpre, hst, hteardown, hgen, habort, hmem, hbrd⟩ :=
      endJob_spec (s := { lastCoded (codeTaken s rest) r with tly := tly }) h hcode
    rw [hend]
    exact ⟨hlast, hcause, hpre, hst, hteardown, hgen, habort, hmem, hbrd⟩
  · refine exec_codeCollected_inFlight h hleast fun tly => ?_
    have hcancel : applyEffect { lastCoded (codeTaken s rest) r with tly := tly } r =
        cancelRoundUp { lastCoded (codeTaken s rest) r with tly := tly } := by
      simp only [applyEffect, heff]
      exact (if_neg (fun hrun => by cases harm.symm.trans hrun)).trans (if_pos harm)
    rw [hcancel]
    exact ⟨cancelRoundUp_lastCode h harm hstay, cancelRoundUp_disarmed h harm hstay⟩
  · refine exec_codeCollected_inFlight h hleast fun tly => ?_
    rw [applyEffect_idle (u := { lastCoded (codeTaken s rest) r with tly := tly }) heff hrun harm]
    exact ⟨rfl, rfl, rfl, rfl⟩
  · refine exec_codeCollected_inFlight h hleast fun tly => ?_
    rw [applyEffect_device (u := { lastCoded (codeTaken s rest) r with tly := tly }) heff hrun harm hreset]
    obtain ⟨event, inflight, held, free, hcollect⟩ := preCollect_eq
      (s := setKnl { lastCoded (codeTaken s rest) r with tly := tly }
        { (lastCoded (codeTaken s rest) r).knl with resetPending := true, resetCounted := b }) h r.code
    rw [hcollect]
    exact ⟨rfl, rfl, rfl, rfl, rfl⟩
  · exact runs_codeCollected ((if_neg h).trans (raise_boardCorrected h)) ⟨List.mem_append_right _ (List.mem_singleton.mpr rfl), rfl, rfl⟩
  · obtain ⟨hother, hsame⟩ := killStrand_raise_spec (rfl : s.str = s.str) 0x06070002 .jobEnding (d4 n.val) n
    obtain ⟨strands, hkill⟩ := boardUncorrectable_eq h n
    refine runs_codeCollected (t := killStrand (raise s 0x06070002 .jobEnding (d4 n.val)) n.val) (if_neg h) ⟨?_, hsame, hother, ?_⟩
    · rw [hkill]
      exact List.mem_append_right _ (List.mem_singleton.mpr rfl)
    · rw [hkill]
  · exact runs_codeCollected ((if_neg h).trans (raise_onDieCorrected h)) ⟨List.mem_append_right _ (List.mem_singleton.mpr rfl), rfl, rfl⟩
  · exact runs_codeCollected ((if_neg h).trans (if_pos hlive)) (hbmCorrected_spec h hlive page.toNat)
  · exact runs_codeCollected (if_neg h) (raise_onItsWay h 0x06010001 .count [])
  · exact runs_codeCollected (if_neg h) (raise_onItsWay h 0x06010002 (.device true) [])

end Sys2Proof.Machine
end

section
/-!
Status snapshots and register reads (R390, R402, R403, R408, R541, R545, R552): O33.
-/
namespace Sys2Proof.Machine

/-! ## Answers -/

/-- A request that is answered leaves all but the links as they were, whatever its STATUS. -/
theorem runs_respond {c : Instr} {s u : State} {r : Req} {k : ReqKind} {status : Nat} {payload : Bytes} {P : State → Prop}
    (hexec : exec c s = .next (respond u r k.shp k.type status payload)) (hu : u.tet.link = (tetRecv s r.link k.shp).tet.link)
    (hP : ∀ link, Answered s { u with tet := { u.tet with link := link } } r k status payload →
      P { u with tet := { u.tet with link := link } }) : Runs c s P :=
  ⟨_, hexec, hP _ (answered_respond hu status payload)⟩

/-! ## What an accepted frame leaves of the register files -/

theorem shpFile_tetRecv (s : State) (l : Fin 2) (shp : Bool) (addr : Nat) : shpFile (tetRecv s l shp) addr = shpFile s addr := by
  have hshp : (tetRecv s l shp).shp = s.shp := rfl
  have htly : (tetRecv s l shp).tly = s.tly := rfl
  have hmirror : mirrorWord (tetRecv s l shp) = mirrorWord s := rfl
  have heligible : eligible (tetRecv s l shp) = eligible s := rfl
  have hstraps : strapErr (tetRecv s l shp) = strapErr s := rfl
  have htally : tallyView (tetRecv s l shp) = tallyView s := rfl
  simp only [shpFile, shpReg, secReg_tetRecv, hshp, htly, hmirror, heligible, hstraps, htally]

theorem dieTouch_tetRecv (s : State) (l : Nat) (shp : Bool) (addr : Nat) : dieTouch (tetRecv s l shp) addr = tetRecv (dieTouch s addr) l shp := by
  unfold dieTouch
  split <;> rfl

theorem shpFileTouch_tetRecv (s : State) (l : Nat) (shp : Bool) (addr : Nat) :
    shpFileTouch (tetRecv s l shp) addr = tetRecv (shpFileTouch s addr) l shp := by
  unfold shpFileTouch shpTouch
  split <;> rfl

theorem dieTouch_timNow (u : State) : dieTouch u 0xA0004 = { u with tim := { u.tim with capture := u.tim.counter } } := rfl

theorem dieTouch_tallyHead (u : State) : dieTouch u 0xF1004 = { u with tly := { u.tly with die := capHead u u.tly.die } } := rfl

theorem dieTouch_tallyNext (u : State) : dieTouch u 0xF1020 = { u with tly := { u.tly with die := { u.tly.die with next := u.tly.next } } } :=
  rfl

theorem shpFileTouch_shpTime (u : State) : shpFileTouch u 0x100010 = { u with shp := { u.shp with timeCap := u.shp.time } } := rfl

/-! ## Reads -/

/-- R402: words that can be read, and whose reading captures nothing, are answered in address order. -/
theorem readWords_plain {file : State → Nat → Option Nat} {touch : State → Nat → State} {s : State} (n addr : Nat)
    (h : ∀ i, i < n → accessErr (file s) (addr + 4 * i) = none ∧ touch s (addr + 4 * i) = s) :
    readWords file touch n s addr =
      (none, (List.range n).flatMap fun i => natLE 4 ((file s (addr + 4 * i)).getD 0 % 2 ^ 32), s) := by
  induction n generalizing addr with
  | zero => rfl
  | succ n ih =>
    obtain ⟨hacc, htouch⟩ := h 0 (Nat.succ_pos n)
    have hnext : ∀ i, addr + 4 + 4 * i = addr + 4 * (i + 1) := fun i => by omega
    have hrest := ih (addr + 4) fun i hi => by
      rw [hnext]
      exact h (i + 1) (Nat.succ_lt_succ hi)
    rw [Nat.mul_zero, Nat.add_zero] at hacc htouch
    simp only [readWords, hacc, htouch, hrest, List.range_succ_eq_map, List.flatMap_cons, List.flatMap_map, Nat.mul_zero, Nat.add_zero, hnext]

/-- A read that no rule refuses answers the words that it reads, and keeps what it captures. -/
theorem serveRead_admitted {s u : State} {r : Req} {k : ReqKind} (h : Admits s r k) (hp : r.parity = .even)
    {file : State → Nat → Option Nat} {touch : State → Nat → State} {addr n : Nat} {b : Bytes}
    (hread : readWords file touch n (tetRecv s r.link k.shp) addr = (none, b, u)) : serveRead s r k file touch addr n = done u r k b := by
  unfold serveRead
  rw [request_admitted h, if_neg (by rw [hp]; decide), hread]

/-- A read of one word of a register that is there. -/
theorem readWords_one {file : State → Nat → Option Nat} {touch : State → Nat → State} {s : State} {addr v : Nat}
    (hacc : accessErr (file s) addr = none) (hv : file s addr = some v) :
    readWords file touch 1 s addr = (none, natLE 4 (v % 2 ^ 32), touch s addr) := by
  simp [readWords, hacc, hv]

/-- A read of one register that is there answers its low word. -/
theorem serveRead_one {s : State} {r : Req} {k : ReqKind} (h : Admits s r k) (hp : r.parity = .even)
    {file : State → Nat → Option Nat} {touch : State → Nat → State} {addr v : Nat}
    (hacc : accessErr (file (tetRecv s r.link k.shp)) addr = none) (hv : file (tetRecv s r.link k.shp) addr = some (lo32 v)) :
    serveRead s r k file touch addr 1 = done (touch (tetRecv s r.link k.shp) addr) r k (natLE 4 (v % 2 ^ 32)) := by
  have hread := readWords_one (touch := touch) hacc hv
  rw [show lo32 v % 2 ^ 32 = v % 2 ^ 32 from Nat.mod_mod _ _] at hread
  exact serveRead_admitted h hp hread

/-! ## Status snapshots -/

/-- R403: SNAP_SEQ counts on. -/
theorem takeSnapSeq_spec (s : State) : ∃ period serial, (takeSnapSeq s).2 = { s with tet := { s.tet with period := period, serial := serial } } ∧
    period.toNat * 2 ^ 48 + serial.toNat = (s.tet.period.toNat * 2 ^ 48 + s.tet.serial.toNat + 1) % 2 ^ 64 := by
  have hperiod := s.tet.period.isLt
  have hserial := s.tet.serial.isLt
  unfold takeSnapSeq
  by_cases hfull : s.tet.serial = 0xFFFFFFFFFFFF
  · rw [if_pos hfull]
    refine ⟨_, _, rfl, ?_⟩
    have hzero : (0 : BitVec 48).toNat = 0 := rfl
    have hone : (1 : BitVec 16).toNat = 1 := rfl
    have hmax : s.tet.serial.toNat = 0xFFFFFFFFFFFF := congrArg BitVec.toNat hfull
    rw [BitVec.toNat_add]
    omega
  · have hne : s.tet.serial.toNat ≠ 0xFFFFFFFFFFFF := fun h => hfull (BitVec.eq_of_toNat_eq h)
    rw [if_neg hfull]
    refine ⟨_, _, rfl, ?_⟩
    have hone : (1 : BitVec 48).toNat = 1 := rfl
    rw [BitVec.toNat_add]
    omega

theorem snapshot_state (s : State) : (snapshot s).2 = (takeSnapSeq s).2 := rfl

/-- Table 11-4: a snapshot has 128 bytes, and begins with SNAP_SEQ and the device's state. -/
theorem snapshot_bytes (s : State) : (snapshot s).1.length = 128 ∧
    (snapshot s).1.take 8 = natLE 8 (s.tet.period.toNat * 2 ^ 48 + s.tet.serial.toNat) ∧
    ((snapshot s).1.drop 8).take 4 = natLE 4 (if s.die = .serving then sysWord s else mirrorWord s) := by
  have hhead : ∀ q w (rest : Bytes), (natLE 8 q ++ natLE 4 w ++ rest).take 8 = natLE 8 q ∧
      ((natLE 8 q ++ natLE 4 w ++ rest).drop 8).take 4 = natLE 4 w := by
    intro q w rest
    constructor
    · rw [List.append_assoc]
      exact List.take_left' (natLE_length 8 q)
    · rw [List.append_assoc, List.drop_left' (natLE_length 8 q)]
      exact List.take_left' (natLE_length 4 w)
  by_cases hdie : s.die = .serving
  · simp only [snapshot, takeSnapSeq, if_pos hdie]
    refine ⟨by simp [natLE_length, zeros], ?_⟩
    simp only [List.append_assoc (natLE 8 _ ++ natLE 4 _)]
    exact hhead _ _ _
  · simp only [snapshot, takeSnapSeq, if_neg hdie]
    refine ⟨by simp [natLE_length, zeros], ?_⟩
    simp only [List.append_assoc (natLE 8 _ ++ natLE 4 _)]
    exact hhead _ _ _

/-- R403: what answering with a snapshot brings. -/
def SnapshotAnswer (s t : State) (r : Req) (k : ReqKind) : Prop :=
  ∃ b, Answered s t r k 0 b ∧ b.length = 128 ∧ b.take 8 = natLE 8 (s.tet.period.toNat * 2 ^ 48 + s.tet.serial.toNat) ∧
    t.tet.period.toNat * 2 ^ 48 + t.tet.serial.toNat = (s.tet.period.toNat * 2 ^ 48 + s.tet.serial.toNat + 1) % 2 ^ 64 ∧
    (b.drop 8).take 4 = natLE 4 (if s.die = .serving then sysWord s else mirrorWord s) ∧
    t = { s with tet := { s.tet with link := t.tet.link, period := t.tet.period, serial := t.tet.serial } }

theorem runs_snapshot {s : State} {r : Req} {k : ReqKind} {c : Instr}
    (hexec : exec c s = .next (done (snapshot (tetRecv s r.link k.shp)).2 r k (snapshot (tetRecv s r.link k.shp)).1)) :
    Runs c s fun t => SnapshotAnswer s t r k := by
  obtain ⟨hlength, hseq, hword⟩ := snapshot_bytes (tetRecv s r.link k.shp)
  obtain ⟨period, serial, htake, hnext⟩ := takeSnapSeq_spec (tetRecv s r.link k.shp)
  rw [snapshot_state, htake] at hexec
  generalize (snapshot (tetRecv s r.link k.shp)).1 = b at hexec hlength hseq hword
  exact runs_respond (k := k) hexec rfl fun link hans => ⟨b, hans, hlength, hseq, hnext, hword, rfl⟩

/-- R403: the compute die answers a status read. -/
theorem statusRead_serving {s : State} {r : Req} (h : Admits s r kStatus) :
    statusRead s r = done (snapshot (tetRecv s r.link false)).2 r kStatus (snapshot (tetRecv s r.link false)).1 :=
  (if_pos (admits_serving h rfl)).trans (request_admitted h _)

/-- R408: the Shepherd answers it, in its own session, while the compute die does not serve. -/
theorem statusRead_shepherd {s : State} {r : Req} (hdie : s.die ≠ .serving) (hup : (linkAt s r.link).up = true) (howner : s.sec.owner ≠ none)
    (hserve : s.shp.serving = true) (hp : r.parity ≠ .command) (hahead : r.ahead < 64) (hopen : (linkAt s r.link).shp.isOpen = true) :
    statusRead s r = done (snapshot (tetRecv s r.link true)).2 r { kStatus with shp := true } (snapshot (tetRecv s r.link true)).1 := by
  have hstand : standIn s r kStatus = { kStatus with shp := true } := by rw [standIn, hopen]
  obtain ⟨-, -, -, -, hopen'⟩ := linkAt_tetRecv s r.link true r.link
  rw [hopen] at hopen'
  have hstand' : standIn (tetRecv s r.link true) r kStatus = { kStatus with shp := true } := by rw [standIn, hopen']
  have howner' : (tetRecv s r.link true).sec.owner.isNone = false := Option.isNone_eq_false_iff.mpr (Option.isSome_iff_ne_none.mpr howner)
  have hserve' : (!(tetRecv s r.link true).shp.serving) = false := by
    rw [show (tetRecv s r.link true).shp = s.shp from rfl, hserve]
    rfl
  unfold statusRead
  rw [if_neg hdie, hup, hstand]
  refine Eq.trans (if_neg (Nat.not_le.mpr hahead)) ?_
  simp only [shepherdStatus, hstand', howner', hserve', hopen', Bool.true_or, Bool.not_true, Bool.false_eq_true, if_false, if_neg hp]

section
variable {s : State} {r : Req}

/-- R390: a read of TIM_NOW_LO captures the time. -/
theorem timNowRead_spec (h : Admits s r kRead) (hp : r.parity = .even) :
    Runs (.timNowRead r) s fun t => Answered s t r kRead 0 (natLE 4 (s.tim.counter.toNat % 2 ^ 32)) ∧
      t = { s with tim := { s.tim with capture := s.tim.counter }, tet := { s.tet with link := t.tet.link } } := by
  have hserve := serveRead_one (k := kRead) (file := dieReg) (touch := dieTouch) (addr := 0xA0004) (v := s.tim.counter.toNat) h hp rfl rfl
  rw [dieTouch_timNow] at hserve
  exact runs_respond (k := kRead) (congrArg Host.Outcome.next hserve) rfl fun link hans => ⟨hans, rfl⟩

/-- R541: a read of TALLY_HEAD_LO captures head, first and count. -/
theorem tallyHeadRead_spec (h : Admits s r kRead) (hp : r.parity = .even) :
    Runs (.tallyHeadRead r) s fun t => Answered s t r kRead 0 (natLE 4 (tallyHead s % 2 ^ 32)) ∧
      t = { s with tly := { s.tly with die := t.tly.die }, tet := { s.tet with link := t.tet.link } } ∧ t.tly.die = capHead s s.tly.die := by
  have hserve := serveRead_one (k := kRead) (file := dieReg) (touch := dieTouch) (addr := 0xF1004) (v := tallyHead s) h hp rfl rfl
  rw [dieTouch_tallyHead] at hserve
  exact runs_respond (k := kRead) (congrArg Host.Outcome.next hserve) rfl fun link hans => ⟨hans, rfl, rfl⟩

/-- R552: a read of TALLY_NEXT_LO captures the next number. -/
theorem tallyNextRead_spec (h : Admits s r kRead) (hp : r.parity = .even) :
    Runs (.tallyNextRead r) s fun t => Answered s t r kRead 0 (natLE 4 (s.tly.next.toNat % 2 ^ 32)) ∧
      t = { s with tly := { s.tly with die := { s.tly.die with next := s.tly.next } }, tet := { s.tet with link := t.tet.link } } := by
  have hserve := serveRead_one (k := kRead) (file := dieReg) (touch := dieTouch) (addr := 0xF1020) (v := s.tly.next.toNat) h hp rfl rfl
  rw [dieTouch_tallyNext] at hserve
  exact runs_respond (k := kRead) (congrArg Host.Outcome.next hserve) rfl fun link hans => ⟨hans, rfl⟩

/-- R545: a read of SHP_TIME_LO captures Shepherd time. -/
theorem shpTimeRead_spec (h : Admits s r kSide) (hp : r.parity = .even) :
    Runs (.shpTimeRead r) s fun t => Answered s t r kSide 0 (natLE 4 (s.shp.time.toNat % 2 ^ 32)) ∧
      t = { s with shp := { s.shp with timeCap := s.shp.time }, tet := { s.tet with link := t.tet.link } } := by
  have hserve := serveRead_one (k := kSide) (file := shpFile) (touch := shpFileTouch) (addr := 0x100010) (v := s.shp.time.toNat) h hp rfl rfl
  rw [shpFileTouch_shpTime] at hserve
  exact runs_respond (k := kSide) (congrArg Host.Outcome.next hserve) rfl fun link hans => ⟨hans, rfl⟩

/-- R3: a write of SHP_EVENT clears the bits at which it has ones. -/
theorem shpEventWrite_spec (h : Admits s r kSide) (hp : r.parity = .even) (v : BitVec 32) :
    Runs (.side r true 0x100018 v) s fun t => Answered s t r kSide 0 [] ∧
      t = { s with shp := { s.shp with event := s.shp.event &&& ~~~v }, tet := { s.tet with link := t.tet.link } } := by
  have hserve : serveWrite s r kSide shpFile writeShp 0x100018 v.toNat = done { tetRecv s r.link true with
      shp := { s.shp with event := s.shp.event &&& ~~~v } } r kSide := by
    unfold serveWrite
    rw [request_admitted h, if_neg (by rw [hp]; decide), ← clearBits_toNat]
    rfl
  exact runs_respond (k := kSide) (congrArg Host.Outcome.next hserve) rfl fun link hans => ⟨hans, rfl⟩

end

/-- Settles O33: each read by the registers that it meets, and each status read by who serves it. -/
theorem readsAnswer : Obligations.ReadsAnswer := by
  refine ⟨fun s r => ⟨fun h => runs_snapshot (k := kStatus) (congrArg Host.Outcome.next (statusRead_serving h)),
      fun hdie hup howner hserve hp hahead hopen => runs_snapshot (k := { kStatus with shp := true })
        (congrArg Host.Outcome.next (statusRead_shepherd hdie hup howner hserve hp hahead hopen))⟩,
    fun s r addr more h hp hplain => ?_, fun s r h hp => ⟨timNowRead_spec h hp, tallyHeadRead_spec h hp, tallyNextRead_spec h hp⟩,
    fun s r h hp => ⟨shpTimeRead_spec h hp, fun addr v hacc htouch => ?_, shpEventWrite_spec h hp⟩⟩
  · have hread := readWords_plain (file := dieReg) (touch := dieTouch) (s := tetRecv s r.link false) (more.val + 1) addr.toNat fun i hi => by
      obtain ⟨hacc, htouch⟩ := hplain i hi
      refine ⟨by simpa only [accessErr, dieReg_tetRecv] using hacc, ?_⟩
      rw [dieTouch_tetRecv, htouch]
    simp only [dieReg_tetRecv] at hread
    have hserve := serveRead_admitted (k := { kRead with named := shpAddr addr.toNat }) h hp hread
    exact runs_respond (k := kRead) (congrArg Host.Outcome.next hserve) rfl fun link hans => ⟨hans, rfl⟩
  · have hread := readWords_plain (file := shpFile) (touch := shpFileTouch) (s := tetRecv s r.link true) 1 addr.toNat fun i hi => by
      obtain rfl : i = 0 := by omega
      rw [Nat.mul_zero, Nat.add_zero]
      refine ⟨by simpa only [accessErr, shpFile_tetRecv] using hacc, ?_⟩
      rw [shpFileTouch_tetRecv]
      exact congrArg (tetRecv · r.link true) htouch
    simp only [shpFile_tetRecv, List.range_one, List.flatMap_singleton, Nat.mul_zero, Nat.add_zero] at hread
    have hserve := serveRead_admitted (k := kSide) h hp hread
    exact runs_respond (k := kSide) (congrArg Host.Outcome.next hserve) rfl fun link hans => ⟨hans, rfl⟩

end Sys2Proof.Machine
end

section
/-!
Owner grants: their checks and their writes past the locks (R445, R560 to R563, R575, R581): O36.
-/
namespace Sys2Proof.Machine

/-! ## The answer to a grant -/

/-- R559: what the end of old sessions leaves of a session. -/
def oldEnded (opcertMin : BitVec 32) (x : Sess) : Sess :=
  if x.isOpen then (if x.serial < opcertMin then {} else x)
  else if x.hs.any (fun h => decide (h.serial < opcertMin)) then { x with hs := none } else x

theorem sess_endOldSessions (s : State) (l : Fin 2) (p : Bool) : sess (endOldSessions s) l p = oldEnded s.sec.opcertMin (sess s l p) := by
  unfold sess endOldSessions linkAt
  simp only [vget_map _ _ l.isLt]
  cases p <;> rfl

theorem oldEnded_open {opcertMin : BitVec 32} {x : Sess} (hopen : x.isOpen = true) (hserial : opcertMin ≤ x.serial) :
    oldEnded opcertMin x = x := by
  rw [oldEnded, if_pos hopen, if_neg (BitVec.not_lt.mpr hserial)]

/-- The STATUS and the payload with which a grant is answered. -/
def grantStatus : Option Nat → Nat × Bytes
  | none => (0, [])
  | some code => (1, natLE 4 code)

/-- R560, R561: answering a grant draws a new challenge and changes the links. -/
theorem grantAnswer_eq (u : State) (r : Req) (err : Option Nat) : ∃ link, grantAnswer u r err = { u with
    free := u.free + 1
    sec := { u.sec with challenge := (Config.draw u.free).setWidth 128 }
    tet := { u.tet with link := link } } := by
  unfold grantAnswer
  by_cases hup : (!(linkAt u r.link).up) = true
  · simp only [hup, if_true]
    exact ⟨_, rfl⟩
  · simp only [hup]
    cases err <;> exact ⟨_, rfl⟩

theorem grantAnswer_answers {u : State} {r : Req} (hup : (linkAt u r.link).up = true) (hopen : (sess u r.link true).isOpen = true)
    (hserial : u.sec.opcertMin ≤ (sess u r.link true).serial) (err : Option Nat) :
    Answers (grantAnswer u r err) r kKeyShp (grantStatus err).1 (grantStatus err).2 := by
  have hans : grantAnswer u r err = newChallenge (endOldSessions (respond u r true kKeyShp.type (grantStatus err).1 (grantStatus err).2)) := by
    unfold grantAnswer
    rw [hup]
    cases err <;> rfl
  have hsess : sess (respond u r true kKeyShp.type (grantStatus err).1 (grantStatus err).2) r.link true = { sess u r.link true with
      seq := (sess u r.link true).seq + 1
      sent := (sess u r.link true).sent ++ [((sess u r.link true).seq, .response (BitVec.ofNat 8 (kKeyShp.type + 0x80))
        (BitVec.ofNat 8 (grantStatus err).1) r.id (grantStatus err).2)] } := by
    rw [respond, tetSend, sess_setSess_same]
  refine ⟨(sess u r.link true).seq, ?_⟩
  rw [hans]
  have hend : sess (newChallenge (endOldSessions (respond u r true kKeyShp.type (grantStatus err).1 (grantStatus err).2))) r.link kKeyShp.shp =
      oldEnded u.sec.opcertMin (sess (respond u r true kKeyShp.type (grantStatus err).1 (grantStatus err).2) r.link true) :=
    sess_endOldSessions _ r.link true
  rw [hend, hsess, oldEnded_open (by exact hopen) (by exact hserial)]
  exact List.mem_append_right _ (List.mem_singleton.mpr rfl)

/-! ## The checks of a grant (R560) -/

/-- The state in which a grant that has passed takes effect: the grant is recorded. -/
def grantPassed (s : State) (r : Req) (g : Grant) : State := { tetRecv s r.link true with
  sec := { s.sec with event := orBit s.sec.event 8 }
  knl := { s.knl with inflight :=
    s.knl.inflight ++ [⟨0x0A0E0009, .event, d4 g.action.toNat ++ d4 g.address.toNat ++ d4 g.value.toNat, s.sys.drill⟩] } }

theorem raise_grantPassed {s : State} (h : s.die = .serving) (r : Req) (g : Grant) :
    raise (tetRecv s r.link true) 0x0A0E0009 .event (d4 g.action.toNat ++ d4 g.address.toNat ++ d4 g.value.toNat) = grantPassed s r g :=
  raise_onlySec (tetRecv_released h _ _) (b := 8) rfl (fun _ => rfl) _ _

theorem grantAccessErr_tetRecv (s : State) (l : Fin 2) (shp : Bool) (a : Nat) :
    grantAccessErr (tetRecv s l shp) a = grantAccessErr s a := by
  simp only [grantAccessErr, accessErr, shpFile_tetRecv, dieReg_tetRecv]

section
variable {s : State} {r : Req} {g : Grant}

/-- A grant that stands before no refusal, with even parity. -/
theorem grant_even (h : Admits s r kKeyShp) (hp : r.parity = .even) (hdie : s.die = .serving) : grant s r g =
    if grantOkTo5 s g = false then grantFails (tetRecv s r.link true) r []
    else if g.action = 2 then grantAnswer (beginUnlock (grantPassed s r g)) r none
    else match grantAccessErr s g.address.toNat with
      | some code => grantFails (tetRecv s r.link true) r (d4 code)
      | none => grantAnswer (ownerWrite (grantPassed s r g) g.address.toNat g.value.toNat).1 r
          (ownerWrite (grantPassed s r g) g.address.toNat g.value.toNat).2 := by
  unfold grant
  rw [request_admitted h, if_neg (by rw [hp]; decide), show kKeyShp.shp = true from rfl]
  simp only [raise_grantPassed hdie, grantAccessErr_tetRecv, show (tetRecv s r.link true).die = .serving from hdie]
  rw [show grantOkTo5 (tetRecv s r.link true) g = grantOkTo5 s g from rfl]
  cases grantOkTo5 s g
  · rfl
  · simp only [Bool.not_true, Bool.false_eq_true, if_false, Bool.true_eq_false]
    cases grantAccessErr s g.address.toNat <;> simp

/-- R445: a grant whose register access has odd parity. -/
theorem grant_oddAccess (h : Admits s r kKeyShp) (hp : r.parity = .access) :
    grant s r g = refuseReq (tetRecv s r.link true) r kKeyShp 0x04010002 := by
  unfold grant
  rw [request_admitted h, if_pos hp]
  rfl

/-- R560: what a grant that fails leaves. -/
theorem grantFails_spec (hdie : s.die = .serving) (detail : Bytes) : let t := grantFails (tetRecv s r.link true) r detail
    OnItsWay t 0x0A0E0003 .refusedTally detail s.sys.drill ∧ Answered s t r kKeyShp 1 (natLE 4 0x0A0E0003) ∧
    t.sec.challenge = (Config.draw s.free).setWidth 128 ∧
    t = { s with knl := { s.knl with inflight := t.knl.inflight }, free := s.free + 1
                 sec := { s.sec with event := t.sec.event, challenge := t.sec.challenge }
                 tet := { s.tet with link := t.tet.link } } := by
  simp only [grantFails, refuseReq, respondCode]
  rw [raise_onlySec (tetRecv_released hdie _ _) (b := 2) rfl fun _ => rfl]
  refine ⟨List.mem_append_right _ (List.mem_singleton.mpr rfl), ?_, rfl, rfl⟩
  exact answered_respond (k := kKeyShp) (u := { tetRecv s r.link true with
    sec := { s.sec with event := orBit s.sec.event 2 }
    knl := { s.knl with inflight := s.knl.inflight ++ [⟨0x0A0E0003, .refusedTally, detail, s.sys.drill⟩] } }) rfl 1 (natLE 4 0x0A0E0003)

/-- A grant that passes is answered after its write. -/
theorem grant_passes {addr : BitVec 32} {u : State} {err : Option Nat} (h : GrantPasses s r g 1 addr)
    (hacc : grantAccessErr s addr.toNat = none) (hw : ownerWrite (grantPassed s r g) addr.toNat g.value.toNat = (u, err)) :
    grant s r g = grantAnswer u r err := by
  obtain ⟨hadmits, hp, hdie, hok, haction, haddr, -⟩ := h
  rw [grant_even hadmits hp hdie, hok, haction, haddr, hacc, hw]
  rfl

/-- The session of a grant that has passed is not one that its answer ends, where its effect keeps the links and the sessions' bound. -/
theorem grant_answered {u : State} (h : Admits s r kKeyShp) (hserial : s.sec.opcertMin ≤ (sess s r.link true).serial)
    (hlink : u.tet.link = (tetRecv s r.link true).tet.link) (hmin : u.sec.opcertMin = s.sec.opcertMin) (err : Option Nat) :
    Answers (grantAnswer u r err) r kKeyShp (grantStatus err).1 (grantStatus err).2 := by
  obtain ⟨hup, -, -, -, hopen, -⟩ := h
  have hsess : sess u r.link true = { sess s r.link true with rx := (sess s r.link true).rx + 1, nakSent := none } := by
    rw [sess_congr hlink, tetRecv, sess_setSess_same]
  exact grantAnswer_answers ((congrArg TLink.up (linkAt_congr hlink _)).trans ((linkAt_tetRecv ..).1.trans hup))
    (by rw [hsess]; exact hopen.resolve_left nofun) (by rw [hsess, hmin]; exact hserial) err

/-- What every grant that passes leaves, where its effect also keeps the draws and the record. -/
theorem grantRecorded {u : State} (h : Admits s r kKeyShp) (hserial : s.sec.opcertMin ≤ (sess s r.link true).serial)
    (hlink : u.tet.link = (tetRecv s r.link true).tet.link) (hmin : u.sec.opcertMin = s.sec.opcertMin) (hfree : u.free = s.free)
    (hrecord : ∀ c ∈ (grantPassed s r g).knl.inflight, c ∈ u.knl.inflight) : GrantRecorded s (grantAnswer u r none) r g := by
  have hans := grant_answered h hserial hlink hmin none
  obtain ⟨link, heq⟩ := grantAnswer_eq u r none
  refine ⟨?_, hans, ?_, ?_⟩
  · rw [heq]
    exact hrecord _ (List.mem_append_right _ (List.mem_singleton.mpr rfl))
  · rw [heq, ← hfree]
  · rw [heq, ← hfree]

end

/-! ## The registers that hold values -/

/-- A grant may write a row's register, whatever its group, and does what the row says. -/
def RowGranted (row : WriteRow) : Prop := ∀ (u : State) (v : BitVec 32), grantAccessErr u row.addr.toNat = none ∧
  ownerWrite u row.addr.toNat v.toNat = okWrite (row.write u v)

theorem planRow_granted (i : Nat) (hi : i < 8) : RowGranted ⟨BitVec.ofNat 32 (0x80040 + 4 * i), some 0, fun s v =>
    { s with lead := { s.lead with plan := vset s.lead.plan i (v &&& 0x73FF) } }⟩ := by
  simp only [← planBits_toNat]
  interval_cases i <;> exact fun u v => ⟨rfl, rfl⟩

theorem expectRow_granted (i : Nat) (hi : i < 8) : RowGranted ⟨BitVec.ofNat 32 (0x80060 + 4 * i), some 0, fun s v =>
    { s with lead := { s.lead with expect := vset s.lead.expect i (v.setWidth 24) } }⟩ := by
  simp only [← BitVec.ofNat_toNat]
  interval_cases i <;> exact fun u v => ⟨rfl, rfl⟩

/-- R563: an owner's write passes every lock. -/
theorem valueRows_granted : ∀ row ∈ valueRows, RowGranted row := by
  simp only [valueRows, List.forall_mem_append, List.forall_mem_cons, List.not_mem_nil, false_imp_iff, implies_true, and_true,
    List.forall_mem_map, List.mem_range]
  refine ⟨⟨⟨?hangCfg, ?extRate, ?selfId, ?colTimeout, ?epochLo, ?tetTimeout, ?partner, ?snpTimeout, ?budget, ?derate, ?cursor⟩,
    planRow_granted⟩, expectRow_granted⟩
  case epochLo =>
    refine fun u v => ⟨rfl, ?_⟩
    show okWrite (setTim u { u.tim with epochLo := BitVec.ofNat 32 v.toNat }) = _
    rw [BitVec.ofNat_toNat, BitVec.setWidth_eq]
    rfl
  case derate =>
    refine fun u v => ⟨rfl, ?_⟩
    show okWrite (setGov u { u.gov with derate := BitVec.ofNat 32 v.toNat }) = _
    rw [BitVec.ofNat_toNat, BitVec.setWidth_eq]
    rfl
  all_goals
    simp only [← BitVec.ofNat_toNat, ← bitOf_toNat]
    exact fun u v => ⟨rfl, rfl⟩

/-- What a row's write makes of the state neither touches nor reads the links, SEC's EVENT and the codes on their way. -/
def RowSilent (row : WriteRow) : Prop := ∀ (s : State) (inflight : List Raised) (event : Word) (link : Vector TLink 2) (v : BitVec 32),
  row.write { s with knl := { s.knl with inflight := inflight }, sec := { s.sec with event := event }
                     tet := { s.tet with link := link } } v =
    { row.write s v with knl := { (row.write s v).knl with inflight := inflight }, sec := { s.sec with event := event }
                         tet := { (row.write s v).tet with link := link } } ∧
  (row.write s v).sec = s.sec ∧ (row.write s v).free = s.free

theorem valueRows_silent : ∀ row ∈ valueRows, RowSilent row := by
  simp only [valueRows, List.forall_mem_append, List.forall_mem_cons, List.not_mem_nil, false_imp_iff, implies_true, and_true,
    List.forall_mem_map, List.mem_range]
  and_intros
  all_goals intros; exact fun s i e l v => ⟨rfl, rfl, rfl⟩

section
variable {s : State} {r : Req} {g : Grant}

/-- R560, R563: a grant of a register that holds a value. -/
theorem grant_valueRow {row : WriteRow} (hrow : row ∈ valueRows) (h : GrantPasses s r g 1 row.addr) : Runs (.grantRegWrite r g) s fun t =>
    GrantRecorded s t r g ∧
    t = { row.write s g.value with
      knl := { (row.write s g.value).knl with inflight := t.knl.inflight }, free := s.free + 1
      sec := { s.sec with event := t.sec.event, challenge := t.sec.challenge }
      tet := { (row.write s g.value).tet with link := t.tet.link } } := by
  obtain ⟨hacc, -⟩ := valueRows_granted row hrow s g.value
  obtain ⟨-, hwrite⟩ := valueRows_granted row hrow (grantPassed s r g) g.value
  obtain ⟨hsilent, hsec, hfree⟩ := valueRows_silent row hrow s (grantPassed s r g).knl.inflight (grantPassed s r g).sec.event
    (tetRecv s r.link true).tet.link g.value
  have hpassed : row.write (grantPassed s r g) g.value = { row.write s g.value with
      knl := { (row.write s g.value).knl with inflight := (grantPassed s r g).knl.inflight }
      sec := { s.sec with event := (grantPassed s r g).sec.event }
      tet := { (row.write s g.value).tet with link := (tetRecv s r.link true).tet.link } } := hsilent
  have hgrant := grant_passes h hacc hwrite
  obtain ⟨hadmits, -, -, -, -, -, hserial⟩ := h
  have hrecorded := grantRecorded (g := g) (u := row.write (grantPassed s r g) g.value) hadmits hserial
    (by rw [hpassed]) (by rw [hpassed]) (by rw [hpassed]; exact hfree) fun c hc => by rw [hpassed]; exact hc
  obtain ⟨link, heq⟩ := grantAnswer_eq (row.write (grantPassed s r g) g.value) r none
  refine ⟨_, congrArg Host.Outcome.next hgrant, hrecorded, ?_⟩
  rw [heq, hpassed]
  simp only [hfree]

/-- R563, R581: a grant of SEC_POLICY. -/
theorem grant_policy (h : GrantPasses s r g 1 0xE0004) : Runs (.grantRegWrite r g) s fun t =>
    GrantRecorded s t r g ∧ t.sec.lock = g.value.setWidth 4 ∧ t.sec.samplePermit = g.value.getLsbD 8 ∧
    t.sec.telemCoarse = g.value.getLsbD 9 ∧ t.sec.quiet = g.value.getLsbD 10 ∧ t.sec.owner = s.sec.owner ∧
    t.knl.prcSample = (s.knl.prcSample && g.value.getLsbD 8) := by
  have hwrite : ownerWrite (grantPassed s r g) (0xE0004 : BitVec 32).toNat g.value.toNat = okWrite { grantPassed s r g with
      sec := { (grantPassed s r g).sec with lock := BitVec.ofNat 4 g.value.toNat, samplePermit := bitOf g.value.toNat 8
                                            telemCoarse := bitOf g.value.toNat 9, quiet := bitOf g.value.toNat 10 }
      knl := { (grantPassed s r g).knl with prcSample := s.knl.prcSample && bitOf g.value.toNat 8 } } := rfl
  simp only [bitOf_toNat, BitVec.ofNat_toNat] at hwrite
  have hgrant := grant_passes h rfl hwrite
  obtain ⟨hadmits, -, -, -, -, -, hserial⟩ := h
  obtain ⟨link, heq⟩ := grantAnswer_eq { grantPassed s r g with
      sec := { (grantPassed s r g).sec with lock := g.value.setWidth 4, samplePermit := g.value.getLsbD 8
                                            telemCoarse := g.value.getLsbD 9, quiet := g.value.getLsbD 10 }
      knl := { (grantPassed s r g).knl with prcSample := s.knl.prcSample && g.value.getLsbD 8 } } r none
  refine ⟨_, congrArg Host.Outcome.next hgrant, grantRecorded hadmits hserial rfl rfl rfl fun _ hc => hc, ?_⟩
  rw [heq]
  exact ⟨rfl, rfl, rfl, rfl, rfl, rfl⟩

/-- R575: how a debug unlock is reported. -/
def unlockEffect (s : State) : Effect := if s.sys.st = .running then .jobEnding else .event

theorem beginUnlock_eq {u : State} (h : u.die ≠ .off) (harm : u.sys.st ≠ .armed) : beginUnlock u = { u with
    sec := { u.sec with event := orBit u.sec.event 5, debugPending := true }
    knl := { u.knl with inflight := u.knl.inflight ++ [⟨0x0A0E0006, unlockEffect u, [], u.sys.drill⟩] } } := by
  unfold beginUnlock unlockEffect
  split
  · rw [raise_onlySec h (b := 5) rfl fun _ => rfl]
    rfl
  · rw [raise_onlySec h (b := 5) rfl fun _ => rfl]
    rfl

/-- R575: a grant of a debug unlock. -/
theorem grant_debugUnlock (h : Admits s r kKeyShp) (hp : r.parity = .even) (hdie : s.die = .serving) (harm : s.sys.st ≠ .armed)
    (hok : grantOkTo5 s g = true) (haction : g.action = 2) (hserial : s.sec.opcertMin ≤ (sess s r.link true).serial) :
    Runs (.grantDebugUnlock r g) s fun t => GrantRecorded s t r g ∧ t.sec.debugPending = true ∧ t.sec.debug = s.sec.debug ∧
      OnItsWay t 0x0A0E0006 (if s.sys.st = .running then .jobEnding else .event) [] s.sys.drill ∧ t.mem = s.mem ∧ t.sys = s.sys := by
  have hgrant : grant s r g = grantAnswer (beginUnlock (grantPassed s r g)) r none := by
    rw [grant_even h hp hdie, hok, haction]
    rfl
  have hbegin := beginUnlock_eq (u := grantPassed s r g) (tetRecv_released hdie r.link true) harm
  have hrecorded := grantRecorded (g := g) (u := beginUnlock (grantPassed s r g)) h hserial (by rw [hbegin]; rfl) (by rw [hbegin]; rfl)
    (by rw [hbegin]; rfl) fun c hc => by rw [hbegin]; exact List.mem_append_left _ hc
  obtain ⟨link, heq⟩ := grantAnswer_eq (beginUnlock (grantPassed s r g)) r none
  refine ⟨_, congrArg Host.Outcome.next hgrant, hrecorded, ?_⟩
  rw [heq, hbegin]
  exact ⟨rfl, rfl, List.mem_append_right _ (List.mem_singleton.mpr rfl), rfl, rfl⟩

end

/-- Settles O36: the checks in their order, then each row's write past the locks. -/
theorem grants : Obligations.Grants := by
  refine ⟨fun s r g h hdie haction => ⟨fun hp => ?_, fun hp hok => ?_, fun code hp hok hacc => ?_⟩,
    fun s r g row hrow h => grant_valueRow hrow h, fun s r g h => grant_policy h,
    fun s r g h hp hdie harm hok haction hserial => grant_debugUnlock h hp hdie harm hok haction hserial⟩
  · obtain ⟨hway, hans, -, hsec⟩ := refuseReq_knl (r := r) (k := kKeyShp) hdie (code := 0x04010002) rfl fun _ => rfl
    exact ⟨_, congrArg Host.Outcome.next (grant_oddAccess h hp), hway, hans, hsec⟩
  · have hgrant : grant s r g = grantFails (tetRecv s r.link true) r [] := (grant_even h hp hdie).trans (if_pos hok)
    exact ⟨_, congrArg Host.Outcome.next hgrant, grantFails_spec hdie []⟩
  · have hgrant : grant s r g = grantFails (tetRecv s r.link true) r (d4 code) := by
      rw [grant_even h hp hdie, hok, hacc, if_neg nofun, if_neg haction]
    obtain ⟨hway, hans, hchallenge, hframe⟩ := grantFails_spec (r := r) hdie (d4 code)
    refine ⟨_, congrArg Host.Outcome.next hgrant, hway, hans, hchallenge, ?_⟩
    exact (congrArg (fun t : State => t.sec.owner) hframe :)

end Sys2Proof.Machine
end

section
/-!
The Shepherd's boot at a package start-up (R566, R567, R611).
-/
namespace Sys2Proof.Machine

/-! ## Slots of firmware -/

/-- The state in which a slot of each kind runs, with the SVN found at its boot. -/
def booted (s : State) (run : Vector Bool 2) (svn : Vector (BitVec 32) 3) : State :=
  setSec s { s.sec with fwRun := run, bootSvn := svn }

/-- Reports before a boot are reports after it. -/
theorem OnlyReports.booted {s t : State} (h : OnlyReports s t) (run : Vector Bool 2) (svn : Vector (BitVec 32) 3) :
    OnlyReports (booted s run svn) (Machine.booted t run svn) := by
  unfold OnlyReports at h ⊢
  rw [h]
  rfl

theorem OnlyReports.fwOk {s t : State} (h : OnlyReports s t) (kind : Nat) (b : Bool) : fwOk t kind b = Machine.fwOk s kind b := by
  have hfw := congrArg (fun u : State => u.sec.fw) h
  have hsvn := congrArg (fun u : State => u.sec.svn) h
  simp only at hfw hsvn
  unfold Machine.fwOk fwSlot
  rw [hfw, hsvn]

theorem onlyReports_imageRefused (s : State) : OnlyReports s (imageRefused s) := onlyReports_raise ..

/-- R566: a slot whose image verifies runs, where one of the two does. -/
theorem bootFw_spec (s : State) (kind : Nat) : ∃ run svn, OnlyReports (booted s run svn) (bootFw s kind).1 ∧
    (bootFw s kind).2 = (fwOk s kind false || fwOk s kind true) := by
  have hrefused := onlyReports_imageRefused s
  simp only [bootFw]
  generalize vget s.sec.fwSel kind false = sel
  cases hsel : fwOk s kind sel
  case true =>
    refine ⟨_, _, .refl _, ?_⟩
    cases sel <;> simp [hsel]
  case false =>
    simp only [Bool.false_eq_true, if_false, hrefused.fwOk]
    cases hother : fwOk s kind (!sel)
    case true =>
      refine ⟨_, _, hrefused.booted _ _, ?_⟩
      cases sel <;> simp_all
    case false =>
      refine ⟨_, _, (hrefused.booted _ _).trans (onlyReports_imageRefused _), ?_⟩
      cases sel <;> simp_all

/-! ## Package start-up (R611) -/

/-- What a package start-up begins with: MRAM, the pins and the holds are kept, every session has ended, debug is locked. -/
def packageBegun (s : State) : State := { s with
  shp := { shpKept s.shp with kerrinOk := true }
  sec := { s.sec with event := 0, debug := false, debugPending := false, challenge := (Config.draw s.free).setWidth 128 }
  mem := { s.mem with extRate := false }
  tet := { s.tet with link := Vector.replicate 2 {} }
  tly := { s.tly with side := {} }
  free := s.free + 1 }

/-- The state after the Shepherd's boot: the slots that run, whether the calibration tables verify, and whether its ROM serves. -/
def packageBooted (s : State) (run : Vector Bool 2) (svn : Vector (BitVec 32) 3) (cal rom : Bool) : State :=
  { booted (packageBegun s) run svn with shp := { shpKept s.shp with kerrinOk := true, calOk := cal, rom := rom } }

/-- R566, R611: a package start-up boots the Shepherd; its ROM serves where both slots are refused. -/
theorem packageStart_spec (s : State) : ∃ run svn cal, OnlyReports
    (packageBooted s run svn cal (!(fwOk s 0 false || fwOk s 0 true))) (packageStart s) := by
  obtain ⟨run, svn, hboot, hok⟩ := bootFw_spec (packageBegun s) 0
  have hok' : (bootFw (packageBegun s) 0).2 = (fwOk s 0 false || fwOk s 0 true) := hok
  have hstart : packageStart s = if (bootFw (packageBegun s) 0).2 then bootCal (bootFw (packageBegun s) 0).1
      else setShp (bootFw (packageBegun s) 0).1 { (bootFw (packageBegun s) 0).1.shp with rom := true } := rfl
  rw [hstart, hok']
  generalize (bootFw (packageBegun s) 0).1 = t at hboot
  cases fwOk s 0 false || fwOk s 0 true
  case false =>
    refine ⟨run, svn, false, ?_⟩
    unfold OnlyReports at hboot ⊢
    rw [hboot]
    rfl
  case true =>
    rw [if_pos rfl, bootCal]
    split
    · refine ⟨run, vset t.sec.bootSvn 2 (t.sec.calSvn.getD 0), true, ?_⟩
      unfold OnlyReports at hboot ⊢
      rw [hboot]
      rfl
    · refine ⟨run, svn, false, OnlyReports.trans ?_ (onlyReports_imageRefused _)⟩
      exact hboot

end Sys2Proof.Machine
end
section
/-!
The grants whose register acts (R457, R460, R540, R549, R602): O37.
-/
namespace Sys2Proof.Machine

/-! ## Registers that act (R457, R460, R540, R549, R602) -/

/-- R602: the user table, and whether it is enabled; a change is reported. -/
theorem setUser_eq {u : State} (h : u.die ≠ .off) (ucal : Vector Word 20) (enable : Bool) : ∃ event more, setUser u ucal enable = { u with
    gov := { u.gov with ucal := ucal, ucalEnable := enable, event := event }
    knl := { u.knl with inflight := u.knl.inflight ++ more } } := by
  simp only [setUser]
  split
  · rw [raise_onlyGov (by exact h) (b := 4) rfl fun _ => rfl]
    exact ⟨_, _, rfl⟩
  · exact ⟨u.gov.event, [], by rw [List.append_nil]; rfl⟩

/-- From s to t only the Tally changed, and of it neither the buffer, nor the next number, nor the count of dropped records. -/
def OnlyStored (s t : State) : Prop := t = { s with tly := t.tly } ∧ t.tly.next = s.tly.next ∧ t.tly.buffer = s.tly.buffer ∧
  t.tly.droppedSince = s.tly.droppedSince

theorem OnlyStored.trans {s t u : State} (h : OnlyStored s t) (h' : OnlyStored t u) : OnlyStored s u := by
  obtain ⟨heq, hnext, hbuffer, hdropped⟩ := h
  obtain ⟨heq', hnext', hbuffer', hdropped'⟩ := h'
  refine ⟨?_, hnext'.trans hnext, hbuffer'.trans hbuffer, hdropped'.trans hdropped⟩
  rw [heq] at heq'
  exact heq'

theorem onlyStored_storeRec (s : State) (x : TRec) : OnlyStored s (storeRec s x) := by
  simp only [storeRec]
  repeat' split
  all_goals exact ⟨rfl, rfl, rfl, rfl⟩

theorem onlyStored_foldl (xs : List TRec) (s : State) : OnlyStored s (xs.foldl storeRec s) := by
  induction xs generalizing s with
  | nil => exact ⟨rfl, rfl, rfl, rfl⟩
  | cons x xs ih => exact (onlyStored_storeRec s x).trans (ih _)

/-- R536: a flush with no record dropped changes only the Tally, numbers nothing, and leaves no record buffered. -/
theorem flushNow_onlyTally {s : State} (h : s.tly.droppedSince = 0) : flushNow s = { s with tly := (flushNow s).tly } ∧
    (flushNow s).tly.next = s.tly.next ∧ (flushNow s).tly.buffer = [] := by
  obtain ⟨heq, hnext, hbuffer, hdropped⟩ := onlyStored_foldl s.tly.buffer (bufferTaken s)
  rw [flushNow_eq, storeDropped_none (hdropped.trans h)]
  refine ⟨?_, hnext, hbuffer⟩
  rw [heq]
  rfl

/-- R540: a clear leaves the record of itself, numbered next, in an empty store. -/
theorem clearTally_spec {u : State} (h : u.die ≠ .off) (hnone : u.tly.droppedSince = 0) : ∃ tly, clearTally u = { u with tly := tly } ∧
    (∃ x, tly.store = [x] ∧ x.code = 0x0D100001 ∧ x.seq = u.tly.next) ∧ tly.next = u.tly.next + 1 ∧ tly.buffer = [] ∧
    tly.full = false ∧ tly.overflow = 0 ∧ tly.dropped = 0 := by
  obtain ⟨heq, hnext, hbuffer⟩ := flushNow_onlyTally hnone
  simp only [clearTally, storeNow]
  generalize d8 (tallyFirst (flushNow u)) ++ d8 (tallyHead (flushNow u)) ++ d4 (flushNow u).tly.overflow.toNat ++
    d4 (flushNow u).tly.dropped.toNat = detail
  rw [storeRec_room rfl (by show 0 + 1 < storeSlots; decide), heq]
  generalize (flushNow u).tly = tly at hnext hbuffer
  refine ⟨_, rfl, ⟨_, rfl, ?_, ?_⟩, congrArg (· + 1) hnext, hbuffer, rfl, rfl, rfl⟩
  · rw [tallyRec, if_neg (by exact h)]
    rfl
  · rw [tallyRec, if_neg (by exact h)]
    exact hnext

section
variable {s : State} {r : Req} {g : Grant}

/-- A grant whose effect changes codes, EVENT registers, the records and one part more is recorded and answered. -/
theorem runs_grant {addr : BitVec 32} {c : Instr} {u : State} {P : State → Prop} (h : GrantPasses s r g 1 addr)
    (hexec : exec c s = .next (grant s r g)) (hacc : grantAccessErr s addr.toNat = none)
    (hw : ownerWrite (grantPassed s r g) addr.toNat g.value.toNat = okWrite u) (hlink : u.tet.link = (tetRecv s r.link true).tet.link)
    (hmin : u.sec.opcertMin = s.sec.opcertMin) (hfree : u.free = s.free)
    (hrecord : ∀ c ∈ (grantPassed s r g).knl.inflight, c ∈ u.knl.inflight)
    (hP : ∀ link, P { u with free := u.free + 1, sec := { u.sec with challenge := (Config.draw u.free).setWidth 128 }
                             tet := { u.tet with link := link } }) :
    Runs c s fun t => GrantRecorded s t r g ∧ P t := by
  have hgrant := grant_passes h hacc hw
  obtain ⟨hadmits, -, -, -, -, -, hserial⟩ := h
  obtain ⟨link, heq⟩ := grantAnswer_eq u r none
  refine ⟨_, hexec.trans (congrArg Host.Outcome.next hgrant), grantRecorded hadmits hserial hlink hmin hfree hrecord, ?_⟩
  rw [heq]
  exact hP link

theorem grant_released {action addr : BitVec 32} (h : GrantPasses s r g action addr) : (grantPassed s r g).die ≠ .off := by
  obtain ⟨-, -, hdie, -⟩ := h
  exact tetRecv_released hdie r.link true

/-- R460: KNL_ESCALATE's clear. -/
theorem escalateClear_spec (h : GrantPasses s r g 1 0x1003C) (hbit : g.value.getLsbD 30 = true) : Runs (.escalateClear g r) s fun t =>
    GrantRecorded s t r g ∧ t.knl.resets = [] ∧ t.knl.withdrawn = false ∧ t.knl.limit = g.value.setWidth 4 ∧
    t.knl.windowH = BitVec.ofNat 8 (g.value.toNat / 256) ∧ OnItsWay t 0x0B010003 (.device false) [] s.sys.drill ∧ t.sys = s.sys := by
  have hwrite : ownerWrite (grantPassed s r g) (0x1003C : BitVec 32).toNat g.value.toNat = okWrite (clearEscalation
      (setKnl (grantPassed s r g) { (grantPassed s r g).knl with
        windowH := BitVec.ofNat 8 (field g.value.toNat 15 8), limit := BitVec.ofNat 4 (field g.value.toNat 3 0) })) :=
    (if_neg (by rw [bitOf_toNat, hbit]; decide) : writeEscalate (grantPassed s r g) true g.value.toNat = _)
  have hoff := grant_released h
  rw [clearEscalation, raise_noEvent (by exact hoff) rfl fun _ => rfl] at hwrite
  refine runs_grant h rfl rfl hwrite rfl rfl rfl (fun _ hc => List.mem_append_left _ hc) fun link =>
    ⟨rfl, rfl, ?_, ?_, List.mem_append_right _ (List.mem_singleton.mpr rfl), rfl⟩
  · apply BitVec.eq_of_toNat_eq
    show (BitVec.ofNat 4 (field g.value.toNat 3 0)).toNat = _
    simp [field]
  · apply BitVec.eq_of_toNat_eq
    show (BitVec.ofNat 8 (field g.value.toNat 15 8)).toNat = _
    simp [field]

end

/-! ### The registers of the Tally and of the Shepherd -/

theorem grantAccessErr_dieTallyCtl (u : State) : grantAccessErr u 0xF102C = none := by
  simp [grantAccessErr, shpAddr, accessErr, dieReg, tallyView]

theorem grantAccessErr_sideTallyCtl (u : State) : grantAccessErr u 0x10902C = none := by
  simp [grantAccessErr, shpAddr, accessErr, shpFile, shpReg, tallyView]

theorem grantAccessErr_shpReset (u : State) : grantAccessErr u 0x10001C = none := by
  simp [grantAccessErr, shpAddr, accessErr, shpFile, shpReg]

theorem grantAccessErr_sampleCtl (u : State) : grantAccessErr u 0x100028 = none := by
  simp [grantAccessErr, shpAddr, accessErr, shpFile, shpReg]

theorem ownerWrite_dieTallyCtl (u : State) {v : Nat} (hbit : bitOf v 0 = true) : ownerWrite u 0xF102C v = okWrite (clearTally u) := by
  simp [ownerWrite, shpAddr, writeDie, writeTally, eventAt, hbit]

theorem ownerWrite_sideTallyCtl (u : State) {v : Nat} (hbit : bitOf v 0 = true) : ownerWrite u 0x10902C v = okWrite (clearTally u) := by
  rw [ownerWrite, if_pos (by decide)]
  unfold writeShp
  generalize hoff : 0x10902C - 0x100000 = off
  obtain rfl : off = 0x902C := by omega
  exact (if_neg (by rw [hbit]; decide) : (if (!bitOf v 0) = true then okWrite u else okWrite (clearTally u)) = _)

theorem ownerWrite_shpReset (u : State) {v : Nat} (hbit : bitOf v 0 = true) : ownerWrite u 0x10001C v = okWrite (packageReset u) := by
  rw [ownerWrite, if_pos (by decide)]
  unfold writeShp
  generalize hoff : 0x10001C - 0x100000 = off
  obtain rfl : off = 0x1C := by omega
  exact (if_neg (by rw [hbit]; decide) : (if (!bitOf v 0) = true then okWrite u else okWrite (packageReset u)) = _)

theorem ownerWrite_sampleCtl (u : State) {v : Nat} (hbit : bitOf v 31 = true) :
    ownerWrite u 0x100028 v = okWrite (setShp u { u.shp with held := none }) := by
  rw [ownerWrite, if_pos (by decide)]
  unfold writeShp
  generalize hoff : 0x100028 - 0x100000 = off
  obtain rfl : off = 0x28 := by omega
  exact (if_neg (by rw [hbit]; decide) : (if (!bitOf v 31) = true then okWrite u else okWrite (setShp u { u.shp with held := none })) = _)

section
variable {s : State} {r : Req} {g : Grant}

/-- R540: the clear of the Tally, over either view. -/
theorem tallyClear_spec {addr : BitVec 32} (h : GrantPasses s r g 1 addr) (hacc : grantAccessErr s addr.toNat = none)
    (hw : ownerWrite (grantPassed s r g) addr.toNat g.value.toNat = okWrite (clearTally (grantPassed s r g)))
    (hnone : s.tly.droppedSince = 0) : Runs (.tallyClear g r) s fun t => GrantRecorded s t r g ∧
      (∃ x, t.tly.store = [x] ∧ x.code = 0x0D100001 ∧ x.seq = s.tly.next) ∧ t.tly.next = s.tly.next + 1 ∧ t.tly.buffer = [] ∧
      t.tly.full = false ∧ t.tly.overflow = 0 ∧ t.tly.dropped = 0 ∧ t.mem = s.mem ∧ t.sys = s.sys := by
  obtain ⟨tly, hclear, hstore, hnext, hbuffer, hfull, hoverflow, hdropped⟩ := clearTally_spec (grant_released h) hnone
  rw [hclear] at hw
  exact runs_grant h rfl hacc hw rfl rfl rfl (fun _ hc => hc) fun link =>
    ⟨hstore, hnext, hbuffer, hfull, hoverflow, hdropped, rfl, rfl⟩

/-- R549: SHP_RESET. -/
theorem packageReset_spec (h : GrantPasses s r g 1 0x10001C) (hbit : g.value.getLsbD 0 = true) : Runs (.packageReset g r) s fun t =>
    t.die = .off ∧ t.shp.serving = false ∧ (∀ l, (linkAt t l).up = false ∧ (linkAt t l).shp.isOpen = false) ∧ t.sec.job = none ∧
    t.sec.debug = false ∧ t.sec.owner = s.sec.owner ∧ t.mem.hbm = [] ∧ t.brd.mem = [] ∧ t.str.image = none ∧
    t.shp.time = s.shp.time ∧ t.shp.epoch = s.shp.epoch := by
  have hwrite := ownerWrite_shpReset (grantPassed s r g) ((bitOf_toNat g.value 0).trans hbit)
  have hgrant := grant_passes h (grantAccessErr_shpReset s) hwrite
  have hreset : packageReset (grantPassed s r g) = packageStart (resetDie (flushNow (drainCodes (grantPassed s r g)))) := by
    rw [packageReset, if_neg (grant_released h)]
  have hdrained := (onlyReports_drainCodes (grantPassed s r g)).trans (onlyReports_flushNow _)
  generalize flushNow (drainCodes (grantPassed s r g)) = u at hreset hdrained
  obtain ⟨run, svn, cal, hstart⟩ := packageStart_spec (resetDie u)
  rw [hreset] at hgrant
  generalize packageStart (resetDie u) = v at hgrant hstart
  have hkept : ∀ {α : Type} (f : State → α), f v = f _ := fun f => congrArg f hstart
  have hlink : v.tet.link = Vector.replicate 2 {} := hkept (·.tet.link)
  have hdown : grantAnswer v r none = newChallenge (endOldSessions v) := by
    have hoff : (linkAt v r.link).up = false := by rw [linkAt, hlink, vget_replicate]
    unfold grantAnswer
    rw [hoff]
    rfl
  refine ⟨_, congrArg Host.Outcome.next (hgrant.trans hdown), hkept (·.die), hkept (·.shp.serving), fun l => ?_, hkept (·.sec.job),
    hkept (·.sec.debug), (hkept (·.sec.owner)).trans (congrArg (·.sec.owner) hdrained :), hkept (·.mem.hbm), hkept (·.brd.mem),
    hkept (·.str.image), (hkept (·.shp.time)).trans (congrArg (·.shp.time) hdrained :),
    (hkept (·.shp.epoch)).trans (congrArg (·.shp.epoch) hdrained :)⟩
  have hnone : (newChallenge (endOldSessions v)).tet.link = Vector.replicate 2 {} := by
    have hmap : (endOldSessions v).tet.link = _ := congrArg (Vector.map _) hlink
    rw [show (newChallenge (endOldSessions v)).tet.link = (endOldSessions v).tet.link from rfl, hmap, Vector.map_replicate]
    rfl
  rw [linkAt, hnone, vget_replicate]
  exact ⟨rfl, rfl⟩

end

/-- R602: ADOPT with no measured table changes nothing but that it is reported. -/
def adoptRefused (u : State) : State := { u with
  gov := { u.gov with event := orBit u.gov.event 2 }
  knl := { u.knl with inflight := u.knl.inflight ++ [⟨0x090D0004, .refusedTally, [], u.sys.drill⟩] } }

theorem adoptCmd_refused {u : State} (h : u.die ≠ .off) (hvalid : u.gov.measValid = false) :
    adoptCmd u = (adoptRefused u, some 0x090D0004) := by
  rw [adoptCmd, if_neg (by rw [hvalid]; decide), raise_onlyGov h (b := 2) rfl fun _ => rfl]
  rfl

theorem ownerWrite_ucalCtl (u : State) {v : Nat} (hbit : bitOf v 1 = true) : ownerWrite u 0xD001C v = adoptCmd u :=
  (if_pos hbit : (if bitOf v 1 = true then adoptCmd u else okWrite (setUser u u.gov.ucal (bitOf v 0))) = adoptCmd u)

/-- R602: the twenty registers of the user table. -/
theorem ownerWrite_ucal (c : Fin 20) (u : State) (v : Nat) :
    grantAccessErr u (BitVec.ofNat 32 (0xD0200 + 4 * c.val)).toNat = none ∧
    ownerWrite u (BitVec.ofNat 32 (0xD0200 + 4 * c.val)).toNat v =
      okWrite (setUser u (vset u.gov.ucal c (BitVec.ofNat 32 v)) u.gov.ucalEnable) := by
  fin_cases c <;> exact ⟨rfl, rfl⟩

/-- Settles O37: each register's write as the owner makes it. -/
theorem grantsAct : Obligations.GrantsAct := by
  refine fun s r g => ⟨escalateClear_spec, fun h hbit hnone => ?_, packageReset_spec, fun h hbit => ?_, fun h hbit hvalid => ?_,
    fun h hbit hvalid => ?_, fun c h => ?_⟩
  · have hbit' := (bitOf_toNat g.value 0).trans hbit
    rcases h with h | h
    · exact tallyClear_spec h (grantAccessErr_dieTallyCtl s) (ownerWrite_dieTallyCtl _ hbit') hnone
    · exact tallyClear_spec h (grantAccessErr_sideTallyCtl s) (ownerWrite_sideTallyCtl _ hbit') hnone
  · exact runs_grant h rfl (grantAccessErr_sampleCtl s) (ownerWrite_sampleCtl _ ((bitOf_toNat g.value 31).trans hbit)) rfl rfl rfl
      (fun _ hc => hc) fun link => ⟨rfl, rfl, rfl⟩
  · obtain ⟨event, more, huser⟩ := setUser_eq (grant_released h) s.gov.meas true
    have hwrite := ownerWrite_ucalCtl (grantPassed s r g) ((bitOf_toNat g.value 1).trans hbit)
    rw [adoptCmd, if_pos (by exact hvalid), show (grantPassed s r g).gov = s.gov from rfl, huser] at hwrite
    exact runs_grant h rfl rfl hwrite rfl rfl rfl (fun _ hc => List.mem_append_left _ hc) fun link => ⟨rfl, rfl, rfl⟩
  · have hwrite := ownerWrite_ucalCtl (grantPassed s r g) ((bitOf_toNat g.value 1).trans hbit)
    rw [adoptCmd_refused (grant_released h) hvalid] at hwrite
    have hgrant := grant_passes h rfl hwrite
    obtain ⟨hadmits, -, -, -, -, -, hserial⟩ := h
    have hans := grant_answered (u := adoptRefused (grantPassed s r g)) hadmits hserial rfl rfl (some 0x090D0004)
    obtain ⟨link, heq⟩ := grantAnswer_eq (adoptRefused (grantPassed s r g)) r (some 0x090D0004)
    refine ⟨_, congrArg Host.Outcome.next hgrant, ?_, hans, ?_⟩
    · rw [heq]
      exact List.mem_append_right _ (List.mem_singleton.mpr rfl)
    · rw [heq]
      rfl
  · obtain ⟨hacc, hwrite⟩ := ownerWrite_ucal c (grantPassed s r g) g.value.toNat
    obtain ⟨event, more, huser⟩ := setUser_eq (grant_released h) (vset s.gov.ucal c g.value) s.gov.ucalEnable
    rw [BitVec.ofNat_toNat, BitVec.setWidth_eq, show (grantPassed s r g).gov = s.gov from rfl, huser] at hwrite
    exact runs_grant h rfl (ownerWrite_ucal c s 0).1 hwrite rfl rfl rfl (fun _ hc => List.mem_append_left _ hc) fun link =>
      ⟨vget_vset_same _ c.isLt _ _, fun d hd => vget_vset_other _ hd _ _, rfl⟩

end Sys2Proof.Machine
end

section
/-!
Rails and power failure (R514, R538, R619, R622, R626, R632 to R634): O58.
-/
namespace Sys2Proof.Machine

/-! ## Records while the compute die is not released (R535) -/

theorem shepherdRecord_buffer (s : State) (code : Nat) (eff : Effect) (detail : Bytes) :
    (shepherdRecord s code eff detail).tly.buffer = s.tly.buffer := by
  obtain ⟨-, -, hbuffer, -⟩ := onlyStored_storeRec (techCode s (BitVec.ofNat 32 code))
    (shepherdRec (techCode s (BitVec.ofNat 32 code)) (BitVec.ofNat 32 code) detail)
  simp only [shepherdRecord]
  split
  · exact hbuffer
  · rfl

/-- Raising a code puts no record in the Kennel's buffer. -/
theorem raise_buffer (s : State) (code : Nat) (eff : Effect) (detail : Bytes) : (raise s code eff detail).tly.buffer = s.tly.buffer := by
  have hset : ∀ u b, (setEvent s u b).tly = s.tly := fun u b => by cases u <;> rfl
  have hcount : ∀ t : State, (countCode t code).tly = t.tly := fun t => by
    unfold countCode
    split <;> rfl
  have hcode : ∀ u : State, (if (countCode u code).die = .off then shepherdRecord (countCode u code) code eff detail
      else { countCode u code with knl := { (countCode u code).knl with
        inflight := (countCode u code).knl.inflight ++ [⟨BitVec.ofNat 32 code, eff, detail, (countCode u code).sys.drill⟩] } }).tly.buffer =
      u.tly.buffer := by
    intro u
    split
    · rw [shepherdRecord_buffer, hcount]
    · exact congrArg Tly.buffer (hcount u)
  unfold raise
  cases eventBit code with
  | none => exact hcode s
  | some ub => exact (hcode _).trans (congrArg Tly.buffer (hset ub.1 ub.2))

theorem escalate_buffer (s : State) : (escalate s).tly.buffer = s.tly.buffer := by
  simp only [escalate]
  repeat' split
  · rfl
  · rw [raise_buffer, raise_buffer]
    rfl
  · rw [raise_buffer]
    rfl
  · rfl

/-- R535: what the Shepherd does with a code that it records: a record behind those stored, or the mark that the store is full. -/
theorem raise_off_stored {s : State} (h : s.die = .off) {code : Nat} (hb : eventBit code = none) (hc : ∀ t, countCode t code = t)
    (detail : Bytes) (hfull : s.tly.full = false) : ∃ x, (raise s code .event detail).tly.store = s.tly.store ++ [x] ∧
      (s.tly.store.length + 1 ≠ storeSlots → x.code = BitVec.ofNat 32 code) := by
  have hraise : raise s code .event detail = shepherdRecord s code .event detail := by
    unfold raise
    rw [hb]
    simp only [hc, if_pos h]
  rw [hraise]
  have hfull' : (techCode s (BitVec.ofNat 32 code)).tly.full = false := hfull
  simp only [shepherdRecord, effRecord, if_true, storeRec, hfull', Bool.false_eq_true, if_false]
  split
  case isTrue hlast => exact ⟨_, rfl, fun hne => absurd hlast hne⟩
  case isFalse => exact ⟨_, rfl, fun _ => rfl⟩

/-! ## Rails -/

theorem releaseOk_of_releasable {s : State} (h : Releasable s) : releaseOk s = true := by
  obtain ⟨hstandby, hserving, hdie, hcal, howner, hkerrin, hthermal, hpower, -⟩ := h
  simp [releaseOk, hstandby, hserving, hdie, hcal, Option.isSome_iff_ne_none.mpr howner, hkerrin, hthermal, hpower]

/-- R633: the compute die's power is gone before the fault is recorded. -/
def railLost (s : State) : State := losePower (preCollect s 0x090F0006)

theorem railLost_spec {s : State} (h : s.die ≠ .off) : let t := railLost s
    t.die = .off ∧ t.mem.hbm = [] ∧ t.str.image = none ∧ t.sec.job = none ∧ t.tly.buffer = [] ∧ t.sec.owner = s.sec.owner ∧
    t.knl.resets = s.knl.resets ∧ t.shp.time = s.shp.time := by
  obtain ⟨event, inflight, held, free, hcollect⟩ := preCollect_eq h 0x090F0006
  rw [railLost, hcollect]
  exact ⟨rfl, rfl, rfl, rfl, rfl, rfl, rfl, rfl⟩

/-- The reset that the Shepherd counts (R459). -/
def resetCounting (u : State) : State := escalate (setKnl u { u.knl with resetCounted := true })

/-- Nothing is counted any more. -/
def countEnded (u : State) : State := setKnl u { u.knl with resetCounted := false }

/-- R633: a rail fault records and counts the reset that it is. -/
theorem railFault_spec {s : State} (h : s.die ≠ .off) (rail mv : BitVec 32) : let t := railFault s rail mv
    t.die = .off ∧ t.mem.hbm = [] ∧ t.str.image = none ∧ t.sec.job = none ∧ t.tly.buffer = [] ∧ t.sec.owner = s.sec.owner ∧
    t.knl.resets = (s.shp.time :: s.knl.resets).take 8 := by
  obtain ⟨hdie, hhbm, himage, hjob, hbuffer, howner, hresets, htime⟩ := railLost_spec h
  have hraise := onlyReports_raise (railLost s) 0x090F0006 (.device true) (d4 rail.toNat ++ d4 mv.toNat)
  have hraised := raise_buffer (railLost s) 0x090F0006 (.device true) (d4 rail.toNat ++ d4 mv.toNat)
  have hfault : railFault s rail mv =
      countEnded (resetCounting (raise (railLost s) 0x090F0006 (.device true) (d4 rail.toNat ++ d4 mv.toNat))) := by
    simp only [railFault, countEnded, resetCounting, railLost]
  intro t
  rw [show t = _ from hfault]
  generalize railLost s = a at *
  generalize raise a 0x090F0006 (.device true) (d4 rail.toNat ++ d4 mv.toNat) = u at hraise hraised
  obtain ⟨w, hescalate, -⟩ := escalate_spec (setKnl u { u.knl with resetCounted := true })
  have hescalated : (resetCounting u).tly.buffer = _ := escalate_buffer (setKnl u { u.knl with resetCounted := true })
  change OnlyReports _ (resetCounting u) at hescalate
  generalize resetCounting u = v at hescalate hescalated
  have hv : ∀ {α : Type} (f : State → α), f v = f _ := fun f => congrArg f hescalate
  have hu : ∀ {α : Type} (f : State → α), f u = f _ := fun f => congrArg f hraise
  refine ⟨(hv (·.die)).trans ((hu (·.die)).trans hdie), (hv (·.mem.hbm)).trans ((hu (·.mem.hbm)).trans hhbm),
    (hv (·.str.image)).trans ((hu (·.str.image)).trans himage), (hv (·.sec.job)).trans ((hu (·.sec.job)).trans hjob),
    hescalated.trans (hraised.trans hbuffer), (hv (·.sec.owner)).trans ((hu (·.sec.owner)).trans howner), ?_⟩
  have hrecord : v.knl.resets = resetsAfter (setKnl u { u.knl with resetCounted := true }) := hv (·.knl.resets)
  have hold : u.knl.resets = s.knl.resets := (hu (·.knl.resets)).trans hresets
  have hnow : u.shp.time = s.shp.time := (hu (·.shp.time)).trans htime
  rw [← hold, ← hnow]
  exact hrecord

/-- R634: what the loss of standby power leaves. -/
theorem vstbyLoss_spec {s : State} (h : s.shp.standby = true) : let t := vstbyLoss s
    t.shp.standby = false ∧ t.die = .off ∧ t.shp.saved = s.shp.time ∧ t.shp.serving = false ∧ t.shp.pwrFail = false ∧
    (∀ l, linkAt t l = {}) ∧ t.sec.debug = false ∧ (s.die ≠ .off → t.mem.hbm = [] ∧ t.str.image = none ∧ t.tly.buffer = []) ∧ MramKept s t := by
  by_cases hdie : s.die = .off
  · have hloss : vstbyLoss s = { s with
        shp := { shpKept (saveTime s).shp with standby := false, pwrFail := false, railFault := false }
        sec := { s.sec with event := 0, debug := false, debugPending := false }
        tet := { s.tet with link := Vector.replicate 2 {} }
        tly := { s.tly with side := {} } } := by
      simp only [vstbyLoss, h, Bool.not_true, Bool.false_eq_true, if_false, show (saveTime s).die = s.die from rfl, hdie, if_true]
      rfl
    rw [hloss]
    exact ⟨rfl, hdie, rfl, rfl, rfl, fun l => vget_replicate 2 l ({} : TLink), rfl, fun hne => absurd hdie hne,
      rfl, rfl, rfl, rfl, rfl, rfl, rfl, rfl, rfl, rfl, rfl, rfl, rfl, rfl, rfl⟩
  · have hloss : vstbyLoss s = { losePower (saveTime s) with
        shp := { shpKept (losePower (saveTime s)).shp with standby := false, pwrFail := false, railFault := false }
        sec := { (losePower (saveTime s)).sec with event := 0, debug := false, debugPending := false }
        tet := { (losePower (saveTime s)).tet with link := Vector.replicate 2 {} }
        tly := { (losePower (saveTime s)).tly with side := {} } } := by
      simp only [vstbyLoss, h, Bool.not_true, Bool.false_eq_true, if_false, show (saveTime s).die = s.die from rfl, hdie]
    rw [hloss]
    exact ⟨rfl, rfl, rfl, rfl, rfl, fun l => vget_replicate 2 l ({} : TLink), rfl, fun _ => ⟨rfl, rfl, rfl⟩,
      rfl, rfl, rfl, rfl, rfl, rfl, rfl, rfl, rfl, rfl, rfl, rfl, rfl, rfl, rfl⟩

/-- Settles O58: each event of the rails by the state of the compute die. -/
theorem powerFails : Obligations.PowerFails := by
  refine ⟨fun s h hlate => ⟨_, rfl, ?_⟩, fun s step hstandby hdie => ⟨_, rfl, ?_⟩, fun s rail mv => ⟨fun hdie => ⟨_, rfl, if_pos hdie⟩,
    fun hdie => ⟨_, rfl, ?_⟩⟩, fun s hstandby hpower hdie => ⟨_, rfl, ?_⟩, fun s => ⟨_, rfl, rfl⟩, fun s h => ⟨_, rfl, vstbyLoss_spec h⟩,
    fun s h => ⟨_, rfl, if_pos h⟩⟩
  · have hlate' : railsLate s = raise (setShp s { s.shp with railsLate := true }) 0x090F0003 .event :=
      if_pos (by rw [releaseOk_of_releasable h, hlate]; rfl)
    obtain ⟨-, -, hdie, -⟩ := h
    have hraise := onlyReports_raise (setShp s { s.shp with railsLate := true }) 0x090F0003 .event []
    rw [hlate']
    refine ⟨(congrArg (·.shp.railsLate) hraise :), (congrArg (·.sys) hraise :), fun hfull =>
      raise_off_stored (s := setShp s { s.shp with railsLate := true }) hdie rfl (fun _ => rfl) [] hfull⟩
  · have hfault : railOrderFault s step = raise (setShp s { s.shp with railFault := true }) 0x090F0005 .event (d4 step.toNat) :=
      if_pos (by rw [hstandby, hdie]; rfl)
    have hraise := onlyReports_raise (setShp s { s.shp with railFault := true }) 0x090F0005 .event (d4 step.toNat)
    rw [hfault]
    exact ⟨(congrArg (·.shp.railFault) hraise :), (congrArg (·.die) hraise :).trans hdie, (congrArg (·.sys) hraise :)⟩
  · cases hpower : s.shp.pwrFail
    case true =>
      have hlost : railOutOfRange s rail mv = losePower s := (if_neg hdie).trans (if_pos hpower)
      rw [hlost]
      exact ⟨rfl, rfl, rfl, rfl, rfl, rfl, nofun, fun _ => rfl⟩
    case false =>
      have hfault : railOutOfRange s rail mv = railFault s rail mv := (if_neg hdie).trans (if_neg (by rw [hpower]; decide))
      obtain ⟨hoff, hhbm, himage, hjob, hbuffer, howner, hresets⟩ := railFault_spec hdie rail mv
      rw [hfault]
      exact ⟨hoff, hhbm, himage, hjob, hbuffer, howner, fun _ => hresets, nofun⟩
  · have hfail : powerFail s = raise (saveTime (setShp s { s.shp with pwrFail := true })) 0x090F0001 (.device false) :=
      (if_neg (by rw [hstandby, hpower]; decide)).trans (if_neg hdie)
    rw [hfail, raise_released (by exact hdie) (u := .shp) (b := 6) rfl fun _ => rfl]
    exact ⟨rfl, rfl, List.mem_append_right _ (List.mem_singleton.mpr rfl), rfl, rfl⟩

end Sys2Proof.Machine
end

section
/-!
Standby power, release, and the start-up of the device to its end (R7, R290, R329, R403, R514, R516, R531, R561, R566, R567, R573, R611
to R617, R622): O57.
-/
namespace Sys2Proof.Machine

/-! ## Standby power (R514, R516, R611) -/

/-- The state in which the standby rail is good: the clock a second on from what was saved, and the pins and slots sampled. -/
def standbyGood (s : State) (pos : BitVec 2) (leashEn : Bool) (images : Vector (Option (BitVec 32)) 5) : State :=
  { s with
    shp := { s.shp with standby := true, time := s.shp.saved + 1000000, pos := pos, leashEn := leashEn }
    sec := { s.sec with fw := Vector.ofFn fun i : Fin 4 => { s.sec.fw[i] with svn := images[i.val] }, calSvn := images[4] } }

theorem onlyReports_checkStraps (s : State) : OnlyReports s (checkStraps s) := by
  unfold checkStraps
  split
  · exact onlyReports_raise ..
  · exact .refl s

theorem standbyPowerGood_spec {s : State} (h : s.shp.standby = false) (hdie : s.die = .off) (pos : BitVec 2) (en : Bool)
    (images : Vector (Option (BitVec 32)) 5) : let t := standbyPowerGood s pos en images
    t.shp.standby = true ∧ t.shp.time = s.shp.saved + 1000000 ∧ t.shp.pos = pos ∧
    t.shp.leashEn = en ∧ t.sec.challenge = (Config.draw s.free).setWidth 128 ∧ t.sec.debug = false ∧ t.die = .off ∧
    (∀ i, i < 4 → (vget t.sec.fw i {}).svn = vget images i none) ∧ t.sec.calSvn = vget images 4 none ∧
    (∀ l, linkAt t l = {}) ∧ t.shp.serving = false ∧
    (t.shp.rom = true ↔ fwOk t 0 false = false ∧ fwOk t 0 true = false) ∧ t.sec.owner = s.sec.owner ∧ t.shp.epoch = s.shp.epoch := by
  have hgood : standbyPowerGood s pos en images = checkStraps (packageStart (standbyGood s pos en images)) := if_neg (by simp [h])
  obtain ⟨run, svn, cal, hstart⟩ := packageStart_spec (standbyGood s pos en images)
  have hall := hstart.trans (onlyReports_checkStraps _)
  intro t
  rw [show t = _ from hgood]
  generalize checkStraps (packageStart (standbyGood s pos en images)) = u at hall
  have hkept : ∀ {α : Type} (f : State → α), f u = f _ := fun f => congrArg f hall
  have hlink : u.tet.link = Vector.replicate 2 {} := hkept (·.tet.link)
  have hrom : u.shp.rom = !(fwOk (standbyGood s pos en images) 0 false || fwOk (standbyGood s pos en images) 0 true) := hkept (·.shp.rom)
  have hok : ∀ b, fwOk u 0 b = fwOk (standbyGood s pos en images) 0 b := fun b => hall.fwOk 0 b
  have hfw : u.sec.fw = Vector.ofFn fun i : Fin 4 => { s.sec.fw[i] with svn := images[i.val] } := hkept (·.sec.fw)
  refine ⟨hkept (·.shp.standby), hkept (·.shp.time), hkept (·.shp.pos), hkept (·.shp.leashEn), hkept (·.sec.challenge),
    hkept (·.sec.debug), (hkept (·.die)).trans hdie, fun i hi => ?_, ?_, fun l => ?_, hkept (·.shp.serving), ?_, hkept (·.sec.owner),
    hkept (·.shp.epoch)⟩
  · rw [hfw, vget_ofFn _ hi]
    simp [vget, List.getD_eq_getElem?_getD, Nat.lt_of_lt_of_le hi (by decide : 4 ≤ 5)]
  · refine (hkept (·.sec.calSvn)).trans ?_
    simp [vget, List.getD_eq_getElem?_getD, packageBooted, booted, packageBegun, standbyGood, setSec]
  · rw [linkAt, hlink, vget_replicate]
  · rw [hrom, hok, hok]
    simp

/-! ## Release (R612, R613) -/

theorem shepherdRecord_mem (s : State) (code : Nat) (eff : Effect) (detail : Bytes) : (shepherdRecord s code eff detail).mem = s.mem := by
  obtain ⟨heq, -⟩ := onlyStored_storeRec (techCode s (BitVec.ofNat 32 code))
    (shepherdRec (techCode s (BitVec.ofNat 32 code)) (BitVec.ofNat 32 code) detail)
  simp only [shepherdRecord]
  split
  · exact (congrArg (·.mem) heq :)
  · rfl

theorem imageRefused_mem (s : State) : (imageRefused s).mem = s.mem := by
  have hraise : imageRefused s = (let u := setEvent s .sec 3
    if u.die = .off then shepherdRecord u 0x0A0E0004 .event []
    else { u with knl := { u.knl with inflight := u.knl.inflight ++ [⟨0x0A0E0004, .event, [], u.sys.drill⟩] } }) := rfl
  rw [hraise]
  simp only
  split
  · exact shepherdRecord_mem ..
  · rfl

theorem bootFw_mem (s : State) (kind : Nat) : (bootFw s kind).1.mem = s.mem := by
  have hrun : ∀ u b, (runFw u kind b).mem = u.mem := fun _ _ => rfl
  simp only [bootFw]
  repeat' split
  · exact hrun _ _
  · exact (hrun _ _).trans (imageRefused_mem s)
  · exact (imageRefused_mem _).trans (imageRefused_mem s)

theorem releasable_iff (s : State) : Releasable s ↔ ¬(!releaseOk s || s.shp.railFault) = true := by
  simp [Releasable, releaseOk, Option.isSome_iff_ne_none, and_assoc]

/-- R613: the domains that ramp at every release are among those requested. -/
theorem getLsbD_startDomains (s : State) {d : Nat} (hd : d < 22) : (startDomains s).getLsbD d = true := by
  rw [startDomains, getLsbD_domMask _ (by omega)]
  simp only [List.any_append, List.any_eq_true, List.mem_range, beq_iff_eq, Bool.or_eq_true]
  exact .inl (.inl (.inl ⟨d, hd, rfl⟩))

/-- The domains that are on at a release: the Kennel's and the Tether's. -/
theorem getLsbD_startOn {d : Nat} (hd : d < 50) : (domMask [48, 49]).getLsbD d = decide (d = 48 ∨ d = 49) := by
  rw [getLsbD_domMask _ hd]
  simp [beq_eq_decide, eq_comm]

/-- R403, R612: BOOT, a new service period, and the lead plan, before the domains are requested. -/
def released (s : State) : State := { readPlan s with
  die := .released
  sys := { replace := s.shp.replace }
  boot := {}
  tet := { s.tet with period := s.tet.period + 1, serial := 0, link := s.tet.link.map fun x => { x with lost := false, retry := 0 } } }

/-- What the release makes of a state in which a Kerrin slot runs. -/
theorem releaseDie_spec (s : State) : let t := releaseDie s
    t.die = .released ∧ t.sys.st = .boot ∧ t.sys.degraded = false ∧ t.tet.period = s.tet.period + 1 ∧ t.tet.serial = 0 ∧
    t.lead.activeId = s.lead.selfId ∧ t.lead.planUse = s.lead.plan ∧ t.lead.expectUse = s.lead.expect ∧ t.boot = {} ∧
    (∀ l, l < 2 → (linkAt t l).lost = false ∧ (linkAt t l).retry = 0) ∧ (∀ d, d < 22 → t.shp.requested.getLsbD d = true) ∧
    t.shp.on.getLsbD 48 = true ∧ t.shp.on.getLsbD 49 = true ∧ t.mem = s.mem := by
  refine ⟨rfl, rfl, rfl, rfl, rfl, rfl, rfl, rfl, rfl, fun l hl => ?_, fun d hd => ?_, ?_, ?_, rfl⟩
  · have hlink : (releaseDie s).tet.link = s.tet.link.map fun x => { x with lost := false, retry := 0 } := rfl
    rw [linkAt, hlink, vget_map _ _ hl]
    exact ⟨rfl, rfl⟩
  · have hrequest := requestDomains_requested (setShp (raiseSvn (released s) 2) { (raiseSvn (released s) 2).shp with on := domMask [48, 49] })
      (getLsbD_startDomains (raiseSvn (released s) 2) hd)
    refine hrequest.resolve_left fun hon => ?_
    rw [show (setShp _ _).shp.on = domMask [48, 49] from rfl, getLsbD_startOn (by omega)] at hon
    simp at hon
    omega
  · exact (getLsbD_startOn (by decide)).trans rfl
  · exact (getLsbD_startOn (by decide)).trans rfl

/-- R612: a Kerrin slot that verifies brings the release. -/
theorem runs_release {s : State} (h : Releasable s) (hok : fwOk s 1 false = true ∨ fwOk s 1 true = true) :
    Runs .computeDieRelease s fun t => t.die = .released ∧ t.sys.st = .boot ∧
      t.sys.degraded = false ∧ t.tet.period = s.tet.period + 1 ∧ t.tet.serial = 0 ∧ t.lead.activeId = s.lead.selfId ∧
      t.lead.planUse = s.lead.plan ∧ t.lead.expectUse = s.lead.expect ∧ t.boot = {} ∧
      (∀ l, l < 2 → (linkAt t l).lost = false ∧ (linkAt t l).retry = 0) ∧ (∀ d, d < 22 → t.shp.requested.getLsbD d = true) ∧
      t.shp.on.getLsbD 48 = true ∧ t.shp.on.getLsbD 49 = true ∧ t.mem = s.mem := by
  obtain ⟨run, svn, hboot, hsome⟩ := bootFw_spec s 1
  have hrun : (bootFw s 1).2 = true := by rw [hsome]; simpa using hok
  have hrelease : computeDieRelease s = releaseDie (bootFw s 1).1 := (if_neg ((releasable_iff s).mp h)).trans (if_pos hrun)
  have hmem := bootFw_mem s 1
  generalize (bootFw s 1).1 = u at hrelease hboot hmem
  obtain ⟨hdie, hst, hdeg, hperiod, hserial, hid, hplan, hexpect, hb, hlinks, hdomains, hA, hB, hkept⟩ := releaseDie_spec u
  exact ⟨_, congrArg Host.Outcome.next hrelease, hdie, hst, hdeg, hperiod.trans (congrArg (·.tet.period + 1) hboot :), hserial,
    hid.trans (congrArg (·.lead.selfId) hboot :), hplan.trans (congrArg (·.lead.plan) hboot :),
    hexpect.trans (congrArg (·.lead.expect) hboot :), hb, hlinks, hdomains, hA, hB, hkept.trans hmem⟩

/-! ## The Kerrin firmware and the domains (R7, R290, R329, R531) -/

/-- A fold that sets leads changes nothing else. -/
theorem foldl_sendDiscovery_eq (is : List Nat) (s : State) : ∃ lead, is.foldl sendDiscovery s = { s with lead := { s.lead with lead := lead } } := by
  induction is generalizing s with
  | nil => exact ⟨s.lead.lead, rfl⟩
  | cons i is ih =>
    have hone : ∃ lead, sendDiscovery s i = { s with lead := { s.lead with lead := lead } } := by
      unfold sendDiscovery
      split
      · exact ⟨s.lead.lead, rfl⟩
      · exact ⟨_, rfl⟩
    obtain ⟨lead, hlead⟩ := hone
    obtain ⟨lead', hlead'⟩ := ih (sendDiscovery s i)
    rw [hlead] at hlead'
    exact ⟨lead', by rw [List.foldl_cons, hlead]; exact hlead'⟩

/-- R329: bring-up begins, or it does not. -/
theorem beginBringUp_eq (s : State) : ∃ lead discovering, beginBringUp s = { s with
    lead := { s.lead with lead := lead, discovering := discovering } } ∧
    (discovering = false → lead = s.lead.lead ∧ s.lead.discovering = false) := by
  unfold beginBringUp
  split
  · simp only [beginDiscovery]
    split
    · obtain ⟨lead, hlead⟩ := foldl_sendDiscovery_eq allLeads { s with lead := { s.lead with discovering := true } }
      exact ⟨lead, true, hlead, nofun⟩
    · exact ⟨s.lead.lead, true, rfl, nofun⟩
  · exact ⟨s.lead.lead, s.lead.discovering, rfl, fun h => ⟨rfl, h⟩⟩

/-- R290: the data rate of a start-up; one that was asked for and is not there is reported. -/
theorem chooseRate_eq {s : State} (h : s.die ≠ .off) : ∃ event inflight, chooseRate s = { s with
    mem := { s.mem with extActive := s.mem.extRate && s.mem.qualified == 0xFF, event := event }
    knl := { s.knl with inflight := inflight } } ∧
    (s.mem.extRate = true → s.mem.qualified ≠ 0xFF → ⟨0x06060007, .event, [], s.sys.drill⟩ ∈ inflight) := by
  simp only [chooseRate]
  split
  case isTrue =>
    rw [raise_onlyMem (by exact h) (b := 6) (count := id) rfl fun _ => rfl]
    exact ⟨_, _, rfl, fun _ _ => List.mem_append_right _ (List.mem_singleton.mpr rfl)⟩
  case isFalse hno =>
    refine ⟨s.mem.event, s.knl.inflight, rfl, fun hrate hpart => absurd ?_ hno⟩
    simpa [hrate] using hpart

theorem kerrinServing_spec {s : State} (h : s.die = .released) : let t := kerrinServing s
    t.die = .serving ∧ t.mem.hbm = [] ∧ t.sec.idleKey = s.free ∧ t.sec.challenge = (Config.draw (s.free + 1)).setWidth 128 ∧
    t.mem.extActive = (s.mem.extRate && s.mem.qualified == 0xFF) ∧
    (s.mem.extRate = true → s.mem.qualified ≠ 0xFF → OnItsWay t 0x06060007 .event [] s.sys.drill) ∧ t.sys = s.sys := by
  have hserve : kerrinServing s = beginBringUp (chooseRate (newChallenge (newIdleKey { s with die := .serving }))) := if_pos h
  obtain ⟨event, inflight, hrate, hreport⟩ := chooseRate_eq (s := newChallenge (newIdleKey { s with die := .serving })) nofun
  obtain ⟨lead, discovering, hbegin, -⟩ := beginBringUp_eq (chooseRate (newChallenge (newIdleKey { s with die := .serving })))
  intro t
  rw [show t = _ from hserve, hbegin, hrate]
  exact ⟨rfl, rfl, rfl, rfl, rfl, hreport, rfl⟩

/-- The state in which a domain has come on. -/
def domainOn (s : State) (d : Nat) : State := startRamps (setShp s { s.shp with
  on := s.shp.on ||| domMask [d], requested := s.shp.requested &&& ~~~domMask [d], ramping := s.shp.ramping &&& ~~~domMask [d] })

theorem domainPowerGood_eq {s : State} {d : Nat} (h : s.shp.ramping.getLsbD d = true) :
    domainPowerGood s d = beginBringUp (settleDomain (domainOn s d) d) := if_pos h

theorem getLsbD_domMask_singleton {d i : Nat} (hi : i < 50) : (domMask [d]).getLsbD i = decide (d = i) := by
  rw [getLsbD_domMask _ hi]
  simp [beq_eq_decide]

/-- R531: a domain that is no Rods pair's is on. -/
theorem domainPowerGood_spec {s : State} (d : Fin 50) (h : s.shp.ramping.getLsbD d = true) (hd : d.val < 22 ∨ 29 < d.val) :
    let t := domainPowerGood s d
    t.shp.on.getLsbD d = true ∧ t.shp.requested.getLsbD d = false ∧ (∀ e, e ≠ d.val → t.shp.on.getLsbD e = s.shp.on.getLsbD e) ∧
    t = { s with shp := t.shp, lead := t.lead } ∧ (t.lead.discovering = false → t.lead = s.lead) ∧
    t.lead = { s.lead with lead := t.lead.lead, discovering := t.lead.discovering } := by
  have hgood := domainPowerGood_eq h
  rw [settleDomain, if_neg (by omega)] at hgood
  obtain ⟨lead, discovering, hbegin, hnone⟩ := beginBringUp_eq (domainOn s d)
  rw [hbegin] at hgood
  intro t
  rw [show t = _ from hgood]
  have hself := getLsbD_domMask_singleton (d := d) d.isLt
  refine ⟨?_, ?_, fun e he => ?_, rfl, fun hoff => ?_, rfl⟩
  · show (s.shp.on ||| domMask [d.val]).getLsbD d = true
    rw [BitVec.getLsbD_or, hself]
    simp
  · show (s.shp.requested &&& ~~~domMask [d.val]).getLsbD d = false
    rw [BitVec.getLsbD_and, BitVec.getLsbD_not, hself]
    simp
  · show (s.shp.on ||| domMask [d.val]).getLsbD e = s.shp.on.getLsbD e
    by_cases hlt : e < 50
    · rw [BitVec.getLsbD_or, getLsbD_domMask_singleton hlt]
      simp [Ne.symm he]
    · rw [BitVec.getLsbD_of_ge _ _ (by omega), BitVec.getLsbD_of_ge _ _ (by omega)]
  · obtain ⟨hlead, hdiscovering⟩ := hnone hoff
    obtain rfl : discovering = false := hoff
    show ({ s.lead with lead := lead, discovering := false } : LeadS) = s.lead
    rw [hlead, ← show s.lead.discovering = false from hdiscovering]
    rfl

/-- R206, R531: a Rods pair that no loaded program needs is gated again. -/
theorem domainPowerGood_pair {s : State} (d : Fin 50) (h : s.shp.ramping.getLsbD d = true) (hlo : 22 ≤ d.val) (hhi : d.val ≤ 29) :
    let t := domainPowerGood s d
    t.shp.on.getLsbD d = pairNeeded s (d.val - 22) ∧ t.mem = s.mem ∧ t.sys = s.sys := by
  have hgood := domainPowerGood_eq h
  obtain ⟨lead, discovering, hbegin, -⟩ := beginBringUp_eq (settleDomain (domainOn s d) d)
  have hself := getLsbD_domMask_singleton (d := d) d.isLt
  have hon : (domainOn s d).shp.on.getLsbD d = true := by
    show (s.shp.on ||| domMask [d.val]).getLsbD d = true
    rw [BitVec.getLsbD_or, hself]
    simp
  have hsettle : (settleDomain (domainOn s d) d).shp.on.getLsbD d = pairNeeded s (d.val - 22) ∧
      (settleDomain (domainOn s d) d).mem = s.mem ∧ (settleDomain (domainOn s d) d).sys = s.sys := by
    have hunits : ∃ u : State, settleDomain (domainOn s d) d = (if pairNeeded u (d.val - 22) then u else gateDomains u (domMask [d.val])) ∧
        u.str.image = s.str.image ∧ u.shp = (domainOn s d).shp ∧ u.mem = s.mem ∧ u.sys = s.sys := by
      refine ⟨_, if_pos ⟨hlo, hhi⟩, ?_⟩
      split <;> exact ⟨rfl, rfl, rfl, rfl⟩
    obtain ⟨u, hu, himage, hshp, hmem, hsys⟩ := hunits
    rw [hu, pairNeeded_congr himage]
    cases pairNeeded s (d.val - 22)
    · refine ⟨?_, hmem, hsys⟩
      show (u.shp.on &&& ~~~domMask [d.val]).getLsbD d = false
      rw [BitVec.getLsbD_and, BitVec.getLsbD_not, hself]
      simp
    · exact ⟨by rw [if_pos rfl, hshp, hon], hmem, hsys⟩
  obtain ⟨hpair, hmem, hsys⟩ := hsettle
  intro t
  rw [show t = _ from hgood, hbegin]
  exact ⟨hpair, hmem, hsys⟩

/-! ## The end of HBM training (R614, R615) -/

/-- Words that agree but for one bit hold at most one more one. -/
theorem onesIn_le_of_agree {x y b : Nat} (h : ∀ i, i ≠ b → bitOf y i = bitOf x i) (k : Nat) : onesIn x 0 k ≤ onesIn y 0 k + 1 ∧
    (k ≤ b → onesIn x 0 k = onesIn y 0 k) := by
  induction k with
  | zero => exact ⟨by simp [onesIn], fun _ => rfl⟩
  | succ k ih =>
    obtain ⟨hle, heq⟩ := ih
    simp only [onesIn, Nat.zero_add]
    by_cases hk : k = b
    · have hsame := heq (by omega)
      have hbit : b2n (bitOf x k) ≤ 1 := by cases bitOf x k <;> decide
      exact ⟨by omega, fun hlt => absurd hlt (by omega)⟩
    · rw [h k hk]
      exact ⟨by omega, fun hlt => by rw [heq (by omega)]⟩

/-- A sum of which one part falls by at most one falls by at most one. -/
theorem sum_map_set_le (f : Word → Nat) {l : List Word} {i : Nat} {w : Word} (h : ∀ x, l[i]? = some x → f x ≤ f w + 1) :
    (l.map f).sum ≤ ((l.set i w).map f).sum + 1 := by
  induction l generalizing i with
  | nil => exact Nat.le_succ _
  | cons x xs ih =>
    cases i with
    | zero =>
      have hx := h x rfl
      simp only [List.set_cons_zero, List.map_cons, List.sum_cons]
      omega
    | succ i =>
      have hxs := ih (i := i) fun y hy => h y hy
      simp only [List.set_cons_succ, List.map_cons, List.sum_cons]
      omega

/-- The ones of a word. -/
def wordOnes (w : Word) : Nat := onesIn w.toNat 0 32

theorem livePcs_eq_sum (s : State) : livePcs s = (s.mem.live.toList.map wordOnes).sum := (List.sum_eq_foldl_nat ..).symm

theorem wordOnes_clear (w : Word) (b : Nat) : wordOnes w ≤ wordOnes (w &&& ~~~BitVec.ofNat 32 (2 ^ b)) + 1 := by
  refine (onesIn_le_of_agree (b := b) (fun i hi => ?_) 32).1
  rw [bitOf_toNat, bitOf_toNat, BitVec.getLsbD_and, BitVec.getLsbD_not, BitVec.getLsbD_ofNat, Nat.testBit_two_pow]
  by_cases hlt : i < 32
  · simp [hlt, Ne.symm hi]
  · simp [hlt, BitVec.getLsbD_of_ge w i (Nat.le_of_not_lt hlt)]

/-- R311: the loss of one channel is the loss of one. -/
theorem livePcs_dropChannel (s : State) (i : Nat) : livePcs s ≤ livePcs (dropChannel s i) + 1 := by
  rw [livePcs_eq_sum, livePcs_eq_sum]
  simp only [dropChannel, vmodify]
  split
  · rw [Vector.toList_set]
    refine sum_map_set_le wordOnes fun x hx => ?_
    obtain ⟨-, rfl⟩ := Vector.getElem?_eq_some_iff.mp ((Vector.getElem?_toList ..).symm.trans hx)
    exact wordOnes_clear _ _
  · exact Nat.le_succ _

/-- R614: where training lost channels, those that are left are counted. -/
theorem hbmTrainingDone_eq {s : State} (hst : s.sys.st = .boot) (hdie : s.die = .serving) (htrained : s.boot.trained = false)
    (failed : List (Fin 8 × Fin 32)) : hbmTrainingDone s failed =
      (let u := failed.foldl (fun s f => loseChannel s (pcId f.1 f.2)) s
      if livePcs u = 0 then raise { u with boot := { u.boot with trained := true, noPc := true } } 0x06060008 .event
      else { u with boot := { u.boot with trained := true }, str := { u.str with scrub := true } }) :=
  if_neg (by simp [hst, hdie, htrained])

theorem hbmTrainingDone_lost {s : State} (hst : s.sys.st = .boot) (hdie : s.die = .serving) (htrained : s.boot.trained = false)
    {st : Fin 8} {pc : Fin 32} (hlive : pcLive s (pcId st pc) = true) (hmore : 1 < livePcs s) : let t := hbmTrainingDone s [(st, pc)]
    pcLive t (pcId st pc) = false ∧ t.boot.trained = true ∧ t.str.scrub = true ∧ t.sys.degraded = true ∧
    OnItsWay t 0x06060006 .event [] s.sys.drill := by
  obtain ⟨hkept, hdegraded, hway, -⟩ := loseChannel_spec (released_of_serving hdie) hlive
  have heffect : lossEffect s = .event := by simp [lossEffect, hst]
  rw [heffect] at hway
  have hdead := (hkept.pcLive (pcId st pc)).trans (pcLive_dropChannel s (pcId_lt st pc))
  have hleft : livePcs (loseChannel s (pcId st pc)) ≠ 0 := by
    have hcount : livePcs (loseChannel s (pcId st pc)) = livePcs (dropChannel s (pcId st pc)) := by
      rw [livePcs_eq_sum, livePcs_eq_sum, hkept.live]
    have hone := livePcs_dropChannel s (pcId st pc)
    omega
  have hdone : hbmTrainingDone s [(st, pc)] = { loseChannel s (pcId st pc) with
      boot := { (loseChannel s (pcId st pc)).boot with trained := true }, str := { (loseChannel s (pcId st pc)).str with scrub := true } } :=
    (hbmTrainingDone_eq hst hdie htrained [(st, pc)]).trans (if_neg hleft)
  intro t
  rw [show t = _ from hdone]
  exact ⟨hdead, rfl, rfl, hdegraded, hway⟩

/-! ## The end of start-up (R616, R617) -/

/-- R461, R616: a Tether link is lost, or did not come up. -/
def tetherShort (s : State) : Bool := s.knl.repTether || !((linkAt s 0).up && (linkAt s 1).up)

/-- The state in which it is settled whether the Tether's links are a cause of DEGRADED, with the reports of it. -/
def tetherSettled (s : State) (event : Word) (inflight : List Raised) : State :=
  setKnl s { s.knl with repTether := tetherShort s, event := event, inflight := inflight }

theorem settleTether_eq {s : State} (h : s.die ≠ .off) : ∃ event inflight, settleTether s = tetherSettled s event inflight := by
  simp only [settleTether]
  split
  case isTrue hnew =>
    have hshort : tetherShort s = true := by simp_all [tetherShort]
    rw [raise_onlyKnl (by exact h) (b := 9) rfl fun _ => rfl]
    refine ⟨orBit s.knl.event 9, s.knl.inflight ++ [⟨0x0D010002, .event, [], s.sys.drill⟩], ?_⟩
    rw [tetherSettled, hshort]
    rfl
  case isFalse hold =>
    refine ⟨s.knl.event, s.knl.inflight, ?_⟩
    have hshort : tetherShort s = s.knl.repTether := by
      unfold tetherShort
      cases hrep : s.knl.repTether <;> simp_all
    rw [tetherSettled, hshort]
    rfl

theorem leaveBoot_eq {s : State} (h : s.die ≠ .off) : ∃ event inflight, leaveBoot s =
    (let u := tetherSettled s event inflight
    let v := sysChange u (if bootWithdraws s then .withdrawn else .holding) (degradedNow u) s.sys.drill (degradedNow u || bootWithdraws s)
    if bootWithdraws s then v else raiseSvn v 1) := by
  obtain ⟨event, inflight, hsettle⟩ := settleTether_eq h
  have hreport : ∃ event' inflight', (if (bootWithdraws s && !isWithdrawn (tetherSettled s event inflight)) = true
      then raise (tetherSettled s event inflight) 0x0D010002 .event else tetherSettled s event inflight) =
      tetherSettled s event' inflight' := by
    split
    · rw [raise_onlyKnl (by exact h) (b := 9) rfl fun _ => rfl]
      exact ⟨_, _, rfl⟩
    · exact ⟨event, inflight, rfl⟩
  obtain ⟨event', inflight', hwithdraw⟩ := hreport
  refine ⟨event', inflight', ?_⟩
  simp only [leaveBoot, hsettle, show bootWithdraws (tetherSettled s event inflight) = bootWithdraws s from rfl, hwithdraw]
  rfl

/-- R616: what a device that leaves BOOT is. -/
theorem leaveBoot_spec {s : State} (h : s.die ≠ .off) : let t := leaveBoot s
    t.sys.st = (if bootWithdraws s then .withdrawn else .holding) ∧
    t.sys.degraded = (s.frm.retired.isSome || decide (livePcs s < 256) || tetherShort s || s.knl.repLead) ∧
    t.sys.replace = (t.sys.degraded || bootWithdraws s) ∧ t.mem = s.mem ∧ t.str = s.str := by
  obtain ⟨event, inflight, hleave⟩ := leaveBoot_eq h
  obtain ⟨seq, repl, link, held, period, serial, hchange⟩ := sysChange_eq (tetherSettled s event inflight)
    (if bootWithdraws s then .withdrawn else .holding) (degradedNow (tetherSettled s event inflight)) s.sys.drill
    (degradedNow (tetherSettled s event inflight) || bootWithdraws s)
  simp only [hchange] at hleave
  intro t
  rw [show t = _ from hleave]
  split <;> exact ⟨rfl, rfl, rfl, rfl, rfl⟩

theorem bootDone_of {s : State} (hst : s.sys.st = .boot) (hdie : s.die = .serving) (hbead : s.boot.beadTest = true)
    (hover : s.boot.overwrite = true ∨ s.boot.noPc = true) (hleads : s.lead.discovered = true) : bootDone s = true := by
  rcases hover with hover | hover <;> simp [bootDone, hst, hdie, hbead, hover, hleads]

/-- Settles O57: each stage of a start-up, by what the operation of its event makes of the state. -/
theorem startUp : Obligations.StartUp := by
  refine ⟨⟨fun s pos en images h hdie => ⟨_, rfl, standbyPowerGood_spec h hdie pos en images⟩, fun s h => ⟨fun hok => ?_, fun hA hB => ?_⟩,
    fun s h => ?_⟩, fun s h => ⟨_, rfl, kerrinServing_spec h⟩, fun s d h hd => ⟨_, rfl, domainPowerGood_spec d h hd⟩,
    fun s d h hlo hhi => ⟨_, rfl, domainPowerGood_pair d h hlo hhi⟩, fun s d h hdie => ⟨_, rfl, ?_⟩,
    fun s hst hdie htrained => ⟨fun hlive => ?_, fun st pc hlive hmore => ⟨_, rfl, hbmTrainingDone_lost hst hdie htrained hlive hmore⟩,
      fun hnone => ⟨_, rfl, ?_⟩⟩,
    fun s hst hdie hbead hover hleads => ⟨fun hkept hwidth hpc => ?_, fun hgone => ?_⟩, fun s h => ?_, fun s hdie hst => ⟨_, rfl, ?_⟩⟩
  · exact runs_release h hok
  · obtain ⟨run, svn, hboot, hnone⟩ := bootFw_spec s 1
    rw [hA, hB] at hnone
    have hrefused : computeDieRelease s = setShp (bootFw s 1).1 { (bootFw s 1).1.shp with kerrinOk := false } :=
      (if_neg ((releasable_iff s).mp h)).trans (if_neg (Bool.eq_false_iff.mp hnone))
    obtain ⟨-, -, hdie, -⟩ := h
    refine ⟨_, congrArg Host.Outcome.next hrefused, (congrArg (·.die) hboot :).trans hdie, rfl, (congrArg (·.sys) hboot :)⟩
  · exact congrArg Host.Outcome.next (if_pos (not_not.mp ((releasable_iff s).not.mp h)))
  · have hlate : domainPgTimeout s d.val = raise s 0x090F0004 (.device true) (d4 d) := if_pos (by simp [h, hdie])
    rw [hlate]
    exact ⟨raise_onItsWay hdie _ _ _, (congrArg (·.sys) (onlyReports_raise s 0x090F0004 (.device true) (d4 d)) :)⟩
  · exact ⟨_, congrArg Host.Outcome.next ((hbmTrainingDone_eq hst hdie htrained []).trans (if_neg hlive)), rfl⟩
  · have hdone := (hbmTrainingDone_eq hst hdie htrained []).trans (if_pos hnone)
    have hoff : s.die ≠ .off := released_of_serving hdie
    rw [hdone, raise_noEvent (by exact hoff) rfl fun _ => rfl]
    exact ⟨rfl, List.mem_append_right _ (List.mem_singleton.mpr rfl)⟩
  · have hboot : bootWithdraws s = false := by simp [bootWithdraws, hkept, hwidth, hpc]
    obtain ⟨hstate, hdegraded, hreplace, hmem, hstr⟩ := leaveBoot_spec (released_of_serving hdie)
    rw [hboot] at hstate hreplace
    refine ⟨_, congrArg Host.Outcome.next (if_pos (bootDone_of hst hdie hbead hover hleads)), hstate, ?_, hreplace.trans (Bool.or_false _),
      hmem, hstr⟩
    rw [hdegraded, tetherShort]
    ac_rfl
  · have hboot : bootWithdraws s = true := by
      unfold bootWithdraws
      rcases hgone with h | h | h <;> simp [h]
    obtain ⟨hstate, -, hreplace, hmem, -⟩ := leaveBoot_spec (released_of_serving hdie)
    rw [hboot] at hstate hreplace
    exact ⟨_, congrArg Host.Outcome.next (if_pos (bootDone_of hst hdie hbead hover hleads)), hstate, hreplace.trans (Bool.or_true _), hmem⟩
  · refine congrArg Host.Outcome.next (if_neg ?_)
    rcases h with h | h <;> simp [bootDone, h]
  · refine ⟨?_, ?_⟩
    · rw [if_pos ⟨hdie, hst⟩]
      exact raise_onItsWay hdie _ _ _
    · rw [if_pos ⟨hdie, hst⟩]
      exact (congrArg (·.sys) (onlyReports_raise s 0x05010004 (.device true) []) :)

end Sys2Proof.Machine
end

section
/-!
The leash, the tray bus, telemetry and the thermal trip (R515, R517 to R524, R528, R529, R532, R533, R578, R638): O59.
-/
namespace Sys2Proof.Machine

/-! ## Codes of the Shepherd -/

/-- A code of the Shepherd's, whoever records it, changes nothing of the memories. -/
theorem raise_shp_mem (s : State) {code b : Nat} (hb : eventBit code = some (.shp, b)) (hc : ∀ t, countCode t code = t) (eff : Effect)
    (detail : Bytes) : (raise s code eff detail).mem = s.mem := by
  unfold raise
  rw [hb]
  simp only [hc]
  split
  · exact shepherdRecord_mem ..
  · rfl

/-! ## The leash (R517 to R524) -/

section
variable {s : State}

theorem leashIs_iff (l : Leash) : leashIs s l = true ↔ s.shp.serving = true ∧ s.shp.leash = l := by
  simp [leashIs]

theorem leashIs_of {l l' : Leash} (hserve : s.shp.serving = true) (h : s.shp.leash = l) : leashIs s l' = decide (l = l') := by
  rw [leashIs, hserve, h, Bool.true_and, beq_eq_decide]

theorem drillHandled_other {k : Nat} (h : drilling s k = false) : drillHandled s k = s := by
  rw [drillHandled, h]
  rfl

/-- R519: the leash is taken under a higher epoch. -/
def leashTaken (s : State) : State := setShp s { s.shp with
  leashO := !s.shp.leashO, drivers := true, epoch := BitVec.ofNat 32 (epochTop s + 1), epochSeen := BitVec.ofNat 32 (epochTop s + 1)
  broadcast := some (BitVec.ofNat 32 (epochTop s + 1), s.shp.pos), stale := false, leash := .active }

theorem takeLeash_free (h : epochTop s < 0xFFFFFFFF) (f : State → State) : takeLeash s f = f (leashTaken s) := if_neg (Nat.ne_of_lt h)

theorem takeLeash_exhausted (h : epochTop s = 0xFFFFFFFF) (f : State → State) : takeLeash s f = raise s 0x0D0F0006 .event := if_pos h

theorem leashTaken_epoch (h : epochTop s < 0xFFFFFFFF) : (leashTaken s).shp.epoch.toNat = max s.shp.epoch.toNat s.shp.epochSeen.toNat + 1 := by
  show (BitVec.ofNat 32 (epochTop s + 1)).toNat = epochTop s + 1
  rw [BitVec.toNat_ofNat, Nat.mod_eq_of_lt (by omega)]

/-- The peer's periods are counted from zero (R522). -/
def peerLapsed (s : State) : State := setShp s { s.shp with peerOk := 0 }

/-- R522: a Shepherd that serves and does not hold the leash takes it. -/
theorem leashLapse_takes (hserve : s.shp.serving = true) (h : s.shp.leash = .standby ∨ s.shp.leash = .watch ∨ s.shp.leash = .claiming) :
    leashLapse s = takeLeash (peerLapsed s) fun s => drillHandled (raise s 0x0D0F0001 .absorbed) 5 := by
  refine if_pos ?_
  show (leashIs s .standby || leashIs s .watch || leashIs s .claiming) = true
  rcases h with h | h | h <;> simp [leashIs_of hserve h]

theorem leashLapse_keeps (h : s.shp.serving = false ∨ s.shp.leash = .active ∨ s.shp.leash = .ineligible) : leashLapse s = peerLapsed s := by
  refine if_neg ?_
  show ¬(leashIs s .standby || leashIs s .watch || leashIs s .claiming) = true
  simp only [Bool.or_eq_true, leashIs_iff]
  rcases h with h | h | h <;> simp [h]

/-- R522, R519: the epoch is exhausted. -/
theorem leashLapse_exhausted (hserve : s.shp.serving = true) (h : s.shp.leash = .standby ∨ s.shp.leash = .watch ∨ s.shp.leash = .claiming)
    (htop : max s.shp.epoch.toNat s.shp.epochSeen.toNat = 0xFFFFFFFF) : Runs .leashLapse s fun t => t.shp.leash = s.shp.leash ∧
      t.shp.epoch = s.shp.epoch ∧ t.shp.peerOk = 0 ∧ (s.die ≠ .off → OnItsWay t 0x0D0F0006 .event [] s.sys.drill) := by
  have hlapse := (leashLapse_takes hserve h).trans (takeLeash_exhausted (s := peerLapsed s) htop _)
  have hraise := onlyReports_raise (peerLapsed s) 0x0D0F0006 .event []
  refine ⟨_, congrArg Host.Outcome.next hlapse, (congrArg (·.shp.leash) hraise :), (congrArg (·.shp.epoch) hraise :),
    (congrArg (·.shp.peerOk) hraise :), fun hdie => raise_onItsWay (s := peerLapsed s) hdie _ _ _⟩

/-- R522: the leash is taken, and broadcast. -/
theorem leashLapse_taken (hserve : s.shp.serving = true) (h : s.shp.leash = .standby ∨ s.shp.leash = .watch ∨ s.shp.leash = .claiming)
    (htop : max s.shp.epoch.toNat s.shp.epochSeen.toNat < 0xFFFFFFFF) (hdrill : drilling s 5 = false) :
    Runs .leashLapse s fun t => t.shp.leash = .active ∧
      t.shp.peerOk = 0 ∧ (s.die ≠ .off → OnItsWay t 0x0D0F0001 .absorbed [] s.sys.drill) ∧
      t.shp.drivers = true ∧ t.shp.leashO = !s.shp.leashO ∧
      t.shp.epoch.toNat = max s.shp.epoch.toNat s.shp.epochSeen.toNat + 1 ∧ t.shp.broadcast = some (t.shp.epoch, s.shp.pos) ∧
      t.sys = s.sys ∧ t.mem = s.mem := by
  have hraise := onlyReports_raise (leashTaken (peerLapsed s)) 0x0D0F0001 .absorbed []
  have hmem := raise_shp_mem (leashTaken (peerLapsed s)) (code := 0x0D0F0001) rfl (fun _ => rfl) .absorbed []
  have hway : s.die ≠ .off → _ := fun hdie => raise_onItsWay (s := leashTaken (peerLapsed s)) hdie 0x0D0F0001 .absorbed []
  have hnone : drilling (raise (leashTaken (peerLapsed s)) 0x0D0F0001 .absorbed) 5 = false := by
    have hactive : (raise (leashTaken (peerLapsed s)) 0x0D0F0001 .absorbed).snp.drillActive = s.snp.drillActive :=
      (congrArg (·.snp.drillActive) hraise :)
    rw [drilling, hactive]
    exact hdrill
  have hlapse := ((leashLapse_takes hserve h).trans (takeLeash_free (s := peerLapsed s) htop _)).trans (drillHandled_other hnone)
  have hepoch := leashTaken_epoch (s := peerLapsed s) htop
  generalize raise (leashTaken (peerLapsed s)) 0x0D0F0001 .absorbed = u at *
  have hkept : ∀ {α : Type} (f : State → α), f u = f _ := fun f => congrArg f hraise
  have hto : u.shp.epoch = (leashTaken (peerLapsed s)).shp.epoch := hkept (·.shp.epoch)
  refine ⟨u, congrArg Host.Outcome.next hlapse, hkept (·.shp.leash), hkept (·.shp.peerOk), hway, hkept (·.shp.drivers),
    hkept (·.shp.leashO), by rw [hto, hepoch]; rfl, ?_, hkept (·.sys), hmem⟩
  rw [hto]
  exact hkept (·.shp.broadcast)

/-- R523: position 0 takes the leash back. -/
theorem getacccr_claims (hserve : s.shp.serving = true) (h : s.shp.leash = .claiming)
    (htop : max s.shp.epoch.toNat s.shp.epochSeen.toNat < 0xFFFFFFFF) (hdrill : drilling s 5 = false) :
    Runs .getacccr s fun t => t.shp.leash = .active ∧ t.shp.lastReclaim = some s.shp.time ∧
      t.shp.epoch.toNat = max s.shp.epoch.toNat s.shp.epochSeen.toNat + 1 ∧ t.sys = s.sys := by
  have hclaim : getacccr s = drillHandled (raise (setShp (leashTaken s) { (leashTaken s).shp with lastReclaim := some s.shp.time })
      0x0D0F0002 .event) 5 :=
    (if_pos ((leashIs_iff .claiming).mpr ⟨hserve, h⟩)).trans (takeLeash_free htop _)
  have hraise := onlyReports_raise (setShp (leashTaken s) { (leashTaken s).shp with lastReclaim := some s.shp.time }) 0x0D0F0002 .event []
  have hepoch := leashTaken_epoch htop
  generalize raise (setShp (leashTaken s) { (leashTaken s).shp with lastReclaim := some s.shp.time }) 0x0D0F0002 .event = u at *
  have hkept : ∀ {α : Type} (f : State → α), f u = f _ := fun f => congrArg f hraise
  have hnone : drilling u 5 = false := by
    have hactive : u.snp.drillActive = s.snp.drillActive := hkept (·.snp.drillActive)
    rw [drilling, hactive]
    exact hdrill
  have hto : u.shp.epoch = (leashTaken s).shp.epoch := hkept (·.shp.epoch)
  exact ⟨u, congrArg Host.Outcome.next (hclaim.trans (drillHandled_other hnone)), hkept (·.shp.leash), hkept (·.shp.lastReclaim),
    by rw [hto, hepoch], hkept (·.sys)⟩

/-- R517: an edge of the peer. -/
theorem leashPeerEdge_spec (h : eligible s = true) (interval : Nat) (e : BitVec 32) : Runs (.leashPeerEdge interval e) s fun t =>
    t.shp.peerOk = (if 1750 ≤ interval ∧ interval ≤ 2250 then s.shp.peerOk + 1 else 0) ∧
    t.shp.epochSeen.toNat = max s.shp.epochSeen.toNat e.toNat ∧
    t = { s with shp := { s.shp with peerOk := t.shp.peerOk, epochSeen := t.shp.epochSeen } } := by
  refine ⟨_, congrArg Host.Outcome.next (if_neg (by rw [h]; decide)), rfl, ?_, rfl⟩
  show (BitVec.ofNat 32 (max s.shp.epochSeen.toNat e.toNat)).toNat = max s.shp.epochSeen.toNat e.toNat
  have hs := s.shp.epochSeen.isLt
  have he := e.isLt
  rw [BitVec.toNat_ofNat, Nat.mod_eq_of_lt (by omega)]

/-- The state in which the firmware serves and the leash state machine starts. -/
def leashBegun (s : State) : State := setShp s { s.shp with
  serving := true, restarting := false, leash := leashStart s, drivers := false, peerOk := 0, roleRequested := false }

/-- R515: the firmware serves again, and the leash starts. -/
theorem shepherdServing_spec (hstandby : s.shp.standby = true) (hserve : s.shp.serving = false) (hrom : s.shp.rom = false) :
    Runs .shepherdServing s fun t => t.shp.serving = true ∧ t.shp.restarting = false ∧ t.shp.peerOk = 0 ∧ t.shp.drivers = false ∧
      t.shp.leash = (if eligible s = false then .ineligible else if s.shp.pos = 0 then .watch else .standby) ∧ t.sys = s.sys := by
  have hrun : shepherdServing s = if s.shp.restarting then raise (leashBegun s) 0x0D0F0003 .event else leashBegun s :=
    if_neg (by simp [hstandby, hserve, hrom])
  have hleash : leashStart s = if eligible s = false then .ineligible else if s.shp.pos = 0 then .watch else .standby := by
    rw [leashStart]
    cases eligible s <;> rfl
  refine ⟨_, congrArg Host.Outcome.next hrun, ?_⟩
  have hreports : OnlyReports (leashBegun s) (if s.shp.restarting then raise (leashBegun s) 0x0D0F0003 .event else leashBegun s) := by
    split
    · exact onlyReports_raise ..
    · exact .refl _
  generalize (if s.shp.restarting = true then raise (leashBegun s) 0x0D0F0003 .event else leashBegun s) = u at *
  have hkept : ∀ {α : Type} (f : State → α), f u = f _ := fun f => congrArg f hreports
  exact ⟨hkept (·.shp.serving), hkept (·.shp.restarting), hkept (·.shp.peerOk), hkept (·.shp.drivers),
    (hkept (·.shp.leash)).trans hleash, hkept (·.sys)⟩

/-! ## The tray bus and telemetry (R520, R528, R529, R532, R533) -/

/-- R528: a transfer of the holder that fails its parity is counted; one that fails again is reported. -/
theorem trayBusParity_spec (hdie : s.die ≠ .off) (hserve : s.shp.serving = true) (hactive : s.shp.leash = .active) (again : Bool) :
    Runs (.trayBusParity again) s fun t => t.shp.busParity = satAdd32 s.shp.busParity 1 ∧
      OnItsWay t 0x0D0F0005 .count [] s.sys.drill ∧ (again = true → OnItsWay t 0x0D0F0005 .event [] s.sys.drill) ∧ t.sys = s.sys := by
  have hcounted := onlyReports_raise (setShp s { s.shp with busParity := satAdd32 s.shp.busParity 1 }) 0x0D0F0005 .count []
  have hway := raise_onItsWay (s := setShp s { s.shp with busParity := satAdd32 s.shp.busParity 1 }) hdie 0x0D0F0005 .count []
  have hrun : trayBusParity s again =
      (let u := raise (setShp s { s.shp with busParity := satAdd32 s.shp.busParity 1 }) 0x0D0F0005 .count
      if again then raise u 0x0D0F0005 .event else u) := if_pos ((leashIs_iff .active).mpr ⟨hserve, hactive⟩)
  refine ⟨_, congrArg Host.Outcome.next hrun, ?_⟩
  generalize raise (setShp s { s.shp with busParity := satAdd32 s.shp.busParity 1 }) 0x0D0F0005 .count = u at *
  have hkept : ∀ {α : Type} (f : State → α), f u = f _ := fun f => congrArg f hcounted
  have hparity : u.shp.busParity = satAdd32 s.shp.busParity 1 := hkept (·.shp.busParity)
  have hdie' : u.die ≠ .off := fun h => hdie ((hkept (·.die)).symm.trans h)
  have hsys : u.sys = s.sys := hkept (·.sys)
  cases again
  · exact ⟨hparity, hway, nofun, hsys⟩
  · have hagain := onlyReports_raise u 0x0D0F0005 .event []
    refine ⟨(congrArg (·.shp.busParity) hagain :).trans hparity, ?_, fun _ => ?_, (congrArg (·.sys) hagain :).trans hsys⟩
    · show _ ∈ (raise u 0x0D0F0005 .event).knl.inflight
      rw [raise_inflight hdie']
      exact List.mem_append_left _ hway
    · rw [← hsys]
      exact raise_onItsWay hdie' 0x0D0F0005 .event []

/-- R532, R578: what SHP_TELEM shows after a sample. -/
theorem vget_telemShown (v : Vector (BitVec 24) 16) (window : Bool) {i : Nat} (hi : i < 16) : vget (telemShown s v window) i 0 =
    if i = 15 then 0
    else if i < 4 && s.sec.telemCoarse then
      if window then BitVec.ofInt 24 (((coarseSums s v).getD i 0) / 1000) else vget s.shp.telem i 0
    else vget v i 0 := by
  rw [telemShown, vget_ofFn _ hi, show vget v i 0 = v[i] by simp [vget, List.getD_eq_getElem?_getD, hi]]
  rfl

theorem telemetrySample_spec (h : s.shp.standby = true) (v : Vector (BitVec 24) 16) : Runs (.telemetrySample v) s fun t =>
    t.shp.sample = s.shp.sample + 1 ∧ (s.sec.telemCoarse = false → ∀ i, i < 15 → vget t.shp.telem i 0 = vget v i 0) ∧
    (s.sec.telemCoarse = true → (∀ i, 4 ≤ i → i < 15 → vget t.shp.telem i 0 = vget v i 0) ∧
      (s.shp.coarseN < 999 → ∀ i, i < 4 → vget t.shp.telem i 0 = vget s.shp.telem i 0)) ∧ vget t.shp.telem 15 0 = 0 ∧
    (s.die ≠ .off → t.knl.temp = BitVec.ofInt 8 ((vget v 3 0).toInt / 10)) ∧ t.mem = s.mem ∧ t.sys = s.sys := by
  have hrun : ∃ telem temp, telemetrySample s v = { s with
      shp := { s.shp with telem := telem, sample := s.shp.sample + 1
                          coarse := if decide (999 ≤ s.shp.coarseN) then [0, 0, 0, 0] else coarseSums s v
                          coarseN := if decide (999 ≤ s.shp.coarseN) then 0 else s.shp.coarseN + 1 }
      knl := { s.knl with temp := temp } } ∧ telem = telemShown s v (decide (999 ≤ s.shp.coarseN)) ∧
      (s.die ≠ .off → temp = BitVec.ofInt 8 ((vget v 3 0).toInt / 10)) := by
    by_cases hdie : s.die = .off
    · refine ⟨_, s.knl.temp, (if_neg (by rw [h]; decide)).trans (if_pos hdie), rfl, fun hon => absurd hdie hon⟩
    · exact ⟨_, _, (if_neg (by rw [h]; decide)).trans (if_neg hdie), rfl, fun _ => rfl⟩
  obtain ⟨telem, temp, heq, htelem, htemp⟩ := hrun
  refine ⟨_, congrArg Host.Outcome.next heq, rfl, fun hfine i hi => ?_, fun hcoarse => ⟨fun i hlo hi => ?_, fun hfew i hi => ?_⟩, ?_, htemp, rfl,
    rfl⟩
  all_goals show vget telem _ 0 = _; rw [htelem, vget_telemShown v _ (by omega)]
  · rw [if_neg (by omega), if_neg (by simp [hfine])]
  · rw [if_neg (by omega), if_neg (by simp; omega)]
  · rw [if_neg (by omega), if_pos (by simp [hcoarse, hi]), if_neg (by simp; omega)]
  · rfl

end

/-- Settles O59: each command of the leash by the state that it meets, then the tray bus and telemetry. -/
theorem leashAndTray : Obligations.LeashAndTray := by
  refine ⟨⟨fun s hserve hactive hdrill => ⟨?_, ?_, fun hpos hpeer => ?_, fun hpos => ?_, fun hpos hrole => ?_⟩,
    fun s hserve h => ⟨leashLapse_exhausted hserve h, leashLapse_taken hserve h⟩,
    fun s h => ⟨_, congrArg Host.Outcome.next (leashLapse_keeps h), rfl⟩, fun s hserve hwatch hpeer hdue => ?_,
    fun s hserve hclaiming => ⟨getacccr_claims hserve hclaiming, ?_⟩, fun s interval e h => leashPeerEdge_spec h interval e,
    fun s hserve => ⟨_, rfl, if_pos hserve⟩, fun s => shepherdServing_spec⟩,
    fun s hdie hserve hactive => ⟨fun hfresh => ?_, fun again => ?_, fun others => ?_, fun others => ?_⟩,
    fun s v h => telemetrySample_spec h v, fun s k hstandby hdie => ?_, fun s => ⟨_, rfl, rfl⟩⟩
  · exact ⟨_, rfl, if_pos (by rw [leashIs_of hserve hactive, hdrill]; rfl)⟩
  · have hfence : leashSelfFence s = setShp s { s.shp with drivers := false } := by
      rw [leashSelfFence, if_neg (by rw [hactive]; decide)]
      exact if_pos (by show (!drilling s 5) = true; rw [hdrill]; rfl)
    exact ⟨_, congrArg Host.Outcome.next hfence, rfl⟩
  · have hyield : leashYield s = raise (stopLeash s) 0x0D0F0007 .event :=
      if_pos (by rw [leashIs_of hserve hactive, hpos, decide_eq_true hpeer]; rfl)
    have hraise := onlyReports_raise (stopLeash s) 0x0D0F0007 .event []
    exact ⟨_, congrArg Host.Outcome.next hyield, (congrArg (·.shp.leash) hraise :), (congrArg (·.shp.drivers) hraise :),
      (congrArg (·.shp.epoch) hraise :), (congrArg (·.sys) hraise :)⟩
  · exact ⟨_, congrArg Host.Outcome.next ((if_neg (by rw [leashIs_of hserve hactive]; simp)).trans
      (if_pos (by rw [leashIs_of hserve hactive, hpos]; rfl))), rfl⟩
  · exact ⟨_, congrArg Host.Outcome.next ((if_neg (by rw [leashIs_of hserve hactive]; decide)).trans
      (if_pos (by rw [leashIs_of hserve hactive, hpos, hrole]; rfl))), rfl⟩
  · exact ⟨_, congrArg Host.Outcome.next (if_pos (by rw [leashIs_of hserve hwatch, hdue, decide_eq_true hpeer]; rfl)), rfl⟩
  · exact ⟨_, congrArg Host.Outcome.next (if_pos ((leashIs_iff .claiming).mpr ⟨hserve, hclaiming⟩)), rfl⟩
  · have hrefused : actuatorRefused s = raise (setShp s { s.shp with stale := true }) 0x0D0F0004 .event :=
      if_pos (by rw [leashIs_of hserve hactive, hfresh]; rfl)
    have hraise := onlyReports_raise (setShp s { s.shp with stale := true }) 0x0D0F0004 .event []
    exact ⟨_, congrArg Host.Outcome.next hrefused, (congrArg (·.shp.stale) hraise :),
      raise_onItsWay (s := setShp s { s.shp with stale := true }) hdie _ _ _, (congrArg (·.sys) hraise :)⟩
  · exact trayBusParity_spec hdie hserve hactive again
  · have hpoll : techPoll s true others = setShp s { s.shp with tool := techPage s ++ others } :=
      if_pos (by rw [leashIs_of hserve hactive]; rfl)
    refine ⟨_, congrArg Host.Outcome.next hpoll, rfl, rfl, rfl, rfl, fun k hk => ?_⟩
    show (techPage s ++ others).getD (k + 2) 0 = s.shp.tech.getD k 0
    interval_cases k <;> rfl
  · exact congrArg Host.Outcome.next (if_neg (by simp))
  · have htrip : thermalTrip s k = raise (setShp s { s.shp with thermalHold := some k }) 0x090F0002 (.device true) (d4 k) := if_pos hstandby
    have hraise := onlyReports_raise (setShp s { s.shp with thermalHold := some k }) 0x090F0002 (.device true) (d4 k)
    exact ⟨_, congrArg Host.Outcome.next htrip, (congrArg (·.shp.thermalHold) hraise :),
      raise_onItsWay (s := setShp s { s.shp with thermalHold := some k }) hdie _ _ _, (congrArg (·.sys) hraise :)⟩

end Sys2Proof.Machine
end

section
/-!
Job keys are made, unwrapped and dropped, and firmware and the debug unlock (R566 to R568, R570, R572, R573, R575, R584): O51, O52.
-/
namespace Sys2Proof.Machine

/-! ## Refused requests -/

/-- A request that is refused with a code of SEC leaves its record and its answer, and nothing else. -/
theorem runs_secRefused {c : Instr} {s : State} {r : Req} {k : ReqKind} {code b : Nat} {detail : Bytes}
    (hexec : exec c s = .next (refuseReq (tetRecv s r.link k.shp) r k code detail)) (hd : s.die ≠ .off)
    (hb : eventBit code = some (.sec, b)) (hc : ∀ t, countCode t code = t) : Runs c s fun t => SecRefused s t r k code detail := by
  have hraise := raise_onlySec (s := tetRecv s r.link k.shp) hd hb hc .refusedTally detail
  exact runs_respond (k := k) (hexec.trans (congrArg (fun u => Host.Outcome.next (respondCode u r k.shp k.type code)) hraise)) rfl
    fun link hans => ⟨List.mem_append_right _ (List.mem_singleton.mpr rfl), hans, rfl⟩

/-- R579: a refused message of the job's keys. -/
theorem runs_jobRefused {c : Instr} {s : State} {r : Req} {kind : Nat} (h : Admits s r kJob)
    (hexec : exec c s = .next (refuseJob (tetRecv s r.link false) r kind)) : Runs c s fun t =>
      SecRefused s t r kJob 0x0A0E0005 (natLE 4 kind) :=
  runs_secRefused (b := 4) hexec (released_of_serving (admits_serving h rfl)) rfl fun _ => rfl

/-! ## The job's ephemeral key (R568) -/

theorem keyReady_iff (s : State) : KeyReady s ↔ s.sys.st = .holding ∧ (!loaded s) = true ∧ s.sec.job.isNone = true ∧ (!s.sec.debug) = true := by
  simp [KeyReady]

theorem runs_jobEphemeral {s : State} {r : Req} (jobId : BitVec 64) (h : Admits s r kJob) (hready : KeyReady s) :
    Runs (.jobEphemeral r jobId) s fun t => ∃ b, Answered s t r kJob 0 b ∧ b.length = 145 ∧
      t = { s with sec := { s.sec with eph := t.sec.eph }, tet := { s.tet with link := t.tet.link }, free := s.free + 2 } ∧
      t.sec.eph = some { jobId := jobId, nonce := (Config.draw (s.free + 1)).setWidth 128, draw := s.free } := by
  have hserve : jobEphemeral s r jobId = _ := (request_admitted h _).trans (if_pos ((keyReady_iff s).mp hready))
  refine runs_respond (k := kJob) (congrArg Host.Outcome.next hserve) rfl fun link hans => ⟨_, hans, ?_, rfl, rfl⟩
  simp [natLE_length, Config.made]

theorem runs_jobEphemeral_refused {s : State} {r : Req} (jobId : BitVec 64) (h : Admits s r kJob) (hready : ¬ KeyReady s) :
    Runs (.jobEphemeral r jobId) s fun t => SecRefused s t r kJob 0x0A0E0005 (natLE 4 0x10) :=
  runs_jobRefused h (congrArg Host.Outcome.next ((request_admitted h _).trans (if_neg (mt (keyReady_iff s).mpr hready))))

/-! ## The wrapped master key (R568) -/

/-- The bytes of a number that is read from bytes are those bytes. -/
theorem natLE_leNat : (x : Bytes) → natLE x.length (leNat x) = x
  | [] => rfl
  | b :: x => by
    have hread : leNat (b :: x) = leNat x * 256 + b.toNat := by
      simp only [leNat]
      omega
    have hb := b.isLt
    have hhead : BitVec.ofNat 8 (leNat x * 256 + b.toNat) = b := by
      refine BitVec.eq_of_toNat_eq ?_
      rw [BitVec.toNat_ofNat]
      omega
    rw [hread, List.length_cons, natLE, hhead, show (leNat x * 256 + b.toNat) / 256 = leNat x by omega, natLE_leNat x]

/-- A word of 8 n bits that is read from n bytes writes them again. -/
theorem natLE_ofNat_leNat {w n : Nat} {x : Bytes} (hx : x.length = n) (hw : 256 ^ n = 2 ^ w) :
    natLE n (BitVec.ofNat w (leNat x)).toNat = x := by
  have hlt := leNat_lt x
  rw [hx, hw] at hlt
  rw [BitVec.toNat_ofNat, Nat.mod_eq_of_lt hlt]
  subst hx
  exact natLE_leNat x

/-- A key of R568 has 32 bytes. -/
theorem wrapKey_length (s : State) (e : JobEph) (node : BitVec 512) : (wrapKey s e node).length = 32 := by
  simp [wrapKey, kdf, show ceilDiv 256 256 = 1 from rfl, List.range_one, hmac, sha256_length]

/-- What was sealed under the key of the two ephemerals unwraps. -/
theorem unwrap_gcmSeal (s : State) (e : JobEph) (node : BitVec 512) (m : BitVec 256) :
    let c := gcmSeal (wrapKey s e node) (zeros 12) (natLE 8 e.jobId.toNat) (natLE 32 m.toNat)
    unwrap s e node (BitVec.ofNat 256 (leNat (c.take 32))) (BitVec.ofNat 128 (leNat (c.drop 32))) = some m := by
  intro c
  have hkey := wrapKey_length s e node
  have hlen : c.length = 48 := by
    show (gcmText _ _ _ ++ gcmTag _ _ _ _).length = 48
    rw [List.length_append, gcmText_length, natLE_length, gcmTag_length hkey (zeros_length 12)]
  have htake := natLE_ofNat_leNat (w := 256) (x := c.take 32) (n := 32) (by rw [List.length_take, hlen]; rfl) (by norm_num)
  have hdrop := natLE_ofNat_leNat (w := 128) (x := c.drop 32) (n := 16) (by rw [List.length_drop, hlen]) (by norm_num)
  have hopen : unwrap s e node (BitVec.ofNat 256 (leNat (c.take 32))) (BitVec.ofNat 128 (leNat (c.drop 32))) =
      some (BitVec.ofNat 256 (leNat (natLE 32 m.toNat))) := by
    rw [unwrap, htake, hdrop, List.take_append_drop, gcmOpen_gcmSeal hkey (zeros_length 12), Option.map_some]
  have hm : m.toNat % 256 ^ 32 = m.toNat := Nat.mod_eq_of_lt (Nat.lt_of_lt_of_eq m.isLt (by norm_num))
  rw [hopen, leNat_natLE, hm, BitVec.ofNat_toNat, BitVec.setWidth_eq]

/-- What a wrapped key unwraps to rests on the device's own ID alone. -/
theorem unwrap_congr {s t : State} (h : ownId t = ownId s) (e : JobEph) (node : BitVec 512) (wrapped : BitVec 256) (tag : BitVec 128) :
    unwrap t e node wrapped tag = unwrap s e node wrapped tag := by
  simp only [unwrap, wrapKey, h]

/-- The state in which JOB_KEY has taken the ephemeral key. -/
def ephTaken (s : State) (r : Req) : State := setSec (tetRecv s r.link false) { s.sec with eph := none }

section
variable {s : State} {r : Req} {jobId : BitVec 64} {node : BitVec 512} {wrapped : BitVec 256} {tag : BitVec 128} {ew er : BitVec 32}
  {e : JobEph} (h : Admits s r kJob) (heph : s.sec.eph = some e)
include h heph

/-- What JOB_KEY does while no key is installed, of the ephemeral key's job and outside debug: it takes the ephemeral key, and installs
what unwraps. -/
theorem jobKey_installs (hid : e.jobId = jobId) (hjob : s.sec.job = none) (hdebug : s.sec.debug = false) :
    (∀ m, unwrap s e node wrapped tag = some m → jobKey s r jobId node wrapped tag ew er =
      done (overwriteHbm (setSec (ephTaken s r) { (ephTaken s r).sec with
        job := some { jobId := jobId, master := m, nonce := e.nonce, epochW := ew, epochR := er } })) r kJob) ∧
    (unwrap s e node wrapped tag = none → jobKey s r jobId node wrapped tag ew er = refuseJob (ephTaken s r) r 0x11) := by
  have hmay : e.jobId = jobId ∧ (tetRecv s r.link kJob.shp).sec.job.isNone = true ∧ (!(tetRecv s r.link kJob.shp).sec.debug) = true :=
    ⟨hid, Option.isNone_iff_eq_none.mpr hjob, congrArg (!·) hdebug⟩
  have hun : unwrap (setSec (tetRecv s r.link kJob.shp) { (tetRecv s r.link kJob.shp).sec with eph := none }) e node wrapped tag =
      unwrap s e node wrapped tag := unwrap_congr rfl ..
  refine ⟨fun m hm => ?_, fun hm => ?_⟩ <;> rw [jobKey, request_admitted h] <;>
    simp only [show (tetRecv s r.link kJob.shp).sec.eph = some e from heph, if_pos hmay, hun, hm]
  · rfl
  · rfl

/-- R568: the master that unwraps becomes the job's key. -/
theorem runs_jobKey (hid : e.jobId = jobId) (hjob : s.sec.job = none) (hdebug : s.sec.debug = false) {m : BitVec 256}
    (hm : unwrap s e node wrapped tag = some m) : Runs (.jobKey r jobId node wrapped tag ew er) s fun t => Answered s t r kJob 0 [] ∧
      t.sec.job = some { jobId := jobId, master := m, nonce := e.nonce, epochW := ew, epochR := er } ∧ t.sec.eph = none ∧
      t.mem.hbm = [] ∧ t.mem.check = [] ∧ t.str.scrub = true ∧ t.sys = s.sys :=
  runs_respond (k := kJob) (congrArg Host.Outcome.next ((jobKey_installs h heph hid hjob hdebug).1 m hm)) rfl
    fun _ hans => ⟨hans, rfl, rfl, rfl, rfl, rfl, rfl⟩

/-- R568: one that does not unwrap is refused, and the ephemeral key is gone. -/
theorem runs_jobKey_notUnwrapped (hid : e.jobId = jobId) (hjob : s.sec.job = none) (hdebug : s.sec.debug = false)
    (hm : unwrap s e node wrapped tag = none) : Runs (.jobKey r jobId node wrapped tag ew er) s fun t =>
      OnItsWay t 0x0A0E0005 .refusedTally (natLE 4 0x11) s.sys.drill ∧
      Answered s t r kJob 1 (natLE 4 0x0A0E0005) ∧ t.sec.job = none ∧ t.sec.eph = none ∧ t.mem = s.mem := by
  have hraise := raise_onlySec (s := ephTaken s r) (code := 0x0A0E0005) (b := 4)
    (released_of_serving (s := s) (admits_serving h rfl)) rfl (fun _ => rfl) .refusedTally (d4 0x11)
  have hrefuse := ((jobKey_installs (er := er) (ew := ew) h heph hid hjob hdebug).2 hm).trans
    (congrArg (respondCode · r false kJob.type 0x0A0E0005) hraise)
  exact runs_respond (k := kJob) (congrArg Host.Outcome.next hrefuse) rfl fun link hans =>
    ⟨List.mem_append_right _ (List.mem_singleton.mpr rfl), hans, hjob, rfl, rfl⟩

theorem runs_jobKey_barred (hbar : e.jobId ≠ jobId ∨ s.sec.job ≠ none ∨ s.sec.debug = true) :
    Runs (.jobKey r jobId node wrapped tag ew er) s fun t => SecRefused s t r kJob 0x0A0E0005 (natLE 4 0x11) := by
  have hserve : jobKey s r jobId node wrapped tag ew er = refuseJob (tetRecv s r.link false) r 0x11 := by
    rw [jobKey, request_admitted h]
    simp only [show (tetRecv s r.link kJob.shp).sec.eph = some e from heph]
    refine if_neg ?_
    rintro ⟨hid, hjob, hdebug⟩
    rcases hbar with hbar | hbar | hbar
    · exact hbar hid
    · exact hbar (Option.isNone_iff_eq_none.mp hjob)
    · exact Bool.false_ne_true ((congrArg (!·) hbar).symm.trans hdebug)
  exact runs_jobRefused h (congrArg Host.Outcome.next hserve)

end

/-- R568: JOB_KEY without an ephemeral key of its job, with a key installed, or in debug. -/
theorem runs_jobKey_refused {s : State} {r : Req} {jobId : BitVec 64} {node : BitVec 512} {wrapped : BitVec 256} {tag : BitVec 128}
    {ew er : BitVec 32} (h : Admits s r kJob)
    (hbar : s.sec.eph = none ∨ (∃ e, s.sec.eph = some e ∧ e.jobId ≠ jobId) ∨ s.sec.job ≠ none ∨ s.sec.debug = true) :
    Runs (.jobKey r jobId node wrapped tag ew er) s fun t => SecRefused s t r kJob 0x0A0E0005 (natLE 4 0x11) := by
  match heph : s.sec.eph with
  | none =>
    have hserve : jobKey s r jobId node wrapped tag ew er = refuseJob (tetRecv s r.link false) r 0x11 := by
      rw [jobKey, request_admitted h]
      simp only [show (tetRecv s r.link kJob.shp).sec.eph = none from heph]
      rfl
    exact runs_jobRefused h (congrArg Host.Outcome.next hserve)
  | some e =>
    refine runs_jobKey_barred h heph ?_
    rcases hbar with hbar | ⟨e', he', hne⟩ | hbar
    · simp [heph] at hbar
    · rw [heph] at he'
      exact Or.inl (Option.some.inj he' ▸ hne)
    · exact Or.inr hbar

/-! ## The drop (R568, R573) -/

theorem destroyJobKey_idle {s : State} (h : s.ld.active = false) :
    destroyJobKey s = { dropLeadKeys s with sec := { s.sec with job := none, peers := [] } } :=
  if_neg (fun hactive => Bool.false_ne_true (h.symm.trans hactive))

theorem runs_jobDrop {s : State} {r : Req} {jobId : BitVec 64} (h : Admits s r kJob) (hst : s.sys.st = .holding) (hload : loaded s = false)
    (hkey : ∃ k, s.sec.job = some k ∧ k.jobId = jobId) (hld : s.ld.active = false) :
    Runs (.jobDrop r jobId) s fun t => Answered s t r kJob 0 [] ∧ t.sec.job = none ∧ t.sec.peers = [] ∧ t.mem.hbm = [] ∧
      t.sec.idleKey = s.free ∧ t.free = s.free + 1 ∧ t.str.scrub = true ∧ t.sys = s.sys ∧ ∀ i, i < 8 → (leadAt t i).keyed = false := by
  obtain ⟨k, hk, hid⟩ := hkey
  have hmay : s.sys.st = .holding ∧ (!loaded s) = true ∧ s.sec.job.any (fun k => k.jobId == jobId) = true :=
    ⟨hst, by rw [hload]; rfl, by simp [hk, hid]⟩
  have hserve : jobDrop s r jobId = done (overwriteHbm (newIdleKey (destroyJobKey (tetRecv s r.link false)))) r kJob :=
    (request_admitted h _).trans (if_pos hmay)
  rw [destroyJobKey_idle (s := tetRecv s r.link false) hld] at hserve
  exact runs_respond (k := kJob) (congrArg Host.Outcome.next hserve) rfl fun link hans =>
    ⟨hans, rfl, rfl, rfl, rfl, rfl, rfl, rfl, fun i hi =>
      (congrArg Lead.keyed (leadAt_congr (s := dropLeadKeys (tetRecv s r.link false)) rfl i)).trans (leadAt_dropLeadKeys _ hi).1⟩

theorem runs_jobDrop_refused {s : State} {r : Req} {jobId : BitVec 64} (h : Admits s r kJob)
    (hbar : (∀ k, s.sec.job = some k → k.jobId ≠ jobId) ∨ loaded s = true) : Runs (.jobDrop r jobId) s fun t =>
      SecRefused s t r kJob 0x0A0E0005 (natLE 4 0x12) := by
  refine runs_jobRefused h (congrArg Host.Outcome.next ((request_admitted h _).trans (if_neg ?_)))
  rintro ⟨-, hload, hjob⟩
  rcases hbar with hbar | hbar
  · obtain ⟨k, hk, hid⟩ := Option.any_eq_true _ _ |>.mp hjob
    exact hbar k hk (eq_of_beq hid)
  · rw [show loaded (tetRecv s r.link kJob.shp) = loaded s from rfl, hbar] at hload
    exact Bool.false_ne_true hload

/-! ## The certificates of other devices (R572) -/

section
variable {s : State} {r : Req} (signer : BitVec 24) (cert : Bytes) (bind : BitVec 128) (chains : Bool) (h : Admits s r kJob)
include h

theorem runs_peerCert (hbind : bindOk s signer cert bind = true) (hchains : chains = true)
    (hroom : (s.sec.peers.filter fun p => p.1 != signer).length < 8) : Runs (.peerCert r signer cert bind chains) s fun t =>
      Answered s t r kJob 0 [] ∧ t = { s with
        sec := { s.sec with peers := (s.sec.peers.filter fun p => p.1 != signer) ++ [(signer, cert)] }
        tet := { s.tet with link := t.tet.link } } := by
  have hmay : (bindOk s signer cert bind && chains && decide ((s.sec.peers.filter fun p => p.1 != signer).length < 8)) = true := by
    simp [hbind, hchains, hroom]
  have hserve : peerCert s r signer cert bind chains = _ := (request_admitted h _).trans (if_pos hmay)
  exact runs_respond (k := kJob) (congrArg Host.Outcome.next hserve) rfl fun link hans => ⟨hans, rfl⟩

theorem runs_peerCert_refused (hbar : bindOk s signer cert bind = false ∨ chains = false ∨
      8 ≤ (s.sec.peers.filter fun p => p.1 != signer).length) : Runs (.peerCert r signer cert bind chains) s fun t =>
        SecRefused s t r kJob 0x0A0E0008 (natLE 4 0x13) := by
  have hmay : ¬ (bindOk s signer cert bind && chains && decide ((s.sec.peers.filter fun p => p.1 != signer).length < 8)) = true := by
    rcases hbar with hbar | hbar | hbar
    · simp [hbar]
    · simp [hbar]
    · simp [Nat.not_lt.mpr hbar]
  have hserve : peerCert s r signer cert bind chains = refuseReq (tetRecv s r.link false) r kJob 0x0A0E0008 (d4 0x13) :=
    (request_admitted h _).trans (if_neg hmay)
  exact runs_secRefused (k := kJob) (b := 7) (congrArg Host.Outcome.next hserve) (released_of_serving (admits_serving h rfl)) rfl fun _ => rfl

end

/-- Settles O51: the clauses are the rules for each message of the job's keys. -/
theorem jobKeys : Obligations.JobKeys := by
  unfold Obligations.JobKeys
  refine ⟨fun s r jobId h => ⟨runs_jobEphemeral jobId h, runs_jobEphemeral_refused jobId h, fun node wrapped tag ew er => ?_,
    runs_jobDrop h, runs_jobDrop_refused h, fun signer cert bind chains => ?_⟩, unwrap_gcmSeal, fun s => ⟨_, rfl, rfl⟩⟩
  · exact ⟨fun e heph hid hjob hdebug => ⟨fun m => runs_jobKey h heph hid hjob hdebug, runs_jobKey_notUnwrapped h heph hid hjob hdebug⟩,
      runs_jobKey_refused h⟩
  · exact ⟨runs_peerCert signer cert bind chains h, runs_peerCert_refused signer cert bind chains h⟩

/-! ## Firmware (R566, R567) -/

theorem idleSlot_lt (s : State) (slot : Fin 2) : idleSlot s slot.val < 4 := by
  have hslot := slot.isLt
  unfold idleSlot b2n
  split <;> omega

section
variable {s : State} {r : Req} {slot : Fin 2} (h : Admits s r kFw)
include h

/-- R567: FW_DATA stages its bytes in the slot that does not run. -/
theorem runs_fwData {off : BitVec 32} {b : Bytes} (hlen : b.length ≤ 4080) : Runs (.fwData r slot off b) s fun t => Answered s t r kFw 0 [] ∧
    (∃ m, (vget t.sec.fw (idleSlot s slot.val) {}) = { image := some m, svn := none } ∧
      (∀ i, i < b.length → sget? m (off.toNat + i) = b[i]?)) ∧
    (∀ j, j ≠ idleSlot s slot.val → vget t.sec.fw j {} = vget s.sec.fw j {}) ∧
    t = { s with sec := { s.sec with fw := t.sec.fw }, tet := { s.tet with link := t.tet.link } } := by
  have hok : fwDataOk b = true := decide_eq_true ⟨Nat.zero_le _, hlen⟩
  have hserve : exec (.fwData r slot off b) s = .next (done (setFwSlot (tetRecv s r.link true) (idleSlot s slot.val)
      { image := some (putRun ((vget s.sec.fw (idleSlot s slot.val) {}).image.getD []) off.toNat b), svn := none }) r kFw) :=
    congrArg Host.Outcome.next ((if_pos hok).trans (request_admitted h _))
  refine runs_respond (k := kFw) hserve rfl fun _ hans => ⟨hans, ⟨_, vget_vset_same _ (idleSlot_lt s slot) _ _, (sget?_putRun _ _ _).1⟩,
    fun j hj => vget_vset_other _ hj _ _, rfl⟩

/-- The state in which FW_COMMIT has verified what is staged in a kind's idle slot. -/
def verified (s : State) (r : Req) (kind : Nat) (svn : Option Word) : State :=
  setFwSlot (tetRecv s r.link true) (idleSlot s kind) { vget s.sec.fw (idleSlot s kind) {} with svn := svn }

/-- What FW_COMMIT of a staged image is served with. -/
theorem fwCommit_staged (hstaged : (vget s.sec.fw (idleSlot s slot.val) {}).image ≠ none) (svn : Option Word) : fwCommit s r slot.val svn =
    if svn.any (fun v => decide (vget s.sec.svn slot.val 0 ≤ v)) = true then
      done (setSec (verified s r slot.val svn) { (verified s r slot.val svn).sec with
        fwSel := vset s.sec.fwSel slot.val (!vget s.sec.fwRun slot.val false) }) r kFw
    else respondCode (raise (verified s r slot.val svn) 0x0A0E0004 .event (d4 slot.val)) r true kFw.type 0x0A0E0004 := by
  have hslot : vget (verified s r slot.val svn).sec.fw (idleSlot s slot.val) {} =
      { vget s.sec.fw (idleSlot s slot.val) {} with svn := svn } := vget_vset_same _ (idleSlot_lt s slot) _ _
  have hok : fwOk (verified s r slot.val svn) slot.val (!vget s.sec.fwRun slot.val false) =
      svn.any (fun v => decide (vget s.sec.svn slot.val 0 ≤ v)) := congrArg (fun x : FwSlot => x.svn.any _) hslot
  rw [fwCommit, request_admitted h, ← hok]
  simp only
  rw [if_pos (Option.isSome_iff_ne_none.mpr (by exact hstaged))]
  rfl

/-- R566, R567: an image that verifies, with an SVN not below the counter, is selected. -/
theorem runs_fwCommit (hstaged : (vget s.sec.fw (idleSlot s slot.val) {}).image ≠ none) {v : Word} (hsvn : vget s.sec.svn slot.val 0 ≤ v) :
    Runs (.fwCommit r slot (some v)) s fun t => Answered s t r kFw 0 [] ∧
      vget t.sec.fwSel slot.val false = !vget s.sec.fwRun slot.val false ∧ t.sec.fwRun = s.sec.fwRun ∧ t.sec.svn = s.sec.svn := by
  have hserve := (fwCommit_staged h hstaged (some v)).trans (if_pos (decide_eq_true hsvn))
  exact runs_respond (k := kFw) (congrArg Host.Outcome.next hserve) rfl fun _ hans => ⟨hans, vget_vset_same _ slot.isLt _ _, rfl, rfl⟩

/-- R567: any other is refused. -/
theorem runs_fwCommit_refused (hd : s.die ≠ .off) (hstaged : (vget s.sec.fw (idleSlot s slot.val) {}).image ≠ none) {svn : Option Word}
    (hsvn : svn = none ∨ ∃ v, svn = some v ∧ v < vget s.sec.svn slot.val 0) : Runs (.fwCommit r slot svn) s fun t =>
      Answered s t r kFw 1 (natLE 4 0x0A0E0004) ∧ OnItsWay t 0x0A0E0004 .event (natLE 4 slot.val) s.sys.drill ∧
      t.sec.fwSel = s.sec.fwSel ∧ t.sec.fwRun = s.sec.fwRun := by
  have hlow : ¬ svn.any (fun v => decide (vget s.sec.svn slot.val 0 ≤ v)) = true := by
    rcases hsvn with rfl | ⟨v, rfl, hlow⟩
    · exact Bool.false_ne_true
    · exact fun hok => absurd (of_decide_eq_true hok) (BitVec.not_le.mpr hlow)
  have hraise := raise_onlySec (s := verified s r slot.val svn) (code := 0x0A0E0004) (b := 3) hd rfl (fun _ => rfl) .event (d4 slot.val)
  have hserve := ((fwCommit_staged h hstaged svn).trans (if_neg hlow)).trans (congrArg (respondCode · r true kFw.type 0x0A0E0004) hraise)
  exact runs_respond (k := kFw) (congrArg Host.Outcome.next hserve) rfl fun _ hans =>
    ⟨hans, List.mem_append_right _ (List.mem_singleton.mpr rfl), rfl, rfl⟩

end

/-! ## The debug unlock (R575) -/

/-- R575: a pending unlock takes place once no job runs. -/
theorem runs_debugUnlock {s : State} (hpending : s.sec.debugPending = true) (hrun : s.sys.st ≠ .running) (harm : s.sys.st ≠ .armed)
    (hfault : s.sys.st ≠ .faulted) (hdrain : s.sys.st ≠ .draining) : Runs .debugUnlock s fun t =>
      t.sec.debug = true ∧ t.sec.debugPending = false ∧ t.sec.job = none ∧ t.mem.hbm = [] ∧ t.mem.check = [] ∧ t.str.image = none ∧
      t.sec.owner = s.sec.owner ∧ t.sys = s.sys := by
  have hunlock : debugUnlock s = setSec (clearHbm (discardProgram (destroyJobKey s)))
      { (discardProgram (destroyJobKey s)).sec with debug := true, debugPending := false } :=
    if_pos (by simp [hpending, hrun, harm, hfault, hdrain])
  obtain ⟨ld, result, detail, event, link, held, period, serial, tech, inflight, hfail, -⟩ :=
    failLoad_eq { dropLeadKeys s with sec := { s.sec with job := none, peers := [] } }
  have hdestroy : destroyJobKey s = _ := hfail
  refine ⟨_, congrArg Host.Outcome.next hunlock, ?_⟩
  rw [hdestroy]
  exact ⟨rfl, rfl, rfl, rfl, rfl, rfl, rfl, rfl⟩

theorem debugUnlock_waits {s : State} (h : s.sys.st = .running ∨ s.sys.st = .armed ∨ s.sys.st = .faulted ∨ s.sys.st = .draining) :
    exec .debugUnlock s = .next s := by
  refine congrArg Host.Outcome.next (if_neg ?_)
  rcases h with h | h | h | h <;> simp [h]

/-- Settles O52: the clauses are the rules for FW_DATA, FW_COMMIT and the debug unlock. -/
theorem firmwareAndDebug : Obligations.FirmwareAndDebug := by
  unfold Obligations.FirmwareAndDebug
  refine ⟨fun s r slot h hd => ⟨fun off b => runs_fwData h, fun svn hstaged => ⟨fun v hv hsvn => ?_, runs_fwCommit_refused h hd hstaged⟩⟩,
    fun s hpending => ⟨runs_debugUnlock hpending, debugUnlock_waits⟩⟩
  subst hv
  exact runs_fwCommit h hstaged hsvn

end Sys2Proof.Machine
end

section
/-!
What the Tether's link layer changes: frames that are sent, sent again, and moved to the other link (R396, R397, R400, R405, R427, R558).
-/
namespace Sys2Proof.Machine

/-! ## What such a step leaves -/

/-- Between s and t only the Tether changed. -/
def OnlyTet (s t : State) : Prop := t = { s with tet := t.tet }

theorem OnlyTet.refl (s : State) : OnlyTet s s := rfl

theorem OnlyTet.trans {s t u : State} (h : OnlyTet s t) (h' : OnlyTet t u) : OnlyTet s u := by
  unfold OnlyTet at h' ⊢
  rw [h] at h'
  exact h'

theorem onlyTet_foldl {α : Type} {f : State → α → State} (hf : ∀ s x, OnlyTet s (f s x)) (xs : List α) (s : State) :
    OnlyTet s (xs.foldl f s) := by
  induction xs generalizing s with
  | nil => exact .refl s
  | cons x xs ih => exact (hf s x).trans (ih (f s x))

/-- Between s and t only the Tether, SYS and its copy at the Shepherd, and the Kennel changed. -/
def OnlyLinkLayer (s t : State) : Prop :=
  t = { s with tet := t.tet, knl := t.knl, sys := t.sys, shp := { s.shp with replace := t.shp.replace } }

theorem OnlyLinkLayer.trans {s t u : State} (h : OnlyLinkLayer s t) (h' : OnlyLinkLayer t u) : OnlyLinkLayer s u := by
  unfold OnlyLinkLayer at h' ⊢
  rw [h] at h'
  exact h'

theorem OnlyTet.linkLayer {s t : State} (h : OnlyTet s t) : OnlyLinkLayer s t := by
  unfold OnlyTet at h
  unfold OnlyLinkLayer
  rw [h]

theorem OnlyLinkLayer.workKept {s t : State} (h : OnlyLinkLayer s t) : WorkKept s t := by
  rw [h]
  exact ⟨rfl, rfl, rfl, rfl, rfl, rfl, rfl, rfl, rfl⟩

theorem OnlyLinkLayer.die {s t : State} (h : OnlyLinkLayer s t) : t.die = s.die := by rw [h]

/-! ## Sessions that gain frames -/

/-- Between s and t every link kept its state, every session that is open on a link that is up may have gained frames, sent after those
that it had, and no other session changed. -/
structure SentMore (s t : State) : Prop where
  links : ∀ l, (linkAt t l).up = (linkAt s l).up ∧ (linkAt t l).lost = (linkAt s l).lost
  sessions : ∀ l p, ∃ q fs, sess t l p = { sess s l p with seq := q, sent := (sess s l p).sent ++ fs }
  closed : ∀ l p, ¬((linkAt s l).up = true ∧ (sess s l p).isOpen = true) → sess t l p = sess s l p

theorem SentMore.of_link {s t : State} (h : t.tet.link = s.tet.link) : SentMore s t where
  links l := by rw [linkAt_congr h]; exact ⟨rfl, rfl⟩
  sessions l p := ⟨(sess s l p).seq, [], by rw [sess_congr h, List.append_nil]⟩
  closed l p _ := sess_congr h l p

theorem SentMore.refl (s : State) : SentMore s s := .of_link rfl

theorem SentMore.isOpen {s t : State} (h : SentMore s t) (l : Nat) (p : Bool) : (sess t l p).isOpen = (sess s l p).isOpen := by
  obtain ⟨q, fs, hsess⟩ := h.sessions l p
  rw [hsess]

theorem SentMore.bulk {s t : State} (h : SentMore s t) (l : Nat) (p : Bool) : (sess t l p).bulk = (sess s l p).bulk := by
  obtain ⟨q, fs, hsess⟩ := h.sessions l p
  rw [hsess]

theorem SentMore.mem_sent {s t : State} (h : SentMore s t) {l : Nat} {p : Bool} {f : BitVec 64 × TBody} (hf : f ∈ (sess s l p).sent) :
    f ∈ (sess t l p).sent := by
  obtain ⟨q, fs, hsess⟩ := h.sessions l p
  rw [hsess]
  exact List.mem_append_left _ hf

theorem SentMore.trans {s t u : State} (h : SentMore s t) (h' : SentMore t u) : SentMore s u where
  links l := ⟨(h'.links l).1.trans (h.links l).1, (h'.links l).2.trans (h.links l).2⟩
  sessions l p := by
    obtain ⟨q, fs, hsess⟩ := h.sessions l p
    obtain ⟨q', fs', hsess'⟩ := h'.sessions l p
    exact ⟨q', fs ++ fs', by rw [hsess', hsess, List.append_assoc]⟩
  closed l p hclosed := by
    refine (h'.closed l p ?_).trans (h.closed l p hclosed)
    rwa [(h.links l).1, h.isOpen l p]

theorem up_setSess (s : State) (l : Fin 2) (p : Bool) (x : Sess) (l' : Nat) :
    (linkAt (setSess s l p x) l').up = (linkAt s l').up ∧ (linkAt (setSess s l p x) l').lost = (linkAt s l').lost := by
  unfold setSess
  by_cases hl : l' = l.val
  · subst hl
    rw [linkAt_setLink_same]
    cases p <;> exact ⟨rfl, rfl⟩
  · rw [linkAt_setLink_other s hl]
    exact ⟨rfl, rfl⟩

theorem up_addRetry (s : State) (l : Fin 2) (n l' : Nat) :
    (linkAt (addRetry s l n) l').up = (linkAt s l').up ∧ (linkAt (addRetry s l n) l').lost = (linkAt s l').lost := by
  unfold addRetry
  by_cases hl : l' = l.val
  · subst hl
    rw [linkAt_setLink_same]
    exact ⟨rfl, rfl⟩
  · rw [linkAt_setLink_other s hl]
    exact ⟨rfl, rfl⟩

/-- A frame that is sent stands in its session behind those sent before. -/
theorem sess_tetSend_same (s : State) (l : Fin 2) (p : Bool) (b : TBody) : sess (tetSend s l p b) l p =
    { sess s l p with seq := (sess s l p).seq + 1, sent := (sess s l p).sent ++ [((sess s l p).seq, b)] } := sess_setSess_same s l p _

theorem sentMore_tetSend {s : State} {l : Fin 2} {p : Bool} (h : (linkAt s l).up = true ∧ (sess s l p).isOpen = true) (b : TBody) :
    SentMore s (tetSend s l p b) where
  links l' := up_setSess s l p _ l'
  sessions l' p' := by
    by_cases hsame : l' = l.val ∧ p' = p
    · obtain ⟨rfl, rfl⟩ := hsame
      exact ⟨_, _, sess_tetSend_same s l p' b⟩
    · refine ⟨(sess s l' p').seq, [], ?_⟩
      rw [tetSend, sess_setSess_other s (by tauto), List.append_nil]
  closed l' p' hclosed := by
    refine sess_setSess_other s ?_ _
    by_contra hsame
    obtain ⟨rfl, rfl⟩ : l' = l.val ∧ p' = p := by tauto
    exact hclosed h

theorem sentMore_addRetry (s : State) (l : Fin 2) (n : Nat) : SentMore s (addRetry s l n) where
  links l' := up_addRetry s l n l'
  sessions l' p := ⟨(sess s l' p).seq, [], by rw [sess_addRetry, List.append_nil]⟩
  closed l' p _ := sess_addRetry s l n l' p

/-! ## Notifications -/

/-- The link that notifications go out on is up, its compute-die session open. -/
theorem dieLink_open {s : State} {l : Nat} (h : dieLink s = some l) : (linkAt s l).up = true ∧ (sess s l false).isOpen = true := by
  obtain ⟨hup, hopen⟩ := Bool.and_eq_true_iff.mp (List.find?_some (p := fun l => (linkAt s l).up && (linkAt s l).die.isOpen) h)
  exact ⟨hup, hopen⟩

/-- A notification is one frame of an open session, or waits. -/
theorem notify_link (s : State) (reason : Reason) (code : Nat) : (notify s reason code).tet.link = s.tet.link ∨
    ∃ (l : Fin 2) (b : TBody), ((linkAt s l).up = true ∧ (sess s l false).isOpen = true) ∧
      (notify s reason code).tet.link = (tetSend s l false b).tet.link := by
  obtain ⟨period, serial, hseq⟩ := takeSnapSeq_eq s
  simp only [notify, snapshot, hseq]
  split
  case h_1 l hl => exact Or.inr ⟨⟨l, dieLink_lt hl⟩, _, dieLink_open hl, rfl⟩
  case h_2 => exact Or.inl rfl

theorem sentMore_notify (s : State) (reason : Reason) (code : Nat) : SentMore s (notify s reason code) := by
  rcases notify_link s reason code with h | ⟨l, b, hopen, h⟩
  · exact .of_link h
  · exact (sentMore_tetSend hopen b).trans (.of_link h)

theorem retry_notify (s : State) (reason : Reason) (code l : Nat) : (linkAt (notify s reason code) l).retry = (linkAt s l).retry := by
  rcases notify_link s reason code with h | ⟨l', b, -, h⟩
  · rw [linkAt_congr h]
  · rw [linkAt_congr h]
    exact retry_setSess s l' false _ l

theorem sentMore_sysChange (s : State) (st : DevState) (degraded drill replace : Bool) : SentMore s (sysChange s st degraded drill replace) := by
  unfold sysChange
  split
  · exact .refl s
  · refine SentMore.trans (SentMore.of_link ?_) (sentMore_notify _ _ _)
    rfl

theorem retry_sysChange (s : State) (st : DevState) (degraded drill replace : Bool) (l : Nat) :
    (linkAt (sysChange s st degraded drill replace) l).retry = (linkAt s l).retry := by
  unfold sysChange
  split
  · rfl
  · exact retry_notify _ _ _ l

/-- The frame of a notification that was held. -/
def heldBody (h : Reason × Word × Bytes) : TBody := .notify h.1 h.2.1 h.2.2

/-- The held notifications are frames of the session on which they go out (R405). -/
theorem sendHeld_eq {s : State} {l : Nat} (h : dieLink s = some l) : sendHeld s =
    s.tet.held.foldl (fun s h => tetSend s l false (heldBody h)) { s with tet := { s.tet with held := [] } } := by
  unfold sendHeld
  rw [h]
  rfl

theorem onlyTet_sendHeld (s : State) : OnlyTet s (sendHeld s) := by
  match h : dieLink s with
  | some l =>
    have htaken : OnlyTet s { s with tet := { s.tet with held := [] } } := rfl
    rw [sendHeld_eq h]
    exact htaken.trans (onlyTet_foldl (f := fun s h => tetSend s l false (heldBody h)) (fun _ _ => rfl) _ _)
  | none =>
    unfold sendHeld
    rw [h]
    exact .refl s

theorem sentMore_sends {α : Type} (body : α → TBody) {l : Fin 2} {p : Bool} (xs : List α) {s : State}
    (h : (linkAt s l).up = true ∧ (sess s l p).isOpen = true) : SentMore s (xs.foldl (fun s x => tetSend s l p (body x)) s) := by
  induction xs generalizing s with
  | nil => exact .refl s
  | cons x xs ih =>
    have hsend := sentMore_tetSend h (body x)
    exact hsend.trans (ih ⟨(hsend.links l).1.trans h.1, (hsend.isOpen l p).trans h.2⟩)

theorem sentMore_sendHeld (s : State) : SentMore s (sendHeld s) := by
  match h : dieLink s with
  | some l =>
    have htaken : SentMore s { s with tet := { s.tet with held := [] } } := .of_link rfl
    rw [sendHeld_eq h]
    exact htaken.trans (sentMore_sends heldBody (l := ⟨l, dieLink_lt h⟩) _ (dieLink_open h))
  | none =>
    unfold sendHeld
    rw [h]
    exact .refl s

/-- While a compute-die session is open on a link that is up, no notification waits. -/
theorem held_sendHeld {s : State} {l : Fin 2} (h : (linkAt s l).up = true ∧ (sess s l false).isOpen = true) : (sendHeld s).tet.held = [] := by
  have hkept : ∀ (l : Nat) (hs : List (Reason × Word × Bytes)) (u : State),
      (hs.foldl (fun s h => tetSend s l false (heldBody h)) u).tet.held = u.tet.held := by
    intro l hs u
    induction hs generalizing u with
    | nil => rfl
    | cons h hs ih => exact ih _
  match hl : dieLink s with
  | some l' =>
    rw [sendHeld_eq hl]
    exact hkept l' _ _
  | none =>
    have hnone := List.find?_eq_none.mp hl l.val (List.mem_range.mpr l.isLt)
    exact absurd (Bool.and_eq_true_iff.mpr h) hnone

/-! ## Frames that move to another link -/

theorem satAdd32_zero (a : Word) : satAdd32 a 0 = a := by
  refine BitVec.eq_of_toNat_eq ?_
  have ha := a.isLt
  rw [satAdd32_toNat]
  omega

theorem satAdd32_satAdd32 (a : Word) (n m : Nat) : satAdd32 (satAdd32 a n) m = satAdd32 a (n + m) := by
  refine BitVec.eq_of_toNat_eq ?_
  rw [satAdd32_toNat, satAdd32_toNat, satAdd32_toNat]
  omega

theorem moveFrame_open {s : State} {l : Nat} {p : Bool} (h : (linkAt s l).up = true ∧ (sess s l p).isOpen = true) (b : TBody) :
    moveFrame s l p b = addRetry (tetSend s l p b) l 1 := if_pos (Bool.and_eq_true_iff.mpr h)

theorem moveFrame_closed {s : State} {l : Nat} {p : Bool} (h : ¬((linkAt s l).up = true ∧ (sess s l p).isOpen = true)) (b : TBody) :
    ∃ held, moveFrame s l p b = { s with tet := { s.tet with held := held } } := by
  have hwait : moveFrame s l p b = match (motive := TBody → State) b with
    | .notify r c sn => { s with tet := { s.tet with held := s.tet.held.filter (fun h => h.1 != r) ++ [(r, c, sn)] } }
    | _ => s := if_neg (mt Bool.and_eq_true_iff.mp h)
  rw [hwait]
  split
  · exact ⟨_, rfl⟩
  · exact ⟨s.tet.held, rfl⟩

theorem onlyTet_moveFrame (s : State) (l : Nat) (p : Bool) (b : TBody) : OnlyTet s (moveFrame s l p b) := by
  by_cases h : (linkAt s l).up = true ∧ (sess s l p).isOpen = true
  · rw [moveFrame_open h]
    rfl
  · obtain ⟨held, hmove⟩ := moveFrame_closed h b
    rw [hmove]
    rfl

theorem sentMore_moveFrame (s : State) (l : Fin 2) (p : Bool) (b : TBody) : SentMore s (moveFrame s l p b) := by
  by_cases h : (linkAt s l).up = true ∧ (sess s l p).isOpen = true
  · rw [moveFrame_open h]
    exact (sentMore_tetSend h b).trans (sentMore_addRetry _ l 1)
  · obtain ⟨held, hmove⟩ := moveFrame_closed h b
    rw [hmove]
    exact .of_link rfl

theorem retry_moveFrame_other (s : State) {l : Fin 2} {l' : Nat} (hl : l' ≠ l.val) (p : Bool) (b : TBody) :
    (linkAt (moveFrame s l p b) l').retry = (linkAt s l').retry := by
  by_cases h : (linkAt s l).up = true ∧ (sess s l p).isOpen = true
  · rw [moveFrame_open h, addRetry, linkAt_setLink_other _ hl, tetSend, retry_setSess]
  · obtain ⟨held, hmove⟩ := moveFrame_closed h b
    rw [hmove]
    rfl

theorem moveFrames_cons (s : State) (l : Nat) (p : Bool) (f : BitVec 64 × TBody) (fs : List (BitVec 64 × TBody)) :
    moveFrames s l p (f :: fs) = moveFrames (moveFrame s l p f.2) l p fs := rfl

theorem onlyTet_moveFrames (s : State) (l : Nat) (p : Bool) (fs : List (BitVec 64 × TBody)) : OnlyTet s (moveFrames s l p fs) := by
  induction fs generalizing s with
  | nil => exact OnlyTet.refl s
  | cons f fs ih =>
    rw [moveFrames_cons]
    exact (onlyTet_moveFrame s l p f.2).trans (ih _)

theorem sentMore_moveFrames (s : State) (l : Fin 2) (p : Bool) (fs : List (BitVec 64 × TBody)) : SentMore s (moveFrames s l p fs) := by
  induction fs generalizing s with
  | nil => exact SentMore.refl s
  | cons f fs ih =>
    rw [moveFrames_cons]
    exact (sentMore_moveFrame s l p f.2).trans (ih _)

theorem retry_moveFrames_other (s : State) {l : Fin 2} {l' : Nat} (hl : l' ≠ l.val) (p : Bool) (fs : List (BitVec 64 × TBody)) :
    (linkAt (moveFrames s l p fs) l').retry = (linkAt s l').retry := by
  induction fs generalizing s with
  | nil => rfl
  | cons f fs ih =>
    rw [moveFrames_cons]
    exact (ih _).trans (retry_moveFrame_other s hl p f.2)

/-- R397, R427: on an open session every frame that moves is sent, and counted. -/
theorem moveFrames_open {l : Fin 2} {p : Bool} (fs : List (BitVec 64 × TBody)) {s : State}
    (h : (linkAt s l).up = true ∧ (sess s l p).isOpen = true) :
    (∀ f ∈ fs, ∃ q, (q, f.2) ∈ (sess (moveFrames s l p fs) l p).sent) ∧
      (linkAt (moveFrames s l p fs) l).retry = satAdd32 (linkAt s l).retry fs.length := by
  induction fs generalizing s with
  | nil => exact ⟨nofun, (satAdd32_zero _).symm⟩
  | cons f fs ih =>
    have hmore := sentMore_moveFrame s l p f.2
    obtain ⟨hsent, hretry⟩ := ih (s := moveFrame s l p f.2) ⟨(hmore.links l).1.trans h.1, (hmore.isOpen l p).trans h.2⟩
    have hone : (linkAt (moveFrame s l p f.2) l).retry = satAdd32 (linkAt s l).retry 1 := by
      rw [moveFrame_open h, addRetry, linkAt_setLink_same, tetSend, retry_setSess]
    refine ⟨fun g hg => ?_, ?_⟩
    · rcases List.mem_cons.mp hg with rfl | hg
      · refine ⟨(sess s l p).seq, (sentMore_moveFrames (moveFrame s l p g.2) l p fs).mem_sent ?_⟩
        rw [moveFrame_open h, sess_addRetry, sess_tetSend_same]
        exact List.mem_append_right _ (List.mem_singleton.mpr rfl)
      · exact hsent g hg
    · rw [List.length_cons, Nat.add_comm]
      exact hretry.trans (by rw [hone, satAdd32_satAdd32])

/-- What moving bulk frames makes of the links: the queue of the session to which they move. -/
theorem tetBulks_spec (l : Fin 2) (bs : List TBody) (s : State) : let t := bs.foldl (fun s b => tetBulk s l b) s
    OnlyTet s t ∧ sess t l false = { sess s l false with bulk := (sess s l false).bulk ++ bs } ∧
    (∀ l' p, l' ≠ l.val ∨ p ≠ false → sess t l' p = sess s l' p) ∧
    ∀ l', (linkAt t l').up = (linkAt s l').up ∧ (linkAt t l').lost = (linkAt s l').lost ∧ (linkAt t l').retry = (linkAt s l').retry := by
  induction bs generalizing s with
  | nil => exact ⟨.refl s, by rw [List.append_nil]; rfl, fun _ _ _ => rfl, fun _ => ⟨rfl, rfl, rfl⟩⟩
  | cons b bs ih =>
    obtain ⟨honly, hbulk, hothers, hlinks⟩ := ih (tetBulk s l b)
    have hone : OnlyTet s (tetBulk s l b) := rfl
    refine ⟨hone.trans honly, hbulk.trans ?_, fun l' p hne => (hothers l' p hne).trans (sess_setSess_other s hne _), fun l' => ?_⟩
    · rw [tetBulk, sess_setSess_same, List.append_assoc]
      rfl
    · obtain ⟨hup, hlost, hretry⟩ := hlinks l'
      exact ⟨hup.trans (up_setSess s l false _ l').1, hlost.trans (up_setSess s l false _ l').2, hretry.trans (retry_setSess s l false _ l')⟩

theorem moveBulk_open {s : State} {l : Nat} (h : (linkAt s l).up = true ∧ (sess s l false).isOpen = true) (bs : List TBody) :
    moveBulk s l bs = bs.foldl (fun s b => tetBulk s l b) s := if_pos (Bool.and_eq_true_iff.mpr h)

theorem moveBulk_closed {s : State} {l : Nat} (h : ¬((linkAt s l).up = true ∧ (sess s l false).isOpen = true)) (bs : List TBody) :
    moveBulk s l bs = s := if_neg (mt Bool.and_eq_true_iff.mp h)

theorem onlyTet_moveBulk (s : State) (l : Fin 2) (bs : List TBody) : OnlyTet s (moveBulk s l bs) := by
  by_cases h : (linkAt s l).up = true ∧ (sess s l false).isOpen = true
  · rw [moveBulk_open h]
    exact (tetBulks_spec l bs s).1
  · rw [moveBulk_closed h]
    exact .refl s

/-- Bulk frames that move leave all but the queue to which they move. -/
theorem moveBulk_keeps (s : State) (l : Fin 2) (bs : List TBody) : let t := moveBulk s l bs
    (∀ l' p, ∃ b, sess t l' p = { sess s l' p with bulk := b }) ∧ (∀ l' p, l' ≠ l.val ∨ p ≠ false → sess t l' p = sess s l' p) ∧
    ∀ l', (linkAt t l').up = (linkAt s l').up ∧ (linkAt t l').lost = (linkAt s l').lost ∧ (linkAt t l').retry = (linkAt s l').retry := by
  by_cases h : (linkAt s l).up = true ∧ (sess s l false).isOpen = true
  · obtain ⟨-, hsame, hothers, hlinks⟩ := tetBulks_spec l bs s
    rw [moveBulk_open h]
    refine ⟨fun l' p => ?_, hothers, hlinks⟩
    by_cases hne : l' = l.val ∧ p = false
    · obtain ⟨rfl, rfl⟩ := hne
      exact ⟨_, hsame⟩
    · exact ⟨_, hothers l' p (by tauto)⟩
  · rw [moveBulk_closed h]
    exact ⟨fun _ _ => ⟨_, rfl⟩, fun _ _ _ => rfl, fun _ => ⟨rfl, rfl, rfl⟩⟩

end Sys2Proof.Machine
end

section
/-!
Acknowledgement, retry and loss of the Tether links (R395 to R398, R400, R420, R425, R427, R461, R558): O54.
-/
namespace Sys2Proof.Machine

/-! ## The device is degraded (R461) -/

/-- A code of the Tether's EVENT changes that register and the codes on their way. -/
theorem raise_onlyTet {s : State} (h : s.die ≠ .off) {code b : Nat} (hb : eventBit code = some (.tet, b))
    (hc : ∀ t, countCode t code = t) (eff : Effect) (detail : Bytes) :
    raise s code eff detail = { s with
      tet := { s.tet with event := orBit s.tet.event b }
      knl := { s.knl with inflight := s.knl.inflight ++ [⟨BitVec.ofNat 32 code, eff, detail, s.sys.drill⟩] } } :=
  raise_released h hb hc eff detail

/-- What the loss of a link makes of the device's state. -/
structure TetherDegraded (s t : State) : Prop where
  rest : OnlyLinkLayer s t
  sent : SentMore s t
  retry : ∀ l, (linkAt t l).retry = (linkAt s l).retry
  inflight : ∀ r ∈ s.knl.inflight, r ∈ t.knl.inflight
  degraded : t.sys.degraded = true
  replace : t.sys.replace = true
  st : t.sys.st = s.sys.st
  drill : t.sys.drill = s.sys.drill

theorem tetherDegraded_degradeTether {s : State} (hd : s.die ≠ .off) : TetherDegraded s (degradeTether s) := by
  obtain ⟨seq, repl, link, held, period, serial, hchange⟩ := sysChange_eq { s with knl := { s.knl with repTether := true } } s.sys.st true
    s.sys.drill true
  have hsent := sentMore_sysChange { s with knl := { s.knl with repTether := true } } s.sys.st true s.sys.drill true
  have hretry := retry_sysChange { s with knl := { s.knl with repTether := true } } s.sys.st true s.sys.drill true
  rw [hchange] at hsent hretry
  have hmarked : SentMore s { s with knl := { s.knl with repTether := true } } := .of_link rfl
  have hmore : ∀ t : State, t.tet.link = link → SentMore s t := fun t ht => hmarked.trans (hsent.trans (.of_link ht))
  have hcount : ∀ t : State, t.tet.link = link → ∀ l, (linkAt t l).retry = (linkAt s l).retry := fun t ht l =>
    (congrArg TLink.retry (linkAt_congr (by exact ht) l)).trans (hretry l)
  unfold degradeTether degrade
  simp only [hchange]
  split
  · rw [raise_onlyKnl (by exact hd) (b := 9) rfl fun _ => rfl]
    exact ⟨rfl, hmore _ rfl, hcount _ rfl, fun r hr => List.mem_append_left _ hr, rfl, rfl, rfl, rfl⟩
  · exact ⟨rfl, hmore _ rfl, hcount _ rfl, fun r hr => hr, rfl, rfl, rfl, rfl⟩

/-! ## The loss of a link (R397, R558) -/

/-- The other link of the Tether. -/
def otherLink (l : Fin 2) : Fin 2 := ⟨1 - l.val, by omega⟩

theorem otherLink_ne (l : Fin 2) : (otherLink l).val ≠ l.val := by
  show 1 - l.val ≠ l.val
  omega

/-- A link that is lost, before anything moves: its code is on its way. -/
def linkDropped (s : State) (l : Nat) : State :=
  raise (setLink s l { retry := (linkAt s l).retry, lost := true }) 0x080B0001 .absorbed (d4 l)

/-- What was not acknowledged on it has moved. -/
def framesMoved (s : State) (l : Nat) : State :=
  moveFrames (moveFrames (linkDropped s l) (1 - l) false (sess s l false).sent) (1 - l) true (sess s l true).sent

theorem linkDropped_eq {s : State} (hd : s.die ≠ .off) (l : Nat) :
    linkDropped s l = { setLink s l { retry := (linkAt s l).retry, lost := true } with
      tet := { (setLink s l { retry := (linkAt s l).retry, lost := true }).tet with event := orBit s.tet.event 1 }
      knl := { s.knl with inflight := s.knl.inflight ++ [⟨0x080B0001, .absorbed, d4 l, s.sys.drill⟩] } } :=
  raise_onlyTet (by exact hd) (b := 1) rfl (fun _ => rfl) ..

theorem linkAt_linkDropped_same {s : State} (hd : s.die ≠ .off) (l : Fin 2) :
    linkAt (linkDropped s l) l = { retry := (linkAt s l).retry, lost := true } := by
  rw [linkDropped_eq hd]
  exact linkAt_setLink_same s l _

theorem linkAt_linkDropped_other {s : State} (hd : s.die ≠ .off) {l l' : Nat} (h : l' ≠ l) : linkAt (linkDropped s l) l' = linkAt s l' := by
  rw [linkDropped_eq hd]
  exact linkAt_setLink_other s h _

theorem onlyTet_framesMoved (s : State) (l : Fin 2) :
    OnlyTet (linkDropped s l) (moveBulk (framesMoved s l) (otherLink l) (sess s l false).bulk) :=
  ((onlyTet_moveFrames _ _ _ _).trans (onlyTet_moveFrames _ _ _ _)).trans (onlyTet_moveBulk (framesMoved s l) (otherLink l) _)

theorem sentMore_framesMoved (s : State) (l : Fin 2) : SentMore (linkDropped s l) (framesMoved s l) :=
  (sentMore_moveFrames _ (otherLink l) false _).trans (sentMore_moveFrames _ (otherLink l) true _)

theorem retry_framesMoved (s : State) (l : Fin 2) : (linkAt (framesMoved s l) l).retry = (linkAt (linkDropped s l) l).retry := by
  have hne : l.val ≠ (otherLink l).val := (otherLink_ne l).symm
  have hmoved : framesMoved s l = moveFrames (moveFrames (linkDropped s l) (otherLink l) false (sess s l false).sent) (otherLink l) true
    (sess s l true).sent := rfl
  rw [hmoved, retry_moveFrames_other _ hne, retry_moveFrames_other _ hne]

section
variable {s : State} (hd : s.die ≠ .off) (l : Fin 2)
include hd

/-- A link is lost: what was not acknowledged moves, and the device is degraded. -/
theorem loseTether_degrades : TetherDegraded (moveBulk (framesMoved s l) (otherLink l) (sess s l false).bulk) (loseTether s l) := by
  have hdie : (moveBulk (framesMoved s l) (otherLink l) (sess s l false).bulk).die ≠ .off := by
    rw [onlyTet_framesMoved s l, linkDropped_eq hd]
    exact hd
  have hlose : loseTether s l = degradeTether (moveBulk (framesMoved s l) (otherLink l) (sess s l false).bulk) := if_neg hdie
  rw [hlose]
  exact tetherDegraded_degradeTether hdie

theorem loseTether_linkLayer : OnlyLinkLayer s (loseTether s l) := by
  have hdropped : OnlyLinkLayer s (linkDropped s l) := by rw [linkDropped_eq hd]; rfl
  exact (hdropped.trans (onlyTet_framesMoved s l).linkLayer).trans (loseTether_degrades hd l).rest

/-- Its code is on its way, behind those that were. -/
theorem loseTether_reports : OnItsWay (loseTether s l) 0x080B0001 .absorbed (d4 l) s.sys.drill ∧
    (∀ r ∈ s.knl.inflight, r ∈ (loseTether s l).knl.inflight) ∧ (loseTether s l).sys.degraded = true ∧
    (loseTether s l).sys.replace = true ∧ (loseTether s l).sys.st = s.sys.st := by
  obtain ⟨-, -, -, hinflight, hdegraded, hreplace, hst, -⟩ := loseTether_degrades hd l
  rw [onlyTet_framesMoved s l, linkDropped_eq hd] at hinflight hst
  exact ⟨hinflight _ (List.mem_append_right _ (List.mem_singleton.mpr rfl)), fun r hr => hinflight r (List.mem_append_left _ hr),
    hdegraded, hreplace, hst⟩

/-- R397: the lost link is down, and its sessions are gone with what they held. -/
theorem loseTether_link : let t := loseTether s l
    (linkAt t l).up = false ∧ (linkAt t l).lost = true ∧ (linkAt t l).retry = (linkAt s l).retry ∧ ∀ p, sess t l p = {} := by
  obtain ⟨-, hsent, hretry, -, -, -, -, -⟩ := loseTether_degrades hd l
  obtain ⟨-, hothers, hlinks⟩ := moveBulk_keeps (framesMoved s l) (otherLink l) (sess s l false).bulk
  obtain ⟨hup, hlost, hcount⟩ := hlinks l
  have hdropped := linkAt_linkDropped_same hd l
  obtain ⟨hmovedUp, hmovedLost⟩ := (sentMore_framesMoved s l).links l
  have hdown : (linkAt (framesMoved s l) l).up = false := by rw [hmovedUp, hdropped]
  refine ⟨(hsent.links l).1.trans (hup.trans hdown), (hsent.links l).2.trans (hlost.trans ?_), (hretry l).trans (hcount.trans ?_), fun p => ?_⟩
  · rw [hmovedLost, hdropped]
  · rw [retry_framesMoved, hdropped]
  · have hend : sess (linkDropped s l) l p = {} := by
      cases p <;> rw [sess, hdropped] <;> rfl
    refine (hsent.closed l p ?_).trans ((hothers l p (Or.inl (otherLink_ne l).symm)).trans ?_)
    · rw [hup, hdown]
      exact fun h => Bool.false_ne_true h.1
    · refine ((sentMore_framesMoved s l).closed l p ?_).trans hend
      rw [hdropped]
      exact fun h => Bool.false_ne_true h.1

theorem sess_linkDropped_other (p : Bool) : sess (linkDropped s l) (otherLink l) p = sess s (otherLink l) p := by
  rw [sess, linkAt_linkDropped_other hd (otherLink_ne l)]
  rfl

/-- R397, R427: on an open session of the other link every frame goes out again, and each is counted. -/
theorem loseTether_sends (hup : (linkAt s (otherLink l)).up = true) : let t := loseTether s l
    (∀ p, (sess s (otherLink l) p).isOpen = true → ∀ f ∈ (sess s l p).sent, ∃ q, (q, f.2) ∈ (sess t (otherLink l) p).sent) ∧
    ((sess s (otherLink l) false).isOpen = true → (sess s (otherLink l) true).isOpen = true → (linkAt t (otherLink l)).retry =
      satAdd32 (linkAt s (otherLink l)).retry ((sess s l false).sent.length + (sess s l true).sent.length)) ∧
    ((sess s (otherLink l) false).isOpen = true →
      (sess t (otherLink l) false).bulk = (sess s (otherLink l) false).bulk ++ (sess s l false).bulk) := by
  obtain ⟨-, hsent, hretry, -, -, -, -, -⟩ := loseTether_degrades hd l
  obtain ⟨hbulk, -, hlinks⟩ := moveBulk_keeps (framesMoved s l) (otherLink l) (sess s l false).bulk
  have hlink := linkAt_linkDropped_other hd (otherLink_ne l)
  have hmay : ∀ p, (sess s (otherLink l) p).isOpen = true →
      (linkAt (linkDropped s l) (otherLink l)).up = true ∧ (sess (linkDropped s l) (otherLink l) p).isOpen = true := fun p hopen =>
    ⟨(congrArg TLink.up hlink).trans hup, by rw [sess_linkDropped_other hd l p]; exact hopen⟩
  have hmore := sentMore_moveFrames (linkDropped s l) (otherLink l) false (sess s l false).sent
  have hmore' := sentMore_moveFrames (moveFrames (linkDropped s l) (otherLink l) false (sess s l false).sent) (otherLink l) true
    (sess s l true).sent
  have hmay' : (sess s (otherLink l) true).isOpen = true → _ := fun hopen =>
    And.intro ((hmore.links (otherLink l)).1.trans (hmay true hopen).1) ((hmore.isOpen (otherLink l) true).trans (hmay true hopen).2)
  have hkeep : ∀ p f, f ∈ (sess (framesMoved s l) (otherLink l) p).sent → f ∈ (sess (loseTether s l) (otherLink l) p).sent := by
    intro p f hf
    obtain ⟨b, hsess⟩ := hbulk (otherLink l) p
    exact hsent.mem_sent (by rw [hsess]; exact hf)
  refine ⟨fun p hopen f hf => ?_, fun hopen hopen' => ?_, fun hopen => ?_⟩
  · cases p
    · obtain ⟨q, hq⟩ := (moveFrames_open _ (hmay false hopen)).1 f hf
      exact ⟨q, hkeep false _ (hmore'.mem_sent hq)⟩
    · obtain ⟨q, hq⟩ := (moveFrames_open _ (hmay' hopen)).1 f hf
      exact ⟨q, hkeep true _ hq⟩
  · refine (hretry _).trans ((hlinks _).2.2.trans ((moveFrames_open _ (hmay' hopen')).2.trans ?_))
    rw [(moveFrames_open _ (hmay false hopen)).2, satAdd32_satAdd32, hlink]
  · have hmoved := sentMore_framesMoved s l
    have hopened : (linkAt (framesMoved s l) (otherLink l)).up = true ∧ (sess (framesMoved s l) (otherLink l) false).isOpen = true :=
      ⟨(hmoved.links _).1.trans (hmay false hopen).1, (hmoved.isOpen _ false).trans (hmay false hopen).2⟩
    rw [hsent.bulk, moveBulk_open hopened, (tetBulks_spec (otherLink l) _ _).2.1, hmoved.bulk, sess_linkDropped_other hd l false]

end

/-! ## Frames that fail, NAKs and timeouts (R396, R397) -/

/-- The third failure of a frame loses the link, and an earlier one does not. -/
theorem lostAtThird {s u : State} (hlayer : OnlyLinkLayer s u) (hd : u.die ≠ .off) (hdrill : u.sys.drill = s.sys.drill) (l : Fin 2) (n : Nat)
    {r : Raised} (hr : r ∈ u.knl.inflight) : let t := if n < 3 then u else loseTether u l
    r ∈ t.knl.inflight ∧ WorkKept s t ∧ (n < 3 → t = u) ∧
      (3 ≤ n → (linkAt t l).up = false ∧ (linkAt t l).lost = true ∧ OnItsWay t 0x080B0001 .absorbed (natLE 4 l) s.sys.drill) := by
  by_cases hn : n < 3
  · rw [if_pos hn]
    exact ⟨hr, hlayer.workKept, fun _ => rfl, fun h => absurd hn (Nat.not_lt.mpr h)⟩
  · obtain ⟨hup, hlost, -, -⟩ := loseTether_link hd l
    obtain ⟨hway, hkept, -, -, -⟩ := loseTether_reports hd l
    rw [if_neg hn]
    exact ⟨hkept r hr, (hlayer.trans (loseTether_linkLayer hd l)).workKept, fun h => absurd h hn, fun _ => ⟨hup, hlost, hdrill ▸ hway⟩⟩

/-- The state in which a session sends again from a frame, each frame counted. -/
def resent (s : State) (l : Nat) (p : Bool) (seq : BitVec 64) : State :=
  addRetry (setSess s l p { sess s l p with resend := some seq }) l (framesFrom (sess s l p) seq).length

/-- What sending again from a frame makes of the state (R396, R427). -/
theorem resendFrom_eq {s : State} (hd : s.die ≠ .off) (l : Nat) (p : Bool) (seq : BitVec 64) :
    resendFrom s l p seq = { resent s l p seq with
      tet := { (resent s l p seq).tet with event := orBit s.tet.event 0 }
      knl := { s.knl with inflight := s.knl.inflight ++ [⟨0x080B0002, .count, [], s.sys.drill⟩] } } :=
  raise_onlyTet (s := resent s l p seq) (code := 0x080B0002) (b := 0) hd rfl (fun _ => rfl) .count []

theorem resendFrom_spec {s : State} (hd : s.die ≠ .off) (l : Fin 2) (p : Bool) (seq : BitVec 64) : let t := resendFrom s l p seq
    OnlyLinkLayer s t ∧ t.sys = s.sys ∧ OnItsWay t 0x080B0002 .count [] s.sys.drill ∧ sess t l p = { sess s l p with resend := some seq } ∧
      (linkAt t l).up = (linkAt s l).up ∧
      (linkAt t l).retry = satAdd32 (linkAt s l).retry (framesFrom (sess s l p) seq).length := by
  intro t
  have ht : t = _ := resendFrom_eq hd l p seq
  have hlink : t.tet.link = (resent s l p seq).tet.link := by rw [ht]
  refine ⟨by rw [ht]; rfl, by rw [ht]; rfl, ?_, ?_, ?_, ?_⟩
  · rw [ht]
    exact List.mem_append_right _ (List.mem_singleton.mpr rfl)
  · rw [sess_congr hlink, resent, sess_addRetry, sess_setSess_same]
  · rw [linkAt_congr hlink, resent, (up_addRetry _ l _ l).1, (up_setSess s l p _ l).1]
  · rw [linkAt_congr hlink, resent, addRetry, linkAt_setLink_same, retry_setSess]

/-- A failure counts one more. -/
theorem sget?_oneMore (m : SMap Nat) (seq : BitVec 64) : sget? (oneMore m seq) seq.toNat = some (sgetD m seq.toNat 0 + 1) :=
  sget?_sset_same ..

theorem sgetD_oneMore (m : SMap Nat) (seq : BitVec 64) : sgetD (oneMore m seq) seq.toNat 0 = sgetD m seq.toNat 0 + 1 := by
  rw [sgetD, sget?_oneMore]
  rfl

section
variable {s : State} {l : Fin 2} {p : Bool} {seq : BitVec 64} (hup : (linkAt s l).up = true)
include hup

section
variable (hd : s.die ≠ .off)
include hd

/-- R396, R397: a NAK sends again from its frame; the third of one frame loses the link. -/
theorem runs_tetherNak (hsent : ∃ f ∈ (sess s l p).sent, f.1 = seq) :
    let x := sess s l p
    let n := sgetD x.naks seq.toNat 0 + 1
    Runs (.tetherNak l p seq) s fun t => OnItsWay t 0x080B0002 .count [] s.sys.drill ∧ WorkKept s t ∧
      (n < 3 → (sess t l p).resend = some seq ∧ (sess t l p).sent = x.sent ∧ (linkAt t l).up = true ∧
        sget? (sess t l p).naks seq.toNat = some n ∧
        (linkAt t l).retry = satAdd32 (linkAt s l).retry (x.sent.filter fun f => decide (seq ≤ f.1)).length) ∧
      (3 ≤ n → (linkAt t l).up = false ∧ (linkAt t l).lost = true ∧ OnItsWay t 0x080B0001 .absorbed (natLE 4 l) s.sys.drill) := by
  intro x n
  have hwaits : x.sent.any (·.1 == seq) = true := by
    obtain ⟨f, hf, hseq⟩ := hsent
    exact List.any_eq_true.mpr ⟨f, hf, beq_iff_eq.mpr hseq⟩
  have hcounted := sess_setSess_same s l p { x with naks := oneMore x.naks seq }
  have hdie : (setSess s l p { x with naks := oneMore x.naks seq }).die ≠ .off := hd
  have hnak : tetherNak s l p seq = if n < 3 then resendFrom (setSess s l p { x with naks := oneMore x.naks seq }) l p seq
      else loseTether (resendFrom (setSess s l p { x with naks := oneMore x.naks seq }) l p seq) l := by
    rw [tetherNak, onTether, if_pos hup]
    simp only
    rw [if_pos hwaits, sgetD_oneMore]
  obtain ⟨hlayer', hsys, hway, hsess, hstays, hretry⟩ := resendFrom_spec hdie l p seq
  have hset : OnlyLinkLayer s (setSess s l p { x with naks := oneMore x.naks seq }) := rfl
  have hlayer := hset.trans hlayer'
  rw [hcounted] at hsess hretry
  rw [(up_setSess s l p _ l).1] at hstays
  rw [retry_setSess] at hretry
  obtain ⟨hway', hkept, hless, hthird⟩ := lostAtThird hlayer (by rw [hlayer.die]; exact hd) (by rw [hsys]; rfl) l n hway
  refine ⟨_, congrArg Host.Outcome.next hnak, hway', hkept, fun hn => ?_, hthird⟩
  rw [hless hn, hsess, hstays, hretry]
  exact ⟨rfl, rfl, hup, sget?_oneMore _ _, rfl⟩

/-- R396: a session that waits too long for an acknowledgement sends again from its oldest frame. -/
theorem runs_tetherAckTimeout {f : BitVec 64 × TBody} {rest : List (BitVec 64 × TBody)} (hsent : (sess s l p).sent = f :: rest) :
    Runs (.tetherAckTimeout l p) s fun t => (sess t l p).resend = some f.1 ∧ (sess t l p).sent = (sess s l p).sent ∧
      OnItsWay t 0x080B0002 .count [] s.sys.drill ∧ WorkKept s t := by
  have htimeout : tetherAckTimeout s l p = resendFrom s l p f.1 := by
    rw [tetherAckTimeout, onTether, if_pos hup, hsent]
  obtain ⟨hlayer, -, hway, hsess, -, -⟩ := resendFrom_spec hd l p f.1
  exact ⟨_, congrArg Host.Outcome.next htimeout, by rw [hsess], by rw [hsess], hway, hlayer.workKept⟩

/-- R396, R397: a frame that fails is NAKed and counted; its third failure loses the link. -/
theorem runs_tetherFrameReject (tagFailed : Bool) :
    let x := sess s l p
    let n := sgetD x.fails seq.toNat 0 + 1
    Runs (.tetherFrameReject l p seq tagFailed) s fun t =>
      OnItsWay t (if tagFailed = true then 0x0A0B0002 else 0x080B0002) .count [] s.sys.drill ∧ WorkKept s t ∧
      (n < 3 → (linkAt t l).up = true ∧ (linkAt t l).retry = satAdd32 (linkAt s l).retry 1 ∧
        sess t l p = { x with fails := (sess t l p).fails, nakSent := some seq } ∧ sget? (sess t l p).fails seq.toNat = some n) ∧
      (3 ≤ n → (linkAt t l).up = false ∧ (linkAt t l).lost = true ∧ OnItsWay t 0x080B0001 .absorbed (natLE 4 l) s.sys.drill) := by
  intro x n
  have hbit : eventBit (if tagFailed = true then 0x0A0B0002 else 0x080B0002) = some (.tet, 0) := by cases tagFailed <;> rfl
  have hcount : ∀ t, countCode t (if tagFailed = true then 0x0A0B0002 else 0x080B0002) = t := by cases tagFailed <;> exact fun _ => rfl
  have hraise := raise_onlyTet (s := addRetry (setSess s l p { x with fails := oneMore x.fails seq, nakSent := some seq }) l 1) hd hbit hcount
    .count []
  have hreject : tetherFrameReject s l p seq tagFailed = if n < 3 then
      raise (addRetry (setSess s l p { x with fails := oneMore x.fails seq, nakSent := some seq }) l 1)
        (if tagFailed = true then 0x0A0B0002 else 0x080B0002) .count
      else loseTether (raise (addRetry (setSess s l p { x with fails := oneMore x.fails seq, nakSent := some seq }) l 1)
        (if tagFailed = true then 0x0A0B0002 else 0x080B0002) .count) l := by
    rw [tetherFrameReject, onTether, if_pos hup]
    simp only
    rw [sgetD_oneMore]
  generalize hu : raise (addRetry (setSess s l p { x with fails := oneMore x.fails seq, nakSent := some seq }) l 1)
    (if tagFailed = true then 0x0A0B0002 else 0x080B0002) .count = u at hreject hraise
  have hlayer : OnlyLinkLayer s u := by rw [hraise]; rfl
  have hsys : u.sys = s.sys := by rw [hraise]; rfl
  have hlink : u.tet.link = (addRetry (setSess s l p { x with fails := oneMore x.fails seq, nakSent := some seq }) l 1).tet.link := by
    rw [hraise]
  have hway : OnItsWay u (if tagFailed = true then 0x0A0B0002 else 0x080B0002) .count [] s.sys.drill := by
    rw [hraise]
    exact List.mem_append_right _ (List.mem_singleton.mpr rfl)
  have hsess : sess u l p = { x with fails := oneMore x.fails seq, nakSent := some seq } :=
    (sess_congr hlink l p).trans ((sess_addRetry _ l _ l p).trans (sess_setSess_same s l p _))
  obtain ⟨hway', hkept, hless, hthird⟩ := lostAtThird hlayer (by rw [hlayer.die]; exact hd) (by rw [hsys]) l n hway
  refine ⟨_, congrArg Host.Outcome.next hreject, hway', hkept, fun hn => ?_, hthird⟩
  rw [hless hn, hsess, linkAt_congr hlink]
  refine ⟨?_, ?_, rfl, sget?_oneMore _ _⟩
  · rw [(up_addRetry _ l _ l).1, (up_setSess s l p _ l).1, hup]
  · rw [addRetry, linkAt_setLink_same, retry_setSess]

end

theorem tetherNak_unknown (hsent : ∀ f ∈ (sess s l p).sent, f.1 ≠ seq) : exec (.tetherNak l p seq) s = .next s := by
  have hnone : ¬ (sess s l p).sent.any (·.1 == seq) = true := by
    intro hany
    obtain ⟨f, hf, hseq⟩ := List.any_eq_true.mp hany
    exact hsent f hf (beq_iff_eq.mp hseq)
  exact congrArg Host.Outcome.next ((if_pos hup).trans (if_neg hnone))

/-- R396: an acknowledgement takes the frames up to its SEQ out of the session. -/
theorem runs_tetherAck : let x := sess s l p
    Runs (.tetherAck l p seq) s fun t => (sess t l p).sent = x.sent.filter (fun f => decide (seq < f.1)) ∧
      (∀ q, x.resend = some q → (sess t l p).resend = if ∃ f ∈ x.sent, seq < f.1 ∧ q ≤ f.1 then some q else none) ∧
      sess t l p = { x with sent := (sess t l p).sent, resend := (sess t l p).resend, naks := (sess t l p).naks } ∧
      (∀ l' p', (l' ≠ l.val ∨ p' ≠ p) → sess t l' p' = sess s l' p') ∧ t = { s with tet := { s.tet with link := t.tet.link } } := by
  intro x
  have hack : tetherAck s l p seq = setSess s l p { x with
      sent := x.sent.filter fun f => decide (seq < f.1)
      resend := x.resend.filter fun q => (x.sent.filter fun f => decide (seq < f.1)).any fun f => decide (q ≤ f.1)
      naks := x.naks.filter fun n => decide (seq.toNat < n.1) } := if_pos hup
  refine ⟨_, congrArg Host.Outcome.next hack, ?_, fun q hq => ?_, ?_, fun l' p' h => sess_setSess_other s h _, rfl⟩
  · rw [sess_setSess_same]
  · rw [sess_setSess_same, hq, Option.filter_some]
    refine if_congr ?_ rfl rfl
    simp [List.any_eq_true]
  · rw [sess_setSess_same]

end

/-! ## Frames of a wrong LENGTH (R396) -/

theorem pieceOk_long {b : Bytes} (h : 4064 < b.length) : pieceOk b = false := by
  simp [pieceOk, lenIn, h]

/-- R396: a frame of a LENGTH that its message does not allow fails as the next of its session. -/
theorem rejected_of_length {s : State} {l : Fin 2} {r : Req} (hr : r.link = l) (off shard page : BitVec 32) (off64 marker : BitVec 64)
    (position : BitVec 32) (kind : Fin 2) (b : Bytes) (last ok : Bool) :
    let rejected := fun shp => exec (.tetherFrameReject l shp (sess s l shp).rx false) s
    (b.length = 0 ∨ 4088 < b.length → exec (.loadData l off64 b) s = rejected false) ∧
    (4064 < b.length → exec (.restoreManifest r off last b ok) s = rejected false ∧
      exec (.restorePage l marker position shard page off b) s = rejected false) ∧
    (4080 < b.length → exec (.fwData r kind off b) s = rejected true) := by
  subst hr
  refine ⟨fun h => congrArg Host.Outcome.next (if_neg ?_), fun h => ⟨congrArg Host.Outcome.next (if_neg ?_),
    congrArg Host.Outcome.next (if_neg ?_)⟩, fun h => congrArg Host.Outcome.next (if_neg ?_)⟩
  · simp only [loadDataOk, lenIn, decide_eq_true_eq]
    omega
  · rw [pieceOk_long h]
    exact Bool.false_ne_true
  · rw [pieceOk_long h]
    exact Bool.false_ne_true
  · simp only [fwDataOk, lenIn, decide_eq_true_eq]
    omega

/-! ## Links that come up, and both lost (R395, R397, R398) -/

theorem tetherUp_eq {s : State} (hstandby : s.shp.standby = true) {l : Fin 2} (hdown : (linkAt s l).up = false) :
    let t := tetherUp s l
    linkAt t l = { linkAt s l with up := true } ∧ (∀ j, j ≠ l.val → linkAt t j = linkAt s j) ∧
      t = { s with tet := { s.tet with link := t.tet.link } } := by
  have hup : tetherUp s l = setLink s l { linkAt s l with up := true } := if_pos (by simp [hstandby, hdown])
  rw [hup]
  exact ⟨linkAt_setLink_same s l _, fun j hj => linkAt_setLink_other s hj _, rfl⟩

section
variable {s : State} (hd : s.die ≠ .off) (hstandby : s.shp.standby = true) (h0 : (linkAt s 0).up = false) (h1 : (linkAt s 1).up = false)
include hstandby h0 h1

/-- R398: what is done while both links stay lost. -/
theorem bothLinksLost_eq : bothLinksLost s = if s.sys.st = .running then raise s 0x080B0003 .jobEnding bothLinks
    else if s.sys.st = .armed then cancelRoundUp (raise s 0x080B0003 .event bothLinks) else raise s 0x080B0003 .event bothLinks :=
  if_neg (by simp [hstandby, h0, h1])

include hd

theorem runs_bothLinksLost_running (hst : s.sys.st = .running) : Runs .bothLinksLost s fun t =>
    OnItsWay t 0x080B0003 .jobEnding (natLE 4 0 ++ natLE 4 1) s.sys.drill ∧ t.sys = s.sys :=
  ⟨_, congrArg Host.Outcome.next ((bothLinksLost_eq hstandby h0 h1).trans (if_pos hst)), raise_onItsWay hd ..,
    by rw [raise_onlyTet hd (b := 2) rfl fun _ => rfl]⟩

theorem runs_bothLinksLost_armed (hst : s.sys.st = .armed) (hstay : s.knl.withdrawAtEnd = false) : Runs .bothLinksLost s fun t =>
    OnItsWay t 0x080B0003 .event (natLE 4 0 ++ natLE 4 1) s.sys.drill ∧ Disarmed t := by
  have hcancel := (bothLinksLost_eq hstandby h0 h1).trans ((if_neg (by rw [hst]; nofun)).trans (if_pos hst))
  have hway := raise_onItsWay hd 0x080B0003 .event bothLinks
  have hraise := raise_onlyTet hd (code := 0x080B0003) (b := 2) rfl (fun _ => rfl) .event bothLinks
  have hd' : (raise s 0x080B0003 .event bothLinks).die ≠ .off := by rw [hraise]; exact hd
  have hst' : (raise s 0x080B0003 .event bothLinks).sys.st = .armed := by rw [hraise]; exact hst
  have hstay' : (raise s 0x080B0003 .event bothLinks).knl.withdrawAtEnd = false := by rw [hraise]; exact hstay
  exact ⟨_, congrArg Host.Outcome.next hcancel, (channelsKept_cancelRoundUp hd' hst').onItsWay hway, cancelRoundUp_disarmed hd' hst' hstay'⟩

theorem runs_bothLinksLost_idle (hrun : s.sys.st ≠ .running) (harm : s.sys.st ≠ .armed) : Runs .bothLinksLost s fun t =>
    OnItsWay t 0x080B0003 .event (natLE 4 0 ++ natLE 4 1) s.sys.drill ∧ t.sys = s.sys :=
  ⟨_, congrArg Host.Outcome.next ((bothLinksLost_eq hstandby h0 h1).trans ((if_neg hrun).trans (if_neg harm))), raise_onItsWay hd ..,
    by rw [raise_onlyTet hd (b := 2) rfl fun _ => rfl]⟩

end

/-- R397: the loss of a link that is up. -/
theorem runs_tetherLinkLost {s : State} {l : Fin 2} (hd : s.die ≠ .off) (hup : (linkAt s l).up = true) :
    Runs (.tetherLinkLost l) s fun t => (linkAt t l).up = false ∧ (linkAt t l).lost = true ∧
      (∀ p, (sess t l p).isOpen = false ∧ (sess t l p).sent = [] ∧ (sess t l p).bulk = []) ∧ (linkAt t l).retry = (linkAt s l).retry ∧
      OnItsWay t 0x080B0001 .absorbed (natLE 4 l) s.sys.drill ∧ t.sys.degraded = true ∧ t.sys.replace = true ∧ t.sys.st = s.sys.st ∧
      (∀ p, (linkAt s (1 - l.val)).up = true → (sess s (1 - l.val) p).isOpen = true → ∀ f ∈ (sess s l p).sent,
        ∃ q, (q, f.2) ∈ (sess t (1 - l.val) p).sent) ∧
      ((linkAt s (1 - l.val)).up = true → (sess s (1 - l.val) false).isOpen = true → (sess s (1 - l.val) true).isOpen = true →
        (linkAt t (1 - l.val)).retry =
          satAdd32 (linkAt s (1 - l.val)).retry ((sess s l false).sent.length + (sess s l true).sent.length)) ∧
      ((linkAt s (1 - l.val)).up = true → (sess s (1 - l.val) false).isOpen = true →
        (sess t (1 - l.val) false).bulk = (sess s (1 - l.val) false).bulk ++ (sess s l false).bulk) ∧ WorkKept s t := by
  obtain ⟨hdown, hlost, hretry, hsess⟩ := loseTether_link hd l
  obtain ⟨hway, -, hdegraded, hreplace, hst⟩ := loseTether_reports hd l
  have hsends := loseTether_sends hd l
  refine ⟨_, congrArg Host.Outcome.next (if_pos hup), hdown, hlost, fun p => ?_, hretry, hway, hdegraded, hreplace, hst,
    fun p h => (hsends h).1 p, fun h => (hsends h).2.1, fun h => (hsends h).2.2, (loseTether_linkLayer hd l).workKept⟩
  rw [hsess p]
  exact ⟨rfl, rfl, rfl⟩

/-- Settles O54: the clauses are the rules for each happening of a Tether link. -/
theorem tetherLinkLayer : Obligations.TetherLinkLayer := by
  unfold Obligations.TetherLinkLayer
  refine ⟨fun s l p seq hd hup => ⟨runs_tetherAck hup, runs_tetherNak hup hd, tetherNak_unknown hup,
      fun f rest => runs_tetherAckTimeout hup hd, runs_tetherFrameReject hup hd,
      fun r off shard page off64 marker position kind b last ok hr => rejected_of_length hr off shard page off64 marker position kind b last ok⟩,
    fun s l hd hup => runs_tetherLinkLost hd hup, fun s l hstandby hdown => ⟨⟨_, rfl, tetherUp_eq hstandby hdown⟩, fun hlost => ?_, ?_⟩,
    fun s hd hstandby h0 h1 => ⟨runs_bothLinksLost_running hd hstandby h0 h1, runs_bothLinksLost_armed hd hstandby h0 h1,
      runs_bothLinksLost_idle hd hstandby h0 h1⟩⟩
  · exact ⟨_, congrArg Host.Outcome.next (if_pos hlost), tetherUp_eq hstandby hdown⟩
  · rfl

end Sys2Proof.Machine
end

section
/-!
Sessions, enrolment and attestation (R405, R556 to R559, R564, R565, R567): O50.
-/
namespace Sys2Proof.Machine

/-! ## The end of a session (R405, R558) -/

/-- The notifications of a session that were not acknowledged. -/
def unheard (x : Sess) : List (BitVec 64 × TBody) := x.sent.filter fun f => match f.2 with
  | .notify .. => true
  | _ => false

theorem endSession_eq (s : State) (l : Fin 2) (p : Bool) :
    endSession s l p = moveFrames (setSess s l p {}) (otherLink l) false (unheard (sess s l p)) := rfl

/-- A session that ends is gone; its link is up as before. -/
theorem endSession_spec (s : State) (l : Fin 2) (p : Bool) : let t := endSession s l p
    OnlyTet s t ∧ sess t l p = {} ∧ (linkAt t l).up = (linkAt s l).up := by
  have hended : OnlyTet s (setSess s l p {}) := rfl
  have hempty := sess_setSess_same s l p {}
  have hmore := sentMore_moveFrames (setSess s l p {}) (otherLink l) false (unheard (sess s l p))
  rw [endSession_eq]
  refine ⟨hended.trans (onlyTet_moveFrames _ _ _ _), (hmore.closed l p ?_).trans hempty, ?_⟩
  · rw [hempty]
    exact fun h => Bool.false_ne_true h.2
  · rw [(hmore.links l).1, (up_setSess s l p {} l).1]

/-- An accepted frame is counted in its session. -/
theorem sess_tetRecv_same (s : State) (l : Fin 2) (p : Bool) :
    sess (tetRecv s l p) l p = { sess s l p with rx := (sess s l p).rx + 1, nakSent := none } := sess_setSess_same s l p _

/-- A response that is sent in a session that has just been set. -/
theorem sess_done_setSess (u : State) (r : Req) (p : Bool) (x : Sess) (payload : Bytes) :
    sess (done (setSess u r.link p x) r (kHello p) payload) r.link p =
      { x with seq := x.seq + 1, sent := x.sent ++ [(x.seq, .response 0x89 0 r.id payload)] } := by
  have hsend := sess_tetSend_same (setSess u r.link p x) r.link p (.response 0x89 0 r.id payload)
  rw [sess_setSess_same] at hsend
  exact hsend

/-! ## HELLO (R557, R559) -/

theorem certOk_congr {s t : State} (h : t.sec.opcertMin = s.sec.opcertMin) (p : Bool) (cert : OpCert) : certOk t p cert = certOk s p cert := by
  simp only [certOk, h]

/-- The state in which a HELLO has ended the session that it would replace. -/
def sessionEnded (s : State) (r : Req) (p : Bool) : State := endSession (tetRecv s r.link p) r.link p

theorem sessionEnded_spec (s : State) (r : Req) (p : Bool) : OnlyTet s (sessionEnded s r p) ∧ sess (sessionEnded s r p) r.link p = {} := by
  obtain ⟨honly, hempty, -⟩ := endSession_spec (tetRecv s r.link p) r.link p
  have hrecv : OnlyTet s (tetRecv s r.link p) := rfl
  exact ⟨hrecv.trans honly, hempty⟩

/-- A request that is refused in a session that has ended leaves the link without one. -/
theorem sessionEnded_refused {s : State} {r : Req} {p : Bool} (hd : s.die ≠ .off) (detail : Bytes) :
    let t := refuseReq (sessionEnded s r p) r (kHello p) 0x0A0E0001 detail
    OnItsWay t 0x0A0E0001 .refusedTally detail s.sys.drill ∧ (sess t r.link p).isOpen = false ∧ (sess t r.link p).hs = none ∧
      t.sec.owner = s.sec.owner ∧ t.mem = s.mem := by
  obtain ⟨honly, hempty⟩ := sessionEnded_spec s r p
  have hraise := raise_onlySec (s := sessionEnded s r p) (code := 0x0A0E0001) (b := 0) (by rw [honly]; exact hd) rfl (fun _ => rfl)
    .refusedTally detail
  generalize hu : raise (sessionEnded s r p) 0x0A0E0001 .refusedTally detail = u at hraise
  have hsess : sess u r.link p = {} := (sess_congr (by rw [hraise]) r.link p).trans hempty
  intro t
  have ht : t = respond u r p 0x09 1 (natLE 4 0x0A0E0001) := congrArg (respondCode · r p 0x09 0x0A0E0001) hu
  have hkept : ∀ {α : Type} (f : State → α), f t = f (tetSend u r.link p (.response 0x89 1 r.id (natLE 4 0x0A0E0001))) := fun f => congrArg f ht
  refine ⟨?_, ?_, ?_, ?_, ?_⟩
  · rw [OnItsWay, ht]
    show _ ∈ u.knl.inflight
    rw [hraise, honly]
    exact List.mem_append_right _ (List.mem_singleton.mpr rfl)
  · rw [hkept (sess · r.link p), sess_tetSend_same, hsess]
  · rw [hkept (sess · r.link p), sess_tetSend_same, hsess]
  · rw [hkept (·.sec.owner)]
    show u.sec.owner = _
    rw [hraise, honly]
  · rw [hkept (·.mem)]
    show u.mem = _
    rw [hraise, honly]

/-- The device's ephemeral key and its nonce in a HELLO_REPLY, of two draws. -/
def replyKeys (n m : Nat) : Bytes := natLE 64 (Config.draw n).toNat ++ natLE 16 (Config.draw m).toNat

/-- The HELLO_REPLY to a HELLO. -/
def helloReply (hello : Bytes) (n m : Nat) : Bytes := [0x02] ++ replyKeys n m ++ Config.made "sign" (sha256 (hello ++ replyKeys n m)) 64

theorem replyKeys_length (n m : Nat) : (replyKeys n m).length = 80 := by simp [replyKeys, natLE_length]

theorem made_length (what : String) (ins : List (BitVec 8)) (len : Nat) : (Config.made what ins len).length = len := by simp [Config.made]

theorem helloReply_length (hello : Bytes) (n m : Nat) : (helloReply hello n m).length = 145 := by
  simp [helloReply, replyKeys_length, made_length]

theorem take_helloReply (hello : Bytes) (n m : Nat) : (helloReply hello n m).take 81 = [0x02] ++ replyKeys n m :=
  List.take_left' (by simp [replyKeys_length])

/-- The handshake that a HELLO begins. -/
def helloHandshake (cert : OpCert) (key : BitVec 512) (hello : Bytes) (n m : Nat) : Handshake :=
  { serial := cert.serial, opKey := cert.key, peer := key, draw := n, hash := sha256v (hello ++ helloReply hello n m) }

section
variable {s : State} {r : Req} {p : Bool} (h : Admits s r (kHello p))
include h

/-- R559: a HELLO whose certificate fails. -/
theorem runs_hello_refused (hd : s.die ≠ .off) {cert : OpCert} (hcert : certOk s p cert = false) (key : BitVec 512) (nonce : BitVec 128) :
    Runs (.hello r p cert key nonce) s fun t =>
      OnItsWay t 0x0A0E0001 .refusedTally (natLE 4 cert.serial.toNat) s.sys.drill ∧ (sess t r.link p).isOpen = false ∧
      (sess t r.link p).hs = none ∧ t.sec.owner = s.sec.owner ∧ t.mem = s.mem := by
  have hbad : (!certOk (sessionEnded s r p) p cert) = true := by
    rw [certOk_congr (s := s) (by rw [(sessionEnded_spec s r p).1]), hcert]
    rfl
  have hserve : hello s r p cert key nonce = refuseReq (sessionEnded s r p) r (kHello p) 0x0A0E0001 (d4 cert.serial.toNat) :=
    (request_admitted h _).trans (if_pos hbad)
  exact ⟨_, congrArg Host.Outcome.next hserve, sessionEnded_refused hd _⟩

/-- R557: a HELLO with an accepted certificate is answered with the device's ephemeral key and nonce. -/
theorem runs_hello {cert : OpCert} (hcert : certOk s p cert = true) (key : BitVec 512) (nonce : BitVec 128) :
    Runs (.hello r p cert key nonce) s fun t => ∃ h b, (sess t r.link p).hs = some h ∧
      (sess t r.link p).isOpen = false ∧ h.serial = cert.serial ∧ h.opKey = cert.key ∧ h.peer = key ∧ h.draw = s.free ∧
      Answers t r (kHello p) 0 b ∧ b.length = 145 ∧
      b.take 81 = [0x02] ++ natLE 64 (Config.draw s.free).toNat ++ natLE 16 (Config.draw (s.free + 1)).toNat ∧
      t = { s with tet := t.tet, free := s.free + 2 } := by
  obtain ⟨honly, hempty⟩ := sessionEnded_spec s r p
  have hgood : (!certOk (sessionEnded s r p) p cert) = false := by
    rw [certOk_congr (s := s) (by rw [honly]), hcert]
    rfl
  have hfree : (sessionEnded s r p).free = s.free := by rw [honly]
  have hserve : hello s r p cert key nonce =
      done (setSess { sessionEnded s r p with free := (sessionEnded s r p).free + 2 } r.link p { sess (sessionEnded s r p) r.link p with
        hs := some (helloHandshake cert key (helloBytes p cert key nonce) (sessionEnded s r p).free ((sessionEnded s r p).free + 1)) })
        r (kHello p) (helloReply (helloBytes p cert key nonce) (sessionEnded s r p).free ((sessionEnded s r p).free + 1)) :=
    (request_admitted h _).trans (if_neg (Bool.eq_false_iff.mp hgood))
  rw [hfree, hempty] at hserve
  generalize hu : sessionEnded s r p = u at hserve honly
  refine ⟨_, congrArg Host.Outcome.next hserve, helloHandshake cert key (helloBytes p cert key nonce) s.free (s.free + 1),
    helloReply (helloBytes p cert key nonce) s.free (s.free + 1), ?_, ?_, rfl, rfl, rfl, rfl, answers_respond .., helloReply_length ..,
    (take_helloReply ..).trans (List.append_assoc ..).symm, ?_⟩
  · rw [sess_done_setSess]
  · rw [sess_done_setSess]
  · rw [honly]
    rfl

end

/-! ## FINISH (R557, R558, R567) -/

/-- The open session that FINISH makes of a handshake. -/
def opened (h : Handshake) (p : Bool) : Sess := { isOpen := true, serial := h.serial, key := sessionKey h p }

/-- The state in which FINISH was accepted, with the counters that it leaves. -/
def svnRaised (s : State) (r : Req) (p : Bool) (svn : Vector Word 3) : State := { tetRecv s r.link p with sec := { s.sec with svn := svn } }

theorem onlyTet_done (s : State) (r : Req) (k : ReqKind) : OnlyTet s (done s r k) := rfl

/-- A session that opens toward the Shepherd raises the counter of its firmware (R567). -/
theorem openSession_eq (s : State) (r : Req) (p : Bool) (hs : Handshake) : ∃ svn,
    openSession (tetRecv s r.link p) r.link p hs = setSess (svnRaised s r p svn) r.link p (opened hs p) := by
  by_cases hserving : (p && s.shp.serving) = true
  · exact ⟨(raiseSvn s 0).sec.svn, by rw [openSession]; exact if_pos hserving⟩
  · exact ⟨s.sec.svn, by rw [openSession]; exact if_neg hserving⟩

theorem onlyTet_opened (s : State) (r : Req) (p : Bool) (x : Sess) : OnlyTet s (done (setSess s r.link p x) r (kHello p)) :=
  have hset : OnlyTet s (setSess s r.link p x) := rfl
  hset.trans (onlyTet_done (setSess s r.link p x) r (kHello p))

section
variable {s : State} {r : Req} {p : Bool} (h : Admits s r (kHello p)) {hs : Handshake} (hhs : (sess s r.link p).hs = some hs)
include h hhs

theorem finish_served (ok : Bool) : finish s r p ok = if ok = true then
      if p = true then done (openSession (tetRecv s r.link p) r.link p hs) r (kHello p)
      else sendHeld (done (openSession (tetRecv s r.link p) r.link p hs) r (kHello p))
    else refuseReq (sessionEnded s r p) r (kHello p) 0x0A0E0001 (d4 hs.serial.toNat) := by
  have hkept : (sess (tetRecv s r.link (kHello p).shp) r.link p).hs = some hs := by
    rw [show (kHello p).shp = p from rfl, sess_tetRecv_same]
    exact hhs
  rw [finish, request_admitted h]
  simp only [hkept]
  rfl

/-- R557: FINISH whose signature fails. -/
theorem runs_finish_refused (hd : s.die ≠ .off) : Runs (.finish r p false) s fun t =>
    (sess t r.link p).isOpen = false ∧ (sess t r.link p).hs = none ∧
    OnItsWay t 0x0A0E0001 .refusedTally (natLE 4 hs.serial.toNat) s.sys.drill := by
  obtain ⟨hway, hopen, hnone, -, -⟩ := sessionEnded_refused (s := s) (r := r) (p := p) hd (d4 hs.serial.toNat)
  exact ⟨_, congrArg Host.Outcome.next ((finish_served h hhs false).trans (if_neg Bool.false_ne_true)), hopen, hnone, hway⟩

/-- R557, R405: FINISH with a good signature opens the session, and a compute-die session takes the held notifications. -/
theorem runs_finish : Runs (.finish r p true) s fun t =>
    (sess t r.link p).isOpen = true ∧ (sess t r.link p).serial = hs.serial ∧ (sess t r.link p).key = sessionKey hs p ∧
    (sess t r.link p).hs = none ∧ Answers t r (kHello p) 0 [] ∧ (p = false → t.tet.held = []) ∧
    t = { s with tet := t.tet, sec := { s.sec with svn := t.sec.svn } } := by
  obtain ⟨svn, hopen⟩ := openSession_eq s r p hs
  have hserve := (finish_served h hhs true).trans (if_pos rfl)
  rw [hopen] at hserve
  have hsess := sess_done_setSess (svnRaised s r p svn) r p (opened hs p) []
  have hans := answers_respond (setSess (svnRaised s r p svn) r.link p (opened hs p)) r (kHello p) 0 []
  have honly := onlyTet_opened (svnRaised s r p svn) r p (opened hs p)
  have hup : (linkAt (done (setSess (svnRaised s r p svn) r.link p (opened hs p)) r (kHello p)) r.link).up = true := by
    obtain ⟨hlink, -⟩ := h
    exact (up_setSess _ r.link p _ r.link).1.trans ((up_setSess _ r.link p _ r.link).1.trans ((up_setSess s r.link p _ r.link).1.trans hlink))
  generalize hu : done (setSess (svnRaised s r p svn) r.link p (opened hs p)) r (kHello p) = u at hserve hsess honly hup
  have hans' : Answers u r (kHello p) 0 [] := hu ▸ hans
  have hrest : u = { s with tet := u.tet, sec := { s.sec with svn := u.sec.svn } } := by
    rw [honly]
    rfl
  cases p with
  | true =>
    refine ⟨u, congrArg Host.Outcome.next (hserve.trans (if_pos rfl)), ?_, ?_, ?_, ?_, hans', nofun, hrest⟩ <;> rw [hsess] <;> rfl
  | false =>
    have hmore := sentMore_sendHeld u
    obtain ⟨q, fs, hsent⟩ := hmore.sessions r.link false
    obtain ⟨q', hq'⟩ := hans'
    have hheld := onlyTet_sendHeld u
    refine ⟨sendHeld u, congrArg Host.Outcome.next (hserve.trans (if_neg Bool.false_ne_true)), ?_, ?_, ?_, ?_, ⟨q', hmore.mem_sent hq'⟩,
      fun _ => held_sendHeld (l := r.link) ⟨hup, by rw [hsess]; rfl⟩, ?_⟩
    · rw [hsent, hsess]; rfl
    · rw [hsent, hsess]; rfl
    · rw [hsent, hsess]; rfl
    · rw [hsent, hsess]; rfl
    · rw [hheld, hrest]

end

/-- R557: FINISH without a handshake. -/
theorem runs_finish_none {s : State} {r : Req} {p : Bool} (h : Admits s r (kHello p)) (hd : s.die ≠ .off) (ok : Bool)
    (hhs : (sess s r.link p).hs = none) : Runs (.finish r p ok) s fun t => SecRefused s t r (kHello p) 0x0A0E0001 [] := by
  have hkept : (sess (tetRecv s r.link (kHello p).shp) r.link p).hs = none := by
    rw [show (kHello p).shp = p from rfl, sess_tetRecv_same]
    exact hhs
  have hserve : finish s r p ok = refuseReq (tetRecv s r.link (kHello p).shp) r (kHello p) 0x0A0E0001 := by
    rw [finish, request_admitted h]
    simp only [hkept]
  exact runs_secRefused (b := 0) (congrArg Host.Outcome.next hserve) hd rfl fun _ => rfl

/-! ## Enrolment, certificates and attestation (R556, R564, R565) -/

section
variable {s : State} {r : Req} (h : Admits s r kIdentity)
include h

theorem runs_enroll (key : BitVec 512) (howner : s.sec.owner = none) : Runs (.enroll r key true) s fun t => Answered s t r kIdentity 0 [] ∧
    t = { s with sec := { s.sec with owner := some key }, tet := { s.tet with link := t.tet.link } } := by
  have hserve : enroll s r key true = _ := (request_admitted h _).trans (if_pos (by
    rw [show (tetRecv s r.link kIdentity.shp).sec.owner = none from howner]
    rfl))
  exact runs_respond (k := kIdentity) (congrArg Host.Outcome.next hserve) rfl fun _ hans => ⟨hans, rfl⟩

theorem runs_enroll_refused (hd : s.die ≠ .off) (key : BitVec 512) (ok : Bool) (hbar : s.sec.owner ≠ none ∨ ok = false) :
    Runs (.enroll r key ok) s fun t => SecRefused s t r kIdentity 0x0A0E0007 [] := by
  have hserve : enroll s r key ok = refuseReq (tetRecv s r.link kIdentity.shp) r kIdentity 0x0A0E0007 := by
    refine (request_admitted h _).trans (if_neg ?_)
    rw [show (tetRecv s r.link kIdentity.shp).sec.owner = s.sec.owner from rfl]
    rcases hbar with hbar | hbar
    · simp [hbar]
    · simp [hbar]
  exact runs_secRefused (b := 6) (congrArg Host.Outcome.next hserve) hd rfl fun _ => rfl

theorem runs_certRead : Runs (.certRead r) s fun t => Answered s t r kIdentity 0 ([0x41] ++ Config.certificates) ∧
    t = { s with tet := { s.tet with link := t.tet.link } } :=
  runs_respond (k := kIdentity) (congrArg Host.Outcome.next (request_admitted h _)) rfl fun _ hans => ⟨hans, rfl⟩

end

theorem fwDigest_length (s : State) (kind : Nat) : (fwDigest s kind).length = 32 := made_length ..

theorem userCalDigest_length (s : State) : (userCalDigest s).length = 32 := by
  unfold userCalDigest
  split
  · exact sha256_length _
  · exact zeros_length 32

theorem ownerDigest_length (s : State) : (ownerDigest s).length = 32 := by
  unfold ownerDigest
  cases s.sec.owner
  · exact zeros_length 32
  · exact sha256_length _

/-- An attestation report has 256 bytes before its signature (R565), and begins with its magic, the device and the nonce. -/
theorem attestBody_length (s : State) (nonce : BitVec 128) : (attestBody s nonce).length = 256 := by
  have hrom : (if s.shp.rom = true then zeros 32 else fwDigest s 0).length = 32 := by
    split
    · exact zeros_length 32
    · exact fwDigest_length s 0
  have hdie : (if s.die = .off then zeros 32 else fwDigest s 1).length = 32 := by
    split
    · exact zeros_length 32
    · exact fwDigest_length s 1
  have hsvn : (s.sec.svn.toList.flatMap fun v => natLE 4 v.toNat).length = 12 := by
    simp [List.length_flatMap, natLE_length]
  simp only [attestBody, List.length_append, natLE_length, hrom, hdie, made_length, userCalDigest_length, ownerDigest_length, configDigest,
    sha256_length, hsvn, zeros_length]

theorem attestBody_head (s : State) (nonce : BitVec 128) : ∃ rest,
    attestBody s nonce = natLE 4 0x50394154 ++ natLE 4 (ownId s) ++ natLE 16 nonce.toNat ++ rest :=
  ⟨_, by simp only [attestBody, List.append_assoc]; rfl⟩

theorem runs_attest {s : State} {r : Req} (h : Admits s r kIdentity) (nonce : BitVec 128) : Runs (.attest r nonce) s fun t =>
    ∃ b, Answered s t r kIdentity 0 b ∧ b.length = 321 ∧
      b.take 25 = [0x20] ++ natLE 4 0x50394154 ++ natLE 4 (ownId s) ++ natLE 16 nonce.toNat ∧
      t = { s with tet := { s.tet with link := t.tet.link } } := by
  have hserve : attest s r nonce = done (tetRecv s r.link true) r kIdentity ([0x20] ++ attestBody (tetRecv s r.link true) nonce ++
    Config.made "sign" (sha256 (attestBody (tetRecv s r.link true) nonce)) 64) := request_admitted h _
  refine runs_respond (k := kIdentity) (congrArg Host.Outcome.next hserve) rfl fun _ hans => ⟨_, hans, ?_, ?_, rfl⟩
  · simp [attestBody_length, made_length]
  · obtain ⟨rest, hbody⟩ := attestBody_head (tetRecv s r.link true) nonce
    have hhead : ([0x20] ++ natLE 4 0x50394154 ++ natLE 4 (ownId s) ++ natLE 16 nonce.toNat : Bytes).length = 25 := by
      simp [natLE_length]
    rw [hbody, ← List.append_assoc, ← List.append_assoc, ← List.append_assoc, List.append_assoc _ rest]
    exact List.take_left' hhead

/-- Settles O50: the clauses are the rules for HELLO, FINISH, ENROLL, CERT_READ and ATTEST. -/
theorem sessionsAndIdentity : Obligations.SessionsAndIdentity := by
  unfold Obligations.SessionsAndIdentity
  refine ⟨fun s r p h hd => ⟨fun cert key nonce => ⟨fun hcert => runs_hello h hcert key nonce, fun hcert => runs_hello_refused h hd hcert key nonce⟩,
      fun hs => runs_finish h, fun hs hhs => runs_finish_refused h hhs hd, fun ok => runs_finish_none h hd ok⟩,
    fun s r h hd => ⟨runs_enroll h, runs_enroll_refused h hd, runs_certRead h, runs_attest h⟩⟩

end Sys2Proof.Machine
end

section
/-!
Copy-before-write: what a page of the generation being copied holds (R481): O29.
-/
namespace Sys2Proof.Machine

/-! ## Pages and their addresses (R284, R488) -/

/-- The page that holds an address begins at or before it, less than a page away. -/
theorem genPageAddr_of_genPage {shards : List Shard} : ∀ {k y q : Nat}, genPage shards k y = some q →
    k ≤ q ∧ ∃ z, genPageAddr shards (q - k) = some z ∧ z ≤ y ∧ y < z + pageBytes := by
  induction shards with
  | nil => exact nofun
  | cons sh rest ih =>
    intro k y q hpage
    have hlater : genPage rest (k + sh.pages) y = some q →
        k ≤ q ∧ ∃ z, genPageAddr (sh :: rest) (q - k) = some z ∧ z ≤ y ∧ y < z + pageBytes := by
      intro hrest
      obtain ⟨hle, z, hz, hin⟩ := ih hrest
      refine ⟨by omega, z, ?_, hin⟩
      rw [genPageAddr, if_neg (by omega), Nat.sub_sub]
      exact hz
    match haddr : sh.addr with
    | none =>
      rw [genPage, haddr] at hpage
      exact hlater hpage
    | some x =>
      simp only [genPage, haddr] at hpage
      by_cases hin : x ≤ y ∧ y < x + sh.pages * pageBytes
      · rw [if_pos hin] at hpage
        obtain rfl := Option.some.inj hpage
        have hpos : 0 < pageBytes := by decide
        have hdiv : (y - x) / pageBytes < sh.pages := Nat.div_lt_of_lt_mul (by rw [Nat.mul_comm]; omega)
        have hmod := Nat.div_add_mod' (y - x) pageBytes
        have hlt := Nat.mod_lt (y - x) hpos
        refine ⟨Nat.le_add_right .., x + (y - x) / pageBytes * pageBytes, ?_, by omega, by omega⟩
        rw [genPageAddr, Nat.add_sub_cancel_left, if_pos hdiv, haddr]
        rfl
      · rw [if_neg hin] at hpage
        exact hlater hpage

/-- Where the pages lie apart, an aligned address is in a page only where the page begins. -/
theorem genPage_aligned {shards : List Shard} (hapart : ShardsApart shards) {a : Nat} (ha : a % pageBytes = 0) (p : Nat) :
    genPage shards 0 a = some p ↔ genPageAddr shards p = some a := by
  constructor
  · intro hpage
    obtain ⟨-, z, hz, hle, hlt⟩ := genPageAddr_of_genPage hpage
    obtain ⟨hz0, -⟩ := hapart p z hz
    have hza : z = a := by
      rw [pageBytes] at ha hz0 hlt
      omega
    exact hza ▸ hz
  · exact fun hz => (hapart p a hz).2 a (Nat.le_refl a) (Nat.lt_add_of_pos_right (by decide))

/-! ## The reserve -/

/-- A page is either in the reserve and copied, or neither, or it is the capture page. -/
def Guarded (g : Gen) (p : Nat) : Prop :=
  sget? g.saved p ≠ none ∧ p ∈ g.copied ∨ sget? g.saved p = none ∧ p ∉ g.copied ∨ genPageAddr g.shards p = none

/-- What a page holds, where it waits in the reserve. -/
theorem pageContent_saved {s : State} {g : Gen} {p : Nat} {b : Bytes} (h : sget? g.saved p = some b) : pageContent s g p = b := by
  rw [pageContent, h]

theorem pageContent_unsaved {s : State} {g : Gen} {p : Nat} (h : sget? g.saved p = none) : pageContent s g p =
    (genPageAddr g.shards p).elim g.capture fun a => mread s.mem.hbm a pageBytes := by
  rw [pageContent, h]
  cases genPageAddr g.shards p <;> rfl

/-- Generation g with page q, of address a, in the reserve. -/
def pageSaved (s : State) (g : Gen) (q a : Nat) : Gen :=
  { g with copied := q :: g.copied, saved := sset g.saved q (mread s.mem.hbm a pageBytes) }

/-- R481: a page about to be written moves to the reserve, unless it is copied. -/
theorem protectPage_moves {s : State} {g : Gen} (hgen : s.snp.gen = some g) (hended : g.ended = false) (hapart : ShardsApart g.shards)
    {a q : Nat} (ha : a % pageBytes = 0) (hq : genPageAddr g.shards q = some a) (hcopied : q ∉ g.copied) :
    (protectPage s a).snp.gen = some (pageSaved s g q a) := by
  have hround : a / pageBytes * pageBytes = a := Nat.div_mul_cancel (Nat.dvd_of_mod_eq_zero ha)
  have hnot : g.copied.contains q = false := by simpa using hcopied
  simp only [protectPage, pageSaved, hgen, hended, (genPage_aligned hapart ha q).mpr hq, hnot, hround, if_neg Bool.false_ne_true]

/-- A page that is copied, or in no region, is left. -/
theorem protectPage_stays {s : State} {g : Gen} (hgen : s.snp.gen = some g) (hapart : ShardsApart g.shards) {a : Nat}
    (ha : a % pageBytes = 0) (h : ∀ q, genPageAddr g.shards q = some a → q ∈ g.copied) : (protectPage s a).snp.gen = some g := by
  simp only [protectPage, hgen]
  split
  · exact hgen
  · split
    · exact hgen
    case h_2 q hq =>
      rw [if_pos (by simpa using h q ((genPage_aligned hapart ha q).mp hq))]
      exact hgen

/-- What protecting pages leaves of page p of generation g: its content. -/
structure PageKept (s : State) (g g' : Gen) (p : Nat) : Prop where
  ended : g'.ended = false
  shards : g'.shards = g.shards
  guarded : Guarded g' p
  content : pageContent s g' p = pageContent s g p
  saved : sget? g.saved p ≠ none → sget? g'.saved p ≠ none

theorem PageKept.trans {s : State} {g g' g'' : Gen} {p : Nat} (h : PageKept s g g' p) (h' : PageKept s g' g'' p) : PageKept s g g'' p where
  ended := h'.ended
  shards := h'.shards.trans h.shards
  guarded := h'.guarded
  content := h'.content.trans h.content
  saved hs := h'.saved (h.saved hs)

/-- Moving page q to the reserve leaves what page p holds. -/
theorem pageKept_pageSaved {s : State} {g : Gen} {p q a : Nat} (hended : g.ended = false) (hp : Guarded g p)
    (hq : genPageAddr g.shards q = some a) (hcopied : q ∉ g.copied) : PageKept s g (pageSaved s g q a) p := by
  by_cases hpq : p = q
  · subst hpq
    have hnone : sget? g.saved p = none := by
      rcases hp with ⟨-, hin⟩ | ⟨hnone, -⟩ | haddr
      · exact absurd hin hcopied
      · exact hnone
      · rw [haddr] at hq
        exact nomatch hq
    have hsaved : sget? (pageSaved s g p a).saved p = some (mread s.mem.hbm a pageBytes) := sget?_sset_same ..
    refine ⟨hended, rfl, Or.inl ⟨by rw [hsaved]; nofun, List.mem_cons_self⟩, ?_, fun _ => by rw [hsaved]; nofun⟩
    rw [pageContent_saved hsaved, pageContent_unsaved hnone, hq, Option.elim_some]
  · have hsaved : sget? (pageSaved s g q a).saved p = sget? g.saved p := sget?_sset_other _ hpq _
    have hin : p ∈ (pageSaved s g q a).copied ↔ p ∈ g.copied := by simp [pageSaved, hpq]
    refine ⟨hended, rfl, ?_, ?_, fun hs => by rwa [hsaved]⟩
    · unfold Guarded
      rw [hsaved, hin]
      exact hp
    · unfold pageContent
      rw [hsaved]
      rfl

/-- Protecting one page leaves what each page holds, and the page itself is in the reserve or was copied. -/
theorem protectPage_kept {s : State} {g : Gen} (hgen : s.snp.gen = some g) (hended : g.ended = false) (hapart : ShardsApart g.shards)
    {a p : Nat} (ha : a % pageBytes = 0) (hp : Guarded g p) : ∃ g', (protectPage s a).snp.gen = some g' ∧ PageKept s g g' p ∧
      (genPageAddr g.shards p = some a → sget? g'.saved p ≠ none) := by
  by_cases hmove : ∃ q, genPageAddr g.shards q = some a ∧ q ∉ g.copied
  · obtain ⟨q, hq, hcopied⟩ := hmove
    refine ⟨_, protectPage_moves hgen hended hapart ha hq hcopied, pageKept_pageSaved hended hp hq hcopied, fun hpa => ?_⟩
    have hpq : p = q := Option.some.inj (((genPage_aligned hapart ha p).mpr hpa).symm.trans ((genPage_aligned hapart ha q).mpr hq))
    subst hpq
    rw [pageSaved, sget?_sset_same]
    nofun
  · have hall : ∀ q, genPageAddr g.shards q = some a → q ∈ g.copied := fun q hq => by
      by_contra hnot
      exact hmove ⟨q, hq, hnot⟩
    refine ⟨g, protectPage_stays hgen hapart ha hall, ⟨hended, rfl, hp, rfl, id⟩, fun hpa => ?_⟩
    rcases hp with ⟨hsaved, -⟩ | ⟨-, hnot⟩ | haddr
    · exact hsaved
    · exact absurd (hall p hpa) hnot
    · rw [haddr] at hpa
      exact nomatch hpa

/-- Protecting pages changes no memory. -/
theorem protectPage_mem (s : State) (a : Nat) : (protectPage s a).mem = s.mem := by
  obtain ⟨g, peak, h⟩ := protectPage_eq s a
  rw [h]

theorem pageContent_congr {s t : State} (h : t.mem = s.mem) (g : Gen) (p : Nat) : pageContent t g p = pageContent s g p := by
  unfold pageContent
  rw [h]

/-- Protecting pages one after the other leaves what each page holds, and each of them is in the reserve or was copied. -/
theorem protectPages_kept {p : Nat} (f : Nat → Nat) (hf : ∀ i, f i % pageBytes = 0) (is : List Nat) {s : State} {g : Gen}
    (hgen : s.snp.gen = some g) (hended : g.ended = false) (hapart : ShardsApart g.shards) (hp : Guarded g p) :
    let t := is.foldl (fun s i => protectPage s (f i)) s
    t.mem = s.mem ∧ ∃ g', t.snp.gen = some g' ∧ PageKept s g g' p ∧
      ∀ i ∈ is, genPageAddr g.shards p = some (f i) → sget? g'.saved p ≠ none := by
  induction is generalizing s g with
  | nil => exact ⟨rfl, g, hgen, ⟨hended, rfl, hp, rfl, id⟩, nofun⟩
  | cons i is ih =>
    obtain ⟨g1, hgen1, hkept1, hin1⟩ := protectPage_kept hgen hended hapart (hf i) hp
    have hmem := protectPage_mem s (f i)
    obtain ⟨hmem2, g2, hgen2, hkept2, hin2⟩ := ih hgen1 hkept1.ended (hkept1.shards ▸ hapart) hkept1.guarded
    have hkept2' : PageKept s g1 g2 p := ⟨hkept2.ended, hkept2.shards, hkept2.guarded, by
      rw [← pageContent_congr hmem g2, ← pageContent_congr hmem g1]
      exact hkept2.content, hkept2.saved⟩
    refine ⟨hmem2.trans hmem, g2, hgen2, hkept1.trans hkept2', fun j hj hpa => ?_⟩
    rcases List.mem_cons.mp hj with rfl | hj
    · exact hkept2.saved (hin1 hpa)
    · exact hin2 j hj (by rw [hkept1.shards]; exact hpa)

/-- The pages that a write covers are protected. -/
theorem protect_kept {s : State} {g : Gen} {p : Nat} (hgen : s.snp.gen = some g) (hended : g.ended = false) (hapart : ShardsApart g.shards)
    (hp : Guarded g p) (a len : Nat) : ∃ g', (protect s a len).snp.gen = some g' ∧ PageKept s g g' p ∧
      ∀ z x, genPageAddr g.shards p = some z → z ≤ x → x < z + pageBytes → sget? g'.saved p ≠ none ∨ x < a ∨ a + len ≤ x := by
  by_cases hlen : len = 0
  · have hnone : protect s a len = s := if_pos hlen
    rw [hnone]
    exact ⟨g, hgen, ⟨hended, rfl, hp, rfl, id⟩, fun z x _ _ _ => Or.inr (by omega)⟩
  · have hpages : protect s a len = _ := if_neg hlen
    obtain ⟨-, g', hgen', hkept, hin⟩ := protectPages_kept (fun i => (a / pageBytes + i) * pageBytes) (fun i => Nat.mul_mod_left ..)
      (List.range ((a + len - 1) / pageBytes - a / pageBytes + 1)) hgen hended hapart hp
    rw [hpages]
    refine ⟨g', hgen', hkept, fun z x hz hle hlt => ?_⟩
    by_contra hout
    obtain ⟨hunsaved, hreach, hend⟩ : sget? g'.saved p = none ∧ a ≤ x ∧ x < a + len := by
      rw [not_or, not_or] at hout
      exact ⟨by simpa using hout.1, by omega, by omega⟩
    have hz0 : z % pageBytes = 0 := (hapart p z hz).1
    have hpage : z = (a / pageBytes + (x / pageBytes - a / pageBytes)) * pageBytes := by
      rw [pageBytes] at hz0 hlt ⊢
      omega
    refine hin (x / pageBytes - a / pageBytes) (List.mem_range.mpr ?_) (hpage ▸ hz) hunsaved
    rw [pageBytes]
    omega

/-- Settles O29: the page is in the reserve with what it held, or the write is elsewhere. -/
theorem copyBeforeWrite : Obligations.CopyBeforeWrite := by
  intro s g p a b hgen hended hapart hp
  obtain ⟨g', hgen', hkept, hout⟩ := protect_kept hgen hended hapart hp a b.length
  obtain ⟨x, peak, hprotect⟩ := protect_eq s a b.length
  have hbm : (hbmWrite s a b).mem.hbm = mwrite s.mem.hbm a b := by rw [hbmWrite, hprotect]; rfl
  refine ⟨g', hgen', ?_⟩
  rw [← hkept.content]
  match hsaved : sget? g'.saved p with
  | some c => rw [pageContent_saved hsaved, pageContent_saved hsaved]
  | none =>
    rw [pageContent_unsaved hsaved, pageContent_unsaved hsaved, hkept.shards, hbm]
    match hz : genPageAddr g.shards p with
    | none => rfl
    | some z =>
      refine mread_congr pageBytes z fun y hle hlt => mget_mwrite_outside b _ a y ?_
      rcases hout z y hz hle hlt with h | h
      · exact absurd hsaved h
      · exact h

end Sys2Proof.Machine
end

section
/-!
SNAP, SNAP_FENCE and the copying of a generation (R234, R244, R283, R284, R476 to R483, R488, R499): O30.
-/
namespace Sys2Proof.Machine

/-! ## Strands that stop or stay -/

theorem StrandsStop.index {s t : State} (h : StrandsStop s t) {n : Nat} (hn : n < 43) : (strand t n).index = (strand s n).index := by
  rcases h n hn with heq | heq <;> rw [heq]

theorem StrandsStop.stopped {s t : State} (h : StrandsStop s t) {n : Nat} (hn : n < 43) (hst : (strand s n).st = 8) : (strand t n).st = 8 := by
  rcases h n hn with heq | heq
  · rw [heq, hst]
  · rw [heq]

theorem OnlyEnding.snp {s t : State} (h : OnlyEnding s t) : t.snp = s.snp := by rw [h]

theorem OnlyEnding.brd {s t : State} (h : OnlyEnding s t) : t.brd = s.brd := by rw [h]

/-! ## The generation that a SNAP takes (R476, R479, R485) -/

/-- A code of the snapshot engine's EVENT changes that register and the codes on their way. -/
theorem raise_onlySnp {s : State} (h : s.die ≠ .off) {code b : Nat} (hb : eventBit code = some (.snp, b))
    (hc : ∀ t, countCode t code = t) (eff : Effect) (detail : Bytes) :
    raise s code eff detail = { s with
      snp := { s.snp with event := orBit s.snp.event b }
      knl := { s.knl with inflight := s.knl.inflight ++ [⟨BitVec.ofNat 32 code, eff, detail, s.sys.drill⟩] } } :=
  raise_released h hb hc eff detail

theorem startMirror_eq {s : State} (hd : s.die ≠ .off) (g : Gen) : ∃ route event lead inflight, startMirror s g = { s with
    snp := { s.snp with gen := some { g with route := route }, event := event }
    lead := { s.lead with lead := lead }
    knl := { s.knl with inflight := inflight } } := by
  unfold startMirror
  split
  · exact ⟨g.route, s.snp.event, s.lead.lead, s.knl.inflight, rfl⟩
  · split
    · rw [raise_onlySnp (by exact hd) (b := 2) rfl fun _ => rfl]
      exact ⟨1, _, s.lead.lead, _, rfl⟩
    · obtain ⟨lead, hsend⟩ := leadSend_eq (setSnp s { s.snp with gen := some g }) ‹_›
        (.mirrorBegin g.marker s.str.job (BitVec.ofNat 64 (mirrorBytes g)) g.position)
      rw [hsend]
      exact ⟨g.route, s.snp.event, lead, s.knl.inflight, rfl⟩

theorem snapWait_eq (s : State) (w : BitVec 128) : ∃ tok, snapWait s w = { s with str := { s.str with tok := tok } } := by
  unfold snapWait
  split
  · exact ⟨_, rfl⟩
  · exact ⟨s.str.tok, rfl⟩

/-- What a SNAP takes: the generation of its regions, and nothing of the strands or the memories. -/
structure Taken (s t : State) (w : BitVec 128) : Prop where
  strands : t.str.strands = s.str.strands
  tok : t.str.tok = (snapWait s w).str.tok
  image : t.str.image = s.str.image
  mem : t.mem = s.mem
  brd : t.brd = s.brd
  die : t.die = s.die
  genMarker : t.snp.genMarker = s.str.marker
  lastTaken : t.snp.lastTaken = some s.str.marker
  older : t.snp.older = s.snp.older ++ s.snp.gen.toList
  gen : ∃ g, t.snp.gen = some g ∧ g.marker = s.str.marker ∧ g.shards = genShards (snapRegions s w) ∧ g.target = wFld w 79 78 ∧
    g.ctx = s.str.gen ∧ g.copied = [0] ∧ g.ended = false ∧ g.sent = []

theorem taken_takeGeneration {s : State} (hd : s.die ≠ .off) (w : BitVec 128) : Taken s (takeGeneration (snapWait s w) w) w := by
  obtain ⟨tok, hwait⟩ := snapWait_eq s w
  have htok : (snapWait s w).str.tok = tok := by rw [hwait]
  obtain ⟨route, event, lead, inflight, hstart⟩ := startMirror_eq
    (s := setSnp { s with str := { s.str with tok := tok } } { s.snp with
      older := s.snp.older ++ s.snp.gen.toList, gen := none, genMarker := s.str.marker, lastTaken := some s.str.marker }) hd
    { marker := s.str.marker, position := BitVec.ofNat 32 (imagePosition (img { s with str := { s.str with tok := tok } })),
      target := wFld w 79 78, route := wFld w 79 78, shards := genShards (snapRegions { s with str := { s.str with tok := tok } } w),
      ctx := s.str.gen, capture := capturePage { s with str := { s.str with tok := tok } }, copied := [0] }
  have htake : takeGeneration { s with str := { s.str with tok := tok } } w = _ := hstart
  rw [hwait, htake]
  exact ⟨rfl, htok.symm, rfl, rfl, rfl, rfl, rfl, rfl, rfl, _, rfl, rfl, rfl, rfl, rfl, rfl, rfl, rfl⟩

/-! ## SNAP (R234, R476 to R478) -/

/-- Step 6 with the signals of its cycle: the strands at STEP go on, their signals arrive, and what runs past its code stops. -/
theorem stepSix_signals (s : State) (extra : List Signal) : ∃ (sigs : List Signal) (past : List (Nat × Nat)), stepSix s extra =
    past.foldl (fun t p => ranPast t p.1 p.2) (applySignals (setSnp ((stepping s).foldl stepOn s)
      { ((stepping s).foldl stepOn s).snp with step5 := false, hold := false }) sigs) :=
  ⟨_, _, rfl⟩

/-- What step 6 leaves: nothing but strands, tokens, instruction numbers and codes, and the wait for a SNAP. -/
theorem stepSix_ending {s : State} (hd : s.die ≠ .off) (extra : List Signal) :
    OnlyEnding { s with snp := { s.snp with step5 := false, hold := false } } (stepSix s extra) := by
  obtain ⟨sigs, past, hsix⟩ := stepSix_signals s extra
  have hon := onlyEnding_stepOns hd (stepping s)
  have hsnp : OnlyEnding { s with snp := { s.snp with step5 := false, hold := false } } (setSnp ((stepping s).foldl stepOn s)
      { ((stepping s).foldl stepOn s).snp with step5 := false, hold := false }) := by
    rw [OnlyEnding] at hon ⊢
    generalize (stepping s).foldl stepOn s = u at hon ⊢
    rw [setSnp, hon]
  have hsignals := hsnp.trans (onlyEnding_applySignals (by rw [hsnp.die]; exact hd) sigs)
  rw [hsix]
  exact hsignals.trans (onlyEnding_foldl (by rw [hsignals.die]; exact hd) (fun t p ht => onlyEnding_ranPast ht p.1 p.2) past)

/-- A strand that is not at STEP stays stopped at step 6. -/
theorem stepSix_stopped {s : State} {n : Nat} (hn : n < 43) (hst : (strand s n).st = 8) (extra : List Signal) :
    (strand (stepSix s extra) n).st = 8 := by
  obtain ⟨sigs, past, hsix⟩ := stepSix_signals s extra
  have hout : n ∉ stepping s := fun hin => by
    have hsix := (List.mem_filter.mp hin).2
    rw [hst] at hsix
    exact absurd hsix (by decide)
  have hstop := (strandsStop_applySignals (setSnp ((stepping s).foldl stepOn s)
      { ((stepping s).foldl stepOn s).snp with step5 := false, hold := false }) sigs).trans
    (strandsStop_foldl (fun t (p : Nat × Nat) => strandsStop_ranPast t p.1 p.2) past _)
  rw [hsix]
  exact hstop.stopped hn ((congrArg Strand.st (strand_foldl_stepOn_other (stepping s) (s := s) hout)).trans hst)

/-- The snapshot strand is refused: it stops, and the job-ending code is on its way. -/
theorem refuse_snap {s : State} (hd : s.die ≠ .off) : refuse s 42 0x0B050305 = { stopStrand s 42 with
    knl := { s.knl with inflight := s.knl.inflight ++ [⟨0x0B050305, .jobEnding, [], s.sys.drill⟩] } } :=
  raise_noEvent (s := stopStrand s 42) hd rfl (fun _ => rfl) ..

section
variable {s : State} (hrun : running s = true) (hstep : s.snp.step5 = true)
include hrun hstep

theorem runs_snap_held (hcopy : copying s = true) : Runs .snap s fun t => t = { s with snp := { s.snp with hold := true } } := by
  have hsnap : snap s = setSnp s { s.snp with hold := true } := (if_pos (by simp [hrun, hstep])).trans (if_pos hcopy)
  exact ⟨_, congrArg Host.Outcome.next hsnap, rfl⟩

theorem snap_runs (hcopy : copying s = false) : snap s = runSnap s :=
  (if_pos (by simp [hrun, hstep])).trans (if_neg (by simp [hcopy]))

/-- R476, R479: a SNAP that nothing refuses takes the marker, and every strand at STEP goes on. -/
theorem runs_snap_taken (hcopy : copying s = false) (hst : (strand s 42).st = 6) (hok : snapOk s (stepSnapWord s) = true)
    (hsig : ∀ g ∈ wordSignal 42 (stepSnapWord s), token (snapWait s (stepSnapWord s)) g.tok + g.inc ≤ 65535) :
    Runs .snap s fun t => t.snp.genMarker = s.str.marker ∧ t.snp.lastTaken = some s.str.marker ∧ t.snp.step5 = false ∧
      t.snp.older = s.snp.older ++ s.snp.gen.toList ∧
      (∃ g, t.snp.gen = some g ∧ g.marker = s.str.marker ∧ g.shards = genShards (snapRegions s (stepSnapWord s)) ∧
        g.target = wFld (stepSnapWord s) 79 78 ∧ g.ctx = s.str.gen ∧ g.copied = [0] ∧ g.ended = false ∧ g.sent = []) ∧
      (∀ n, n < 42 → (strand s n).st = 6 → (strand t n).index = (strand s n).index + 1 ∧ (strand t n).phase = .fetch) ∧
      (strand t 42).index = (strand s 42).index + 2 ∧ t.mem.hbm = s.mem.hbm ∧ t.brd = s.brd := by
  have hsnap : snap s = stepSix (applySignals (setStrand (takeGeneration (snapWait s (stepSnapWord s)) (stepSnapWord s)) 42
      { strand s 42 with index := (strand s 42).index + 1 }) (wordSignal 42 (stepSnapWord s))) [] :=
    (snap_runs hrun hstep hcopy).trans (if_pos hok)
  have htaken := taken_takeGeneration (running_released hrun) (stepSnapWord s)
  generalize takeGeneration (snapWait s (stepSnapWord s)) (stepSnapWord s) = u at hsnap htaken
  rw [applySignals_word (s := snapWait s (stepSnapWord s)) (v := setStrand u 42 _) htaken.tok hsig] at hsnap
  generalize (applySignals (snapWait s (stepSnapWord s)) (wordSignal 42 (stepSnapWord s))).str.tok = tok at hsnap
  obtain ⟨v, hv, hsnp, hmem, hbrd, hdie, hown, hothers⟩ : ∃ v, snap s = stepSix v [] ∧ v.snp = u.snp ∧ v.mem = s.mem ∧ v.brd = s.brd ∧
      v.die = s.die ∧ strand v 42 = { strand s 42 with index := (strand s 42).index + 1 } ∧ ∀ n, n ≠ 42 → strand v n = strand s n :=
    ⟨_, hsnap, rfl, htaken.mem, htaken.brd, htaken.die, strand_setStrand_same u (by decide) _,
      fun n hn => (strand_setStrand_other u hn _).trans (strand_congr htaken.strands n)⟩
  have hend := stepSix_ending (s := v) (by rw [hdie]; exact running_released hrun) []
  have hsteps : ∀ n, n < 43 → (strand v n).st = 6 →
      (strand (stepSix v []) n).index = (strand v n).index + 1 ∧ (strand (stepSix v []) n).phase = .fetch := fun n hn hst => by
    rcases strand_stepSix hn hst with h | h <;> rw [h] <;> exact ⟨rfl, rfl⟩
  have hsnp' : (stepSix v []).snp = { u.snp with step5 := false, hold := false } := by rw [hend.snp, hsnp]
  obtain ⟨g, hgen, hg⟩ := htaken.gen
  refine ⟨_, congrArg Host.Outcome.next hv, ?_, ?_, ?_, ?_, ⟨g, ?_, hg⟩, fun n hn hst' => ?_, ?_, ?_, ?_⟩
  · rw [hsnp']; exact htaken.genMarker
  · rw [hsnp']; exact htaken.lastTaken
  · rw [hsnp']
  · rw [hsnp']; exact htaken.older
  · rw [hsnp']; exact hgen
  · have hkept := hothers n (by omega)
    rw [← hkept]
    exact hsteps n (by omega) (by rw [hkept]; exact hst')
  · rw [(hsteps 42 (by decide) (by rw [hown]; exact hst)).1, hown]
    exact BitVec.add_assoc ..
  · exact congrArg MemS.hbm (hend.mem.trans hmem)
  · exact hend.brd.trans hbrd

/-- R476: a SNAP that may not take the marker ends the job. -/
theorem runs_snap_refused (hcopy : copying s = false) (hok : snapOk s (stepSnapWord s) = false) : Runs .snap s fun t =>
    OnItsWay t 0x0B050305 .jobEnding [] s.sys.drill ∧ (strand t 42).st = 8 ∧ t.snp.gen = s.snp.gen ∧ t.snp.step5 = false := by
  obtain ⟨tok, hwait⟩ := snapWait_eq s (stepSnapWord s)
  have hsnap : snap s = stepSix (refuse (setStrand (snapWait s (stepSnapWord s)) 42 { strand s 42 with
      index := (strand s 42).index + 1, word := stepSnapWord s, phase := .begun }) 42 0x0B050305) (wordSignal 42 (strand s 42).word) :=
    (snap_runs hrun hstep hcopy).trans (if_neg (by rw [hok]; exact Bool.false_ne_true))
  have hd : s.die ≠ .off := running_released hrun
  rw [hwait, refuse_snap (by exact hd)] at hsnap
  obtain ⟨v, hv, hsnp, hdie, hway, hstop⟩ : ∃ v, snap s = stepSix v (wordSignal 42 (strand s 42).word) ∧ v.snp = s.snp ∧ v.die = s.die ∧
      OnItsWay v 0x0B050305 .jobEnding [] s.sys.drill ∧ (strand v 42).st = 8 :=
    ⟨_, hsnap, rfl, rfl, List.mem_append_right _ (List.mem_singleton.mpr rfl),
      congrArg Strand.st (strand_setStrand_same _ (n := 42) (by decide) _)⟩
  have hd' : v.die ≠ .off := by rw [hdie]; exact hd
  have hend := (stepSix_ending hd' (wordSignal 42 (strand s 42).word)).snp
  refine ⟨_, congrArg Host.Outcome.next hv, (staysDown_stepSix hd' _).onItsWay hway, stepSix_stopped (by decide) hstop _, ?_, ?_⟩
  · rw [hend, hsnp]
  · rw [hend]

end

/-! ## A SNAP that does not follow its STEP (R284, R499) -/

section
variable {s : State} (hstep : s.snp.step5 = false) (hbegun : begun s 42 0x10 = true)
include hstep hbegun

theorem runs_snap_skipped (hskip : s.snp.skipSnap = true) : Runs .snap s fun t =>
    t.snp.skipSnap = false ∧ (strand t 42).index = (strand s 42).index + 1 ∧ t.snp.gen = s.snp.gen ∧ t.mem.hbm = s.mem.hbm := by
  have hd : s.die ≠ .off := running_released (begun_running hbegun)
  have hsnap : snap s = skipSnap s := (if_neg (by simp [hstep])).trans ((if_pos hbegun).trans (if_pos hskip))
  obtain ⟨v, hv, hsnp, hmem, hdie, hown⟩ : ∃ v, snap s = ranPast (applySignals v (wordSignal 42 (strand s 42).word)) 42
      (strand s 42).index.toNat ∧ v.snp = { s.snp with skipSnap := false } ∧ v.mem = s.mem ∧ v.die = s.die ∧
      strand v 42 = stepped (strand s 42) := ⟨_, hsnap, rfl, rfl, rfl, strand_setStrand_same _ (by decide) _⟩
  have hsignals := onlyEnding_applySignals (by rw [hdie]; exact hd) (wordSignal 42 (strand s 42).word)
  have hend := hsignals.trans (onlyEnding_ranPast (by rw [hsignals.die, hdie]; exact hd) 42 (strand s 42).index.toNat)
  have hstop := (strandsStop_applySignals v (wordSignal 42 (strand s 42).word)).trans
    (strandsStop_ranPast _ 42 (strand s 42).index.toNat)
  refine ⟨_, congrArg Host.Outcome.next hv, ?_, ?_, ?_, congrArg MemS.hbm (hend.mem.trans hmem)⟩
  · rw [hend.snp, hsnp]
  · rw [hstop.index (by decide), hown]
    rfl
  · rw [hend.snp, hsnp]

theorem runs_snap_unmarked (hskip : s.snp.skipSnap = false) : Runs .snap s fun t => RefusedAtIssue s t 42 0x0B050305 ∧ t.snp = s.snp := by
  have hsnap : snap s = refuse s 42 0x0B050305 :=
    (if_neg (by simp [hstep])).trans ((if_pos hbegun).trans (if_neg (by rw [hskip]; exact Bool.false_ne_true)))
  rw [refuse_snap (running_released (begun_running hbegun))] at hsnap
  exact ⟨_, congrArg Host.Outcome.next hsnap, ⟨strand_setStrand_same s (by decide) _, fun m hm => strand_setStrand_other s hm _, rfl⟩, rfl⟩

end

/-! ## SNAP_FENCE (R283, R483) -/

/-- A SNAP_FENCE in flight completes: its signal arrives, and the code may end. -/
theorem fenceDone_completes {s : State} {i : Nat} {w : BitVec 128} {rest : List (Nat × BitVec 128)}
    (hfirst : (strand s 42).inflight = (i, w) :: rest) (hmay : running s = true ∧ wOp w = 0x11) : fenceDone s =
      ranPast (applySignals (setStrand s 42 { strand s 42 with inflight := rest }) (wordSignal 42 w)) 42 i := by
  have hfirst' : (strand s snapN).inflight = (i, w) :: rest := hfirst
  rw [fenceDone, hfirst']
  exact if_pos hmay

theorem fenceDone_strand {s : State} {i : Nat} {w : BitVec 128} {rest : List (Nat × BitVec 128)}
    (hfirst : (strand s 42).inflight = (i, w) :: rest) (hmay : running s = true ∧ wOp w = 0x11) :
    (strand (fenceDone s) 42).inflight = rest ∧ (strand (fenceDone s) 42).index = (strand s 42).index := by
  have hown := strand_setStrand_same s (n := 42) (by decide) { strand s 42 with inflight := rest }
  have hdone := fenceDone_completes hfirst hmay
  generalize setStrand s 42 { strand s 42 with inflight := rest } = u at hown hdone
  have hstop := (strandsStop_applySignals u (wordSignal 42 w)).trans (strandsStop_ranPast _ 42 i)
  rw [hdone]
  rcases hstop 42 (by decide) with h | h <;> rw [h, hown] <;> exact ⟨rfl, rfl⟩

theorem onlyEnding_fenceDone (s : State) : OnlyEnding s (fenceDone s) := by
  match hfirst : (strand s 42).inflight with
  | [] =>
    have hnone : (strand s snapN).inflight = [] := hfirst
    rw [fenceDone, hnone]
    exact .refl s
  | (i, w) :: rest =>
    by_cases hmay : running s = true ∧ wOp w = 0x11
    · have hd : s.die ≠ .off := running_released hmay.1
      have hset := onlyEnding_setStrand s 42 { strand s 42 with inflight := rest }
      have hsignals := hset.trans (onlyEnding_applySignals (by exact hd) (wordSignal 42 w))
      rw [fenceDone_completes hfirst hmay]
      exact hsignals.trans (onlyEnding_ranPast (by rw [hsignals.die]; exact hd) 42 i)
    · have hfirst' : (strand s snapN).inflight = (i, w) :: rest := hfirst
      rw [fenceDone, hfirst']
      simp only [if_neg hmay]
      exact .refl s

section
variable {s : State} (hbegun : begun s 42 0x11 = true) (hidle : idle s 42 = true)
include hbegun hidle

theorem runs_snapFence_waits (hcopy : copying s = true) : Runs .snapFence s fun t =>
    Issued s t 42 ∧ t = { s with str := { s.str with strands := t.str.strands } } := by
  have hfence : snapFence s = issueStrand s 42 := (if_pos (Bool.and_eq_true_iff.mpr ⟨hbegun, hidle⟩)).trans (if_pos hcopy)
  exact ⟨_, congrArg Host.Outcome.next hfence, issued_issueStrand rfl (by decide), rfl⟩

/-- R283: with no generation being copied, SNAP_FENCE completes as it issues. -/
theorem runs_snapFence (hcopy : copying s = false) : Runs .snapFence s fun t => idle t 42 = true ∧
    (strand t 42).index = (strand s 42).index + 1 ∧ t.snp = s.snp ∧ t.mem = s.mem := by
  have hfence : snapFence s = fenceDone (issueStrand s 42) := by
    have hcopy' : ¬ copying (issueStrand s snapN) = true := Bool.eq_false_iff.mp hcopy
    rw [snapFence, snapN, if_pos (Bool.and_eq_true_iff.mpr ⟨hbegun, hidle⟩)]
    exact if_neg hcopy'
  have hrun := begun_running hbegun
  have hissued := (issued_issueStrand (s := s) (t := s) (n := 42) rfl (by decide)).1
  have hempty : (strand s 42).inflight = [] := List.isEmpty_iff.mp hidle
  have hop : wOp (strand s 42).word = 0x11 := by
    simp only [begun, Bool.and_eq_true, decide_eq_true_eq] at hbegun
    exact hbegun.1.2
  have hfirst : (strand (issueStrand s 42) 42).inflight = [((strand s 42).index.toNat, (strand s 42).word)] := by
    rw [hissued, hempty]
    rfl
  obtain ⟨hleft, hindex⟩ := fenceDone_strand hfirst ⟨by exact hrun, hop⟩
  have hend := onlyEnding_fenceDone (issueStrand s 42)
  refine ⟨_, congrArg Host.Outcome.next hfence, ?_, ?_, hend.snp, hend.mem⟩
  · rw [idle, hleft]
    rfl
  · rw [hindex, hissued]

end

/-! ## Copying (R481 to R483, R488) -/

/-- R481, R482: a page about to be written while the reserve is full: its writer is held. -/
theorem runs_pagePush_held {s : State} {g : Gen} {page : BitVec 32} {a : Nat} (us : Nat) (hgen : s.snp.gen = some g) (hended : g.ended = false)
    (haddr : genPageAddr g.shards page.toNat = some a) (hcopied : page.toNat ∉ g.copied) (hfull : reservePages s ≤ g.saved.length) :
    Runs (.pagePush page us) s fun t => t = { s with snp := { s.snp with stall := true } } := by
  have hpush : pagePush s page.toNat us = setSnp s { s.snp with stall := true } := by
    simp only [pagePush, hgen, haddr, hended]
    rw [if_neg (by simpa using hcopied), if_pos hfull]
  exact ⟨_, congrArg Host.Outcome.next hpush, rfl⟩

/-- What a page push counts before the page moves: the time that its writer was held. -/
def pushCounted (s : State) (us : Nat) : State :=
  if s.snp.stall then setSnp s { s.snp with stall := false, cntStall := satAdd32 s.snp.cntStall us } else s

theorem pushCounted_spec (s : State) (us : Nat) : let t := pushCounted s us
    t.snp.gen = s.snp.gen ∧ t.mem = s.mem ∧ t.snp.stall = false ∧
      t.snp.cntStall = if s.snp.stall = true then satAdd32 s.snp.cntStall us else s.snp.cntStall := by
  unfold pushCounted
  by_cases h : s.snp.stall = true
  · rw [if_pos h, if_pos h]
    exact ⟨rfl, rfl, rfl, rfl⟩
  · rw [if_neg h, if_neg h]
    exact ⟨rfl, rfl, by simpa using h, rfl⟩

/-- R481: with room in the reserve the page moves there. -/
theorem runs_pagePush {s : State} {g : Gen} {page : BitVec 32} {a : Nat} (us : Nat) (hgen : s.snp.gen = some g) (hended : g.ended = false)
    (haddr : genPageAddr g.shards page.toNat = some a) (hapart : ShardsApart g.shards) (hcopied : page.toNat ∉ g.copied)
    (hroom : g.saved.length < reservePages s) : Runs (.pagePush page us) s fun t => t.snp.stall = false ∧
      (∃ g', t.snp.gen = some g' ∧ sget? g'.saved page.toNat = some (mread s.mem.hbm a pageBytes) ∧
        g'.copied = page.toNat :: g.copied ∧ g'.sent = g.sent) ∧
      t.snp.cntStall = (if s.snp.stall = true then satAdd32 s.snp.cntStall us else s.snp.cntStall) ∧ t.mem = s.mem := by
  have hpush : pagePush s page.toNat us = protectPage (pushCounted s us) a := by
    simp only [pagePush, pushCounted, hgen, haddr, hended]
    rw [if_neg (by simpa using hcopied), if_neg (Nat.not_le.mpr hroom)]
  obtain ⟨hkept, hmem, hstall, hcount⟩ := pushCounted_spec s us
  have hmoves := protectPage_moves (hkept.trans hgen) hended hapart (hapart _ _ haddr).1 haddr hcopied
  obtain ⟨x, peak, hprotect⟩ := protectPage_eq (pushCounted s us) a
  refine ⟨_, congrArg Host.Outcome.next hpush, ?_, ⟨_, hmoves, ?_, rfl, rfl⟩, ?_, ?_⟩
  · rw [hprotect]; exact hstall
  · rw [pageSaved, sget?_sset_same, hmem]
  · rw [hprotect]; exact hcount
  · rw [hprotect]; exact hmem

/-- Frames for the node leave all but the queue of the session that takes them. -/
theorem sendNode_spec (s : State) (bs : List TBody) : let t := sendNode s bs
    OnlyTet s t ∧ dieLink t = dieLink s ∧ (∀ (l : Nat) b, b ∈ (linkAt s l).die.bulk → b ∈ (linkAt t l).die.bulk) ∧
      ∀ l, dieLink s = some l → ∀ b ∈ bs, b ∈ (linkAt t l).die.bulk := by
  match hl : dieLink s with
  | none =>
    have hsend : sendNode s bs = s := by
      unfold sendNode
      rw [hl]
    rw [hsend]
    exact ⟨.refl s, hl, fun _ _ h => h, nofun⟩
  | some l =>
    have hsend : sendNode s bs = bs.foldl (fun s b => tetBulk s l b) s := by
      unfold sendNode
      rw [hl]
    obtain ⟨honly, hbulk, hothers, hlinks⟩ := tetBulks_spec ⟨l, dieLink_lt hl⟩ bs s
    have hgrow : (linkAt (bs.foldl (fun s b => tetBulk s l b) s) l).die.bulk = (linkAt s l).die.bulk ++ bs := congrArg Sess.bulk hbulk
    have hopen : ∀ l', (sess (bs.foldl (fun s b => tetBulk s l b) s) l' false).isOpen = (sess s l' false).isOpen := by
      intro l'
      by_cases hne : l' = l
      · subst hne
        exact (congrArg Sess.isOpen hbulk :)
      · rw [hothers l' false (Or.inl hne)]
    rw [hsend]
    refine ⟨honly, ?_, fun l' b hb => ?_, fun l' hl' b hb => ?_⟩
    · rw [← hl]
      unfold dieLink
      refine List.find?_congr fun l' _ => ?_
      exact congrArg₂ (· && ·) (hlinks l').1 (hopen l')
    · by_cases hne : l' = l
      · subst hne
        rw [hgrow]
        exact List.mem_append_left _ hb
      · exact (congrArg Sess.bulk (hothers l' false (Or.inl hne))).symm ▸ hb
    · obtain rfl := Option.some.inj hl'
      rw [hgrow]
      exact List.mem_append_right _ hb

/-- What closing a shard leaves of the generation and of the queues. -/
theorem endShard_spec (s : State) (g : Gen) (k : Nat) : let t := endShard s g k
    OnlyTet s t.1 ∧ (∀ (l : Nat) b, b ∈ (linkAt s l).die.bulk → b ∈ (linkAt t.1 l).die.bulk) ∧ t.2.sent = g.sent ∧ t.2.saved = g.saved ∧
      t.2.marker = g.marker := by
  unfold endShard
  simp only
  split
  · obtain ⟨honly, -, hkept, -⟩ := sendNode_spec s [.shardEnd g.ctx g.marker g.position (BitVec.ofNat 32 k)
      (BitVec.ofNat 32 (shardPages g k).length)
      (BitVec.ofNat 256 (leNat (sha256 ((shardPages g k).flatMap fun p => sgetD g.stored p []))))]
    exact ⟨honly, hkept, rfl, rfl, rfl⟩
  · exact ⟨.refl s, fun _ _ h => h, rfl, rfl, rfl⟩

/-- R493: the i-th frame of a page that is queued for storage. -/
theorem mem_pageFrames (ctx : BitVec 8) (marker : BitVec 64) (position : BitVec 32) (k q : Nat) (b : Bytes) {i : Nat} (hi : i < 65) :
    TBody.page ctx marker position (BitVec.ofNat 32 k) (BitVec.ofNat 32 q) (BitVec.ofNat 32 (4064 * i)) (slice b (4064 * i) 4064) ∈
      pageFrames ctx marker position k q b :=
  List.mem_map.mpr ⟨i, List.mem_range.mpr hi, rfl⟩

/-- A page that goes to storage: its frames are queued. -/
theorem sendStorage_spec (s : State) (g : Gen) (p : Nat) (b : Bytes) {l : Nat} (hl : dieLink s = some l) : let t := sendStorage s g p b
    OnlyTet s t.1 ∧ t.2.sent = g.sent ∧ t.2.saved = g.saved ∧ t.2.marker = g.marker ∧
      let k := pageShard g.shards 0 p
      ∀ i, i < 65 → TBody.page g.ctx g.marker g.position (BitVec.ofNat 32 k.1) (BitVec.ofNat 32 k.2) (BitVec.ofNat 32 (4064 * i))
        (slice (sealPage s g.marker g.position k.1 k.2 b) (4064 * i) 4064) ∈ (linkAt t.1 l).die.bulk := by
  obtain ⟨honly, -, -, hqueued⟩ := sendNode_spec s (pageFrames g.ctx g.marker g.position (pageShard g.shards 0 p).1 (pageShard g.shards 0 p).2
    (sealPage s g.marker g.position (pageShard g.shards 0 p).1 (pageShard g.shards 0 p).2 b))
  obtain ⟨honly', hkept, hsent, hsaved, hmarker⟩ := endShard_spec (sendNode s (pageFrames g.ctx g.marker g.position
      (pageShard g.shards 0 p).1 (pageShard g.shards 0 p).2 (sealPage s g.marker g.position (pageShard g.shards 0 p).1 (pageShard g.shards 0 p).2 b)))
    { g with stored := sset g.stored p (sealPage s g.marker g.position (pageShard g.shards 0 p).1 (pageShard g.shards 0 p).2 b) }
    (pageShard g.shards 0 p).1
  exact ⟨honly.trans honly', hsent, hsaved, hmarker, fun i hi => hkept _ _ (hqueued l hl _ (mem_pageFrames _ _ _ _ _ _ hi))⟩

/-- R481, R488: the engine queues the next page for storage, once every block of it verifies. -/
theorem runs_snapPageSend {s : State} {g : Gen} {p l : Nat} (hgen : s.snp.gen = some g) (hended : g.ended = false) (hdie : s.die = .serving)
    (hnext : nextPage g = some p) (hroute : toPartner g (pageShard g.shards 0 p).1 = false) (hverify : pageVerifies s g p = true)
    (hl : dieLink s = some l) : Runs .snapPageSend s fun t =>
      (∃ g', t.snp.gen = some g' ∧ g'.sent = p :: g.sent ∧ g'.saved = serase g.saved p ∧ g'.marker = g.marker) ∧
      (let k := pageShard g.shards 0 p
       ∀ i, i < 65 → TBody.page g.ctx g.marker g.position (BitVec.ofNat 32 k.1) (BitVec.ofNat 32 k.2) (BitVec.ofNat 32 (4064 * i))
         (slice (sealPage s g.marker g.position k.1 k.2 (pageContent s g p)) (4064 * i) 4064) ∈ (linkAt t l).die.bulk) ∧
      t.mem = s.mem ∧ t.brd = s.brd ∧ t.str = s.str := by
  have hsend : snapPageSend s = setSnp (sendStorage s (markSent g p) p (pageContent s g p)).1
      { (sendStorage s (markSent g p) p (pageContent s g p)).1.snp with gen := some (sendStorage s (markSent g p) p (pageContent s g p)).2 } := by
    unfold snapPageSend
    rw [hgen]
    simp only [hended, hdie, hnext, hverify, hroute, hl]
    rfl
  obtain ⟨honly, hsent, hsaved, hmarker, hqueued⟩ := sendStorage_spec s (markSent g p) p (pageContent s g p) hl
  generalize sendStorage s (markSent g p) p (pageContent s g p) = u at hsend honly hsent hsaved hmarker hqueued
  refine ⟨_, congrArg Host.Outcome.next hsend, ⟨u.2, rfl, hsent, hsaved, hmarker⟩, hqueued, ?_, ?_, ?_⟩
  · show u.1.mem = _
    rw [honly]
  · show u.1.brd = _
    rw [honly]
  · show u.1.str = _
    rw [honly]

/-- R483: at the end of copying the generation holds no page any more. -/
theorem runs_endOfCopying {s : State} {g : Gen} (us : Nat) (hgen : s.snp.gen = some g) (hended : g.ended = false) (hdone : copyDone g = true)
    (hhold : s.snp.hold = false) : Runs (.endOfCopying us) s fun t =>
      (∃ g', t.snp.gen = some g' ∧ g'.ended = true ∧ g'.saved = [] ∧ g'.marker = g.marker ∧ g'.answered = g.answered) ∧
      t.snp.stall = false ∧ copying t = false ∧ t.mem = s.mem := by
  obtain ⟨phase, hend⟩ : ∃ phase, endOfCopying s us = holdEnds (fenceDone (setSnp s { s.snp with
      gen := some { g with ended := true, kept := [], saved := [], phase := phase }, stall := false })) us := by
    unfold endOfCopying
    rw [hgen]
    simp only
    rw [if_neg (by simp [hended, hdone])]
    exact ⟨_, rfl⟩
  have hfence := onlyEnding_fenceDone (setSnp s { s.snp with
      gen := some { g with ended := true, kept := [], saved := [], phase := phase }, stall := false })
  generalize fenceDone (setSnp s { s.snp with
      gen := some { g with ended := true, kept := [], saved := [], phase := phase }, stall := false }) = u at hend hfence
  have hsnp := hfence.snp
  have hnone : holdEnds u us = u := if_neg (by rw [hsnp]; exact Bool.eq_false_iff.mp hhold)
  rw [hnone] at hend
  refine ⟨u, congrArg Host.Outcome.next hend, ⟨{ g with ended := true, kept := [], saved := [], phase := phase }, ?_, rfl, rfl, rfl, rfl⟩, ?_, ?_,
    hfence.mem⟩
  · rw [hsnp]; rfl
  · rw [hsnp]; rfl
  · rw [copying, hsnp]; rfl

/-- Settles O30: the clauses are the rules for SNAP, SNAP_FENCE, the copy engine and the end of copying. -/
theorem snaps : Obligations.Snaps := by
  unfold Obligations.Snaps
  refine ⟨⟨fun s hrun hstep => ⟨runs_snap_held hrun hstep, runs_snap_taken hrun hstep, runs_snap_refused hrun hstep⟩,
      fun s hstep hbegun => ⟨runs_snap_skipped hstep hbegun, runs_snap_unmarked hstep hbegun⟩⟩,
    fun s hbegun hidle => ⟨runs_snapFence hbegun hidle, runs_snapFence_waits hbegun hidle⟩,
    fun s g page a us hgen hended haddr hapart hcopied => ⟨runs_pagePush_held us hgen hended haddr hcopied,
      runs_pagePush us hgen hended haddr hapart hcopied⟩,
    fun s g p l => runs_snapPageSend, fun s g us => runs_endOfCopying us⟩

end Sys2Proof.Machine
end

section
/-!
Mirrors at a partner, relays, and the answers of storage (R244, R485 to R487, R490, R491, R494): O31.
-/
namespace Sys2Proof.Machine

/-! ## The partner's mirror (R485, R486) -/

/-- Does a partner take a mirror? -/
def MirrorTaken (s : State) (l : Nat) (bytes : BitVec 64) : Prop :=
  s.snp.partnerValid = true ∧ s.snp.partnerLead.toNat = l ∧ bytes.toNat ≤ mirrorRegion (img s) ∧ s.snp.mirror = none

theorem mirrorTaken_iff (s : State) (l : Nat) (bytes : BitVec 64) : MirrorTaken s l bytes ↔
    (s.snp.partnerValid && s.snp.partnerLead.toNat == l && decide (bytes.toNat ≤ mirrorRegion (img s)) && s.snp.mirror.isNone) = true := by
  simp [MirrorTaken, and_assoc]

/-- The mirror that a MIRROR_BEGIN names. -/
def mirrorOf (s : State) (a : Arrival) (marker jobId bytes : BitVec 64) (position : BitVec 32) : Mirror :=
  { lead := a.lead, marker := marker, jobId := jobId, bytes := bytes, position := position, ctx := s.str.gen }

section
variable {s : State} {a : Arrival} {marker jobId bytes : BitVec 64} {position : BitVec 32} (harrives : Arrives s a)
include harrives

/-- What a MIRROR_BEGIN that is accepted does. -/
theorem mirrorBegin_arrives : ∃ u, AcceptedOn s u a.lead a.seq ∧ mirrorBegin s a marker jobId bytes position =
    if (u.snp.partnerValid && u.snp.partnerLead.toNat == a.lead && decide (bytes.toNat ≤ mirrorRegion (img u)) && u.snp.mirror.isNone) = true then
      setSnp u { u.snp with mirror := some (mirrorOf u a marker jobId bytes position) }
    else leadSend (raise u 0x0B0C0003 .event (d8 marker.toNat ++ d4 a.lead)) a.lead .mirrorRefused := by
  refine ⟨bufferFreed s a 3, acceptedOn_bufferFreed s a 3, ?_⟩
  rw [mirrorBegin, onLead_arrives harrives]
  rfl

theorem runs_mirrorBegin (hok : MirrorTaken s a.lead bytes) : Runs (.mirrorBegin a marker jobId bytes position) s fun t => t.knl = s.knl ∧
    t.snp.mirror = some (mirrorOf s a marker jobId bytes position) := by
  obtain ⟨u, haccepted, hserve⟩ := mirrorBegin_arrives (marker := marker) (jobId := jobId) (bytes := bytes) (position := position) harrives
  have hrest := haccepted.rest
  have hok' : MirrorTaken u a.lead bytes := by rw [hrest]; exact hok
  refine ⟨_, congrArg Host.Outcome.next (hserve.trans (if_pos ((mirrorTaken_iff u a.lead bytes).mp hok'))), ?_, ?_⟩
  · show u.knl = _
    rw [hrest]
  · show some (mirrorOf u a marker jobId bytes position) = _
    rw [hrest]
    rfl

theorem runs_mirrorBegin_refused (hd : s.die ≠ .off) (hno : ¬ MirrorTaken s a.lead bytes) :
    Runs (.mirrorBegin a marker jobId bytes position) s fun t => t.snp.mirror = s.snp.mirror ∧
      OnItsWay t 0x0B0C0003 .event (natLE 8 marker.toNat ++ natLE 4 a.lead) s.sys.drill := by
  obtain ⟨u, haccepted, hserve⟩ := mirrorBegin_arrives (marker := marker) (jobId := jobId) (bytes := bytes) (position := position) harrives
  have hrest := haccepted.rest
  have hno' : ¬ MirrorTaken u a.lead bytes := by rw [hrest]; exact hno
  have hrefuse := hserve.trans (if_neg (mt (mirrorTaken_iff u a.lead bytes).mpr hno'))
  have hraise := raise_onlySnp (s := u) (code := 0x0B0C0003) (b := 4) (by rw [hrest]; exact hd) rfl (fun _ => rfl) .event
    (d8 marker.toNat ++ d4 a.lead)
  generalize raise u 0x0B0C0003 .event (d8 marker.toNat ++ d4 a.lead) = v at hrefuse hraise
  obtain ⟨lead, hsend⟩ := leadSend_eq v a.lead .mirrorRefused
  rw [hsend] at hrefuse
  refine ⟨_, congrArg Host.Outcome.next hrefuse, ?_, ?_⟩
  · show v.snp.mirror = _
    rw [hraise, hrest]
  · show _ ∈ v.knl.inflight
    rw [hraise, hrest]
    exact List.mem_append_right _ (List.mem_singleton.mpr rfl)

end

/-- R486: the frames of a mirror are written in order of arrival. -/
theorem runs_mirrorPage {s : State} {a : Arrival} {m : Mirror} {f : LeadFrame} (hcanon : Canonical s) (harrives : JobArrives s a)
    (hok : leadFrameOk f = true) (hcheck : f.check = crc32c f.payload) (hmirror : s.snp.mirror = some m) (hlead : m.lead = a.lead)
    (hroom : m.got + f.payload.length ≤ m.bytes.toNat) : Runs (.mirrorPage a f) s fun t => ∃ m', t.snp.mirror = some m' ∧
      m'.got = m.got + f.payload.length ∧ mread m'.data m.got f.payload.length = f.payload ∧
      (∀ x, x < m.got → mget m'.data x = mget m.data x) ∧ m'.relayed = m.relayed := by
  have hkept : (bufferFreed s a 2).snp.mirror = some m := by rw [(acceptedOn_bufferFreed s a 2).rest]; exact hmirror
  have hpage : mirrorPage s a f = setSnp (bufferFreed s a 2) { (bufferFreed s a 2).snp with
      mirror := some { m with got := m.got + f.payload.length, data := mwrite m.data m.got f.payload } } := by
    rw [mirrorPage, onData_arrives hok harrives hcheck]
    simp only [hkept]
    exact if_pos ⟨hlead, hroom⟩
  exact ⟨_, congrArg Host.Outcome.next hpage, _, rfl, rfl, mread_mwrite f.payload (hcanon.mirror m hmirror) m.got,
    fun x hx => mget_mwrite_outside f.payload m.data m.got x (Or.inl hx), rfl⟩

/-! ## Relays (R487) -/

/-- Frames that are queued for the node one batch after another. -/
theorem sendNodes_spec {α : Type} (frames : α → List TBody) (xs : List α) {s : State} {l : Nat} (hl : dieLink s = some l) :
    let t := xs.foldl (fun s x => sendNode s (frames x)) s
    OnlyTet s t ∧ dieLink t = some l ∧ (∀ b, b ∈ (linkAt s l).die.bulk → b ∈ (linkAt t l).die.bulk) ∧
      ∀ x ∈ xs, ∀ b ∈ frames x, b ∈ (linkAt t l).die.bulk := by
  induction xs generalizing s with
  | nil => exact ⟨.refl s, hl, fun _ h => h, nofun⟩
  | cons x xs ih =>
    obtain ⟨honly, hsame, hkept, hqueued⟩ := sendNode_spec s (frames x)
    obtain ⟨honly', hl', hkept', hqueued'⟩ := ih (hsame.trans hl)
    refine ⟨honly.trans honly', hl', fun b hb => hkept' b (hkept l b hb), fun y hy b hb => ?_⟩
    rcases List.mem_cons.mp hy with rfl | hy
    · exact hkept' b (hqueued l hl b hb)
    · exact hqueued' y hy b hb

/-- The sealed pages of a shard that is relayed. -/
def relayPages (s : State) (m : Mirror) (k n : Nat) : List Bytes :=
  (List.range n).map fun q => sealPage s m.marker m.position k q (mread m.data ((m.taken + q) * pageBytes) pageBytes)

/-- Their digest. -/
def relayDigest (s : State) (m : Mirror) (k n : Nat) : BitVec 256 := BitVec.ofNat 256 (leNat (sha256 (relayPages s m k n).flatten))

theorem getD_relayPages (s : State) (m : Mirror) (k : Nat) {n q : Nat} (hq : q < n) : (relayPages s m k n).getD q [] =
    sealPage s m.marker m.position k q (mread m.data ((m.taken + q) * pageBytes) pageBytes) := by
  simp [relayPages, List.getD_eq_getElem?_getD, hq]

/-- The state in which the pages of a relayed shard, and its SHARD_END, are queued. -/
def relayQueued (s : State) (m : Mirror) (k n : Nat) : State :=
  sendNode ((List.range n).foldl (fun u q => sendNode u (pageFrames m.ctx m.marker m.position k q ((relayPages s m k n).getD q []))) s)
    [.shardEnd m.ctx m.marker m.position (BitVec.ofNat 32 k) (BitVec.ofNat 32 n) (relayDigest s m k n)]

/-- The state in which the mirror counts the shard as relayed. -/
def relayCounted (u : State) (m : Mirror) (k n : Nat) (d : BitVec 256) : State :=
  setSnp u { u.snp with mirror := some { m with taken := m.taken + n, relayed := m.relayed ++ [(k, d)] } }

theorem relayShard_eq {s : State} {m : Mirror} {l k n : Nat} (hmirror : s.snp.mirror = some m) (hn : 0 < n) (hn' : n ≤ 4096)
    (hgot : (m.taken + n) * pageBytes ≤ m.got) (hnew : m.relayed.any (fun r => r.1 == k) = false) (hl : dieLink s = some l) :
    relayShard s k n = relayCounted (relayQueued s m k n) m k n (relayDigest s m k n) := by
  have hmay : ¬ (n = 0 ∨ 4096 < n ∨ m.got < (m.taken + n) * pageBytes ∨ m.relayed.any (fun r => r.1 == k) ∨ (dieLink s).isNone) := by
    simp [hnew, hl]
    omega
  simp only [relayShard, hmirror, relayCounted, relayQueued, relayDigest, relayPages, if_neg hmay]

/-- R487: a whole shard is queued for storage, its pages and its SHARD_END. -/
theorem runs_relayShard {s : State} {m : Mirror} {l k n : Nat} (hmirror : s.snp.mirror = some m) (hn : 0 < n) (hn' : n ≤ 4096)
    (hgot : (m.taken + n) * pageBytes ≤ m.got) (hnew : m.relayed.any (fun r => r.1 == k) = false) (hl : dieLink s = some l) :
    Runs (.relayShard k n) s fun t =>
      (∃ d, t.snp.mirror = some { m with taken := m.taken + n, relayed := m.relayed ++ [(k, d)] } ∧
        TBody.shardEnd m.ctx m.marker m.position (BitVec.ofNat 32 k) (BitVec.ofNat 32 n) d ∈ (linkAt t l).die.bulk) ∧
      (∀ q i, q < n → i < 65 →
        TBody.page m.ctx m.marker m.position (BitVec.ofNat 32 k) (BitVec.ofNat 32 q) (BitVec.ofNat 32 (4064 * i))
          (slice (sealPage s m.marker m.position k q (mread m.data ((m.taken + q) * pageBytes) pageBytes)) (4064 * i) 4064)
          ∈ (linkAt t l).die.bulk) := by
  obtain ⟨-, hl', -, hpages⟩ := sendNodes_spec (fun q => pageFrames m.ctx m.marker m.position k q ((relayPages s m k n).getD q []))
    (List.range n) hl
  obtain ⟨-, -, hkept, hqueued⟩ := sendNode_spec
    ((List.range n).foldl (fun u q => sendNode u (pageFrames m.ctx m.marker m.position k q ((relayPages s m k n).getD q []))) s)
    [.shardEnd m.ctx m.marker m.position (BitVec.ofNat 32 k) (BitVec.ofNat 32 n) (relayDigest s m k n)]
  have hend := hqueued l hl' _ (List.mem_singleton.mpr rfl)
  refine ⟨_, congrArg Host.Outcome.next (relayShard_eq hmirror hn hn' hgot hnew hl), ?_⟩
  generalize hu : relayQueued s m k n = u
  unfold relayQueued at hu
  rw [hu] at hend hkept
  generalize relayDigest s m k n = d at hend
  refine ⟨⟨d, rfl, hend⟩, fun q i hq hi => ?_⟩
  rw [← getD_relayPages s m k hq]
  exact hkept l _ (hpages q (List.mem_range.mpr hq) _ (mem_pageFrames _ _ _ _ _ _ hi))

/-! ## The partner refuses (R485) -/

/-- A generation that goes to storage whole has no shard for the partner. -/
theorem partnerShards_stored {g : Gen} (h : g.route = 1) : partnerShards g = [] := by
  simp [partnerShards, toPartner, h]

theorem runs_mirrorBeginRefused {s : State} {a : Arrival} {g : Gen} (hd : s.die ≠ .off) (harrives : Arrives s a) (hgen : s.snp.gen = some g)
    (hroute : 2 ≤ g.route) (hended : g.ended = false) (hlead : a.lead.val = s.snp.partnerLead.toNat) :
    Runs (.mirrorBeginRefused a) s fun t => OnItsWay t 0x070C0001 .event (natLE 8 g.marker.toNat) s.sys.drill ∧
      ∃ g', t.snp.gen = some g' ∧ g'.route = 1 ∧ partnerShards g' = [] ∧ g'.marker = g.marker := by
  have hrest := (acceptedOn_bufferFreed s a 3).rest
  have hserve : mirrorBeginRefused s a = storeAll (bufferFreed s a 3) g := by
    have hkept : (bufferFreed s a 3).snp = s.snp := by rw [hrest]
    rw [mirrorBeginRefused, onLead_arrives harrives]
    simp only [hkept, hgen]
    exact if_neg (by simp [hended, hlead]; omega)
  have hdie : (bufferFreed s a 3).die ≠ .off := by rw [hrest]; exact hd
  have hdrill : (bufferFreed s a 3).sys = s.sys := by rw [hrest]
  generalize bufferFreed s a 3 = u at hserve hdie hdrill
  unfold storeAll at hserve
  simp only at hserve
  rw [raise_onlySnp (by exact hdie) (b := 2) rfl fun _ => rfl] at hserve
  refine ⟨_, congrArg Host.Outcome.next hserve, ?_, _, rfl, rfl, partnerShards_stored rfl, rfl⟩
  rw [← hdrill]
  exact List.mem_append_right _ (List.mem_singleton.mpr rfl)

/-! ## The generation that an answer is for (R244, R490) -/

section
variable {s : State} (holder : s.snp.older = [])
include holder

/-- With no older generation, the one under way is the only one. -/
theorem findGen_only {g : Gen} (hgen : s.snp.gen = some g) {p : Gen → Bool} (hp : p g = true) : findGen s p = some (0, g) := by
  have hat : genAt s 0 = some g := by simp [genAt, holder, hgen]
  simp [findGen, holder, hat, hp]

theorem putGen_only (g : Option Gen) : putGen s 0 g = setSnp s { s.snp with gen := g } := by
  unfold putGen
  rw [holder]
  rfl

/-- The manifest is sent once every shard is answered; the generation has what was answered. -/
theorem checkManifest_only (g : Gen) : ∃ g', (checkManifest s 0 g).snp.gen = some g' ∧ g'.answered = g.answered ∧
    ((List.range g.shards.length).all (g.answered.contains ·) = true → g'.phase = .manifestSent) := by
  unfold checkManifest
  by_cases hall : g.phase ≠ .manifestSent ∧ (List.range g.shards.length).all (g.answered.contains ·) = true
  · obtain ⟨honly, -⟩ := sendNode_spec (putGen s 0 (some { g with phase := .manifestSent, manifest := manifestOf s g }))
      (manifestFrames g.ctx (manifestOf s g))
    rw [putGen_only holder] at honly
    simp only [if_pos hall]
    rw [putGen_only holder]
    refine ⟨{ g with phase := .manifestSent, manifest := manifestOf s g }, ?_, rfl, fun _ => rfl⟩
    rw [honly]
    rfl
  · simp only [if_neg hall]
    rw [putGen_only holder]
    refine ⟨g, rfl, rfl, fun hans => ?_⟩
    by_contra hphase
    exact hall ⟨hphase, hans⟩

end

/-- R244: no generation carries the context generation of the answer. -/
theorem findGen_none {s : State} {p : Gen → Bool} (h : ∀ g ∈ s.snp.older ++ s.snp.gen.toList, p g = false) : findGen s p = none := by
  refine List.findSome?_eq_none_iff.mpr fun i _ => ?_
  match hat : genAt s i with
  | none => rfl
  | some g =>
    have hmem : g ∈ s.snp.older ++ s.snp.gen.toList := by
      unfold genAt at hat
      split at hat
      · exact List.mem_append_left _ (List.mem_of_getElem? hat)
      · exact List.mem_append_right _ (by rw [hat]; exact List.mem_singleton.mpr rfl)
    simp only [h g hmem, Bool.false_eq_true, if_false]

/-! ## Storage's answers (R490, R491, R494) -/

theorem runs_shardStored {s : State} {g : Gen} {k : Nat} (holder : s.snp.older = []) (hgen : s.snp.gen = some g)
    (hsent : sget? g.digests k ≠ none) (hroute : toPartner g k = false) (hnew : k ∉ g.answered) :
    Runs (.shardStored g.ctx k false) s fun t => ∃ g', t.snp.gen = some g' ∧ g'.answered = k :: g.answered ∧
      ((List.range g.shards.length).all (fun j => (k :: g.answered).contains j) = true → g'.phase = .manifestSent) := by
  have hfind := findGen_only holder hgen
    (p := fun g' => g'.ctx == g.ctx && (sget? g'.digests k).isSome && !toPartner g' k && !g'.answered.contains k)
    (by simp [Option.isSome_iff_ne_none, hsent, hroute, hnew])
  have hstored : shardStored s g.ctx k false = checkManifest s 0 { g with answered := k :: g.answered } := by
    show ownStored s g.ctx k = _
    rw [ownStored, hfind]
  exact ⟨_, congrArg Host.Outcome.next hstored, checkManifest_only holder _⟩

/-- R487: storage has answered for one relayed shard; with the last one the relay ends. -/
theorem runs_relayStored {s : State} {m : Mirror} {k : Nat} (hmirror : s.snp.mirror = some m)
    (hrelayed : m.relayed.any (fun r => r.1 == k) = true) (hnew : k ∉ m.answered) : Runs (.shardStored m.ctx k true) s fun t =>
      if m.got = m.bytes.toNat ∧ m.taken * pageBytes = m.got ∧ m.relayed.all (fun r => (k :: m.answered).contains r.1) = true
      then t.snp.mirror = none else t.snp.mirror = some { m with answered := k :: m.answered } := by
  have hstored : shardStored s m.ctx k true = relayEnds s { m with answered := k :: m.answered } := by
    show relayStored s m.ctx k = _
    rw [relayStored, hmirror]
    exact if_pos (by simp only [beq_self_eq_true, hrelayed, Bool.true_and, Bool.not_eq_true']; simpa using hnew)
  refine ⟨_, congrArg Host.Outcome.next hstored, ?_⟩
  unfold relayEnds
  split
  case isTrue =>
    obtain ⟨lead, hsend⟩ := leadSend_eq (setSnp s { s.snp with mirror := none }) m.lead (.relayDone m.relayed)
    rw [hsend]
    rfl
  case isFalse => rfl

/-- R487, R490: RELAY_DONE brings the answers for the mirrored shards. -/
theorem runs_relayDone {s : State} {a : Arrival} {g : Gen} (ds : List (Nat × BitVec 256)) (holder : s.snp.older = [])
    (hgen : s.snp.gen = some g) (harrives : Arrives s a) (hlead : a.lead.val = s.snp.partnerLead.toNat)
    (hwait : ∃ k ∈ partnerShards g, k ∉ g.answered) : Runs (.relayDone a ds) s fun t => ∃ g', t.snp.gen = some g' ∧
      g'.answered = (ds.filter fun d => toPartner g d.1).map Prod.fst ++ g.answered := by
  have hkept : (bufferFreed s a 3).snp = s.snp := by rw [(acceptedOn_bufferFreed s a 3).rest]
  have hfind := findGen_only (s := bufferFreed s a 3) (by rw [hkept]; exact holder) (by rw [hkept]; exact hgen)
    (p := fun g => (partnerShards g).any fun k => !g.answered.contains k) (by
      obtain ⟨k, hk, hnew⟩ := hwait
      exact List.any_eq_true.mpr ⟨k, hk, by simpa using hnew⟩)
  obtain ⟨digests, hserve⟩ : ∃ digests, relayDone s a ds = checkManifest (bufferFreed s a 3) 0 { g with
      digests := digests, answered := (ds.filter fun d => toPartner g d.1).map Prod.fst ++ g.answered } := by
    refine ⟨(ds.filter fun d => toPartner g d.1).foldl (fun m d => sset m d.1 d.2) g.digests, ?_⟩
    rw [relayDone, onLead_arrives harrives, hfind]
    exact if_neg (by rw [hkept]; exact not_not.mpr hlead)
  obtain ⟨g', hgen', hans, -⟩ := checkManifest_only (s := bufferFreed s a 3) (by rw [hkept]; exact holder) { g with
    digests := digests, answered := (ds.filter fun d => toPartner g d.1).map Prod.fst ++ g.answered }
  exact ⟨_, congrArg Host.Outcome.next hserve, g', hgen', hans⟩

/-- R491: the generation whose manifest storage has is durable. -/
theorem runs_manifestStored {s : State} {g : Gen} (holder : s.snp.older = []) (hgen : s.snp.gen = some g) (hphase : g.phase = .manifestSent)
    (hended : g.ended = true) : Runs (.manifestStored g.ctx) s fun t => t.snp.durable = g.marker ∧ t.snp.gen = none ∧
      t.snp.event = s.snp.event ||| 1 ∧
      t = { s with snp := { s.snp with durable := t.snp.durable, gen := none, event := t.snp.event } } := by
  have hfind := findGen_only holder hgen (p := fun g' => g'.ctx == g.ctx && g'.phase == .manifestSent && g'.ended)
    (by simp [hphase, hended])
  have hstored : manifestStored s g.ctx = setEvent (setSnp (setSnp s { s.snp with gen := none })
      { (setSnp s { s.snp with gen := none }).snp with durable := g.marker }) .snp 0 := by
    rw [manifestStored, hfind, ← putGen_only holder]
  exact ⟨_, congrArg Host.Outcome.next hstored, rfl, rfl, rfl, rfl⟩

/-- R494: an abandoned generation is gone, and the last durable marker is as it was. -/
theorem abandon_only {s : State} (holder : s.snp.older = []) (hhold : s.snp.hold = false) : let t := abandon s 0
    t.snp.gen = none ∧ t.snp.durable = s.snp.durable := by
  have hput := putGen_only holder none
  unfold abandon
  simp only
  rw [hput]
  split
  · have hfence := (onlyEnding_fenceDone (untag (setSnp (setSnp s { s.snp with gen := none })
      { (setSnp s { s.snp with gen := none }).snp with stall := false }))).snp
    have hgo : ∀ u : State, u.snp.hold = false → holdEnds u 0 = u := fun u hu => if_neg (Bool.eq_false_iff.mp hu)
    rw [hgo _ (by rw [hfence]; exact hhold), hfence]
    exact ⟨rfl, rfl⟩
  · exact ⟨rfl, rfl⟩

theorem abandon_raised {s : State} {code b : Nat} (hd : s.die ≠ .off) (holder : s.snp.older = []) (hhold : s.snp.hold = false)
    (hb : eventBit code = some (.snp, b)) (hc : ∀ t, countCode t code = t) (detail : Bytes) :
    let t := abandon (raise s code .event detail) 0
    t.snp.gen = none ∧ t.snp.durable = s.snp.durable ∧ OnItsWay t code .event detail s.sys.drill := by
  have hraise := raise_onlySnp hd hb hc .event detail
  have hway := raise_onItsWay hd code .event detail
  generalize raise s code .event detail = u at hraise hway
  have hdie : u.die ≠ .off := by rw [hraise]; exact hd
  obtain ⟨hgen, hdurable⟩ := abandon_only (s := u) (by rw [hraise]; exact holder) (by rw [hraise]; exact hhold)
  exact ⟨hgen, hdurable.trans (by rw [hraise]), (staysDown_abandon hdie 0).onItsWay hway⟩

section
variable {s : State} {g : Gen} (hd : s.die ≠ .off) (holder : s.snp.older = []) (hgen : s.snp.gen = some g) (hhold : s.snp.hold = false)
include hd holder hgen hhold

theorem runs_storageFailed (hawaits : awaitsStorage g = true) : Runs (.storageFailed g.ctx) s fun t => t.snp.gen = none ∧
    t.snp.durable = s.snp.durable ∧ OnItsWay t 0x080C0001 .event (natLE 8 g.marker.toNat) s.sys.drill := by
  have hfind := findGen_only holder hgen (p := fun g' => g'.ctx == g.ctx && awaitsStorage g') (by simp [hawaits])
  have hfailed : storageFailed s g.ctx = abandon (raise s 0x080C0001 .event (d8 g.marker.toNat)) 0 := by rw [storageFailed, hfind]
  exact ⟨_, congrArg Host.Outcome.next hfailed, abandon_raised hd holder hhold (b := 1) rfl (fun _ => rfl) _⟩

theorem runs_ckptTimeout (hawaits : awaitsStorage g = true ∨ awaitsRelay g = true) : Runs .ckptTimeout s fun t => t.snp.gen = none ∧
    t.snp.durable = s.snp.durable ∧
    OnItsWay t (if awaitsStorage g = true then 0x080C0001 else 0x070C0002) .event (natLE 8 g.marker.toNat) s.sys.drill := by
  have hfind := findGen_only holder hgen (p := fun g => awaitsStorage g || awaitsRelay g) (Bool.or_eq_true_iff.mpr hawaits)
  have htimeout : ckptTimeout s = abandon (raise s (if awaitsStorage g = true then 0x080C0001 else 0x070C0002) .event (d8 g.marker.toNat)) 0 := by
    rw [ckptTimeout, hfind]
  by_cases hstorage : awaitsStorage g = true
  · rw [if_pos hstorage] at htimeout ⊢
    exact ⟨_, congrArg Host.Outcome.next htimeout, abandon_raised hd holder hhold (b := 1) rfl (fun _ => rfl) _⟩
  · rw [if_neg hstorage] at htimeout ⊢
    exact ⟨_, congrArg Host.Outcome.next htimeout, abandon_raised hd holder hhold (b := 3) rfl (fun _ => rfl) _⟩

end

/-- R244: an answer that carries another context generation has no effect. -/
theorem answers_otherContext {s : State} {ctx : BitVec 8} (h : ∀ g ∈ s.snp.older ++ s.snp.gen.toList, g.ctx ≠ ctx) :
    (∀ k, exec (.shardStored ctx k false) s = .next s) ∧ exec (.manifestStored ctx) s = .next s ∧ exec (.storageFailed ctx) s = .next s := by
  have hnone : ∀ q : Gen → Bool, findGen s (fun g => g.ctx == ctx && q g) = none := fun q =>
    findGen_none fun g hg => by simp [h g hg]
  refine ⟨fun k => congrArg Host.Outcome.next ?_, congrArg Host.Outcome.next ?_, congrArg Host.Outcome.next ?_⟩
  · have hown := hnone fun g => (sget? g.digests k).isSome && !toPartner g k && !g.answered.contains k
    simp only [← Bool.and_assoc] at hown
    show ownStored s ctx k = s
    rw [ownStored, hown]
  · have hsent := hnone fun g => g.phase == .manifestSent && g.ended
    simp only [← Bool.and_assoc] at hsent
    rw [manifestStored, hsent]
  · rw [storageFailed, hnone awaitsStorage]

/-- Settles O31: the clauses are the rules for the partner's frames, the relay and the answers of storage. -/
theorem mirrorsAndStorage : Obligations.MirrorsAndStorage := by
  unfold Obligations.MirrorsAndStorage
  refine ⟨⟨fun s a marker jobId bytes position hd harrives => ⟨runs_mirrorBegin harrives, runs_mirrorBegin_refused harrives hd⟩,
      fun s a m f hcanon harrives hok hcheck hmirror hlead hroom => runs_mirrorPage hcanon harrives hok hcheck hmirror hlead hroom,
      fun s m l k n => runs_relayShard, fun s a g => runs_mirrorBeginRefused⟩,
    fun s g k => runs_shardStored, fun s m k => runs_relayStored, fun s a g ds => runs_relayDone ds, fun s g => runs_manifestStored,
    fun s g hd holder hgen hhold => ⟨runs_storageFailed hd holder hgen hhold, runs_ckptTimeout hd holder hgen hhold⟩,
    fun s ctx => answers_otherContext⟩

end Sys2Proof.Machine
end

section
/-!
SUPPORT. What the round-up's operations do: its frames on the leads, READY, the keys, an accepted arm, cancel and disarm (R411 to
R419; log 50): O39 and O40.
-/
namespace Sys2Proof.Machine

/-! ## What a round-up may change -/

/-- From s to t only what a round-up is about changed: SYS_STATE, the round-up and the Tether's links, the leads, and what a code raised on the way
sets. -/
def OnlyRoundUp (s t : State) : Prop := t = { s with
  knl := { s.knl with inflight := t.knl.inflight }, sys := t.sys, shp := { s.shp with replace := t.shp.replace }, tet := t.tet
  lead := t.lead, tim := { s.tim with event := t.tim.event } }

theorem OnlyRoundUp.refl (s : State) : OnlyRoundUp s s := rfl

theorem OnlyRoundUp.trans {s t u : State} (h : OnlyRoundUp s t) (h' : OnlyRoundUp t u) : OnlyRoundUp s u := by
  unfold OnlyRoundUp at h h' ⊢
  rw [h', h]

theorem OnlyRoundUp.jobKept {s t : State} (h : OnlyRoundUp s t) : JobKept s t := by
  unfold OnlyRoundUp at h
  rw [h]
  exact ⟨rfl, rfl, rfl, rfl, rfl, rfl, rfl, rfl, rfl⟩

theorem OnlyRoundUp.die {s t : State} (h : OnlyRoundUp s t) : t.die = s.die := by
  unfold OnlyRoundUp at h
  rw [h]

theorem OnlyRoundUp.withdrawAtEnd {s t : State} (h : OnlyRoundUp s t) : t.knl.withdrawAtEnd = s.knl.withdrawAtEnd := by
  unfold OnlyRoundUp at h
  rw [h]

/-- What an operation does that sends frames on the leads: the leads alone change. -/
def OnlyLeads (s t : State) : Prop := t = { s with lead := { s.lead with lead := t.lead.lead } }

theorem OnlyLeads.trans {s t u : State} (h : OnlyLeads s t) (h' : OnlyLeads t u) : OnlyLeads s u := by
  unfold OnlyLeads at h h' ⊢
  rw [h', h]

theorem OnlyLeads.roundUp {s t : State} (h : OnlyLeads s t) : OnlyRoundUp s t := by
  unfold OnlyLeads at h
  rw [h]
  rfl

theorem onlyLeads_leadSend (s : State) (i : Nat) (b : TxBody) : OnlyLeads s (leadSend s i b) := by
  obtain ⟨lead, hsend⟩ := leadSend_eq s i b
  rw [hsend]
  rfl

theorem onlyLeads_leadSendAll (s : State) (is : List Nat) (b : TxBody) : OnlyLeads s (leadSendAll s is b) := by
  obtain ⟨lead, hsend⟩ := leadSendAll_eq s is b
  rw [hsend]
  rfl

theorem onlyLeads_toParent (s : State) (b : TxBody) : OnlyLeads s (toParent s b) := by
  unfold toParent
  split
  · exact onlyLeads_leadSend ..
  · rfl

theorem onlyRoundUp_notify (s : State) (reason : Reason) (code : Nat) : OnlyRoundUp s (notify s reason code) := by
  obtain ⟨link, held, period, serial, hnote⟩ := notify_eq s reason code
  rw [hnote]
  rfl

theorem onlyRoundUp_goState (s : State) (st : DevState) : OnlyRoundUp s (goState s st) := by
  obtain ⟨seq, repl, link, held, period, serial, hgo⟩ := goState_eq s st
  rw [hgo]
  rfl

/-! ## Frames already sent -/

theorem sent_txFrame (x : Lead) (ws : List (Nat × TxBody)) (b : TxBody) : x.sent <+: (txFrame { x with waiting := ws } b).sent :=
  List.prefix_append ..

theorem sent_pump (fuel : Nat) (x : Lead) : x.sent <+: (pump fuel x).sent := by
  induction fuel generalizing x with
  | zero => exact List.prefix_rfl
  | succ k ih =>
    unfold pump
    split
    · exact List.prefix_rfl
    · split
      · exact (sent_txFrame x _ _).trans (ih _)
      · exact List.prefix_rfl

/-- A further frame takes none of those sent away. -/
theorem sent_leadSend (s : State) (i : Nat) (b : TxBody) (j : Nat) : (leadAt s j).sent <+: (leadAt (leadSend s i b) j).sent := by
  by_cases hup : leadUp s i = true
  · by_cases hj : j = i
    · subst hj
      rw [leadSend_up hup, leadAt_setLead_same s (lt_of_leadUp hup), serveLead]
      split
      · exact List.prefix_rfl
      · exact sent_pump _ { leadAt s j with waiting := (leadAt s j).waiting ++ [(bodyClass b, b)] }
    · rw [leadAt_leadSend_other s hj]
  · rw [leadSend_down hup]

theorem sent_leadSendAll (s : State) (is : List Nat) (b : TxBody) (j : Nat) : (leadAt s j).sent <+: (leadAt (leadSendAll s is b) j).sent := by
  induction is generalizing s with
  | nil => exact List.prefix_rfl
  | cons i is ih => exact (sent_leadSend s i b j).trans (ih _)

theorem served_leadSendAll (s : State) (is : List Nat) (b : TxBody) (j : Nat) : Served (leadAt s j) (leadAt (leadSendAll s is b) j) := by
  induction is generalizing s with
  | nil => exact .refl _
  | cons i is ih => exact (served_leadSend s i b j).trans (ih _)

theorem leadAt_leadSendAll_other {s : State} {is : List Nat} {j : Nat} (h : j ∉ is) (b : TxBody) : leadAt (leadSendAll s is b) j = leadAt s j := by
  induction is generalizing s with
  | nil => rfl
  | cons i is ih =>
    rw [List.mem_cons, not_or] at h
    obtain ⟨hne, hrest⟩ := h
    exact (ih hrest).trans (leadAt_leadSend_other s hne b)

theorem served_toParent (s : State) (b : TxBody) (j : Nat) : Served (leadAt s j) (leadAt (toParent s b) j) := by
  unfold toParent
  split
  · exact served_leadSend ..
  · exact .refl _

/-- The root has no parent. -/
theorem toParent_root {s : State} (h : ruUp s = none) (b : TxBody) : toParent s b = s := by rw [toParent, h]

/-! ## READY (R413) -/

/-- From s to t the device may have reported READY, once. -/
structure Readied (s t : State) : Prop where
  only : t = { s with
    tet := { s.tet with phase := t.tet.phase, readySent := t.tet.readySent, link := t.tet.link, held := t.tet.held
                        period := t.tet.period, serial := t.tet.serial }
    lead := { s.lead with lead := t.lead.lead } }
  phase : t.tet.phase = s.tet.phase ∨ t.tet.phase = .ready
  leads : ∀ j, Served (leadAt s j) (leadAt t j)
  root : s.tet.root = true → t.lead = s.lead

theorem Readied.refl (s : State) : Readied s s := ⟨rfl, .inl rfl, fun _ => .refl _, fun _ => rfl⟩

theorem Readied.roundUp {s t : State} (h : Readied s t) : OnlyRoundUp s t := by
  obtain ⟨honly, -, -, -⟩ := h
  rw [honly]
  rfl

/-- The state in which the device is ready. -/
def madeReady (s : State) : State := { s with tet := { s.tet with phase := .ready, readySent := true } }

/-- May READY be reported? -/
def mayReady (s : State) : Bool := s.sys.st = .armed && s.tet.phase == .armed && !s.tet.readySent && ruReadyNow s

theorem checkReady_waits {s : State} (h : mayReady s = false) : checkReady s = s := if_neg (Bool.eq_false_iff.mp h)

theorem checkReady_reports {s : State} (h : mayReady s = true) : checkReady s =
    if s.tet.root = true then notify (madeReady s) .ready 0 else toParent (madeReady s) (.ruReport .ready (ownReport (madeReady s))) := if_pos h

theorem readied_checkReady (s : State) : Readied s (checkReady s) := by
  by_cases hmay : mayReady s = true
  · rw [checkReady_reports hmay]
    split
    case isTrue hroot =>
      obtain ⟨link, held, period, serial, hnote⟩ := notify_eq (madeReady s) .ready 0
      rw [hnote]
      exact ⟨rfl, .inr rfl, fun _ => .refl _, fun _ => rfl⟩
    case isFalse hroot =>
      have honly := onlyLeads_toParent (madeReady s) (.ruReport .ready (ownReport (madeReady s)))
      have hserved := served_toParent (madeReady s) (.ruReport .ready (ownReport (madeReady s)))
      generalize toParent (madeReady s) _ = t at honly hserved
      unfold OnlyLeads at honly
      refine ⟨?_, .inr ?_, hserved, fun h => absurd h hroot⟩
      · rw [honly]
        rfl
      · rw [honly]
        rfl
  · rw [checkReady_waits (Bool.eq_false_iff.mpr hmay)]
    exact .refl s

theorem phase_checkReady {s : State} (h : mayReady s = true) : (checkReady s).tet.phase = .ready := by
  rw [checkReady_reports h]
  split
  · obtain ⟨link, held, period, serial, hnote⟩ := notify_eq (madeReady s) .ready 0
    rw [hnote]
    rfl
  · have honly := onlyLeads_toParent (madeReady s) (.ruReport .ready (ownReport (madeReady s)))
    unfold OnlyLeads at honly
    rw [honly]
    rfl

/-- R413: every child has reported ready, and every lead that the job uses is keyed. -/
theorem ruReadyNow_iff (s : State) : ruReadyNow s = true ↔ (∀ i ∈ ruDown s, s.tet.childReady.getLsbD i = true) ∧
    ∀ i, i < 8 → jobUses s i = true → (leadAt s i).keyed = true := by
  rw [ruReadyNow, Bool.and_eq_true, List.all_eq_true, List.all_eq_true]
  simp only [bitOf_toNat, allLeads, List.mem_range, Bool.or_eq_true, Bool.not_eq_true', ← Bool.not_eq_true, ← imp_iff_not_or]

/-! ## Keys (R412; log 50) -/

/-- A lead that is keyed for an arm: SEQ from 0, the frames not yet acknowledged to be sent again. -/
def rekeyed (x : Lead) (key : BitVec 256) : Lead :=
  { x with key := some key, keyed := false, tx := 0, rx := 0, sent := [], old := x.old ++ x.sent, resend := none, nak := none }

theorem keyLead_eq {s : State} {k : JobKey} (h : s.sec.job = some k) (i : Nat) :
    keyLead s i = leadSend (setLead s i (rekeyed (leadAt s i) (leadKey s k s.tet.armId i))) i .keyConfirm := by
  rw [keyLead, h]
  rfl

theorem onlyLeads_keyLead (s : State) (i : Nat) : OnlyLeads s (keyLead s i) := by
  cases hjob : s.sec.job with
  | none =>
    rw [keyLead, hjob]
    rfl
  | some k =>
    rw [keyLead_eq hjob]
    have hset : OnlyLeads s (setLead s i (rekeyed (leadAt s i) (leadKey s k s.tet.armId i))) := rfl
    exact hset.trans (onlyLeads_leadSend ..)

theorem leadKey_congr {s t : State} (h : OnlyLeads s t) (k : JobKey) (armId : Word) (i : Nat) : leadKey t k armId i = leadKey s k armId i := by
  unfold OnlyLeads at h
  rw [h]
  rfl

theorem onlyLeads_keyLeads (s : State) (is : List Nat) : OnlyLeads s (is.foldl keyLead s) := by
  induction is generalizing s with
  | nil => rfl
  | cons i is ih => exact (onlyLeads_keyLead s i).trans (ih _)

theorem leadAt_keyLead_other {s : State} {i j : Nat} (h : j ≠ i) : leadAt (keyLead s i) j = leadAt s j := by
  cases hjob : s.sec.job with
  | none => rw [keyLead, hjob]
  | some k => rw [keyLead_eq hjob, leadAt_leadSend_other _ h, leadAt_setLead_other _ h]

theorem leadAt_keyLeads_other {s : State} {is : List Nat} {j : Nat} (h : j ∉ is) : leadAt (is.foldl keyLead s) j = leadAt s j := by
  induction is generalizing s with
  | nil => rfl
  | cons i is ih =>
    rw [List.mem_cons, not_or] at h
    obtain ⟨hne, hrest⟩ := h
    exact (ih hrest).trans (leadAt_keyLead_other hne)

/-- R412: each of the leads is keyed, once. -/
theorem leadAt_keyLeads {s : State} {k : JobKey} (hjob : s.sec.job = some k) {is : List Nat} (hnodup : is.Nodup) {i : Nat} (hi : i ∈ is)
    (hlt : i < 8) : Served (rekeyed (leadAt s i) (leadKey s k s.tet.armId i)) (leadAt (is.foldl keyLead s) i) := by
  induction is generalizing s with
  | nil => cases hi
  | cons j is ih =>
    obtain ⟨hnot, hnodup⟩ := List.nodup_cons.mp hnodup
    rw [List.foldl_cons]
    by_cases hij : i = j
    · subst hij
      rw [leadAt_keyLeads_other hnot, keyLead_eq hjob]
      have hserved := served_leadSend (setLead s i (rekeyed (leadAt s i) (leadKey s k s.tet.armId i))) i .keyConfirm i
      rwa [leadAt_setLead_same s hlt] at hserved
    · have honly := onlyLeads_keyLead s j
      have hjob' : (keyLead s j).sec.job = some k := by
        unfold OnlyLeads at honly
        rw [honly]
        exact hjob
      have harm : (keyLead s j).tet.armId = s.tet.armId := by
        unfold OnlyLeads at honly
        rw [honly]
      have hkeyed := ih hjob' hnodup ((List.mem_cons.mp hi).resolve_left hij)
      rwa [leadAt_keyLead_other hij, harm, leadKey_congr honly] at hkeyed

end Sys2Proof.Machine
end

section
/-!
SUPPORT. An accepted arm, the disarm and the cancel (R411, R412, R418, R419): O39 and O40.
-/
namespace Sys2Proof.Machine

/-! ## What the operations read -/

theorem jobNames_congr {s t : State} (h : t.str.image = s.str.image) (i : Nat) : jobNames t i = jobNames s i := by
  unfold jobNames loaded img
  rw [h]

theorem ruDown_congr {s t : State} (h : t.str.image = s.str.image) (hplan : t.tet.plan = s.tet.plan) : ruDown t = ruDown s := by
  unfold ruDown img
  rw [h, hplan]

theorem ruUp_congr {s t : State} (h : t.str.image = s.str.image) (hplan : t.tet.plan = s.tet.plan) : ruUp t = ruUp s := by
  unfold ruUp img
  rw [h, hplan]

theorem mem_jobLeads {s : State} {i : Nat} : i ∈ jobLeads s ↔ i < 8 ∧ leadUp s i = true ∧ jobNames s i = true := by
  simp [jobLeads, allLeads]

theorem leadKey_of_ids {s t : State} (hown : t.lead.activeId = s.lead.activeId) (hpeer : t.lead.peer = s.lead.peer) (k : JobKey) (armId : Word)
    (i : Nat) : leadKey t k armId i = leadKey s k armId i := by
  unfold leadKey ownId peerId
  rw [hown, hpeer]

theorem nodup_jobLeads (s : State) : (jobLeads s).Nodup := List.nodup_range.filter _

theorem leadUp_congr {s t : State} (h : t.lead.lead = s.lead.lead) (i : Nat) : leadUp t i = leadUp s i := by
  unfold leadUp
  rw [leadAt_congr h]

theorem lt_of_queued {s : State} {i : Nat} {b : TxBody} (h : Queued s i b) : i < 8 := by
  by_contra hi
  rw [Queued, leadAt_beyond s (Nat.le_of_not_lt hi)] at h
  cases h

/-! ## Disarm (R419) -/

/-- The state between the loss of the keys and HOLDING. -/
def planDropped (s : State) : State := { dropLeadKeys s with tet := { s.tet with
  phase := .idle, root := false, plan := 0xFFFF, depth := 0, children := 0, childReady := 0, readySent := false, deadline := 0, launch := 0 } }

theorem disarm_stays {s : State} (h : s.knl.withdrawAtEnd = false) : disarm s = goState (planDropped s) .holding := by
  have hstay : ¬(dropLeadKeys s).knl.withdrawAtEnd = true := by
    rw [show (dropLeadKeys s).knl = s.knl from rfl, h]
    decide
  exact if_neg hstay

theorem disarm_only {s : State} (h : s.knl.withdrawAtEnd = false) : OnlyRoundUp s (disarm s) ∧
    (disarm s).knl = s.knl ∧ (disarm s).lead = (dropLeadKeys s).lead := by
  have hdropped : OnlyRoundUp s (planDropped s) := rfl
  obtain ⟨seq, repl, link, held, period, serial, hgo⟩ := goState_eq (planDropped s) .holding
  rw [disarm_stays h]
  refine ⟨hdropped.trans (onlyRoundUp_goState ..), ?_, ?_⟩ <;> rw [hgo] <;> rfl

/-- A frame that may travel outside a job stays. -/
theorem queued_disarm {s : State} (h : s.knl.withdrawAtEnd = false) {i : Nat} {b : TxBody} (hb : outsideJob b = true) (hq : Queued s i b) :
    Queued (disarm s) i b := by
  have hlead : leadAt (dropLeadKeys s) i = _ := vget_map _ s.lead.lead (lt_of_queued hq) {}
  obtain ⟨-, -, hdropped⟩ := disarm_only h
  refine queued_congr (s := dropLeadKeys s) (by rw [hdropped]) ?_
  rw [Queued] at hq
  rw [Queued, hlead]
  refine List.mem_append.mpr ((List.mem_append.mp hq).imp ?_ ?_)
  · intro hsent
    obtain ⟨f, hf, rfl⟩ := List.mem_map.mp hsent
    exact List.mem_map.mpr ⟨f, List.mem_filter.mpr ⟨hf, hb⟩, rfl⟩
  · intro hwaits
    obtain ⟨w, hw, rfl⟩ := List.mem_map.mp hwaits
    exact List.mem_map.mpr ⟨w, List.mem_filter.mpr ⟨hw, hb⟩, rfl⟩

/-! ## Cancel (R418) -/

theorem onlyRoundUp_raiseTet {s : State} (h : s.die ≠ .off) {code b : Nat} (hb : eventBit code = some (.tet, b))
    (hc : ∀ t, countCode t code = t) (eff : Effect) (detail : Bytes) :
    OnlyRoundUp s (raise s code eff detail) ∧ (raise s code eff detail).lead = s.lead := by
  rw [raise_onlyTet h hb hc]
  exact ⟨rfl, rfl⟩

/-- What a cancel of an armed device makes of the state. -/
structure Cancelled (s t : State) (f : LaunchFrame) : Prop where
  disarmed : Disarmed t
  only : OnlyRoundUp s t
  inflight : t.knl.inflight = s.knl.inflight ++ [⟨0x080B0007, .event, d4 s.tet.armId.toNat, s.sys.drill⟩]
  frames : ∀ i, i < 8 → leadUp s i = true → jobNames s i = true → Queued t i (.ruFrame .cancel f)

theorem Cancelled.onItsWay {s t : State} {f : LaunchFrame} (h : Cancelled s t f) :
    OnItsWay t 0x080B0007 .event (natLE 4 s.tet.armId.toNat) s.sys.drill := by
  rw [OnItsWay, h.inflight]
  exact List.mem_append_right _ (List.mem_singleton.mpr rfl)

theorem Cancelled.keepsCode {s t : State} {f : LaunchFrame} (h : Cancelled s t f) {code : Nat} {eff : Effect} {detail : Bytes} {drill : Bool}
    (hway : OnItsWay s code eff detail drill) : OnItsWay t code eff detail drill := by
  rw [OnItsWay, h.inflight]
  exact List.mem_append_left _ hway

theorem cancelled_cancelWith {s : State} (hd : s.die ≠ .off) (hst : s.sys.st = .armed) (hstay : s.knl.withdrawAtEnd = false) (f : LaunchFrame) :
    Cancelled s (cancelWith s f) f := by
  have hcancel : cancelWith s f = disarm (notify (raise (leadSendAll s (jobLeads s) (.ruFrame .cancel f)) 0x080B0007 .event
    (d4 s.tet.armId.toNat)) .cancelled 0x080B0007) := if_pos hst
  have hqueued : ∀ i, i < 8 → leadUp s i = true → jobNames s i = true → Queued (leadSendAll s (jobLeads s) (.ruFrame .cancel f)) i
      (.ruFrame .cancel f) := fun i hi hup hnames => queued_leadSendAll (mem_jobLeads.mpr ⟨hi, hup, hnames⟩) hup _
  have hleads := onlyLeads_leadSendAll s (jobLeads s) (.ruFrame .cancel f)
  generalize leadSendAll s (jobLeads s) (.ruFrame .cancel f) = u at hcancel hqueued hleads
  have hdu : u.die ≠ .off := by rwa [hleads.roundUp.die]
  have hway := raise_inflight hdu 0x080B0007 .event (d4 s.tet.armId.toNat)
  obtain ⟨hraise, hlead⟩ := onlyRoundUp_raiseTet hdu (code := 0x080B0007) (b := 5) rfl (fun _ => rfl) .event (d4 s.tet.armId.toNat)
  generalize raise u 0x080B0007 .event (d4 s.tet.armId.toNat) = v at hcancel hway hraise hlead
  obtain ⟨link, held, period, serial, hnote⟩ := notify_eq v .cancelled 0x080B0007
  have honly := onlyRoundUp_notify v .cancelled 0x080B0007
  have hknl : (notify v .cancelled 0x080B0007).knl = v.knl := by rw [hnote]
  have hlead' : (notify v .cancelled 0x080B0007).lead = v.lead := by rw [hnote]
  generalize notify v .cancelled 0x080B0007 = w at hcancel honly hknl hlead'
  have hall : OnlyRoundUp s w := (hleads.roundUp.trans hraise).trans honly
  have hstay' : w.knl.withdrawAtEnd = false := hall.withdrawAtEnd.trans hstay
  obtain ⟨hdisarm, hknl', -⟩ := disarm_only hstay'
  rw [hcancel]
  refine ⟨disarmed_disarm hstay', hall.trans hdisarm, ?_, fun i hi hup hnames => queued_disarm hstay' rfl ?_⟩
  · unfold OnlyLeads at hleads
    rw [hknl', hknl, hway, hleads]
    rfl
  · exact queued_congr (by rw [hlead', hlead]) (hqueued i hi hup hnames)

theorem cancelled_cancelRoundUp {s : State} (hd : s.die ≠ .off) (hst : s.sys.st = .armed) (hstay : s.knl.withdrawAtEnd = false) :
    Cancelled s (cancelRoundUp s) (cancelFrame s s.tet.depth s.tet.plan s.tet.armId s.str.job) := cancelled_cancelWith hd hst hstay _

/-! ## Arm (R411, R412) -/

/-- The state of an accepted arm, before its frames go out. -/
def armTaken (s : State) (f : LaunchFrame) (way : Option Nat) : State :=
  goState { s with
    tet := { s.tet with
      phase := .armed, root := way.isNone, plan := f.plan, depth := f.depth, children := 0, childReady := 0, readySent := false,
      armedOnce := true, armId := f.armId, deadline := f.time.setWidth 48, launch := 0 }
    lead := { s.lead with abortSeen := false, abortSent := false } } .armed

/-- The state in which its acknowledgement and RU_ARM have gone out. -/
def armSent (s : State) (f : LaunchFrame) (way : Option Nat) : State :=
  leadSendAll (toParent (armTaken s f way) (.ruReport .armack (ownReport (armTaken s f way))))
    (ruDown (toParent (armTaken s f way) (.ruReport .armack (ownReport (armTaken s f way))))) (.ruFrame .arm f)

theorem acceptArm_eq (s : State) (f : LaunchFrame) (way : Option Nat) :
    acceptArm s f way = checkReady ((jobLeads (armSent s f way)).foldl keyLead (armSent s f way)) := rfl

/-- What an accepted arm sets. -/
structure Armed (s t : State) (f : LaunchFrame) (way : Option Nat) : Prop where
  only : OnlyRoundUp s t
  st : t.sys.st = .armed
  phase : t.tet.phase = .armed ∨ t.tet.phase = .ready
  root : t.tet.root = way.isNone
  plan : t.tet.plan = f.plan
  depth : t.tet.depth = f.depth
  armId : t.tet.armId = f.armId
  once : t.tet.armedOnce = true
  deadline : t.tet.deadline = f.time.setWidth 48

theorem armed_armTaken (s : State) (f : LaunchFrame) (way : Option Nat) : Armed s (armTaken s f way) f way ∧
    (armTaken s f way).lead = { s.lead with abortSeen := false, abortSent := false } := by
  obtain ⟨seq, repl, link, held, period, serial, hgo⟩ := goState_eq { s with
    tet := { s.tet with
      phase := .armed, root := way.isNone, plan := f.plan, depth := f.depth, children := 0, childReady := 0, readySent := false,
      armedOnce := true, armId := f.armId, deadline := f.time.setWidth 48, launch := 0 }
    lead := { s.lead with abortSeen := false, abortSent := false } } .armed
  rw [armTaken, hgo]
  exact ⟨⟨rfl, rfl, .inl rfl, rfl, rfl, rfl, rfl, rfl, rfl⟩, rfl⟩

theorem Armed.leads {s t u : State} {f : LaunchFrame} {way : Option Nat} (h : Armed s t f way) (h' : OnlyLeads t u) : Armed s u f way := by
  obtain ⟨honly, hst, hphase, hroot, hplan, hdepth, harm, honce, hdeadline⟩ := h
  have hroundUp := h'.roundUp
  unfold OnlyLeads at h'
  refine ⟨honly.trans hroundUp, ?_, ?_, ?_, ?_, ?_, ?_, ?_, ?_⟩ <;> rw [h'] <;> assumption

theorem Armed.readied {s t u : State} {f : LaunchFrame} {way : Option Nat} (h : Armed s t f way) (h' : Readied t u) : Armed s u f way := by
  obtain ⟨honly, hst, hphase, hroot, hplan, hdepth, harm, honce, hdeadline⟩ := h
  have hroundUp := h'.roundUp
  obtain ⟨hsame, hready, -, -⟩ := h'
  refine ⟨honly.trans hroundUp, ?_, ?_, ?_, ?_, ?_, ?_, ?_, ?_⟩
  case refine_2 => exact hready.elim (fun hp => by rwa [hp]) .inr
  all_goals
    rw [hsame]
    assumption

theorem onlyLeads_armSent (s : State) (f : LaunchFrame) (way : Option Nat) : OnlyLeads (armTaken s f way) (armSent s f way) :=
  (onlyLeads_toParent ..).trans (onlyLeads_leadSendAll ..)

theorem armed_acceptArm (s : State) (f : LaunchFrame) (way : Option Nat) : Armed s (acceptArm s f way) f way := by
  obtain ⟨harmed, -⟩ := armed_armTaken s f way
  rw [acceptArm_eq]
  exact ((harmed.leads (onlyLeads_armSent s f way)).leads (onlyLeads_keyLeads ..)).readied (readied_checkReady _)

/-! ### The leads of an arm -/

theorem served_armSent (s : State) (f : LaunchFrame) (way : Option Nat) (i : Nat) : Served (leadAt s i) (leadAt (armSent s f way) i) := by
  obtain ⟨-, hlead⟩ := armed_armTaken s f way
  rw [← leadAt_congr (t := armTaken s f way) (by rw [hlead])]
  exact (served_toParent ..).trans (served_leadSendAll ..)

theorem sent_toParent (s : State) (b : TxBody) (j : Nat) : (leadAt s j).sent <+: (leadAt (toParent s b) j).sent := by
  unfold toParent
  split
  · exact sent_leadSend ..
  · exact List.prefix_rfl

theorem sent_armSent (s : State) (f : LaunchFrame) (way : Option Nat) (i : Nat) : (leadAt s i).sent <+: (leadAt (armSent s f way) i).sent := by
  obtain ⟨-, hlead⟩ := armed_armTaken s f way
  rw [← leadAt_congr (t := armTaken s f way) (by rw [hlead])]
  exact (sent_toParent ..).trans (sent_leadSendAll ..)

theorem OnlyRoundUp.image {s t : State} (h : OnlyRoundUp s t) : t.str.image = s.str.image := by
  unfold OnlyRoundUp at h
  rw [h]

/-- R412: every up lead on which the job's frames may travel has the key of the arm, not yet confirmed, and SEQ from 0. -/
theorem keyed_acceptArm {s : State} {k : JobKey} (hjob : s.sec.job = some k) (f : LaunchFrame) (way : Option Nat) {i : Nat} (hi : i < 8)
    (hup : leadUp s i = true) (hnames : jobNames s i = true) :
    (leadAt (acceptArm s f way) i).key = some (leadKey s k f.armId i) ∧ (leadAt (acceptArm s f way) i).keyed = false ∧
    (leadAt (acceptArm s f way) i).rx = 0 ∧ (leadAt s i).old ++ (leadAt s i).sent <+: (leadAt (acceptArm s f way) i).old := by
  obtain ⟨harmed, hlead⟩ := armed_armTaken s f way
  have hsent := harmed.leads (onlyLeads_armSent s f way)
  have hown : (armSent s f way).lead.activeId = s.lead.activeId := by rw [onlyLeads_armSent s f way, hlead]
  have hpeer : (armSent s f way).lead.peer = s.lead.peer := by rw [onlyLeads_armSent s f way, hlead]
  have hserved := served_armSent s f way i
  have hprefix := sent_armSent s f way i
  rw [acceptArm_eq]
  generalize armSent s f way = u at hsent hserved hprefix hown hpeer
  have hmem : i ∈ jobLeads u := mem_jobLeads.mpr ⟨hi, hserved.up.trans hup, (jobNames_congr hsent.only.image i).trans hnames⟩
  have hjob' : u.sec.job = some k := by
    have honly := hsent.only
    unfold OnlyRoundUp at honly
    rwa [honly]
  have hkey : leadKey u k u.tet.armId i = leadKey s k f.armId i := by
    rw [hsent.armId, leadKey_of_ids hown hpeer]
  have hkeyed := (leadAt_keyLeads hjob' (nodup_jobLeads u) hmem hi).trans ((readied_checkReady _).leads i)
  rw [hkey] at hkeyed
  rw [Served] at hkeyed hserved
  rw [hkeyed]
  refine ⟨rfl, rfl, rfl, ?_⟩
  have hold : (leadAt u i).old = (leadAt s i).old := by rw [hserved]
  show (leadAt s i).old ++ (leadAt s i).sent <+: (leadAt u i).old ++ (leadAt u i).sent
  rw [hold]
  exact (List.prefix_append_right_inj _).mpr hprefix

theorem refusal_none_iff {p : Prop} [Decidable p] {x : Nat × Nat} {y : Option (Nat × Nat)} :
    (if p then some x else y) = none ↔ ¬p ∧ y = none := by
  by_cases hp : p <;> simp [hp]

theorem armWayOk_of_accepted {s : State} {f : LaunchFrame} {way : Option Nat} (h : armRefusal s f way = none) : armWayOk s f.plan way = true := by
  simp only [armRefusal, refusal_none_iff] at h
  obtain ⟨-, -, -, -, -, -, hway, -⟩ := h
  simpa using hway

/-- An arm by LAUNCH is the root's. -/
theorem ruUp_of_root {s : State} (h : armWayOk s s.tet.plan none = true) : ruUp s = none := by
  unfold armWayOk at h
  unfold ruUp
  split
  case isTrue => rfl
  case isFalse hplan =>
    rw [if_neg hplan] at h
    simp [beq_iff_eq.mp h]

/-- R412: at the root the other leads stay as they were, but those of its children. -/
theorem leadAt_acceptArm_root {s : State} {f : LaunchFrame} (h : armRefusal s f none = none) {i : Nat} (hnames : jobNames s i = false)
    (hdown : i ∉ ruDown (acceptArm s f none)) : leadAt (acceptArm s f none) i = leadAt s i := by
  obtain ⟨harmed, hlead⟩ := armed_armTaken s f none
  have haccepted := armed_acceptArm s f none
  have hroot : ruUp (armTaken s f none) = none := by
    refine ruUp_of_root ?_
    rw [harmed.plan]
    unfold armWayOk img
    rw [harmed.only.image]
    exact armWayOk_of_accepted h
  have hsent : armSent s f none = leadSendAll (armTaken s f none) (ruDown (armTaken s f none)) (.ruFrame .arm f) := by
    rw [armSent, toParent_root hroot]
  have hdowns : i ∉ ruDown (armTaken s f none) := by
    rwa [ruDown_congr (s := acceptArm s f none) (harmed.only.image.trans haccepted.only.image.symm) (harmed.plan.trans haccepted.plan.symm)]
  have hkept : leadAt (armSent s f none) i = leadAt s i := by
    rw [hsent, leadAt_leadSendAll_other hdowns, leadAt_congr (s := s) (by rw [hlead])]
  have hmine := harmed.leads (onlyLeads_armSent s f none)
  rw [acceptArm_eq]
  generalize armSent s f none = u at hkept hmine
  have hnot : i ∉ jobLeads u := by
    rw [mem_jobLeads, jobNames_congr hmine.only.image, hnames]
    exact fun hin => Bool.false_ne_true hin.2.2
  have hkeys := hmine.leads (onlyLeads_keyLeads u (jobLeads u))
  have hready := (readied_checkReady ((jobLeads u).foldl keyLead u)).root hkeys.root
  rw [leadAt_congr (s := (jobLeads u).foldl keyLead u) (by rw [hready]), leadAt_keyLeads_other hnot, hkept]

/-! ## The codes of a launch -/

/-- The codes with which a launch or an arm is refused. -/
def launchCodes : List Nat := [0x0C0A0005, 0x0708000B, 0x080B0004, 0x080B0005, 0x0A0B0001, 0x0B05000E]

/-- What raising one of them leaves: the round-up but for its EVENT bits, the leads, and SYS_STATE. -/
structure Refuses (s t : State) : Prop where
  only : OnlyRoundUp s t
  sys : t.sys = s.sys
  tet : t.tet = { s.tet with event := t.tet.event }
  lead : t.lead = { s.lead with event := t.lead.event }

theorem refuses_raise {s : State} (hd : s.die ≠ .off) {code : Nat} (hcode : code ∈ launchCodes) (eff : Effect) (detail : Bytes) :
    Refuses s (raise s code eff detail) := by
  have hev : eventBit code = none ∨ ∃ u b, eventBit code = some (u, b) ∧ (u = .tet ∨ u = .tim ∨ u = .lead) := by
    simp only [launchCodes, List.mem_cons, List.not_mem_nil, or_false] at hcode
    rcases hcode with rfl | rfl | rfl | rfl | rfl | rfl
    · exact .inr ⟨_, _, rfl, .inr (.inl rfl)⟩
    · exact .inr ⟨_, _, rfl, .inr (.inr rfl)⟩
    · exact .inr ⟨_, _, rfl, .inl rfl⟩
    · exact .inr ⟨_, _, rfl, .inl rfl⟩
    · exact .inr ⟨_, _, rfl, .inl rfl⟩
    · exact .inl rfl
  have hc : ∀ t, countCode t code = t := by
    simp only [launchCodes, List.mem_cons, List.not_mem_nil, or_false] at hcode
    rcases hcode with rfl | rfl | rfl | rfl | rfl | rfl <;> exact fun _ => rfl
  rcases hev with hnone | ⟨u, b, hsome, hu⟩
  · rw [raise_noEvent hd hnone hc]
    exact ⟨rfl, rfl, rfl, rfl⟩
  · rw [raise_released hd hsome hc]
    rcases hu with rfl | rfl | rfl <;> exact ⟨rfl, rfl, rfl, rfl⟩

theorem armRefusal_code {s : State} {f : LaunchFrame} {way : Option Nat} {code cond : Nat} (h : armRefusal s f way = some (code, cond)) :
    code ∈ launchCodes := by
  unfold armRefusal at h
  repeat' split at h
  all_goals cases h
  all_goals decide

end Sys2Proof.Machine
end

section
/-!
ARM, COMMIT and CANCEL at the root, and the ends of a round-up (R243, R333, R387, R411, R412, R414 to R419, R570, R642; logs 50, 51, 110, 113): O39.
-/
namespace Sys2Proof.Machine

/-! ## A launch that is refused -/

theorem runs_refuseLaunch {c : Instr} {s : State} {r : Req} {code detail : Nat} {eff : Effect} (hd : s.die ≠ .off) (hcode : code ∈ launchCodes)
    (hserve : exec c s = .next (refuseLaunch (tetRecv s r.link kLaunch.shp) r code eff detail)) : Runs c s fun t =>
      Answered s t r kLaunch 1 (natLE 4 code) ∧ OnItsWay t code eff (natLE 4 detail) s.sys.drill ∧ t.sys = s.sys ∧
      t.tet.phase = s.tet.phase ∧ t.tet.launch = s.tet.launch ∧ JobKept s t := by
  have hway : OnItsWay (raise (tetRecv s r.link kLaunch.shp) code eff (natLE 4 detail)) code eff (natLE 4 detail) s.sys.drill :=
    raise_onItsWay (s := tetRecv s r.link kLaunch.shp) hd code eff (natLE 4 detail)
  obtain ⟨honly, hsys, htet, -⟩ := refuses_raise (s := tetRecv s r.link kLaunch.shp) hd hcode eff (natLE 4 detail)
  have hserve' : exec c s = .next (respond (raise (tetRecv s r.link kLaunch.shp) code eff (natLE 4 detail)) r kLaunch.shp kLaunch.type 1
      (natLE 4 code)) := hserve
  generalize raise (tetRecv s r.link kLaunch.shp) code eff (natLE 4 detail) = u at hway honly hsys htet hserve'
  have hkept : JobKept s u := OnlyRoundUp.jobKept (s := tetRecv s r.link kLaunch.shp) honly
  exact runs_respond hserve' (by rw [htet]) fun link hans =>
    ⟨hans, hway, hsys, by rw [htet]; rfl, by rw [htet]; rfl, hkept⟩

theorem armRefusal_tetRecv (s : State) (l : Nat) (shp : Bool) (f : LaunchFrame) (way : Option Nat) :
    armRefusal (tetRecv s l shp) f way = armRefusal s f way := rfl

theorem isSome_of_lfAuthOk {s : State} {f : LaunchFrame} (h : lfAuthOk s f = true) : s.sec.job.isNone = false := by
  unfold lfAuthOk at h
  cases hjob : s.sec.job with
  | none =>
    rw [hjob] at h
    cases h
  | some k => rfl

theorem launchFieldBad_form {s : State} {f : LaunchFrame} {kind : BitVec 8} (h : LaunchForm s f kind) (hkind : kind = 1 ∨ kind = 2 ∨ kind = 3) :
    launchFieldBad f = none := by
  obtain ⟨-, hk, hreserved, htime⟩ := h
  have hfits : f.time.toNat / 2 ^ 48 = 0 := Nat.div_eq_of_lt htime
  rcases hkind with rfl | rfl | rfl <;> simp only [launchFieldBad, hk, hreserved, hfits] <;> decide

/-! ## The cases of COMMIT at the root (R414; logs 110, 113) -/

theorem commitAtRoot_committed {u : State} {r : Req} {f : LaunchFrame} (hst : u.sys.st = .armed) (hroot : u.tet.root = true)
    (hphase : u.tet.phase = .committed) (harm : f.armId = u.tet.armId) : commitAtRoot u r f =
      if f.time.setWidth 48 = u.tet.launch then done u r kLaunch else respondCode (cancelRoundUp u) r false 7 0x080B0007 :=
  if_pos ⟨hst, hroot, hphase, harm⟩

section
variable {u : State} {r : Req} {f : LaunchFrame} (hvalid : u.tim.valid = true)
include hvalid

theorem commitAtRoot_past (hphase : u.tet.phase ≠ .committed) (hahead : timeAhead u (f.time.setWidth 48) = false) :
    commitAtRoot u r f = refuseLaunch u r 0x0B05000E .refused u.tet.armId.toNat := by
  simp only [commitAtRoot, hphase, hvalid, hahead, false_and, and_false, if_false, Bool.not_true, Bool.not_false, Bool.false_eq_true, if_true]

theorem commitAtRoot_early (hphase : u.tet.phase ≠ .committed) (hahead : timeAhead u (f.time.setWidth 48) = true)
    (hbar : u.tet.phase ≠ .ready ∨ diff48 (f.time.setWidth 48) u.tim.counter < ruMargin u) :
    commitAtRoot u r f = refuseLaunch u r 0x080B0005 .refused u.tet.armId.toNat := by
  have hno : u.sys.st ≠ .armed ∨ !u.tet.root ∨ u.tet.phase ≠ .ready ∨ f.armId ≠ u.tet.armId ∨ deadlinePassed u
      ∨ diff48 (f.time.setWidth 48) u.tim.counter < ruMargin u := by
    rcases hbar with hbar | hbar
    · exact .inr (.inr (.inl hbar))
    · exact .inr (.inr (.inr (.inr (.inr hbar))))
  simp only [commitAtRoot, hphase, hvalid, hahead, false_and, and_false, if_false, Bool.not_true, Bool.false_eq_true, if_pos hno]

theorem commitAtRoot_sets (hahead : timeAhead u (f.time.setWidth 48) = true) (hst : u.sys.st = .armed) (hroot : u.tet.root = true)
    (hphase : u.tet.phase = .ready) (harm : f.armId = u.tet.armId) (hdeadline : deadlinePassed u = false)
    (hmargin : ruMargin u ≤ diff48 (f.time.setWidth 48) u.tim.counter) :
    commitAtRoot u r f = leadSendAll (done (setLaunch u (f.time.setWidth 48)) r kLaunch) (ruDown u) (.ruFrame .commit f) := by
  simp only [commitAtRoot, hphase, hvalid, hahead, hst, hroot, harm, hdeadline, Int.not_lt.mpr hmargin]
  simp

end

section
variable {s : State} {r : Req} {f : LaunchFrame} (h : Admits s r kLaunch)
include h

theorem die_of_launch : s.die ≠ .off := by
  obtain ⟨-, -, -, hdie, -⟩ := h
  rw [hdie rfl]
  nofun

/-- R642: what a frame does whose AUTH verifies and whose fields have a form. -/
theorem launch_served (hauth : lfAuthOk s f = true) (hform : launchFieldBad f = none) : launch s r f =
    if f.kind = 1 then armAtRoot (tetRecv s r.link kLaunch.shp) r f
    else if f.kind = 2 then commitAtRoot (tetRecv s r.link kLaunch.shp) r f
    else done (cancelWith (tetRecv s r.link kLaunch.shp) f) r kLaunch := by
  have hjob : (tetRecv s r.link kLaunch.shp).sec.job.isNone = false := isSome_of_lfAuthOk hauth
  have hauth' : lfAuthOk (tetRecv s r.link kLaunch.shp) f = true := hauth
  rw [launch, request_admitted h]
  simp only [hjob, hauth', hform, Bool.not_true, Bool.false_eq_true, if_false]

theorem launch_unauthentic {k : JobKey} (hjob : s.sec.job = some k) (hauth : lfAuthOk s f = false) :
    launch s r f = refuseLaunch (tetRecv s r.link kLaunch.shp) r 0x0A0B0001 .event f.armId.toNat := by
  have hjob' : (tetRecv s r.link kLaunch.shp).sec.job.isNone = false := congrArg Option.isNone hjob
  have hauth' : lfAuthOk (tetRecv s r.link kLaunch.shp) f = false := hauth
  rw [launch, request_admitted h]
  simp only [hjob', hauth', Bool.not_false, Bool.false_eq_true, if_false, if_true]

theorem launch_malformed (hauth : lfAuthOk s f = true) {off : Nat} (hoff : launchFieldBad f = some off) :
    launch s r f = refuseLaunch (tetRecv s r.link kLaunch.shp) r 0x080B0004 .refused off := by
  have hjob : (tetRecv s r.link kLaunch.shp).sec.job.isNone = false := isSome_of_lfAuthOk hauth
  have hauth' : lfAuthOk (tetRecv s r.link kLaunch.shp) f = true := hauth
  rw [launch, request_admitted h]
  simp only [hjob, hauth', hoff, Bool.not_true, Bool.false_eq_true, if_false]

/-! ## ARM (R411, R412) -/

theorem launch_arm (hform : LaunchForm s f 1) : launch s r f = armAtRoot (tetRecv s r.link kLaunch.shp) r f := by
  obtain ⟨hauth, hkind, -⟩ := id hform
  rw [launch_served h hauth (launchFieldBad_form hform (.inl rfl)), if_pos hkind]

theorem runs_launchArm {k : JobKey} (hjob : s.sec.job = some k) (hform : LaunchForm s f 1) (hrefusal : armRefusal s f none = none) :
    Runs (.launchArm r f) s fun t =>
      Answers t r kLaunch 0 [] ∧ t.sys.st = .armed ∧ (t.tet.phase = .armed ∨ t.tet.phase = .ready) ∧ t.tet.root = true ∧
      t.tet.plan = f.plan ∧ t.tet.depth = f.depth ∧ t.tet.armId = f.armId ∧ t.tet.armedOnce = true ∧
      t.tet.deadline = f.time.setWidth 48 ∧ JobKept s t ∧
      (∀ i, i < 8 → leadUp s i = true → jobNames s i = true →
        (leadAt t i).key = some (leadKey s k f.armId i) ∧ (leadAt t i).keyed = false ∧ (leadAt t i).rx = 0 ∧
        (leadAt s i).old ++ (leadAt s i).sent <+: (leadAt t i).old) ∧
      (∀ i, i < 8 → leadUp s i = true → jobNames s i = false → i ∉ ruDown t → leadAt t i = leadAt s i) := by
  have hserve : launch s r f = done (acceptArm (tetRecv s r.link kLaunch.shp) f none) r kLaunch := by
    rw [launch_arm h hform, armAtRoot, armRefusal_tetRecv, hrefusal]
  have harmed := armed_acceptArm (tetRecv s r.link kLaunch.shp) f none
  have hkeys : ∀ i, i < 8 → leadUp s i = true → jobNames s i = true → _ := fun i =>
    keyed_acceptArm (s := tetRecv s r.link kLaunch.shp) hjob f none (i := i)
  have hothers : ∀ i, jobNames s i = false → _ := fun i =>
    leadAt_acceptArm_root (s := tetRecv s r.link kLaunch.shp) (f := f) hrefusal (i := i)
  generalize acceptArm (tetRecv s r.link kLaunch.shp) f none = u at hserve harmed hkeys hothers
  obtain ⟨honly, hst, hphase, hroot, hplan, hdepth, harm, honce, hdeadline⟩ := harmed
  have hkept : JobKept s u := OnlyRoundUp.jobKept (s := tetRecv s r.link kLaunch.shp) honly
  exact ⟨_, congrArg Host.Outcome.next hserve, answers_respond u r kLaunch 0 [], hst, hphase, hroot, hplan, hdepth, harm, honce, hdeadline, hkept,
    hkeys, fun i _ _ => hothers i⟩

theorem runs_launchArm_refused (hform : LaunchForm s f 1) {code cond : Nat} (hrefusal : armRefusal s f none = some (code, cond)) :
    Runs (.launchArm r f) s fun t => Answered s t r kLaunch 1 (natLE 4 code) ∧ OnItsWay t code .refused (natLE 4 cond) s.sys.drill ∧
      t.sys = s.sys ∧ t.tet.phase = s.tet.phase ∧ JobKept s t := by
  have hserve : launch s r f = refuseLaunch (tetRecv s r.link kLaunch.shp) r code .refused cond := by
    rw [launch_arm h hform, armAtRoot, armRefusal_tetRecv, hrefusal]
  obtain ⟨t, ht, hans, hway, hsys, hphase, -, hkept⟩ :=
    runs_refuseLaunch (c := .launchArm r f) (die_of_launch h) (armRefusal_code hrefusal) (congrArg Host.Outcome.next hserve)
  exact ⟨t, ht, hans, hway, hsys, hphase, hkept⟩

/-! ## COMMIT (R414 to R416, R243) -/

theorem launch_commit (hform : LaunchForm s f 2) : launch s r f = commitAtRoot (tetRecv s r.link kLaunch.shp) r f := by
  obtain ⟨hauth, hkind, -⟩ := id hform
  rw [launch_served h hauth (launchFieldBad_form hform (.inr (.inl rfl))), if_neg (by rw [hkind]; decide), if_pos hkind]

theorem runs_launchCommit (hform : LaunchForm s f 2) (hvalid : s.tim.valid = true) (hahead : timeAhead s (f.time.setWidth 48) = true)
    (hst : s.sys.st = .armed) (hroot : s.tet.root = true) (hphase : s.tet.phase = .ready) (harm : f.armId = s.tet.armId)
    (hdeadline : deadlinePassed s = false) (hmargin : ruMargin s ≤ diff48 (f.time.setWidth 48) s.tim.counter) :
    Runs (.launchCommit r f) s fun t => Answers t r kLaunch 0 [] ∧ t.tet.launch = f.time.setWidth 48 ∧ t.tet.phase = .committed ∧
      t.tet.children = 0 ∧ (∀ i ∈ ruDown s, leadUp s i = true → Queued t i (.ruFrame .commit f)) ∧ t.sys = s.sys ∧ JobKept s t := by
  have hserve := launch_commit h hform
  rw [commitAtRoot_sets (u := tetRecv s r.link kLaunch.shp) hvalid hahead hst hroot hphase harm hdeadline hmargin] at hserve
  have hans := answers_respond (setLaunch (tetRecv s r.link kLaunch.shp) (f.time.setWidth 48)) r kLaunch 0 []
  have hset : OnlyRoundUp s (done (setLaunch (tetRecv s r.link kLaunch.shp) (f.time.setWidth 48)) r kLaunch) := rfl
  have htet : (done (setLaunch (tetRecv s r.link kLaunch.shp) (f.time.setWidth 48)) r kLaunch).tet.launch = f.time.setWidth 48 ∧
      (done (setLaunch (tetRecv s r.link kLaunch.shp) (f.time.setWidth 48)) r kLaunch).tet.phase = .committed ∧
      (done (setLaunch (tetRecv s r.link kLaunch.shp) (f.time.setWidth 48)) r kLaunch).tet.children = 0 := ⟨rfl, rfl, rfl⟩
  have hsys : (done (setLaunch (tetRecv s r.link kLaunch.shp) (f.time.setWidth 48)) r kLaunch).sys = s.sys := rfl
  have hlead : (done (setLaunch (tetRecv s r.link kLaunch.shp) (f.time.setWidth 48)) r kLaunch).lead = s.lead := rfl
  have hdown : ruDown (tetRecv s r.link kLaunch.shp) = ruDown s := rfl
  rw [hdown] at hserve
  change Answers (done (setLaunch (tetRecv s r.link kLaunch.shp) (f.time.setWidth 48)) r kLaunch) r kLaunch 0 [] at hans
  generalize done (setLaunch (tetRecv s r.link kLaunch.shp) (f.time.setWidth 48)) r kLaunch = v at hserve hans hset htet hsys hlead
  obtain ⟨hlaunch, hcommitted, hchildren⟩ := htet
  have honly := onlyLeads_leadSendAll v (ruDown s) (.ruFrame .commit f)
  have hkept := (hset.trans honly.roundUp).jobKept
  have hqueued : ∀ i ∈ ruDown s, leadUp s i = true → Queued (leadSendAll v (ruDown s) (.ruFrame .commit f)) i (.ruFrame .commit f) :=
    fun i hi hup => queued_leadSendAll hi ((leadUp_congr (by rw [hlead]) i).trans hup) _
  have hsame : (leadSendAll v (ruDown s) (.ruFrame .commit f)).tet = v.tet ∧ (leadSendAll v (ruDown s) (.ruFrame .commit f)).sys = v.sys := by
    unfold OnlyLeads at honly
    rw [honly]
    exact ⟨rfl, rfl⟩
  obtain ⟨htet, hsys'⟩ := hsame
  refine ⟨_, congrArg Host.Outcome.next hserve, ?_, by rw [htet, hlaunch], by rw [htet, hcommitted], by rw [htet, hchildren], hqueued,
    by rw [hsys', hsys], hkept⟩
  obtain ⟨q, hq⟩ := hans
  exact ⟨q, by rwa [sess_congr (s := v) (by rw [htet])]⟩

theorem runs_launchCommit_refused (hform : LaunchForm s f 2) (hvalid : s.tim.valid = true) (hphase : s.tet.phase ≠ .committed)
    (hahead : timeAhead s (f.time.setWidth 48) = true)
    (hbar : s.tet.phase ≠ .ready ∨ diff48 (f.time.setWidth 48) s.tim.counter < ruMargin s) : Runs (.launchCommit r f) s fun t =>
      Answered s t r kLaunch 1 (natLE 4 0x080B0005) ∧ OnItsWay t 0x080B0005 .refused (natLE 4 s.tet.armId.toNat) s.sys.drill ∧
      t.tet.phase = s.tet.phase ∧ t.tet.launch = s.tet.launch := by
  have hserve := launch_commit h hform
  rw [commitAtRoot_early (u := tetRecv s r.link kLaunch.shp) hvalid hphase hahead hbar] at hserve
  obtain ⟨t, ht, hans, hway, -, hphase', hlaunch, -⟩ :=
    runs_refuseLaunch (c := .launchCommit r f) (die_of_launch h) (by decide) (congrArg Host.Outcome.next hserve)
  exact ⟨t, ht, hans, hway, hphase', hlaunch⟩

theorem runs_launchCommit_past (hform : LaunchForm s f 2) (hvalid : s.tim.valid = true) (hphase : s.tet.phase ≠ .committed)
    (hahead : timeAhead s (f.time.setWidth 48) = false) : Runs (.launchCommit r f) s fun t =>
      Answered s t r kLaunch 1 (natLE 4 0x0B05000E) ∧ OnItsWay t 0x0B05000E .refused (natLE 4 s.tet.armId.toNat) s.sys.drill ∧
      t.tet.phase = s.tet.phase ∧ t.tet.launch = s.tet.launch := by
  have hserve := launch_commit h hform
  rw [commitAtRoot_past (u := tetRecv s r.link kLaunch.shp) hvalid hphase hahead] at hserve
  obtain ⟨t, ht, hans, hway, -, hphase', hlaunch, -⟩ :=
    runs_refuseLaunch (c := .launchCommit r f) (die_of_launch h) (by decide) (congrArg Host.Outcome.next hserve)
  exact ⟨t, ht, hans, hway, hphase', hlaunch⟩

theorem runs_launchCommit_again (hform : LaunchForm s f 2) (hst : s.sys.st = .armed) (hroot : s.tet.root = true) (hphase : s.tet.phase = .committed)
    (harm : f.armId = s.tet.armId) (htime : f.time.setWidth 48 = s.tet.launch) : Runs (.launchCommit r f) s fun t =>
      Answered s t r kLaunch 0 [] ∧ t = { s with tet := { s.tet with link := t.tet.link } } := by
  have hserve := launch_commit h hform
  rw [commitAtRoot_committed (u := tetRecv s r.link kLaunch.shp) hst hroot hphase harm] at hserve
  replace hserve := hserve.trans (if_pos htime)
  exact runs_respond (k := kLaunch) (congrArg Host.Outcome.next hserve) rfl fun _ hans => ⟨hans, rfl⟩

theorem runs_launchCommit_other (hform : LaunchForm s f 2) (hst : s.sys.st = .armed) (hroot : s.tet.root = true) (hphase : s.tet.phase = .committed)
    (harm : f.armId = s.tet.armId) (htime : f.time.setWidth 48 ≠ s.tet.launch) (hstay : s.knl.withdrawAtEnd = false) :
    Runs (.launchCommit r f) s fun t => Answers t r kLaunch 1 (natLE 4 0x080B0007) ∧ Disarmed t ∧ JobKept s t := by
  have hserve := launch_commit h hform
  rw [commitAtRoot_committed (u := tetRecv s r.link kLaunch.shp) hst hroot hphase harm] at hserve
  replace hserve := hserve.trans (if_neg htime)
  have hd : s.die ≠ .off := die_of_launch h
  have hcancel := cancelled_cancelRoundUp (s := tetRecv s r.link kLaunch.shp) hd hst hstay
  generalize cancelRoundUp (tetRecv s r.link kLaunch.shp) = u at hserve hcancel
  have hkept : JobKept s u := OnlyRoundUp.jobKept (s := tetRecv s r.link kLaunch.shp) hcancel.only
  exact ⟨_, congrArg Host.Outcome.next hserve, answers_respond u r kLaunch 1 _, disarmed_congr rfl rfl rfl rfl rfl rfl hcancel.disarmed, hkept⟩

/-! ## CANCEL (R418) -/

theorem runs_launchCancel (hform : LaunchForm s f 3) (hst : s.sys.st = .armed) (hstay : s.knl.withdrawAtEnd = false) :
    Runs (.launchCancel r f) s fun t => Answers t r kLaunch 0 [] ∧ Disarmed t ∧ JobKept s t ∧
      OnItsWay t 0x080B0007 .event (natLE 4 s.tet.armId.toNat) s.sys.drill ∧
      ∀ i, i < 8 → leadUp s i = true → jobNames s i = true → Queued t i (.ruFrame .cancel f) := by
  obtain ⟨hauth, hkind, -⟩ := id hform
  have hserve := launch_served h hauth (launchFieldBad_form hform (.inr (.inr rfl)))
  rw [if_neg (by rw [hkind]; decide), if_neg (by rw [hkind]; decide)] at hserve
  have hd : s.die ≠ .off := die_of_launch h
  have hcancel := cancelled_cancelWith (s := tetRecv s r.link kLaunch.shp) hd hst hstay f
  generalize cancelWith (tetRecv s r.link kLaunch.shp) f = u at hserve hcancel
  have hkept : JobKept s u := OnlyRoundUp.jobKept (s := tetRecv s r.link kLaunch.shp) hcancel.only
  exact ⟨_, congrArg Host.Outcome.next hserve, answers_respond u r kLaunch 0 [], disarmed_congr rfl rfl rfl rfl rfl rfl hcancel.disarmed, hkept,
    hcancel.onItsWay, fun i hi hup hnames => queued_congr rfl (hcancel.frames i hi hup hnames)⟩

end

/-! ## The ends of a round-up (R413, R415, R419) -/

section
variable {s : State} (hd : s.die ≠ .off) (hst : s.sys.st = .armed) (hstay : s.knl.withdrawAtEnd = false)
include hd hst hstay

theorem runs_ruAckTimeout {l : Fin 8} (hphase : s.tet.phase ≠ .idle) (hdown : l.val ∈ ruDown s) (hchild : s.tet.children.getLsbD l = false) :
    Runs (.ruAckTimeout l) s fun t => Disarmed t ∧ JobKept s t ∧
      OnItsWay t 0x080B0008 .event (natLE 4 s.tet.armId.toNat ++ natLE 4 l) s.sys.drill ∧
      OnItsWay t 0x080B0007 .event (natLE 4 s.tet.armId.toNat) s.sys.drill := by
  have hlate : s.tet.phase ≠ .idle ∧ (ruDown s).contains l.val ∧ !bitOf s.tet.children.toNat l.val :=
    ⟨hphase, List.contains_iff_mem.mpr hdown, by rw [bitOf_toNat, hchild]; rfl⟩
  have hserve : ruAckTimeout s l.val = cancelRoundUp (raise s 0x080B0008 .event (natLE 4 s.tet.armId.toNat ++ natLE 4 l)) := if_pos hlate
  have hway := raise_onItsWay hd 0x080B0008 .event (natLE 4 s.tet.armId.toNat ++ natLE 4 l)
  obtain ⟨honly, -⟩ := onlyRoundUp_raiseTet hd (code := 0x080B0008) (b := 6) rfl (fun _ => rfl) .event (natLE 4 s.tet.armId.toNat ++ natLE 4 l)
  have hraise := raise_onlyTet hd (code := 0x080B0008) (b := 6) rfl (fun _ => rfl) .event (natLE 4 s.tet.armId.toNat ++ natLE 4 l)
  generalize raise s 0x080B0008 .event (natLE 4 s.tet.armId.toNat ++ natLE 4 l) = u at hserve hway honly hraise
  have harm : u.tet.armId = s.tet.armId := by rw [hraise]
  have hsys : u.sys = s.sys := by rw [hraise]
  have hcancel := cancelled_cancelRoundUp (s := u) (by rwa [honly.die]) (by rwa [hsys]) (honly.withdrawAtEnd.trans hstay)
  have hcode := hcancel.onItsWay
  rw [harm, hsys] at hcode
  exact ⟨_, congrArg Host.Outcome.next hserve, hcancel.disarmed, (honly.trans hcancel.only).jobKept, hcancel.keepsCode hway, hcode⟩

theorem runs_armDeadline (hphase : s.tet.phase ≠ .committed) (hpassed : deadlinePassed s = true) : Runs .armDeadline s fun t => Disarmed t ∧
    JobKept s t ∧ OnItsWay t 0x080B0006 .event (natLE 4 s.tet.armId.toNat) s.sys.drill := by
  have hserve : armDeadline s = disarm (raise s 0x080B0006 .event (natLE 4 s.tet.armId.toNat)) := if_pos ⟨hst, hphase, hpassed⟩
  have hway := raise_onItsWay hd 0x080B0006 .event (natLE 4 s.tet.armId.toNat)
  obtain ⟨honly, -⟩ := onlyRoundUp_raiseTet hd (code := 0x080B0006) (b := 4) rfl (fun _ => rfl) .event (natLE 4 s.tet.armId.toNat)
  generalize raise s 0x080B0006 .event (natLE 4 s.tet.armId.toNat) = u at hserve hway honly
  have hstay' : u.knl.withdrawAtEnd = false := honly.withdrawAtEnd.trans hstay
  obtain ⟨hdisarm, hknl, -⟩ := disarm_only hstay'
  refine ⟨_, congrArg Host.Outcome.next hserve, disarmed_disarm hstay', (honly.trans hdisarm).jobKept, ?_⟩
  rwa [OnItsWay, hknl]

end

theorem armDeadline_waits {s : State} (h : s.tet.phase = .committed ∨ deadlinePassed s = false) : exec .armDeadline s = .next s := by
  have hserve : armDeadline s = s := if_neg fun ⟨_, hphase, hpassed⟩ => by
    rcases h with h | h
    · exact hphase h
    · rw [h] at hpassed
      cases hpassed
  exact congrArg Host.Outcome.next hserve

theorem launch_of_kind (s : State) (r : Req) (f : LaunchFrame) :
    ∀ c ∈ [Instr.launchArm r f, .launchCommit r f, .launchCancel r f], exec c s = .next (launch s r f) := by
  simp only [List.mem_cons, List.not_mem_nil, or_false]
  rintro c (rfl | rfl | rfl) <;> rfl

/-- Settles O39: the clauses are the rules for ARM, COMMIT and CANCEL at the root, and for the ends of a round-up. -/
theorem launchAtTheRoot : Obligations.LaunchAtTheRoot := by
  unfold Obligations.LaunchAtTheRoot
  refine ⟨fun s r f k h hjob => ⟨runs_launchArm h hjob, fun code cond hform => runs_launchArm_refused h hform, ?_, ?_, fun c hc => ⟨?_, ?_⟩⟩,
    ⟨fun s r f h hform => ⟨fun hvalid hphase hahead => ⟨?_, runs_launchCommit_refused h hform hvalid hphase hahead⟩,
        runs_launchCommit_past h hform, fun hst hroot hphase harm =>
          ⟨runs_launchCommit_again h hform hst hroot hphase harm, runs_launchCommit_other h hform hst hroot hphase harm⟩⟩,
      fun s r f h hform hst => runs_launchCancel h hform hst, fun s l hd hst hphase hstay => runs_ruAckTimeout hd hst hstay hphase,
      fun s hd hst hstay => ⟨runs_armDeadline hd hst hstay, armDeadline_waits⟩⟩⟩
  · exact fun hinvalid => by simp [armRefusal, hinvalid]
  · intro hvalid hresult
    rw [armRefusal, hvalid, if_neg (by decide), if_pos hresult]
  · intro hauth
    obtain ⟨t, ht, hans, hway, hsys, hphase, -, hkept⟩ := runs_refuseLaunch (die_of_launch h) (by decide)
      ((launch_of_kind s r f c hc).trans (congrArg Host.Outcome.next (launch_unauthentic h hjob hauth)))
    exact ⟨t, ht, hans, hway, hsys, hphase, hkept⟩
  · intro off hauth hoff
    obtain ⟨t, ht, hans, hway, hsys, hphase, -, hkept⟩ := runs_refuseLaunch (die_of_launch h) (by decide)
      ((launch_of_kind s r f c hc).trans (congrArg Host.Outcome.next (launch_malformed h hauth hoff)))
    exact ⟨t, ht, hans, hway, hsys, hphase, hkept⟩
  · exact fun hst hroot hphase harm => runs_launchCommit h hform hvalid hahead hst hroot hphase harm

end Sys2Proof.Machine
end

section
/-!
The round-up's frames on the leads (R409, R411, R413, R415, R418, R419; log 52): O40.
-/
namespace Sys2Proof.Machine

/-! ## A frame on a lead -/

theorem onKept_stays {s : State} {a : Arrival} (h : ¬ Arrives s a) (f : State → State) : onKept s a f = s := by
  have hno : ¬(leadUp s a.lead.val && admits (leadAt s a.lead.val) a.seq) = true := by
    rw [Bool.and_eq_true]
    exact h
  exact if_neg hno

theorem AcceptedOn.onlyLeads {s t : State} {i : Nat} {seq : BitVec 64} (h : AcceptedOn s t i seq) : OnlyLeads s t := h.rest

/-- R338: a frame that may not be accepted on its lead has no effect. -/
theorem roundUp_frame_stays {s : State} {a : Arrival} (h : ¬ Arrives s a) (f : LaunchFrame) (m : RuReport) :
    ∀ c ∈ [Instr.ruArm a f, .ruCommit a f, .ruCancel a f, .ruArmack a m, .ruReady a m, .ruCommitack a m], exec c s = .next s := by
  have hstays : ∀ F, onLead s a 3 F = s := fun F => onKept_stays h _
  simp only [List.mem_cons, List.not_mem_nil, or_false]
  rintro c (rfl | rfl | rfl | rfl | rfl | rfl)
  · exact congrArg Host.Outcome.next (show ruArm s a f = s by rw [ruArm, hstays])
  · exact congrArg Host.Outcome.next (show ruCommit s a f = s by rw [ruCommit, hstays])
  · exact congrArg Host.Outcome.next (show ruCancel s a f = s by rw [ruCancel, hstays])
  · exact congrArg Host.Outcome.next (show ruArmack s a m = s by rw [ruArmack, childReport, hstays])
  · exact congrArg Host.Outcome.next (show ruReady s a m = s by rw [ruReady, childReport, hstays])
  · exact congrArg Host.Outcome.next (show ruCommitack s a m = s by rw [ruCommitack, childReport, hstays])

theorem onlyRoundUp_setLaunch (s : State) (l : BitVec 48) : OnlyRoundUp s (setLaunch s l) := rfl

theorem onlyRoundUp_childAck (s : State) (i : Nat) : OnlyRoundUp s (childAck s i) := rfl

/-- The state in which a child's READY is marked. -/
def readyMarked (u : State) (i : Fin 8) : State := { u with tet := { u.tet with childReady := orLead u.tet.childReady i.val } }

theorem onlyRoundUp_readyMarked (s : State) (i : Fin 8) : OnlyRoundUp s (readyMarked s i) := rfl

/-! ## What the frames' conditions read -/

section
variable {s u : State} (h : OnlyLeads s u)
include h

theorem lfAuthOk_leads (f : LaunchFrame) : lfAuthOk u f = lfAuthOk s f := by
  unfold OnlyLeads at h
  rw [h]
  rfl

theorem OnlyLeads.sys : u.sys = s.sys := by
  unfold OnlyLeads at h
  rw [h]

theorem OnlyLeads.tet : u.tet = s.tet := by
  unfold OnlyLeads at h
  rw [h]

theorem OnlyLeads.str : u.str = s.str := by
  unfold OnlyLeads at h
  rw [h]

theorem deadlinePassed_leads : deadlinePassed u = deadlinePassed s := by
  unfold OnlyLeads at h
  rw [h]
  rfl

theorem timeAhead_leads (l : BitVec 48) : timeAhead u l = timeAhead s l := by
  unfold OnlyLeads at h
  rw [h]
  rfl

theorem repAuthOk_leads (m : RuReport) : repAuthOk u m = repAuthOk s m := by
  unfold OnlyLeads at h
  rw [h]
  rfl

theorem armRefusal_leads (f : LaunchFrame) (way : Option Nat) : armRefusal u f way = armRefusal s f way := by
  unfold OnlyLeads at h
  rw [h]
  rfl

theorem cancelFrame_leads (depth : BitVec 8) (plan : BitVec 16) (armId : BitVec 32) (jobId : BitVec 64) :
    cancelFrame u depth plan armId jobId = cancelFrame s depth plan armId jobId := by
  unfold OnlyLeads at h
  rw [h]
  rfl

end

section
variable {s : State} {a : Arrival} {f : LaunchFrame} (hd : s.die ≠ .off) (h : Arrives s a)
include hd h

omit h in
/-- A frame whose AUTH fails is dropped (R409). -/
theorem dropAuth_arrives {c : Instr} (hserve : exec c s = .next (dropAuth (bufferFreed s a 3))) : Runs c s fun t =>
    OnItsWay t 0x0A0B0001 .event (natLE 4 s.tet.armId.toNat) s.sys.drill ∧ t.sys = s.sys ∧ JobKept s t ∧ t.tet.phase = s.tet.phase := by
  have hleads := (acceptedOn_bufferFreed s a 3).onlyLeads
  generalize bufferFreed s a 3 = u at hserve hleads
  have hdu : u.die ≠ .off := by rwa [hleads.roundUp.die]
  have hway := raise_onItsWay hdu 0x0A0B0001 .event (d4 u.tet.armId.toNat)
  obtain ⟨honly, hsys, htet, -⟩ := refuses_raise hdu (code := 0x0A0B0001) (by decide) .event (d4 u.tet.armId.toNat)
  have husys := hleads.sys
  have hutet := hleads.tet
  rw [hutet, husys] at hway
  refine ⟨_, hserve, ?_, hsys.trans husys, (hleads.roundUp.trans honly).jobKept, ?_⟩
  · rw [dropAuth, hutet]
    exact hway
  · rw [dropAuth, htet, hutet]

omit hd in
theorem roundUp_unauthentic (hauth : lfAuthOk s f = false) :
    ∀ c ∈ [Instr.ruArm a f, .ruCommit a f, .ruCancel a f], exec c s = .next (dropAuth (bufferFreed s a 3)) := by
  have hauth' : (!lfAuthOk (bufferFreed s a 3) f) = true := by
    rw [lfAuthOk_leads (acceptedOn_bufferFreed s a 3).onlyLeads, hauth]
    rfl
  simp only [List.mem_cons, List.not_mem_nil, or_false]
  rintro c (rfl | rfl | rfl)
  · exact congrArg Host.Outcome.next (show ruArm s a f = _ by rw [ruArm, onLead_arrives h]; exact if_pos hauth')
  · exact congrArg Host.Outcome.next (show ruCommit s a f = _ by rw [ruCommit, onLead_arrives h]; exact if_pos hauth')
  · exact congrArg Host.Outcome.next (show ruCancel s a f = _ by rw [ruCancel, onLead_arrives h]; exact if_pos hauth')

/-! ## RU_ARM (R411) -/

omit hd in
theorem runs_ruArm (hauth : lfAuthOk s f = true) (hrefusal : armRefusal s f (some a.lead) = none) : Runs (.ruArm a f) s fun t =>
    t.sys.st = .armed ∧ (t.tet.phase = .armed ∨ t.tet.phase = .ready) ∧ t.tet.root = false ∧ t.tet.plan = f.plan ∧
    t.tet.armId = f.armId ∧ t.tet.deadline = f.time.setWidth 48 ∧ JobKept s t := by
  have hleads := (acceptedOn_bufferFreed s a 3).onlyLeads
  have hserve : ruArm s a f = acceptArm (bufferFreed s a 3) f (some a.lead) := by
    rw [ruArm, onLead_arrives h]
    simp only [lfAuthOk_leads hleads, armRefusal_leads hleads, hauth, hrefusal, Bool.not_true, Bool.false_eq_true, if_false]
  obtain ⟨honly, hst, hphase, hroot, hplan, -, harm, -, hdeadline⟩ := armed_acceptArm (bufferFreed s a 3) f (some a.lead)
  exact ⟨_, congrArg Host.Outcome.next hserve, hst, hphase, hroot, hplan, harm, hdeadline, (hleads.roundUp.trans honly).jobKept⟩

theorem runs_ruArm_refused (hauth : lfAuthOk s f = true) {code cond : Nat} (hrefusal : armRefusal s f (some a.lead) = some (code, cond)) :
    Runs (.ruArm a f) s fun t => OnItsWay t code .refused (natLE 4 cond) s.sys.drill ∧
      Queued t a.lead (.ruFrame .cancel (cancelFrame s f.depth f.plan f.armId f.jobId)) ∧
      t.sys = s.sys ∧ t.tet = { s.tet with event := t.tet.event } ∧ JobKept s t := by
  have haccepted := acceptedOn_bufferFreed s a 3
  have hleads := haccepted.onlyLeads
  have hserve : ruArm s a f = leadSend (raise (bufferFreed s a 3) code .refused (natLE 4 cond)) a.lead
      (.ruFrame .cancel (cancelFrame (bufferFreed s a 3) f.depth f.plan f.armId f.jobId)) := by
    rw [ruArm, onLead_arrives h]
    simp only [lfAuthOk_leads hleads, armRefusal_leads hleads, hauth, hrefusal, Bool.not_true, Bool.false_eq_true, if_false]
    rfl
  rw [cancelFrame_leads hleads] at hserve
  have hup : leadUp (bufferFreed s a 3) a.lead = true := (haccepted.up a.lead).trans h.1
  generalize bufferFreed s a 3 = u at hserve hleads hup
  have hdu : u.die ≠ .off := by rwa [hleads.roundUp.die]
  have hway := raise_onItsWay hdu code .refused (natLE 4 cond)
  obtain ⟨honly, hsys, htet, hlead⟩ := refuses_raise hdu (armRefusal_code hrefusal) .refused (natLE 4 cond)
  generalize raise u code .refused (natLE 4 cond) = v at hserve hway honly hsys htet hlead
  have husys := hleads.sys
  have hutet := hleads.tet
  have hsent := onlyLeads_leadSend v a.lead (.ruFrame .cancel (cancelFrame s f.depth f.plan f.armId f.jobId))
  have hqueued := queued_leadSend (s := v) (i := a.lead) ((leadUp_congr (by rw [hlead]) a.lead).trans hup)
    (.ruFrame .cancel (cancelFrame s f.depth f.plan f.armId f.jobId))
  generalize leadSend v a.lead (.ruFrame .cancel (cancelFrame s f.depth f.plan f.armId f.jobId)) = w at hserve hsent hqueued
  have hkept := ((hleads.roundUp.trans honly).trans hsent.roundUp).jobKept
  rw [hutet] at htet
  rw [husys] at hsys hway
  unfold OnlyLeads at hsent
  refine ⟨w, congrArg Host.Outcome.next hserve, ?_, hqueued, ?_, ?_, hkept⟩
  · rw [hsent]
    exact hway
  · rw [hsent]
    exact hsys
  · rw [hsent]
    exact htet

/-! ## RU_COMMIT and RU_CANCEL (R415, R418, R419) -/

section
variable (hauth : lfAuthOk s f = true) (hst : s.sys.st = .armed) (harm : f.armId = s.tet.armId)
include hauth hst harm

omit hd in
/-- R415: what a commit does that comes from the parent, about the present arm. -/
theorem ruCommit_served (hup : ruUp s = some a.lead.val) : ruCommit s a f =
    if s.tet.phase = .committed then
      if f.time.setWidth 48 = s.tet.launch then
        toParent (bufferFreed s a 3) (.ruReport .commitack (ownReport (bufferFreed s a 3)))
      else cancelRoundUp (bufferFreed s a 3)
    else if deadlinePassed s = true then bufferFreed s a 3
    else if timeAhead s (f.time.setWidth 48) = true then
      leadSendAll (toParent (setLaunch (bufferFreed s a 3) (f.time.setWidth 48))
        (.ruReport .commitack (ownReport (setLaunch (bufferFreed s a 3) (f.time.setWidth 48)))))
        (ruDown (toParent (setLaunch (bufferFreed s a 3) (f.time.setWidth 48))
          (.ruReport .commitack (ownReport (setLaunch (bufferFreed s a 3) (f.time.setWidth 48)))))) (.ruFrame .commit f)
    else cancelRoundUp (raise (bufferFreed s a 3) 0x0B05000E .refused (d4 (bufferFreed s a 3).tet.armId.toNat)) := by
  have hleads := (acceptedOn_bufferFreed s a 3).onlyLeads
  rw [ruCommit, onLead_arrives h]
  generalize bufferFreed s a 3 = u at hleads
  have hsys := hleads.sys
  have htet := hleads.tet
  have hup' : ruUp u = some a.lead.val := (ruUp_congr hleads.roundUp.image (by rw [htet])).trans hup
  have hauth' : lfAuthOk u f = true := (lfAuthOk_leads hleads f).trans hauth
  have hpassed := deadlinePassed_leads hleads
  have hahead := timeAhead_leads hleads (f.time.setWidth 48)
  have hmine : ¬(u.sys.st ≠ .armed ∨ ruUp u ≠ some a.lead.val ∨ f.armId ≠ s.tet.armId) := by
    rw [hsys, hst, hup', harm]
    simp
  simp only [hauth', Bool.not_true, Bool.false_eq_true, if_false, hpassed, hahead, htet]
  rw [if_neg hmine]
  cases timeAhead s (f.time.setWidth 48) <;> simp only [Bool.not_true, Bool.not_false, Bool.false_eq_true, if_true, if_false]

omit hd in
theorem runs_ruCommit (hup : ruUp s = some a.lead.val) (hphase : s.tet.phase ≠ .committed) (hpassed : deadlinePassed s = false)
    (hahead : timeAhead s (f.time.setWidth 48) = true) : Runs (.ruCommit a f) s fun t =>
      t.tet.launch = f.time.setWidth 48 ∧ t.tet.phase = .committed ∧ t.sys = s.sys ∧ JobKept s t ∧
      ∀ i ∈ ruDown s, leadUp s i = true → Queued t i (.ruFrame .commit f) := by
  have hserve := ruCommit_served h hauth hst harm hup
  rw [if_neg hphase, if_neg (Bool.eq_false_iff.mp hpassed), if_pos hahead] at hserve
  have haccepted := acceptedOn_bufferFreed s a 3
  generalize bufferFreed s a 3 = x at hserve haccepted
  have hset := haccepted.onlyLeads.roundUp.trans (onlyRoundUp_setLaunch x (f.time.setWidth 48))
  have hsys : (setLaunch x (f.time.setWidth 48)).sys = s.sys := haccepted.onlyLeads.sys
  have hplan : (setLaunch x (f.time.setWidth 48)).tet.plan = s.tet.plan :=
    show x.tet.plan = s.tet.plan from congrArg Tet.plan haccepted.onlyLeads.tet
  have hups : ∀ i, leadUp (setLaunch x (f.time.setWidth 48)) i = leadUp s i := haccepted.up
  have hlaunch : (setLaunch x (f.time.setWidth 48)).tet.launch = f.time.setWidth 48 := rfl
  have hcommitted : (setLaunch x (f.time.setWidth 48)).tet.phase = .committed := rfl
  generalize setLaunch x (f.time.setWidth 48) = u at hserve hset hsys hplan hups hlaunch hcommitted
  have hparent := onlyLeads_toParent u (.ruReport .commitack (ownReport u))
  have hserved := served_toParent u (.ruReport .commitack (ownReport u))
  generalize toParent u (.ruReport .commitack (ownReport u)) = v at hserve hparent hserved
  have hdown : ruDown v = ruDown s := ruDown_congr (hset.trans hparent.roundUp).image ((congrArg Tet.plan hparent.tet).trans hplan)
  rw [hdown] at hserve
  have hsent := onlyLeads_leadSendAll v (ruDown s) (.ruFrame .commit f)
  have hall := hparent.trans hsent
  refine ⟨_, congrArg Host.Outcome.next hserve, by rw [hall.tet, hlaunch], by rw [hall.tet, hcommitted], by rw [hall.sys, hsys],
    (hset.trans hall.roundUp).jobKept, fun i hi hupi => queued_leadSendAll hi ((hserved i).up.trans ((hups i).trans hupi)) _⟩

omit hd in
/-- R419: a commit that comes at the deadline or later is ignored. -/
theorem runs_ruCommit_late (hup : ruUp s = some a.lead.val) (hphase : s.tet.phase ≠ .committed) (hpassed : deadlinePassed s = true) :
    Runs (.ruCommit a f) s fun t => t = { s with lead := t.lead } := by
  have hserve := ruCommit_served h hauth hst harm hup
  rw [if_neg hphase, if_pos hpassed] at hserve
  have hleads := (acceptedOn_bufferFreed s a 3).onlyLeads
  refine ⟨_, congrArg Host.Outcome.next hserve, ?_⟩
  unfold OnlyLeads at hleads
  rw [hleads]

section
variable (hstay : s.knl.withdrawAtEnd = false)
include hstay

theorem runs_ruCommit_other (hup : ruUp s = some a.lead.val) (hphase : s.tet.phase = .committed) (htime : f.time.setWidth 48 ≠ s.tet.launch) :
    Runs (.ruCommit a f) s fun t => Disarmed t ∧ JobKept s t := by
  have hserve := ruCommit_served h hauth hst harm hup
  rw [if_pos hphase, if_neg htime] at hserve
  have hleads := (acceptedOn_bufferFreed s a 3).onlyLeads
  have hcancel := cancelled_cancelRoundUp (s := bufferFreed s a 3) (by rwa [hleads.roundUp.die]) (by rwa [hleads.sys])
    (hleads.roundUp.withdrawAtEnd.trans hstay)
  exact ⟨_, congrArg Host.Outcome.next hserve, hcancel.disarmed, (hleads.roundUp.trans hcancel.only).jobKept⟩

theorem runs_ruCancel (hphase : s.tet.phase ≠ .idle) : Runs (.ruCancel a f) s fun t => Disarmed t ∧ JobKept s t ∧
    OnItsWay t 0x080B0007 .event (natLE 4 s.tet.armId.toNat) s.sys.drill ∧
    ∀ i, i < 8 → leadUp s i = true → jobNames s i = true → Queued t i (.ruFrame .cancel f) := by
  have haccepted := acceptedOn_bufferFreed s a 3
  have hleads := haccepted.onlyLeads
  have hserve : ruCancel s a f = cancelWith (bufferFreed s a 3) f := by
    rw [ruCancel, onLead_arrives h]
    simp only [lfAuthOk_leads hleads, hauth, hleads.tet, harm, hphase, Bool.not_true, Bool.false_eq_true, if_false, ne_eq, not_false_eq_true,
      and_self, if_true]
  have hcancel := cancelled_cancelWith (s := bufferFreed s a 3) (by rwa [hleads.roundUp.die]) (by rwa [hleads.sys])
    (hleads.roundUp.withdrawAtEnd.trans hstay) f
  have hcode := hcancel.onItsWay
  rw [hleads.tet, hleads.sys] at hcode
  exact ⟨_, congrArg Host.Outcome.next hserve, hcancel.disarmed, (hleads.roundUp.trans hcancel.only).jobKept, hcode,
    fun i hi hup hnames => hcancel.frames i hi ((haccepted.up i).trans hup) ((jobNames_congr hleads.roundUp.image i).trans hnames)⟩

end

end

end

/-! ## Reports from a child (R413, R415) -/

section
variable {s : State} {a : Arrival} {m : RuReport} (h : ReportOk s a m)
include h

/-- A report that verifies does what its kind does. -/
theorem childReport_served (F : State → State) : childReport s a m F = F (bufferFreed s a 3) := by
  obtain ⟨-, harrives, hst, hauth, hdown, hjob, harm⟩ := h
  have hleads := (acceptedOn_bufferFreed s a 3).onlyLeads
  rw [childReport, onLead_arrives harrives]
  generalize bufferFreed s a 3 = u at hleads
  have hmine : u.sys.st = .armed ∧ (ruDown u).contains a.lead.val ∧ m.jobId = u.str.job ∧ m.armId = u.tet.armId := by
    rw [hleads.sys, hleads.str, hleads.tet, ruDown_congr hleads.roundUp.image (by rw [hleads.tet])]
    exact ⟨hst, List.contains_iff_mem.mpr hdown, hjob, harm⟩
  have hauth' : (!repAuthOk u m) = false := by
    rw [repAuthOk_leads hleads, hauth]
    rfl
  simp only [hauth', Bool.false_eq_true, if_false, if_pos hmine]

theorem runs_ruArmack (hphase : s.tet.phase ≠ .committed) : Runs (.ruArmack a m) s fun t =>
    t.tet.children = s.tet.children ||| BitVec.ofNat 8 (2 ^ a.lead.val) ∧ t.tet.childReady = s.tet.childReady ∧ t.sys = s.sys ∧ JobKept s t := by
  have hleads := (acceptedOn_bufferFreed s a 3).onlyLeads
  have hserve : ruArmack s a m = checkReady (childAck (bufferFreed s a 3) a.lead.val) := by
    rw [ruArmack, childReport_served h, if_neg (by rwa [hleads.tet])]
  generalize bufferFreed s a 3 = u at hserve hleads
  have hack := hleads.roundUp.trans (onlyRoundUp_childAck u a.lead.val)
  have hready := readied_checkReady (childAck u a.lead.val)
  have hkept := (hack.trans hready.roundUp).jobKept
  have htet := hleads.tet
  have hsys := hleads.sys
  obtain ⟨honly, -, -, -⟩ := hready
  refine ⟨_, congrArg Host.Outcome.next hserve, ?_, ?_, ?_, hkept⟩
  · rw [honly]
    exact congrArg (fun x : Tet => orLead x.children a.lead.val) htet
  · rw [honly]
    exact show u.tet.childReady = s.tet.childReady from congrArg Tet.childReady htet
  · rw [honly]
    exact hsys

theorem runs_ruCommitack (hphase : s.tet.phase = .committed) : Runs (.ruCommitack a m) s fun t =>
    t.tet.children = s.tet.children ||| BitVec.ofNat 8 (2 ^ a.lead.val) ∧ t.tet = { s.tet with children := t.tet.children } ∧
    t.sys = s.sys ∧ JobKept s t := by
  have hleads := (acceptedOn_bufferFreed s a 3).onlyLeads
  have hserve : ruCommitack s a m = childAck (bufferFreed s a 3) a.lead.val := by
    rw [ruCommitack, childReport_served h, if_pos (by rwa [hleads.tet])]
  generalize bufferFreed s a 3 = u at hserve hleads
  have hack := hleads.roundUp.trans (onlyRoundUp_childAck u a.lead.val)
  refine ⟨_, congrArg Host.Outcome.next hserve, congrArg (fun x : Tet => orLead x.children a.lead.val) hleads.tet, ?_, hleads.sys, hack.jobKept⟩
  rw [childAck, hleads.tet]

theorem runs_ruReady (hphase : s.tet.phase = .armed) (hsent : s.tet.readySent = false) : Runs (.ruReady a m) s fun t =>
    t.tet.childReady = s.tet.childReady ||| BitVec.ofNat 8 (2 ^ a.lead.val) ∧
    (t.tet.phase = .ready ↔ (∀ i ∈ ruDown s, t.tet.childReady.getLsbD i = true) ∧
      ∀ i, i < 8 → jobUses s i = true → (leadAt s i).keyed = true) ∧
    (t.tet.phase = .ready ∨ t.tet.phase = .armed) ∧ t.sys = s.sys ∧ JobKept s t := by
  have haccepted := acceptedOn_bufferFreed s a 3
  have hleads := haccepted.onlyLeads
  have hserve : ruReady s a m = checkReady (readyMarked (bufferFreed s a 3) a.lead) := by
    rw [ruReady, childReport_served h]
    rfl
  obtain ⟨-, -, hst, -⟩ := h
  generalize bufferFreed s a 3 = x at hserve haccepted hleads
  have hmarked := hleads.roundUp.trans (onlyRoundUp_readyMarked x a.lead)
  have htet : (readyMarked x a.lead).tet = { s.tet with childReady := s.tet.childReady ||| BitVec.ofNat 8 (2 ^ a.lead.val) } := by
    rw [readyMarked, hleads.tet]
    rfl
  have hsys : (readyMarked x a.lead).sys = s.sys := hleads.sys
  have hup : ∀ i, leadUp (readyMarked x a.lead) i = leadUp s i := haccepted.up
  have hkeyed : ∀ i, (leadAt (readyMarked x a.lead) i).keyed = (leadAt s i).keyed := haccepted.keyed
  generalize readyMarked x a.lead = u at hserve hmarked htet hsys hup hkeyed
  have hdown : ruDown u = ruDown s := ruDown_congr hmarked.image (by rw [htet])
  have huses : ∀ i, jobUses u i = jobUses s i := fun i => by
    unfold jobUses loaded img
    simp only [hmarked.image, hup]
  have hnow := ruReadyNow_iff u
  simp only [hdown, huses, hkeyed] at hnow
  have hmay : mayReady u = ruReadyNow u := by
    rw [mayReady, hsys, hst, htet, hphase, hsent]
    rfl
  have hready := readied_checkReady u
  have hkept := (hmarked.trans hready.roundUp).jobKept
  obtain ⟨honly, hphases, -, -⟩ := id hready
  have hchild : (checkReady u).tet.childReady = u.tet.childReady := by rw [honly]
  have hchild' : u.tet.childReady = s.tet.childReady ||| BitVec.ofNat 8 (2 ^ a.lead.val) := by rw [htet]
  have huphase : u.tet.phase = .armed := by rw [htet]; exact hphase
  refine ⟨_, congrArg Host.Outcome.next hserve, hchild.trans hchild', ?_, ?_, ?_, hkept⟩
  · rw [hchild, ← hnow, ← hmay]
    refine ⟨fun hrdy => ?_, phase_checkReady⟩
    by_contra hno
    rw [checkReady_waits (Bool.eq_false_iff.mpr hno), huphase] at hrdy
    cases hrdy
  · rw [← huphase]
    exact hphases.symm
  · rw [honly]
    exact hsys

end

/-- Settles O40: the clauses are the rules for the round-up's frames. -/
theorem roundUpFrames : Obligations.RoundUpFrames := by
  unfold Obligations.RoundUpFrames
  refine ⟨fun s a f m h => roundUp_frame_stays h f m, fun s a f hd h => ⟨runs_ruArm h, fun code cond hauth => runs_ruArm_refused hd h hauth, ?_⟩,
    fun s a m h => ⟨runs_ruArmack h, runs_ruCommitack h, runs_ruReady h⟩, fun s a f hd h hauth hst harm => ⟨fun hup hphase =>
      ⟨runs_ruCommit h hauth hst harm hup hphase, runs_ruCommit_late h hauth hst harm hup hphase⟩,
      fun hup hphase htime hstay => runs_ruCommit_other hd h hauth hst harm hstay hup hphase htime,
      fun hphase hstay => runs_ruCancel hd h hauth hst harm hstay hphase⟩⟩
  intro hauth c hc
  exact dropAuth_arrives hd (roundUp_unauthentic h hauth c hc)

end Sys2Proof.Machine
end

section
/-!
SUPPORT. The counterexample to O53 (R481, R498): a restored page that is written over a page of a generation still being copied.
-/
namespace Sys2Proof.Machine

/-! ## The state -/

/-- A generation that is being copied, of one page, at job address 0, not yet copied. -/
def heldGen : Gen := { marker := 0, position := 0, target := 0, route := 0, shards := [⟨some 0, 1⟩], capture := [] }

/-- A manifest of two shards of one page each: the capture page, and a page at job address 0. -/
def pageManifest : Bytes := zeros 0x24 ++ natLE 4 2 ++ zeros 0x58 ++ natLE 4 1 ++ zeros 0x3C ++ natLE 4 1 ++ zeros 0x3C

/-- The job key. -/
def heldKey : JobKey := ⟨0, 0, 0, 0, 0⟩

/-- The stored page of the second shard: zeros, sealed. -/
@[irreducible] def heldPage : Bytes := gcmSeal (pageKey heldKey heldKey.epochR 0 0) (pageNonce 1 0) (pageAad heldKey 0 0 1 0) (zeros pageBytes)

/-- Bytes as pieces from offset 0 on. -/
def asRun (c : Bytes) : SMap Byte := c.zipIdx.map fun x => (x.2, x.1)

/-- A restore whose second page has all its pieces. -/
def heldRestore : Restore := { manifest := pageManifest, accepted := true, pieces := [(1, asRun heldPage)] }

/-- A serving device in HOLDING with a program, a key, that restore and that generation. -/
def heldState : State := { State.reset with
  sys := { st := .holding }, die := .serving
  str := { State.reset.str with image := some [] }
  sec := { State.reset.sec with job := some heldKey }
  snp := { gen := some heldGen, restore := some heldRestore }
  tet := { link := Vector.replicate 2 { up := true, die := { isOpen := true } } } }

/-- The empty piece that makes the page whole. -/
def heldPiece : Instr := .restorePage 0 0 0 1 0 0 []

/-! ## The page -/

theorem kdf_256_length (key label ctx : Bytes) : (kdf key label ctx 256).length = 32 := by
  simp [kdf, show ceilDiv 256 256 = 1 from rfl, List.range_one, hmac, sha256_length]

theorem length_heldPage : heldPage.length = storedBytes := by
  have htag := gcmTag_length (key := pageKey heldKey heldKey.epochR 0 0) (nonce := pageNonce 1 0) (kdf_256_length ..) (by simp [pageNonce, natLE_length, zeros_length])
  unfold heldPage
  simp only [gcmSeal, List.length_append, gcmText_length, htag, zeros_length]
  rfl

theorem openPage_sealed (s : State) (h : s.sec.job = some heldKey) (b : Bytes) : openPage s pageManifest 1 0
    (gcmSeal (pageKey heldKey heldKey.epochR 0 0) (pageNonce 1 0) (pageAad heldKey 0 0 1 0) b) = some b := by
  have hposition : fld pageManifest 0x18 4 = 0 := by decide
  have hmarker : fld pageManifest 0x10 8 = 0 := by decide
  rw [openPage, h, Option.bind_some, hposition, hmarker]
  exact gcmOpen_gcmSeal (kdf_256_length ..) (by simp [pageNonce, natLE_length, zeros_length]) _ _

theorem openPage_heldPage (s : State) (h : s.sec.job = some heldKey) : openPage s pageManifest 1 0 heldPage = some (zeros pageBytes) := by
  unfold heldPage
  exact openPage_sealed s h (zeros pageBytes)

theorem asRun_length (c : Bytes) : (asRun c).length = c.length := by simp [asRun]

theorem asRun_bytes (c : Bytes) : (asRun c).map Prod.snd = c := by simp [asRun, Function.comp_def]

theorem manShards_pageManifest : manShards pageManifest = [⟨none, 1⟩, ⟨some 0, 1⟩] := by decide +kernel

theorem canonical_heldState : Canonical heldState := { canonical_reset with mirror := nofun }

theorem apart_heldGen : ShardsApart heldGen.shards := by
  intro p x hp
  have hgen : heldGen.shards = [⟨some 0, 1⟩] := rfl
  rw [hgen] at hp ⊢
  obtain rfl : p = 0 := by
    by_contra hne
    rw [genPageAddr, if_neg (by simpa using hne)] at hp
    cases hp
  obtain rfl : 0 = x := Option.some.inj hp
  refine ⟨rfl, fun y _ hlt => ?_⟩
  have hin : 0 ≤ y ∧ y < 0 + 1 * pageBytes := by omega
  have hpage : y / pageBytes = 0 := Nat.div_eq_of_lt (by omega)
  simp only [genPage, if_pos hin, Nat.sub_zero, hpage]

theorem pieceOf_heldState : PieceOf heldState heldRestore 0 1 0 0 [] := by
  refine ⟨rfl, rfl, by decide, by decide, ?_⟩
  rw [show heldRestore.manifest = pageManifest from rfl, manShards_pageManifest]
  decide

/-! ## The run -/

/-- R498: the piece that makes its page whole writes what the page opens to at its address. -/
theorem restorePage_writes {s : State} {x : Restore} {l : Nat} {marker : BitVec 64} {position : BitVec 32} {shard page off p a : Nat} {b c d : Bytes}
    (hbulk : bulkOk s l = true) (hrestoring : restoring (tetRecv s l false) = some x)
    (hpage : page < ((manShards x.manifest).map Shard.pages).getD shard 0) (hp : pagesBefore (manShards x.manifest) shard + page = p)
    (hgot : putRun (sgetD x.pieces p []) off (b.take (storedBytes - off)) = asRun c) (hlength : c.length = storedBytes)
    (hmarker : fld x.manifest 0x10 8 = marker.toNat) (hposition : fld x.manifest 0x18 4 = position.toNat)
    (hopens : openPage (tetRecv s l false) x.manifest shard page c = some d) (hzero : p ≠ 0)
    (haddr : genPageAddr (manShards x.manifest) p = some a) : restorePage s l marker position shard page off b =
      hbmWrite (setRestore (tetRecv s l false) (some { x with pieces := serase x.pieces p, whole := sset x.whole p c })) a d := by
  have hwhole : ¬(asRun c).length < storedBytes := by
    rw [asRun_length, hlength]
    exact lt_irrefl _
  rw [restorePage, bulk, if_pos hbulk]
  simp only [hrestoring, if_neg (Nat.not_le.mpr hpage), hp, hgot, if_neg hwhole, hmarker, hposition, BEq.rfl, Bool.and_self, if_true, asRun_bytes,
    hopens, pageWhole, writePage, if_neg hzero, haddr]

theorem sgetD_one {α : Type} (k : Nat) (v d : α) : sgetD [(k, v)] k d = v := by simp [sgetD, sget?]

/-- The restore once its second page is whole. -/
def heldWhole : Restore := { heldRestore with pieces := serase heldRestore.pieces 1, whole := sset heldRestore.whole 1 heldPage }

theorem restorePage_heldState : restorePage heldState 0 0 0 1 0 0 [] =
    hbmWrite (setRestore (tetRecv heldState 0 false) (some heldWhole)) 0 (zeros pageBytes) := by
  have hmanifest : heldRestore.manifest = pageManifest := rfl
  have hgot : putRun (sgetD heldRestore.pieces 1 []) 0 [] = asRun heldPage := sgetD_one 1 (asRun heldPage) []
  refine restorePage_writes (x := heldRestore) (p := 1) (c := heldPage) rfl rfl ?_ ?_ hgot length_heldPage ?_ ?_ ?_ (by decide) ?_
  · rw [hmanifest, manShards_pageManifest]
    decide
  · rw [hmanifest, manShards_pageManifest]
    decide
  · rw [hmanifest]
    decide
  · rw [hmanifest]
    decide
  · exact openPage_heldPage (tetRecv heldState 0 false) rfl
  · rw [hmanifest, manShards_pageManifest]
    decide

theorem protect_firstPage (s : State) : protect s 0 pageBytes = protectPage s 0 := rfl

/-- A write over the first page copies it first. -/
theorem gen_hbmWrite_firstPage {u : State} (h : u.snp.gen = some heldGen) {b : Bytes} (hb : b.length = pageBytes) :
    ∃ g, (hbmWrite u 0 b).snp.gen = some g ∧ g.copied = [0] := by
  have hmoves := protectPage_moves h rfl (a := 0) (q := 0) apart_heldGen rfl rfl (by decide)
  have hprotect : (hbmWrite u 0 b).snp.gen = (protect u 0 b.length).snp.gen := rfl
  rw [hb, protect_firstPage, hmoves] at hprotect
  exact ⟨_, hprotect, rfl⟩

/-! ## The statement's hypotheses, and its frame -/

theorem page_heldRestore : pagesBefore (manShards heldRestore.manifest) (1 : BitVec 32).toNat + (0 : BitVec 32).toNat = 1 := by
  rw [show heldRestore.manifest = pageManifest from rfl, manShards_pageManifest]
  decide

theorem got_heldRestore : putRun (sgetD heldRestore.pieces 1 []) (0 : BitVec 32).toNat [] = asRun heldPage := sgetD_one 1 (asRun heldPage) []

theorem ours_heldRestore : fld heldRestore.manifest 0x10 8 = (0 : BitVec 64).toNat ∧ fld heldRestore.manifest 0x18 4 = (0 : BitVec 32).toNat := by
  rw [show heldRestore.manifest = pageManifest from rfl]
  decide

theorem addr_heldRestore : genPageAddr (manShards heldRestore.manifest) 1 = some 0 := by
  rw [show heldRestore.manifest = pageManifest from rfl, manShards_pageManifest]
  decide

/-- The run copies the page of the generation that the restored page is written over. -/
theorem heldState_runs : ∃ t g, exec heldPiece heldState = .next t ∧ t.snp.gen = some g ∧ g.copied = [0] := by
  obtain ⟨g, hgen, hcopied⟩ := gen_hbmWrite_firstPage (u := setRestore (tetRecv heldState 0 false) (some heldWhole)) rfl (zeros_length pageBytes)
  have hexec : exec heldPiece heldState = .next (restorePage heldState (0 : Fin 2).val 0 0 (1 : BitVec 32).toNat (0 : BitVec 32).toNat
      (0 : BitVec 32).toNat []) := congrArg Host.Outcome.next (if_pos rfl)
  exact ⟨_, g, hexec.trans (congrArg Host.Outcome.next restorePage_heldState), hgen, hcopied⟩

/-- Refutes O53, clause (1): in `heldState` the page that the last piece makes whole is written over a page of a generation that is still being
copied; the engine copies that page first (R481), so that not only the restore and HBM change. -/
theorem not_restores : ¬ Obligations.Restores := by
  rintro ⟨⟨-, hpieces⟩, -⟩
  have hclauses := hpieces heldState heldRestore 0 0 0 1 0 0 [] pieceOf_heldState
  dsimp only at hclauses
  rw [page_heldRestore, got_heldRestore, if_pos ours_heldRestore, asRun_bytes, asRun_length] at hclauses
  obtain ⟨-, -, -, hwrites⟩ := hclauses
  obtain ⟨t, hrun, -, -, -, hframe⟩ := hwrites (zeros pageBytes) 0 length_heldPage (openPage_heldPage heldState rfl) (by decide) addr_heldRestore
    canonical_heldState
  obtain ⟨t', g, hrun', hgen, hcopied⟩ := heldState_runs
  obtain rfl : t' = t := Host.Outcome.next.inj (hrun'.symm.trans hrun)
  have hkept : t'.snp.gen = some heldGen := congrArg (fun u : State => u.snp.gen) hframe
  obtain rfl : g = heldGen := Option.some.inj (hgen.symm.trans hkept)
  cases hcopied

end Sys2Proof.Machine
end

section
/-!
Recount replays and the verdicts of the classification (R76, R87, R433, R434, R436 to R442; Table 12-5): O20.
-/
namespace Sys2Proof.Machine

/-! ## Windows (R433, R434) -/

theorem runs_recountWindowEnd {s : State} (hrun : running s = true) (hend : s.knl.t = s.knl.winStart + s.knl.n.setWidth 64) :
    ∃ t, exec .recountWindowEnd s = .next t ∧ t.knl.win = s.knl.win + 1 ∧ t.knl.winStart = s.knl.t ∧
      t.knl.n = BitVec.ofNat 32 (interval s) ∧ t.knl.pick = BitVec.ofNat 32 (((s.knl.win + 1) * 167).toNat % interval s) ∧
      t = { s with knl := { s.knl with win := t.knl.win, winStart := t.knl.winStart, n := t.knl.n, pick := t.knl.pick } } :=
  ⟨_, congrArg Host.Outcome.next ((if_pos hrun).trans (if_pos hend)), rfl, rfl, rfl, rfl, rfl⟩

/-! ## The codes of a replayed tile -/

theorem codes_foldl {F : TileOut → Nat → TileOut} (hF : ∀ r k, (∀ c ∈ r.codes, UnitCode .frm c) → ∀ c ∈ (F r k).codes, UnitCode .frm c)
    (ks : List Nat) {r : TileOut} (h : ∀ c ∈ r.codes, UnitCode .frm c) : ∀ c ∈ (ks.foldl F r).codes, UnitCode .frm c := by
  induction ks generalizing r with
  | nil => exact h
  | cons k ks ih => exact ih (hF r k h)

/-- The codes of a replay are the Frame's (Table 2-4). -/
theorem recountTile_codes (s : State) (op : FrameOp) (rot : Bool) (x : SelTile) (fs : List CarryFault) :
    ∀ c ∈ (recountTile s op rot x fs).codes, UnitCode .frm c := by
  unfold recountTile
  refine codes_foldl (fun r k hr => ?_) _ nofun
  split
  · exact hr
  · intro c hc
    rcases List.mem_append.mp hc with hc | hc
    · exact hr c hc
    · exact tilePass_codes _ _ _ _ _ _ _ _ _ _ c hc

/-- The codes of a tile change the Frame's EVENT and the codes on their way. -/
theorem raiseTile_eq {codes : List Nat} (hc : ∀ c ∈ codes, UnitCode .frm c) {s : State} (h : s.die ≠ .off) : ∃ e l,
    raiseTile s codes = { s with frm := { s.frm with event := e }, knl := { s.knl with inflight := l } } := by
  obtain ⟨⟨e, slots, l, hstores⟩, hslots⟩ := raiseTile_stores hc h
  rw [hstores] at hslots ⊢
  obtain rfl : slots = s.frm.slots := hslots
  exact ⟨e, l, rfl⟩

theorem addRecount_eq (op : FrameOp) (ti k more : Nat) : ∃ c l n, addRecount op ti k more = { op with cyc := c, last := l, recountCyc := n } := by
  obtain ⟨c, l, hpasses⟩ := addPasses_eq op (tileRows op.desc ti * rowCycles (fdA op.desc) (fdB op.desc)) (recountGid op k) (chunks op.desc)
  exact ⟨c + more, l, _, by rw [addRecount, hpasses]⟩

theorem st_of_frameLive {s : State} {op : FrameOp} (h : frameLive s op = true) : s.sys.st = .running := by
  simp only [frameLive, running, Bool.and_eq_true, decide_eq_true_eq] at h
  obtain ⟨⟨⟨hst, -⟩, -⟩, -⟩ := h
  exact hst

/-! ## The recount (R76, R436) -/

theorem vget_foldl_vset {α : Type} {n : Nat} (ps : List Nat) (v : Vector α n) (m d : α) {p : Nat} (hp : p < n) (h : p ∈ ps ∨ vget v p d = m) :
    vget (ps.foldl (fun v q => vset v q m) v) p d = m := by
  induction ps generalizing v with
  | nil => exact h.resolve_left List.not_mem_nil
  | cons q ps ih =>
    refine ih _ ?_
    by_cases hq : p = q
    · subst hq
      exact .inr (vget_vset_same _ hp _ _)
    · exact h.imp (fun hin => (List.mem_cons.mp hin).resolve_left hq) fun hv => (vget_vset_other _ hq _ _).trans hv

/-- The operation once the recount of its first selected tile has streamed. -/
def recountOp (op : FrameOp) (x : SelTile) (out : TileOut) (throttle : Nat) : FrameOp :=
  let o := noteReplay (addRecount op x.ti 0 0) out
  { o with throttle := o.throttle + throttle, cyc := o.cyc + throttle }

/-- The state that counts the recount, its codes raised. -/
def recountCounted (s : State) (out : TileOut) : State :=
  let u := raiseTile { s with frm := { s.frm with rotated := true, replay := false } } out.codes
  { u with knl := { u.knl with rcDone := satAdd32 u.knl.rcDone 1 } }

/-- The tile whose recount did not match. -/
def mismatched (x : SelTile) (d1 : List Word) (out : TileOut) : SelTile := { x with d1 := d1, nonfinite := out.t.nonfinite, seqOvf := out.t.seqOvf }

theorem mismatch_of_recountDue {op : FrameOp} {x : SelTile} (h : recountDue op = some x) : op.mismatch = none := by
  unfold recountDue at h
  split at h
  case isTrue hdue =>
    obtain ⟨-, -, hnone⟩ := hdue
    exact Option.isNone_iff_eq_none.mp hnone
  case isFalse => cases h

theorem recountCounted_eq {s : State} (h : s.die ≠ .off) {out : TileOut} (hc : ∀ c ∈ out.codes, UnitCode .frm c) : ∃ e l,
    recountCounted s out = { s with
      frm := { s.frm with rotated := true, replay := false, event := e }
      knl := { s.knl with inflight := l, rcDone := satAdd32 s.knl.rcDone 1 } } := by
  obtain ⟨e, l, hraise⟩ := raiseTile_eq hc (s := { s with frm := { s.frm with rotated := true, replay := false } }) h
  exact ⟨e, l, by rw [recountCounted, hraise]⟩

section
variable {s : State} {op : FrameOp} {x : SelTile} (hcur : curOp s = some op) (hlive : frameLive s op = true) (hcredit : creditHeld s 0 = false)
  (hsource : sourceVerifies s op.desc op.width x.ti x.tj = true)
include hcur hlive hcredit hsource

theorem recountReplay_eq (hdue : recountDue op = some x) {faults : List CarryFault} (hstop : (recountTile s op true x faults).stop = none)
    (throttle : Nat) : recountReplay s throttle faults =
      let out := recountTile s op true x faults
      let d1 := replayDigest op x out
      let u := recountCounted s out
      if d1 = x.d0 then
        keepStrips (setCur u { recountOp op x out throttle with sel := op.sel.drop 1 }) (tileStrips u op.desc op.width x.tj)
      else
        setCur { u with knl := { u.knl with rcMismatch := satAdd32 u.knl.rcMismatch 1, classify := true } }
          { recountOp op x out throttle with mismatch := some (mismatched x d1 out), sel := op.sel.drop 1 } := by
  simp only [recountReplay, hcur, hdue, hlive, hcredit, hsource, hstop, Bool.not_true, Bool.or_self, Bool.false_eq_true, if_false,
    Option.isSome_none, recountOp, recountCounted, mismatched]

theorem runs_recountReplay (hdue : recountDue op = some x) {faults : List CarryFault} (hstop : (recountTile s op true x faults).stop = none)
    (throttle : Nat) : let d1 := replayDigest op x (recountTile s op true x faults)
    ∃ t, exec (.recountReplay throttle faults) s = .next t ∧
      t.knl.rcDone = satAdd32 s.knl.rcDone 1 ∧ t.frm.rotated = true ∧ t.frm.slots = s.frm.slots ∧ t.str = s.str ∧
      t.mem = s.mem ∧ t.brd = s.brd ∧
      (∃ op', t.frm.ops = s.frm.ops.set (curIdx s.frm.ops) op' ∧ op'.sel = op.sel.drop 1 ∧
        (d1 = x.d0 → op'.mismatch = none) ∧ (d1 ≠ x.d0 → ∃ y, op'.mismatch = some y ∧ y.d0 = x.d0 ∧ y.d1 = d1 ∧ y.idx = x.idx)) ∧
      (d1 = x.d0 → t.knl.rcMismatch = s.knl.rcMismatch ∧ t.knl.classify = s.knl.classify ∧
        ∀ p ∈ tileStrips s op.desc op.width x.tj, p < 16 → vget t.knl.stripKept p 0 = s.str.marker) ∧
      (d1 ≠ x.d0 → t.knl.rcMismatch = satAdd32 s.knl.rcMismatch 1 ∧ t.knl.classify = true ∧ t.knl.stripKept = s.knl.stripKept) := by
  intro d1
  have hserve := recountReplay_eq hcur hlive hcredit hsource hdue hstop throttle
  obtain ⟨e, l, hcounted⟩ := recountCounted_eq (frameLive_released hlive) (recountTile_codes s op true x faults)
  obtain ⟨c, p, n, hop⟩ := addRecount_eq op x.ti 0 0
  have hnone : (recountOp op x (recountTile s op true x faults) throttle).mismatch = none := by
    rw [recountOp, hop]
    exact mismatch_of_recountDue hdue
  simp only [hcounted] at hserve
  by_cases hmatch : d1 = x.d0
  · rw [if_pos hmatch] at hserve
    refine ⟨_, congrArg Host.Outcome.next hserve, rfl, rfl, rfl, rfl, rfl, rfl, ⟨_, rfl, rfl, fun _ => hnone, fun h => absurd hmatch h⟩,
      fun _ => ⟨rfl, rfl, fun q hq hlt => ?_⟩, fun h => absurd hmatch h⟩
    exact vget_foldl_vset _ _ _ _ hlt (.inl hq)
  · rw [if_neg hmatch] at hserve
    exact ⟨_, congrArg Host.Outcome.next hserve, rfl, rfl, rfl, rfl, rfl, rfl,
      ⟨_, rfl, rfl, fun h => absurd h hmatch, fun _ => ⟨_, rfl, rfl, rfl, rfl⟩⟩, fun h => absurd h hmatch, fun _ => ⟨rfl, rfl, rfl⟩⟩

end

/-! ## What mapping beads out keeps (R79 to R83) -/

/-- From s to t the memories, the carry slots and the classification that is under way stay, and so do the device's state and a drill's mark. -/
structure DetKept (s t : State) : Prop where
  die : t.die = s.die
  st : t.sys.st = s.sys.st
  drill : t.sys.drill = s.sys.drill
  classify : t.knl.classify = s.knl.classify
  hbm : t.mem.hbm = s.mem.hbm
  board : t.brd.mem = s.brd.mem
  slots : t.frm.slots = s.frm.slots

theorem DetKept.refl (s : State) : DetKept s s := ⟨rfl, rfl, rfl, rfl, rfl, rfl, rfl⟩

theorem DetKept.trans {s t u : State} (h : DetKept s t) (h' : DetKept t u) : DetKept s u :=
  ⟨h'.die.trans h.die, h'.st.trans h.st, h'.drill.trans h.drill, h'.classify.trans h.classify, h'.hbm.trans h.hbm, h'.board.trans h.board,
    h'.slots.trans h.slots⟩

theorem detKept_raise {s : State} (h : s.die ≠ .off) (code : Nat) (eff : Effect) (detail : Bytes) : DetKept s (raise s code eff detail) := by
  refine raise_keeps (R := DetKept) (fun _ _ _ => DetKept.trans) (fun _ _ => DetKept.die) (fun s u b => ?_) (fun s code => ?_) (fun _ _ => ?_) h code eff detail
  · cases u <;> exact ⟨rfl, rfl, rfl, rfl, rfl, rfl, rfl⟩
  · unfold countCode
    split <;> exact ⟨rfl, rfl, rfl, rfl, rfl, rfl, rfl⟩
  · exact ⟨rfl, rfl, rfl, rfl, rfl, rfl, rfl⟩

theorem detKept_useColumn (s : State) (p o : Nat) : DetKept s (useColumn s p o) := by
  unfold useColumn
  split <;> exact ⟨rfl, rfl, rfl, rfl, rfl, rfl, rfl⟩

theorem detKept_useRow (s : State) (b o : Nat) : DetKept s (useRow s b o) := by
  unfold useRow
  split <;> exact ⟨rfl, rfl, rfl, rfl, rfl, rfl, rfl⟩

theorem detKept_degraded (s : State) : DetKept s (sysChange s s.sys.st true s.sys.drill true) := by
  obtain ⟨seq, repl, link, held, period, serial, hchange⟩ := sysChange_eq s s.sys.st true s.sys.drill true
  rw [hchange]
  exact ⟨rfl, rfl, rfl, rfl, rfl, rfl, rfl⟩

theorem detKept_retireStrip {s : State} (h : s.die ≠ .off) (b : Nat) : DetKept s (retireStrip s b) := by
  have hgated : DetKept s (gateDomains { s with frm := { s.frm with retired := some ⟨b % 16, Nat.mod_lt b (by decide)⟩ } } (domMask [b % 16])) :=
    ⟨rfl, rfl, rfl, rfl, rfl, rfl, rfl⟩
  have hchanged := hgated.trans (detKept_degraded _)
  have hreport := hchanged.trans (detKept_raise (by rwa [hchanged.die]) 0x0D010002 .event [])
  exact hreport.trans (detKept_raise (by rwa [hreport.die]) 0x01020006 _ [])

theorem detKept_enterNoWidth {s : State} (h : s.die ≠ .off) (hst : s.sys.st = .running) : DetKept s (enterNoWidth s) := by
  unfold enterNoWidth
  split
  · exact .refl s
  · have hmarked : DetKept s { s with frm := { s.frm with noWidth := true } } := ⟨rfl, rfl, rfl, rfl, rfl, rfl, rfl⟩
    have hreport := hmarked.trans (detKept_raise (by rwa [hmarked.die]) 0x0D010002 .event [])
    generalize raise { s with frm := { s.frm with noWidth := true } } 0x0D010002 .event = u at hreport
    have hwill : DetKept s { u with knl := { u.knl with withdrawAtEnd := true } } :=
      hreport.trans ⟨rfl, rfl, rfl, rfl, rfl, rfl, rfl⟩
    simp only [hreport.st.trans hst]
    exact hwill.trans (detKept_raise (by rwa [hwill.die]) 0x01020007 .jobEnding [])

section
variable {s : State} (h : s.die ≠ .off) (hst : s.sys.st = .running)
include h hst

theorem detKept_mapOutBead (row col : Nat) : DetKept s (mapOutBead s row col) := by
  simp only [mapOutBead]
  split
  · exact .refl s
  split
  · exact detKept_useRow ..
  split
  · exact detKept_useColumn ..
  split
  · exact detKept_useRow ..
  split
  · exact detKept_retireStrip h _
  · exact detKept_enterNoWidth h hst

theorem detKept_mapOutColumn (col : Nat) : DetKept s (mapOutColumn s col) := by
  unfold mapOutColumn
  split
  · exact .refl s
  split
  · exact detKept_useColumn ..
  split
  · exact detKept_retireStrip h _
  · exact detKept_enterNoWidth h hst

theorem detKept_mapOutRow (row : Nat) : DetKept s (mapOutRow s row) := by
  unfold mapOutRow
  split
  · exact .refl s
  split
  · exact detKept_useRow ..
  · exact detKept_enterNoWidth h hst

theorem detKept_foldl {α : Type} {f : State → α → State}
    (hf : ∀ t x, t.die ≠ .off → t.sys.st = .running → DetKept t (f t x)) (xs : List α) : DetKept s (xs.foldl f s) := by
  induction xs generalizing s with
  | nil => exact .refl s
  | cons x xs ih =>
    have hone := hf s x h hst
    exact hone.trans (ih (by rwa [hone.die]) (hone.st.trans hst))

theorem detKept_mapOutBeads (failed : List (Fin 1040 × Fin 1040)) : DetKept s (mapOutBeads s failed) := by
  simp only [mapOutBeads]
  have hcols := detKept_foldl h hst (fun _ c ht hr => detKept_mapOutColumn ht hr c) (wholeCols (failed.map fun b => (b.1.val, b.2.val)))
  generalize (wholeCols (failed.map fun b => (b.1.val, b.2.val))).foldl mapOutColumn s = u at hcols
  have hu : u.die ≠ .off := by rwa [hcols.die]
  have hrows := hcols.trans (detKept_foldl hu (hcols.st.trans hst) (fun _ r ht hr => detKept_mapOutRow ht hr r)
    (wholeRows u (failed.map fun b => (b.1.val, b.2.val))))
  exact hrows.trans (detKept_foldl (by rwa [hrows.die]) (hrows.st.trans hst) (fun _ b ht hr => detKept_mapOutBead ht hr b.1 b.2) _)

end

/-! ## The verdict (Table 12-5) -/

theorem detKept_setCur (s : State) (op : FrameOp) : DetKept s (setCur s op) := ⟨rfl, rfl, rfl, rfl, rfl, rfl, rfl⟩

theorem detKept_setDet (s : State) (op : FrameOp) (x : SelTile) (verdict row col : Nat) (clean : BitVec 64) :
    DetKept s (setDet s op x verdict row col clean) := by
  unfold setDet
  split <;> exact ⟨rfl, rfl, rfl, rfl, rfl, rfl, rfl⟩

theorem detKept_stopStrand (s : State) (n : Nat) : DetKept s (stopStrand s n) := ⟨rfl, rfl, rfl, rfl, rfl, rfl, rfl⟩

/-- The state in which a verdict is formed. -/
def judged (s : State) : State := { s with knl := { s.knl with classify := false } }

/-- The detection registers, and the operation, as a verdict leaves them. -/
def detected (s : State) (op op' : FrameOp) (x : SelTile) (verdict row col : Nat) (clean : BitVec 64) : State :=
  setDet (setCur (judged s) op') op x verdict row col clean

theorem detKept_detected (s : State) (op op' : FrameOp) (x : SelTile) (verdict row col : Nat) (clean : BitVec 64) :
    DetKept (judged s) (detected s op op' x verdict row col clean) := (detKept_setCur ..).trans (detKept_setDet ..)

section
variable {s : State} {op : FrameOp} {x : SelTile} {d2 d3 : List Word} (cyc : Nat) (failed : List (Fin 1040 × Fin 1040))

theorem verdict_transient (h2 : d2 = x.d0) (h3 : d3 = x.d0) : ∃ op', verdict s op x cyc d2 d3 failed = raise (setCur (judged s) op') 0x02010001 .absorbed :=
  ⟨_, if_pos ⟨h2, h3⟩⟩

theorem verdict_agree (h2 : d2 ≠ x.d0) (h3 : d3 = d2) : ∃ op', verdict s op x cyc d2 d3 failed =
    raise (stopStrand (detected s op op' x 2 0x7FF 0x7FF s.str.marker) 0) 0x02010002 .jobEnding := by
  refine ⟨_, (if_neg fun hboth => h2 hboth.1).trans (if_pos ⟨h3.symm, h2⟩)⟩

theorem verdict_open (h : d2 ≠ x.d0 ∧ d3 ≠ d2 ∨ d2 = x.d0 ∧ d3 ≠ x.d0 ∧ d3 ≠ x.d1) : ∃ op', verdict s op x cyc d2 d3 failed =
    raise (stopStrand (detected s op op' x 5 0x7FF 0x7FF (leastKept s)) 0) 0x02010005 .jobEnding := by
  have htransient : ¬(d2 = x.d0 ∧ d3 = x.d0) := by
    rcases h with ⟨h2, -⟩ | ⟨-, h3, -⟩
    · exact fun hboth => h2 hboth.1
    · exact fun hboth => h3 hboth.2
  have hagree : ¬(d2 = d3 ∧ d2 ≠ x.d0) := by
    rcases h with ⟨-, h3⟩ | ⟨h2, -⟩
    · exact fun hboth => h3 hboth.1.symm
    · exact fun hboth => hboth.2 h2
  have hperm : decide (d2 = x.d0 ∧ d3 ≠ x.d0 ∧ d3 = x.d1) = false := by
    refine decide_eq_false ?_
    rcases h with ⟨h2, -⟩ | ⟨-, -, h1⟩
    · exact fun hall => h2 hall.1
    · exact fun hall => h1 hall.2.2
  simp only [verdict, if_neg htransient, if_neg hagree, hperm, Bool.false_eq_true, if_false]
  exact ⟨_, rfl⟩

/-- The state in which a failed bead that a rotated replay points to has been mapped out. -/
def beadMapped (s : State) (op op' : FrameOp) (x : SelTile) (b : Fin 1040 × Fin 1040) : State :=
  mapOutBeads (detected s op op' x (if onPath (judged s) op x (some b.1.val) b.2.val = true then 4 else 3) b.1.val b.2.val
    (vget (judged s).knl.stripKept (b.2.val / 65) 0)) [b]

theorem verdict_bead {b : Fin 1040 × Fin 1040} (h2 : d2 = x.d0) (h3 : d3 ≠ x.d0) (h1 : d3 = x.d1) (hout : beadOut s b.1 b.2 = false) :
    ∃ op', verdict s op x cyc d2 d3 [b] = if onPath (judged s) op x (some b.1.val) b.2.val = true
      then raise (stopStrand (beadMapped s op op' x b) 0) 0x02010004 .jobEnding
      else raise (beadMapped s op op' x b) 0x02010003 .absorbed := by
  have htransient : ¬(d2 = x.d0 ∧ d3 = x.d0) := fun hboth => h3 hboth.2
  have hagree : ¬(d2 = d3 ∧ d2 ≠ x.d0) := fun hboth => hboth.2 h2
  have hperm : decide (d2 = x.d0 ∧ d3 ≠ x.d0 ∧ d3 = x.d1) = true := decide_eq_true ⟨h2, h3, h1⟩
  have hfresh : [b].filter (fun b => !beadOut { s with knl := { s.knl with classify := false } } b.1.val b.2.val) = [b] := by
    have hsame : beadOut { s with knl := { s.knl with classify := false } } b.1.val b.2.val = false := hout
    rw [List.filter_cons, hsame]
    rfl
  simp only [verdict, if_neg htransient, if_neg hagree, hperm, if_true, hfresh, List.any_cons, List.any_nil, Bool.or_false]
  exact ⟨_, rfl⟩

end

theorem detKept_stops {s w : State} (hd : s.die ≠ .off) (h : DetKept s w) (code : Nat) :
    DetKept s (raise (stopStrand w 0) code .jobEnding) := by
  have hstop := h.trans (detKept_stopStrand w 0)
  exact hstop.trans (detKept_raise (by rwa [hstop.die]) code .jobEnding [])

theorem detKept_absorbs {s w : State} (hd : s.die ≠ .off) (h : DetKept s w) (code : Nat) : DetKept s (raise w code .absorbed) :=
  h.trans (detKept_raise (by rwa [h.die]) code .absorbed [])

/-- Whatever the verdict, the memories and the carry slots stay. -/
theorem detKept_verdict {s : State} (hd : s.die ≠ .off) (hst : s.sys.st = .running) (op : FrameOp) (x : SelTile) (cyc : Nat) (d2 d3 : List Word)
    (failed : List (Fin 1040 × Fin 1040)) : DetKept (judged s) (verdict s op x cyc d2 d3 failed) := by
  have hj : (judged s).die ≠ .off := hd
  have hmapped : ∀ {w : State}, DetKept (judged s) w → DetKept (judged s) (mapOutBeads w failed) := fun hw =>
    hw.trans (detKept_mapOutBeads (by rwa [hw.die]) (hw.st.trans hst) failed)
  have hcolumn : ∀ {w : State} (col : Nat), DetKept (judged s) w → DetKept (judged s) (mapOutColumn w col) := fun col hw =>
    hw.trans (detKept_mapOutColumn (by rwa [hw.die]) (hw.st.trans hst) col)
  simp only [verdict]
  split
  · exact detKept_absorbs hj (detKept_setCur ..) _
  split
  · exact detKept_stops hj (detKept_detected ..) _
  split
  · split
    · split
      · exact detKept_stops hj (hmapped (detKept_detected ..)) _
      · exact detKept_absorbs hj (hmapped (detKept_detected ..)) _
    · split
      · split
        · exact detKept_stops hj (hcolumn _ (detKept_detected ..)) _
        · exact detKept_absorbs hj (hcolumn _ (detKept_detected ..)) _
      · exact detKept_stops hj (detKept_detected ..) _
  · exact detKept_stops hj (detKept_detected ..) _

/-! ## The classification (R437) -/

/-- The end of a drill leaves what a verdict has set. -/
theorem drillHandled_verdict (s : State) (k : Nat) : (drillHandled s k).knl = s.knl ∧ (drillHandled s k).frm = s.frm ∧
    (drillHandled s k).brd = s.brd := by
  unfold drillHandled
  split
  · obtain ⟨seq, repl, link, held, period, serial, hchange⟩ :=
      sysChange_eq { s with snp := { s.snp with drillActive := none } } s.sys.st s.sys.degraded false s.sys.replace
    rw [endDrill, hchange]
    exact ⟨rfl, rfl, rfl⟩
  · exact ⟨rfl, rfl, rfl⟩

theorem onItsWay_drillHandled {s : State} {code : Nat} {eff : Effect} {detail : Bytes} {drill : Bool} (h : OnItsWay s code eff detail drill)
    (k : Nat) : OnItsWay (drillHandled s k) code eff detail drill := by
  obtain ⟨hknl, -, -⟩ := drillHandled_verdict s k
  rwa [OnItsWay, hknl]

/-- A job-ending verdict is on its way, and the Frame's strand is stopped. -/
theorem stops_verdict {w : State} (hd : w.die ≠ .off) (code : Nat) :
    let t := drillHandled (raise (stopStrand w 0) code .jobEnding) 3
    OnItsWay t code .jobEnding [] w.sys.drill ∧ (strand t 0).st = 8 := by
  refine ⟨onItsWay_drillHandled (raise_onItsWay (s := stopStrand w 0) hd code .jobEnding []) 3, ?_⟩
  obtain ⟨-, -, hstr⟩ := drillHandled_leaves (raise (stopStrand w 0) code .jobEnding) 3
  rw [strand_congr (s := stopStrand w 0) (by rw [hstr, raise_str]), stopStrand, setStrandSt, strand_setStrand_same _ (by decide)]

/-- Its detection registers are those that were set before the stop. -/
theorem det_verdict {w : State} (hd : w.die ≠ .off) {code b : Nat} (hb : eventBit code = some (.knl, b)) (hc : ∀ t, countCode t code = t) :
    let t := drillHandled (raise (stopStrand w 0) code .jobEnding) 3
    t.knl.detVerdict = w.knl.detVerdict ∧ t.knl.clean = w.knl.clean ∧ t.knl.detOpnum = w.knl.detOpnum := by
  obtain ⟨hdrill, -, -⟩ := drillHandled_verdict (raise (stopStrand w 0) code .jobEnding) 3
  have hraise := congrArg State.knl (raise_onlyKnl (s := stopStrand w 0) hd hb hc .jobEnding [])
  have hknl := hdrill.trans hraise
  exact ⟨(congrArg Knl.detVerdict hknl :), (congrArg Knl.clean hknl :), (congrArg Knl.detOpnum hknl :)⟩

theorem det_detected {s : State} (h : s.knl.detSet = false) (op op' : FrameOp) (x : SelTile) (verdict row col : Nat) (clean : BitVec 64) :
    (detected s op op' x verdict row col clean).knl.detVerdict = BitVec.ofNat 4 verdict ∧
    (detected s op op' x verdict row col clean).knl.clean = clean ∧ (detected s op op' x verdict row col clean).knl.detOpnum = op.num := by
  have hset : detected s op op' x verdict row col clean = _ := if_neg (Bool.eq_false_iff.mp h)
  rw [hset]
  exact ⟨rfl, rfl, rfl⟩

section
variable {s : State} {op : FrameOp} {x : SelTile} (hcur : curOp s = some op) (hmismatch : op.mismatch = some x) (hlive : frameLive s op = true)
  (hcredit : creditHeld s 0 = false) (hsource : sourceVerifies s op.desc op.width x.ti x.tj = true)
include hcur hmismatch hlive hcredit hsource

theorem classificationReplay_eq {f2 f3 : List CarryFault} (hstop2 : (recountTile s op false x f2).stop = none)
    (hstop3 : (recountTile s op true x f3).stop = none) (cyc : Nat) (failed : List (Fin 1040 × Fin 1040)) :
    classificationReplay s cyc f2 f3 failed = drillHandled
      (verdict (raiseTile s ((recountTile s op false x f2).codes ++ (recountTile s op true x f3).codes).eraseDups)
        (noteReplay (noteReplay op (recountTile s op false x f2)) (recountTile s op true x f3)) x cyc
        (replayDigest op x (recountTile s op false x f2)) (replayDigest op x (recountTile s op true x f3)) failed) 3 := by
  simp only [classificationReplay, hcur, hmismatch, hlive, hcredit, hsource, hstop2, hstop3, Bool.not_true, Bool.or_self, Bool.false_eq_true,
    if_false, Option.isSome_none]
  rfl

theorem runs_classificationReplay {f2 f3 : List CarryFault} (hstop2 : (recountTile s op false x f2).stop = none)
    (hstop3 : (recountTile s op true x f3).stop = none) (cyc : Nat) (failed : List (Fin 1040 × Fin 1040)) :
    let d2 := replayDigest op x (recountTile s op false x f2)
    let d3 := replayDigest op x (recountTile s op true x f3)
    ∃ t, exec (.classificationReplay cyc f2 f3 failed) s = .next t ∧ t.knl.classify = false ∧
      t.mem.hbm = s.mem.hbm ∧ t.brd.mem = s.brd.mem ∧ t.frm.slots = s.frm.slots ∧
      (d2 = x.d0 → d3 = x.d0 → OnItsWay t 0x02010001 .absorbed [] s.sys.drill ∧ t.str.strands = s.str.strands) ∧
      (d2 ≠ x.d0 → d3 = d2 → OnItsWay t 0x02010002 .jobEnding [] s.sys.drill ∧ (strand t 0).st = 8 ∧
        (s.knl.detSet = false → t.knl.detVerdict = 2 ∧ t.knl.clean = s.str.marker ∧ t.knl.detOpnum = op.num)) ∧
      (d2 ≠ x.d0 ∧ d3 ≠ d2 ∨ d2 = x.d0 ∧ d3 ≠ x.d0 ∧ d3 ≠ x.d1 →
        OnItsWay t 0x02010005 .jobEnding [] s.sys.drill ∧ (strand t 0).st = 8 ∧
        (s.knl.detSet = false → t.knl.detVerdict = 5 ∧ t.knl.clean = leastKept s)) ∧
      (∀ b, failed = [b] → d2 = x.d0 → d3 ≠ x.d0 → d3 = x.d1 → beadOut s b.1 b.2 = false →
        if onPath s op x (some b.1.val) b.2.val = true then
          OnItsWay t 0x02010004 .jobEnding [] s.sys.drill ∧ (strand t 0).st = 8
        else OnItsWay t 0x02010003 .absorbed [] s.sys.drill) := by
  intro d2 d3
  have hserve := classificationReplay_eq hcur hmismatch hlive hcredit hsource hstop2 hstop3 cyc failed
  have hd := frameLive_released hlive
  have hst := st_of_frameLive hlive
  have hcodes : ∀ c ∈ ((recountTile s op false x f2).codes ++ (recountTile s op true x f3).codes).eraseDups, UnitCode .frm c := fun c hc => by
    rcases List.mem_append.mp (List.mem_eraseDups.mp hc) with hc | hc
    · exact recountTile_codes _ _ _ _ _ c hc
    · exact recountTile_codes _ _ _ _ _ c hc
  obtain ⟨e, l, hraise⟩ := raiseTile_eq hcodes hd
  rw [hraise] at hserve
  obtain ⟨o, ho, hnum, hpath⟩ : ∃ o, o = noteReplay (noteReplay op (recountTile s op false x f2)) (recountTile s op true x f3) ∧ o.num = op.num ∧
      onPath (judged { s with frm := { s.frm with event := e }, knl := { s.knl with inflight := l } }) o x = onPath s op x := ⟨_, rfl, rfl, rfl⟩
  rw [← ho] at hserve
  generalize hu : ({ s with frm := { s.frm with event := e }, knl := { s.knl with inflight := l } } : State) = u at hserve hpath
  have hdu : u.die ≠ .off := by rwa [← hu]
  have hstu : u.sys.st = .running := by rwa [← hu]
  have hsys : u.sys = s.sys := by rw [← hu]
  have hstr : u.str = s.str := by rw [← hu]
  have hdet : u.knl.detSet = s.knl.detSet := by rw [← hu]
  have hleast : leastKept u = leastKept s := by rw [← hu]; rfl
  have hbead : ∀ b : Fin 1040 × Fin 1040, beadOut u b.1 b.2 = beadOut s b.1 b.2 := fun b => by rw [← hu]; rfl
  have hmems : u.mem = s.mem ∧ u.brd = s.brd ∧ u.frm.slots = s.frm.slots := by rw [← hu]; exact ⟨rfl, rfl, rfl⟩
  obtain ⟨hmem, hbrd, hslots⟩ := hmems
  have hkept := detKept_verdict hdu hstu o x cyc d2 d3 failed
  obtain ⟨hknl, hfrm, hboard⟩ := drillHandled_verdict (verdict u o x cyc d2 d3 failed) 3
  obtain ⟨-, hmem', hstr'⟩ := drillHandled_leaves (verdict u o x cyc d2 d3 failed) 3
  refine ⟨_, congrArg Host.Outcome.next hserve, ?_, ?_, ?_, ?_, ?_, ?_, ?_, ?_⟩
  · rw [hknl, hkept.classify]
    rfl
  · rw [hmem', hkept.hbm, ← hmem]
    rfl
  · rw [hboard, hkept.board, ← hbrd]
    rfl
  · rw [hfrm, hkept.slots, ← hslots]
    rfl
  · intro h2 h3
    obtain ⟨op', hverdict⟩ := verdict_transient (s := u) (op := o) cyc failed h2 h3
    refine ⟨onItsWay_drillHandled ?_ 3, ?_⟩
    · rw [hverdict, ← hsys]
      exact raise_onItsWay (s := setCur (judged u) op') hdu 0x02010001 .absorbed []
    · rw [hstr', hverdict, raise_str, ← hstr]
      rfl
  · intro h2 h3
    obtain ⟨op', hverdict⟩ := verdict_agree (s := u) (op := o) cyc failed h2 h3
    have hw := detKept_detected u o op' x 2 0x7FF 0x7FF u.str.marker
    rw [hverdict]
    obtain ⟨hway, hstopped⟩ := stops_verdict (w := detected u o op' x 2 0x7FF 0x7FF u.str.marker) (by rw [hw.die]; exact hdu) 0x02010002
    obtain ⟨hv, hclean, hopnum⟩ := det_verdict (w := detected u o op' x 2 0x7FF 0x7FF u.str.marker) (code := 0x02010002) (b := 1)
      (by rw [hw.die]; exact hdu) rfl fun _ => rfl
    refine ⟨?_, hstopped, fun hset => ?_⟩
    · rw [← hsys]
      rwa [hw.drill] at hway
    · obtain ⟨hv', hclean', hopnum'⟩ := det_detected (hdet.trans hset) o op' x 2 0x7FF 0x7FF u.str.marker
      exact ⟨hv.trans hv', (hclean.trans hclean').trans (by rw [hstr]), (hopnum.trans hopnum').trans hnum⟩
  · intro hopen
    obtain ⟨op', hverdict⟩ := verdict_open (s := u) (op := o) cyc failed hopen
    have hw := detKept_detected u o op' x 5 0x7FF 0x7FF (leastKept u)
    rw [hverdict]
    obtain ⟨hway, hstopped⟩ := stops_verdict (w := detected u o op' x 5 0x7FF 0x7FF (leastKept u)) (by rw [hw.die]; exact hdu) 0x02010005
    obtain ⟨hv, hclean, -⟩ := det_verdict (w := detected u o op' x 5 0x7FF 0x7FF (leastKept u)) (code := 0x02010005) (b := 3)
      (by rw [hw.die]; exact hdu) rfl fun _ => rfl
    refine ⟨?_, hstopped, fun hset => ?_⟩
    · rw [← hsys]
      rwa [hw.drill] at hway
    · obtain ⟨hv', hclean', -⟩ := det_detected (hdet.trans hset) o op' x 5 0x7FF 0x7FF (leastKept u)
      exact ⟨hv.trans hv', (hclean.trans hclean').trans hleast⟩
  · rintro b rfl h2 h3 h1 hout
    obtain ⟨op', hverdict⟩ := verdict_bead (s := u) (op := o) cyc h2 h3 h1 ((hbead b).trans hout)
    have hdetected := detKept_detected u o op' x (if onPath (judged u) o x (some b.1.val) b.2.val = true then 4 else 3) b.1.val b.2.val
      (vget (judged u).knl.stripKept (b.2.val / 65) 0)
    have hw : DetKept (judged u) (beadMapped u o op' x b) :=
      hdetected.trans (detKept_mapOutBeads (by rw [hdetected.die]; exact hdu) (hdetected.st.trans hstu) [b])
    have hdw : (beadMapped u o op' x b).die ≠ .off := by rw [hw.die]; exact hdu
    have hdrill : (beadMapped u o op' x b).sys.drill = s.sys.drill := hw.drill.trans (by rw [← hsys]; rfl)
    rw [hverdict, hpath]
    split
    · obtain ⟨hway, hstopped⟩ := stops_verdict hdw 0x02010004
      exact ⟨hdrill ▸ hway, hstopped⟩
    · exact hdrill ▸ onItsWay_drillHandled (raise_onItsWay hdw 0x02010003 .absorbed []) 3

end

/-- Settles O20: the window, the recount by whether its digest matches, and the classification by the rows of Table 12-5. -/
theorem recountsAndClassification : Obligations.RecountsAndClassification := by
  unfold Obligations.RecountsAndClassification
  exact ⟨⟨fun s => runs_recountWindowEnd, fun s op x throttle faults hcur hdue hlive hcredit hsource hstop =>
      runs_recountReplay hcur hlive hcredit hsource hdue hstop throttle⟩,
    fun s op x cyc f2 f3 failed hcur hmismatch hlive hcredit hsource hstop2 hstop3 =>
      runs_classificationReplay hcur hmismatch hlive hcredit hsource hstop2 hstop3 cyc failed⟩

end Sys2Proof.Machine
end
